-- ==== Sys2Proof/Word.lean ====
section
/-! DEFINITION. The device's word types and their plainest arithmetic (R7, R8): bytes, 32-bit register words,
little-endian byte strings, bit tests on numbers. -/

namespace Sys2Proof

/-- One byte. -/
abbrev Byte := BitVec 8

/-- One register word (R540: every BAR0 access is one DWORD). -/
abbrev Word := BitVec 32

/-- The number a byte string holds, least significant byte first (R7). -/
def leNat : List Byte → Nat
  | [] => 0
  | b :: bs => b.toNat + 256 * leNat bs

/-- `n` bytes of a number, least significant byte first (R7). -/
def leBytes : Nat → Nat → List Byte
  | 0, _ => []
  | n + 1, v => BitVec.ofNat 8 v :: leBytes n (v / 256)

/-- `n` bytes of a number, most significant byte first (formats that keep their standard's order, R7). -/
def beBytes (n v : Nat) : List Byte := (leBytes n v).reverse

/-- `n` zero bytes (reserved fields of the device's own records are zero, R9). -/
def zeros (n : Nat) : List Byte := List.replicate n 0

/-- The `n` bytes at offset `o`; bytes beyond the end read as zero. -/
def bytesAt (l : List Byte) (o n : Nat) : List Byte := ((l.drop o) ++ zeros n).take n

/-- The little-endian number in the `n` bytes at offset `o`. -/
def numAt (l : List Byte) (o n : Nat) : Nat := leNat (bytesAt l o n)

/-- The byte string of length `n` that starts with `l` and is padded with zeros. -/
def padTo (n : Nat) (l : List Byte) : List Byte := (l ++ zeros n).take n

/-- Bit `k` of a number. -/
def bit (n k : Nat) : Bool := n.testBit k

/-- The field of `w` bits of `n` from bit `k` upward (R8). -/
def field (n k w : Nat) : Nat := (n / 2 ^ k) % 2 ^ w

/-- A flag placed at bit `k`. -/
def flagAt (b : Bool) (k : Nat) : Nat := if b then 2 ^ k else 0

/-- `n` with bit `k` set. -/
def setBit (n k : Nat) : Nat := if n.testBit k then n else n + 2 ^ k

/-- `n` with bit `k` cleared. -/
def clearBit (n k : Nat) : Nat := if n.testBit k then n - 2 ^ k else n

/-- A counter that stays at its limit once it reaches it (R542). -/
def satAdd (lim n k : Nat) : Nat := min lim (n + k)

/-- Every byte is zero. -/
def allZero (l : List Byte) : Bool := l.all (· == 0)

/-- The least number of units of size `u` that hold `n`. -/
def ceilDiv (n u : Nat) : Nat := (n + u - 1) / u

/-- One bit of the reflected CRC-32C (Castagnoli) shift register (PRESUMED, log 12: the spec names the CRC and not its
parameters). -/
def crcBit (c : Nat) : Nat := if c % 2 = 1 then Nat.xor (c / 2) 0x82F63B78 else c / 2

/-- One byte into the CRC register. -/
def crcByte (c : Nat) (b : Byte) : Nat :=
  crcBit (crcBit (crcBit (crcBit (crcBit (crcBit (crcBit (crcBit (Nat.xor c b.toNat))))))))

/-- CRC-32C of a byte string. -/
def crc32c (l : List Byte) : Nat := Nat.xor (l.foldl crcByte 0xFFFFFFFF) 0xFFFFFFFF

end Sys2Proof
end

