-- ==== Sys2Proof/Types.lean ====
section
/-! DEFINITION. The records that commands carry and that the state keeps: protection-information controls, logical
blocks, Coil records, Stake frames and replies, peer messages, Data Mover descriptors. -/

namespace Sys2Proof

/-- One logical block as a data host transfers it: its data and its protection information (Table 07-7). -/
structure Block where
  data  : List Byte
  guard : Nat := 0
  app   : Nat := 0
  ref   : Nat := 0
  deriving DecidableEq, Repr, Inhabited

/-- The protection-information controls of an NVMe command (R197, R198). -/
structure PiCtl where
  pract : Bool := false
  /-- PRCHK: bit 0 reference tag, bit 1 application tag, bit 2 guard. -/
  prchk : Nat := 0
  /-- ILBRT on a write, EILBRT on a read. -/
  refTag : Nat := 0
  appTag : Nat := 0
  appMask : Nat := 0
  fua : Bool := false
  /-- The data pointer's address and remote key, of a keyed SGL data block (R181, R226). -/
  addr : Nat := 0
  key : Nat := 0
  deriving DecidableEq, Repr, Inhabited

/-- An NVMe I/O command as it is forwarded over the peer link (Table 17-2, FWD_CMD). -/
structure IoCmd where
  opcode : Nat
  nsid   : Nat
  slba   : Nat := 0
  nlb    : Nat := 0
  pi     : PiCtl := {}
  deac   : Bool := false
  ad     : Bool := false
  ranges : List (Nat × Nat) := []
  sglLen : Nat := 0
  deriving DecidableEq, Repr, Inhabited

/-- The multipath extended header (Table 09-4). -/
structure Mpeth where
  msn    : Nat
  path   : Nat := 0
  last   : Bool := false
  first  : Bool := false
  offset : Nat := 0
  deriving DecidableEq, Repr, Inhabited

/-- What the headers of a RoCEv2 packet say beside its kind: its PSN, and whether it arrives marked CE (R224). -/
structure Bth where
  psn : Nat
  ce  : Bool := false
  deriving DecidableEq, Repr, Inhabited

/-- The page that Get Log Page asks for: its identifier, NUMDU and NUMDL as one 0-based count of Dwords, the data pointer's length. -/
structure LogRequest where
  lid    : Nat
  numd   : Nat
  sglLen : Nat
  deriving DecidableEq, Repr, Inhabited

/-- What Identify asks for: CNS, and the command set where it names one. -/
structure IdRequest where
  cns : Nat
  csi : Nat := 0
  deriving DecidableEq, Repr, Inhabited

/-- The ranges of Dataset Management: NR, counting from 0, the first block and length of each, the data pointer's length. -/
structure DsmRanges where
  nr     : Nat
  ranges : List (Nat × Nat)
  sglLen : Nat
  deriving DecidableEq, Repr, Inhabited

/-- A command of a submission queue, by the queue and its command identifier; queue 0 holds the admin commands. -/
structure SqEntry where
  sq  : Nat
  cid : Nat
  deriving DecidableEq, Repr, Inhabited

/-- A command that waits for a range lock: that of a tag, or a PLEM operation by its ring and sequence number (R211). -/
inductive LockWaiter where
  | tag (n : Nat)
  | plem (ring seq : Nat)
  deriving DecidableEq, Repr

/-- A RoCEv2 packet of an established connection (Table 09-1), without its connection and PSN. -/
inductive RocePkt where
  | send (length : Nat) (first last : Bool) (bytes : List Byte)
  | write (rkey va dmaLen : Nat) (first last : Bool) (mpeth : Option Mpeth) (bytes : List Byte)
  | readReq (rkey va dmaLen : Nat)
  | readResp (last : Bool) (bytes : List Byte)
  | ack (credits : Nat)
  | atomicAck (value : Nat)
  | swap (rkey va compare value : Nat)
  | add (rkey va value : Nat)
  | cnp
  /-- A request whose opcode is not supported. -/
  | unsupported
  deriving DecidableEq, Repr

/-- A logical entry of a map delta (Table 12-7). -/
structure DeltaEntry where
  chunk  : Nat
  /-- 0 mapped, 1 zero, 2 deallocated. -/
  kind   : Nat
  stored : Nat := 0
  dealloc : Nat := 0
  apps   : List Nat := []
  refs   : List Nat := []
  /-- The reference was made by deduplication (R266). -/
  dup    : Bool := false
  deriving DecidableEq, Repr, Inhabited

/-- A chunk of a data record (Table 12-4): its plaintext, fingerprint and guard set. -/
structure ChunkData where
  data : List Byte
  fp : List Byte := []
  guards : List Nat := []
  deriving DecidableEq, Repr, Inhabited

/-- The body of a Coil journal record (Tables 12-4 to 12-8). A head's own data record leaves its content with the stored
chunks; a record received from the peer carries it (log 33). -/
inductive CoilBody where
  | data (bundle : Nat) (domain : Nat) (content : List ChunkData)
  | commit (arrival deltaJseq vol part parts first blocks : Nat)
  | commitOp (arrival deltaJseq vol : Nat)
  | delta (arrival vol : Nat) (entries : List DeltaEntry)
  /-- An operation body (subtype 0x01): the operation and its numbers and bytes, in the model's own form. -/
  | deltaOp (arrival vol op : Nat) (nums : List Nat) (bytes : List Byte)
  | intent (seg pos state pack buffer : Nat)
  | band (band state prev row gen batch : Nat)
  | pad
  deriving DecidableEq, Repr, Inhabited

/-- A Coil journal record (Table 12-3). -/
structure CoilRec where
  jseq  : Nat
  /-- Line index at which the record starts. -/
  line  : Nat
  lines : Nat
  body  : CoilBody
  released : Bool := false
  /-- Its lines as this head wrote them, or as they were received (R313). -/
  bytes : List Byte := []
  deriving DecidableEq, Repr

/-- A received Stake or peer-link transaction frame as the link layer sees it (Table 16-1). -/
structure Frame where
  type : Nat
  vc   : Nat := 0
  len  : Nat := 0
  seq  : Nat := 0
  tag  : Nat := 0
  cmd  : Nat := 0
  crcOk : Bool := true
  rsvdZero : Bool := true
  deriving DecidableEq, Repr, Inhabited

/-- An IDENT reply (Table 16-4). -/
structure Ident where
  identity : Nat
  arrival  : Nat := 0
  closed   : Bool := false
  otherClosed : Bool := false
  maxTags  : Nat := 1024
  protoMajor : Nat := 1
  epoch    : Nat := 0
  deriving DecidableEq, Repr, Inhabited

/-- A GEOM reply (Table 16-4). -/
structure Geom where
  cell : Nat := 3
  dies : Nat := 1
  planes : Nat := 1
  rawBytes : Nat := 0
  /-- b, in units of 64 KiB. -/
  blockUnits : Nat := 0
  blocks : Nat := 0
  page : Nat := 0
  progUnit : Nat := 0
  rated : Nat := 0
  ratedReads : Nat := 0
  corrLimit : Nat := 0
  deriving DecidableEq, Repr, Inhabited

/-- A HELLO (Table 17-3) as received, with what the checks of Table 17-4 look at. -/
structure Hello where
  format : Nat := 1
  chip   : Nat := 1
  side   : Bool
  protoMajor : Nat
  protoMinor : Nat
  bootCounter : Nat := 0
  ownerRoot : List Byte := []
  chainOk : Bool := true
  /-- SHA-384 of the peer's DeviceID SubjectPublicKeyInfo (R461). -/
  devId  : List Byte := []
  /-- The HELLO came over a legacy class 3 connection (R464). -/
  viaLegacy : Bool := false
  deriving DecidableEq, Repr, Inhabited

/-- A peer health record (Table 17-5). -/
structure Health where
  crcOk : Bool := true
  side : Bool := false
  holder : Bool := false
  eligible : Bool := false
  service : Bool := false
  digestMismatch : Bool := false
  selfTestFail : Bool := false
  unreachable : Nat := 0
  seq : Nat := 0
  epoch : Nat := 0
  genCur : Nat := 0
  genNew : Nat := 0
  asn : Nat := 0
  digest : List Byte := []
  deriving DecidableEq, Repr, Inhabited

/-- An authority decision (R450), as the standby receives it in AUTH_STATE. -/
inductive AuthDecision where
  | newGeneration (gen d p s r members : Nat)
  | switch (gen : Nat)
  | cancelGeneration (gen : Nat)
  | admitPack (port : Nat) (identity : Nat)
  | retire (port : Nat)
  | declareFailed (port cause : Nat)
  | mapRoot
  | epoch (e : Nat)
  deriving DecidableEq, Repr

/-- A Data Mover descriptor (Table 18-2). -/
structure DmvDesc where
  flags : Nat := 0
  pace : Nat := 0
  notifyRing : Nat := 0
  region : Nat := 0
  rsvd5 : Nat := 0
  srcCount : Nat := 0
  srcSgl : Nat := 0
  dst : Nat := 0
  dstLen : Nat := 0
  pattern : Nat := 0
  tag : Nat := 0
  rsvd48 : Nat := 0
  deriving DecidableEq, Repr, Inhabited

/-- A Data Mover source entry (R470). -/
structure SgEntry where
  addr : Nat
  len  : Nat
  rsvd : Nat := 0
  deriving DecidableEq, Repr, Inhabited

/-- Where a Hamper or Coil access comes from (R24). -/
inductive AccessSrc where
  /-- A data-plane engine. -/
  | dataEngine
  /-- The power-group controller's tile state (R467). -/
  | controlCore
  | mgmtCore
  /-- A Data Mover lane, by number (Table 18-1). -/
  | lane (n : Nat)
  deriving DecidableEq, Repr

/-- The instructions of the test access port (R56). -/
inductive TapInstr where
  | bypass | idcode | extest | extestPulse | extestTrain | samplePreload
  /-- Any other instruction value. -/
  | other (code : Nat)
  deriving DecidableEq, Repr

end Sys2Proof
end

