-- ==== Sys2Proof/Syntax.lean ====
section
/-! DEFINITION. The commands and events of the device: one constructor per row of the table of steps, with the
operands the rules give the step. -/

namespace Sys2Proof

/-- The device's steps (95_what_each_step_holds.md): commands from outside, events on pins and links, and the
device's own timed events. -/
inductive Instr where
  /-- PWROK_RISE (R66): A rising edge of PWROK starts a power-on reset of the whole device: HDL_SIDE is sampled,
     OSPI_RESET_N is asserted and the start-up timetable begins. Operands: HDL_SIDE strap (true = side B) and the
     level of PWRFAIL_N at the edge. -/
  | pwrokRise (sideB : Bool) (pwrfailLow : Bool)
  /-- PWROK_FALL (R58): A falling edge of PWROK holds the device in reset and clears the PWRFAIL_N latch, the
     FAULT_N latch and fail-silence. -/
  | pwrokFall
  /-- AON_RAILS_UP (R51): VIO_AON enters its range: the Handle outputs drive low and the open-drain outputs are
     released unless a trip is latched. -/
  | aonRailsUp
  /-- AON_RESPONDER_READY (R65): 1 ms after the always-on rails are in range with a trip or a cause latched, the AON
     responder starts answering the sideband while PWROK is low. -/
  | aonResponderReady
  /-- AON_RAILS_DOWN (R59): VDD_AON falls below 0.30 V, which clears the trip latch and SAF_CAUSE. -/
  | aonRailsDown
  /-- PWRFAIL_RECOGNISED (R57): A low level on PWRFAIL_N lasting 1 µs is recognised and latched, and the power-loss
     stop begins; shorter pulses are ignored. Operands: how long PWRFAIL_N has been low, in ns. -/
  | pwrfailRecognised (lowNs : Nat)
  /-- FRONT_ENDS_STOP (R57): 1 µs after recognition, the front ends take no new command and the Coil controller
     accepts no new line. -/
  | frontEndsStop
  /-- COIL_RETENTION_ENTER (R57): Accepted Coil lines are persisted, fast activity stops and Coil enters retention
     within 1.6 ms of the fall. -/
  | coilRetentionEnter
  /-- PERST_C0_ASSERT (R68): Assertion of PCIE_C0_PERST_N resets port C0, ends every PLEM session on C0 and clears
     the ring and service-lane enables. -/
  | perstC0Assert
  /-- PERST_C1_ASSERT (R68): Assertion of PCIE_C1_PERST_N resets port C1 and fails its outstanding commands by
     internal abort. -/
  | perstC1Assert
  /-- PCIE_LINK_TRAIN_START (R76): At 5 ms, or on release of PERST_N if later, C0 and C1 start training. Operands: 0
     for C0, 1 for C1. -/
  | pcieLinkTrainStart (port : Nat)
  /-- PCIE_CONFIG_REQUEST (R76): A configuration request on C0 or C1 is answered with Configuration Request Retry
     Status until the PLEM function is ready. Operands: 0 for C0, 1 for C1. -/
  | pcieConfigRequest (port : Nat)
  /-- REFCLK_LOST (R70): REFCLK25 shows no edge for 10 µs: after data service starts this is a clock-loss failure,
     before it start-up halts. -/
  | refclkLost
  /-- REFCLK_GOOD (R70): The reference has been good for 1 ms, so a halted start-up resumes and the tick returns to
     REFCLK25. -/
  | refclkGood
  /-- PLL_LOCKED (R71): A fast PLL achieves lock and CLK_PLL_STS reports it. Operands: bit number of CLK_PLL_STS. -/
  | pllLocked (pll : Nat)
  /-- PLL_LOCK_LOST (R71): A PLL loses lock after data service has started and is treated as clock loss. Operands:
     bit number of CLK_PLL_STS. -/
  | pllLockLost (pll : Nat)
  /-- OSPI_RESET_RELEASE (R55): 10 µs after PWROK, OSPI_RESET_N is released and ROM begins reading boot flash in
     1S-1S-1S mode. -/
  | ospiResetRelease
  /-- SIDEBAND_EARLY_SERVICE (R77): At 1 ms the sideband starts acknowledging its address and answers identity and
     temperature only. -/
  | sidebandEarlyService
  /-- FUSES_LOADED (R84): ROM finishes loading fuses, Border derives its identity and keys, and the UDS read paths
     close. -/
  | fusesLoaded
  /-- MGT_FIRMWARE_RUNNING (R84): Management firmware starts running after ROM has checked and measured AOC and MGT. -/
  | mgtFirmwareRunning
  /-- FIRMWARE_BOOT_CHECK (R163): A component image is checked at boot in the order of Table 06-5, with fallback to
     the other slot on failure. Operands: component code 1 to 5 of Table 06-1. -/
  | firmwareBootCheck (comp : Nat)
  /-- SIDEBAND_FULL_SERVICE (R77): The sideband begins full service with SPDM and PLEM over MCTP. -/
  | sidebandFullService
  /-- HAMPER_TRAINED (R84): Hamper PHY training completes and hamper_ready is set. -/
  | hamperTrained
  /-- COIL_READY (R324): Coil is trained and Border replays region 0, which ends replay step 1 and sets coil_ready. -/
  | coilReady
  /-- BOOT_COUNTER_INCREMENT (R129): Once the Border region is replayed, the boot counter is increased durably
     before the Alias key is derived. -/
  | bootCounterIncrement
  /-- PLEM_FUNCTION_READY (R76): The PLEM function becomes ready and configuration requests are answered normally. -/
  | plemFunctionReady
  /-- STAKE_WAVE_START (R78): At 250 + 20w ms, wave w takes Stake ports 8w to 8w + 7 out of electrical idle. -/
  | stakeWaveStart (wave : Nat)
  /-- STAKE_WAVE_END (R78): A wave's 20 ms ends: ports with no receiver are marked absent and untrained ports are
     queued for catch-up. Operands: bit p of receivers: a receiver was detected on port p. -/
  | stakeWaveEnd (wave : Nat) (receivers : Nat)
  /-- STAKE_CATCHUP_WAVE (R78): At 410 ms and every 100 ms after it, up to 8 ports that failed to train are retried
     in port order. -/
  | stakeCatchupWave
  /-- PEER_LINK_TRAIN_ATTEMPT (R79): From 300 ms and every 10 ms until the peer answers, the peer link trains. -/
  | peerLinkTrainAttempt
  /-- MONITOR_SELF_TEST (R523): At each start, each safety monitor is tested by fault injection, and a monitor that
     does not fire gives class 0x0D. Operands: bit c: the monitor of class c did not fire. -/
  | monitorSelfTest (notFired : Nat)
  /-- BOOT_RECORD_SEAL (R80): When its conditions hold, or 700 ms has passed, or a drain frees a place, Border signs
     and seals the boot record. -/
  | bootRecordSeal
  /-- WARM_RESET_RELEASE (R67): After a warm reset has stopped data service and taken the links down, the warm reset
     is released and the first second runs again. -/
  | warmResetRelease
  /-- TILE_GATE (R72): A tile whose queue has been empty for 64 tile clocks stops its clock. -/
  | tileGate (tile : Nat)
  /-- TILE_WAKE (R31): A post to the ring of a gated tile wakes it through the rouser within 2 µs. -/
  | tileWake (tile : Nat)
  /-- GROUP_AUTO_OFF (R74): A power group whose tiles have all been gated for the auto-off delay powers off and
     saves its state. -/
  | groupAutoOff (group : Nat)
  /-- GROUP_POWER_ON (R73): The rouser powers on the next waiting group in its 5 µs slot, in doorbell order. -/
  | groupPowerOn
  /-- GROUP_RESTORE_COMPLETE (R72): A powered-on group finishes restoring its state from Hamper region 12, and held
     doorbells proceed. -/
  | groupRestoreComplete (group : Nat)
  /-- DOZE_WAKE (R72): A C0 doorbell write or a sideband wake message in Doze starts the restoration of the device. -/
  | dozeWake
  /-- DOZE_EXIT_COMPLETE (R75): Tiles, cores and the PLEM function are restored, and DEVICE_DOZE reports completion. -/
  | dozeExitComplete
  /-- SMBUS_READ_IDENTITY (R77): SMBus block read 0x00 returns the order code, the stepping and, once fuses are
     loaded, the serial number. -/
  | smbusReadIdentity
  /-- SMBUS_READ_TEMPERATURE (R77): SMBus block read 0x01 returns the hottest on-die sensor. -/
  | smbusReadTemperature
  /-- SMBUS_READ_BOOT_STATUS (R77): SMBus block read 0x02 returns a copy of AON_BOOT_STS. -/
  | smbusReadBootStatus
  /-- SMBUS_READ_CAUSE (R522): SMBus block read 0x03 returns SAF_CAUSE and SAF_CAUSE_NS. -/
  | smbusReadCause
  /-- SMBUS_OTHER_COMMAND (R77): Any other SMBus command returns a status of 0x04 until full service. -/
  | smbusOtherCommand (cmd : Nat)
  /-- SMBUS_CLOCK_LOW_TIMEOUT (R54): SCL held low for 25 to 35 ms ends the SMBus transaction. Operands: how long SCL
     was held low, in ms. -/
  | smbusClockLowTimeout (lowMs : Nat)
  /-- I3C_FIRST_BROADCAST (R54): The first valid I3C broadcast after PWROK switches the sideband target into I3C
     mode. -/
  | i3cFirstBroadcast
  /-- ENTDAA (R54): The controller's ENTDAA assigns the device a dynamic address. Operands: the dynamic address the
     controller assigns. -/
  | entdaa (addr : Nat)
  /-- SETDASA (R54): SETDASA from static address 0x4D assigns the device a dynamic address. Operands: the static
     address named and the dynamic address assigned. -/
  | setdasa (static : Nat) (addr : Nat)
  /-- RSTDAA (R54): RSTDAA returns the target to SMBus behaviour at 0x4D. -/
  | rstdaa
  /-- SET_ENDPOINT_ID (R77): The MCTP control message Set Endpoint ID is answered from 1 ms. -/
  | setEndpointId (eid : Nat)
  /-- GET_ENDPOINT_ID (R77): The MCTP control message Get Endpoint ID is answered from 1 ms. -/
  | getEndpointId
  /-- GET_MCTP_VERSION_SUPPORT (R77): The MCTP control message Get MCTP Version Support is answered from 1 ms. -/
  | getMctpVersionSupport (msgType : Nat)
  /-- GET_MESSAGE_TYPE_SUPPORT (R77): The MCTP control message Get Message Type Support is answered from 1 ms. -/
  | getMessageTypeSupport
  /-- MCTP_OTHER_CONTROL (R77): Any other MCTP control message is answered ERROR_NOT_READY until full service. -/
  | mctpOtherControl (cmd : Nat)
  /-- PLEM_OVER_MCTP (R104): A PLEM message over MCTP is mapped to ring 60 or 61 inside an SPDM secured session, or
     is refused. Operands: binding, the SPDM secured session that carries it, source EID, the packet and the block
     that follows it. -/
  | plemOverMctp (onC0 : Bool) (secured : Option Nat) (eid : Nat) (packet : List Byte) (block : List Byte)
  /-- GET_VERSION (R148): The SPDM GET_VERSION request is answered by Border. -/
  | getVersion
  /-- GET_CAPABILITIES (R148): The SPDM GET_CAPABILITIES request is answered by Border. -/
  | getCapabilities
  /-- NEGOTIATE_ALGORITHMS (R148): The SPDM NEGOTIATE_ALGORITHMS request selects the supported algorithms. Operands:
     whether the offer holds every algorithm of Table 05-11. -/
  | negotiateAlgorithms (algsOk : Bool)
  /-- GET_DIGESTS (R148): The SPDM GET_DIGESTS request returns the digest of slot 0. -/
  | getDigests
  /-- GET_CERTIFICATE (R148): The SPDM GET_CERTIFICATE request returns the slot 0 chain. -/
  | getCertificate (slot : Nat) (offset : Nat) (length : Nat)
  /-- CHALLENGE (R148): The SPDM CHALLENGE request is answered with an Alias-key signature. -/
  | challenge (slot : Nat) (nonce : List Byte)
  /-- GET_MEASUREMENTS (R149): The SPDM GET_MEASUREMENTS request returns the measurement indices of Table 05-12.
     Operands: 0xFF asks for all. -/
  | getMeasurements (index : Nat)
  /-- KEY_EXCHANGE (R148): The SPDM KEY_EXCHANGE request begins a secured session, of which up to 4 may be open. -/
  | keyExchange (slot : Nat)
  /-- FINISH (R148): The SPDM FINISH request completes a secured session's establishment. -/
  | finish (session : Nat) (macOk : Bool)
  /-- HEARTBEAT (R148): The SPDM HEARTBEAT request keeps a secured session alive. -/
  | heartbeat (session : Nat)
  /-- KEY_UPDATE (R148): The SPDM KEY_UPDATE request updates a secured session's keys. -/
  | keyUpdate (session : Nat)
  /-- END_SESSION (R106): The SPDM END_SESSION request ends a secured session and any PLEM session on its ring. -/
  | endSession (session : Nat)
  /-- CHUNK_GET (R148): The SPDM CHUNK_GET request returns the next chunk of a large response. -/
  | chunkGet (handle : Nat) (chunk : Nat)
  /-- SPDM_UNSUPPORTED_REQUEST (R148): An SPDM request outside the subset is answered ERROR with UnsupportedRequest. -/
  | spdmUnsupportedRequest (code : Nat)
  /-- PLM_RING_CFG_WRITE (R87): A write to PLM_RING_CFG_n enables, disables or reconfigures a ring, or sets cfg_err. -/
  | plmRingCfgWrite (ring : Nat) (value : Word)
  /-- PLM_RSQ_TAIL_DOORBELL (R90): A submission tail doorbell gives new packets to fetch, or sets db_err. -/
  | plmRsqTailDoorbell (ring : Nat) (value : Word)
  /-- PLM_RCQ_HEAD_DOORBELL (R91): A completion head doorbell frees completion entries and releases held status
     packets. -/
  | plmRcqHeadDoorbell (ring : Nat) (value : Word)
  /-- PLEM_PACKET_FETCH (R111): A command packet and its parameter block are taken whole and checked in stages 0 to
     5. Operands: the 64 packet bytes at the ring's head and the parameter block they name, as the fetch returns
     them. -/
  | plemPacketFetch (ring : Nat) (packet : List Byte) (block : List Byte)
  /-- PLEM_COMMAND_START (R112): A waiting command starts when its fence and the per-ring and device limits allow. -/
  | plemCommandStart (ring : Nat)
  /-- C0_FETCH_FAILURE (R93): An Unsupported Request, Completer Abort or poisoned completion on a fetch disables the
     ring and closes its session. -/
  | c0FetchFailure (ring : Nat)
  /-- C0_FETCH_TIMEOUT (R93): No completion within 50 ms for a packet or parameter-block read disables the ring. -/
  | c0FetchTimeout (ring : Nat)
  /-- NONCE_EXPIRY (R103): A ring's nonce ceases to be valid 10 s after it is issued. -/
  | nonceExpiry (ring : Nat)
  /-- SESSION_IDLE_TIMEOUT (R115): A session idle for PID 0x0011 seconds is closed. -/
  | sessionIdleTimeout (ring : Nat)
  /-- SYS_IDENTIFY (R116): The command returns the device's identity. -/
  | sysIdentify (ring : Nat) (seq : Nat)
  /-- GET_NONCE (R103): The command returns a 48-byte nonce bound to the ring and replaces any earlier one. -/
  | getNonce (ring : Nat) (seq : Nat)
  /-- SESSION_OPEN (R103): The command checks a role certificate chain and signature and binds a session to the
     ring. -/
  | sessionOpen (ring : Nat) (seq : Nat)
  /-- SESSION_CLOSE (R106): The command ends the bound session and leaves the ring unbound. -/
  | sessionClose (ring : Nat) (seq : Nat)
  /-- SYS_STATUS (R116): The command returns the device status. -/
  | sysStatus (ring : Nat) (seq : Nat)
  /-- SERVICE_START (R81): The command starts data service when its conditions hold and raises any requested
     security-version floors. -/
  | serviceStart (ring : Nat) (seq : Nat)
  /-- SERVICE_STOP (R116): The command stops data service. -/
  | serviceStop (ring : Nat) (seq : Nat)
  /-- PORT_ENABLE (R176): The command takes Ethernet sub-ports out of electrical idle or into it. -/
  | portEnable (ring : Nat) (seq : Nat)
  /-- DEVICE_DOZE (R75): The command puts the device into Doze while data service is stopped. -/
  | deviceDoze (ring : Nat) (seq : Nat)
  /-- RESET_DEVICE (R67): The command starts a warm reset by stopping data service and taking the links down. -/
  | resetDevice (ring : Nat) (seq : Nat)
  /-- HANDLE_ELIGIBLE (R451): The command grants or withdraws authority eligibility and ends the hardware hold on
     the Handle outputs. -/
  | handleEligible (ring : Nat) (seq : Nat)
  /-- HANDLE_TRANSFER (R455): The command moves the Handle to the standby through HANDOFF, the release of the hold
     and SET_EPOCH. -/
  | handleTransfer (ring : Nat) (seq : Nat)
  /-- OWNER_ENROLL (R102): The command burns the owner-root fuse field once. -/
  | ownerEnroll (ring : Nat) (seq : Nat)
  /-- SET_PARAM (R119): The command checks and writes one PID value and returns the previous value. -/
  | setParam (ring : Nat) (seq : Nat)
  /-- GET_PARAM (R119): The command returns a PID value. -/
  | getParam (ring : Nat) (seq : Nat)
  /-- SET_PARAMS (R120): The command checks a block of PID entries in order and applies them all or none. -/
  | setParams (ring : Nat) (seq : Nat)
  /-- CONFIG_SEAL (R141): The command seals the configuration, locks the RWL registers and computes the
     configuration digest. -/
  | configSeal (ring : Nat) (seq : Nat)
  /-- REG_WRITE (R546): The command writes a register by its BAR0 offset and returns the prior value. -/
  | regWrite (ring : Nat) (seq : Nat)
  /-- REG_READ (R546): The command reads a register by its BAR0 offset, clearing an RC register. -/
  | regRead (ring : Nat) (seq : Nat)
  /-- VOL_CREATE (R280): The command creates a volume in a domain. -/
  | volCreate (ring : Nat) (seq : Nat)
  /-- VOL_DELETE (R282): The command takes the whole-volume lock, drops every reference of the volume and frees its
     number. -/
  | volDelete (ring : Nat) (seq : Nat)
  /-- VOL_RESIZE (R282): The command grows a volume at once, or shrinks it under an exclusive lock. -/
  | volResize (ring : Nat) (seq : Nat)
  /-- VOL_SET_ACCESS (R281): The command moves ownership, sets accessibility or replaces the host list of a volume. -/
  | volSetAccess (ring : Nat) (seq : Nat)
  /-- VOL_QUERY (R287): The command returns a 64-byte record for a volume, a snapshot, a domain or the array. -/
  | volQuery (ring : Nat) (seq : Nat)
  /-- SNAP_CREATE (R284): The command snapshots up to 64 volumes at one arrival number. -/
  | snapCreate (ring : Nat) (seq : Nat)
  /-- SNAP_DELETE (R280): The command deletes a snapshot and drops its references. -/
  | snapDelete (ring : Nat) (seq : Nat)
  /-- VOL_CLONE (R285): The command makes a writable volume from a volume or a snapshot without copying data. -/
  | volClone (ring : Nat) (seq : Nat)
  /-- SECURE_DISCARD (R402): The command starts a long operation that drops a range's references and destroys and
     erases its bundles. -/
  | secureDiscard (ring : Nat) (seq : Nat)
  /-- DOMAIN_CREATE (R262): The command creates a deduplication domain or rekeys it. -/
  | domainCreate (ring : Nat) (seq : Nat)
  /-- PACK_ADMIT (R349): The command admits a trained pack to the pool. -/
  | packAdmit (ring : Nat) (seq : Nat)
  /-- PACK_RETIRE (R350): The command retires a pack or marks it retiring. -/
  | packRetire (ring : Nat) (seq : Nat)
  /-- LAYOUT_CHANGE (R351): The command starts a new Slath generation, or with op 1 cancels the running change. -/
  | layoutChange (ring : Nat) (seq : Nat)
  /-- REBUILD_CTRL (R378): The command declares a member failed, pauses or resumes rebuild, or reports its status. -/
  | rebuildCtrl (ring : Nat) (seq : Nat)
  /-- MEDIA_HEALTH (R404): The command returns pack or device health records. -/
  | mediaHealth (ring : Nat) (seq : Nat)
  /-- LOST_LIST_READ (R374): The command returns stripe or range entries of the lost-stripe list. -/
  | lostListRead (ring : Nat) (seq : Nat)
  /-- LOST_LIST_CLEAR (R374): The command removes a stripe entry once no range entry of it remains. -/
  | lostListClear (ring : Nat) (seq : Nat)
  /-- KEY_GENERATE (R295): The command generates a key into a slot and returns its blob, or creates and shares the
     AWK. -/
  | keyGenerate (ring : Nat) (seq : Nat)
  /-- KEY_LOAD (R297): The command unwraps a blob into a key slot. -/
  | keyLoad (ring : Nat) (seq : Nat)
  /-- KEY_EXPORT (R296): The command, under dual control, wraps a key under a key-encryption key or gives the AWK to
     the peer. -/
  | keyExport (ring : Nat) (seq : Nat)
  /-- KEY_DESTROY (R298): The command, under dual control, zeroizes a slot and durably marks its kcv destroyed. -/
  | keyDestroy (ring : Nat) (seq : Nat)
  /-- KEY_INSTALL_SA (R238): The command installs a pending or rekeyed ESP SA pair from a wrapped block. -/
  | keyInstallSa (ring : Nat) (seq : Nat)
  /-- KEY_QUERY (R299): The command returns slot, owner-root or AWK information. -/
  | keyQuery (ring : Nat) (seq : Nat)
  /-- CIPHER_OP (R308): The command runs a lookaside cipher request over head-processor buffers. Operands: the input
     bytes read over C0. -/
  | cipherOp (ring : Nat) (seq : Nat) (input : List Byte)
  /-- AUDIT_READ (R150): The command returns audit entries into a buffer. -/
  | auditRead (ring : Nat) (seq : Nat)
  /-- AUDIT_DRAIN (R139): The command marks audit entries drained up to a sequence whose hash matches. -/
  | auditDrain (ring : Nat) (seq : Nat)
  /-- AUDIT_SEAL (R140): The command writes a signed head that covers the audit chain. -/
  | auditSeal (ring : Nat) (seq : Nat)
  /-- BOOT_RECORD_READ (R150): The command returns a boot record by its counter. -/
  | bootRecordRead (ring : Nat) (seq : Nat)
  /-- BOOT_RECORD_DRAIN (R130): The command marks boot records drained and may move the pending record into the
     ring. -/
  | bootRecordDrain (ring : Nat) (seq : Nat)
  /-- ATTEST_QUOTE (R150): The command returns the certificate chain or a signed quote. -/
  | attestQuote (ring : Nat) (seq : Nat)
  /-- SET_TIME (R146): The command sets wall time when array software is the source. -/
  | setTime (ring : Nat) (seq : Nat)
  /-- REPL_PAIR (R251): The command creates a class 2 or class 3 connection. -/
  | replPair (ring : Nat) (seq : Nat)
  /-- REPL_START (R251): The command starts asynchronous or synchronous replication of a volume. Operands: the
     status the remote array answers (0 accepts). -/
  | replStart (ring : Nat) (seq : Nat) (remote : Nat)
  /-- REPL_STOP (R254): The command stops replication of a volume. -/
  | replStop (ring : Nat) (seq : Nat)
  /-- REPL_STATUS (R254): The command returns a volume's replication state. -/
  | replStatus (ring : Nat) (seq : Nat)
  /-- REGION_REGISTER (R247): The command makes a legacy region table entry valid and returns its rkey. -/
  | regionRegister (ring : Nat) (seq : Nat)
  /-- REGION_REVOKE (R249): The command starts revocation of a region entry at the revoke point. -/
  | regionRevoke (ring : Nat) (seq : Nat)
  /-- CONN_TEARDOWN (R250): The command starts draining a connection. -/
  | connTeardown (ring : Nat) (seq : Nat)
  /-- EVR_READ (R536): The command returns event records, live counters or recorder status. -/
  | evrRead (ring : Nat) (seq : Nat)
  /-- EVR_CLEAR (R536): The command removes read records from region 1 and may reset the live counters. -/
  | evrClear (ring : Nat) (seq : Nat)
  /-- WVR_INJECT (R506): The command starts or stops a test signal on a Weaver loop. -/
  | wvrInject (ring : Nat) (seq : Nat)
  /-- WVR_CAPTURE (R507): The command arms, reads or cancels a Weaver signal capture. -/
  | wvrCapture (ring : Nat) (seq : Nat)
  /-- SELFTEST (R524): The command tests engine tiles, safety monitors and sensors and reports failures. -/
  | selftest (ring : Nat) (seq : Nat)
  /-- THERM_STATUS (R514): The command returns the 128-byte thermal status. -/
  | thermStatus (ring : Nat) (seq : Nat)
  /-- STAGE_IMAGE (R159): The command checks one chunk of an image and starts programming it as a long operation. -/
  | stageImage (ring : Nat) (seq : Nat)
  /-- ACTIVATE_IMAGE (R162): The command, under dual control, prefers the inactive slots of the named components. -/
  | activateImage (ring : Nat) (seq : Nat)
  /-- FW_QUERY (R166): The command returns the firmware slot records. -/
  | fwQuery (ring : Nat) (seq : Nat)
  /-- PACK_FW_LOAD (R169): The command, under dual control, marks a pack temporarily absent and sends it FW_LOAD. -/
  | packFwLoad (ring : Nat) (seq : Nat)
  /-- MIGRATE_STATUS (R173): The command returns the on-media format migration status. -/
  | migrateStatus (ring : Nat) (seq : Nat)
  /-- STAGE_IMAGE_CHUNK_DONE (R160): A staged chunk finishes programming; on the last chunk the CRC is compared and
     the slot is marked staged. -/
  | stageImageChunkDone
  /-- PACK_FW_MEASURE_TIMEOUT (R169): A pack that has not answered FW_MEASURE within 300 s of FW_LOAD is treated as
     failed. -/
  | packFwMeasureTimeout (port : Nat)
  /-- FORMAT_RAISE (R171): The Handle holder raises the format in force, with entry 0xFF10 as the point of no
     return. Operands: fmt_write of the paired peer's CTL. -/
  | formatRaise (peerFmtWrite : Nat)
  /-- FORMAT_MIGRATION_END (R171): Superblocks, layout roots and journal headers finish migrating to the new format. -/
  | formatMigrationEnd
  /-- AUDIT_ENTRY_DURABLE (R33): An audit entry becomes durable, and the held write or command effect is applied. -/
  | auditEntryDurable
  /-- WAITING_ENTRY_APPEND (R137): A waiting entry of kind 0x03 or 0x04 is appended once space permits. -/
  | waitingEntryAppend
  /-- PTP_SYNC_RECEIVED (R147): A PTP synchronisation message updates wall time and makes it valid. Operands: port,
     domain and transport of the message, the time it gives and the offset measured, in ns. -/
  | ptpSyncReceived (port : Nat) (domain : Nat) (transport : Nat) (wall : Nat) (offset : Int)
  /-- PTP_HOLDOVER_EXPIRY (R147): No synchronisation for PID 0x0103 seconds clears wall_valid and appends entry
     0xFF03. -/
  | ptpHoldoverExpiry
  /-- NVME_SQ_DOORBELL (R187): An NVMe submission doorbell lets the controller fetch entries while tags are free. -/
  | nvmeSqDoorbell (ctrl : Nat) (sq : Nat) (tail : Nat)
  /-- NVME_DELETE_IO_SQ (R194): The command aborts the queue's tags internally and completes when every tag is FREE. -/
  | nvmeDeleteIoSq (ctrl : Nat) (cid : Nat) (sq : Nat)
  /-- NVME_DELETE_IO_CQ (R179): The command deletes an I/O completion queue. -/
  | nvmeDeleteIoCq (ctrl : Nat) (cid : Nat) (cq : Nat)
  /-- NVME_CREATE_IO_SQ (R179): The command creates a physically contiguous I/O submission queue. -/
  | nvmeCreateIoSq (ctrl : Nat) (cid : Nat) (sq : Nat) (cq : Nat) (size : Nat) (contiguous : Bool)
  /-- NVME_CREATE_IO_CQ (R179): The command creates a physically contiguous I/O completion queue. -/
  | nvmeCreateIoCq (ctrl : Nat) (cid : Nat) (cq : Nat) (size : Nat) (contiguous : Bool)
  /-- NVME_GET_LOG_PAGE (R179): The command returns one of the supported log pages. -/
  | nvmeGetLogPage (ctrl : Nat) (cid : Nat) (page : LogRequest)
  /-- NVME_IDENTIFY (R180): The command answers the supported CNS values. -/
  | nvmeIdentify (ctrl : Nat) (cid : Nat) (what : IdRequest) (nsid : Nat)
  /-- NVME_ABORT (R190): The command resolves its target to a tag and gen when fetched, or counts beyond ACL. -/
  | nvmeAbort (ctrl : Nat) (cid : Nat) (sq : Nat) (target : Nat)
  /-- ABORT_ARBITRATION (R191): The atomic update of the tag word decides whether the abort wins, loses or is not
     found. Operands: the Abort command (controller and command identifier) arbitrated. -/
  | abortArbitration (ctrl : Nat) (cid : Nat)
  /-- NVME_SET_FEATURES_POWER (R201): Set Features Power Management on C0 requests a change of power state. -/
  | nvmeSetFeaturesPower (ctrl : Nat) (cid : Nat) (ps : Nat)
  /-- NVME_SET_FEATURES_QUEUES (R186): Set Features Number of Queues grants at most the queue pairs left to the
     controller. Operands: queue pairs asked for. -/
  | nvmeSetFeaturesQueues (ctrl : Nat) (cid : Nat) (count : Nat)
  /-- NVME_SET_FEATURES (R179): Set Features for another supported feature ID sets that feature. -/
  | nvmeSetFeatures (ctrl : Nat) (cid : Nat) (fid : Nat) (value : Nat)
  /-- NVME_GET_FEATURES (R179): The command returns a supported feature's value. -/
  | nvmeGetFeatures (ctrl : Nat) (cid : Nat) (fid : Nat)
  /-- NVME_ASYNC_EVENT_REQUEST (R179): The command leaves a request outstanding for asynchronous events. -/
  | nvmeAsyncEventRequest (ctrl : Nat) (cid : Nat)
  /-- NVME_KEEP_ALIVE (R179): The command restarts the keep-alive timer. -/
  | nvmeKeepAlive (ctrl : Nat) (cid : Nat)
  /-- KEEP_ALIVE_EXPIRY (R194): Keep-alive expiry ends the Fabrics association and aborts its tags internally. -/
  | keepAliveExpiry (ctrl : Nat)
  /-- FABRICS_CONNECT (R181): Connect creates a dynamic controller or an I/O queue, or is refused. Operands:
     connection, command identifier, existing controller for an I/O queue, queue, SQSIZE (0-based). -/
  | fabricsConnect (conn : Nat) (cid : Nat) (ctrl : Option Nat) (qid : Nat) (sqsize : Nat) (discovery : Bool) (hostNqn : List Byte)
  /-- FABRICS_PROPERTY_GET (R179): Property Get returns a controller property. -/
  | fabricsPropertyGet (ctrl : Nat) (cid : Nat) (offset : Nat)
  /-- FABRICS_PROPERTY_SET (R179): Property Set writes a controller property. -/
  | fabricsPropertySet (ctrl : Nat) (cid : Nat) (offset : Nat) (value : Nat)
  /-- FABRICS_DISCONNECT (R194): Disconnect ends the association and aborts its tags internally. -/
  | fabricsDisconnect (ctrl : Nat) (cid : Nat)
  /-- FABRICS_CONNECTION_LOSS (R194): Loss of the transport connection ends the association. -/
  | fabricsConnectionLoss (ctrl : Nat)
  /-- CC_EN_CLEAR (R194): Clearing CC.EN resets the controller and aborts its tags, with CSTS.RDY going to 0 once
     all tags are FREE. -/
  | ccEnClear (ctrl : Nat)
  /-- CC_EN_SET (R81): Setting CC.EN readies the controller, but CSTS.RDY stays 0 until data service runs. -/
  | ccEnSet (ctrl : Nat) (css : Nat)
  /-- FUNCTION_LEVEL_RESET (R194): A Function Level Reset resets the controller and aborts its tags. -/
  | functionLevelReset (ctrl : Nat)
  /-- NVME_FLUSH (R217): The command completes at once with success after it is tagged. -/
  | nvmeFlush (ctrl : Nat) (sq : Nat) (cid : Nat) (nsid : Nat)
  /-- NVME_WRITE (R207): The command takes a tag and an exclusive range lock and stages its payload. -/
  | nvmeWrite (ctrl : Nat) (sq : Nat) (cid : Nat) (nsid : Nat) (slba : Nat) (nlb : Nat) (pi : PiCtl) (sglLen : Nat)
  /-- NVME_READ (R207): The command takes a tag and a shared range lock, possibly served from a staged write. -/
  | nvmeRead (ctrl : Nat) (sq : Nat) (cid : Nat) (nsid : Nat) (slba : Nat) (nlb : Nat) (pi : PiCtl) (sglLen : Nat)
  /-- NVME_COMPARE (R207): The command takes a shared lock and compares host data with stored data. -/
  | nvmeCompare (ctrl : Nat) (sq : Nat) (cid : Nat) (nsid : Nat) (slba : Nat) (nlb : Nat) (pi : PiCtl) (sglLen : Nat)
  /-- NVME_WRITE_ZEROES (R259): The command writes zero chunks, or deallocates with DEAC set, under an exclusive
     lock. -/
  | nvmeWriteZeroes (ctrl : Nat) (sq : Nat) (cid : Nat) (nsid : Nat) (slba : Nat) (nlb : Nat) (deac : Bool)
  /-- NVME_DATASET_MANAGEMENT (R207): The command deallocates its ranges under an exclusive lock, or with AD clear
     completes at once. Operands: first block and length of each range. -/
  | nvmeDatasetManagement (ctrl : Nat) (sq : Nat) (cid : Nat) (nsid : Nat) (ad : Bool) (data : DsmRanges)
  /-- NVME_VERIFY (R207): The command reads and checks stored data under a shared lock. -/
  | nvmeVerify (ctrl : Nat) (sq : Nat) (cid : Nat) (nsid : Nat) (slba : Nat) (nlb : Nat) (pi : PiCtl)
  /-- NVME_INVALID_OPCODE (R179): An unsupported NVMe opcode completes with Invalid Command Opcode. -/
  | nvmeInvalidOpcode (ctrl : Nat) (entry : SqEntry) (opcode : Nat)
  /-- TAG_ASSIGN (R187): A waiting capsule or entry receives a freed tag, a lock entry and an arrival sequence
     number. -/
  | tagAssign
  /-- WRITE_PAYLOAD_DATA (R189): Write payload bytes arrive into host staging. Operands: logical blocks arriving for
     the tag; last: all of the payload is in staging; verifyOk: verify-after-compress of a bundle that fills passed
     (R273). -/
  | writePayloadData (tag : Nat) (blocks : List Block) (last : Bool) (verifyOk : Bool)
  /-- READ_DATA_READY (R189): All of a read's data is ready in host staging, so its tag becomes STAGED. -/
  | readDataReady (tag : Nat)
  /-- LOCK_WAIT_WARNING (R211): A command waiting longer than PID 0x0501 µs counts event code 0x054 once. -/
  | lockWaitWarning (who : LockWaiter)
  /-- OWNERSHIP_MOVE_PASS (R185): Once the old owner has completed the volume's tags, ownership passes and the new
     ANA states take effect. Operands: the last arrival number the old owner assigned. -/
  | ownershipMovePass (vol : Nat) (lastArrival : Nat)
  /-- POWER_ENTRY_WINDOW_END (R201): The 100 µs entry window closes and fixes the last arrival sequence number S. -/
  | powerEntryWindowEnd
  /-- POWER_ENTRY_DONE (R201): Every command up to S has completed, so the new cap takes effect and the reply is
     posted. -/
  | powerEntryDone
  /-- ETH_LINK_CHANGE (R176): An Ethernet sub-port's link goes up or down and HFE_PORT_STS_s reports it. -/
  | ethLinkChange (sub : Nat) (up : Bool) (speed : Nat) (fec : Nat) (pfc : Bool)
  /-- ARP_REQUEST (R175): An ARP request on an enabled sub-port is answered. -/
  | arpRequest (sub : Nat) (target : List Byte)
  /-- NEIGHBOR_SOLICITATION (R175): IPv6 neighbour discovery on an enabled sub-port is answered. -/
  | neighborSolicitation (sub : Nat) (target : List Byte)
  /-- ICMP_ECHO_REQUEST (R175): An ICMP echo on an enabled sub-port is answered. -/
  | icmpEchoRequest (sub : Nat) (target : List Byte) (payload : List Byte)
  /-- TCP_SYN (R232): An NVMe/TCP SYN takes a connection number, or is answered with RST. Operands: SPI under which
     it arrived, if any. -/
  | tcpSyn (sub : Nat) (dstPort : Nat) (spiIn : Option Nat)
  /-- NVME_TCP_ICREQ (R181): An ICReq sets up an NVMe/TCP connection, and is refused when it asks for TLS. -/
  | nvmeTcpIcreq (conn : Nat) (tls : Bool) (hdgst : Bool) (ddgst : Bool)
  /-- ESP_INBOUND_PACKET (R235): An inbound ESP packet is looked up, window-checked and authenticated, then
     processed. Operands: SPI, low 32 bits of the sequence number, and whether the ICV verifies. -/
  | espInboundPacket (spi : Nat) (seqLo : Nat) (icvOk : Bool)
  /-- SEND (R244): A SEND packet is placed into a receive buffer, or answered with an RNR NAK. -/
  | send (conn : Nat) (bth : Bth) (length : Nat) (first : Bool) (last : Bool) (bytes : List Byte)
  /-- RDMA_WRITE (R241): An RDMA WRITE packet is checked and placed, with multipath trackers where they apply. -/
  | rdmaWrite (conn : Nat) (bth : Bth) (rkey : Nat) (va : Nat) (dmaLen : Nat) (first : Bool) (last : Bool) (mpeth : Option Mpeth) (bytes : List Byte)
  /-- RDMA_READ_REQUEST (R245): An RDMA READ request is checked and served. -/
  | rdmaReadRequest (conn : Nat) (bth : Bth) (rkey : Nat) (va : Nat) (dmaLen : Nat)
  /-- RDMA_READ_RESPONSE (R224): An RDMA READ response places data for a request the device issued. -/
  | rdmaReadResponse (conn : Nat) (bth : Bth) (last : Bool) (bytes : List Byte)
  /-- ACKNOWLEDGE (R242): An acknowledgement releases sent packets and carries credits. -/
  | acknowledge (conn : Nat) (bth : Bth) (credits : Nat)
  /-- ATOMIC_ACKNOWLEDGE (R224): An Atomic Acknowledge returns an atomic result. -/
  | atomicAcknowledge (conn : Nat) (bth : Bth) (value : Nat)
  /-- COMPARE_SWAP (R224): An 8-byte compare-and-swap is checked and performed on a Hamper buffer. -/
  | compareSwap (conn : Nat) (bth : Bth) (rkey : Nat) (va : Nat) (compare : Nat) (swap : Nat)
  /-- FETCH_ADD (R224): An 8-byte fetch-and-add is checked and performed on a Hamper buffer. -/
  | fetchAdd (conn : Nat) (bth : Bth) (rkey : Nat) (va : Nat) (add : Nat)
  /-- CNP (R224): A received CNP is counted and otherwise ignored. -/
  | cnp (conn : Nat)
  /-- ROCE_UNSUPPORTED_PACKET (R224): A packet of an unsupported service is dropped, or a request with an
     unsupported opcode gets NAK Invalid Request. Operands: service: the service (not only the opcode) is
     unsupported. -/
  | roceUnsupportedPacket (conn : Nat) (psn : Nat) (service : Bool) (icrcBad : Bool)
  /-- CM_REQ (R234): An IB CM REQ sets up a connection and binds a pending SA pair, or is rejected. -/
  | cmReq (sub : Nat) (cls : Nat) (mtu : Nat) (spiIn : Option Nat)
  /-- CM_REP (R224): An IB CM REP answers a connection request the device made. -/
  | cmRep (conn : Nat)
  /-- CM_RTU (R224): An IB CM RTU makes a connection ready. -/
  | cmRtu (conn : Nat)
  /-- CM_REJ (R224): An IB CM REJ refuses a connection request the device made. -/
  | cmRej (conn : Nat) (reason : Nat)
  /-- CM_DREQ (R224): An IB CM DREQ starts disconnecting a connection. -/
  | cmDreq (conn : Nat)
  /-- CM_DREP (R224): An IB CM DREP completes a disconnection. -/
  | cmDrep (conn : Nat)
  /-- CM_MRA (R224): An IB CM MRA is received and ignored. -/
  | cmMra (conn : Nat)
  /-- CONTEXT_FETCH_DONE (R229): A context arrives on-die from its home slot and its miss-queue packets proceed in
     order. -/
  | contextFetchDone (conn : Nat)
  /-- RETRANSMIT_TIMEOUT (R242): The oldest unacknowledged PSN has waited the timeout, so go-back-N starts, or
     retries are exhausted. -/
  | retransmitTimeout (conn : Nat)
  /-- PENDING_SA_EXPIRY (R234): A pending SA pair not bound within PID 0x0606 s is erased. -/
  | pendingSaExpiry (handle : Nat)
  /-- OLD_SA_EXPIRY (R237): 1 s after the first packet under the new inbound SPI, the old SA pair is erased. -/
  | oldSaExpiry (conn : Nat)
  /-- REVOKE_DRAIN_TIMEOUT (R249): A message not ended PID 0x0607 ms after the revoke or drain point is abandoned
     and its connection errored. Operands: connection of the message not ended. -/
  | revokeDrainTimeout (conn : Nat)
  /-- REGION_REVOKE_END (R249): in_flight reaches zero, so the entry becomes FREE and the end entry and status are
     posted. -/
  | regionRevokeEnd
  /-- TEARDOWN_DRAIN_END (R250): A drained connection sends DREQ or FIN, erases its SA pair and frees its number. -/
  | teardownDrainEnd (conn : Nat)
  /-- ASYNC_CYCLE_START (R251): An asynchronous replication interval elapses and a replication snapshot and cycle
     begin. -/
  | asyncCycleStart (vol : Nat)
  /-- ASYNC_CYCLE_END (R251): The last block of a cycle is acknowledged and the remote image becomes visible. -/
  | asyncCycleEnd (vol : Nat)
  /-- REMOTE_RECORD_ACK (R251): A synchronous remote acknowledges committed records, releasing completions. -/
  | remoteRecordAck (vol : Nat) (arrival : Nat)
  /-- SYNC_REMOTE_LOSS (R252): A synchronous remote silent for PID 0x0618 ms takes the volume out of sync or refuses
     writes. -/
  | syncRemoteLoss (vol : Nat)
  /-- BUNDLE_GATHER_TIMEOUT (R269): A bundle whose oldest chunk has waited PID 0x0700 ns closes. Operands: whether
     verify-after-compress passed (R273). -/
  | bundleGatherTimeout (verifyOk : Bool)
  /-- COLD_LOOKUP_DONE (R266): A cold-index lookup returns, and the chunk is matched or stored as unique. Operands:
     stored chunk found in the cold index. -/
  | coldLookupDone (tag : Nat) (found : Option Nat)
  /-- LOOKASIDE_REQUEST (R301): A lookaside cipher descriptor is taken from its queue, checked and run with its
     fault check. Operands: mismatch: the inversion or duplicate check found a difference. -/
  | lookasideRequest (queue : Nat) (slot : Nat) (mode : Nat) (flags : Nat) (length : Nat) (aadLen : Nat) (iv : List Byte) (srcTotal : Nat) (dstTotal : Nat) (data : List Byte) (aad : List Byte) (mismatch : Bool)
  /-- DRBG_RESEED (R292): After 2^20 generate calls the DRBG is reseeded from the entropy source. -/
  | drbgReseed
  /-- ENTROPY_HEALTH_FAIL (R292): A failed entropy health test is a dangerous-class fault. -/
  | entropyHealthFail
  /-- COIL_LINES_PERSISTED (R313): Accepted Coil lines are persisted and the persisted point advances. -/
  | coilLinesPersisted (lines : Nat)
  /-- MIRROR (R317): A MIRROR frame writes the peer's records into region 3 at the same line offsets. -/
  | mirror (line : Nat) (records : List CoilRec)
  /-- MIRROR_ACK (R317): A cumulative mirror acknowledgement names the peer's persisted point and release point. -/
  | mirrorAck (persisted : Nat) (released : Nat)
  /-- MIRROR_ACK_TIMEOUT (R319): An acknowledgement outstanding longer than PID 0x0901 µs loses the mirror. -/
  | mirrorAckTimeout
  /-- JOURNAL_HEADER_WRITE (R321): The journal header is rewritten after the head advances 1/64 of the region or
     each 10 ms while it moves. -/
  | journalHeaderWrite
  /-- WAITING_RECORD_APPEND (R322): A record that waited for space in region 2 is appended once space is released. -/
  | waitingRecordAppend
  /-- REPLAY_START (R324): Replay reads region 2 and region 3 from head_jseq and finds the end of each stream. -/
  | replayStart
  /-- REPLAY_RESUME (R325): After every Stake wave has ended, replay applies band states, intents and deltas, or
     stays held when fenced. -/
  | replayResume
  /-- REPLAY_END (R324): Replay step 5 ends and the Coil replay condition of data service is met. -/
  | replayEnd
  /-- COIL_FAILURE (R329): A Coil line cannot be persisted or read, or both headers are invalid, and the head goes
     fail-silent. -/
  | coilFailure
  /-- STRIP_ADD (R343): A stripe intent of state 1 is appended and, once durable, the strip PROGRAM and accumulator
     update are issued. Operands: open segment, the bundles packed into the strip, and whether the verifying unit
     disagrees. -/
  | stripAdd (seg : Nat) (bundles : List Nat) (mismatch : Bool)
  /-- SEGMENT_SEAL (R344): A stripe intent of state 3 is appended and the parity strips are programmed. -/
  | segmentSeal (seg : Nat) (early : Bool) (crcOk : Bool)
  /-- SEAL_AGE_TIMEOUT (R345): A segment with no position added for PID 0x0A02 ms is sealed early. -/
  | sealAgeTimeout (seg : Nat)
  /-- LAYOUT_CHANGE_END (R354): The emptied generation holds no band, so the switch commits and entry 0xFF12 and the
     end status follow. -/
  | layoutChangeEnd
  /-- LAYOUT_REVERSE_END (R355): A reversed change's new generation holds no band, so its table is deleted and the
     change ends. -/
  | layoutReverseEnd
  /-- ABSENCE_DECLARE_TIMEOUT (R360): A member absent, or found under R340, for PID 0x0A20 seconds is declared
     failed. -/
  | absenceDeclareTimeout (port : Nat)
  /-- QUEUE_REORDER (R365): Within 100 ms of a declaration or unreadable strip, margins are recomputed and the
     rebuild queue reordered. -/
  | queueReorder
  /-- SEGMENT_RECONSTRUCT_DONE (R367): A segment's missing strips are reconstructed and written into spare space. -/
  | segmentReconstructDone (seg : Nat) (mismatch : Bool)
  /-- REBUILD_BATCH_COMMIT (R367): Up to 256 rebuilt strips are committed by a map delta and commit record. -/
  | rebuildBatchCommit
  /-- REBUILD_END (R378): A failed member's rebuild ends, entry 0xFF13 phase 1 is appended and any REBUILD_CTRL
     status is posted. -/
  | rebuildEnd (port : Nat)
  /-- CHECKPOINT_TIMER (R376): Every PID 0x0A23 seconds the Handle holder writes a rebuild checkpoint to three
     packs. -/
  | checkpointTimer
  /-- CHECKPOINT_LOAD (R377): After replay, the named checkpoint is read and later records are applied, or the
     device rescans. Operands: copies of checkpoint n found valid. -/
  | checkpointLoad (valid : List Nat)
  /-- GC_BATCH_START (R390): A garbage-collection batch takes up to 64 victim bands in class order and starts
     copying. -/
  | gcBatchStart (victims : List Nat)
  /-- GC_COPY_DONE (R393): The batch's live extents are copied, and its destination segments are sealed early. -/
  | gcCopyDone
  /-- GC_MAP_COMMIT (R394): The batch's map deltas commit after re-copies and seals. -/
  | gcMapCommit
  /-- GC_ERASE_PENDING (R393): ERASE_PENDING becomes durable in both Coils and the victims' ERASE commands are
     issued. -/
  | gcErasePending
  /-- BAND_FREE (R393): An erased or retired band's free record is written and its number becomes reusable. -/
  | bandFree (band : Nat)
  /-- PATROL_READ (R399): The patrol reads the next programmed strip at its Weaver-set pace. -/
  | patrolRead
  /-- PATROL_OVERRUN (R399): A pass that overruns PID 0x0B00 days sets patrol_late and runs on. -/
  | patrolOverrun
  /-- PATROL_PROGRESS_SAVE (R399): Pass progress is written to Coil region 6 at least every 60 s. -/
  | patrolProgressSave
  /-- READ_DISTURB_VERIFY (R400): A block's read count reaches its threshold, so every programmed page is read
     within 1 s. -/
  | readDisturbVerify (port : Nat) (block : Nat)
  /-- WEAR_SPREAD_TIMEOUT (R398): Members' wear fractions differing beyond the limit for 24 h set wear_spread. -/
  | wearSpreadTimeout
  /-- PACK_TEMP_SAMPLE (R405): Every 10 s each head sends TEMP to each pack. -/
  | packTempSample
  /-- STAKE_LINK_TRAINED (R434): A Stake link reaches L0 and the device sends IDENT, GEOM, FW_MEASURE and HEALTH in
     turn. -/
  | stakeLinkTrained (port : Nat)
  /-- STAKE_TRAINING_FAILED (R410): A link that does not reach x4 at 32 GT/s or whose partner refuses the protocol
     fails training. -/
  | stakeTrainingFailed (port : Nat)
  /-- STAKE_TRANSACTION_FRAME (R415): A received transaction frame is accepted, discarded with a NAK or ACK, or
     treated as a protocol error. -/
  | stakeTransactionFrame (port : Nat) (bytes : List Byte)
  /-- STAKE_ACK (R414): A received ACK releases replay-buffer frames. -/
  | stakeAck (port : Nat) (seq : Nat)
  /-- STAKE_NAK (R414): A received NAK releases earlier frames and resends the rest. -/
  | stakeNak (port : Nat) (seq : Nat)
  /-- STAKE_CREDIT (R418): A received credit frame raises the transmitter's grants for a channel. -/
  | stakeCredit (port : Nat) (vc : Nat) (frames : Nat) (units : Nat)
  /-- STAKE_KEEP_ALIVE (R416): A received keep-alive frame counts as a valid frame. -/
  | stakeKeepAlive (port : Nat)
  /-- STAKE_KEEP_ALIVE_DUE (R416): With no frame sent for 10 µs, the end sends a keep-alive. -/
  | stakeKeepAliveDue (port : Nat)
  /-- STAKE_RX_IDLE_TIMEOUT (R416): No valid frame for 100 µs sends the link into Recovery. -/
  | stakeRxIdleTimeout (port : Nat)
  /-- STAKE_RECOVERY_TIMEOUT (R416): Recovery not returning to L0 within 2 ms, or three entries in 10 ms, takes the
     link down. -/
  | stakeRecoveryTimeout (port : Nat)
  /-- STAKE_REPLAY_TIMEOUT (R414): The oldest held frame unreleased for PID 0x0C01 µs causes all held frames to be
     resent. -/
  | stakeReplayTimeout (port : Nat)
  /-- STAKE_RESPONSE_TIMEOUT (R421): A request past its response limit holds its tag and its outcome is handled as
     lost. -/
  | stakeResponseTimeout (port : Nat) (tag : Nat)
  /-- IDENT_RESPONSE (R433): An IDENT reply identifies the pack and its ports, checking side and protocol version. -/
  | identResponse (port : Nat) (tag : Nat) (status : Nat) (ident : Ident)
  /-- GEOM_RESPONSE (R381): A GEOM reply is checked against the accepted geometry. -/
  | geomResponse (port : Nat) (tag : Nat) (status : Nat) (geom : Geom)
  /-- READ_RESPONSE (R428): A READ response delivers data and a corrected-bit count, or marks the strip unreadable.
     Operands: checkOk: the extent check of R276 passes. -/
  | readResponse (port : Nat) (tag : Nat) (status : Nat) (value : Nat) (checkOk : Bool)
  /-- PROGRAM_RESPONSE (R343): A PROGRAM response completes a strip or parity program, or reports a failure. -/
  | programResponse (port : Nat) (tag : Nat) (status : Nat) (value : Nat)
  /-- ERASE_RESPONSE (R393): An ERASE response completes or fails a block erase. -/
  | eraseResponse (port : Nat) (tag : Nat) (status : Nat) (value : Nat)
  /-- HEALTH_RESPONSE (R360): A HEALTH reply may declare the pack failed under cause 2. -/
  | healthResponse (port : Nat) (tag : Nat) (status : Nat) (failed : Bool)
  /-- TEMP_RESPONSE (R405): A TEMP reply updates the pack's temperature figures. -/
  | tempResponse (port : Nat) (tag : Nat) (status : Nat) (temp : Int)
  /-- FW_MEASURE_RESPONSE (R126): A FW_MEASURE reply records the pack's measurement and checks its floor. -/
  | fwMeasureResponse (port : Nat) (tag : Nat) (status : Nat) (hash : List Byte) (version : Nat) (svn : Nat) (slot : Nat)
  /-- FW_LOAD_RESPONSE (R427): A FW_LOAD response reports the image stored or refused. -/
  | fwLoadResponse (port : Nat) (tag : Nat) (status : Nat)
  /-- FENCE_PORT_RESPONSE (R446): A FENCE_PORT answer confirms a pack's fence and may set fence_done. -/
  | fencePortResponse (port : Nat) (tag : Nat) (status : Nat) (value : Nat)
  /-- SET_EPOCH_RESPONSE (R452): A SET_EPOCH answer confirms a pack's epoch. -/
  | setEpochResponse (port : Nat) (tag : Nat) (status : Nat) (value : Nat)
  /-- HELLO (R443): A peer's HELLO is checked in the order of Table 17-4, answered by CONFIRM or UNPAIR. -/
  | hello (hello : Hello)
  /-- CONFIRM (R441): A peer's CONFIRM signature is verified and the heads become paired. -/
  | confirm (sigOk : Bool)
  /-- UNPAIR (R444): An UNPAIR message ends pairing. -/
  | unpair (reason : Nat)
  /-- PEER_PLEM (R105): A PLEM packet from the peer runs on ring 62. -/
  | peerPlem (packet : List Byte) (block : List Byte)
  /-- CARRY (R279): A command carried from the peer runs on the Handle holder and its status returns. -/
  | carry (packet : List Byte) (block : List Byte)
  /-- KEY_XFER (R295): The AWK from the peer is wrapped under this die's DRWK and the blob returned. -/
  | keyXfer (kcv : List Byte)
  /-- FWD_CMD (R193): A forwarded NVMe command takes a tag on the owning head and its completion returns. -/
  | fwdCmd (tag : Nat) (gen : Nat) (cmd : IoCmd)
  /-- PACK_RELAY (R361): A READ relayed by the peer is issued to a pack it cannot reach. -/
  | packRelay (port : Nat) (block : Nat) (offset : Nat) (length : Nat) (slc : Bool)
  /-- REF_TAKE (R267): A deduplication reference to a peer-written chunk is taken or refused. -/
  | refTake (bundle : Nat) (position : Nat)
  /-- AUTH_STATE (R458): The standby applies authority decisions and checks received Slath tables. -/
  | authState (asn : Nat) (decision : AuthDecision)
  /-- PEER_HEALTH (R460): A peer health record is checked and reacted to per Table 17-6. -/
  | peerHealth (health : Health)
  /-- HANDOFF (R455): The standby compares its digest at the named asn for a Handle transfer. -/
  | handoff (asn : Nat) (digest : List Byte)
  /-- TAKEOVER_T (R325): A fenced head receives T, discards records above it and ends its replay. -/
  | takeoverT (t : Nat)
  /-- PEER_PROTOCOL_ERROR (R439): An unknown message code or wrong VC on the peer link is a protocol error. -/
  | peerProtocolError
  /-- PAIRING_RETRY (R443): Every 1 s after a refused pairing, or in bridge mode, pairing is retried. -/
  | pairingRetry
  /-- HEALTH_SEND (R460): Every 100 ms each head sends its health record. -/
  | healthSend
  /-- HEALTH_ABSENT (R460): No valid health record for 300 ms while frames arrive counts event code 0x0DA. -/
  | healthAbsent
  /-- DIGEST_BOUNDARY (R458): At each 100 ms boundary the head computes its authority-state digest. -/
  | digestBoundary
  /-- TILE_KNOWN_ANSWER_TEST (R459): The standby tests an idle tile, taking a failed tile out of service. -/
  | tileKnownAnswerTest (tile : Nat) (pass : Bool)
  /-- PEER_KEY_PHASE_CHANGE (R442): After 2^31 frames the sender derives the next key and inverts the key phase. -/
  | peerKeyPhaseChange
  /-- PEER_PATH_LOSS (R444): The peer link down with no class 3 path for 10 ms ends pairing. -/
  | peerPathLoss
  /-- HOLD_IN_FALL (R521): HDL_HOLD_IN falls with no HANDOFF, so the head ends pairing, counts the peer silent and
     loses the mirror. -/
  | holdInFall
  /-- HOLD_IN_RISE (R447): HDL_HOLD_IN asserts, giving a tie within the window or a loss of authority after it. -/
  | holdInRise
  /-- HANDLE_TAKE (R452): HDL_HOLD_IN deasserted for 5 ms lets an eligible head take the Handle. -/
  | handleTake
  /-- HOLDER_STUCK (R449): HDL_HOLD_IN asserted with no beat edge for 10 ms marks the peer silent. -/
  | holderStuck
  /-- PEER_SILENT (R449): No frame for 10 ms and no beat edge for 50 ms marks the peer silent. -/
  | peerSilent
  /-- PEER_SEVERED (R457): No frame for 10 ms while beats continue marks the peer severed. -/
  | peerSevered
  /-- PEER_STUCK_CLEAR (R447): HDL_HOLD_IN deasserted for 5 ms clears peer_stuck. -/
  | peerStuckClear
  /-- OUTPUT_READBACK_MISMATCH (R448): A Handle output ball differing from its driven value for 1 ms is a loss of
     the interlock. -/
  | outputReadbackMismatch
  /-- PEER_REPLAY_END (R453): The survivor's replay of the peer's copy up to T ends and it owns the peer's volumes. -/
  | peerReplayEnd
  /-- HANDLE_TRANSFER_END (R455): Every SET_EPOCH of a transfer is answered, so the end entry and status are posted. -/
  | handleTransferEnd
  /-- COPY (R469): A COPY descriptor is checked at fetch and moves its source entries to the destination. -/
  | copy (lane : Nat) (desc : DmvDesc) (srcs : List SgEntry)
  /-- FILL (R469): A FILL descriptor is checked at fetch and writes its pattern over the buffer. -/
  | fill (lane : Nat) (desc : DmvDesc)
  /-- FENCE (R477): A FENCE descriptor waits until every earlier write of its lane has arrived. -/
  | fence (lane : Nat) (desc : DmvDesc)
  /-- FLUSH (R478): A FLUSH descriptor waits until earlier writes into its region have arrived. -/
  | flush (lane : Nat) (desc : DmvDesc)
  /-- BURST_GRANT (R473): The Data Mover port grants a ready burst by priority, round robin and age. Operands: mask
     of endpoints asserting a request. -/
  | burstGrant (requests : Nat) (age : List Nat)
  /-- WRITES_ARRIVED (R479): Every write of a descriptor has arrived, so a notify record is posted or a waiting
     FENCE or FLUSH completes. -/
  | writesArrived (lane : Nat) (count : Nat)
  /-- PACE_REQUEST_RESUME (R474): A paced endpoint reasserts its request and the descriptor resumes. -/
  | paceRequestResume (lane : Nat)
  /-- PACE_TIMEOUT (R475): A paced descriptor whose request stays withdrawn for PID 0x0E00 ms ends with DEV.TIMEOUT. -/
  | paceTimeout (lane : Nat)
  /-- DMV_SVC_CFG_WRITE (R480): A write to DMV_SVC_CFG_n enables, disables or sizes a service lane's rings. -/
  | dmvSvcCfgWrite (lane : Nat) (value : Word)
  /-- DMV_SVC_TAIL_DOORBELL (R480): A service lane submission doorbell gives descriptors to fetch. -/
  | dmvSvcTailDoorbell (lane : Nat) (value : Word)
  /-- DMV_SVC_HEAD_DOORBELL (R480): A service lane completion head doorbell frees completion entries. -/
  | dmvSvcHeadDoorbell (lane : Nat) (value : Word)
  /-- MAP_CACHE_READ (R482): A cacheable read hits, or misses and starts or joins a fill. -/
  | mapCacheRead (addr : Nat)
  /-- MAP_CACHE_FILL_DONE (R482): A line fill completes and the line is allocated unless an invalidation intervened. -/
  | mapCacheFillDone (addr : Nat)
  /-- MAP_CACHE_WRITE (R483): A cacheable write updates a hit line and enters the write-through buffer. -/
  | mapCacheWrite (addr : Nat) (bytes : List Byte)
  /-- MCH_PRELOAD_CTRL_WRITE (R484): Control firmware starts a preload of lines into a way. -/
  | mchPreloadCtrlWrite (addr : Nat) (value : Word)
  /-- MCH_WAY_LOCK_WRITE (R484): Control firmware locks or unlocks ways, or sets lock_err. -/
  | mchWayLockWrite (mask : Nat)
  /-- INV_ALL (R486): Writing MCH_CTRL.inv_all drains the write-through buffer and invalidates every line. -/
  | invAll
  /-- MAP_LOOKASIDE_INSERT (R488): Control firmware inserts a Map Lookaside entry, replacing an unpinned entry or
     being refused. -/
  | mapLookasideInsert (kind : Nat) (object : Nat) (page : Nat) (frame : Nat) (pinned : Bool)
  /-- MAP_LOOKASIDE_REMOVE (R488): Control firmware removes a Map Lookaside entry. -/
  | mapLookasideRemove (kind : Nat) (object : Nat) (page : Nat)
  /-- MAP_LOOKASIDE_LOOKUP (R488): A map-page lookup hits or posts a map-miss notice and waits. -/
  | mapLookasideLookup (kind : Nat) (object : Nat) (page : Nat)
  /-- WVM_START (R504): When WVM runs, the bound loops begin evaluating with bumpless first samples. -/
  | wvmStart
  /-- LOOP_TICK (R494): At a tick, every due Weaver loop is evaluated and its output applied. -/
  | loopTick
  /-- SENSOR_SAMPLE_ARRIVAL (R500): A sensor sample arrives on Rim ring 62 or 63. -/
  | sensorSampleArrival (code : Nat) (inst : Nat) (value : Int)
  /-- SENSOR_STALE (R500): A loop's sensor has no fresh sample for twice its period, so the loop holds. -/
  | sensorStale (loop : Nat)
  /-- INJECTION_END (R506): A test signal ends at its duration, or early on a change of state or binding. -/
  | injectionEnd (loop : Nat)
  /-- CAPTURE_TRIGGER (R507): An armed capture's trigger occurs and sampling begins. -/
  | captureTrigger
  /-- THERMAL_SENSOR_SAMPLE (R510): Every sensor is sampled at 1,000 or 20,000 samples per second. Operands: 37
     readings in 1/16 degree. -/
  | thermalSensorSample (readings : List Int)
  /-- FAST_SAMPLING_EXIT (R510): Every sensor below 113 °C for 100 ms returns sampling to 1,000 per second. -/
  | fastSamplingExit
  /-- WATCHDOG_KICK (R516): A write to a core's kick register restarts its watchdog. -/
  | watchdogKick (core : Nat)
  /-- WATCHDOG_EXPIRY (R516): A watched core's watchdog unkicked for 5 ms fires with class 0x04. -/
  | watchdogExpiry (core : Nat)
  /-- WATCHDOG_PARK_WRITE (R516): Device firmware parks or unparks a control core through an audited register write. -/
  | watchdogParkWrite (core : Nat) (park : Bool)
  /-- PARKED_CORE_EXECUTES (R516): A parked core executes an instruction and its watchdog fires at once. -/
  | parkedCoreExecutes (core : Nat)
  /-- CONFIG_SCRUB_PASS (R517): The register scrubber recomputes every check code and a mismatch is class 0x05. -/
  | configScrubPass (mismatch : Bool)
  /-- HAMPER_SCRUB_READ (R518): The Hamper scrubber reads a line, correcting it, poisoning it, or finding class
     0x09. Operands: symbol errors found: 0, 1 (corrected) or more (uncorrectable). -/
  | hamperScrubRead (line : Nat) (symbols : Nat)
  /-- FAIL_SILENT_DECISION (R519): A dangerous failure is detected: the cause latches and the fail-silent reaction
     runs. -/
  | failSilentDecision (cls : Nat) (code : Nat)
  /-- FAIL_SILENT_CAUSE_RECORD (R522): Border appends entry 0xFF17 after the reaction, or at the next start, and
     sets recorded. -/
  | failSilentCauseRecord
  /-- EVENT_NOTICE (R530): A 16-byte occurrence notice is posted to the region 15 ring and counted. -/
  | eventNotice (code : Nat) (value : Nat)
  /-- EPOCH_END (R532): An event-recorder epoch ends and its summaries are written within 100 ms. -/
  | epochEnd
  /-- START_MARKER (R535): Once Coil is ready, the recorder finds where it stopped and writes a start marker. -/
  | startMarker
  /-- HAMPER_ACCESS (R24): The arbiter accepts an access under its window entry or denies it. -/
  | hamperAccess (src : AccessSrc) (write : Bool) (addr : Nat) (bytes : List Byte)
  /-- RIM_POST (R30): A producer posts a Rim entry, stalls on a full ring, or receives a full indication. -/
  | rimPost (ring : Nat) (core : Bool) (entry : List Byte)
  /-- RIM_TAKE (R29): A consumer takes the oldest entry of a ring, freeing space for a stalled producer. -/
  | rimTake (ring : Nat)
  /-- REGISTER_WRITE (R542): A BAR0 write to a register with no row of its own updates its fields by access type. -/
  | registerWrite (offset : Nat) (value : Word)
  /-- BAR0_MALFORMED_REQUEST (R540): A BAR0 request that is not a single aligned DWORD is refused or discarded. -/
  | bar0MalformedRequest (write : Bool)
  /-- RC_REGISTER_READ (R542): A read of an RC register returns its value and clears it or restarts its high-water
     mark. -/
  | rcRegisterRead (offset : Nat)
  /-- LO_REGISTER_READ (R541): A read of a _LO register captures its _HI half. -/
  | loRegisterRead (offset : Nat)
  /-- HAM_WIN_BASE_WRITE (R548): A write to HAM_WIN_BASE_n is audited, or discarded when it would breach R22. -/
  | hamWinBaseWrite (n : Nat) (value : Word) (requester : Nat)
  /-- HAM_WIN_SIZE_WRITE (R548): A write to HAM_WIN_SIZE_n is audited, or discarded when it would breach R22. -/
  | hamWinSizeWrite (n : Nat) (value : Word) (requester : Nat)
  /-- HAM_WIN_ACC_WRITE (R22): A write to HAM_WIN_ACC_n is audited, or discarded whole when enabling an entry that
     does not fit. -/
  | hamWinAccWrite (n : Nat) (value : Word) (requester : Nat)
  /-- HAM_VIOL_SRC_WRITE (R545): Any write to HAM_VIOL_SRC clears both violation capture registers. -/
  | hamViolSrcWrite (value : Word)
  /-- COL_VIOL_ADDR_WRITE (R331): Any write to COL_VIOL_ADDR clears the Coil violation capture. -/
  | colViolAddrWrite (value : Word)
  /-- RLK_SEL_WRITE (R223): A write to RLK_SEL selects a tag and zeroes the entry registers until RLK_ENTRY_STS is
     read. -/
  | rlkSelWrite (value : Word)
  /-- RLK_ENTRY_STS_READ (R223): A read of RLK_ENTRY_STS takes a consistent snapshot of the selected entry. -/
  | rlkEntryStsRead
  /-- RMA_CONN_SEL_WRITE (R256): A write to RMA_CONN_SEL selects a connection and zeroes the other selected
     registers. -/
  | rmaConnSelWrite (value : Word)
  /-- RMA_CONN_STS_READ (R256): A read of RMA_CONN_STS takes a consistent snapshot of the selected connection. -/
  | rmaConnStsRead
  /-- CIP_SLOT_SEL_WRITE (R310): A write to CIP_SLOT_SEL selects a slot and zeroes the count registers. -/
  | cipSlotSelWrite (value : Word)
  /-- CIP_SLOT_STS_READ (R310): A read of CIP_SLOT_STS takes a consistent snapshot of the selected slot. -/
  | cipSlotStsRead
  /-- PEER_LINK_TRAINED (R441): The peer link reaches L0 at x16 or x8 and each head sends HELLO. Operands: aligned
     lane mask. -/
  | peerLinkTrained (lanes : Nat)
  /-- PEER_LINK_DOWN (R440): The peer link leaves L0 or falls below x8, so paired heads carry their messages over
     the class 3 connection and set via_conn. Operands: aligned lane mask that remains. -/
  | peerLinkDown (lanes : Nat)
  /-- PEER_RESPONSE (R438): A response frame from the peer to PLEM, CARRY, KEY_XFER, FWD_CMD or REF_TAKE arrives and
     completes the waiting command. -/
  | peerResponse (tag : Nat) (status : Nat) (detail : Nat) (value : Nat) (bytes : List Byte)
  /-- BEAT_IN_EDGE (R449): An edge on HDL_BEAT_IN restarts the beat windows that judge the peer stuck, silent or
     severed and sets beat_ok. -/
  | beatInEdge
  /-- BEAT_OUT_EDGE (R445): Every 500 µs for the holder, or every 5 ms for an eligible standby, the head toggles
     HDL_BEAT_OUT. -/
  | beatOutEdge
  /-- REFCLK_NOT_GOOD (R70): At the end of a 256 µs window REFCLK25 disagrees with the AON clock by more than 8 %,
     so the reference is not good and the tick and monotonic time fall back to the AON clock. -/
  | refclkNotGood
  /-- C0_WRITE_ARRIVAL_TIMEOUT (R477): A FENCE whose writes to head-processor memory have not arrived 50 ms after
     they left stops its lane, as R93 stops a ring. -/
  | c0WriteArrivalTimeout (lane : Nat)
  /-- SELFTEST_COMPLETE (R524): The SELFTEST tests end within 2 s: the device writes the output, returns passing
     tiles to service, posts the status and makes a failed monitor fail-silent. Operands: failed tiles,
     failed-monitor mask, failed-sensor mask. -/
  | selftestComplete (tiles : List Nat) (monitors : Nat) (sensors : Nat)
  /-- TAP_INSTRUCTION_UPDATE (R56): A new instruction loaded through the test access port is accepted, or is treated
     as BYPASS once data service has started. -/
  | tapInstructionUpdate (ir : TapInstr)
  deriving DecidableEq, Repr

end Sys2Proof
end

