-- ==== Sys2Proof/Config.lean ====
section
/-! DEFINITION. What the spec leaves open, as constants with no body: the free values, and the cryptographic
functions, whose algorithms the spec names by their standards and whose values no rule of the spec states. -/

namespace Sys2Proof.Config

/-- A value the spec leaves open: the `n`-th free value of a run (DESIGN CHOICE, log 1). -/
opaque freeValue : Nat → BitVec 64

/-- SHA-384 of a byte string (R124, R132; log 2). -/
opaque sha384Digest : List Byte → Vector Byte 48
/-- Its 48 bytes. -/
def sha384 (m : List Byte) : List Byte := (sha384Digest m).toList
/-- SHA-256 of a byte string (R261; log 2). -/
opaque sha256Digest : List Byte → Vector Byte 32
/-- Its 32 bytes. -/
def sha256 (m : List Byte) : List Byte := (sha256Digest m).toList
/-- HMAC-SHA-384 with a key (R123, R290; log 2). -/
opaque hmac384Digest : List Byte → List Byte → Vector Byte 48
/-- Its 48 bytes. -/
def hmac384 (k m : List Byte) : List Byte := (hmac384Digest k m).toList
/-- An ECDSA P-384 signature by the named private key over a byte string (R125; log 2). -/
opaque ecdsaSignature : List Byte → List Byte → Vector Byte 96
/-- Its 96 bytes (Table 05-3). -/
def signEcdsa (k m : List Byte) : List Byte := (ecdsaSignature k m).toList
/-- Whether an ECDSA P-384 signature verifies: public key, signed bytes, signature (R103, R110; log 2). -/
opaque verifyEcdsa : List Byte → List Byte → List Byte → Bool
/-- Whether a DER certificate chain, leaf first, leads to the root whose key hash is given, with X.509 v3 P-384
certificates (R103, R110, R158; log 2). -/
opaque chainLeadsTo : List Byte → List Byte → Bool
/-- Whether every certificate of a chain lies within its validity period at a wall time in ns (R103; log 2). -/
opaque chainValidAt : List Byte → Nat → Bool
/-- The organizationalUnitName of the leaf of a chain, as bytes (R103; log 2). -/
opaque leafUnit : List Byte → List Byte
/-- The public key of the leaf of a chain (R107; log 2). -/
opaque leafKey : List Byte → List Byte
/-- AES-KWP wrapping of a byte string under a key (R293; log 2). -/
opaque kwpWrap : List Byte → List Byte → List Byte
/-- AES-KWP unwrapping; none where the integrity check fails (R293, R238; log 2). -/
opaque kwpUnwrap : List Byte → List Byte → Option (List Byte)
/-- A key with a key check value: KEY_XFER's row names the key that the peer sends by its kcv (R295; log 2). -/
opaque keyWithKcv : List Byte → List Byte
/-- A lookaside cipher result: mode, decrypt, key, IV or nonce, additional data, input (R301; log 2). -/
opaque cipher : Nat → Bool → List Byte → List Byte → List Byte → List Byte → List Byte
/-- Whether a GCM tag verifies: key, nonce, additional data, ciphertext, tag (R304; log 2). -/
opaque gcmTagOk : List Byte → List Byte → List Byte → List Byte → List Byte → Bool
/-- The GCM tag of an encryption: key, nonce, additional data, plaintext (R302; log 2). -/
opaque gcmTagBytes : List Byte → List Byte → List Byte → List Byte → Vector Byte 16
/-- Its 16 bytes. -/
def gcmTag (k n a p : List Byte) : List Byte := (gcmTagBytes k n a p).toList
/-- The LZ4 block that the compression slice makes of a bundle's chunks (R271; log 3). -/
opaque lz4Block : List Byte → List Byte
/-- The zstd frame that the compression slice makes of a bundle's chunks (R271; log 3). -/
opaque zstdFrame : List Byte → List Byte
/-- The strip that the other head programmed at a position of a segment, as read back at a time (R347; log 42). -/
opaque peerStrip : Nat → Nat → Nat → List Byte
/-- Where a rebuilt strip lies in a member's spare space, by segment, position and member: block, and strip in the block (R367
gives no allocation; log 42). -/
opaque sparePlace : Nat → Nat → Nat → Nat × Nat
/-- The first strip of the checkpoint with a sequence number (R170; log 42). -/
opaque checkpoint : Nat → List Byte
/-- A sample of a swept sine: amplitude, f0, f1, duration, sample (R506 bounds its error; log 4). -/
opaque sweptSine : Int → Nat → Nat → Nat → Nat → Int
/-- Whether a product of a Q1.15 and a Q9.31 value that is no multiple of 2^−31 rounds up (R492 does not say; log 66). -/
opaque roundUp : Int → Bool
/-- A coefficient of bound loop n from the running WVM image: loop, PID offset (R504; log 5). -/
opaque wvmCoefficient : Nat → Nat → Int
/-- The draw of a member from those a row has left, by generation, row and position (R338 bounds the draw; log 6). -/
opaque slathDraw : Nat → Nat → Nat → Nat

/-- The 48-byte output of the on-die unclonable source (R123; log 2). -/
opaque unclonableBytes : Vector Byte 48
/-- Its 48 bytes. -/
def unclonable : List Byte := unclonableBytes.toList
/-- A private key generated by FIPS 186-5 from a DRBG instantiated with a secret and a label (R124; log 2). -/
opaque ecKey : List Byte → List Byte → List Byte
/-- The DER SubjectPublicKeyInfo of a private key (R124; log 2). -/
opaque ecPublic : List Byte → List Byte
/-- A DER X.509 v3 certificate: issuer's private key, subject's public key, subject serial and extensions (R124; log 2). -/
opaque x509 : List Byte → List Byte → List Byte → List Byte
/-- SHA-384 of the Caerzor firmware root key's SubjectPublicKeyInfo, which ROM holds (R158; log 2). -/
opaque firmwareRoot : List Byte
/-- The manufacturing CA certificate of SPDM slot 0 (Table 05-11; log 2). -/
opaque caCert : List Byte
/-- The power group of an engine tile (R72 gives 256 tiles in 24 groups and no assignment; log 14). -/
opaque groupOf : Nat → Nat
/-- The offset that the entry of a park register write carries: the register has none in BAR0 (R527; log 24). -/
opaque parkOffset : Nat → Nat
/-- The engine tile of a compression slice (R273 and R524 give no assignment; log 14). -/
opaque sliceTile : Nat → Nat

/-- Lines beyond the first of an operation's delta record: only its version behaviour is specified (Table 12-6; log 26). -/
opaque opLines : Nat → List Nat → List Byte → Nat
/-- Those lines (R170; log 26). -/
opaque opBody : Nat → List Nat → List Byte → List Byte
/-- A field of the commit record of a PLEM operation that Table 12-5 gives for parts of commands, by arrival and field: part, parts,
first block, blocks (log 26). -/
opaque opCommit : Nat → Nat → Nat
/-- What the sieve answers for a fingerprint that the cold index does not hold (R265 leaves it open; log 27). -/
opaque sieveMaybe : List Byte → Bool
/-- Whether the paired peer holds the same key check value in a slot (R299; how the head learns it is not stated; log 37). -/
opaque peerSlotSame : Nat → List Byte → Bool

/-- The receive buffers that a connection of a class has (R243 names them and gives no number; log 56). -/
opaque recvBuffers : Nat → Nat
/-- The bytes that a receive buffer of a class holds (R225 compares a SEND's length with it and gives no number; log 56). -/
opaque recvSize : Nat → Nat
/-- The image of a context in its home slot, from the connection number and its wrapped SA keys (R228 gives no layout; log 161). -/
opaque contextImage : Nat → List Byte → List Byte
/-- The buffers that the device advertises on a native connection: key, Hamper address, length (Table 09-2 names them; log 56). -/
opaque advertised : Nat → List (Nat × Nat × Nat)

/-- The metadata page that holds an entry of a map: kind, object, entry (R172 names the pages and gives no entry size; log 155). -/
opaque mapPage : Nat → Nat → Nat → Nat

/-- The Map Lookaside set of a key: kind, object, page (R488 gives 131,072 sets and no index function; log 62). -/
opaque lookasideSet : Nat → Nat → Nat → Nat

end Sys2Proof.Config
end

