-- ==== Sys2Proof/Machine/State.lean ====
section
/-! DEFINITION. The device's state: plain data, one structure per block of Table 01-1, and the machine after reset.
A field's default value is its reset value; where the spec gives none, log 7 names it. -/

namespace Sys2Proof.Machine

/-! ### Why a step stops -/

/-- No step of this device ends in a machine fault: the spec gives every failure an effect on the state. The one
constructor is raised by nothing. -/
inductive Fault where
  /-- Raised by no step; safe. -/
  | none
  deriving DecidableEq, Repr

/-- Steps to which the spec gives no effect. -/
inductive Refusal where
  /-- No meaning yet; raised only by Machine/Dispatch.lean. Safe. -/
  | notModelled (mnemonic : String)
  /-- A partner broke an obligation for which the manual states no outcome (R6). Raised by MAP_LOOKASIDE_INSERT of the
  reserved kind 3 or of a frame that region 7 does not hold (R488). Safe: the model stops where nothing may be relied on. -/
  | obligationBroken (rule : Nat)
  deriving DecidableEq, Repr

/-! ### What the device sends out -/

/-- The 32-byte status packet (Table 04-7). -/
structure StatusPkt where
  sequence : Nat
  status : Nat
  detail : Nat := 0
  result : Nat := 0
  time : Nat := 0
  opcode : Nat
  audited : Bool := false
  output : Bool := false
  auditSeq : Nat := 0
  deriving DecidableEq, Repr, Inhabited

/-- An NVMe completion (status by its NVMe name's code, see `NvmeStatus`). -/
inductive NvmeStatus where
  | success | invalidOpcode | invalidField | abortRequested | abortedSqDeletion | abortLimit | lbaOutOfRange
  | sglLengthInvalid | capacityExceeded | namespaceNotReady | writeProtected | accessInaccessible | accessTransition
  | invalidNamespace | guardError | appTagError | refTagError | unrecoveredRead | compareFailure
  | connectInvalid | featureNotChangeable | invalidQueue | completionQueueInvalid | invalidQueueSize | invalidQueueDeletion
  | aerLimit
  deriving DecidableEq, Repr, Inhabited

/-- One message or signal that the device gives to a partner, in the order given (log 8). -/
inductive Out where
  | status (ring : Nat) (phase : Bool) (pkt : StatusPkt)
  | irq (vector : Nat)
  | hostWrite (addr : Nat) (bytes : List Byte)
  | nvmeCpl (ctrl sq cid : Nat) (st : NvmeStatus) (dw0 : Nat) (data : List Block)
  | nvmeInfo (ctrl cid : Nat) (words : List Nat)
  | cfgAnswer (port : Nat) (retry : Bool)
  | smbus (bytes : List Byte)
  | smbusTimeout
  | mctp (cmd : Nat) (code : Nat) (bytes : List Byte)
  | mctpPlem (status detail : Nat)
  | spdm (code : Nat) (bytes : List Byte)
  | spdmError (code : Nat)
  | stakeReq (port tag cmd epoch : Nat) (payload data : List Byte)
  /-- A frame of a Stake port, as its bytes (Table 16-1). -/
  | stakeFrame (port : Nat) (bytes : List Byte)
  | peerMsg (code : Nat) (args : List Nat) (bytes : List Byte)
  | peerResp (tag status detail value : Nat) (bytes : List Byte)
  | roce (conn path kind psn : Nat) (bytes : List Byte)
  /-- An ESP packet: path, SPI, sequence number, its bytes (R233). -/
  | esp (conn path spi seq : Nat) (bytes : List Byte)
  | cm (conn : Nat) (kind : Nat) (reason : Nat)
  | tcp (conn : Nat) (kind : Nat)
  | ethReply (sub kind : Nat) (bytes : List Byte)
  | regRead (offset : Nat) (value : Word)
  | regUnsupported
  | memRead (bytes : List Byte)
  | accessError
  | rimNotice (ring plane : Nat) (entry : List Byte)
  | rimFull (ring : Nat)
  | dmvRecord (lane tag moved status detail : Nat) (arrived phase : Bool) (time : Nat)
  | tap (instr : TapInstr)
  | cacheWord (addr : Nat) (bytes : List Byte)
  | mapFrame (kind object page frame : Nat)
  | lookaside (queue status result : Nat) (bytes : List Byte)
  /-- The last arrival number of a volume, sent to its new owner (R206). -/
  | lastArrival (vol number : Nat)
  /-- An in-band interrupt on the sideband in I3C mode (R54). -/
  | ibi
  /-- The lanes of an Ethernet port whose transmitters are out of electrical idle, bit i for lane i (R174, R176). -/
  | ethLanes (mask : Nat)
  /-- The configuration space of a PCIe function (Table 07-3). -/
  | cfgFunction (port func classCode bar0 vectors : Nat) (sriov : Bool)
  /-- An NVMe/TCP PDU with its fields: 1 ICResp, 9 R2T (R181). -/
  | nvmeTcp (conn kind : Nat) (words : List Nat)
  deriving DecidableEq, Repr

/-! ### Pins, rails, always-on records -/

/-- The package's pins and rails (R43, R46, R51). -/
structure Pins where
  aonInRange : Bool := true
  pwrok : Bool := true
  thermtrip : Bool := false
  faultN : Bool := false
  alertN : Bool := false
  ospiReset : Bool := true
  holdIn : Bool := false
  perstC0 : Bool := false
  perstC1 : Bool := false
  tap : TapInstr := .bypass
  deriving DecidableEq, Repr

/-- The fail-silent cause record (R522). -/
structure Cause where
  valid : Bool := false
  thisBoot : Bool := false
  recorded : Bool := false
  cls : Nat := 0
  code : Nat := 0
  ns : Nat := 0
  boot : Nat := 0
  deriving DecidableEq, Repr

/-- What the always-on domain keeps across resets (R543). -/
structure Aon where
  trip : Bool := false
  faultLatch : Bool := false
  cause : Cause := {}
  side : Bool := false
  /-- The always-on rails have been within range for 1 ms: the responder can answer (R65). PWROK rises later than that (R63). -/
  responder : Bool := true
  deriving DecidableEq, Repr

/-- Start-up and power-domain state of this boot (Tables 03-5, 03-6, 22-3). -/
structure Boot where
  warm : Bool := false
  pwrfailLatched : Bool := false
  service : Bool := false
  serviceEver : Bool := false
  /-- Data service has started in this boot (R81). -/
  served : Bool := false
  recSealed : Bool := false
  cfgSealed : Bool := false
  handleElig : Bool := false
  plemReady : Bool := false
  coilReady : Bool := false
  hamperReady : Bool := false
  sbFull : Bool := false
  sbEarly : Bool := false
  mgtRunning : Bool := false
  borderId : Bool := false
  fusesLoaded : Bool := false
  pll : Nat := 0
  refOk : Bool := false
  /-- The tick and monotonic time run from the AON clock (R69, R145). -/
  aonTick : Bool := true
  halted : Bool := false
  wavesBegun : Nat := 0
  wavesDone : Nat := 0
  romReading : Bool := false
  linkUpC0 : Bool := false
  linkUpC1 : Bool := false
  warmPending : Bool := false
  bootStopped : Bool := false
  bmcEid : Nat := 0
  i3c : Bool := false
  i3cAddr : Nat := 0
  /-- The power-loss stop of Table 02-12. -/
  stopping : Bool := false
  frontEndsStopped : Bool := false
  retention : Bool := false
  /-- All fast activity has stopped, or has not begun: Coil in retention, a trip, PWROK low, or a device that does not start
  (Table 02-12, R58, R59, R65). -/
  fastStopped : Bool := false
  /-- Firmware has read the boot flash's SFDP tables and runs the flash in 8D-8D-8D mode (R55). -/
  flashOctal : Bool := false
  deriving DecidableEq, Repr

/-- Engine tile states (Table 03-4): 0 awake, 1 gated, 2 powered off. -/
structure Pwr where
  tiles : List Nat := List.replicate 256 0
  groupOff : Nat := 0
  /-- Doorbells waiting at the rouser, in order: time and group (R73). -/
  wakeQueue : List (Nat × Nat) := []
  /-- Groups powered on and restoring. -/
  restoring : List Nat := []
  lastPowerOn : Option Nat := none
  doze : Bool := false
  waking : Bool := false
  /-- Tile state saved in Hamper region 12 (R72). -/
  saved : List Nat := []
  deriving DecidableEq, Repr

/-! ### The Hamper and the Rim -/

/-- A window entry (Table 01-2). -/
structure Win where
  base : Nat := 0
  size : Nat := 0
  enable : Bool := false
  fixed : Bool := false
  owner : Nat := 0
  m : Nat := 0
  c : Nat := 0
  d : Nat := 0
  deriving DecidableEq, Repr, Inhabited

/-- The first denied access (R24). -/
structure Viol where
  valid : Bool := false
  write : Bool := false
  plane : Nat := 0
  addr : Nat := 0
  deriving DecidableEq, Repr

/-- The default partition of Table 01-3, units of 8 MiB (R20). -/
def defaultWindows : List Win :=
  [ ⟨0x0, 128, true, true, 3, 0, 1, 0⟩, ⟨0x80, 2048, true, false, 2, 1, 0, 1⟩,
    ⟨0x880, 32, true, false, 3, 0, 1, 3⟩, ⟨0x8A0, 4096, true, false, 1, 0, 1, 0⟩,
    ⟨0x18A0, 1024, true, false, 1, 0, 0, 0⟩, ⟨0x1CA0, 512, true, false, 1, 0, 0, 0⟩,
    ⟨0x1EA0, 8192, true, false, 2, 0, 0, 3⟩, ⟨0x3EA0, 5120, true, false, 2, 0, 0, 1⟩,
    ⟨0x52A0, 32, true, false, 1, 0, 1, 0⟩, ⟨0x52C0, 1, true, false, 1, 0, 3, 0⟩,
    ⟨0x52C1, 2048, true, false, 1, 0, 1, 0⟩, ⟨0x5AC1, 512, true, false, 1, 0, 1, 0⟩,
    ⟨0x5CC1, 32, true, false, 3, 0, 0, 3⟩, ⟨0x5CE1, 8, true, false, 2, 1, 0, 0⟩,
    ⟨0x5CE9, 8, true, true, 3, 0, 0, 0⟩, ⟨0x5CF1, 8, true, false, 3, 0, 2, 2⟩,
    ⟨0x5CF9, 775, true, false, 0, 0, 0, 0⟩ ]
  ++ List.replicate 15 ({ base := 0 } : Win)

/-- One Rim ring: its entries, and those that hardware producers hold while it is full, each with its producer's queue: 0 to 15
the Data Mover's lanes, 16 the Map Lookaside, 17 another, 18 and up the PLEM rings of C0 (R30). -/
structure Rim where
  entries : List (List Byte) := []
  held : List (Nat × List Byte) := []
  deriving DecidableEq, Repr, Inhabited

structure Ham where
  win : List Win := defaultWindows
  stsRange : Bool := false
  stsOverlap : Bool := false
  viol : Viol := {}
  /-- Contents: rising addresses, no zero byte listed (log 9). -/
  mem : List Host.Cell := []
  rim : List Rim := List.replicate 64 {}
  /-- Lines with an uncorrectable error that no entry covers (R518). -/
  poisoned : List Nat := []
  deriving DecidableEq, Repr

/-! ### PLEM -/

/-- A session bound to a ring (R100). -/
structure Session where
  id : Nat
  ring : Nat
  origin : Nat
  role : Nat
  leafKey : List Byte := []
  lastUse : Nat := 0
  deriving DecidableEq, Repr

/-- A PLEM ring (Tables 04-2 to 04-4). -/
structure Ring where
  sqBase : Nat := 0
  cqBase : Nat := 0
  enable : Bool := false
  irqEn : Bool := false
  sizeLog2 : Nat := 0
  sqHead : Nat := 0
  sqTail : Nat := 0
  cqTail : Nat := 0
  cqHead : Nat := 0
  phase : Bool := true
  held : List (StatusPkt × Bool) := []
  dbErr : Bool := false
  cfgErr : Bool := false
  fetchErr : Bool := false
  session : Nat := 0
  seq : Nat := 0
  nonce : Option (List Byte × Nat) := none
  /-- Packets that wait in the submission part of a device-internal ring, oldest first: packet and block (R85, R112). -/
  queue : List (List Byte × List Byte) := []
  /-- The SPDM secured session mapped to ring 60 or 61 (R104). -/
  spdm : Option Nat := none
  eid : Nat := 0
  deriving DecidableEq, Repr, Inhabited

/-- A command taken from a ring: packet and parameter-block copy (R92). -/
structure Cmd where
  ring : Nat
  seq : Nat
  opcode : Nat
  packet : List Byte
  block : List Byte
  session : Nat
  role : Nat
  /-- The order in which commands were taken; it tells two commands of one ring and sequence apart. -/
  uid : Nat := 0
  /-- In progress (started, R112). -/
  running : Bool := false
  /-- Stage 6 has decided its outcome, or it was refused. -/
  taken : Bool := false
  /-- Its dual-control signature block verified (R110). -/
  dualOk : Bool := false
  /-- Its status is discarded (R68, R93). -/
  discard : Bool := false
  /-- Carried by or for the peer: the peer-link tag to answer (R279). -/
  peerTag : Option Nat := none
  deriving DecidableEq, Repr, Inhabited

/-- A long operation running (R113), with what its end needs. -/
structure LongOp where
  cmd : Cmd
  started : Nat := 0
  arg : Nat := 0
  deriving DecidableEq, Repr

structure Plem where
  rings : List Ring := List.replicate 64 {}
  sessions : List Session := []
  nextSerial : Nat := 1
  nextUid : Nat := 0
  cmds : List Cmd := []
  longOps : List LongOp := []
  /-- Values written over the defaults: PID and value. -/
  pids : List (Nat × Nat) := []
  blocks : List (Nat × List Byte) := []
  /-- SELFTEST, DEVICE_DOZE and other commands that end in a later step, with their entries' audit_seq. -/
  deferred : List (Cmd × Nat) := []
  deriving DecidableEq, Repr

/-! ### Border -/

/-- An audit entry (Table 05-6), its crc and prev_hash computed when it is read. -/
structure AuditEntry where
  kind : Nat
  flags : Nat := 0
  session : Nat := 0
  seq : Nat := 0
  boot : Nat := 0
  mono : Nat := 0
  wall : Nat := 0
  requester : Nat := 0
  opcode : Nat := 0
  status : Nat := 0
  detail : Nat := 0
  cmdSeq : Nat := 0
  param : List Byte := []
  prevHash : List Byte := []
  deriving DecidableEq, Repr, Inhabited

/-- A measurement entry (Table 05-5). -/
structure Meas where
  comp : Nat := 0
  slot : Nat := 0
  fallback : Bool := false
  absent : Bool := false
  belowFloor : Bool := false
  late : Bool := false
  svn : Nat := 0
  version : Nat := 0
  hash : List Byte := []
  deriving DecidableEq, Repr, Inhabited

/-- A boot record (Table 05-3). -/
structure BootRecord where
  counter : Nat
  pending : Bool := false
  warm : Bool := false
  fallback : Bool := false
  packTimeout : Bool := false
  peerTimeout : Bool := false
  side : Bool := false
  sealNs : Nat := 0
  sealWall : Nat := 0
  dieSerial : Nat := 0
  prevHash : List Byte := []
  entries : List Meas := []
  aliasCert : List Byte := []
  signature : List Byte := []
  deriving DecidableEq, Repr, Inhabited

/-- The outcome of a command, decided at stage 6 (R134): the status it posts, numbers and bytes its effect needs. -/
structure Decision where
  status : Nat := 0
  detail : Nat := 0
  result : Nat := 0
  /-- Numbers the effect needs. -/
  nums : List Nat := []
  /-- Bytes the effect needs, or the output the command writes to its buffer. -/
  bytes : List Byte := []
  /-- The command starts an operation whose end is recorded by an entry of kind 0x04 (R135). -/
  started : Bool := false
  /-- The arrival number that the operation took at stage 6 (R205). -/
  arrival : Nat := 0
  /-- The peer carried it out and returned this status: nothing remains to be done here (R279). -/
  carried : Bool := false
  /-- Key material that the effect puts into the engine. -/
  secret : List Byte := []
  deriving DecidableEq, Repr, Inhabited

/-- What the audit port has taken, in the order of arrival (R33, R35): a command's outcome and effect, or a direct
write to an audited register. -/
inductive Held where
  | command (cmd : Cmd) (d : Decision)
  | register (offset value requester : Nat)
  /-- A watchdog park register, which device firmware writes (R516, R544). -/
  | park (core : Nat) (park : Bool)
  deriving DecidableEq, Repr

/-- Border's registers and volatile state of this boot. -/
structure Brd where
  /-- The read paths to the UDS fuses, the unclonable source and the UDS are open: while ROM runs (R123). -/
  udsOpen : Bool := true
  /-- CDI_1, the FwID certificate and the DeviceID certificate as ROM accepted it, none where its copy is damaged (R124). -/
  cdi1 : List Byte := []
  fwIdCert : List Byte := []
  devIdCert : List Byte := []
  counterDone : Bool := false
  /-- The Alias key of this boot is derived: CTL, WVM and SDS are measured, and the counter is durable (R124, R129). -/
  aliasReady : Bool := false
  /-- Measurements so far, by component or port (R126). -/
  meas : List Meas := []
  /-- What the audit port has taken and holds until its entries are durable, in order. -/
  port : List Held := []
  nearFull : Bool := false
  regRefused : Bool := false
  refused : Nat := 0
  cfgDigest : List Byte := zeros 48
  wallValid : Bool := false
  /-- Wall time at the monotonic time at which it was last set. -/
  wallBase : Nat := 0
  wallAt : Nat := 0
  wallPtp : Bool := false
  ptpOffset : Int := 0
  lastSync : Nat := 0
  spdmVersion : Bool := false
  spdmCaps : Bool := false
  spdmAlgs : Bool := false
  /-- Secured sessions: number, established, key phase. -/
  spdm : List (Nat × Bool × Nat) := []
  nextSpdm : Nat := 1
  chunks : List (Nat × List Byte) := []
  /-- Border events that arose before this boot's increment was durable (R129). -/
  early : List AuditEntry := []
  /-- Statuses held while their entries of kind 0x04 wait for space (R137). -/
  heldEnds : List (Cmd × StatusPkt) := []
  /-- The seal of the boot record is due and waits for a place (R129). -/
  sealDue : Bool := false
  deriving DecidableEq, Repr

/-- Fuses (Table 05-1). -/
structure Fuses where
  uds : List Byte := zeros 32
  dieSerial : Nat := 0
  devidCertHash : List Byte := zeros 48
  ownerRoot : List Byte := zeros 48
  /-- Floors of AOC, MGT, CTL, WVM, SDS, PACK (R142). -/
  floors : List Nat := [0, 0, 0, 0, 0, 0]
  hamRepair : Nat := 0
  deriving DecidableEq, Repr

/-! ### Firmware -/

/-- A staging in progress (R159). -/
structure Staging where
  session : Nat
  comp : Nat
  total : Nat
  crc : Nat
  done : Nat := 0
  data : List Byte := []
  deriving DecidableEq, Repr

/-- Boot flash contents (Tables 06-2, 06-3): the two directory copies as stored, the directory in use as fields, and the slots and areas.
The reserved areas are never written (R154). -/
structure Flash where
  /-- Directory copies 0 and 1: their 64-byte records as written, empty before the first write (R155, R156). -/
  dir0 : List Byte := []
  dir1 : List Byte := []
  dirGen : Nat := 0
  pref : List Nat := [0, 0, 0, 0, 0]
  raiseBits : Nat := 0
  /-- Slot states per component: slot 0, slot 1, reason. -/
  slots : List (Nat × Nat × Nat) := List.replicate 5 (1, 1, 0)
  packState : Nat := 0
  packLen : Nat := 0
  /-- The slots' contents by the offset of the slot in the flash (Table 06-2). -/
  images : List (Nat × List Byte) := []
  packImage : List Byte := []
  identity : List Byte := []
  deriving DecidableEq, Repr

structure Fw where
  /-- Running slot of AOC, MGT, CTL, WVM, SDS: none until checked, or none when both failed. -/
  running : List (Option Nat) := List.replicate 5 none
  /-- Slots that failed this boot: component, slot, reason (Table 06-5). -/
  failed : List (Nat × Nat × Nat) := []
  staging : Option Staging := none
  migEnd : Nat := 0
  packLoadPort : Option Nat := none
  /-- fmt_write of the paired peer's CTL, as last learnt (R171). -/
  peerFmt : Nat := 0
  deriving DecidableEq, Repr

/-! ### Host front end -/

/-- A tag (Tables 07-8 and R187 to R191). States: 0 FREE, 1 ARRIVED, 2 LOCKED, 3 STAGED, 4 COMMITTED, 5 COMPLETED. -/
structure Tag where
  idx : Nat
  gen : Nat := 0
  posted : Bool := false
  abortReq : Bool := false
  begun : Bool := false
  forwarded : Bool := false
  kind : Nat := 0
  state : Nat := 0
  ctrl : Nat := 0
  sq : Nat := 0
  cid : Nat := 0
  vol : Nat := 0
  slba : Nat := 0
  nblocks : Nat := 0
  pi : PiCtl := {}
  arrival : Nat := 0
  at_ : Nat := 0
  payload : List Block := []
  ranges : List (Nat × Nat) := []
  deac : Bool := false
  /-- Parts committed (R218). -/
  committed : Nat := 0
  /-- The read is served from a staged write, whose blocks its payload holds (R212, R213). -/
  hit : Bool := false
  discardCpl : Bool := false
  /-- On the owning head: the peer's tag to answer (R193). -/
  peerTag : Option (Nat × Nat) := none
  /-- Every chunk has been reduced, in order. -/
  entries : List DeltaEntry := []
  /-- Its chunks have been merged and looked up; an entry of kind 3 still waits for its lookup. -/
  reduced : Bool := false
  /-- Its delta and commit records have been handed to Coil. -/
  logged : Bool := false
  parts : Nat := 0
  warned : Bool := false
  /-- R2Ts sent for its payload over NVMe/TCP, or the RDMA READ over NVMe/RDMA (R181, R226). -/
  r2ts : Nat := 0
  remoteAcked : Bool := true
  deriving DecidableEq, Repr, Inhabited

/-- A fetched NVMe I/O command that waits for a tag (R187). -/
structure Waiting where
  ctrl : Nat
  sq : Nat
  cid : Nat
  cmd : IoCmd
  peerTag : Option (Nat × Nat) := none
  deriving DecidableEq, Repr

/-- An Abort being arbitrated (R190). -/
structure AbortCmd where
  ctrl : Nat
  cid : Nat
  target : Option (Nat × Nat)
  /-- Sent to the peer for a forwarded command. -/
  remote : Bool := false
  deriving DecidableEq, Repr

/-- An NVMe controller: 0 is C0, 1 is C1, from 2 Fabrics. -/
structure Ctrl where
  id : Nat
  en : Bool := false
  css : Nat := 0
  cfs : Bool := false
  discovery : Bool := false
  conn : Nat := 0
  /-- Submission queues: id, completion queue, size, tail. -/
  sqs : List (Nat × Nat × Nat × Nat) := []
  cqs : List (Nat × Nat) := []
  grantedQ : Nat := 0
  aers : List Nat := []
  /-- Feature values: feature and value. -/
  feats : List (Nat × Nat) := []
  kaAt : Nat := 0
  /-- Resetting: CSTS.RDY waits for every tag FREE (R194). -/
  resetting : Bool := false
  /-- Delete I/O SQ commands waiting: cid and queue. -/
  deletes : List (Nat × Nat) := []
  hostNqn : List Byte := []
  /-- Namespaces of the Changed Namespace List (log page 0x04). -/
  changed : List Nat := []
  deriving DecidableEq, Repr, Inhabited

/-- An Ethernet sub-port (Table 07-14). -/
structure SubPort where
  enabled : Bool := false
  linkUp : Bool := false
  speed : Nat := 0
  fec : Nat := 0
  pfc : Bool := false
  linkDowns : Nat := 0
  deriving DecidableEq, Repr, Inhabited

/-- A power-state change in progress (R201). -/
structure PowerEntry where
  target : Nat
  windowOpen : Bool := true
  lastSeq : Nat := 0
  /-- The requester: Set Features (cid) or a PLEM command that waits for its status (its uid), with that status's
  status, detail and result. -/
  cid : Option Nat := none
  plem : Option Nat := none
  post : Nat × Nat × Nat := (0, 0, 0)
  deriving DecidableEq, Repr

structure Hfe where
  tags : List Tag := []
  freeNext : Nat := 0
  /-- Freed tags in the order they were freed: tag, gen, time. -/
  freed : List (Nat × Nat × Nat) := []
  tagHwm : Nat := 0
  arrival : Nat := 0
  /-- The last arrival number that this head has assigned to each volume (R206). -/
  volArrival : List (Nat × Nat) := []
  /-- Fetched commands and capsules that wait for a tag, in order of arrival. -/
  waiting : List Waiting := []
  aborts : List AbortCmd := []
  ctrls : List Ctrl := [{ id := 0 }, { id := 1 }]
  nextCtrl : Nat := 2
  subs : List SubPort := List.replicate 32 {}
  pwrCur : Nat := 0
  pwrEntry : Option PowerEntry := none
  pwrQueue : List PowerEntry := []
  tagSel : Nat := 0
  abortWon : Nat := 0
  abortLost : Nat := 0
  abortNotFound : Nat := 0
  piErr : Nat := 0
  /-- Error Information log entries: NSID and first lost block (R372). -/
  errLog : List (Nat × Nat) := []
  /-- Frames received on Ethernet ports in Doze, dropped and counted (R75). -/
  dozeDrops : Nat := 0
  deriving DecidableEq, Repr

/-! ### Range locks -/

/-- Who holds a range-lock entry. -/
inductive Holder where
  | tag (idx : Nat)
  | plem (ring seq : Nat)
  deriving DecidableEq, Repr

/-- A range-lock entry (Table 08-1). -/
structure Lock where
  holder : Holder
  vol : Nat
  first : Nat
  last : Nat
  excl : Bool
  granted : Bool := false
  hit : Bool := false
  source : Nat := 0
  arrival : Nat
  since : Nat := 0
  /-- Its long wait has been counted, for a PLEM operation (R211). -/
  warned : Bool := false
  deriving DecidableEq, Repr

/-- The snapshot that RLK_ENTRY_STS takes (R223). -/
structure RlkSnap where
  vol : Nat := 0
  first : Nat := 0
  last : Nat := 0
  arrival : Nat := 0
  deriving DecidableEq, Repr

structure Rlk where
  locks : List Lock := []
  hwm : Nat := 0
  hits : Nat := 0
  stalls : Nat := 0
  waitMax : Nat := 0
  sel : Nat := 0
  snap : RlkSnap := {}
  deriving DecidableEq, Repr

/-! ### Remote memory access -/

/-- One SA direction pair (R234). -/
structure SaPair where
  handle : Nat
  cls : Nat := 0
  spiIn : Nat := 0
  spiOut : Nat := 0
  remote : List Byte := []
  keys : List Byte := []
  ipv6 : Bool := false
  installed : Nat := 0
  outNum : Nat := 0
  inHigh : Nat := 0
  /-- Numbers in the window that have been accepted. -/
  inSeen : List Nat := []
  rekeyWarned : Bool := false
  deriving DecidableEq, Repr, Inhabited

/-- A message tracker (R241). -/
structure Tracker where
  msn : Nat
  seen : List Nat := []
  final : Option Nat := none
  target : Nat := 0
  deriving DecidableEq, Repr, Inhabited

/-- A request the device counted against a region (R248). -/
structure Inflight where
  conn : Nat
  psn : Nat
  region : Option Nat
  deriving DecidableEq, Repr

/-- An RDMA WRITE of several packets under way: the address and bytes still to come, its region. -/
structure WriteRun where
  addr : Nat
  left : Nat
  region : Option Nat := none
  deriving DecidableEq, Repr

/-- A connection. States: 1 connecting, 2 ready, 3 draining, 4 error. -/
structure Conn where
  num : Nat
  cls : Nat := 0
  state : Nat := 1
  /-- 0 none, 1 native, 2 legacy. -/
  prot : Nat := 0
  onDie : Bool := true
  lastUse : Nat := 0
  pinned : Bool := false
  /-- The device asked for the connection (R251). -/
  ours : Bool := false
  sub : Nat := 0
  mtu : Nat := 4096
  /-- Its paths: sub-port, remote address, UDP source port (R239). -/
  paths : List (Nat × List Byte × Nat) := []
  nextPath : Nat := 0
  sa : Option SaPair := none
  oldSa : Option SaPair := none
  oldSaAt : Option Nat := none
  rekeyDue : Bool := false
  trackers : List Tracker := []
  nextMsn : Nat := 0
  expPsn : Nat := 0
  /-- PSNs received beyond the expected one (multipath, R242). -/
  rcvd : List Nat := []
  sendPsn : Nat := 0
  /-- Packets sent and not acknowledged, oldest first: PSN, kind, bytes. -/
  sent : List (Nat × Nat × List Byte) := []
  oldestAt : Nat := 0
  retries : Nat := 0
  creditsOut : Nat := 0
  creditsIn : Nat := 0
  /-- Messages that the last credits received still allow (R244), and the requests that wait for one. -/
  creditsLeft : Nat := 0
  txQ : List (Nat × List Byte) := []
  /-- Receive buffers free (R243). -/
  recvFree : Nat := 0
  /-- Buffers the device has advertised on a native connection: key, Hamper address, length (Table 09-2). -/
  bufs : List (Nat × Nat × Nat) := []
  write : Option WriteRun := none
  missQ : List (Nat × RocePkt) := []
  /-- A timer waits for the context to be on-die (R229). -/
  timerDue : Bool := false
  cnps : Nat := 0
  /-- The time of the last CNP sent on it (R224). -/
  cnpAt : Option Nat := none
  /-- The MSN of the next message sent (R240). -/
  sendMsn : Nat := 0
  atomicVal : Nat := 0
  remoteId : List Byte := []
  /-- NVMe/TCP header and data digests (R181). -/
  hdgst : Bool := false
  ddgst : Bool := false
  /-- Messages begun and not ended, with their region (R248 to R250). -/
  msgs : List Inflight := []
  /-- A teardown runs (R250). -/
  draining : Bool := false
  ctrlId : Option Nat := none
  /-- The queue of that controller which it serves (R181). -/
  qid : Nat := 0
  deriving DecidableEq, Repr, Inhabited

/-- A region table entry (Table 09-6). States: 0 FREE, 1 VALID, 2 REVOKING. -/
structure Region where
  idx : Nat
  base : Nat := 0
  len : Nat := 0
  tag : Nat := 0
  state : Nat := 0
  rights : Nat := 0
  conn : Nat := 0
  inFlight : Nat := 0
  deriving DecidableEq, Repr, Inhabited

/-- Replication of a volume (R251). -/
structure Repl where
  vol : Nat
  mode : Nat := 0
  onLoss : Nat := 0
  conn : Nat := 0
  interval : Nat := 0
  remoteVol : Nat := 0
  /-- 0 idle, 1 cycling, 2 in sync, 3 out of sync, 4 resynchronising. -/
  state : Nat := 0
  outOfSync : Bool := false
  lastAck : Option Nat := none
  lastAckAt : Nat := 0
  pendingBytes : Nat := 0
  lastSnap : Nat := 0
  curSnap : Nat := 0
  nextDue : Nat := 0
  refusing : Bool := false
  deriving DecidableEq, Repr, Inhabited

/-- The snapshot that RMA_CONN_STS takes (R256). -/
structure RmaSnap where
  esnOut : Nat := 0
  esnIn : Nat := 0
  credit : Nat := 0
  deriving DecidableEq, Repr

structure Rma where
  conns : List Conn := []
  pendingSa : List SaPair := []
  nextHandle : Nat := 1
  regions : List Region := []
  /-- Numbers that decided REPL_PAIR commands will take, with their class. -/
  reserved : List (Nat × Nat) := []
  /-- The key of this boot that wraps SA keys in home slots; it never leaves the ESP lanes (R228). -/
  wrapKey : List Byte := []
  repls : List Repl := []
  missDrop : Nat := 0
  replayDrop : Nat := 0
  icvFail : Nat := 0
  trkDrop : Nat := 0
  connSel : Nat := 0
  snap : RmaSnap := {}
  revoking : Option Nat := none
  revokeAt : Nat := 0
  revokeWarn : Bool := false
  deriving DecidableEq, Repr

/-! ### Reduction -/

/-- A deduplication domain (R260). -/
structure Domain where
  num : Nat
  format : Nat := 0
  cur : Nat := 0
  prev : Option Nat := none
  salt : List Byte := []
  keyGen : Nat := 0
  writeProtected : Bool := false
  keyless : Bool := false
  counterA : Nat := 1
  counterB : Nat := 1
  deriving DecidableEq, Repr, Inhabited

/-- A volume (R278). -/
structure Volume where
  num : Nat
  domain : Nat := 0
  format : Nat := 0
  pi : Nat := 0
  size : Nat := 0
  ownerB : Bool := false
  dedup : Bool := false
  compression : Nat := 0
  inaccessible : Bool := false
  hosts : Nat := 0
  nqns : List (List Byte) := []
  moving : Bool := false
  deriving DecidableEq, Repr, Inhabited

/-- A logical mapping of an object's chunk (R257). Kind: 0 mapped, 1 zero; deallocated chunks are not listed. -/
structure MapEntry where
  chunk : Nat
  kind : Nat := 0
  stored : Nat := 0
  dealloc : Nat := 0
  apps : List Nat := []
  refs : List Nat := []
  /-- The reference was made by deduplication (R266). -/
  dup : Bool := false
  deriving DecidableEq, Repr, Inhabited

/-- The map of a volume (`snap = false`) or of a snapshot. -/
structure ObjMap where
  snap : Bool := false
  num : Nat
  entries : List MapEntry := []
  deriving DecidableEq, Repr, Inhabited

/-- A snapshot (R283). -/
structure Snapshot where
  id : Nat
  vol : Nat
  arrival : Nat := 0
  size : Nat := 0
  created : Nat := 0
  replication : Bool := false
  deriving DecidableEq, Repr, Inhabited

/-- A stored chunk of the chunk map (R265, R277). -/
structure Stored where
  id : Nat
  domain : Nat := 0
  data : List Byte := []
  fp : List Byte := []
  guards : List Nat := []
  bundle : Nat := 0
  pos : Nat := 0
  /-- References taken for the peer that no delta of the peer has yet named (R267). -/
  taken : Nat := 0
  committed : Bool := false
  lost : Bool := false
  deriving DecidableEq, Repr, Inhabited

/-- A stored bundle (R269 to R275). -/
structure Bundle where
  id : Nat
  domain : Nat := 0
  chunks : List Nat := []
  form : Nat := 0
  units : Nat := 1
  keyGen : Nat := 0
  sideB : Bool := false
  /-- Segment and position that hold its extent; none while only in Coil. -/
  place : Option (Nat × Nat) := none
  destroyed : Bool := false
  /-- Its extent as stored: ciphertext (R274). -/
  extent : List Byte := []
  deriving DecidableEq, Repr, Inhabited

/-- Chunks gathered and not yet bundled: stored-chunk numbers and the tag that wrote each (R269). -/
structure OpenBundle where
  domain : Nat
  compression : Nat
  chunks : List (Nat × Nat) := []
  oldest : Nat := 0
  deriving DecidableEq, Repr

structure Red where
  /-- Bundles being gathered, one for each domain and compression policy (R269). -/
  open_ : List OpenBundle := []
  /-- Fingerprints of the hot index, as stored-chunk numbers, oldest first. -/
  hot : List Nat := []
  /-- Cold lookups in flight: tag, chunk, and the chunk's new content. -/
  coldInFlight : List (Nat × Nat × List Byte) := []
  chunks : Nat := 0
  dupHot : Nat := 0
  dupCold : Nat := 0
  zero : Nat := 0
  collide : Nat := 0
  coldSkip : Nat := 0
  verifyFail : Nat := 0
  formStored : Nat := 0
  formLz4 : Nat := 0
  formZstd : Nat := 0
  sliceOut : Nat := 0
  hotFull : Bool := false
  coldLimitedAt : Option Nat := none
  deriving DecidableEq, Repr

/-! ### Cipher engine -/

/-- A key slot (R290). -/
structure Slot where
  num : Nat
  usage : Nat := 0
  attrs : Nat := 0
  salt : Nat := 0
  key : List Byte := []
  kcv : List Byte := []
  count : Nat := 0
  warned : Bool := false
  domain : Nat := 0
  deriving DecidableEq, Repr, Inhabited

structure Cip where
  slots : List Slot := []
  drwk : List Byte := []
  awk : Option (List Byte) := none
  entropyOk : Bool := true
  generates : Nat := 0
  tagFail : Nat := 0
  exhausted : Nat := 0
  slotSel : Nat := 0
  countSnap : Nat := 0
  deriving DecidableEq, Repr

/-! ### Coil -/

/-- A journal header (Table 12-9). -/
structure JHeader where
  gen : Nat := 0
  format : Nat := 0
  headJseq : Nat := 1
  headLine : Nat := 2
  tookOver : Bool := false
  takeoverJseq : Nat := 0
  boot : Nat := 0
  deriving DecidableEq, Repr

/-- A record accepted and not wholly persisted: of region 3, or of region 2 (R313). -/
structure Accept where
  mirror : Bool
  jseq : Nat
  lines : Nat
  deriving DecidableEq, Repr, Inhabited

/-- A PLEM command that ends when its operation commits in Coil: the delta body, the command, its status packet and the
output it writes first. -/
structure PlemEnd where
  body : CoilBody
  cmd : Cmd
  pkt : StatusPkt
  addr : Nat := 0
  output : List Byte := []
  deriving DecidableEq, Repr

structure Col where
  accepting : Bool := true
  /-- The two halves of this boot's Coil key, 64 bytes (R327). -/
  key : List Byte := []
  xtsOk : Bool := false
  /-- Replay step of COL_STS. -/
  replayStep : Nat := 0
  takenOver : Bool := false
  mirrorOn : Bool := false
  singleCopy : Bool := false
  latched : Bool := false
  refusing : Bool := false
  /-- Code 0x090 has been counted for the present loss (R319). -/
  counted : Bool := false
  fullWait : Bool := false
  fullWaits : Nat := 0
  viol : Viol := {}
  peerAck : Nat := 0
  /-- Last record sent to the peer, and since when an acknowledgement is outstanding. -/
  sent : Nat := 0
  ackSince : Option Nat := none
  /-- The tail to which the mirror catches up after pairing (R320). -/
  catchUp : Option Nat := none
  waiting : List CoilBody := []
  /-- Commit records up to this jseq have taken effect (R318). -/
  commitPoint : Nat := 0
  ends : List PlemEnd := []
  headerAt : Nat := 0
  headMoved : Nat := 0
  deriving DecidableEq, Repr

/-! ### Layout, rebuild, media -/

/-- A Slath generation (R337). -/
structure Gen where
  num : Nat
  d : Nat
  p : Nat
  s : Nat
  r : Nat
  members : Nat
  deriving DecidableEq, Repr, Inhabited

/-- A band (R385). States: 0 free, 1 open, 2 sealed, 3 ERASE_PENDING, 4 erased, 5 retired (Table 12-8); 6 while its open
record is not yet durable. -/
structure Band where
  num : Nat
  sideB : Bool := false
  gen : Nat := 0
  row : Nat := 0
  state : Nat := 1
  slc : Bool := false
  batch : Nat := 0
  relocate : Bool := false
  /-- Member ports that hold a block marked retiring. -/
  retiring : List Nat := []
  erasedPorts : List Nat := []
  noNew : Bool := false
  /-- Its erase block on each member: port and block (R385). -/
  blocks : List (Nat × Nat) := []
  discard : Bool := false
  deriving DecidableEq, Repr, Inhabited

/-- A position of a segment: 0 unfilled, 1 issued, 2 programmed, 3 void, 4 unreadable. Bundles are named by domain ×
2^48 + identifier. A position rebuilt into spare space names the port that holds it, plus one. -/
structure Pos where
  idx : Nat
  state : Nat := 0
  bundles : List Nat := []
  spare : Nat := 0
  /-- The strip's bytes up to its last extent, as this head issues them; none for a strip of the other head (log 42). -/
  data : Option (List Byte) := none
  deriving DecidableEq, Repr, Inhabited

/-- A segment (R333). States: 0 open, 1 seal issued, 2 sealed, 3 void, 4 lost. -/
structure Segment where
  num : Nat
  state : Nat := 0
  slot : Nat := 0
  buffer : Nat := 0
  /-- The seal is early (R345). -/
  sealing : Bool := false
  positions : List Pos := []
  parityDone : Nat := 0
  lastAdd : Nat := 0
  early : Bool := false
  sideB : Bool := false
  deriving DecidableEq, Repr, Inhabited

/-- A pack as the array knows it. Conditions: 0 present, 1 absent, 2 temporarily absent, 3 failed, 4 retired,
5 admitted but not a member, 6 not admitted. -/
structure Pack where
  port : Nat
  identity : Nat := 0
  geom : Geom := {}
  cond : Nat := 6
  retiring : Bool := false
  absentSince : Nat := 0
  declaredCause : Nat := 0
  pagesRead : Nat := 0
  uncorrectable : Nat := 0
  progFail : Nat := 0
  eraseFail : Nat := 0
  hist : List Nat := List.replicate 16 0
  tempMin : Option Int := none
  tempMax : Option Int := none
  tempHist : List Nat := List.replicate 16 0
  wearWarned : Bool := false
  reserveOut : Bool := false
  /-- Erase cycles per block: block and cycles (R398). -/
  cycles : List (Nat × Nat) := []
  /-- Blocks retired (R397). -/
  retired : List Nat := []
  /-- Blocks with a failure or uncorrectable read in this cycle, and blocks relocated for corrected bits in the cycle
  before (R397). -/
  bad : List Nat := []
  relocBefore : List Nat := []
  relocNow : List Nat := []
  /-- Blocks of the checkpoint area replaced by standby blocks, in the order in which they were: block and replacement (R384). -/
  ckptMap : List (Nat × Nat) := []
  /-- Its rebuild has ended: entry 0xFF13 with phase 1 is appended (R360). -/
  rebuildEnded : Bool := false
  deriving DecidableEq, Repr, Inhabited

/-- A stripe entry of the lost-stripe list (Table 14-2). -/
structure LostStripe where
  seg : Nat
  mask : Nat
  gen : Nat
  d : Nat
  p : Nat
  mono : Nat
  boot : Nat
  deriving DecidableEq, Repr, Inhabited

/-- A range entry of the lost-stripe list (Table 14-2). -/
structure LostRange where
  obj : Nat
  snap : Bool
  first : Nat
  blocks : Nat
  seg : Nat
  deriving DecidableEq, Repr, Inhabited

/-- The checkpoint being written, or written last in this boot (R376): its number, the attempt, its ports, the ports whose copy is
durable, and the jseq that it covers. -/
structure Ckpt where
  num : Nat := 0
  attempt : Nat := 0
  ports : List Nat := []
  done : List Nat := []
  jseq : Nat := 0
  deriving DecidableEq, Repr

structure Lay where
  ckpt : Ckpt := {}
  resumed : Bool := false
  stripsAdded : Nat := 0
  seals : Nat := 0
  earlySeals : Nat := 0
  voidStrips : Nat := 0
  voidSegs : Nat := 0
  verifyFail : Nat := 0
  rowSel : Nat := 0
  rowNew : Bool := false
  declaredWait : List (Nat × Nat) := []
  paused : Bool := false
  queue : List Nat := []
  spareOut : Bool := false
  listFull : Bool := false
  rescan : Bool := false
  rbDone : Nat := 0
  unread : Nat := 0
  rebuilt : List (Nat × Nat × Nat) := []
  lostThisOp : Bool := false
  oneHead : List Nat := []
  bytesRebuilt : Nat := 0
  deriving DecidableEq, Repr

/-- A garbage-collection batch (Table 15-3): the step done last. -/
structure Batch where
  num : Nat
  victims : List Nat
  step : Nat := 0
  moves : List (Nat × Nat × Nat) := []
  recopy : Bool := false
  deriving DecidableEq, Repr

/-- A secure discard in progress (R402). -/
structure Discard where
  vol : Nat
  first : Nat
  blocks : Nat
  targets : Nat := 0
  kept : Nat := 0
  bundlesKept : Nat := 0
  destroyed : Nat := 0
  bandsErased : Nat := 0
  relocated : Nat := 0
  unreachable : Nat := 0
  zeroed : Nat := 0
  addr : Nat := 0
  deriving DecidableEq, Repr

structure Med where
  batch : Option Batch := none
  gcBatches : Nat := 0
  gcRecopy : Nat := 0
  bandsFreed : Nat := 0
  retired : Nat := 0
  reloc : Nat := 0
  disturb : Nat := 0
  patrolPos : Nat := 0
  patrolBegin : Nat := 0
  patrolLate : Bool := false
  /-- Strips of members that were absent when the pass came to them: they are read when the member returns (R399). -/
  patrolOwed : List (Nat × Nat) := []
  patrolPasses : Nat := 0
  capExceeded : Nat := 0
  reserveEpisode : Bool := false
  wearSpread : Bool := false
  hamWarn : Bool := false
  /-- Page reads per block: port, block, reads (R400). -/
  reads : List (Nat × Nat × Nat) := []
  discard : Option Discard := none
  deriving DecidableEq, Repr

/-! ### Stake Link -/

/-- An outstanding request on a port. -/
structure Req where
  tag : Nat
  cmd : Nat
  epoch : Nat := 0
  held : Bool := false
  reissued : Bool := false
  /-- Segment and position for media requests, or other arguments. -/
  seg : Nat := 0
  pos : Nat := 0
  block : Nat := 0
  /-- Why the read was made: 0 host, 1 rebuild, 2 patrol, 3 garbage collection, 4 takeover, 5 relay, 6 disturb. -/
  why : Nat := 0
  aux : Nat := 0
  deriving DecidableEq, Repr, Inhabited

/-- A transaction frame kept for replay. -/
structure TxFrame where
  seq : Nat
  bytes : Nat
  resends : Nat := 0
  deriving DecidableEq, Repr

/-- A transaction frame that waits for replay space or credits: its channel, its payload length and, on the first frame
of a message, the message. -/
structure TxWait where
  vc : Nat
  len : Nat
  out : Option Out := none
  /-- Bytes 0 to 27 of its header, with no sequence number yet, and its payload (Table 16-1). -/
  head : List Byte := []
  body : List Byte := []
  deriving DecidableEq, Repr, Inhabited

/-- One end of a Stake or peer link's data-link layer (R414 to R418). -/
structure Link where
  waiting : List TxWait := []
  txSeq : Nat := 0
  replay : List TxFrame := []
  oldestAt : Nat := 0
  rxSeq : Nat := 0
  nakOut : Bool := false
  /-- Grants received and consumed per VC: VC, frame grants, unit grants, frames used, units used. -/
  credits : List (Nat × Nat × Nat × Nat × Nat) := []
  /-- Frames and units the device granted and the partner consumed, per VC. -/
  granted : List (Nat × Nat × Nat × Nat × Nat) := []
  lastTx : Nat := 0
  lastRx : Nat := 0
  recoveries : List Nat := []
  deriving DecidableEq, Repr, Inhabited

/-- A Stake port (Table 16-9). Link: 0 idle, 1 ignored before its wave, 2 training, 3 L0, 4 Recovery, 5 down. -/
structure Port where
  num : Nat
  link : Nat := 0
  absent : Bool := false
  fenced : Bool := false
  otherClosed : Bool := false
  sideErr : Bool := false
  protoErr : Bool := false
  /-- The pack reports a major protocol version other than 1 (R433). -/
  verErr : Bool := false
  geomErr : Bool := false
  wave : Nat := 0
  linkDowns : Nat := 0
  dl : Link := {}
  reqs : List Req := []
  /-- Requests that wait for a tag (R419). -/
  queued : List Req := []
  crc : Nat := 0
  replays : Nat := 0
  recovers : Nat := 0
  timeouts : Nat := 0
  maxTag : Nat := 0
  epoch : Nat := 0
  identity : Nat := 0
  /-- Steps of R434 done: 0 none, 1 IDENT, 2 GEOM, 3 FW_MEASURE, 4 HEALTH. -/
  startStep : Nat := 0
  geom : Geom := {}
  fenceOk : Bool := false
  everTrained : Bool := false
  retry : Bool := false
  deriving DecidableEq, Repr, Inhabited

structure Stk where
  ports : List Port := (List.range 64).map fun n => { num := n }
  deriving DecidableEq, Repr

/-! ### Peer and Handle -/

/-- A command sent to the peer that waits for its response (R438). -/
structure PeerReq where
  tag : Nat
  code : Nat
  /-- PLEM or CARRY: the command held for the status. -/
  cmd : Option Cmd := none
  ioTag : Nat := 0
  stored : Nat := 0
  chunk : Nat := 0
  data : List Byte := []
  /-- REF_TAKE: the candidate came from the cold index. -/
  cold : Bool := false
  deriving DecidableEq, Repr

structure Hdl where
  takeReq : Bool := false
  holder : Bool := false
  holdOut : Bool := false
  beatOut : Bool := false
  beatInAt : Option Nat := none
  fenceDone : Bool := false
  /-- FENCE_PORT, op 0, has been sent and fence_done is awaited (R453). -/
  fencing : Bool := false
  tieLost : Bool := false
  tieUntil : Option Nat := none
  paired : Bool := false
  severed : Bool := false
  silent : Bool := false
  /-- The peer counts silent since it let go of the Handle with no HANDOFF (R521). -/
  released : Bool := false
  bridge : Bool := false
  readbackErr : Bool := false
  peerStuck : Bool := false
  epoch : Nat := 0
  pairReason : Nat := 0
  /-- The protocol version of the peer's last HELLO. -/
  peerMajor : Nat := 0
  peerMinor : Nat := 0
  /-- The HELLO that passed the checks of Table 17-4. -/
  peerHello : Option Hello := none
  confirmSent : Bool := false
  mismatches : Nat := 0
  mismatchRun : Nat := 0
  mismatchFlag : Bool := false
  takeovers : Nat := 0
  lanes : Nat := 0
  linkUp : Bool := false
  training : Bool := false
  /-- The link came up before the Alias key was there: HELLO is still to be sent (R129, R441). -/
  helloDue : Bool := false
  linkCrc : Nat := 0
  linkReplay : Nat := 0
  fwdCmds : Nat := 0
  healthAbsent : Bool := false
  peerHealth : Option Health := none
  healthSeq : Nat := 0
  selfTestFails : Nat := 0
  digest : List Byte := []
  /-- The asn at which the digest was computed. -/
  digestAsn : Nat := 0
  framesSent : Nat := 0
  keyPhase : Bool := false
  keyGen : Nat := 0
  reqs : List PeerReq := []
  nextTag : Nat := 0
  /-- A take under R453 runs, up to the end of the replay of the peer's copy. -/
  takingOver : Bool := false
  /-- The epoch before a take or a transfer. -/
  oldEpoch : Nat := 0
  /-- A HANDLE_TRANSFER in progress on the holder (R455). -/
  transfer : Option Cmd := none
  /-- HANDOFF has been confirmed by this standby. -/
  transferIn : Bool := false
  deriving DecidableEq, Repr

/-! ### Data Mover and Map Cache -/

/-- A running descriptor of a lane. -/
structure Running where
  op : Nat
  desc : DmvDesc
  srcs : List SgEntry := []
  total : Nat := 0
  moved : Nat := 0
  /-- Its number; of a FLUSH, every write of a lower number in its region must arrive (R478). -/
  id : Nat := 0
  deriving DecidableEq, Repr

/-- A burst's write that has left its lane and not arrived (R476). -/
structure DmvWrite where
  id : Nat
  /-- Space: 0 Hamper, 1 Coil, 2 head-processor memory. -/
  space : Nat
  addr : Nat
  bytes : List Byte
  /-- Its number in the order of leaving. -/
  seq : Nat
  region : Option Nat := none
  /-- Of a descriptor's first burst: its whole length where it exceeds 4 KiB (R487). -/
  whole : Nat := 0
  deriving DecidableEq, Repr

/-- A notice that waits until every write of its descriptor has arrived (R479). -/
structure DmvNotice where
  id : Nat
  tag : Nat
  moved : Nat
  ring : Nat
  status : Nat := 0
  deriving DecidableEq, Repr

/-- A Data Mover lane (Table 18-9), with the service rings of lanes 14 and 15. -/
structure Lane where
  num : Nat
  run : Option Running := none
  paceWait : Option Nat := none
  fenceWait : Bool := false
  stopped : Bool := false
  done : Nat := 0
  writes : List DmvWrite := []
  notices : List DmvNotice := []
  sqBase : Nat := 0
  cqBase : Nat := 0
  enable : Bool := false
  sizeLog2 : Nat := 0
  sqHead : Nat := 0
  sqTail : Nat := 0
  cqTail : Nat := 0
  cqHead : Nat := 0
  phase : Bool := true
  /-- Completion records held by a full ring: tag, bytes moved, status, detail (R480). -/
  held : List (Nat × Nat × Nat × Nat) := []
  deriving DecidableEq, Repr, Inhabited

structure Dmv where
  lanes : List Lane := (List.range 16).map fun n => { num := n }
  paceTimeout : Nat := 0
  refused : Nat := 0
  /-- Lane last served at each priority level. -/
  lastServed : List Nat := [15, 15, 15, 15]
  nextId : Nat := 0
  deriving DecidableEq, Repr

/-- A Map Cache line. -/
structure Line where
  addr : Nat
  way : Nat
  data : List Byte := []
  used : Nat := 0
  deriving DecidableEq, Repr

/-- A line fill outstanding (R482): the addresses that wait for it, whether it may be allocated, the way of a preload. -/
structure Fill where
  addr : Nat
  data : List Byte := []
  wants : List Nat := []
  alloc : Bool := true
  way : Option Nat := none
  deriving DecidableEq, Repr

/-- A Map Lookaside entry (Table 18-5). -/
structure MlaEntry where
  kind : Nat
  object : Nat
  page : Nat
  frame : Nat
  pinned : Bool := false
  used : Nat := 0
  deriving DecidableEq, Repr

structure Mch where
  lines : List Line := []
  fills : List Fill := []
  /-- Write-through buffer: address and bytes, oldest first. -/
  wt : List (Nat × List Byte) := []
  /-- Destination ranges of Data Mover writes whose last burst has not been accepted: descriptor, address, length (R487). -/
  ranges : List (Nat × Nat × Nat) := []
  lock : Nat := 0
  lockLost : Nat := 0
  hits : Nat := 0
  misses : Nat := 0
  hwInv : Nat := 0
  noAlloc : Nat := 0
  skip : Nat := 0
  preloadAddr : Nat := 0
  preloadCtrl : Nat := 0
  lockErr : Bool := false
  mlaPinned : Bool := false
  mla : List MlaEntry := []
  mlaMiss : Nat := 0
  /-- Lookups that wait for their entry: kind, object, page. -/
  mlaWaiting : List (Nat × Nat × Nat) := []
  clock : Nat := 0
  deriving DecidableEq, Repr

/-! ### Weaver -/

/-- A test signal on a loop (R506). -/
structure Inject where
  point : Nat
  wave : Nat
  amp : Int
  dur : Nat
  period : Nat
  f0 : Nat := 0
  f1 : Nat := 0
  n : Nat := 0
  lfsr : Nat := 2047
  /-- The command that ends at the first sample: its uid, status and detail. -/
  cmd : Option (Nat × Nat × Nat) := none
  deriving DecidableEq, Repr

/-- A Weaver loop (Tables 19-4, 19-5, 19-8). Q1.15 and Q9.31 values are integers. -/
structure Loop where
  num : Nat
  state : Nat := 0
  sensor : Nat := 0
  sInst : Nat := 0
  act : Nat := 0
  aInst : Nat := 0
  rate : Nat := 2
  feeds : Option Nat := none
  k : Nat := 2
  r : Int := 0
  kp : Int := 0
  ki : Int := 0
  kd : Int := 0
  a : Int := 0
  kff : Int := 0
  ffSensor : Nat := 0
  ffInst : Nat := 0
  umin : Int := 0
  umax : Int := 32767
  manual : Int := 0
  shift : Nat := 0
  i : Int := 0
  v : Int := 0
  y : Int := 0
  yPrev : Int := 0
  u : Int := 0
  /-- The output without the injection (R506). -/
  held : Int := 0
  rEff : Int := 0
  stale : Bool := false
  clampHi : Bool := false
  clampLo : Bool := false
  windup : Bool := false
  guardLim : Bool := false
  floorAp : Bool := false
  overruled : Bool := false
  inj : Option Inject := none
  count : Nat := 0
  bumpless : Bool := true
  eLast : Int := 0
  pLast : Int := 0
  dLast : Int := 0
  ffLast : Int := 0
  injLast : Int := 0
  applied : Int := 0
  deriving DecidableEq, Repr, Inhabited

/-- A signal capture (R507). State: 0 cancelled, 1 armed, 2 running, 3 done. -/
structure Capture where
  state : Nat := 1
  trigger : Nat
  clock : Nat
  /-- Decimation. -/
  d : Nat
  count : Nat
  sel : List Nat
  level : Int
  skip : Nat := 0
  tick0 : Nat := 0
  samples : List (List Int) := []
  deriving DecidableEq, Repr

/-- A bound loop of Table 19-3. -/
def boundLoop (n : Nat) : Loop :=
  if n < 4 then { num := n, state := 2, sensor := 1, sInst := n, act := 1, aInst := n, rate := 1, r := 4800 }
  else if n = 4 then { num := 4, state := 2, sensor := 6, act := 2 }
  else if n = 5 then { num := 5, state := 2, sensor := 7, act := 3 }
  else if n = 6 then { num := 6, state := 2, sensor := 4, act := 4, r := 6400 }
  else if n = 7 then { num := 7, state := 2, sensor := 14, act := 5, rate := 1 }
  else if n = 8 then { num := 8, state := 2, sensor := 8, act := 5 }
  else if n = 9 then { num := 9, state := 2, sensor := 13, act := 6, rate := 0, r := 29491 }
  else { num := n }

/-- The loops at reset (R504): Table 19-3, with coefficients from the running WVM image. -/
def resetLoop (n : Nat) : Loop :=
  if n < 10 then
    let b := boundLoop n
    { b with kp := Config.wvmCoefficient n 4, ki := Config.wvmCoefficient n 5, kd := Config.wvmCoefficient n 6,
             a := Config.wvmCoefficient n 7, kff := Config.wvmCoefficient n 8,
             umin := Config.wvmCoefficient n 10, umax := Config.wvmCoefficient n 11 }
  else boundLoop n

structure Wvr where
  running : Bool := false
  loops : List Loop := (List.range 64).map boundLoop
  tick : Nat := 0
  /-- Latest samples: code, instance, value, time. -/
  samples : List (Nat × Nat × Int × Nat) := []
  /-- Applied actuator values: code, instance, value. -/
  acts : List (Nat × Nat × Int) := []
  capture : Option Capture := none
  guard : Bool := false
  staleCount : Nat := 0
  deriving DecidableEq, Repr

/-! ### Thermal and safety -/

/-- A temperature sensor (R509). -/
structure Sensor where
  valid : Bool := false
  failed : Bool := false
  reading : Int := 0
  differ : Nat := 0
  deriving DecidableEq, Repr, Inhabited

structure Thm where
  sensors : List Sensor := List.replicate 37 {}
  fast : Bool := false
  coolSince : Option Nat := none
  throttling : Bool := false
  coverageLost : Bool := false
  hotMax : Option (Int × Nat) := none
  fastEntries : Nat := 0
  throttleUs : Nat := 0
  throttleMs : Nat := 0
  deriving DecidableEq, Repr

structure Saf where
  failSilent : Bool := false
  halted : Bool := false
  mgmtHalted : Bool := false
  more : Bool := false
  monitorOk : Bool := false
  monitorTested : Bool := false
  hamScrub : Bool := false
  cfgScrub : Bool := false
  decisionAt : Nat := 0
  /-- Kick times of cores 0 to 36 (control, management, always-on). -/
  kicks : List Nat := List.replicate 37 0
  parked : Nat := 0
  cfgPasses : Nat := 0
  hamCorr : Nat := 0
  hamPassAt : Nat := 0
  tileOut : List Nat := []
  deriving DecidableEq, Repr

/-! ### Event recorder -/

/-- Counters of one code (R531). -/
structure Counter where
  code : Nat
  count : Nat := 0
  first : Nat := 0
  last : Nat := 0
  min : Nat := 0
  max : Nat := 0
  hist : List Nat := []
  suppressed : Nat := 0
  deriving DecidableEq, Repr, Inhabited

/-- An event-recorder record (Table 21-3). Kind 0 is a torn record. -/
structure EvrRec where
  kind : Nat
  code : Nat := 0
  epoch : Nat := 0
  boot : Nat := 0
  mono : Nat := 0
  gen : Nat := 0
  lossy : Bool := false
  body : List Nat := []
  deriving DecidableEq, Repr, Inhabited

structure Evr where
  live : List Counter := []
  epoch : List Counter := []
  epochNum : Nat := 0
  epochStart : Nat := 0
  lenS : Nat := 60
  /-- Notices in the region 15 ring that are not yet taken: code, value, time (R530). -/
  staged : List (Nat × Nat × Nat) := []
  recording : Bool := false
  coilWait : Bool := true
  lossy : Bool := false
  clearing : Bool := false
  full : Bool := false
  overflow : Nat := 0
  stageDrop : Nat := 0
  extSuppr : Nat := 0
  codeSel : Nat := 0
  /-- Records made while Coil is not ready, in Doze or during a clear. -/
  heldRecs : List EvrRec := []
  /-- Extreme records written in the current second: code, second, number. -/
  extWritten : List (Nat × Nat × Nat) := []
  deriving DecidableEq, Repr

/-- _HI halves captured by a read of their _LO (R541): offset of the _HI register and the value. -/
structure Regs where
  hi : List (Nat × Word) := []
  deriving DecidableEq, Repr

/-! ### What survives every reset -/

/-- Coil regions 0 to 3 and 5, fuses, boot flash, and the array's flash-resident metadata. -/
structure Nv where
  fuses : Fuses := {}
  flash : Flash := {}
  /-- Border region. -/
  bootCounter : Nat := 0
  records : List BootRecord := []
  pendingRec : Option BootRecord := none
  recDrained : Nat := 0
  chain : List AuditEntry := []
  drain : Nat := 0
  /-- Entries of kinds 0x03 and 0x04 that wait for space, with the status packet a kind 0x04 entry hashes (R137). -/
  waitingEntries : List (AuditEntry × Option StatusPkt) := []
  /-- Event-recorder region. -/
  evrRecs : List EvrRec := []
  evrGen : Nat := 0
  /-- Region 2: the stream, the records accepted and the point persisted. -/
  journal : List CoilRec := []
  nextJseq : Nat := 1
  persisted : Nat := 0
  tailLine : Nat := 2
  /-- Records accepted and not wholly persisted, in the order accepted (R313). -/
  accept : List Accept := []
  torn : Bool := false
  header2 : JHeader := {}
  /-- Region 3: the peer's stream. -/
  mirror : List CoilRec := []
  mirrorPersisted : Nat := 0
  header3 : JHeader := {}
  /-- Lines of regions 2 and 3 as they stand on the die, encrypted: line address and 64 bytes, rising (R327). -/
  cells : List (Nat × List Byte) := []
  /-- Key usage table: kcv, side B, bound, destroyed (R294). -/
  usage : List (List Byte × Bool × Nat × Bool) := []
  coilLife : Nat := 0
  /-- Format in force (R170). -/
  format : Nat := 0
  lastRaise : Option Nat := none
  /-- The format that the superblocks and the layout roots carry (R170). -/
  superFormat : Nat := 0
  rootFormat : Nat := 0
  /-- The bulk metadata pages on flash, with the format that each carries: kind (0 logical map, 1 chunk map), object, page (R172). -/
  pages : List ((Nat × Nat × Nat) × Nat) := []
  /-- Layout roots and flash metadata. -/
  domains : List Domain := []
  volumes : List Volume := []
  snaps : List Snapshot := []
  nextSnap : Nat := 1
  /-- The logical maps, with every commit record up to `applied` applied (R286, R324). -/
  maps : List ObjMap := []
  applied : Nat := 0
  stored : List Stored := []
  nextStored : Nat := 0
  bundles : List Bundle := []
  genCur : Option Gen := none
  genNew : Option Gen := none
  change : Nat := 0
  bandsStart : Nat := 0
  bytesMoved : Nat := 0
  reverseWhy : Nat := 0
  nextGen : Nat := 1
  bands : List Band := []
  segs : List Segment := []
  packs : List Pack := []
  failedIds : List Nat := []
  lostStripes : List LostStripe := []
  ckptSeq : Nat := 0
  ckptPorts : List Nat := []
  /-- The Coil records up to this jseq are applied in that checkpoint (Table 14-4). -/
  ckptJseq : Nat := 0
  nextBatch : Nat := 1
  patrolSaved : Nat := 0
  peerDevId : Option (List Byte) := none
  epoch : Nat := 0
  /-- The authority decisions with their sequence numbers (R450). -/
  decisions : List (Nat × AuthDecision) := []
  owedErases : List (Nat × Nat) := []
  deriving DecidableEq, Repr

/-- The whole device. -/
structure State where
  pending : List Instr := []
  out : List Out := []
  /-- Monotonic time in ns (R145). -/
  now : Nat := 0
  /-- Free values drawn so far (the model's own field, log 1). -/
  free : Nat := 0
  pins : Pins := {}
  aon : Aon := {}
  boot : Boot := {}
  pwr : Pwr := {}
  ham : Ham := {}
  plem : Plem := {}
  brd : Brd := {}
  fw : Fw := {}
  hfe : Hfe := {}
  rlk : Rlk := {}
  rma : Rma := {}
  red : Red := {}
  cip : Cip := {}
  col : Col := {}
  lay : Lay := {}
  med : Med := {}
  stk : Stk := {}
  hdl : Hdl := {}
  dmv : Dmv := {}
  mch : Mch := {}
  wvr : Wvr := {}
  thm : Thm := {}
  saf : Saf := {}
  evr : Evr := {}
  regs : Regs := {}
  nv : Nv := {}
  deriving DecidableEq, Repr

/-- The machine right after a power-on reset: every register at its reset value, no command waiting. -/
def State.reset : State := { wvr := { loops := (List.range 64).map resetLoop } }

/-- What a step answers. -/
abbrev Result := Host.Outcome State Fault Refusal

end Sys2Proof.Machine
end

