-- ==== Sys2Proof/Machine/Codes.lean ====
section
/-! DEFINITION. The PLEM status codes (Table 04-14), opcodes and their attributes (Table 04-12). -/

namespace Sys2Proof.Machine

/-- OK.DONE: Completed (Table 04-14). -/
abbrev stOkDone : Nat := 0x0000
/-- OK.WARN: Completed; a threshold was crossed (Table 04-14). -/
abbrev stOkWarn : Nat := 0x0001
/-- OK.NOCHANGE: Completed; the state was already as asked (Table 04-14). -/
abbrev stOkNochange : Nat := 0x0002
/-- FMT.OPCODE: Unknown or reserved opcode (Table 04-14). -/
abbrev stFmtOpcode : Nat := 0x1001
/-- FMT.VERSION: Header version not 0x01 (Table 04-14). -/
abbrev stFmtVersion : Nat := 0x1002
/-- FMT.RSVD: Reserved field not zero (Table 04-14). -/
abbrev stFmtRsvd : Nat := 0x1003
/-- FMT.FLAGS: Flag not permitted for the opcode (Table 04-14). -/
abbrev stFmtFlags : Nat := 0x1004
/-- FMT.PARAM: Field value outside its set (Table 04-14). -/
abbrev stFmtParam : Nat := 0x1005
/-- FMT.PID: PID not defined (Table 04-14). -/
abbrev stFmtPid : Nat := 0x1006
/-- FMT.ALIGN: Address not aligned (Table 04-14). -/
abbrev stFmtAlign : Nat := 0x1007
/-- LEN.OVER: Length or count beyond its bound or buffer (Table 04-14). -/
abbrev stLenOver : Nat := 0x2001
/-- LEN.SHORT: Output buffer too small; result gives the length needed (Table 04-14). -/
abbrev stLenShort : Nat := 0x2002
/-- LEN.UNDER: Input shorter than the opcode's fixed part, or below a stated minimum (Table 04-14). -/
abbrev stLenUnder : Nat := 0x2003
/-- LEN.SHAPE: Length not a required multiple, or a counter would wrap (Table 04-14). -/
abbrev stLenShape : Nat := 0x2004
/-- ORD.NOTREADY: Start-up conditions unmet (Table 04-14). -/
abbrev stOrdNotready : Nat := 0x3001
/-- ORD.LOCKED: Target read-only or sealed (Table 04-14). -/
abbrev stOrdLocked : Nat := 0x3002
/-- ORD.STATE: Opcode not accepted in this state (Table 04-14). -/
abbrev stOrdState : Nat := 0x3003
/-- ORD.SEQ: Sequence not the expected one (Table 04-14). -/
abbrev stOrdSeq : Nat := 0x3004
/-- ORD.BUSY: Long operation of the same kind running (Table 04-14). -/
abbrev stOrdBusy : Nat := 0x3005
/-- ORD.CLOSED: Weaver loop is CLOSED (Table 04-14). -/
abbrev stOrdClosed : Nat := 0x3006
/-- AUTH.SESSION: Session field does not match the ring (Table 04-14). -/
abbrev stAuthSession : Nat := 0x4001
/-- AUTH.ROLE: Role may not issue this opcode or write this PID (Table 04-14). -/
abbrev stAuthRole : Nat := 0x4002
/-- AUTH.SIG: Signature does not verify (Table 04-14). -/
abbrev stAuthSig : Nat := 0x4003
/-- AUTH.DUAL: Dual control missing or not distinct (Table 04-14). -/
abbrev stAuthDual : Nat := 0x4004
/-- AUTH.CERT: Certificate chain not accepted (Table 04-14). -/
abbrev stAuthCert : Nat := 0x4005
/-- AUTH.UNOWNED: Device unowned (Table 04-14). -/
abbrev stAuthUnowned : Nat := 0x4006
/-- AUTH.ORIGIN: Origin may not issue this opcode (Table 04-14). -/
abbrev stAuthOrigin : Nat := 0x4007
/-- AUD.FULL: Audit ring full (Table 04-14). -/
abbrev stAudFull : Nat := 0x5001
/-- KEY.EXHAUSTED: Key slot usage limit reached (Table 04-14). -/
abbrev stKeyExhausted : Nat := 0x6001
/-- KEY.SLOT: Key slot empty or of the wrong kind (Table 04-14). -/
abbrev stKeySlot : Nat := 0x6002
/-- KEY.UNWRAP: Wrapped key failed its integrity check (Table 04-14). -/
abbrev stKeyUnwrap : Nat := 0x6003
/-- KEY.DOMAIN: Deduplication domain has no key (Table 04-14). -/
abbrev stKeyDomain : Nat := 0x6004
/-- MED.LOST: Range lies on a lost stripe (Table 04-14). -/
abbrev stMedLost : Nat := 0x7001
/-- MED.ABSENT: Pack absent or fenced (Table 04-14). -/
abbrev stMedAbsent : Nat := 0x7002
/-- MED.SPACE: Free space insufficient for the operation (Table 04-14). -/
abbrev stMedSpace : Nat := 0x7003
/-- MED.RETIRED: Pack or block retired (Table 04-14). -/
abbrev stMedRetired : Nat := 0x7004
/-- NET.PEER: Peer absent, and policy refuses (Table 04-14). -/
abbrev stNetPeer : Nat := 0x8001
/-- NET.LINK: Link down (Table 04-14). -/
abbrev stNetLink : Nat := 0x8002
/-- NET.REMOTE: Remote array refused (Table 04-14). -/
abbrev stNetRemote : Nat := 0x8003
/-- FW.SLOT: Slot empty or invalid for the component (Table 04-14). -/
abbrev stFwSlot : Nat := 0x9001
/-- FW.CRC: Transfer CRC mismatch (Table 04-14). -/
abbrev stFwCrc : Nat := 0x9002
/-- DEV.FAULT: Internal check failed; command had no effect (Table 04-14). -/
abbrev stDevFault : Nat := 0xA001
/-- DEV.TIMEOUT: Internal operation exceeded its bound (Table 04-14). -/
abbrev stDevTimeout : Nat := 0xA002
/-- RES.EXHAUSTED: Table or identifier space full (Table 04-14). -/
abbrev stResExhausted : Nat := 0xB001
/-- RES.NOTFOUND: Named object does not exist (Table 04-14). -/
abbrev stResNotfound : Nat := 0xB002
/-- RES.EXISTS: Named object already exists (Table 04-14). -/
abbrev stResExists : Nat := 0xB003

/-- The success class is 0 (R121). -/
def isSuccess (st : Nat) : Bool := st / 4096 == 0

/-- The attributes of an opcode (Table 04-12). -/
structure OpSpec where
  code : Nat
  audited : Bool
  /-- Roles by bit: 1 Operator, 2 Custodian, 3 Auditor, 4 Service. -/
  roles : Nat
  /-- Accepted on an unbound ring. -/
  u : Bool
  peer : Bool
  dual : Bool
  /-- States by bit: 0 P, 1 S, 2 V, 3 F. -/
  states : Nat
  /-- The PID decides the role (SET_PARAM, SET_PARAMS). -/
  perPid : Bool := false
  deriving DecidableEq, Repr

/-- The system opcodes. -/
def opsSystem : List OpSpec :=
  [ ⟨0x0001, false, 0b11110, true, true, false, 0b1111, false⟩,
    ⟨0x0002, false, 0b00000, true, false, false, 0b1111, false⟩,
    ⟨0x0003, true, 0b00000, true, false, false, 0b0111, false⟩,
    ⟨0x0004, true, 0b11110, false, false, false, 0b0111, false⟩,
    ⟨0x0005, false, 0b11110, false, true, false, 0b1111, false⟩,
    ⟨0x0006, true, 0b00010, false, false, false, 0b0111, false⟩,
    ⟨0x0007, true, 0b00010, false, false, false, 0b0100, false⟩,
    ⟨0x0008, true, 0b00010, false, false, false, 0b0110, false⟩,
    ⟨0x0009, true, 0b00010, false, false, false, 0b0011, false⟩,
    ⟨0x000A, true, 0b10000, false, false, false, 0b0111, false⟩,
    ⟨0x000B, true, 0b00010, false, false, false, 0b0111, false⟩,
    ⟨0x000C, true, 0b00010, false, true, false, 0b0100, false⟩,
    ⟨0x000D, true, 0b00000, true, false, false, 0b0001, false⟩ ]

/-- The configuration opcodes. -/
def opsConfiguration : List OpSpec :=
  [ ⟨0x0101, true, 0b11110, false, false, false, 0b0111, true⟩,
    ⟨0x0102, false, 0b11110, false, true, false, 0b1111, false⟩,
    ⟨0x0103, true, 0b11110, false, false, false, 0b0111, true⟩,
    ⟨0x0104, true, 0b00010, false, false, false, 0b0001, false⟩,
    ⟨0x0105, true, 0b00010, false, false, false, 0b0111, false⟩,
    ⟨0x0106, false, 0b11110, false, false, false, 0b1111, false⟩ ]

/-- The volume opcodes. -/
def opsVolume : List OpSpec :=
  [ ⟨0x0201, true, 0b00010, false, false, false, 0b0100, false⟩,
    ⟨0x0202, true, 0b00010, false, false, false, 0b0100, false⟩,
    ⟨0x0203, true, 0b00010, false, false, false, 0b0100, false⟩,
    ⟨0x0204, true, 0b00010, false, false, false, 0b0100, false⟩,
    ⟨0x0205, false, 0b11110, false, false, false, 0b0110, false⟩,
    ⟨0x0206, true, 0b00010, false, false, false, 0b0100, false⟩,
    ⟨0x0207, true, 0b00010, false, false, false, 0b0100, false⟩,
    ⟨0x0208, true, 0b00010, false, false, false, 0b0100, false⟩,
    ⟨0x0209, true, 0b00010, false, false, false, 0b0100, false⟩,
    ⟨0x020A, true, 0b00100, false, false, false, 0b0100, false⟩ ]

/-- The media and layout opcodes. -/
def opsMediaLayout : List OpSpec :=
  [ ⟨0x0301, true, 0b00010, false, false, false, 0b0100, false⟩,
    ⟨0x0302, true, 0b00010, false, false, false, 0b0100, false⟩,
    ⟨0x0303, true, 0b00010, false, false, false, 0b0100, false⟩,
    ⟨0x0304, true, 0b00010, false, false, false, 0b0100, false⟩,
    ⟨0x0305, false, 0b11110, false, true, false, 0b1110, false⟩,
    ⟨0x0306, false, 0b11110, false, false, false, 0b1110, false⟩,
    ⟨0x0307, true, 0b00010, false, false, false, 0b0100, false⟩ ]

/-- The security and keys opcodes. -/
def opsSecurityKeys : List OpSpec :=
  [ ⟨0x0401, true, 0b00100, false, false, false, 0b0111, false⟩,
    ⟨0x0402, true, 0b00100, false, false, false, 0b0111, false⟩,
    ⟨0x0403, true, 0b00100, false, false, true, 0b0111, false⟩,
    ⟨0x0404, true, 0b00100, false, false, true, 0b0110, false⟩,
    ⟨0x0405, true, 0b00100, false, false, false, 0b0100, false⟩,
    ⟨0x0406, false, 0b11110, false, false, false, 0b1111, false⟩,
    ⟨0x0407, false, 0b00010, false, false, false, 0b0100, false⟩,
    ⟨0x0408, false, 0b01000, false, false, false, 0b1111, false⟩,
    ⟨0x0409, true, 0b01000, false, false, false, 0b0111, false⟩,
    ⟨0x040A, true, 0b01000, false, false, false, 0b0111, false⟩,
    ⟨0x040B, false, 0b01000, false, false, false, 0b1111, false⟩,
    ⟨0x040C, true, 0b01000, false, false, false, 0b0111, false⟩,
    ⟨0x040D, false, 0b11110, false, false, false, 0b1111, false⟩,
    ⟨0x040E, true, 0b00010, false, false, false, 0b0111, false⟩ ]

/-- The replication opcodes. -/
def opsReplication : List OpSpec :=
  [ ⟨0x0501, true, 0b00010, false, false, false, 0b0100, false⟩,
    ⟨0x0502, true, 0b00010, false, false, false, 0b0100, false⟩,
    ⟨0x0503, true, 0b00010, false, false, false, 0b0100, false⟩,
    ⟨0x0504, false, 0b11110, false, false, false, 0b0110, false⟩,
    ⟨0x0505, true, 0b00010, false, false, false, 0b0100, false⟩,
    ⟨0x0506, true, 0b00010, false, false, false, 0b0100, false⟩,
    ⟨0x0507, true, 0b00010, false, false, false, 0b0100, false⟩ ]

/-- The diagnostics opcodes. -/
def opsDiagnostics : List OpSpec :=
  [ ⟨0x0601, false, 0b11110, false, false, false, 0b1111, false⟩,
    ⟨0x0602, true, 0b00010, false, false, false, 0b0111, false⟩,
    ⟨0x0603, true, 0b00010, false, false, false, 0b0111, false⟩,
    ⟨0x0604, true, 0b00010, false, false, false, 0b0111, false⟩,
    ⟨0x0605, true, 0b10000, false, false, false, 0b0011, false⟩,
    ⟨0x0606, false, 0b11110, false, false, false, 0b1111, false⟩ ]

/-- The firmware opcodes. -/
def opsFirmware : List OpSpec :=
  [ ⟨0x0701, true, 0b10000, false, false, false, 0b0111, false⟩,
    ⟨0x0702, true, 0b10000, false, false, true, 0b0111, false⟩,
    ⟨0x0703, false, 0b11110, false, false, false, 0b1111, false⟩,
    ⟨0x0704, true, 0b10000, false, false, true, 0b0100, false⟩,
    ⟨0x0705, false, 0b11110, false, false, false, 0b0110, false⟩ ]

/-- Every opcode of Table 04-12. -/
def opTable : List OpSpec :=
  opsSystem ++ opsConfiguration ++ opsVolume ++ opsMediaLayout ++ opsSecurityKeys ++ opsReplication ++ opsDiagnostics ++ opsFirmware

/-- The attributes of an opcode; none for a code the table does not list. -/
def opSpec (c : Nat) : Option OpSpec := opTable.find? (fun o => o.code == c)

/-- The opcode of SYS_IDENTIFY. -/
abbrev opSysIdentify : Nat := 0x0001
/-- The opcode of GET_NONCE. -/
abbrev opGetNonce : Nat := 0x0002
/-- The opcode of SESSION_OPEN. -/
abbrev opSessionOpen : Nat := 0x0003
/-- The opcode of SESSION_CLOSE. -/
abbrev opSessionClose : Nat := 0x0004
/-- The opcode of SYS_STATUS. -/
abbrev opSysStatus : Nat := 0x0005
/-- The opcode of SERVICE_START. -/
abbrev opServiceStart : Nat := 0x0006
/-- The opcode of SERVICE_STOP. -/
abbrev opServiceStop : Nat := 0x0007
/-- The opcode of PORT_ENABLE. -/
abbrev opPortEnable : Nat := 0x0008
/-- The opcode of DEVICE_DOZE. -/
abbrev opDeviceDoze : Nat := 0x0009
/-- The opcode of RESET_DEVICE. -/
abbrev opResetDevice : Nat := 0x000A
/-- The opcode of HANDLE_ELIGIBLE. -/
abbrev opHandleEligible : Nat := 0x000B
/-- The opcode of HANDLE_TRANSFER. -/
abbrev opHandleTransfer : Nat := 0x000C
/-- The opcode of OWNER_ENROLL. -/
abbrev opOwnerEnroll : Nat := 0x000D
/-- The opcode of SET_PARAM. -/
abbrev opSetParam : Nat := 0x0101
/-- The opcode of GET_PARAM. -/
abbrev opGetParam : Nat := 0x0102
/-- The opcode of SET_PARAMS. -/
abbrev opSetParams : Nat := 0x0103
/-- The opcode of CONFIG_SEAL. -/
abbrev opConfigSeal : Nat := 0x0104
/-- The opcode of REG_WRITE. -/
abbrev opRegWrite : Nat := 0x0105
/-- The opcode of REG_READ. -/
abbrev opRegRead : Nat := 0x0106
/-- The opcode of VOL_CREATE. -/
abbrev opVolCreate : Nat := 0x0201
/-- The opcode of VOL_DELETE. -/
abbrev opVolDelete : Nat := 0x0202
/-- The opcode of VOL_RESIZE. -/
abbrev opVolResize : Nat := 0x0203
/-- The opcode of VOL_SET_ACCESS. -/
abbrev opVolSetAccess : Nat := 0x0204
/-- The opcode of VOL_QUERY. -/
abbrev opVolQuery : Nat := 0x0205
/-- The opcode of SNAP_CREATE. -/
abbrev opSnapCreate : Nat := 0x0206
/-- The opcode of SNAP_DELETE. -/
abbrev opSnapDelete : Nat := 0x0207
/-- The opcode of VOL_CLONE. -/
abbrev opVolClone : Nat := 0x0208
/-- The opcode of SECURE_DISCARD. -/
abbrev opSecureDiscard : Nat := 0x0209
/-- The opcode of DOMAIN_CREATE. -/
abbrev opDomainCreate : Nat := 0x020A
/-- The opcode of PACK_ADMIT. -/
abbrev opPackAdmit : Nat := 0x0301
/-- The opcode of PACK_RETIRE. -/
abbrev opPackRetire : Nat := 0x0302
/-- The opcode of LAYOUT_CHANGE. -/
abbrev opLayoutChange : Nat := 0x0303
/-- The opcode of REBUILD_CTRL. -/
abbrev opRebuildCtrl : Nat := 0x0304
/-- The opcode of MEDIA_HEALTH. -/
abbrev opMediaHealth : Nat := 0x0305
/-- The opcode of LOST_LIST_READ. -/
abbrev opLostListRead : Nat := 0x0306
/-- The opcode of LOST_LIST_CLEAR. -/
abbrev opLostListClear : Nat := 0x0307
/-- The opcode of KEY_GENERATE. -/
abbrev opKeyGenerate : Nat := 0x0401
/-- The opcode of KEY_LOAD. -/
abbrev opKeyLoad : Nat := 0x0402
/-- The opcode of KEY_EXPORT. -/
abbrev opKeyExport : Nat := 0x0403
/-- The opcode of KEY_DESTROY. -/
abbrev opKeyDestroy : Nat := 0x0404
/-- The opcode of KEY_INSTALL_SA. -/
abbrev opKeyInstallSa : Nat := 0x0405
/-- The opcode of KEY_QUERY. -/
abbrev opKeyQuery : Nat := 0x0406
/-- The opcode of CIPHER_OP. -/
abbrev opCipherOp : Nat := 0x0407
/-- The opcode of AUDIT_READ. -/
abbrev opAuditRead : Nat := 0x0408
/-- The opcode of AUDIT_DRAIN. -/
abbrev opAuditDrain : Nat := 0x0409
/-- The opcode of AUDIT_SEAL. -/
abbrev opAuditSeal : Nat := 0x040A
/-- The opcode of BOOT_RECORD_READ. -/
abbrev opBootRecordRead : Nat := 0x040B
/-- The opcode of BOOT_RECORD_DRAIN. -/
abbrev opBootRecordDrain : Nat := 0x040C
/-- The opcode of ATTEST_QUOTE. -/
abbrev opAttestQuote : Nat := 0x040D
/-- The opcode of SET_TIME. -/
abbrev opSetTime : Nat := 0x040E
/-- The opcode of REPL_PAIR. -/
abbrev opReplPair : Nat := 0x0501
/-- The opcode of REPL_START. -/
abbrev opReplStart : Nat := 0x0502
/-- The opcode of REPL_STOP. -/
abbrev opReplStop : Nat := 0x0503
/-- The opcode of REPL_STATUS. -/
abbrev opReplStatus : Nat := 0x0504
/-- The opcode of REGION_REGISTER. -/
abbrev opRegionRegister : Nat := 0x0505
/-- The opcode of REGION_REVOKE. -/
abbrev opRegionRevoke : Nat := 0x0506
/-- The opcode of CONN_TEARDOWN. -/
abbrev opConnTeardown : Nat := 0x0507
/-- The opcode of EVR_READ. -/
abbrev opEvrRead : Nat := 0x0601
/-- The opcode of EVR_CLEAR. -/
abbrev opEvrClear : Nat := 0x0602
/-- The opcode of WVR_INJECT. -/
abbrev opWvrInject : Nat := 0x0603
/-- The opcode of WVR_CAPTURE. -/
abbrev opWvrCapture : Nat := 0x0604
/-- The opcode of SELFTEST. -/
abbrev opSelftest : Nat := 0x0605
/-- The opcode of THERM_STATUS. -/
abbrev opThermStatus : Nat := 0x0606
/-- The opcode of STAGE_IMAGE. -/
abbrev opStageImage : Nat := 0x0701
/-- The opcode of ACTIVATE_IMAGE. -/
abbrev opActivateImage : Nat := 0x0702
/-- The opcode of FW_QUERY. -/
abbrev opFwQuery : Nat := 0x0703
/-- The opcode of PACK_FW_LOAD. -/
abbrev opPackFwLoad : Nat := 0x0704
/-- The opcode of MIGRATE_STATUS. -/
abbrev opMigrateStatus : Nat := 0x0705

end Sys2Proof.Machine
end

