-- ==== Sys2Proof/Machine/Pids.lean ====
section
/-! DEFINITION. The parameters (PIDs) that hold plain values: width, access, role, protection, default and range, from
the owners' tables, and the read of a value (R117, R118, R549). -/

namespace Sys2Proof.Machine

/-- How a value of a PID is judged (R119). -/
inductive PidKind where
  /-- Numeric, from `lo` to `hi`: above LEN.OVER, below LEN.UNDER. -/
  | num (lo hi : Nat)
  /-- Enumerated, 0 to `hi`: others FMT.PARAM. -/
  | enum (hi : Nat)
  /-- A bit mask: bits outside `legal` are reserved, FMT.RSVD. -/
  | mask (legal : Nat)
  deriving DecidableEq, Repr

/-- The attributes of a PID (R118). Access: 0 read-only, 1 seal-locked, 2 live. Role: 1 Operator, 2 Custodian,
3 Auditor. Protection: 0 none, 1 a lower value is stronger, 2 a set bit is stronger. -/
structure PidInfo where
  pid : Nat
  width : Nat
  access : Nat
  role : Nat
  default : Nat
  kind : PidKind
  prot : Nat := 0
  deriving DecidableEq, Repr

/-- The PIDs of PLEM, Border, power and thermal (Tables 04-11, 05-14, 20-6; R74). -/
def pidsManagement : List PidInfo :=
  [ ⟨0x0010, 2, 2, 1, 32, .num 1 32, 0⟩, ⟨0x0011, 4, 2, 1, 0, .num 0 86400, 0⟩, ⟨0x0012, 1, 1, 1, 1, .mask 0xFF, 0⟩,
    ⟨0x0100, 4, 1, 3, 16, .num 1 65535, 1⟩, ⟨0x0101, 1, 2, 3, 75, .num 1 99, 0⟩, ⟨0x0102, 1, 2, 1, 0, .enum 1, 0⟩,
    ⟨0x0103, 2, 2, 1, 60, .num 1 3600, 0⟩, ⟨0x0104, 1, 2, 1, 0, .enum 127, 0⟩, ⟨0x0105, 1, 2, 1, 0, .mask 0xFF, 0⟩,
    ⟨0x0106, 1, 2, 1, 0, .enum 2, 0⟩, ⟨0x0210, 4, 2, 1, 0, .mask 0xFFFFFF, 0⟩, ⟨0x0211, 4, 2, 1, 0, .num 0 60000, 0⟩,
    ⟨0x0220, 1, 2, 1, 110, .num 60 125, 0⟩, ⟨0x0221, 1, 2, 1, 5, .num 1 100, 0⟩ ]

/-- The PIDs of the host front end, range locks and remote memory access (Tables 07-12, 08-6, 09-8). -/
def pidsHost : List PidInfo :=
  (List.range 8).map (fun k => ⟨0x0400 + k, 1, 1, 1, 0, .enum 5, 0⟩) ++
  [ ⟨0x0410, 2, 1, 1, 64, .num 0 4096, 0⟩, ⟨0x0411, 2, 1, 1, 1024, .num 0 4096, 0⟩, ⟨0x0412, 1, 2, 1, 0, .enum 1, 0⟩,
    ⟨0x0420, 1, 2, 1, 0, .enum 2, 0⟩, ⟨0x0500, 1, 2, 1, 1, .enum 1, 0⟩, ⟨0x0501, 4, 2, 1, 100000, .num 0 60000000, 0⟩,
    ⟨0x0600, 4, 2, 1, 0, .mask 0xFFFFFFFF, 2⟩, ⟨0x0601, 1, 2, 1, 9, .num 1 20, 0⟩, ⟨0x0602, 1, 2, 1, 7, .num 1 7, 0⟩,
    ⟨0x0603, 2, 2, 1, 64, .num 1 4096, 0⟩, ⟨0x0605, 8, 2, 2, 2 ^ 40, .num 1 (2 ^ 63), 0⟩,
    ⟨0x0606, 2, 2, 2, 10, .num 1 3600, 0⟩, ⟨0x0607, 4, 2, 1, 100, .num 1 60000, 0⟩,
    ⟨0x0608, 2, 2, 1, 50, .num 1 10000, 0⟩ ] ++
  (List.range 4).map (fun c => ⟨0x0610 + c, 2, 2, 1, 4096, .num 1 32768, 0⟩) ++
  [ ⟨0x0618, 4, 2, 1, 500, .num 1 60000, 0⟩ ]

/-- The PIDs of reduction, the cipher engine and Coil (Tables 10-7, 11-7, 12-11). -/
def pidsStore : List PidInfo :=
  [ ⟨0x0700, 2, 2, 1, 500, .num 0 20000, 0⟩, ⟨0x0701, 4, 2, 1, 4096, .num 0 65536, 0⟩,
    ⟨0x0702, 2, 1, 1, 4096, .num 256 6144, 0⟩, ⟨0x0703, 4, 2, 1, 0xFFFF0000, .num 1 0xFFFF0000, 0⟩,
    ⟨0x0704, 1, 2, 1, 1, .enum 1, 0⟩, ⟨0x0800, 1, 1, 2, 0, .enum 1, 1⟩, ⟨0x0801, 1, 2, 1, 16, .num 1 16, 0⟩,
    ⟨0x0900, 1, 2, 1, 1, .enum 1, 1⟩, ⟨0x0901, 4, 2, 1, 500, .num 1 100000, 0⟩, ⟨0x0902, 1, 2, 1, 70, .num 50 95, 0⟩,
    ⟨0x0903, 1, 2, 1, 80, .num 1 100, 0⟩ ]

/-- The PIDs of layout, rebuild and media (Tables 13-5, 14-7, 15-6). -/
def pidsMedia : List PidInfo :=
  [ ⟨0x0A00, 1, 2, 1, 10, .num 1 50, 0⟩, ⟨0x0A01, 2, 1, 1, 256, .num 16 256, 0⟩, ⟨0x0A02, 4, 2, 1, 2000, .num 0 600000, 0⟩,
    ⟨0x0A20, 2, 2, 1, 60, .num 1 3600, 0⟩, ⟨0x0A21, 2, 2, 1, 12500, .num 100 16000, 0⟩, ⟨0x0A22, 1, 2, 1, 10, .num 1 100, 0⟩,
    ⟨0x0A23, 2, 2, 1, 10, .num 1 600, 0⟩, ⟨0x0B00, 1, 2, 1, 7, .num 1 60, 0⟩, ⟨0x0B01, 2, 2, 1, 30, .num 10 200, 0⟩,
    ⟨0x0B02, 1, 2, 1, 12, .num 5 50, 0⟩, ⟨0x0B03, 1, 2, 1, 60, .num 10 95, 0⟩, ⟨0x0B04, 1, 2, 1, 50, .num 10 100, 0⟩,
    ⟨0x0B05, 1, 2, 1, 80, .num 1 100, 0⟩, ⟨0x0B06, 2, 2, 1, 50, .num 10 1000, 0⟩, ⟨0x0B07, 1, 2, 1, 5, .num 1 100, 0⟩,
    ⟨0x0B08, 1, 2, 1, 5, .num 1 100, 0⟩, ⟨0x0B09, 1, 2, 1, 80, .num 1 100, 0⟩ ]

/-- The PIDs of Stake Link, the Handle, the Data Mover, the Map Cache and the event recorder (Tables 16-7, 17-7, 18-7,
21-6). -/
def pidsLinks : List PidInfo :=
  [ ⟨0x0C00, 2, 1, 1, 1024, .num 64 1024, 0⟩, ⟨0x0C01, 2, 2, 1, 20, .num 5 1000, 0⟩,
    ⟨0x0C02, 2, 2, 1, 200, .num 10 10000, 0⟩, ⟨0x0C03, 2, 2, 1, 16, .num 1 256, 0⟩, ⟨0x0D00, 2, 2, 1, 10, .num 2 1000, 0⟩,
    ⟨0x0D11, 1, 1, 1, 0, .enum 1, 0⟩, ⟨0x0E00, 4, 2, 1, 1000, .num 1 60000, 0⟩,
    ⟨0x0E10, 4, 1, 1, 0x80, .mask 0xFFFFFFFF, 0⟩, ⟨0x0E11, 2, 2, 1, 0, .mask 0xFFFF, 0⟩,
    ⟨0x0F00, 2, 2, 1, 60, .num 1 3600, 0⟩, ⟨0x0F01, 2, 2, 1, 16, .num 0 1000, 0⟩ ]

/-- Every PID that holds a plain value of its own. -/
def plainPids : List PidInfo := pidsManagement ++ pidsHost ++ pidsStore ++ pidsMedia ++ pidsLinks

/-- The attributes of a plain PID. -/
def plainPid (p : Nat) : Option PidInfo := plainPids.find? (fun i => i.pid == p)

/-- The value a PID was last set to, or its default (R2: no configuration survives power-up). -/
def pidVal (s : State) (p : Nat) : Nat :=
  match s.plem.pids.find? (fun e => e.1 == p) with
  | some e => e.2
  | none => match plainPid p with
    | some i => i.default
    | none => 0

/-- A PID set to a value; the PID has one entry. -/
def setPid (p v : Nat) (s : State) : State :=
  { s with plem.pids := (p, v) :: s.plem.pids.filter (fun e => e.1 != p) }

/-- The default sub-port block (R175): zero but for the MTU and the two listen ports. -/
def defaultSubBlock : List Byte :=
  zeros 6 ++ leBytes 2 1500 ++ zeros 40 ++ leBytes 2 4420 ++ leBytes 2 4420 ++ zeros 12

/-- The value of a block PID (R175, R465). -/
def pidBlock (s : State) (p : Nat) : List Byte :=
  match s.plem.blocks.find? (fun e => e.1 == p) with
  | some e => e.2
  | none => if p = 0x0D10 then zeros 48 else if 0x0440 ≤ p ∧ p < 0x0460 then defaultSubBlock else []

/-- A block PID set to a value. -/
def setPidBlock (p : Nat) (v : List Byte) (s : State) : State :=
  { s with plem.blocks := (p, v) :: s.plem.blocks.filter (fun e => e.1 != p) }

/-! ### Ethernet ports (R174) -/

/-- The mode of Ethernet port `n` (Table 07-1). -/
def ethMode (s : State) (n : Nat) : Nat := pidVal s (0x0400 + n)

/-- The sub-ports of a mode (Table 07-1). -/
def modeSubs (mode : Nat) : Nat := if mode = 0 then 1 else if mode = 1 then 2 else if mode ≤ 4 then 4 else 0

/-- Sub-port `k` exists in its port's mode (Table 07-1). -/
def subExists (s : State) (k : Nat) : Bool := decide (k % 4 < modeSubs (ethMode s (k / 4)))

end Sys2Proof.Machine
end

