-- ==== Sys2Proof/Machine/Link.lean ====
section
/-! DEFINITION. What the device gives out, and the data-link layer that Stake ports and the peer link share (R411 to
R418, R438): sequence numbers, the replay buffer, credits, frames that wait, and messages to the peer. -/

namespace Sys2Proof.Machine

/-- A message or signal to a partner, after those given before (log 8). -/
def emit (o : Out) (s : State) : State := { s with out := s.out ++ [o] }

/-- A message to the sideband's controller; in I3C mode an in-band interrupt goes before it (R54; PRESUMED, log 139). -/
def sendMctp (o : Out) (s : State) : State := emit o (if s.boot.i3c then emit .ibi s else s)

/-- Bytes held in a replay buffer; a frame is 32 + len bytes (R411, R414). -/
def replayBytes (l : Link) : Nat := l.replay.foldl (fun n f => n + f.bytes) 0

/-- Data units of a payload (R418). -/
def dataUnits (len : Nat) : Nat := ceilDiv len 256

/-- The credits of a channel: frame grants, unit grants, frames used, units used. -/
def creditOf (l : List (Nat × Nat × Nat × Nat × Nat)) (vc : Nat) : Nat × Nat × Nat × Nat :=
  match l.find? (fun e => e.1 == vc) with | some e => e.2 | none => (0, 0, 0, 0)

/-- The credits of a channel replaced. -/
def putCredit (vc : Nat) (c : Nat × Nat × Nat × Nat) (l : List (Nat × Nat × Nat × Nat × Nat)) :
    List (Nat × Nat × Nat × Nat × Nat) := (vc, c) :: l.filter (fun e => e.1 != vc)

/-- What is left of a grant, modulo 65,536 (R418). -/
def creditLeft (granted used : Nat) : Nat := (granted + 65536 - used % 65536) % 65536

/-- The grants of a channel cover a frame (R418). -/
def covered (c : Nat × Nat × Nat × Nat) (len : Nat) : Bool :=
  decide (1 ≤ creditLeft c.1 c.2.2.1) && decide (dataUnits len ≤ creditLeft c.2.1 c.2.2.2)

/-- A new transaction frame may start: replay space and credits (R414, R418). -/
def canSend (cap : Nat) (l : Link) (vc len : Nat) : Bool :=
  decide (replayBytes l + 32 + len ≤ cap) && decide (l.replay.length < 32768) && covered (creditOf l.credits vc) len

/-- One frame leaves: next sequence number, kept for replay, credits consumed (R414, R418). -/
def txFrame (now vc len : Nat) (l : Link) : Link :=
  let c := creditOf l.credits vc
  { l with
    txSeq := (l.txSeq + 1) % 65536
    oldestAt := if l.replay = [] then now else l.oldestAt
    replay := l.replay ++ [{ seq := l.txSeq, bytes := 32 + len }]
    credits := putCredit vc (c.1, c.2.1, (c.2.2.1 + 1) % 65536, (c.2.2.2 + dataUnits len) % 65536) l.credits
    lastTx := now }

/-! ### Frames as bytes (R7, Table 16-1) -/

/-- Bytes 0 to 27 of a transaction frame's header, its sequence number still zero. -/
def frameHead (type vc : Nat) (last : Bool) (len tag cmd offset epoch : Nat) : List Byte :=
  leBytes 1 type ++ leBytes 1 (vc + flagAt last 2) ++ leBytes 2 len ++ zeros 4 ++ leBytes 2 tag ++ leBytes 1 cmd ++ zeros 1 ++
    leBytes 4 offset ++ leBytes 8 epoch ++ zeros 4

/-- A frame: its header with the sequence number, the crc over the header and the payload, the payload. -/
def frameBytes (seq : Nat) (head body : List Byte) : List Byte :=
  let h := head.take 4 ++ leBytes 2 seq ++ head.drop 6
  h ++ leBytes 4 (crc32c (h ++ body)) ++ body

/-- A link frame: 0x10 ACK, 0x11 NAK, 0x12 credit, 0x13 keep-alive. -/
def linkBytes (kind vc seq frames units : Nat) : List Byte :=
  let h := leBytes 1 kind ++ leBytes 1 vc ++ zeros 2 ++ leBytes 2 seq ++ zeros 2 ++ leBytes 2 frames ++ leBytes 2 units ++ zeros 16
  h ++ leBytes 4 (crc32c h)

/-- A received frame as its bytes read; the fields that a type does not use count among the reserved ones. -/
def frameOf (b : List Byte) : Frame :=
  let type := numAt b 0 1
  { type := type, vc := numAt b 1 1 % 4, len := numAt b 2 2, seq := numAt b 4 2, tag := numAt b 8 2 % 1024, cmd := numAt b 10 1
    crcOk := b.length == 32 + numAt b 2 2 && numAt b 28 4 == crc32c (b.take 28 ++ b.drop 32)
    rsvdZero := numAt b 1 1 / 8 == 0 && (type == 3 || numAt b 1 1 / 4 == 0) && numAt b 6 2 == 0 && numAt b 8 2 / 1024 == 0 &&
      numAt b 11 1 == 0 && (type == 3 || numAt b 12 4 == 0) && (type != 3 || numAt b 16 8 == 0) && numAt b 24 4 == 0 }

/-- The waiting frames that may start leave, in order within a channel; no backlog of one channel holds up another (R417). Their
bytes and the messages they begin are given back; `held` are the channels whose oldest frame waits. -/
def pumpFrames (port cap now : Nat) (held : List Nat) : List TxWait → Link → Link × List Out
  | [], l => ({ l with waiting := [] }, [])
  | w :: ws, l =>
    if !held.contains w.vc && canSend cap l w.vc w.len then
      let r := pumpFrames port cap now held ws (txFrame now w.vc w.len l)
      (r.1, .stakeFrame port (frameBytes l.txSeq w.head w.body) :: (match w.out with | some o => [o] | none => []) ++ r.2)
    else
      let r := pumpFrames port cap now (w.vc :: held) ws l
      ({ r.1 with waiting := w :: r.1.waiting }, r.2)

/-- The payload lengths of the frames that carry `len` bytes of data (R419). -/
def dataFrames (len : Nat) : List Nat :=
  List.replicate (len / 4096) 4096 ++ (if len % 4096 = 0 then [] else [len % 4096])

/-- A request joins the frames that wait: its own frame, then its data frames at ascending offsets, the last one with last set
(R419). -/
def queueMessage (vc tag cmd epoch : Nat) (payload : List Byte) (len dataLen : Nat) (data : List Byte) (o : Out) (l : Link) : Link :=
  let first : TxWait := { vc := vc, len := len, out := some o, head := frameHead 1 vc false len tag cmd 0 epoch, body := payload }
  { l with waiting := l.waiting ++ first :: (dataFrames dataLen).zipIdx.map fun e => {
      vc := vc, len := e.1, head := frameHead 3 vc (e.2 + 1 == (dataFrames dataLen).length) e.1 tag cmd (4096 * e.2) 0
      body := bytesAt data (4096 * e.2) e.1 } }

/-- An ACK releases every frame up to a sequence number (R414). -/
def ackFrames (now seq : Nat) (l : Link) : Link :=
  if l.replay.any (fun f => f.seq == seq) then
    { l with replay := (l.replay.dropWhile (fun f => f.seq != seq)).drop 1, oldestAt := now }
  else l

/-- A NAK releases the frames before a sequence number; the rest are resent, each resend counted (R414). One for the next
sequence number releases every frame. -/
def nakFrames (now seq : Nat) (l : Link) : Link :=
  if l.replay.any (fun f => f.seq == seq) then
    { l with replay := (l.replay.dropWhile (fun f => f.seq != seq)).map fun f => { f with resends := f.resends + 1 }, oldestAt := now }
  else if seq = l.txSeq then { l with replay := [] }
  else l

/-- Every held frame is resent (R414). -/
def resendAll (now : Nat) (l : Link) : Link :=
  { l with replay := l.replay.map fun f => { f with resends := f.resends + 1 }, oldestAt := now }

/-- A frame has been resent four times with no release of it (R414). -/
def resendsSpent (l : Link) : Bool := l.replay.any fun f => decide (4 ≤ f.resends)

/-! ### The peer link -/

/-- The class 3 connection is ready (R440, R464). -/
def class3Ready (s : State) : Bool := s.rma.conns.any fun c => c.cls == 3 && c.state == 2

/-- The paired heads carry their messages over the class 3 connection (R440, R464; HDL_STS.via_conn). -/
def viaConn (s : State) : Bool := s.hdl.paired && !s.hdl.linkUp && class3Ready s

/-- Messages reach the peer: over the link, over the class 3 connection while paired, or over the legacy connection of bridge
mode (R440, R464). -/
def peerPath (s : State) : Bool := s.hdl.linkUp || viaConn s || (class3Ready s && pidVal s 0x0D11 == 1)

/-- The transaction frames sent under the link keys, which pairing makes (R442). -/
def countFrames (n : Nat) (s : State) : State :=
  if s.hdl.paired && s.hdl.linkUp then { s with hdl.framesSent := s.hdl.framesSent + n } else s

end Sys2Proof.Machine
end

