-- ==== Sys2Proof/Machine/Ops.lean ====
section
/-! DEFINITION. Shared operations over the state: time, output, free values, Hamper memory, event counting, Border's
entries, status posts and the fail-silent reaction. -/

namespace Sys2Proof.Machine

/-! ### Time, output, free values, lists -/

/-- One reference step of the monotonic time: 40 ns, or 100 ns while the tick runs from the always-on clock (R69,
R145; DESIGN CHOICE, log 11). -/
def refStep (s : State) : State := { s with now := s.now + if s.boot.aonTick then 100 else 40 }

/-- The free value that a step draws, below a bound (log 1). -/
def freeBelow (bound : Nat) (s : State) : Nat := (Config.freeValue s.free).toNat % bound

/-- The counter of free values advanced. -/
def drewFree (s : State) : State := { s with free := s.free + 1 }

/-- `n` bytes of free values, from the counter on (a nonce, random bits; log 1). -/
def freeBytes (n : Nat) (s : State) : List Byte :=
  (List.range n).map fun k => BitVec.ofNat 8 (Config.freeValue (s.free + k)).toNat

/-- Replace the elements that satisfy a test. -/
def updWhere {α : Type} (t : α → Bool) (f : α → α) (l : List α) : List α := l.map fun x => if t x then f x else x

/-- Change the element at an index; unchanged beyond the end. -/
def updAt {α : Type} (n : Nat) (f : α → α) : List α → List α
  | [] => []
  | x :: xs => match n with
    | 0 => f x :: xs
    | k + 1 => x :: updAt k f xs

/-- Insert a number into a rising list without repeats. -/
def insertNat (n : Nat) : List Nat → List Nat
  | [] => [n]
  | x :: xs => if n < x then n :: x :: xs else if n = x then x :: xs else x :: insertNat n xs

/-! ### The Hamper: contents, windows, access (R18 to R24) -/

/-- The byte at a Hamper address; unlisted bytes read as zero (log 9). -/
def memGet (m : List Host.Cell) (a : Nat) : Byte :=
  match m with
  | [] => 0
  | (k, v) :: t => if k = a then v else memGet t a

/-- One byte written; a zero byte leaves no entry. -/
def memSet (m : List Host.Cell) (a : Nat) (b : Byte) : List Host.Cell :=
  match m with
  | [] => if b = 0 then [] else [(a, b)]
  | (k, v) :: t =>
    if a < k then (if b = 0 then (k, v) :: t else (a, b) :: (k, v) :: t)
    else if a = k then (if b = 0 then t else (a, b) :: t)
    else (k, v) :: memSet t a b

/-- Bytes written at rising addresses. -/
def memWrite (m : List Host.Cell) (a : Nat) : List Byte → List Host.Cell
  | [] => m
  | b :: bs => memWrite (memSet m a b) (a + 1) bs

/-- `n` bytes read at rising addresses. -/
def memRead (m : List Host.Cell) (a n : Nat) : List Byte := (List.range n).map fun k => memGet m (a + k)

/-- The canonical form of the contents: addresses strictly rise from above `lo`, no zero byte is listed. -/
def memWfFrom (lo : Nat) : List Host.Cell → Bool
  | [] => true
  | (k, v) :: t => decide (lo ≤ k) && v != 0 && memWfFrom (k + 1) t

/-- The contents are in canonical form. -/
def Memory.wf (m : List Host.Cell) : Bool := memWfFrom 0 m

/-- Units of a window entry, in bytes (R18). -/
abbrev winUnit : Nat := 8388608

/-- The Hamper's size in units of 8 MiB (R22). -/
abbrev hamUnits : Nat := 24576

/-- A window entry covers a byte address (R18, R22). -/
def winCovers (w : Win) (a : Nat) : Bool :=
  w.enable && decide (winUnit * w.base ≤ a) && decide (a < winUnit * (w.base + w.size))

/-- The number of the enabled entry that covers an address. -/
def winOf (wins : List Win) (a : Nat) : Option Nat := wins.findIdx? (winCovers · a)

/-- The access code of a plane in an entry: 1 data, 2 control, 3 management; the owner has both (R19). -/
def winCode (w : Win) (plane : Nat) : Nat :=
  if w.owner = plane then 3 else if plane = 1 then w.d else if plane = 2 then w.c else w.m

/-- A plane may read or write an address (R19, R22: an uncovered address gives no access). -/
def winAllows (wins : List Win) (plane : Nat) (write : Bool) (a : Nat) : Bool :=
  match wins.find? (winCovers · a) with
  | none => false
  | some w => if write then winCode w plane / 2 == 1 else winCode w plane % 2 == 1

/-- A plane may read or write every byte of a range. -/
def winAllowsRange (wins : List Win) (plane : Nat) (write : Bool) (a n : Nat) : Bool :=
  (List.range n).all fun k => winAllows wins plane write (a + k)

/-- The base byte address of the region of window entry `n`. -/
def winBase (s : State) (n : Nat) : Nat := winUnit * ((s.ham.win[n]?).getD { base := 0 }).base

/-- The size of the region of window entry `n`, in bytes. -/
def winSize (s : State) (n : Nat) : Nat := winUnit * ((s.ham.win[n]?).getD { base := 0 }).size

/-! ### The event recorder (R528 to R535) -/

/-- The codes that carry a value (Table 21-2). -/
def valueCode (c : Nat) : Bool := c == 0x054 || c == 0x065 || c == 0x0B3 || c == 0x0E1 || c == 0x100

/-- The histogram bin of a value (R531). -/
def histBin (v : Nat) : Nat := if v = 0 then 0 else min 63 (Nat.log2 v + 1)

/-- One occurrence counted in a code's figures (R531). -/
def Counter.hit (c : Counter) (value time : Nat) : Counter :=
  { c with
    count := satAdd (2 ^ 64 - 1) c.count 1
    first := if c.count = 0 then time else c.first
    last := time
    min := if valueCode c.code then (if c.count = 0 then value else Nat.min c.min value) else 0
    max := if valueCode c.code then (if c.count = 0 then value else Nat.max c.max value) else 0
    hist := if valueCode c.code then
        updAt (histBin value) (fun n => satAdd (2 ^ 32 - 1) n 1) (if c.hist = [] then List.replicate 64 0 else c.hist)
      else [] }

/-- The figures of a code in a list of counters. -/
def counterOf (l : List Counter) (code : Nat) : Counter := (l.find? (fun c => c.code == code)).getD { code := code }

/-- A code's figures replaced; the codes of the list rise. -/
def putCounter (c : Counter) : List Counter → List Counter
  | [] => [c]
  | x :: xs => if c.code < x.code then c :: x :: xs else if c.code = x.code then c :: xs else x :: putCounter c xs

/-- One occurrence in the live and the epoch figures (R531, R532). -/
def countFigures (code value time : Nat) (s : State) : State :=
  { s with
    evr.live := putCounter ((counterOf s.evr.live code).hit value time) s.evr.live
    evr.epoch := putCounter ((counterOf s.evr.epoch code).hit value time) s.evr.epoch }

/-- The number of records region 1 holds (R535). -/
abbrev evrCap : Nat := 2097152

/-- Whether the recorder writes records as they fall due (Table 21-8). -/
def evrWrites (s : State) : Bool := s.evr.recording && !s.evr.full && !s.evr.clearing && !s.pwr.doze

/-- A record falls due: it is written, held while the recorder does not yet write (Coil not ready, Doze, a clear), or
counted in EVR_OVERFLOW once the region is full, whose filling counts code 0x002 once (R535, R536). -/
def evrRecord (r : EvrRec) (s : State) : State :=
  if s.evr.full then { s with evr.overflow := s.evr.overflow + 1 }
  else if !evrWrites s then { s with evr.heldRecs := s.evr.heldRecs ++ [r] }
  else
    let s := { s with nv.evrRecs := s.nv.evrRecs ++ [{ r with gen := s.nv.evrGen }] }
    if s.nv.evrRecs.length < evrCap then s
    else countFigures 0x002 0 s.now { s with evr.full := true, evr.recording := false }

/-- The extreme record of a value code's occurrence, when it sets a new live maximum or minimum (R533). -/
def extremeOf (before : Counter) (code value time : Nat) (s : State) : Option EvrRec :=
  let mk := fun (kind prev : Nat) => some
    { kind := kind, code := code, epoch := s.evr.epochNum, boot := s.nv.bootCounter, mono := s.now, lossy := s.evr.lossy,
      body := [value, prev, time, satAdd (2 ^ 64 - 1) before.count 1] }
  if !valueCode code then none
  else if before.count = 0 then mk 2 0
  else if before.max < value then mk 2 before.max
  else if value < before.min then mk 3 before.min
  else none

/-- The extreme records of a code written in the whole second of a time (R533). -/
def extThisSecond (s : State) (code : Nat) : Nat :=
  match s.evr.extWritten.find? (fun e => e.1 == code && e.2.1 == s.now / 1000000000) with
  | some e => e.2.2
  | none => 0

/-- An extreme record written, or suppressed beyond PID 0x0F01 in this second (R533). -/
def evrExtreme (code : Nat) (r : EvrRec) (s : State) : State :=
  if extThisSecond s code < pidVal s 0x0F01 then
    evrRecord r { s with evr.extWritten :=
      (code, s.now / 1000000000, extThisSecond s code + 1) :: s.evr.extWritten.filter (fun e => e.1 != code) }
  else
    { s with
      evr.extSuppr := satAdd (2 ^ 32 - 1) s.evr.extSuppr 1
      evr.epoch := updWhere (fun c => c.code == code) (fun c => { c with suppressed := c.suppressed + 1 }) s.evr.epoch }

/-- The recorder takes one notice: the figures, and the extreme record if there is one. -/
def takeNotice (code value time : Nat) (s : State) : State :=
  let before := counterOf s.evr.live code
  let s' := countFigures code value time s
  match extremeOf before code value time s with
  | none => s'
  | some r => evrExtreme code r s'

/-- The notices that the region 15 ring holds (R530). -/
abbrev noticeCap : Nat := 4194304

/-- An occurrence is posted to the region 15 ring and the recorder takes what the ring holds; a notice that finds the
ring full is dropped, counted and marks the epoch lossy (R530; DESIGN CHOICE, log 13: the recorder takes notices in
the step that posts them). -/
def countEvent (code value : Nat) (s : State) : State :=
  let s := if s.evr.staged.length < noticeCap then { s with evr.staged := s.evr.staged ++ [(code, value, s.now)] }
    else { s with evr.stageDrop := satAdd (2 ^ 32 - 1) s.evr.stageDrop 1, evr.lossy := true }
  let ring := s.evr.staged
  ring.foldl (fun s n => takeNotice n.1 n.2.1 n.2.2 s) { s with evr.staged := [] }

/-- The records held on-die are written in order, once the recorder writes again (R535, R536). -/
def evrFlush (s : State) : State :=
  if evrWrites s then s.evr.heldRecs.foldl (fun s r => evrRecord r s) { s with evr.heldRecs := [] } else s

/-- A code counted when a condition holds. -/
def countIf (c : Bool) (code : Nat) (s : State) : State := if c then countEvent code 0 s else s

/-! ### Connections, and what leaves on them (R226 to R244) -/

/-- The sub-port `k`. -/
def subPort (s : State) (k : Nat) : SubPort := (s.hfe.subs[k]?).getD {}

/-- A sub-port's transmitters run: it exists, PORT_ENABLE has enabled it, the device is not fail-silent (R176, Table 20-4). -/
def subRuns (s : State) (k : Nat) : Bool := subExists s k && (subPort s k).enabled && !s.saf.failSilent

/-- A sub-port carries packets. -/
def subUp (s : State) (k : Nat) : Bool := subRuns s k && (subPort s k).linkUp

/-- The addressing block of a sub-port (Table 07-2). -/
def subBlock (s : State) (k : Nat) : List Byte := pidBlock s (0x0440 + k)

/-- A sub-port's flags select IPv6. -/
def subV6 (s : State) (k : Nat) : Bool := bit (numAt (subBlock s k) 11 1) 2

/-- The connection with a number. -/
def connOf (s : State) (n : Nat) : Option Conn := s.rma.conns.find? fun c => c.num == n

/-- A connection changed. -/
def updConn (n : Nat) (f : Conn → Conn) (s : State) : State := { s with rma.conns := updWhere (fun c => c.num == n) f s.rma.conns }

/-- Two or more paths (R239). -/
def multipath (c : Conn) : Bool := decide (2 ≤ c.paths.length)

/-- A connection moves to the error state. -/
def errorConn (n : Nat) (s : State) : State := updConn n (fun c => { c with state := 4, write := none }) s

/-- The path that the connection's next packet takes: its paths in turn, one whose sub-port is link-down being skipped. -/
def pathFor (s : State) (c : Conn) : Option Nat :=
  if c.paths = [] then (if subUp s c.sub then some 0 else none)
  else ((List.range c.paths.length).map fun i => (c.nextPath + i) % c.paths.length).find? fun k =>
    match c.paths[k]? with | some p => subUp s p.1 | none => false

/-- An ESP packet (R233, RFC 4303, RFC 4106): SPI, sequence number, the 64-bit number as explicit IV, the payload with its trailer
encrypted under the outbound key and salt, the ICV. -/
def espBytes (a : SaPair) (num next : Nat) (payload : List Byte) : List Byte :=
  let pad := (4 - (payload.length + 2) % 4) % 4
  let plain := payload ++ (List.range pad).map (fun k => BitVec.ofNat 8 (k + 1)) ++ [BitVec.ofNat 8 pad, BitVec.ofNat 8 next]
  let key := bytesAt a.keys 36 32
  let nonce := bytesAt a.keys 68 4 ++ beBytes 8 num
  let aad := beBytes 4 a.spiOut ++ beBytes 8 num
  beBytes 4 a.spiOut ++ beBytes 4 num ++ beBytes 8 num ++ Config.cipher 1 false key nonce aad plain ++ Config.gcmTag key nonce aad plain

/-- A packet of a connection leaves, in ESP where it has an SA: the number that reaches PID 0x0605 sets rekey_due, once for each SA;
past 2^64 - 1 the connection is in error (R233, R236). `next` is 17 for UDP, 6 for TCP; the datagram or segment inside is given as the
model's own bytes (DESIGN CHOICE, log 60). -/
def sealPacket (n path next : Nat) (inner : List Byte) (plain : Out) (s : State) : State :=
  match (connOf s n).bind (·.sa) with
  | none => emit plain s
  | some a =>
    if 2 ^ 64 ≤ a.outNum + 1 then errorConn n s
    else
      let due : Bool := decide (pidVal s 0x0605 ≤ a.outNum + 1) && !a.rekeyWarned
      let a := { a with outNum := a.outNum + 1, rekeyWarned := a.rekeyWarned || due }
      countIf due 0x067 (emit (.esp n path a.spiOut a.outNum (espBytes a a.outNum next inner))
        (updConn n (fun c => { c with sa := some a, rekeyDue := c.rekeyDue || due }) s))

/-- The MPETH of a packet, its path index still zero (Table 09-4). -/
def mpethBytes (msn offset : Nat) (first last : Bool) : List Byte :=
  leBytes 3 msn ++ leBytes 1 (flagAt last 3 + flagAt first 4) ++ leBytes 2 offset ++ zeros 2

/-- The path index put into a packet's MPETH. -/
def withPath (p : Nat) (b : List Byte) : List Byte := b.take 3 ++ leBytes 1 (numAt b 3 1 / 8 * 8 + p % 8) ++ b.drop 4

/-- A RoCEv2 packet of a connection leaves on the path in turn (R239, R240). Without a link nothing leaves. -/
def txPacket (n kind psn : Nat) (bytes : List Byte) (s : State) : State :=
  match connOf s n with
  | none => s
  | some c =>
    match pathFor s c with
    | none => s
    | some p =>
      let body := if multipath c then withPath p bytes else bytes
      sealPacket n p 17 (leBytes 2 kind ++ leBytes 4 psn ++ body) (.roce n p kind psn body)
        (updConn n (fun c => { c with nextPath := (p + 1) % max 1 c.paths.length, lastUse := s.now }) s)

/-- A message of the IB CM leaves on a connection (R236). -/
def cmSend (n kind reason : Nat) (s : State) : State := sealPacket n 0 17 (leBytes 1 kind ++ leBytes 1 reason) (.cm n kind reason) s

/-- A TCP segment leaves on a connection (R233, R236). -/
def tcpSend (n kind : Nat) (s : State) : State := sealPacket n 0 6 (leBytes 1 kind) (.tcp n kind) s

/-- A message cut into packets of the path MTU; one without bytes is one packet. -/
def mtuParts (mtu : Nat) (b : List Byte) : List (List Byte) :=
  (List.range (max 1 (ceilDiv b.length (max 1 mtu)))).map fun i => (b.drop (max 1 mtu * i)).take (max 1 mtu)

/-- The kind of a packet of a message: First, Middle, Last, or Only (Table 09-1). -/
def partKind (only i n : Nat) : Nat :=
  if n = 1 then only
  else
    let first := if only = 0x104 then 0x100 else if only = 0x10A then 0x106 else 0x10D
    if i = 0 then first else if i + 1 = n then first + 2 else first + 1

/-- The packets of a message: a request that carries only its RETH is one; a WRITE's first packet carries its RETH before the data. -/
def messageParts (mtu kind : Nat) (bytes : List Byte) : List (List Byte) :=
  if kind = 0x10C then [bytes]
  else if kind = 0x10A then (match mtuParts mtu (bytes.drop 16) with | p :: ps => (bytes.take 16 ++ p) :: ps | [] => [])
  else mtuParts mtu bytes

/-- The PSNs that a message takes: those of its packets; a READ's, of its response. -/
def messagePsns (mtu kind : Nat) (bytes : List Byte) : Nat :=
  if kind = 0x10C then max 1 (ceilDiv (leNat (bytesAt bytes 12 4).reverse) (max 1 mtu)) else (messageParts mtu kind bytes).length

/-- A packet ends its message. -/
def lastKind (kind : Nat) : Bool := kind == 0x102 || kind == 0x104 || kind == 0x108 || kind == 0x10A || kind == 0x10C

/-- A message leaves, packet by packet, each kept until it is acknowledged; on a multipath connection every packet is an Only with an
MPETH (R239, R240, R242). -/
def sendParts (n kind : Nat) (bytes : List Byte) (c : Conn) (s : State) : State :=
  let parts := messageParts c.mtu kind bytes
  let s := parts.zipIdx.foldl (fun s e =>
    let psn := (c.sendPsn + e.2) % 2 ^ 24
    let k := if multipath c then kind else partKind kind e.2 parts.length
    let body := (if multipath c then mpethBytes c.sendMsn e.2 (e.2 == 0) (e.2 + 1 == parts.length) else []) ++ e.1
    txPacket n k psn body (updConn n (fun c => { c with
      sent := c.sent ++ [(psn, k, body)], oldestAt := if c.sent = [] then s.now else c.oldestAt }) s)) s
  updConn n (fun c => { c with
    sendPsn := (c.sendPsn + messagePsns c.mtu kind bytes) % 2 ^ 24, sendMsn := (c.sendMsn + 1) % 2 ^ 24 }) s

/-- A message needs a credit: a SEND on class 0, every message on classes 2 and 3 (R243). -/
def needsCredit (c : Conn) (kind : Nat) : Bool := c.cls != 0 || kind == 0x104

/-- Requests that wait leave while the context is on-die and the remote's credits allow a message (R229, R244). -/
def pumpConn : Nat → Nat → State → State
  | 0, _, s => s
  | fuel + 1, n, s =>
    match connOf s n with
    | none => s
    | some c =>
      match c.txQ with
      | [] => s
      | m :: rest =>
        if c.state ≠ 2 ∨ !c.onDie ∨ (needsCredit c m.1 ∧ c.creditsLeft = 0) then s
        else
          let s := updConn n (fun c => { c with txQ := rest, creditsLeft := c.creditsLeft - flagAt (needsCredit c m.1) 0 }) s
          pumpConn fuel n (sendParts n m.1 m.2 c s)

/-- The messages a pump can start at most. -/
def pumpFuel (s : State) (n : Nat) : Nat := match connOf s n with | some c => c.txQ.length | none => 0

/-- The device's own request on a connection: kind 256 plus the BTH opcode. -/
def sendMessage (n kind : Nat) (bytes : List Byte) (s : State) : State :=
  let s := updConn n (fun c => { c with txQ := c.txQ ++ [(kind, bytes)] }) s
  pumpConn (pumpFuel s n) n s

/-! ### Messages to the peer (R438, R440) -/

/-- The frames of a message to the peer (Table 17-1), in the layout of Table 16-1; its arguments are given as 8-byte numbers (DESIGN CHOICE,
log 45). -/
def peerFrames (code : Nat) (args : List Nat) (bytes : List Byte) (dataLen : Nat) : List (List Byte) :=
  let first := (args.map (leBytes 8)).flatten ++ bytes.take (bytes.length - dataLen)
  let data := bytes.drop (bytes.length - dataLen)
  frameBytes 0 (frameHead 1 0 false first.length 0 code 0 0) first ::
    (dataFrames dataLen).zipIdx.map fun e =>
      frameBytes 0 (frameHead 3 0 (e.2 + 1 == (dataFrames dataLen).length) e.1 0 code (4096 * e.2) 0) (bytesAt data (4096 * e.2) e.1)

/-- Frames leave over the class 3 connection, each as one RDMA SEND, under its credits and its SA (R440, R243). -/
def overConn (frames : List (List Byte)) (s : State) : State :=
  match s.rma.conns.find? fun c => c.cls == 3 && c.state == 2 with
  | none => s
  | some c => frames.foldl (fun s b => sendMessage c.num 0x104 b s) s

/-- A message to the peer: over the link, or over the class 3 connection while the link is down (R438, R440); in
fail-silence nothing is sent (R520). The table has no row for the peer link's acknowledgements and credits: every message
leaves at once (log 45). -/
def sendPeer (code : Nat) (args : List Nat) (bytes : List Byte) (dataLen : Nat) (s : State) : State :=
  if s.saf.failSilent || !peerPath s then s
  else if s.hdl.linkUp then emit (.peerMsg code args bytes) (countFrames (1 + (dataFrames dataLen).length) s)
  else overConn (peerFrames code args bytes dataLen) s

/-- A response to the peer's request (Table 17-1). -/
def respondPeer (tag status detail value : Nat) (bytes : List Byte) (s : State) : State :=
  if s.saf.failSilent || !peerPath s then s
  else if s.hdl.linkUp then emit (.peerResp tag status detail value bytes) (countFrames 1 s)
  else
    let head := (frameHead 2 0 false bytes.length tag 0 0 0).take 16 ++ leBytes 2 status ++ leBytes 2 detail ++ leBytes 4 value ++ zeros 4
    overConn [frameBytes 0 head bytes] s

/-! ### Border: capacity, entries (R132 to R138) -/

/-- The entries the audit ring holds (R132). -/
abbrev auditCap : Nat := 1048576

/-- Undrained entries. -/
def undrained (s : State) : Nat := s.nv.chain.length - s.nv.drain

/-- The free count of R137. -/
def auditFree (s : State) : Nat := auditCap - undrained s

/-- Wall time now, zero while it is not valid (R146). -/
def wallNow (s : State) : Nat := if s.brd.wallValid then s.brd.wallBase + (s.now - s.brd.wallAt) else 0

/-- The 128 bytes of an audit entry at a chain sequence (Table 05-6). -/
def entryBytes (e : AuditEntry) (seq : Nat) : List Byte :=
  let head := [0x61, 0x01, BitVec.ofNat 8 e.kind, BitVec.ofNat 8 e.flags] ++ leBytes 4 e.session ++ leBytes 8 seq ++
    leBytes 8 e.boot ++ leBytes 8 e.mono ++ leBytes 8 e.wall ++ leBytes 2 e.requester ++ leBytes 2 e.opcode ++
    leBytes 2 e.status ++ leBytes 2 e.detail ++ leBytes 4 e.cmdSeq ++ padTo 24 e.param ++ padTo 48 e.prevHash
  head ++ leBytes 4 (crc32c head)

/-- The SHA-384 of the last entry, zero before entry 0 (Table 05-6). -/
def lastHash (s : State) : List Byte :=
  match s.nv.chain.getLast? with
  | none => zeros 48
  | some e => Config.sha384 (entryBytes e (s.nv.chain.length - 1))

/-- The undrained count lies above the near-full threshold (R138). -/
def aboveNear (s : State) (n : Nat) : Bool := decide (auditCap * pidVal s 0x0101 < 100 * n)

/-- The next append crosses the near-full threshold (R138). -/
def crossesNear (s : State) : Bool := !aboveNear s (undrained s) && aboveNear s (undrained s + 1)

/-- An entry appended to the chain, durable: its sequence is the chain's length, its previous hash the hash of the
entry before (R132); crossing the threshold sets near_full and counts code 0x030 (R138). -/
def appendEntry (e : AuditEntry) (s : State) : State :=
  let crossed := crossesNear s
  let s := { s with nv.chain := s.nv.chain ++ [{ e with prevHash := lastHash s }] }
  if crossed then countEvent 0x030 0 { s with brd.nearFull := true } else s

/-- The status of a successful command whose entry crosses the threshold becomes OK.WARN with detail 0x030, unless it
is OK.WARN already (R138). -/
def nearStatus (s : State) (status detail : Nat) : Nat × Nat :=
  if crossesNear s && isSuccess status && status != stOkWarn then (stOkWarn, 0x030) else (status, detail)

/-- An entry of this boot that waited takes the time of its append; one carried over a reset keeps the time at which it was prepared
(Table 05-6, R137). -/
def restamp (s : State) (e : AuditEntry) : AuditEntry :=
  if e.boot = s.nv.bootCounter then
    { e with mono := s.now, wall := wallNow s,
             flags := e.flags / 4 * 4 + flagAt s.brd.wallValid 0 + flagAt (s.brd.wallValid && s.brd.wallPtp) 1 }
  else e

/-- An entry of this moment and boot. -/
def freshEntry (kind : Nat) (s : State) : AuditEntry :=
  { kind := kind, boot := s.nv.bootCounter, mono := s.now, wall := wallNow s,
    flags := flagAt s.brd.wallValid 0 + flagAt (s.brd.wallValid && s.brd.wallPtp) 1 }

/-- A Border event of a code: appended at once; kept for later while the boot's counter is not yet durable (R129) or
while the free count is 16 or less, or entries already wait (R137). -/
def borderEvent (code : Nat) (param : List Byte) (s : State) : State :=
  let e := { freshEntry 3 s with opcode := code, param := padTo 24 param }
  if !s.brd.counterDone then { s with brd.early := s.brd.early ++ [e] }
  else if auditFree s ≤ 16 ∨ s.nv.waitingEntries ≠ [] then { s with nv.waitingEntries := s.nv.waitingEntries ++ [(e, none)] }
  else appendEntry e s

/-- The entry 0xFF01 of a partner measured after the seal waits: the partner carries no data (R80, R131). -/
def lateWaits (s : State) (comp : Nat) : Bool :=
  s.nv.waitingEntries.any fun w => w.1.kind == 3 && w.1.opcode == 0xFF01 && w.1.boot == s.nv.bootCounter && numAt w.1.param 0 1 == comp

/-! ### PLEM rings and statuses (R91, R96) -/

/-- The ring `n`. -/
def ringOf (s : State) (n : Nat) : Ring := (s.plem.rings[n]?).getD {}

/-- A ring changed. -/
def updRing (n : Nat) (f : Ring → Ring) (s : State) : State := { s with plem.rings := updAt n f s.plem.rings }

/-- Entries of a ring's parts (R85, R87). -/
def ringSize (n : Nat) (r : Ring) : Nat := if n < 60 then 2 ^ r.sizeLog2 else if n = 62 then 64 else 16

/-- The completion part is full (R91). Rings 60 to 62 are device-internal: their statuses leave at once, so theirs is never. -/
def cplFull (n : Nat) (r : Ring) : Bool := decide (n < 60) && (r.cqTail + 1) % ringSize n r == r.cqHead

/-- The completion tail moves on; the phase inverts when it wraps to index 0 (R96). Of a device-internal ring the status has been
taken at once. -/
def nextCpl (n : Nat) (r : Ring) : Ring :=
  let tail := (r.cqTail + 1) % ringSize n r
  { r with cqTail := tail, cqHead := if n < 60 then r.cqHead else tail, phase := if tail = 0 then !r.phase else r.phase }

/-- One status packet placed in the completion part, with its interrupt; over MCTP it goes to the BMC (R96, R104). -/
def placeStatus (n : Nat) (pkt : StatusPkt) (noIrq : Bool) (s : State) : State :=
  let r := ringOf s n
  let s := if n < 60 then emit (.status n r.phase pkt) s else sendMctp (.status n r.phase pkt) s
  let s := if n < 60 && r.irqEn && !noIrq then emit (.irq n) s else s
  updRing n (nextCpl n) s

/-- A status posted, or held in order while the completion part is full (R91). -/
def postStatus (n : Nat) (pkt : StatusPkt) (noIrq : Bool) (s : State) : State :=
  let r := ringOf s n
  if cplFull n r || r.held != [] then updRing n (fun r => { r with held := r.held ++ [(pkt, noIrq)] }) s
  else placeStatus n pkt noIrq s

/-- The commands of a ring that have been taken and not completed. -/
def ringCmds (s : State) (n : Nat) : List Cmd := s.plem.cmds.filter (fun c => c.ring == n)

/-- A command leaves the list of taken commands. -/
def dropCmd (c : Cmd) (s : State) : State := { s with plem.cmds := s.plem.cmds.filter fun x => x.uid != c.uid }

/-- The status of a taken command is discarded: its ring was disabled or reset since (R68, R93). -/
def discarded (c : Cmd) (s : State) : Bool := c.discard || s.plem.cmds.any (fun x => x.uid == c.uid && x.discard)

/-- The no_irq flag of a packet (Table 04-6). -/
def cmdNoIrq (c : Cmd) : Bool := bit (numAt c.packet 2 1) 2

/-- The 32 bytes of a status packet (Table 04-7). -/
def statusBytes (p : StatusPkt) (phase : Bool) : List Byte :=
  leBytes 4 p.sequence ++ leBytes 2 p.status ++ leBytes 2 p.detail ++ leBytes 8 p.result ++ leBytes 8 p.time ++
    leBytes 2 p.opcode ++ [BitVec.ofNat 8 (flagAt phase 0 + flagAt p.audited 1 + flagAt p.output 2), 0] ++
    leBytes 4 p.auditSeq

/-- Output written before the status (R92): to head-processor memory. -/
def writeOutput (addr : Nat) (bytes : List Byte) (s : State) : State :=
  if bytes = [] then s else emit (.hostWrite addr bytes) s

/-- A command ends: it leaves the list, its output is written and its status posted unless it is discarded; a command
carried for the peer is answered over the peer link, its output after the status packet (R92, R93, R279; DEDUCED,
log 36: the manual gives no other way for the output). -/
def deliver (c : Cmd) (pkt : StatusPkt) (addr : Nat) (bytes : List Byte) (s : State) : State :=
  let gone := discarded c s
  let s := dropCmd c s
  match c.peerTag with
  | some t => respondPeer t pkt.status pkt.detail 0 (statusBytes pkt (ringOf s c.ring).phase ++ bytes) (updRing c.ring (nextCpl c.ring) s)
  | none => if gone then s else postStatus c.ring pkt (cmdNoIrq c) (writeOutput addr bytes s)

/-- A command without output ends. -/
def finishCmd (c : Cmd) (pkt : StatusPkt) (s : State) : State := deliver c pkt 0 [] s

/-- The status packet of a command, of this moment (Table 04-7). -/
def statusOf (c : Cmd) (status detail result : Nat) (output : Bool) (s : State) : StatusPkt :=
  { sequence := c.seq, status := status, detail := detail, result := result, time := s.now, opcode := c.opcode,
    output := output }

/-- The device's state for PLEM: 0 P, 1 S, 2 V, 3 F (Table 04-10). -/
def devState (s : State) : Nat :=
  if s.saf.failSilent then 3 else if s.boot.service then 2 else if s.boot.cfgSealed then 1 else 0

/-- A staging whose session has ended is abandoned (R161), unless a chunk of it is being programmed: the chunk's end
abandons it then. -/
def dropStaging (session : Nat) (s : State) : State :=
  match s.fw.staging with
  | none => s
  | some g => if g.session = session ∧ !s.plem.longOps.any (fun l => l.cmd.opcode == opStageImage) then
      { s with fw.staging := none } else s

/-- A session ends: its ring becomes unbound (R106). -/
def endSession (n : Nat) (s : State) : State :=
  let s := dropStaging (ringOf s n).session s
  let s := updRing n (fun r => { r with session := 0 }) s
  { s with plem.sessions := s.plem.sessions.filter (fun x => x.ring != n) }

/-- The session bound to a ring. -/
def sessionOn (s : State) (n : Nat) : Option Session := s.plem.sessions.find? (fun x => x.ring == n)

/-- The statuses of the commands taken from a ring are discarded (R68, R93). -/
def discardCmds (n : Nat) (s : State) : State :=
  { s with plem.cmds := updWhere (fun c => c.ring == n) (fun c => { c with discard := true }) s.plem.cmds }

/-! ### Fail-silence (R519 to R523) -/

/-- The cause latched: the first cause is kept; of causes of one tick the lowest class (R522, R523). -/
def latchCause (cls code : Nat) (s : State) : State :=
  let c : Cause := { valid := true, thisBoot := true, cls := cls, code := code, ns := s.now, boot := s.nv.bootCounter }
  if !s.aon.cause.valid then { s with aon.cause := c }
  else if s.aon.cause.thisBoot && s.aon.cause.ns / 1000 == s.now / 1000 && decide (cls < s.aon.cause.cls) then
    { s with aon.cause := { c with recorded := s.aon.cause.recorded }, saf.more := true }
  else { s with saf.more := true }

/-- Every transmitter of the peer link, Ethernet and Stake enters electrical idle (Table 20-4). -/
def idleLinks (s : State) : State :=
  { s with
    hdl.linkUp := false
    hfe.subs := s.hfe.subs.map fun p => { p with linkUp := false }
    stk.ports := s.stk.ports.map fun p => if p.link = 3 ∨ p.link = 4 then { p with link := 5 } else p }

/-- The last jseq of the region 3 copy that has been accepted. -/
def lastMirror (s : State) : Nat := s.nv.mirror.foldl (fun m r => max m r.jseq) s.nv.mirrorPersisted

/-- The reaction of Table 20-4: data service ends, the front ends and Coil accept nothing, accepted Coil lines are
persisted except after class 0x08, the Handle outputs fall, pairing ends (R444), FAULT_N latches, CFS is set on C0 and C1. -/
def failSilentReaction (cls : Nat) (s : State) : State :=
  let s := endSession 62 (idleLinks s)
  { s with
    saf.failSilent := true
    saf.halted := true
    saf.decisionAt := s.now
    saf.mgmtHalted := s.saf.mgmtHalted || cls == 3
    boot.service := false
    boot.frontEndsStopped := true
    col.accepting := false
    nv.persisted := if cls = 8 then s.nv.persisted else s.nv.nextJseq - 1
    nv.accept := if cls = 8 then s.nv.accept else []
    nv.mirrorPersisted := if cls = 8 then s.nv.mirrorPersisted else lastMirror s
    hdl.holder := false
    hdl.takeReq := false
    hdl.fencing := false
    hdl.paired := false
    hdl.holdOut := false
    hdl.beatOut := false
    pins.faultN := true
    aon.faultLatch := true
    evr.recording := s.evr.recording && cls != 8
    wvr.running := false
    hfe.ctrls := updWhere (fun c => decide (c.id < 2)) (fun c => { c with cfs := true }) s.hfe.ctrls }

/-- A dangerous failure is decided: event code 0x104 is counted, the cause latches, and the first decision of the boot
runs the reaction. -/
def failSilent (cls code : Nat) (s : State) : State :=
  let s := latchCause cls code (countEvent 0x104 0 s)
  if s.saf.failSilent then s else failSilentReaction cls s

/-- The first denied access since the capture was cleared is captured (R24). -/
def captureViol (v : Viol) (plane addr : Nat) (write : Bool) : Viol :=
  if v.valid then v else { valid := true, write := write, plane := plane, addr := addr }

/-! ### The sideband's bindings (R54, R77, R520) -/

/-- The sideband gives full service: the management cores run (R76, R520), neither stopped nor asleep (R75). -/
def fullService (s : State) : Bool := s.boot.sbFull && !s.boot.fastStopped && !s.saf.mgmtHalted && !s.pwr.doze

/-! ### What still runs after a stop (Table 02-12, R58, R59, R65, R72, R75, R519, R520) -/

/-- A step of the fast domains: nothing happens once all fast activity has stopped, or before it has begun. -/
def fast (s : State) (r : Result) : Result := if s.boot.fastStopped then .next s else r

/-- A step of the front ends, the links or the control cores: these stop at a fail-silent decision too. -/
def alive (s : State) (r : Result) : Result := if s.boot.fastStopped || s.saf.failSilent then .next s else r

/-- A step of the engine tiles or the control cores, which have no power in Doze (Table 03-4). -/
def engine (s : State) (r : Result) : Result := if s.boot.fastStopped || s.saf.failSilent || s.pwr.doze then .next s else r

/-- A frame received on an Ethernet port: in Doze it is dropped and counted (R75; DEDUCED, log 135: one count for the
device, which no register shows). -/
def wire (s : State) (r : Result) : Result :=
  alive s <| if s.pwr.doze then .next { s with hfe.dozeDrops := s.hfe.dozeDrops + 1 } else r

end Sys2Proof.Machine
end

