-- ==== Sys2Proof/Machine/Flags.lean ====
section
/-! DEFINITION. Status words that several rules report: AON_BOOT_STS, SAF_CAUSE, SAF_STS, BRD_AUD_STS, CLK words, and
the thermal figures (Tables 03-6, 05-16, 20-7, 20-9, 22-3). -/

namespace Sys2Proof.Machine

/-- The undrained boot records (R130): sealed records above the last drained counter, the pending one included. -/
def recUndrained (s : State) : Nat :=
  (s.nv.records.filter fun r => decide (s.nv.recDrained < r.counter)).length +
    (match s.nv.pendingRec with | some r => if s.nv.recDrained < r.counter then 1 else 0 | none => 0)

/-- All fast PLLs are locked (R71, Table 03-6; DESIGN CHOICE, log 138: core, engine, Hamper PHY and Coil PHY). -/
def fastPllsLocked (s : State) : Bool := s.boot.pll % 16 == 15

/-- AON_BOOT_STS (Table 03-6). -/
def aonBootSts (s : State) : Nat :=
  flagAt s.aon.faultLatch 31 + flagAt s.boot.pwrfailLatched 30 + flagAt s.aon.side 29 + (if s.boot.warm then 2 ^ 24 else 0) +
  flagAt s.boot.served 23 + flagAt (s.boot.coilReady && decide (recUndrained s ≤ pidVal s 0x0100)) 22 + flagAt s.boot.recSealed 21 +
  flagAt s.boot.cfgSealed 20 + flagAt s.boot.handleElig 19 + flagAt s.hdl.paired 18 + flagAt s.boot.plemReady 17 +
  flagAt s.boot.coilReady 16 + flagAt s.boot.hamperReady 15 + flagAt s.boot.sbFull 14 + flagAt s.boot.mgtRunning 13 +
  flagAt s.boot.borderId 12 + flagAt s.boot.fusesLoaded 11 + flagAt (fastPllsLocked s) 10 + flagAt s.boot.refOk 9 +
  s.boot.wavesDone % 256

/-- SAF_CAUSE (Table 20-8). -/
def safCause (s : State) : Nat :=
  flagAt s.aon.cause.valid 31 + flagAt s.aon.cause.thisBoot 30 + flagAt s.aon.cause.recorded 29 +
  s.aon.cause.cls % 256 * 2 ^ 16 + s.aon.cause.code % 1024

/-- SAF_STS (Table 20-9). -/
def safSts (s : State) : Nat :=
  flagAt s.saf.more 5 + flagAt s.saf.monitorOk 4 + flagAt s.saf.hamScrub 3 + flagAt s.saf.cfgScrub 2 +
  flagAt s.pins.faultN 1 + flagAt s.saf.failSilent 0

/-- The device is owned: the owner-root fuse field is not zero (R102). -/
def owned (s : State) : Bool := !allZero s.nv.fuses.ownerRoot

/-- BRD_AUD_STS (Table 05-16). -/
def brdAudSts (s : State) : Nat :=
  flagAt (owned s) 8 + flagAt s.nv.pendingRec.isSome 7 + flagAt (pidVal s 0x0102 == 1) 6 +
  flagAt s.brd.wallValid 5 + flagAt s.boot.recSealed 4 + flagAt s.boot.cfgSealed 3 +
  flagAt (decide (auditFree s ≤ 4096)) 2 + flagAt s.brd.nearFull 1 + flagAt s.brd.regRefused 0

/-- The hottest value and its index among the sensors that are valid and not failed (R509). -/
def hottest (s : State) : Option (Int × Nat) :=
  (s.thm.sensors.zipIdx).foldl (fun best e =>
    if e.1.valid && !e.1.failed then
      match best with
      | none => some (e.1.reading, e.2)
      | some b => if b.1 < e.1.reading then some (e.1.reading, e.2) else best
    else best) none

/-- A signed number as an unsigned field of `w` bits. -/
def signed (w : Nat) (v : Int) : Nat := (v % (2 ^ w : Int)).toNat

/-- An unsigned field of `w` bits as a signed number. -/
def unsigned (w v : Nat) : Int := if v % 2 ^ w < 2 ^ (w - 1) then (v % 2 ^ w : Nat) else ((v % 2 ^ w : Nat) : Int) - 2 ^ w

/-- The mask of failed sensors (THM_FAILED). -/
def failedSensors (s : State) : Nat :=
  (s.thm.sensors.zipIdx).foldl (fun m e => if e.1.failed then m + 2 ^ e.2 else m) 0

/-- The applied value of an actuator instance; 32,767 until a loop has driven it, 0 for the guard pressure (R502). -/
def actOf (s : State) (code inst : Nat) : Int :=
  match s.wvr.acts.find? fun a => a.1 == code && a.2.1 == inst with
  | some a => a.2.2
  | none => if code = 6 then 0 else 32767

/-- The mask of tiles out of service, as bits. -/
def tileOutMask (s : State) : Nat := s.saf.tileOut.foldl (fun m t => setBit m t) 0

end Sys2Proof.Machine
end

