-- ==== Sys2Proof/Machine/PlemOps.lean ====
section
/-! DEFINITION. How a started PLEM command runs: stage 6 of Table 04-9, the audit port's entry, statuses and the ends of
two-part operations (R111 to R113, R133 to R138). -/

namespace Sys2Proof.Machine

/-- A refusal. -/
def refuse (status detail : Nat) : Decision := { status := status, detail := detail }

/-- Plain success with a result. -/
def done (result : Nat := 0) : Decision := { result := result }

/-- Success with nothing to change. -/
def noChange (result : Nat := 0) : Decision := { status := stOkNochange, result := result }

/-- Success with output bytes for the command's buffer. -/
def answer (bytes : List Byte) (result : Nat := 0) : Decision := { result := result, bytes := bytes }

/-- The running command of a ring, sequence and opcode. -/
def opCmd (s : State) (ring seq op : Nat) : Option Cmd :=
  s.plem.cmds.find? fun c => c.ring == ring && c.seq == seq && c.running && !c.taken && c.opcode == op

/-- The bytes of a little-endian field of a command packet. -/
def pk (c : Cmd) (off n : Nat) : Nat := numAt c.packet off n

/-- An unaudited command completes: output, then its status. -/
def completePlain (c : Cmd) (d : Decision) (addr : Nat) (s : State) : State :=
  let out := if isSuccess d.status then d.bytes else []
  deliver c (statusOf c d.status d.detail d.result (out != []) s) addr out s

/-- Stage 6 of an unaudited command: its outcome is decided and its effect applied at once (R136). No running command
of that ring, sequence and opcode: nothing happens (log 15). -/
def plainOp (op : Nat) (bufOff : Nat) (decision : State → Cmd → Decision) (effect : Cmd → Decision → State → State)
    (ring seq : Nat) (s : State) : Result :=
  match opCmd s ring seq op with
  | none => .next s
  | some c =>
    let d := decision s c
    let s := if isSuccess d.status then effect c d s else s
    .next (completePlain c d (pk c bufOff 8) s)

/-- A command's outcome is decided: it no longer waits for stage 6. -/
def markTaken (c : Cmd) (s : State) : State :=
  { s with plem.cmds := updWhere (fun x => x.uid == c.uid) (fun x => { x with taken := true }) s.plem.cmds }

/-- Stage 6 of an audited command: its outcome is decided and the audit port takes it; while the port holds an earlier
item the command waits (R113, R134). -/
def auditedOp (op : Nat) (decision : State → Cmd → Decision) (ring seq : Nat) (s : State) : Result :=
  match opCmd s ring seq op with
  | none => .next s
  | some c => if s.brd.port ≠ [] then .next s else .next (markTaken c { s with brd.port := [.command c (decision s c)] })

/-- A command refused before it started joins the port's queue for its entry (R15, R111). -/
def holdCommand (c : Cmd) (d : Decision) (s : State) : State :=
  let c := { c with running := true, taken := true }
  { s with brd.port := s.brd.port ++ [.command c d], plem.cmds := s.plem.cmds ++ [c] }

/-- The session field of a command's entry (Table 05-6): the session, or origin and ring with serial 0. -/
def entrySession (c : Cmd) : Nat :=
  if c.session ≠ 0 then c.session
  else (if c.ring < 60 then 1 else if c.ring < 62 then 2 else 3) * 2 ^ 28 + c.ring * 2 ^ 22

/-- The length of a parameter block before its signature block (R133). -/
def unsignedLen (c : Cmd) : Nat :=
  if bit (pk c 2 1) 0 && decide (4 ≤ c.block.length) then min (numAt c.block (c.block.length - 4) 4) c.block.length
  else c.block.length

/-- The role a command's entry records (Table 05-7). -/
def entryRole (c : Cmd) : Nat :=
  if c.opcode = opSessionOpen then (if 1 ≤ pk c 24 1 ∧ pk c 24 1 ≤ 4 then pk c 24 1 else 0) else c.role

/-- The entry of kind 0x01 of a command's outcome (Table 05-6, R133). -/
def commandEntry (s : State) (c : Cmd) (status detail session : Nat) (started : Bool) : AuditEntry :=
  let e := freshEntry 1 s
  { e with
    flags := e.flags + flagAt c.dualOk 2 + flagAt (!isSuccess status) 3 + entryRole c * 16 + flagAt started 7
    session := session
    requester := if c.ring = 60 ∨ c.ring = 61 then (ringOf s c.ring).eid % 256 else 0
    opcode := c.opcode
    status := status
    detail := detail
    cmdSeq := c.seq
    param := (Config.sha384 (c.packet ++ c.block.take (unsignedLen c))).take 24 }

/-- An AUDIT_DRAIN drains at least one entry (R137): above the drained point, durable, and its hash matches. -/
def drainsOne (s : State) (seq : Nat) (hash : List Byte) : Bool :=
  decide (s.nv.drain ≤ seq) && (match s.nv.chain[seq]? with
    | some e => Config.sha384 (entryBytes e seq) == hash
    | none => false)

/-- The capacity tiers of Table 05-9 for a command. -/
def tierAllows (s : State) (op role openRole : Nat) (drains : Bool) : Bool :=
  let f := auditFree s
  let auditorOpen := op == opSessionOpen && openRole == 3
  if 4096 < f then true
  else if 17 ≤ f then role == 3 || auditorOpen
  else if 1 ≤ f then (op == opAuditDrain && drains) || auditorOpen
  else op == opAuditDrain && drains

/-- The tier check of a taken command. -/
def cmdTier (s : State) (c : Cmd) : Bool :=
  tierAllows s c.opcode c.role (pk c 24 1) (drainsOne s (pk c 24 8) (c.block.take 48))

/-- The param of a kind 0x04 entry: the final status packet's digest, with phase 0 (R133). -/
def endParam (pkt : StatusPkt) : List Byte := (Config.sha384 (statusBytes pkt false)).take 24

/-- A command that the peer carried here: the head that received it appends its entries (R279). -/
def carriedHere (c : Cmd) : Bool := c.peerTag.isSome && c.session == 0

/-- A two-part operation ends (R135): its final status in an entry of kind 0x04, then posted; while the free count is 16
or less the entry waits and the status is held (R137). -/
def endTwoPart (c : Cmd) (status detail result : Nat) (output : Bool) (s : State) : State :=
  if carriedHere c then finishCmd c (statusOf c status detail result output s) s else
  let n := nearStatus s status detail
  let waits := decide (auditFree s ≤ 16) || s.nv.waitingEntries != []
  let status := if waits then status else n.1
  let detail := if waits then detail else n.2
  let pkt := { statusOf c status detail result output s with audited := true, auditSeq := s.nv.chain.length % 2 ^ 32 }
  let e := freshEntry 4 s
  let e := { e with
    flags := e.flags + flagAt c.dualOk 2 + flagAt (!isSuccess status) 3 + c.role * 16
    session := entrySession c
    requester := if c.ring = 60 ∨ c.ring = 61 then (ringOf s c.ring).eid % 256 else 0
    opcode := c.opcode, status := status, detail := detail, cmdSeq := c.seq
    param := endParam pkt }
  if waits then
    { s with nv.waitingEntries := s.nv.waitingEntries ++ [(e, some pkt)], brd.heldEnds := s.brd.heldEnds ++ [(c, pkt)] }
  else finishCmd c pkt (appendEntry e s)

/-- The long operation of an opcode that runs (R113). -/
def longOpOf (s : State) (op : Nat) : Option LongOp := s.plem.longOps.find? (fun l => l.cmd.opcode == op)

/-- A long operation begins. -/
def startLongOp (c : Cmd) (arg : Nat) (s : State) : State :=
  { s with plem.longOps := s.plem.longOps ++ [{ cmd := c, started := s.now, arg := arg }] }

/-- The long operation of an opcode ends with a status, after its output; nothing when none runs. -/
def endLongOpOut (op status detail result addr : Nat) (bytes : List Byte) (s : State) : State :=
  match longOpOf s op with
  | none => s
  | some l =>
    let s := { s with plem.longOps := s.plem.longOps.filter (fun x => x.cmd.opcode != op) }
    endTwoPart l.cmd status detail result (bytes != []) (writeOutput addr bytes s)

/-- The long operation of an opcode ends with a status and no output. -/
def endLongOp (op status detail result : Nat) (s : State) : State := endLongOpOut op status detail result 0 [] s

/-- A command that ends in a later step of its own leaves its recorded place: the status and detail that its entry recorded post now,
with that entry's audit_seq (R138). -/
def finishDeferred (op result : Nat) (output : Bool) (s : State) : State :=
  match s.plem.deferred.find? (fun d => d.1.opcode == op) with
  | none => s
  | some d =>
    let e := (s.nv.chain[d.2]?).getD { kind := 1 }
    let s := { s with plem.deferred := s.plem.deferred.filter (fun x => x.1.opcode != op) }
    finishCmd d.1 { statusOf d.1 e.status e.detail result output s with audited := true, auditSeq := d.2 % 2 ^ 32 } s

/-- One command that waited after its entry posts its status, detail and result. -/
def finishUid (uid : Nat) (p : Nat × Nat × Nat) (s : State) : State :=
  match s.plem.deferred.find? fun d => d.1.uid == uid with
  | none => s
  | some d =>
    finishCmd d.1 { statusOf d.1 p.1 p.2.1 p.2.2 false s with audited := true, auditSeq := d.2 % 2 ^ 32 }
      { s with plem.deferred := s.plem.deferred.filter fun x => x.1.uid != uid }

end Sys2Proof.Machine
end

