-- ==== Sys2Proof/Machine/Border.lean ====
section
/-! DEFINITION. Border: identity, measurements, boot records, the audit commands, time (R122 to R151). -/

namespace Sys2Proof.Machine

/-! ### Identity and measurements (R123 to R126) -/

/-- The measurement of a component or partner, if taken (R126). -/
def measOf (s : State) (comp : Nat) : Option Meas := s.brd.meas.find? (fun m => m.comp == comp)

/-- A measurement recorded; a new one replaces the old. -/
def recordMeas (m : Meas) (s : State) : State :=
  { s with brd.meas := s.brd.meas.filter (fun x => x.comp != m.comp) ++ [m] }

/-- m_x ‖ svn_x of a component (R124). -/
def measPart (s : State) (comp : Nat) : List Byte :=
  match measOf s comp with
  | none => zeros 49
  | some m => padTo 48 m.hash ++ [BitVec.ofNat 8 m.svn]

/-- The unique device secret (R123). -/
def udsOf (s : State) : List Byte := Config.hmac384 s.nv.fuses.uds Config.unclonable

/-- CDI_1 (R124). -/
def cdi1 (s : State) : List Byte := Config.hmac384 (udsOf s) (Config.sha384 (measPart s 1 ++ measPart s 2))

/-- CDI_2, from the CDI_1 that ROM left (R124). -/
def cdi2 (s : State) : List Byte :=
  Config.hmac384 s.brd.cdi1 (Config.sha384 (measPart s 3 ++ measPart s 4 ++ measPart s 5))

/-- The DeviceID private key (Table 05-2). -/
def devIdKey (s : State) : List Byte := Config.ecKey (udsOf s) [0]

/-- The FwID private key (Table 05-2). -/
def fwIdKey (s : State) : List Byte := Config.ecKey s.brd.cdi1 [1]

/-- A measurement and the version of the image, as a certificate carries them (R124). -/
def certPart (s : State) (comp : Nat) : List Byte :=
  match measOf s comp with
  | none => zeros 52
  | some m => padTo 48 m.hash ++ leBytes 4 m.version

/-- The Alias private key of this boot (Table 05-2). -/
def aliasKey (s : State) : List Byte := Config.ecKey (cdi2 s ++ leBytes 8 s.nv.bootCounter) [2]

/-- The FwID certificate, issued by the DeviceID key (Table 05-2): its key is CDI_1's. -/
def newFwIdCert (s : State) : List Byte :=
  Config.x509 (devIdKey s) (Config.ecPublic (Config.ecKey (cdi1 s) [1]))
    (leBytes 8 s.nv.fuses.dieSerial ++ certPart s 1 ++ certPart s 2)

/-- The Alias certificate, issued by the FwID key (Table 05-2). -/
def aliasCert (s : State) : List Byte :=
  Config.x509 (fwIdKey s) (Config.ecPublic (aliasKey s))
    (leBytes 8 s.nv.fuses.dieSerial ++ certPart s 3 ++ certPart s 4 ++ certPart s 5 ++ leBytes 8 s.nv.bootCounter)

/-- The DeviceID certificate in the boot flash's identity area (R124, Table 06-2). -/
def flashDevIdCert (s : State) : List Byte := (s.nv.flash.identity.drop 2).take (numAt s.nv.flash.identity 0 2)

/-- The certificates of slot 0, leaf first (Table 05-11). -/
def certChain (s : State) : List Byte := aliasCert s ++ s.brd.fwIdCert ++ s.brd.devIdCert ++ Config.caCert

/-- ROM's layer ends: with its paths open, Border derives CDI_1 and issues the FwID certificate, ROM accepts the DeviceID
certificate whose SHA-384 the fuses hold, and the paths close (R123, R124). -/
def romLayerEnds (s : State) : State :=
  if s.brd.udsOpen then
    { s with
      brd.cdi1 := cdi1 s, brd.fwIdCert := newFwIdCert s
      brd.devIdCert := if Config.sha384 (flashDevIdCert s) = s.nv.fuses.devidCertHash then flashDevIdCert s else []
      brd.udsOpen := false }
  else s

/-- The Alias key is derived once CTL, WVM and SDS are measured and the counter is durable (R124, R129). -/
def deriveAlias (s : State) : State :=
  if s.brd.counterDone && (measOf s 3).isSome && (measOf s 4).isSome && (measOf s 5).isSome then { s with brd.aliasReady := true } else s

/-! ### Boot records (R127 to R131) -/

/-- The 56 bytes of a measurement entry (Table 05-5). -/
def measBytes (comp : Nat) (m : Meas) (late : Bool) : List Byte :=
  [BitVec.ofNat 8 comp, BitVec.ofNat 8 m.slot,
   BitVec.ofNat 8 (flagAt m.fallback 0 + flagAt m.absent 1 + flagAt m.belowFloor 2 + flagAt late 3),
   BitVec.ofNat 8 m.svn] ++ leBytes 4 m.version ++ (if m.absent || late then zeros 48 else padTo 48 m.hash)

/-- The component code of entry `k` of a boot record (Table 05-5). -/
def entryComp (k : Nat) : Nat := if k < 5 then k + 1 else if k = 5 then 6 else 0x40 + (k - 6)

/-- Bytes 96 to 4,015: the 70 entries (Table 05-3). -/
def entriesBytes (ms : List Meas) : List Byte :=
  ((List.range 70).map fun k =>
    match ms.find? (fun m => m.comp == entryComp k) with
    | some m => measBytes (entryComp k) m m.late
    | none => measBytes (entryComp k) { slot := if k = 5 then 0xFF else 0 } true).flatten

/-- Bytes 0 to 8,095 of a boot record with its crc field at a value (Table 05-3). -/
def recordBody (r : BootRecord) (crc : Nat) : List Byte :=
  [0x61, 0x02, 0x01, 0x00] ++
  leBytes 4 (flagAt r.fallback 0 + flagAt r.warm 1 + flagAt r.packTimeout 2 + flagAt r.peerTimeout 3 + flagAt r.side 4 +
    flagAt r.pending 5) ++
  leBytes 8 r.counter ++ leBytes 8 r.sealNs ++ leBytes 8 r.sealWall ++ leBytes 8 r.dieSerial ++
  leBytes 2 r.aliasCert.length ++ zeros 2 ++ leBytes 4 crc ++ padTo 48 r.prevHash ++ entriesBytes r.entries ++ zeros 80 ++
  padTo 4000 r.aliasCert

/-- The 8,192 bytes of a boot record; the crc is written last (R127, R128). -/
def recordBytes (r : BootRecord) : List Byte :=
  recordBody r (crc32c (recordBody r 0 ++ padTo 96 r.signature)) ++ padTo 96 r.signature

/-- The slots of the boot-record ring (R129). -/
abbrev recSlots : Nat := 65536

/-- The record that occupies a slot of the ring. -/
def recInSlot (s : State) (slot : Nat) : Option BootRecord := s.nv.records.find? (fun r => r.counter % recSlots == slot)

/-- The readable record of a counter, in the ring or in the pending slot (R150). -/
def recordOf (s : State) (counter : Nat) : Option BootRecord :=
  match s.nv.records.find? (fun r => r.counter == counter) with
  | some r => some r
  | none => match s.nv.pendingRec with
    | some r => if r.counter = counter then some r else none
    | none => none

/-- A record put into its ring slot. -/
def ringRecord (r : BootRecord) (s : State) : State :=
  { s with nv.records := s.nv.records.filter (fun x => x.counter % recSlots != r.counter % recSlots) ++ [r] }

/-- The slot of a counter holds an undrained record (R129). -/
def slotUndrained (s : State) (counter : Nat) : Bool :=
  match recInSlot s (counter % recSlots) with
  | some r => decide (s.nv.recDrained < r.counter)
  | none => false

/-- A pack's port is settled for the seal: its pack measured, or no receiver found (R80). -/
def portSettled (s : State) (p : Port) : Bool := p.absent || (measOf s (0x40 + p.num)).isSome

/-- The last record sealed: of the ring and the pending slot, the one with the highest counter (R127). -/
def lastRecord (s : State) : Option BootRecord :=
  (s.nv.records ++ s.nv.pendingRec.toList).foldl (fun b r => match b with
    | none => some r
    | some x => if x.counter < r.counter then some r else some x) none

/-- The boot record of this boot as it would be sealed now (R127, R128). -/
def newRecord (s : State) : BootRecord :=
  let base : BootRecord :=
    { counter := s.nv.bootCounter
      pending := slotUndrained s s.nv.bootCounter
      warm := s.boot.warm
      fallback := s.brd.meas.any (·.fallback)
      packTimeout := s.stk.ports.any (fun p => !portSettled s p)
      peerTimeout := !s.hdl.paired
      side := s.aon.side
      sealNs := s.now
      sealWall := wallNow s
      dieSerial := s.nv.fuses.dieSerial
      prevHash := match lastRecord s with | some r => Config.sha384 (recordBytes r) | none => zeros 48
      entries := s.brd.meas ++ (s.stk.ports.filter (fun p => p.absent && (measOf s (0x40 + p.num)).isNone)).map
        (fun p => { comp := 0x40 + p.num, absent := true })
      aliasCert := aliasCert s }
  { base with signature := Config.signEcdsa (aliasKey s) (recordBody base 0) }

/-- A place for this boot's record: its ring slot, or the pending slot (R129). -/
def placeFree (s : State) : Bool := !slotUndrained s s.nv.bootCounter || s.nv.pendingRec.isNone

/-- The conditions of R80 that do not give way at 700 ms: CTL, WVM and SDS measured, the Border region replayed and the
boot counted, every safety monitor tested (R523). -/
def sealReady (s : State) : Bool :=
  (measOf s 3).isSome && (measOf s 4).isSome && (measOf s 5).isSome && s.boot.coilReady && s.brd.counterDone &&
    s.saf.monitorTested && !s.boot.recSealed

/-- This boot's record sealed into its place. -/
def sealRecord (s : State) : State :=
  let r := newRecord s
  let s := if r.pending then { s with nv.pendingRec := some r } else ringRecord r s
  { s with boot.recSealed := true }

/-- Whether a seal waits for a drain to free a place (R129): its other conditions held when it was due. -/
def sealWaits (s : State) : Bool := sealReady s && s.brd.sealDue

/-- BOOT_RECORD_SEAL (R80): the step comes when the conditions hold or 700 ms has passed (log 16); without a place the
seal waits for a drain. -/
def execBootRecordSeal (s : State) : Result := fast s <|
  if sealReady s then
    if placeFree s then .next (sealRecord s) else .next { s with brd.sealDue := true }
  else .next s

/-- Entries that arose before this boot's increment are appended, after those carried over a reset (R129, R137). -/
def releaseEarly (s : State) : State :=
  s.brd.early.foldl (fun s e =>
    let e := restamp s { e with boot := s.nv.bootCounter }
    if auditFree s ≤ 16 ∨ s.nv.waitingEntries ≠ [] then { s with nv.waitingEntries := s.nv.waitingEntries ++ [(e, none)] }
    else appendEntry e s) { s with brd.early := [] }

/-- BOOT_COUNTER_INCREMENT (R129): durable, once Coil's Border region is replayed; the Alias key follows. -/
def execBootCounterIncrement (s : State) : Result := fast s <|
  if s.boot.coilReady && s.boot.mgtRunning && !s.brd.counterDone then
    .next (releaseEarly (deriveAlias { s with nv.bootCounter := s.nv.bootCounter + 1, brd.counterDone := true }))
  else .next s

/-! ### The audit and record commands (R130, R139, R140, R150) -/

/-- AUDIT_READ's outcome (R150). -/
def auditRead (s : State) (c : Cmd) : Decision :=
  let first := pk c 24 8
  let n := s.nv.chain.length
  if n ≤ first then done 0
  else if first + auditCap < n then refuse stResNotfound 0
  else
    let es := (s.nv.chain.zipIdx.drop first).take (pk c 32 4)
    { result := es.length, bytes := (es.map fun e => entryBytes e.1 e.2).flatten }

/-- AUDIT_READ. -/
def execAuditRead (ring seq : Nat) (s : State) : Result := fast s <| plainOp opAuditRead 36 auditRead (fun _ _ s => s) ring seq s

/-- AUDIT_DRAIN's outcome (R139). -/
def auditDrain (s : State) (c : Cmd) : Decision :=
  let q := pk c 24 8
  match s.nv.chain[q]? with
  | none => refuse stResNotfound 0
  | some e =>
    if q < s.nv.drain then noChange
    else if Config.sha384 (entryBytes e q) ≠ c.block.take 48 then refuse stFmtParam 0x8000
    else { nums := [q] }

/-- The drain mark of a successful AUDIT_DRAIN; near_full clears at the threshold or below (R138, R139). -/
def applyAuditDrain (d : Decision) (s : State) : State :=
  match d.nums with
  | [q] =>
    let s := { s with nv.drain := q + 1 }
    if aboveNear s (undrained s) then s else { s with brd.nearFull := false }
  | _ => s

/-- AUDIT_DRAIN. -/
def execAuditDrain (ring seq : Nat) (s : State) : Result := fast s <| auditedOp opAuditDrain auditDrain ring seq s

/-- The 224-byte head of AUDIT_SEAL over the chain as it stands (Table 05-10). -/
def sealHead (s : State) (nonce : List Byte) : List Byte :=
  let seq := s.nv.chain.length - 1
  let body := [0x01] ++ zeros 7 ++ leBytes 8 s.nv.bootCounter ++ leBytes 8 seq ++ padTo 48 (lastHash s) ++
    leBytes 8 s.nv.drain ++ leBytes 8 s.now ++ leBytes 8 (wallNow s) ++ padTo 32 nonce
  body ++ padTo 96 (Config.signEcdsa (aliasKey s) body)

/-- AUDIT_SEAL: the head is written once its own entry is in the chain (R140). -/
def execAuditSeal (ring seq : Nat) (s : State) : Result := fast s <| auditedOp opAuditSeal (fun _ _ => done) ring seq s

/-- BOOT_RECORD_READ's outcome (R150). -/
def bootRecordRead (s : State) (c : Cmd) : Decision :=
  match recordOf s (pk c 24 8) with
  | none => refuse stResNotfound 0
  | some r => answer (recordBytes r)

/-- BOOT_RECORD_READ. -/
def execBootRecordRead (ring seq : Nat) (s : State) : Result := fast s <|
  plainOp opBootRecordRead 32 bootRecordRead (fun _ _ s => s) ring seq s

/-- BOOT_RECORD_DRAIN's outcome (R130). -/
def bootRecordDrain (s : State) (c : Cmd) : Decision :=
  let q := pk c 24 8
  if q ≤ s.nv.recDrained then noChange
  else match recordOf s q with
    | none => refuse stResNotfound 0
    | some r => if Config.sha384 (recordBytes r) ≠ c.block.take 48 then refuse stFmtParam 0x8000 else { nums := [q] }

/-- The drain of a successful BOOT_RECORD_DRAIN: the pending record moves into a freed slot, a waiting seal takes
place (R129, R130). -/
def applyBootRecordDrain (d : Decision) (s : State) : State :=
  match d.nums with
  | [q] =>
    let s := { s with nv.recDrained := q }
    let s := match s.nv.pendingRec with
      | none => s
      | some r => if slotUndrained s r.counter then s else ringRecord r { s with nv.pendingRec := none }
    if sealWaits s && placeFree s then sealRecord { s with brd.sealDue := false } else s
  | _ => s

/-- BOOT_RECORD_DRAIN. -/
def execBootRecordDrain (ring seq : Nat) (s : State) : Result := fast s <| auditedOp opBootRecordDrain bootRecordDrain ring seq s

/-- ATTEST_QUOTE's outcome (R150): the chain, or a signed quote. A quote made before this boot's record is sealed holds zeros for the
record's hash (the spec states none; DESIGN CHOICE, log 150). -/
def attestQuote (s : State) (c : Cmd) : Decision :=
  if pk c 24 1 = 0 then
    let ch := certChain s
    if pk c 40 4 < ch.length then { status := stLenShort, detail := 40, result := ch.length }
    else answer ch ch.length
  else
    let rec_ := match recordOf s s.nv.bootCounter with
      | some r => if s.boot.recSealed then Config.sha384 (recordBytes r) else zeros 48
      | none => zeros 48
    let body := [0x02] ++ zeros 7 ++ leBytes 8 s.nv.bootCounter ++ padTo 48 rec_ ++ padTo 48 s.brd.cfgDigest ++
      padTo 32 c.block
    answer (body ++ padTo 96 (Config.signEcdsa (aliasKey s) body))

/-- ATTEST_QUOTE: it waits until this boot's Alias key is derived (R129; DEDUCED, log 147). -/
def execAttestQuote (ring seq : Nat) (s : State) : Result := fast s <|
  if s.brd.aliasReady then plainOp opAttestQuote 32 attestQuote (fun _ _ s => s) ring seq s else .next s

/-- OWNER_ENROLL's outcome (R102, R150). -/
def ownerEnroll (s : State) (c : Cmd) : Decision :=
  if owned s then refuse stResExists 0 else { bytes := Config.sha384 c.block }

/-- The owner-root fuse field burned once (R102). -/
def applyOwnerEnroll (d : Decision) (s : State) : State :=
  if owned s then s else { s with nv.fuses.ownerRoot := padTo 48 d.bytes }

/-- OWNER_ENROLL. -/
def execOwnerEnroll (ring seq : Nat) (s : State) : Result := fast s <| auditedOp opOwnerEnroll ownerEnroll ring seq s

/-! ### Sealing the configuration (R141) -/

/-- The image of HAM_WIN_ACC_n (Table 01-2). -/
def winAcc (w : Win) : Nat :=
  flagAt w.enable 31 + flagAt w.fixed 30 + w.owner * 256 + w.m * 16 + w.c * 4 + w.d

/-- The value of window PID 0x0300 + n (R548). -/
def winPid (w : Win) : Nat := w.base + w.size * 2 ^ 16 + (winAcc w - flagAt w.fixed 30) * 2 ^ 32

/-- The 96 RWL registers, offsets and values (R141, R544). -/
def rwlBytes (s : State) : List Byte :=
  (s.ham.win.zipIdx.map fun e =>
    let o := 0x000C0400 + e.2 * 16
    leBytes 4 o ++ leBytes 4 e.1.base ++ leBytes 4 (o + 4) ++ leBytes 4 e.1.size ++ leBytes 4 (o + 8) ++
      leBytes 4 (winAcc e.1)).flatten

/-- One seal-locked PID in the digest (R141). -/
def pidDigest (p w : Nat) (v : List Byte) : List Byte := leBytes 2 p ++ leBytes 2 w ++ v

/-- Every seal-locked PID in ascending order (R141). -/
def sealedPidBytes (s : State) : List Byte :=
  let plain := fun (lo hi : Nat) => ((plainPids.filter fun i => i.access == 1 && decide (lo ≤ i.pid) && decide (i.pid < hi)).map
    fun i => pidDigest i.pid i.width (leBytes i.width (pidVal s i.pid))).flatten
  plain 0 0x0300 ++
  (s.ham.win.zipIdx.map fun e => pidDigest (0x0300 + e.2) 8 (leBytes 8 (winPid e.1))).flatten ++
  plain 0x0320 0x0440 ++
  ((List.range 32).map fun k => pidDigest (0x0440 + k) 64 (padTo 64 (pidBlock s (0x0440 + k)))).flatten ++
  plain 0x0460 0x10000

/-- The configuration digest (R141). -/
def configDigest (s : State) : List Byte := padTo 48 (Config.sha384 (rwlBytes s ++ sealedPidBytes s))

/-- CONFIG_SEAL's outcome: the digest's first bytes in the result (Table 05-13). -/
def configSeal (s : State) (_c : Cmd) : Decision := done (leNat ((configDigest s).take 8))

/-- The seal (R141). -/
def applyConfigSeal (s : State) : State := { s with boot.cfgSealed := true, brd.cfgDigest := configDigest s }

/-- CONFIG_SEAL. -/
def execConfigSeal (ring seq : Nat) (s : State) : Result := fast s <| auditedOp opConfigSeal configSeal ring seq s

/-! ### Time (R145 to R147) -/

/-- SET_TIME's outcome (R146, Table 05-13). -/
def setTime (s : State) (_c : Cmd) : Decision :=
  if pidVal s 0x0102 = 1 then refuse stOrdLocked 0 else done (wallNow s)

/-- Wall time set to a value, valid from now. -/
def setWall (v : Nat) (ptp : Bool) (s : State) : State :=
  { s with brd.wallValid := true, brd.wallPtp := ptp, brd.wallBase := v, brd.wallAt := s.now }

/-- SET_TIME: the new time holds at its entry (R146). -/
def execSetTime (ring seq : Nat) (s : State) : Result := fast s <| auditedOp opSetTime setTime ring seq s

/-- PTP_SYNC_RECEIVED (R147): with PTP the source, a synchronisation of the set domain and transport on an enabled port
sets wall time. -/
def execPtpSyncReceived (port domain transport wall : Nat) (offset : Int) (s : State) : Result := fast s <|
  if pidVal s 0x0102 = 1 ∧ bit (pidVal s 0x0105) port ∧ domain = pidVal s 0x0104 ∧ transport = pidVal s 0x0106 then
    .next { setWall wall true s with brd.ptpOffset := offset, brd.lastSync := s.now }
  else .next s

/-- PTP_HOLDOVER_EXPIRY (R147): wall time is lost, code 0x033 counted, entry 0xFF03 appended with the last offset. -/
def execPtpHoldoverExpiry (s : State) : Result := fast s <|
  if s.brd.wallValid ∧ pidVal s 0x0102 = 1 then
    let s := countEvent 0x033 0 { s with brd.wallValid := false }
    .next (borderEvent 0xFF03 (leBytes 8 ((s.brd.ptpOffset % (2 ^ 64 : Int)).toNat)) s)
  else .next s

/-! ### The boot flash's directory (R154 to R156) -/

/-- The offset in the boot flash of a slot of a component, 1 to 5 (Table 06-2). -/
def slotOffset (comp slot : Nat) : Nat :=
  match comp with
  | 1 => 0x00040000 + slot * 0x100000
  | 2 => 0x00240000 + slot * 0x800000
  | 3 => 0x01240000 + slot * 0x2000000
  | 4 => 0x05240000 + slot * 0x200000
  | _ => 0x05640000 + slot * 0x400000

/-- A slot's contents replaced; erased where none are given. -/
def putSlot (comp slot : Nat) (data : List Byte) (s : State) : State :=
  { s with nv.flash.images := s.nv.flash.images.filter (fun e => e.1 != slotOffset comp slot) ++
      (if data = [] then [] else [(slotOffset comp slot, data)]) }

/-- Bytes 0 to 59 of the directory record (Table 06-3). -/
def dirBody (f : Flash) : List Byte :=
  leBytes 1 1 ++ zeros 3 ++ leBytes 8 f.dirGen ++ (f.pref.map (leBytes 1)).flatten ++ leBytes 1 f.raiseBits ++
    (f.slots.map fun e => leBytes 1 (e.1 + 4 * e.2.1 + 16 * e.2.2)).flatten ++ leBytes 1 f.packState ++ leBytes 4 f.packLen ++ zeros 32

/-- A directory write: dir_gen rises, and the copy dir_gen mod 2 takes the record (R155, R156). -/
def writeDir (s : State) : State :=
  let f := { s.nv.flash with dirGen := s.nv.flash.dirGen + 1 }
  let r := dirBody f ++ leBytes 4 (crc32c (dirBody f))
  { s with nv.flash := if f.dirGen % 2 = 0 then { f with dir0 := r } else { f with dir1 := r } }

/-- A directory copy is valid: its crc matches and its format is 0x01 (R155). -/
def dirValid (b : List Byte) : Bool := b.length == 64 && numAt b 0 1 == 1 && numAt b 60 4 == crc32c (b.take 60)

/-- The directory that a valid copy holds. -/
def dirOf (b : List Byte) (f : Flash) : Flash :=
  { f with
    dirGen := numAt b 4 8, pref := (List.range 5).map fun k => numAt b (12 + k) 1, raiseBits := numAt b 17 1
    slots := (List.range 5).map fun k => (field (numAt b (18 + k) 1) 0 2, field (numAt b (18 + k) 1) 2 2, field (numAt b (18 + k) 1) 4 4)
    packState := numAt b 23 1, packLen := numAt b 24 4 }

/-- The directory as ROM finds it: the valid copy, of two the one with the higher dir_gen; with none, every preference is slot 0 and
every slot staged (R155; DESIGN CHOICE, log 156: the PACK area empty, dir_gen 0). -/
def loadDir (f : Flash) : Flash :=
  let a := dirValid f.dir0
  let b := dirValid f.dir1
  if a && (!b || decide (numAt f.dir1 4 8 ≤ numAt f.dir0 4 8)) then dirOf f.dir0 f
  else if b then dirOf f.dir1 f
  else { f with dirGen := 0, pref := List.replicate 5 0, raiseBits := 0, slots := List.replicate 5 (1, 1, 0), packState := 0, packLen := 0 }

/-! ### SVN floors (R142 to R144) -/

/-- The floor of component index `k`: AOC, MGT, CTL, WVM, SDS, PACK (R142). -/
def svnFloor (s : State) (k : Nat) : Nat := (s.nv.fuses.floors[k]?).getD 0

/-- The component code of a floor (Table 06-1). -/
def floorComp (k : Nat) : Nat := if k = 5 then 7 else k + 1

/-- A floor raised to a value, with its Border entry 0xFF02; a floor never falls (R144). -/
def raiseFloor (k v : Nat) (s : State) : State :=
  let old := svnFloor s k
  if v ≤ old then s
  else borderEvent 0xFF02 [BitVec.ofNat 8 (floorComp k), BitVec.ofNat 8 old, BitVec.ofNat 8 v]
    { s with nv.fuses.floors := updAt k (fun _ => v) s.nv.fuses.floors }

/-- The components whose raise request the running image was activated with: the slot that runs is the one that the directory
prefers (R144, R162). -/
def raiseDue (s : State) : List Nat :=
  (List.range 5).filter fun k => bit s.nv.flash.raiseBits k && (s.fw.running[k]?).getD none == some ((s.nv.flash.pref[k]?).getD 0)

/-- The floors raised at the first SERVICE_START of a boot for the components whose running image was activated with a raise request
(R144); the request is consumed in the directory (log 17). -/
def raiseRequested (s : State) : State :=
  let due := raiseDue s
  let s1 := due.foldl (fun s k =>
    match measOf s (k + 1) with
    | some m => raiseFloor k m.svn s
    | none => s) s
  if due = [] then s1
  else writeDir { s1 with nv.flash.raiseBits := due.foldl (fun m k => clearBit m k) s.nv.flash.raiseBits }

/-- A partner measured after the seal is recorded by entry 0xFF01 (R131), whose measurement bytes have late clear: the partner is
measured (DESIGN CHOICE, log 148). -/
def lateMeasurement (m : Meas) (s : State) : State :=
  if s.boot.recSealed then borderEvent 0xFF01 ((measBytes m.comp m false).take 8 ++ m.hash.take 16) s else s

/-- FAIL_SILENT_CAUSE_RECORD (R522): entry 0xFF17 after the reaction, when Coil is healthy, or at the next start once
region 0 is replayed; recorded is set. -/
def execFailSilentCauseRecord (s : State) : Result := fast s <|
  if s.aon.cause.valid && !s.aon.cause.recorded && s.boot.coilReady &&
      !(s.saf.failSilent && s.aon.cause.thisBoot && s.aon.cause.cls == 8) then
    let c := s.aon.cause
    let s := borderEvent 0xFF17
      ([BitVec.ofNat 8 c.cls, 0] ++ leBytes 2 c.code ++ leBytes 8 c.ns ++ leBytes 8 c.boot ++ zeros 4) s
    .next { s with aon.cause := { c with recorded := true } }
  else .next s

end Sys2Proof.Machine
end

