-- ==== Sys2Proof/Machine/Lookups.lean ====
section
/-! DEFINITION. Look-ups in the store: domains, volumes, stored chunks, bundles, key slots, generations, rows, bands and
segments (R257, R262, R278, R290, R332 to R338), and the 64-bit CRC (R275). -/

namespace Sys2Proof.Machine

/-- The bundle of a domain and identifier. -/
def bundleOf (s : State) (domain id : Nat) : Option Bundle := s.nv.bundles.find? fun b => b.domain == domain && b.id == id

/-- One bit of the reflected CRC-64 of polynomial 0xAD93_D235_94C9_3659 (R275). -/
def crc64Bit (c : Nat) : Nat := if c % 2 = 1 then Nat.xor (c / 2) 0x9A6C9329AC4BC9B5 else c / 2

/-- One byte into the CRC-64. -/
def crc64Byte (c : Nat) (b : Byte) : Nat :=
  crc64Bit (crc64Bit (crc64Bit (crc64Bit (crc64Bit (crc64Bit (crc64Bit (crc64Bit (Nat.xor c b.toNat))))))))

/-- CRC-64 with initial value and final XOR of all ones (R275). -/
def crc64 (l : List Byte) : Nat := Nat.xor (l.foldl crc64Byte (2 ^ 64 - 1)) (2 ^ 64 - 1)

/-- The domain `n`. -/
def domainOf (s : State) (n : Nat) : Option Domain := s.nv.domains.find? fun d => d.num == n

/-- The volume `n`. -/
def volumeOf (s : State) (n : Nat) : Option Volume := s.nv.volumes.find? fun v => v.num == n

/-- The stored chunk with a number. -/
def storedOf (s : State) (id : Nat) : Option Stored := s.nv.stored.find? fun x => x.id == id

/-- The slot with a number, if it holds a key. -/
def slotOf (s : State) (n : Nat) : Option Slot := s.cip.slots.find? fun x => x.num == n

/-- The ports of a member mask, rising. -/
def portsOf (mask : Nat) : List Nat := (List.range 64).filter (bit mask)

/-- The width of a row. -/
def genWidth (g : Gen) : Nat := g.d + g.p

/-- Members drawn one after another from those left: distinct, so that a row names W distinct members (R338). -/
def drawMembers (gen row : Nat) : Nat → Nat → List Nat → List Nat
  | 0, _, _ => []
  | n + 1, i, left =>
    match left[Config.slathDraw gen row i % max 1 left.length]? with
    | none => []
    | some p => p :: drawMembers gen row n (i + 1) (left.erase p)

/-- The members of a row of a generation, in the row's order (R337). -/
def rowMembers (g : Gen) (row : Nat) : List Nat := drawMembers g.num row (genWidth g) 0 (portsOf g.members)

/-- The generation with a number. -/
def genOf (s : State) (n : Nat) : Option Gen :=
  match s.nv.genCur, s.nv.genNew with
  | some g, some h => if g.num = n then some g else if h.num = n then some h else none
  | some g, none => if g.num = n then some g else none
  | none, some h => if h.num = n then some h else none
  | none, none => none

/-- The band with a number. -/
def bandOf (s : State) (n : Nat) : Option Band := s.nv.bands.find? fun b => b.num == n

/-- The segment with a number. -/
def segOf (s : State) (n : Nat) : Option Segment := s.nv.segs.find? fun x => x.num == n

/-- The band number of a segment (R333). -/
def segBand (seg : Nat) : Nat := seg / 65536

/-- The position of a segment. -/
def posOf (x : Segment) (i : Nat) : Pos := (x.positions.find? fun p => p.idx == i).getD { idx := i }

/-- The generation of a segment. -/
def segGen (s : State) (seg : Nat) : Option Gen := (bandOf s (segBand seg)).bind fun b => genOf s b.gen

/-- The member that position `i` of a segment lies on (R333): the spare holder once it is rebuilt. -/
def posMember (s : State) (seg i : Nat) : Nat :=
  match bandOf s (segBand seg), segGen s seg with
  | some b, some g =>
    let sp := match segOf s seg with | some x => (posOf x i).spare | none => 0
    if sp ≠ 0 then sp - 1 else ((rowMembers g b.row)[(i + seg % 65536) % max 1 (genWidth g)]?).getD 64
  | _, _ => 64

/-- The erase block of a band on a member. -/
def bandBlock (s : State) (band port : Nat) : Nat :=
  match bandOf s band with
  | some b => ((b.blocks.find? fun e => e.1 == port).map (·.2)).getD 0
  | none => 0

/-- The number of a bundle across domains, as positions and commands name it (log 29). -/
def bundleKey (b : Bundle) : Nat := b.domain * 2 ^ 48 + b.id

/-- The bundle with a number across domains. -/
def bundleByKey (s : State) (k : Nat) : Option Bundle := bundleOf s (k / 2 ^ 48) (k % 2 ^ 48)

end Sys2Proof.Machine
end

