-- ==== Sys2Proof/Machine/Strips.lean ====
section
/-! DEFINITION. The bytes that leave for the packs and for the peer: a bundle's extent and check field (R270, R271, R274,
R275), parity over GF(2^8) (R336), the strip at a position (R334), the requests of the Stake link that carry them (Table
16-3), and a Coil record as lines (R313 to R315, Tables 12-3 to 12-8). -/

namespace Sys2Proof.Machine

/-! ### Extents (R270 to R275) -/

/-- The extent units of a payload length (R270). -/
def extentUnits (len : Nat) : Nat := ceilDiv (8 + len) 512

/-- The payload of a bundle in a form: the chunks as they are, an LZ4 block, or a zstd frame (R271). -/
def formPayload (form : Nat) (chunks : List Byte) : List Byte :=
  if form = 1 then Config.lz4Block chunks else if form = 2 then Config.zstdFrame chunks else chunks

/-- A bundle's plaintext: the header of Table 10-1, the payload, zeros to the end of the extent (R270). -/
def bundlePlain (form chunks units : Nat) (payload : List Byte) : List Byte :=
  padTo (512 * units) ([1, BitVec.ofNat 8 form, BitVec.ofNat 8 chunks, 0] ++ leBytes 4 payload.length ++ payload)

/-- The tweak of a data unit of an extent: identifier × 128 + unit, 128 bits, little-endian (R274). -/
def extentTweak (id unit : Nat) : List Byte := leBytes 16 (id * 128 + unit)

/-- XTS-AES-256 over the data units of 512 bytes of an extent, encrypting or decrypting (R274). -/
def xtsExtent (decrypt : Bool) (key : List Byte) (id units : Nat) (bytes : List Byte) : List Byte :=
  ((List.range units).map fun j =>
    padTo 512 (Config.cipher 0 decrypt key (extentTweak id j) [] (bytesAt bytes (512 * j) 512))).flatten

/-- The shape byte of a bundle (Table 10-3). -/
def shapeByte (b : Bundle) : Nat := (b.chunks.length - 1) * 32 + b.form * 8 + b.keyGen % 2 * 4

/-- The check field of a stored bundle (Table 10-2): the CRC-64 runs over the extent as stored and the identifier (R275). -/
def checkField (b : Bundle) : List Byte :=
  leBytes 8 (crc64 (b.extent ++ leBytes 6 b.id)) ++ leBytes 6 b.id ++ leBytes 1 (shapeByte b) ++ leBytes 1 b.units

/-- The key that protects bundles of a domain with a key_gen value: the current key's, else the previous one's (R263). -/
def domainKey (s : State) (d : Domain) (keyGen : Nat) : List Byte :=
  let slot := if keyGen = d.keyGen then some d.cur else d.prev
  match slot.bind (slotOf s) with | some x => x.key | none => []

/-- A copy of a bundle is encrypted again: it lies under its domain's previous key, and the domain may still be written (R263,
R392). -/
def rekeys (s : State) (b : Bundle) : Bool :=
  match domainOf s b.domain with
  | some d => b.keyGen != d.keyGen && !d.keyless && !d.writeProtected
  | none => false

/-- The extent that a copy of a bundle stores: its own bytes, or those bytes under the current key, with the same identifier
(R263, R274, R392). -/
def copyExtent (s : State) (b : Bundle) : List Byte :=
  match domainOf s b.domain with
  | some d =>
    if rekeys s b then
      xtsExtent false (domainKey s d d.keyGen) b.id b.units (xtsExtent true (domainKey s d b.keyGen) b.id b.units b.extent)
    else b.extent
  | none => b.extent

/-! ### Parity (R336) -/

/-- A byte of GF(2^8) times α = 0x02, by the polynomial 0x11D. -/
def gfDouble (x : Nat) : Nat := if x < 128 then 2 * x else Nat.xor (2 * x) 0x11D

/-- The product of two bytes, over the bits of the second from bit `n - 1` down. -/
def gfMulBits (a b : Nat) : Nat → Nat
  | 0 => 0
  | n + 1 => Nat.xor (if b.testBit (7 - n) then a else 0) (gfMulBits (gfDouble a) b n)

/-- The product of two bytes in GF(2^8). -/
def gfMul (a b : Nat) : Nat := gfMulBits a b 8

/-- α to a power. -/
def gfPow : Nat → Nat
  | 0 => 1
  | n + 1 => gfDouble (gfPow n)

/-- The byte of parity strip D + j at one offset: the sum over data positions of α^(j × i) × d_i (R336). -/
def parityByte (j : Nat) (ds : List Byte) : Byte :=
  BitVec.ofNat 8 (ds.zipIdx.foldl (fun n e => Nat.xor n (gfMul (gfPow (j * e.2)) e.1.toNat)) 0)

/-- A strip times a power of α. -/
def scaleStrip (k : Nat) (l : List Byte) : List Byte := l.map fun b => BitVec.ofNat 8 (gfMul (gfPow k) b.toNat)

/-- Parity strip D + j of data strips in position order (R336): A_j ⊕ α^(j × i) × strip for each position i (R343). -/
def parityStrip (j : Nat) (strips : List (List Byte)) : List Byte :=
  strips.zipIdx.foldl (fun acc e => List.zipWith (· ^^^ ·) acc (scaleStrip (j * e.2) e.1)) (zeros 65536)

/-! ### The strip at a position (R334) -/

/-- The bytes of a data strip made from a list of bundles: their extents from offset 0; the bytes after the last are zero
(R334). A bundle that stands on flash is copied (R392). -/
def stripOf (s : State) (keys : List Nat) : List Byte :=
  ((keys.filterMap (bundleByKey s)).map fun b => if b.place.isSome then copyExtent s b else b.extent).flatten

/-- A data strip: zeros where it is void or unfilled; what this head programmed; what the other head programmed is read back
from its pack and is free (R336, R347; log 42). -/
def dataStrip (s : State) (x : Segment) (i : Nat) : List Byte :=
  let p := posOf x i
  if p.state = 0 ∨ p.state = 3 then zeros 65536
  else match p.data with
    | some l => padTo 65536 l
    | none => padTo 65536 (Config.peerStrip x.num i s.now)

/-- The strip at a position of a segment, data or parity. -/
def stripBytes (s : State) (seg i : Nat) : List Byte :=
  match segOf s seg, segGen s seg with
  | some x, some g =>
    if i < g.d then dataStrip s x i else parityStrip (i - g.d) ((List.range g.d).map (dataStrip s x))
  | _, _ => zeros 65536

/-! ### Requests to the packs (Table 16-3) -/

/-- The block and the byte offset of a strip on the member that holds it: segment k of the band's erase block (R333), or spare
space, whose place is free (R367; log 42). -/
def stripPlace (s : State) (seg i m : Nat) (spare : Bool) : Nat × Nat :=
  let onSpare : Bool := match segOf s seg with | some x => (posOf x i).spare != 0 | none => false
  if spare || onSpare then ((Config.sparePlace seg i m).1, 65536 * (Config.sparePlace seg i m).2)
  else (bandBlock s (segBand seg) m, 65536 * (seg % 65536))

/-- The payload of a media request: block, byte offset, length, SLC flag (Table 16-3). A relayed READ carries what the peer
named (R361); of a checkpoint the model sends one strip for each copy (R376; log 42). -/
def mediaPayload (s : State) (n : Nat) (r : Req) : List Byte :=
  let off := if r.why = 5 then r.pos else if r.why = 7 then 0 else (stripPlace s r.seg r.pos n (r.cmd = 0x11 ∧ r.why = 1)).2
  let len := if r.why = 5 then r.aux else 65536
  leBytes 4 r.block ++ leBytes 4 off ++ leBytes 4 len ++ leBytes 1 (flagAt (bit (segBand r.seg) 31) 0) ++ zeros 3

/-- The payload of a request (Table 16-3); a command not listed there has none (R424). -/
def stakePayload (s : State) (n : Nat) (r : Req) : List Byte :=
  if r.cmd = 0x10 ∨ r.cmd = 0x11 then mediaPayload s n r
  else if r.cmd = 0x12 then leBytes 4 r.block ++ zeros 4
  else if r.cmd = 0x31 then leBytes 4 s.nv.flash.packLen ++ leBytes 4 (crc32c s.nv.flash.packImage)
  else if r.cmd = 0x40 then leBytes 1 r.aux ++ zeros 3
  else if r.cmd = 0x41 then leBytes 8 s.hdl.epoch
  else []

/-- The data that follow a request: the strip of a PROGRAM, the image of FW_LOAD. A checkpoint's bytes are written in the
format in force, of which only the version behaviour is specified (R170): they are free. -/
def stakeBytes (s : State) (r : Req) : List Byte :=
  if r.cmd = 0x11 then (if r.why = 7 then padTo 65536 (Config.checkpoint r.aux) else stripBytes s r.seg r.pos)
  else if r.cmd = 0x31 then s.nv.flash.packImage
  else []

/-! ### Coil records as lines (R313 to R315) -/

/-- The guard set of a chunk as 16 bytes (Table 10-5). -/
def guardBytes (fmt : Nat) (g : List Nat) : List Byte :=
  padTo 16 ((g.map fun x => leBytes (if fmt = 1 ∨ fmt = 3 then 2 else 8) x).flatten)

/-- The chunk line of a data record (Table 12-4). -/
def chunkLine (fmt : Nat) (x : Stored) : List Byte :=
  padTo 32 x.fp ++ guardBytes fmt x.guards ++ leBytes 1 x.pos ++ zeros 15

/-- The tags of a logical entry (Table 12-7). -/
def entryTags (fmt pi : Nat) (e : DeltaEntry) : List Byte :=
  let app := fun (k : Nat) => leBytes 2 ((e.apps[k]?).getD 0)
  let ref := fun (w k : Nat) => leBytes w ((e.refs[k]?).getD 0)
  if fmt = 0 then []
  else if fmt = 1 then ((List.range 8).map fun k => app k ++ ref 4 k).flatten
  else app 0 ++ (if pi = 3 then ref (if fmt = 4 then 6 else 4) 0 else [])

/-- A logical entry (Table 12-7). -/
def entryLine (s : State) (vol : Nat) (e : DeltaEntry) : List Byte :=
  let v := volumeOf s vol
  let fmt := match v with | some v => v.format | none => 0
  let pi := match v with | some v => v.pi | none => 0
  let x := if e.kind = 0 then storedOf s e.stored else none
  let at_ := match x with | some x => (x.bundle, x.pos) | none => (0, 0)
  leBytes 5 e.chunk ++ leBytes 1 (if fmt ≤ 1 then e.dealloc else 0) ++ leBytes 6 at_.1 ++ leBytes 1 (at_.2 + 16 * e.kind) ++ zeros 3 ++
    padTo 48 (entryTags fmt pi e)

/-- The crc field of the record with a jseq, as the stream holds it (Table 12-5). -/
def crcOfRecord (s : State) (jseq : Nat) : Nat :=
  match s.nv.journal.find? fun r => r.jseq == jseq with
  | some r => numAt r.bytes 4 4
  | none => 0

/-- The type_ver, the subtype, bytes 16 to 63 of the first line and the further lines of a record body (Tables 12-2 to 12-8).
An operation's delta has only its first line specified (R170; log 26). -/
def bodyLines (s : State) (b : CoilBody) : Nat × Nat × List Byte × List Byte :=
  match b with
  | .data id domain _ =>
    let fmt := match domainOf s domain with | some d => d.format | none => 0
    (match bundleOf s domain id with
      | some x => (0x11, 0, checkField x ++ leBytes 2 domain ++ leBytes 1 x.chunks.length,
          ((x.chunks.filterMap (storedOf s)).map (chunkLine fmt)).flatten ++ x.extent)
      | none => (0x11, 0, [], []))
  | .commit a d v p n f k => (0x21, 0,
      leBytes 8 a ++ leBytes 8 d ++ leBytes 4 (crcOfRecord s d) ++ leBytes 2 v ++ leBytes 2 p ++ leBytes 2 n ++ zeros 6 ++ leBytes 8 f ++ leBytes 4 k, [])
  | .commitOp a d v => (0x21, 1,
      leBytes 8 a ++ leBytes 8 d ++ leBytes 4 (crcOfRecord s d) ++ leBytes 2 v ++ leBytes 2 (Config.opCommit a 0) ++ leBytes 2 (Config.opCommit a 1) ++
        zeros 6 ++ leBytes 8 (Config.opCommit a 2) ++ leBytes 4 (Config.opCommit a 3), [])
  | .delta a v es => (0x31, 0, leBytes 8 a ++ leBytes 2 v ++ leBytes 2 es.length ++ leBytes 2 s.nv.format, (es.map (entryLine s v)).flatten)
  | .deltaOp a v op nums bytes => (0x31, 1, leBytes 8 a ++ leBytes 2 v ++ zeros 2 ++ leBytes 2 s.nv.format, Config.opBody op nums bytes)
  | .intent g i st pk bf =>
    let band := bandOf s (segBand g)
    (0x41, 0, leBytes 8 g ++ leBytes 4 (segBand g) ++ leBytes 2 (match band with | some b => b.row | none => 0) ++ leBytes 1 i ++ leBytes 1 st ++
      leBytes 2 pk ++ leBytes 1 bf ++ zeros 1 ++ leBytes 4 (match segOf s g with | some x => x.slot | none => 0) ++
      leBytes 2 (match band with | some b => b.gen | none => 0), [])
  | .band n st prev row gen batch => (0x51, 0,
      leBytes 4 n ++ zeros 4 ++ leBytes 1 st ++ leBytes 1 prev ++ leBytes 2 row ++ leBytes 2 gen ++ zeros 2 ++ leBytes 8 batch, [])
  | .pad => (0xF1, 0, [], [])

/-- A record as lines, with a value in its crc field (Table 12-3). -/
def recordWith (s : State) (body : CoilBody) (jseq lines crc : Nat) : List Byte :=
  let b := bodyLines s body
  padTo (64 * lines) (leBytes 1 b.1 ++ leBytes 1 b.2.1 ++ leBytes 2 lines ++ leBytes 4 crc ++ leBytes 8 jseq ++ padTo 48 b.2.2.1 ++ b.2.2.2)

/-- A record as lines: the crc is CRC-32C over every byte of every line, its own field taken as zero (R315). -/
def recordLines (s : State) (body : CoilBody) (jseq lines : Nat) : List Byte :=
  recordWith s body jseq lines (crc32c (recordWith s body jseq lines 0))

end Sys2Proof.Machine
end

