-- ==== Sys2Proof/Machine/LinkOps.lean ====
section
/-! DEFINITION. Requests to the peer and to the packs: tags and requests that wait for one (R419, R424, R438). -/

namespace Sys2Proof.Machine

/-- The next free tag of a request to the peer, 0 to 4,095 (Table 17-1). -/
def peerTagFree (s : State) : Option Nat :=
  ((List.range 4096).map fun k => (s.hdl.nextTag + k) % 4096).find? fun t => !s.hdl.reqs.any (fun r => r.tag == t)

/-- A request to the peer whose response completes something here; none when no tag is free. -/
def requestPeer (r : PeerReq) (args : List Nat) (bytes : List Byte) (dataLen : Nat) (s : State) : State :=
  match peerTagFree s with
  | none => s
  | some t => sendPeer r.code (t :: args) bytes dataLen
      { s with hdl.reqs := s.hdl.reqs ++ [{ r with tag := t }], hdl.nextTag := (t + 1) % 4096 }

/-! ### Stake ports -/

/-- The bytes a Stake port's replay buffer holds (R414). -/
abbrev stakeReplayCap : Nat := 65536

/-- The port `n`. -/
def portOf (s : State) (n : Nat) : Port := (s.stk.ports[n]?).getD { num := n }

/-- A Stake port changed. -/
def updPort (n : Nat) (f : Port → Port) (s : State) : State := { s with stk.ports := updAt n f s.stk.ports }

/-- The frames of a port that may start leave while it is in L0. -/
def pumpPort (n : Nat) (s : State) : State :=
  let p := portOf s n
  if p.link = 3 then
    let r := pumpFrames n stakeReplayCap s.now [] p.dl.waiting p.dl
    { updPort n (fun p => { p with dl := r.1 }) s with out := s.out ++ r.2 }
  else s

/-- The tags a port may use (R419). -/
def portTags (s : State) (p : Port) : Nat := if p.maxTag = 0 then pidVal s 0x0C00 else min (pidVal s 0x0C00) p.maxTag

/-- The lowest free tag of a port; a held tag is not free (R419, R421). -/
def freeTag (s : State) (p : Port) : Option Nat :=
  (List.range (portTags s p)).find? fun t => !p.reqs.any (fun r => r.tag == t)

/-- The authority-class commands (Table 16-3). -/
def authorityCmd (cmd : Nat) : Bool := cmd == 0x11 || cmd == 0x12 || cmd == 0x31 || cmd == 0x40 || cmd == 0x41

/-- The request channel of a command (Table 16-3). -/
def stakeVc (cmd : Nat) : Nat := if cmd = 0x10 ∨ cmd = 0x12 then 0 else if cmd = 0x11 ∨ cmd = 0x31 then 1 else 3

/-- The request payload length of a command (Table 16-3). -/
def stakeLen (cmd : Nat) : Nat :=
  if cmd = 0x10 ∨ cmd = 0x11 then 16 else if cmd = 0x12 ∨ cmd = 0x31 ∨ cmd = 0x41 then 8 else if cmd = 0x40 then 4 else 0

/-- The data bytes that follow a request: a strip for PROGRAM, an image for FW_LOAD. -/
def stakeData (s : State) (cmd : Nat) : Nat := if cmd = 0x11 then 65536 else if cmd = 0x31 then s.nv.flash.packLen else 0

/-- A request leaves on a port with a tag; an authority-class request carries the head's epoch (R424, R432). -/
def sendReq (n : Nat) (r : Req) (s : State) : State :=
  match freeTag s (portOf s n) with
  | none => updPort n (fun p => { p with queued := p.queued ++ [r] }) s
  | some t =>
    let e := if authorityCmd r.cmd then s.hdl.epoch else 0
    let r := { r with tag := t, epoch := e }
    let o := Out.stakeReq n t r.cmd e (stakePayload s n r) (stakeBytes s r)
    pumpPort n (updPort n (fun p => { p with reqs := p.reqs ++ [r], dl := queueMessage (stakeVc r.cmd) t r.cmd e (stakePayload s n r) (stakeLen r.cmd) (stakeData s r.cmd) (stakeBytes s r) o p.dl }) s)

/-- Requests that waited for a tag leave while tags are free. -/
def sendQueued (n : Nat) (s : State) : State :=
  (portOf s n).queued.foldl (fun s r => sendReq n r s) (updPort n (fun p => { p with queued := [] }) s)

/-- A request of a port ends: its tag is free (R419). -/
def dropReq (n tag : Nat) (s : State) : State :=
  sendQueued n (updPort n (fun p => { p with reqs := p.reqs.filter fun r => r.tag != tag }) s)

end Sys2Proof.Machine
end

