-- ==== Sys2Proof/Machine/CoilOps.lean ====
section
/-! DEFINITION. Shared operations on Coil's region 2 stream: records and their lines, appending, the mirror, the
commit rule, release and the head (R313 to R322). -/

namespace Sys2Proof.Machine

/-- The lines of region 2 (Table 12-1: 24,576 MiB of 64-byte lines). -/
abbrev journalLines : Nat := 402653184

/-! ### In-line XTS (R327) -/

/-- This boot's Coil key from the UDS: the leftmost 256 bits of each of two HMACs. -/
def coilKey (uds : List Byte) : List Byte :=
  (Config.hmac384 uds [0x43, 0x56, 0x43, 0x4F, 0x49, 0x4C, 0x31]).take 32 ++
    (Config.hmac384 uds [0x43, 0x56, 0x43, 0x4F, 0x49, 0x4C, 0x32]).take 32

/-- A line as it stands on the die: XTS-AES-256 with the line's number as the tweak. -/
def coilCell (key : List Byte) (line : Nat) (plain : List Byte) : List Byte := Config.cipher 0 false key (leBytes 16 line) [] plain

/-- A cell of the die replaced; the lines of the list rise. -/
def putCell (line : Nat) (c : List Byte) : List (Nat × List Byte) → List (Nat × List Byte)
  | [] => [(line, c)]
  | x :: xs => if line < x.1 then (line, c) :: x :: xs else if line = x.1 then (line, c) :: xs else x :: putCell line c xs

/-- The line number of line 0 of region 2 or 3 (Table 12-1). -/
def regionLine (mirror : Bool) : Nat := (if mirror then 0x650000000 else 0x50000000) / 64

/-- Lines of region 2 or 3 encrypted and persisted, from a line of the region on (R327). An encryption whose inversion does not give the
input is a Coil failure, which COIL_FAILURE reports (DEDUCED, log 165). -/
def storeLines (mirror : Bool) (first lines : Nat) (bytes : List Byte) (s : State) : State :=
  { s with nv.cells := (List.range lines).foldl (fun cs k =>
      let n := regionLine mirror + first + k
      putCell n (coilCell s.col.key n (padTo 64 (bytesAt bytes (64 * k) 64))) cs) s.nv.cells }

/-- A line of the die belongs to a record of region 2 or 3. -/
def recordHas (mirror : Bool) (r : CoilRec) (line : Nat) : Bool :=
  decide (regionLine mirror + r.line ≤ line) && decide (line < regionLine mirror + r.line + r.lines)

/-! ### Records -/

/-- The lines of a record (Table 12-2). -/
def recLines (s : State) (b : CoilBody) : Nat :=
  match b with
  | .data id domain _ => (match bundleOf s domain id with | some x => 1 + x.chunks.length + 8 * x.units | none => 1)
  | .delta _ _ es => 1 + es.length
  | .deltaOp _ _ op nums bytes => 1 + Config.opLines op nums bytes % 1024
  | _ => 1

/-- The lines between head and tail. -/
def usedLines (s : State) : Nat := s.nv.journal.foldl (fun n r => n + r.lines) 0

/-- The oldest unreleased record's jseq, or the next one to be written (Table 12-9). -/
def headJseq (s : State) : Nat := match s.nv.journal with | r :: _ => r.jseq | [] => s.nv.nextJseq

/-- The line at which the head record starts. -/
def headLine (s : State) : Nat := match s.nv.journal with | r :: _ => r.line | [] => s.nv.tailLine

/-- Region 2 fill in 0.01 % (R322). -/
def coilFill (s : State) : Nat := usedLines s * 10000 / journalLines

/-- The lines of the pad record that a record of some lines would need (R316). -/
def padLines (s : State) (lines : Nat) : Nat :=
  if journalLines < s.nv.tailLine + lines then journalLines - s.nv.tailLine else 0

/-- A record of some lines finds space between tail and head (R316, R322). -/
def coilFits (s : State) (lines : Nat) : Bool := decide (usedLines s + padLines s lines + lines ≤ journalLines - 2)

/-- Records are sent to the peer: the mirror is on or catches up (R317, R320). -/
def mirrorSends (s : State) : Bool := s.col.mirrorOn || s.col.catchUp.isSome

/-- A record sent to the peer as a MIRROR message (R317, Table 17-2). -/
def sendRecord (r : CoilRec) (s : State) : State :=
  let s := { s with col.sent := r.jseq, col.ackSince := if s.col.ackSince.isSome then s.col.ackSince else some s.now }
  sendPeer 0x10 [r.line] r.bytes (64 * r.lines) s

/-- A record accepted at the tail with the next jseq, and sent to the peer (R313, R316, R317). -/
def acceptRecord (body : CoilBody) (lines : Nat) (s : State) : State :=
  let r : CoilRec := { jseq := s.nv.nextJseq, line := s.nv.tailLine, lines := lines, body := body,
                       bytes := recordLines s body s.nv.nextJseq lines }
  let s := { s with
    nv.journal := s.nv.journal ++ [r], nv.nextJseq := s.nv.nextJseq + 1, nv.tailLine := s.nv.tailLine + lines
    nv.accept := s.nv.accept ++ [{ mirror := false, jseq := r.jseq, lines := lines }] }
  let s := storeLines false r.line lines r.bytes s
  if mirrorSends s then sendRecord r s else s

/-- The jseq of the last delta record of an arrival number and volume. -/
def lastDelta (s : State) (arrival vol : Nat) : Nat :=
  s.nv.journal.foldl (fun j r => match r.body with
    | .delta a v _ => if a = arrival ∧ v = vol then r.jseq else j
    | .deltaOp a v _ _ _ => if a = arrival ∧ v = vol then r.jseq else j
    | _ => j) 0

/-- A commit record names its delta's jseq, known once the delta stands in the stream (Table 12-5). -/
def nameDelta (s : State) (b : CoilBody) : CoilBody :=
  match b with
  | .commit a _ v p n f k => .commit a (lastDelta s a v) v p n f k
  | .commitOp a _ v => .commitOp a (lastDelta s a v) v
  | x => x

/-- A record placed at the tail; one that would cross the region's end follows a pad record and starts at line 2
(R316). -/
def placeRecord (body : CoilBody) (s : State) : State :=
  let lines := recLines s body
  let pad := padLines s lines
  let s := if journalLines < s.nv.tailLine + lines then
      { (if pad = 0 then s else acceptRecord .pad pad s) with nv.tailLine := 2 }
    else s
  acceptRecord (nameDelta s body) lines s

/-- A record appended; it waits while Coil accepts nothing or no space is free, which counts code 0x094 once for each
episode (R322, R323). -/
def appendRecord (body : CoilBody) (s : State) : State :=
  if !s.col.accepting then { s with col.waiting := s.col.waiting ++ [body] }
  else if s.col.waiting ≠ [] ∨ !coilFits s (recLines s body) then
    let first : Bool := !s.col.fullWait
    countIf first 0x094 { s with
      col.waiting := s.col.waiting ++ [body], col.fullWait := true
      col.fullWaits := if first then satAdd (2 ^ 32 - 1) s.col.fullWaits 1 else s.col.fullWaits }
  else placeRecord body s

/-- The peer-absence policy in force: PID 0x0900, and 0 for a severed standby whatever that PID holds (R319, R457). -/
def absencePolicy (s : State) : Nat := if s.hdl.severed && !s.hdl.holder then 0 else pidVal s 0x0900

/-- The policy governs writes granted a lock from now on (R319): single-copy commit latches and counts code 0x090 once for the
loss; the other policy refuses. -/
def applyPolicy (s : State) : State :=
  if absencePolicy s = 1 then
    (if s.col.singleCopy then s
     else countIf (!s.col.counted) 0x090 { s with col.singleCopy := true, col.latched := true, col.refusing := false, col.counted := true })
  else { s with col.singleCopy := false, col.refusing := true }

/-- The mirror has been lost and has not caught up again (R319, R320). -/
def mirrorLost (s : State) : Bool := s.col.singleCopy || s.col.refusing

/-- The mirror is lost (R319): sending stops and code 0x091 is counted; the policy takes effect. A head that has never paired
has no mirror to lose before it starts data service. -/
def loseMirror (s : State) : State :=
  if !s.col.mirrorOn && s.col.catchUp.isNone && (mirrorLost s || !s.boot.service) then s
  else applyPolicy (countEvent 0x091 0 { s with
    col.mirrorOn := false, col.catchUp := none, col.ackSince := none, col.singleCopy := false, col.refusing := false, col.counted := false })

/-- PID 0x0900 changed, or a sever ended, while the mirror is lost (R319, R457). -/
def policyChanged (s : State) : State := if mirrorLost s then applyPolicy s else s

/-- A write granted a lock now is refused: the refusing policy, or a severed standby whatever the PID (R319, R457). -/
def policyRefuses (s : State) : Bool := s.col.refusing || (s.hdl.severed && !s.hdl.holder)

/-- The jseq up to which records are committed (R318, R319). -/
def commitTarget (s : State) : Nat := if s.col.mirrorOn then min s.nv.persisted s.col.peerAck else s.nv.persisted

/-- The peer is told of the persisted point of its copy and of this head's release point (R317, R321). -/
def sendMirrorAck (s : State) : State := sendPeer 0x11 [s.nv.mirrorPersisted, headJseq s] [] 0 s

/-- The released run at the head leaves the stream; the peer is told (R321). -/
def advanceHead (s : State) : State :=
  let gone := s.nv.journal.takeWhile (·.released)
  if gone = [] then s
  else
    let s := { s with
      nv.journal := s.nv.journal.dropWhile (·.released)
      col.headMoved := s.col.headMoved + gone.foldl (fun n r => n + r.lines) 0
      col.headerAt := if s.col.headMoved = 0 then s.now else s.col.headerAt }
    if s.hdl.paired then sendMirrorAck s else s

/-- Persisted records that satisfy a test are released (R321). -/
def releaseWhere (t : CoilRec → Bool) (s : State) : State :=
  let whole := fun (r : CoilRec) => decide (r.jseq ≤ s.nv.persisted) && (r.body == .pad || t r)
  advanceHead { s with nv.journal := updWhere whole (fun r => { r with released := true }) s.nv.journal }

/-- Lines persisted in the order accepted: the records that are now whole, and the rest (R313). -/
def persistLines : Nat → List Accept → List Accept × List Accept
  | _, [] => ([], [])
  | n, a :: as =>
    if a.lines ≤ n then
      let r := persistLines (n - a.lines) as
      (a :: r.1, r.2)
    else ([], { a with lines := a.lines - n } :: as)

/-- The lines of Coil that have been written in the life of the die, as life in 0.01 % (R328; DEDUCED, log 28: the
rotation spreads writes evenly over 2^30 physical lines of 2×10^9 writes each). -/
def lifeOf (lines : Nat) : Nat := ceilDiv lines (2 ^ 30) * 10000 / 2000000000

/-- COL_LIFE. -/
def coilLife (s : State) : Nat := lifeOf s.nv.coilLife

/-- Lines written to the die; code 0x093 when life reaches PID 0x0903 and once more at 100 % (R328). -/
def wearCoil (lines : Nat) (s : State) : State :=
  let before := coilLife s
  let s := { s with nv.coilLife := s.nv.coilLife + lines }
  let crosses := fun (limit : Nat) => decide (before < limit) && decide (limit ≤ coilLife s)
  countIf (crosses 10000 && pidVal s 0x0903 != 100) 0x093 (countIf (crosses (100 * pidVal s 0x0903)) 0x093 s)

/-- The 64 bytes of a journal header with a value in its crc field (Table 12-9). -/
def headerWith (mirror sideB : Bool) (h : JHeader) (crc : Nat) : List Byte :=
  leBytes 1 0x81 ++ leBytes 1 (if mirror then 3 else 2) ++ leBytes 2 h.format ++ leBytes 4 crc ++ leBytes 8 h.gen ++ leBytes 8 h.headJseq ++
    leBytes 8 h.headLine ++ leBytes 1 (flagAt sideB 0) ++ leBytes 1 (flagAt h.tookOver 0) ++ zeros 6 ++
    leBytes 8 (if h.tookOver then h.takeoverJseq else 0) ++ leBytes 8 h.boot ++ zeros 8

/-- The 64 bytes of a journal header, of the stream that a side writes. -/
def headerBytes (mirror sideB : Bool) (h : JHeader) : List Byte := headerWith mirror sideB h (crc32c (headerWith mirror sideB h 0))

/-- A journal header written: its gen rises, and the copy of that parity takes it, so that the other copy stays whole (R316; DESIGN
CHOICE, log 151: which copy). -/
def putHeader (mirror : Bool) (h : JHeader) (s : State) : State :=
  let h := { h with gen := h.gen + 1, boot := s.nv.bootCounter }
  let s := storeLines mirror (h.gen % 2) 1 (headerBytes mirror (s.aon.side != mirror) h) s
  wearCoil 1 (if mirror then { s with nv.header3 := h } else { s with nv.header2 := h })

/-- The region 2 header written (Table 12-9). -/
def writeHeader2 (s : State) : State :=
  putHeader false { s.nv.header2 with format := s.nv.format, headJseq := headJseq s, headLine := headLine s, tookOver := false }
    { s with col.headMoved := 0 }

/-- The region 3 header written with a takeover point (R326). -/
def writeHeader3 (t : Nat) (s : State) : State :=
  putHeader true { s.nv.header3 with format := s.nv.format, tookOver := true, takeoverJseq := t } s

/-- An operation that commits in Coil: its delta record and its commit record, of subtype 0x01 (R318, Table 12-5). -/
def appendOp (arrival vol op : Nat) (nums : List Nat) (bytes : List Byte) (s : State) : State :=
  appendRecord (.commitOp arrival 0 vol) (appendRecord (.deltaOp arrival vol op nums bytes) s)

/-- The format in force, in the layout roots (R170, R171). -/
abbrev opxFormat : Nat := 0xF009

/-- A PLEM operation that would commit in Coil is refused with NET.PEER (R319, R457). -/
def coilRefusal (s : State) (d : Decision) : Decision :=
  if isSuccess d.status && d.status != stOkNochange && policyRefuses s then refuse stNetPeer 0 else d

end Sys2Proof.Machine
end

