-- ==== Sys2Proof/Machine/MapOps.lean ====
section
/-! DEFINITION. Shared operations on the logical side of the store: guards, chunks, volumes, maps, references, stored
chunks and bundles (R195 to R198, R257 to R287). -/

namespace Sys2Proof.Machine

/-! ### Guards (Tables 07-7, 10-5) -/

/-- One bit of the CRC-16 of polynomial 0x8BB7, most significant bit first. -/
def crc16Bit (c : Nat) : Nat := if c / 32768 % 2 = 1 then Nat.xor (c * 2 % 65536) 0x8BB7 else c * 2 % 65536

/-- One byte into the CRC-16. -/
def crc16Byte (c : Nat) (b : Byte) : Nat :=
  crc16Bit (crc16Bit (crc16Bit (crc16Bit (crc16Bit (crc16Bit (crc16Bit (crc16Bit (Nat.xor c (b.toNat * 256)))))))))

/-- The 16-bit guard of a block (Table 07-7; PRESUMED, log 12: initial value zero and bit order are NVMe's). -/
def crc16 (l : List Byte) : Nat := l.foldl crc16Byte 0

/-- The data bytes of a block of a format (Table 07-7). -/
def blockBytes (fmt : Nat) : Nat := if fmt ≤ 1 then 512 else 4096

/-- The metadata bytes of a block of a format (Table 07-7). -/
def metaBytes (fmt : Nat) : Nat := if fmt = 4 then 16 else if fmt = 1 ∨ fmt = 3 then 8 else 0

/-- The blocks of a chunk (R257). -/
def chunkBlocks (fmt : Nat) : Nat := if fmt ≤ 1 then 8 else 1

/-- The blocks of 2 MiB of data (R218). -/
def partBlocks (fmt : Nat) : Nat := 2097152 / blockBytes fmt

/-- The guard a data host sees on a block of a format; zero where the format has none. -/
def blockGuard (fmt : Nat) (data : List Byte) : Nat := if fmt = 4 then crc64 data else if fmt = 1 ∨ fmt = 3 then crc16 data else 0

/-- The guard set of a chunk (Table 10-5). -/
def guardSet (fmt : Nat) (data : List Byte) : List Nat :=
  if fmt = 1 then (List.range 8).map fun k => crc16 (bytesAt data (512 * k) 512)
  else if fmt = 3 then [crc16 data] else [crc64 data]

/-- The reference tag's width in bits (R195, R197). -/
def refBits (fmt : Nat) : Nat := if fmt = 4 then 48 else 32

/-- An escape value disables the checks of a block (R196). -/
def escaped (fmt pi : Nat) (b : Block) : Bool :=
  b.app == 0xFFFF && (pi != 3 || b.ref == 2 ^ refBits fmt - 1)

/-! ### Domains, volumes, snapshots -/

/-- A domain changed. -/
def updDomain (n : Nat) (f : Domain → Domain) (s : State) : State :=
  { s with nv.domains := updWhere (fun d => d.num == n) f s.nv.domains }

/-- A volume changed. -/
def updVolume (n : Nat) (f : Volume → Volume) (s : State) : State :=
  { s with nv.volumes := updWhere (fun v => v.num == n) f s.nv.volumes }

/-- The snapshot with an identifier. -/
def snapOf (s : State) (n : Nat) : Option Snapshot := s.nv.snaps.find? fun x => x.id == n

/-- This head owns a volume (R278). -/
def ownsVolume (s : State) (v : Volume) : Bool := v.ownerB == s.aon.side

/-! ### Stored chunks and bundles (R265, R275 to R277) -/

/-- A stored chunk changed. -/
def updStored (id : Nat) (f : Stored → Stored) (s : State) : State :=
  { s with nv.stored := updWhere (fun x => x.id == id) f s.nv.stored }

/-- A bundle changed. -/
def updBundle (domain id : Nat) (f : Bundle → Bundle) (s : State) : State :=
  { s with nv.bundles := updWhere (fun b => b.domain == domain && b.id == id) f s.nv.bundles }

/-- The live chunks of a bundle. -/
def liveChunks (s : State) (b : Bundle) : List Nat := b.chunks.filter fun c => (storedOf s c).isSome

/-- Bytes of a bundle's share, in 840ths of a byte: extent times chunks counted over chunks held (R287). -/
def costShare (b : Bundle) (n : Nat) : Nat := b.units * 512 * 840 * n / max 1 b.chunks.length

/-- The stored bytes of the bundles that satisfy a test, rounded down (R287). -/
def storedBytes (s : State) (t : Bundle → Bool) : Nat :=
  (s.nv.bundles.foldl (fun n b => if t b then n + costShare b (liveChunks s b).length else n) 0) / 840

/-- The garbage bytes of the bundles that satisfy a test, rounded down (R287). -/
def garbageBytes (s : State) (t : Bundle → Bool) : Nat :=
  (s.nv.bundles.foldl (fun n b => if t b then n + costShare b (b.chunks.length - (liveChunks s b).length) else n) 0) / 840

/-! ### Maps and references (R257, R259, R286) -/

/-- The map of a volume or snapshot. -/
def mapOf (s : State) (snap : Bool) (num : Nat) : List MapEntry :=
  match s.nv.maps.find? fun m => m.snap == snap && m.num == num with
  | some m => m.entries
  | none => []

/-- The entry of a chunk; none when the chunk is deallocated. -/
def entryAt (l : List MapEntry) (k : Nat) : Option MapEntry := l.find? fun e => e.chunk == k

/-- The map entry that a delta entry leaves: none for a deallocated chunk. -/
def toEntry (d : DeltaEntry) : Option MapEntry :=
  if d.kind = 2 then none
  else some { chunk := d.chunk, kind := d.kind, stored := d.stored, dealloc := d.dealloc, apps := d.apps, refs := d.refs, dup := d.dup }

/-- An entry put into a map, whose chunks rise. -/
def putEntry (e : MapEntry) : List MapEntry → List MapEntry
  | [] => [e]
  | x :: xs => if e.chunk < x.chunk then e :: x :: xs else if e.chunk = x.chunk then e :: xs else x :: putEntry e xs

/-- One delta entry applied to a map. -/
def applyEntry (l : List MapEntry) (d : DeltaEntry) : List MapEntry :=
  match toEntry d with
  | some e => putEntry e l
  | none => l.filter fun e => e.chunk != d.chunk

/-- A map replaced; an empty map is not listed. -/
def setMap (snap : Bool) (num : Nat) (l : List MapEntry) (s : State) : State :=
  let rest := s.nv.maps.filter fun m => !(m.snap == snap && m.num == num)
  { s with nv.maps := if l = [] then rest else rest ++ [{ snap := snap, num := num, entries := l }] }

/-- References to a stored chunk: mappings of volumes and snapshots (R286). -/
def refCount (s : State) (id : Nat) : Nat :=
  s.nv.maps.foldl (fun n m => n + (m.entries.filter fun e => e.kind == 0 && e.stored == id).length) 0

/-- The map that a snapshot or a clone takes: none of its references is made by deduplication (R285, R286). -/
def copiedMap (s : State) (snap : Bool) (num : Nat) : List MapEntry := (mapOf s snap num).map fun e => { e with dup := false }

/-- The references to a stored chunk that deduplication has made: of the maps, of deltas whose part has not committed, and those taken for
the peer (R266, R267). -/
def dedupCount (s : State) (x : Stored) : Nat :=
  x.taken +
  s.nv.maps.foldl (fun n m => n + (m.entries.filter fun e => e.kind == 0 && e.stored == x.id && e.dup).length) 0 +
  s.hfe.tags.foldl (fun n t => n + if t.state = 3 then
    (t.entries.filter fun e => e.kind == 0 && e.stored == x.id && e.dup && entryAt (mapOf s false t.vol) e.chunk != toEntry e).length else 0) 0

/-- A delta that is not yet committed names a stored chunk. -/
def refPending (s : State) (id : Nat) : Bool :=
  s.hfe.tags.any fun t => t.state != 5 && t.entries.any fun e => e.kind == 0 && e.stored == id

/-- A committed chunk whose count has reached zero and to which no reference is taken is freed, its fingerprint entries with it (R286). -/
def freeIfUnused (id : Nat) (s : State) : State :=
  match storedOf s id with
  | none => s
  | some x =>
    if x.committed && x.taken == 0 && refCount s id == 0 && !refPending s id then
      { s with nv.stored := s.nv.stored.filter fun y => y.id != id, red.hot := s.red.hot.filter (· != id) }
    else s

/-- The stored chunks that a list of entries maps. -/
def mappedIds (l : List MapEntry) : List Nat := (l.filter fun e => e.kind == 0).map (·.stored)

/-- A map replaced, and the chunks it no longer references freed where unused (R286). -/
def replaceMap (snap : Bool) (num : Nat) (l : List MapEntry) (s : State) : State :=
  let old := mappedIds (mapOf s snap num)
  let kept := mappedIds l
  ((old.filter fun id => !kept.contains id).eraseDups).foldl (fun s id => freeIfUnused id s) (setMap snap num l s)

/-- A map delta of a volume applied (R324 step 4). -/
def applyDelta (vol : Nat) (es : List DeltaEntry) (s : State) : State :=
  let old := mapOf s false vol
  let new := es.foldl applyEntry old
  let touched := mappedIds (old.filter fun e => es.any fun d => d.chunk == e.chunk)
  touched.eraseDups.foldl (fun s id => freeIfUnused id s) (setMap false vol new s)

/-! ### Content of chunks and blocks -/

/-- The pending entry of a chunk: the latest earlier merge that is not yet committed (R258). -/
def pendingEntry (s : State) (vol k : Nat) : Option DeltaEntry :=
  (s.hfe.tags.foldl (fun (b : Option (Nat × DeltaEntry)) t =>
    if t.vol = vol ∧ t.reduced ∧ t.state = 3 then
      match t.entries.find? fun e => e.chunk == k with
      | some e => (match b with | some x => if x.1 < t.arrival then some (t.arrival, e) else b | none => some (t.arrival, e))
      | none => b
    else b) none).map (·.2)

/-- The entry that a merge takes as the chunk's current content. -/
def currentEntry (s : State) (vol k : Nat) : Option MapEntry :=
  match pendingEntry s vol k with
  | some d => toEntry d
  | none => entryAt (mapOf s false vol) k

/-- The 4,096 bytes of a chunk's entry. -/
def entryData (s : State) (e : Option MapEntry) : List Byte :=
  match e with
  | some x => if x.kind = 0 then (match storedOf s x.stored with | some c => padTo 4096 c.data | none => zeros 4096) else zeros 4096
  | none => zeros 4096

/-- Block `b` of a chunk is deallocated. -/
def blockDealloc (e : Option MapEntry) (b : Nat) : Bool :=
  match e with | some x => bit x.dealloc b | none => true

/-- A chunk's entry maps a lost chunk (R371). -/
def entryLost (s : State) (e : Option MapEntry) : Bool :=
  match e with
  | some x => x.kind == 0 && (match storedOf s x.stored with | some c => c.lost | none => false)
  | none => false

/-- A logical block as a read returns it (R198, R259): its data, its recomputed guard and its tags; the reference tag
is regenerated for types 1 and 2. -/
def readBlock (s : State) (v : Volume) (expRef lba off : Nat) : Block :=
  let n := chunkBlocks v.format
  let e := entryAt (mapOf s false v.num) (lba / n)
  let b := lba % n
  let data := if blockDealloc e b then zeros (blockBytes v.format)
    else bytesAt (entryData s e) (b * blockBytes v.format) (blockBytes v.format)
  let ones := 2 ^ refBits v.format - 1
  if blockDealloc e b then
    { data := data, guard := if v.pi = 0 then 0 else blockGuard v.format data, app := if v.pi = 0 then 0 else 0xFFFF,
      ref := if v.pi = 0 then 0 else ones }
  else if v.pi = 0 then { data := data }
  else
    let apps := match e with | some x => x.apps | none => []
    let refs := match e with | some x => x.refs | none => []
    { data := data, guard := blockGuard v.format data, app := (apps[b]?).getD 0
      ref := if v.pi = 1 then lba % 2 ^ refBits v.format
             else if v.pi = 2 then (expRef + off) % 2 ^ refBits v.format
             else (refs[b]?).getD 0 }

/-- The blocks that a read returns. -/
def readBlocks (s : State) (v : Volume) (expRef slba n : Nat) : List Block :=
  (List.range n).map fun k => readBlock s v expRef (slba + k) k

/-- The first block of a range that maps a lost chunk (R372). -/
def firstLost (s : State) (v : Volume) (slba n : Nat) : Option Nat :=
  ((List.range n).map (slba + ·)).find? fun lba => entryLost s (entryAt (mapOf s false v.num) (lba / chunkBlocks v.format))

/-! ### Protection-information checks (R196 to R198) -/

/-- The check of one block: guard, application tag, reference tag. On a write the guard is always checked. -/
def piCheck (fmt pi : Nat) (ctl : PiCtl) (b : Block) (lba off : Nat) : NvmeStatus :=
  if escaped fmt pi b then .success
  else if b.guard ≠ blockGuard fmt b.data then .guardError
  else if bit ctl.prchk 1 && Nat.land (Nat.xor b.app ctl.appTag) ctl.appMask != 0 then .appTagError
  else if bit ctl.prchk 0 && pi == 1 && b.ref != lba % 2 ^ refBits fmt then .refTagError
  else if bit ctl.prchk 0 && pi == 2 && b.ref != (ctl.refTag + off) % 2 ^ refBits fmt then .refTagError
  else .success

/-- The check of one block of a read: the tags that the host expects (R198). -/
def piReadCheck (fmt pi : Nat) (ctl : PiCtl) (b : Block) (off : Nat) : NvmeStatus :=
  if escaped fmt pi b then .success
  else if bit ctl.prchk 1 && Nat.land (Nat.xor b.app ctl.appTag) ctl.appMask != 0 then .appTagError
  else if bit ctl.prchk 0 && pi != 3 && b.ref != (ctl.refTag + off) % 2 ^ refBits fmt then .refTagError
  else .success

/-- The first failing block's status over a list of blocks. -/
def firstBad (check : Block → Nat → NvmeStatus) : List Block → Nat → NvmeStatus
  | [], _ => .success
  | b :: bs, k => match check b k with
    | .success => firstBad check bs (k + 1)
    | e => e

/-- The blocks before the first failing one. -/
def goodPrefix (check : Block → Nat → NvmeStatus) : List Block → Nat → List Block
  | [], _ => []
  | b :: bs, k => if check b k = .success then b :: goodPrefix check bs (k + 1) else []

end Sys2Proof.Machine
end

