-- ==== Sys2Proof/Machine/CipherOps.lean ====
section
/-! DEFINITION. Shared operations on key slots, usage counts and the key usage table (R290 to R303). -/

namespace Sys2Proof.Machine

/-- A slot changed. -/
def updSlot (n : Nat) (f : Slot → Slot) (s : State) : State :=
  { s with cip.slots := updWhere (fun x => x.num == n) f s.cip.slots }

/-- The usage limit of a usage code; 0 for none (Table 11-1). -/
def usageLimit (u : Nat) : Nat := if u = 1 ∨ u = 2 then 2 ^ 40 else if u = 3 ∨ u = 4 then 2 ^ 32 else 0

/-- A usage permits a mode (Table 11-1): 0 XTS, 1 GCM, 2 CBC, 3 CTR, 4 CFB-128. -/
def modeAllowed (u mode : Nat) : Bool :=
  if u = 1 ∨ u = 2 then mode == 0
  else if u = 3 ∨ u = 4 then mode == 1
  else if u = 5 ∨ u = 6 then decide (2 ≤ mode) && decide (mode ≤ 4)
  else false

/-- The key check value (R290): over the ASCII bytes "CAERZORKCV". -/
def kcvOf (key : List Byte) : List Byte :=
  (Config.hmac384 key [0x43, 0x41, 0x45, 0x52, 0x5A, 0x4F, 0x52, 0x4B, 0x43, 0x56]).take 16

/-- The usage-table entry of a kcv and side: bound and destroyed mark (R294). -/
def usageEntry (s : State) (kcv : List Byte) (sideB : Bool) : Option (Nat × Bool) :=
  (s.nv.usage.find? fun e => e.1 == kcv && e.2.1 == sideB).map fun e => e.2.2

/-- A usage-table entry put. -/
def putUsage (kcv : List Byte) (sideB : Bool) (bound : Nat) (destroyed : Bool) (s : State) : State :=
  { s with nv.usage := (kcv, sideB, bound, destroyed) :: s.nv.usage.filter fun e => !(e.1 == kcv && e.2.1 == sideB) }

/-- The entries of the usage table (R294). -/
abbrev usageCap : Nat := 262144

/-- The first bound above a count, in steps of 65,536 from a bound (R294). -/
def raisedBound (bound count : Nat) : Nat := if count < bound then bound else bound + ((count - bound) / 65536 + 1) * 65536

/-- The warning point of a usage: the limit less 2^24 (R303). -/
def warnPoint (u : Nat) : Nat := usageLimit u - 2 ^ 24

/-- A request would take the count past its limit (R303). -/
def overLimit (x : Slot) (n : Nat) : Bool := usageLimit x.usage != 0 && decide (usageLimit x.usage < x.count + n)

/-- A refusal with KEY.EXHAUSTED: code 0x082; a domain key's exhaustion makes the domain write-protected (R263, R303). -/
def keyExhausted (x : Slot) (s : State) : State :=
  let s := countEvent 0x082 0 { s with cip.exhausted := satAdd (2 ^ 32 - 1) s.cip.exhausted 1 }
  if bit x.attrs 2 then updDomain x.domain (fun d => { d with writeProtected := true }) s else s

/-- Usage counted at acceptance: the bound is raised before the count reaches it, code 0x081 once at the warning point
(R294, R303). -/
def chargeKey (x : Slot) (n : Nat) (s : State) : State :=
  let count := x.count + n
  let warns : Bool := usageLimit x.usage != 0 && decide (warnPoint x.usage ≤ count) && !x.warned
  let s := updSlot x.num (fun y => { y with count := count, warned := y.warned || warns }) s
  let s := if usageLimit x.usage = 0 then s
    else match usageEntry s x.kcv s.aon.side with
      | some e => if e.1 ≤ count then putUsage x.kcv s.aon.side (raisedBound e.1 count) e.2 s else s
      | none => putUsage x.kcv s.aon.side (raisedBound 0 count) false s
  countIf warns 0x081 s

end Sys2Proof.Machine
end

