-- ==== Sys2Proof/Machine/MediaOps.lean ====
section
/-! DEFINITION. Shared operations on the physical side of the store: generations and rows, members, pack blocks, free
space, bands, segments and their intents, placement of bundles (R332 to R348, R359 to R371, R381 to R397). -/

namespace Sys2Proof.Machine

/-- The operation code of the map deltas that move bundles (R371, R393). -/
abbrev opxGc : Nat := 0xF001
/-- A batch of rebuilt strips (R367). -/
abbrev opxRebuild : Nat := 0xF002
/-- The declaration of a failed member (R360). -/
abbrev opxDeclare : Nat := 0xF006

/-- A pack leaves placement for a firmware load, or returns to it (R169). -/
abbrev opxTempAbsent : Nat := 0xF00A

/-- This head works on the bands of a side: its own, or the peer's too while it holds the Handle and the peer is silent or taken over
(R369, R390, R399). -/
def worksSide (s : State) (sideB : Bool) : Bool := sideB == s.aon.side || (s.hdl.holder && (s.hdl.silent || (s.nv.header3.tookOver && !s.hdl.paired)))

/-! ### Generations, rows, members (R332 to R341) -/

/-- The generation in which bands are allocated: the new one while a change migrates (R353, R355). -/
def allocGen (s : State) : Option Gen := if s.nv.change = 1 then s.nv.genNew else s.nv.genCur

/-- The generation being emptied. -/
def emptiedGen (s : State) : Option Gen :=
  if s.nv.change = 1 ∨ s.nv.change = 3 then s.nv.genCur else if s.nv.change = 2 then s.nv.genNew else none

/-- The pack recorded on a port; the failed member first, while its replacement waits for a switch (R362). -/
def packOf (s : State) (port : Nat) : Option Pack := s.nv.packs.find? fun p => p.port == port

/-- The pack admitted last on a port. -/
def packNow (s : State) (port : Nat) : Option Pack := (s.nv.packs.filter fun p => p.port == port).getLast?

/-- A generation is the new one of a running change. -/
def isNewGen (s : State) (g : Gen) : Bool := match s.nv.genNew with | some h => h.num == g.num | none => false

/-- The pack of a generation's member on a port. -/
def packIn (s : State) (g : Gen) (port : Nat) : Option Pack := if isNewGen s g then packNow s port else packOf s port

/-- A pack changed, by port and identity. -/
def updPack (port identity : Nat) (f : Pack → Pack) (s : State) : State :=
  { s with nv.packs := updWhere (fun p => p.port == port && p.identity == identity) f s.nv.packs }

/-- The pack admitted last on a port changed. -/
def updPackNow (port : Nat) (f : Pack → Pack) (s : State) : State :=
  match packNow s port with | some p => updPack port p.identity f s | none => s

/-- A port is a member of a generation. -/
def memberOf (g : Option Gen) (port : Nat) : Bool := match g with | some x => bit x.members port | none => false

/-- A port is a member of the current or the new generation. -/
def isMember (s : State) (port : Nat) : Bool := memberOf s.nv.genCur port || memberOf s.nv.genNew port

/-- The condition of a generation's member (Table 14-1; Pack.cond). -/
def condOf (s : State) (g : Gen) (port : Nat) : Nat := match packIn s g port with | some p => p.cond | none => 6

/-- This head reaches the pack on a port: its link is in L0, its start has passed, it is not fenced, and no entry of its
measurement waits (R80, R432 to R434). -/
def started (s : State) (port : Nat) : Bool :=
  let p := portOf s port
  p.link == 3 && p.startStep == 4 && !p.fenced && !p.sideErr && !p.verErr && !p.geomErr && !lateWaits s (0x40 + port)

/-- A pack is below its floor (R143). -/
def packBelowFloor (s : State) (port : Nat) : Bool := s.brd.meas.any fun m => m.comp == 0x40 + port && m.belowFloor

/-- The port carries media requests and data: its pack has started and is not below its floor (R143, R434). -/
def reached (s : State) (port : Nat) : Bool := started s port && !packBelowFloor s port

/-- The pack on a port is the member recorded there: its identity, and its geometry as recorded (R340, R382). -/
def sameMember (s : State) (p : Pack) : Bool := (portOf s p.port).identity == p.identity && (portOf s p.port).geom == p.geom

/-- This head reaches a member. -/
def memberHere (s : State) (p : Pack) : Bool := reached s p.port && sameMember s p

/-- The members that this head cannot reach (Table 17-5). -/
def unreachedCount (s : State) : Nat := (s.nv.packs.filter fun p => isMember s p.port && p.cond != 3 && !memberHere s p).length

/-- The peer reaches a member (R359, R361). A health record gives only the number of members that the peer cannot reach
(DEDUCED, log 39: while that is less than this head's own number, the peer is taken to reach them). -/
def peerReaches (s : State) (_port : Nat) : Bool :=
  s.hdl.paired && !s.hdl.bridge && (match s.hdl.peerHealth with | some h => decide (h.unreachable < max 1 (unreachedCount s)) | none => false)

/-- A member takes no band: failed, absent, temporarily absent, fenced, retiring, below its floor, or not reached by this head
(R143, R335, R361). -/
def unavailable (s : State) (g : Gen) (port : Nat) : Bool :=
  condOf s g port != 0 || !reached s port || (match packIn s g port with | some p => p.retiring | none => true)

/-- A member's strips are counted missing (R364): absent, temporarily absent or failed. -/
def memberMissing (s : State) (g : Gen) (port : Nat) : Bool := condOf s g port == 1 || condOf s g port == 2 || condOf s g port == 3

/-! ### Blocks of a pack (R383) -/

/-- The bytes of an erase block. -/
def eraseBytes (g : Geom) : Nat := g.blockUnits * 65536

/-- k of R383. -/
def ckptBlocks (g : Geom) : Nat := ceilDiv 50331648 (max 1 (eraseBytes g))

/-- The reserve of one side: ceil(0.01 × B). -/
def retireHalf (g : Geom) : Nat := ceilDiv g.blocks 100

/-- U of R383. -/
def usableBlocks (g : Geom) : Nat := g.blocks - 3 * ckptBlocks g - 2 * retireHalf g

/-- The strips of a block in native mode. -/
def blockStrips (g : Geom) : Nat := eraseBytes g / 65536

/-- A block belongs to a side: even indices to side A, odd to side B (R383). -/
def sideBlock (sideB : Bool) (b : Nat) : Bool := (b % 2 == 1) == sideB

/-- The blocks of a side from 3k upward. -/
def sideBlocks (g : Geom) (sideB : Bool) : Nat :=
  let lo := 3 * ckptBlocks g
  if sideB then g.blocks / 2 - lo / 2 else (g.blocks + 1) / 2 - (lo + 1) / 2

/-- The spare blocks of one side of a member (R383). -/
def spareHalf (g : Geom) (gen : Gen) : Nat := ceilDiv (usableBlocks g * gen.s) (max 1 (portsOf gen.members).length) / 2

/-- The blocks of a pack that bands of a side hold. -/
def bandBlocks (s : State) (port : Nat) (sideB : Bool) : List Nat :=
  (s.nv.bands.filter fun b => b.sideB == sideB && b.state != 0).filterMap fun b => (b.blocks.find? fun e => e.1 == port).map (·.2)

/-- The retired blocks of a side. -/
def retiredSide (p : Pack) (sideB : Bool) : List Nat := p.retired.filter (sideBlock sideB)

/-- The blocks of a side that owe an erase. -/
def owedSide (s : State) (port : Nat) (sideB : Bool) : Nat :=
  (s.nv.owedErases.filter fun e => e.1 == port && sideBlock sideB e.2).length

/-- The free blocks of a side of a member outside the spare reserve (R387). -/
def freeBlocks (s : State) (gen : Gen) (port : Nat) (sideB : Bool) : Nat :=
  match packIn s gen port with
  | none => 0
  | some p =>
    sideBlocks p.geom sideB - retireHalf p.geom - (bandBlocks s port sideB).length - spareHalf p.geom gen -
      ((retiredSide p sideB).length - retireHalf p.geom) - owedSide s port sideB

/-- The free bytes of a side (R387). -/
def sideFree (s : State) (sideB : Bool) : Nat :=
  match allocGen s with
  | none => 0
  | some g => (portsOf g.members).foldl (fun n m =>
      match packIn s g m with
      | none => n
      | some p => n + freeBlocks s g m sideB * (blockStrips p.geom * 65536) * g.d / max 1 (genWidth g)) 0

/-- The data capacity of a generation (R341). -/
def dataCapacity (s : State) (g : Gen) : Nat :=
  let n := max 1 (portsOf g.members).length
  let bytes := (portsOf g.members).foldl (fun a m => match packIn s g m with
    | some p => a + usableBlocks p.geom * blockStrips p.geom * 65536
    | none => a) 0
  bytes * (n - g.s) * g.d / (n * max 1 (genWidth g))

/-- The write reserve of a side (R387). -/
def writeReserve (s : State) : Nat :=
  match allocGen s with
  | none => 0
  | some g => pidVal s 0x0B01 * (dataCapacity s g / 2) / 1000

/-- A side's free bytes are below its write reserve (R387). -/
def belowReserve (s : State) (sideB : Bool) : Bool := decide (sideFree s sideB < writeReserve s)

/-- Erase cycles of a block. -/
def blockCycles (p : Pack) (b : Nat) : Nat := match p.cycles.find? fun e => e.1 == b with | some e => e.2 | none => 0

/-- A block is free: of the side, above the checkpoint area, in no band, not retired, owing no erase, holding no rebuilt
strip. -/
def blockIsFree (s : State) (p : Pack) (sideB : Bool) (b : Nat) : Bool :=
  decide (3 * ckptBlocks p.geom ≤ b) && decide (b < p.geom.blocks) && sideBlock sideB b &&
    !(bandBlocks s p.port sideB).contains b && !p.retired.contains b && !s.nv.owedErases.contains (p.port, b)

/-- The erased free block of a side with the fewest erase cycles; a tie goes to the lowest index (R385). -/
def pickBlock (s : State) (p : Pack) (sideB : Bool) : Option Nat :=
  let lo := 3 * ckptBlocks p.geom
  let tries := 2 * ((bandBlocks s p.port sideB).length + p.retired.length + s.nv.owedErases.length + p.cycles.length) + 2
  let cand := ((List.range tries).map (lo + ·) ++ p.cycles.map (·.1)).filter (blockIsFree s p sideB)
  cand.foldl (fun b x => match b with
    | none => some x
    | some y => if blockCycles p x < blockCycles p y ∨ (blockCycles p x = blockCycles p y ∧ x < y) then some x else some y) none

/-! ### Bands and segments (R333, R385, R386) -/

/-- A band changed. -/
def updBand (n : Nat) (f : Band → Band) (s : State) : State :=
  { s with nv.bands := updWhere (fun b => b.num == n) f s.nv.bands }

/-- A segment changed. -/
def updSeg (n : Nat) (f : Segment → Segment) (s : State) : State :=
  { s with nv.segs := updWhere (fun x => x.num == n) f s.nv.segs }

/-- The target buffer: 0 for the first position, then the one not in force (R343). -/
def targetBuffer (x : Segment) : Nat := if x.positions.any fun p => p.state == 2 then 1 - x.buffer else 0

/-- A position put into a segment. -/
def putPos (p : Pos) (x : Segment) : Segment :=
  { x with positions := x.positions.filter (fun q => q.idx != p.idx) ++ [p] }

/-- The segments a band holds (R332, R386). -/
def bandSegments (s : State) (b : Band) : Nat :=
  let sizes := b.blocks.filterMap fun e => ((genOf s b.gen).bind fun g => packIn s g e.1).map fun p => if b.slc then eraseBytes p.geom / max 1 p.geom.cell / 65536 else blockStrips p.geom
  min 65536 (sizes.foldl Nat.min 65536)

/-- The open segments of this head. -/
def openSegs (s : State) : List Segment := s.nv.segs.filter fun x => (x.state == 0 || x.state == 1) && x.sideB == s.aon.side

/-- A band of this head's side holds a live extent: a bundle with a live chunk placed in it. -/
def bandLive (s : State) (band : Nat) : Bool :=
  s.nv.bundles.any fun b => (match b.place with | some p => segBand p.1 == band | none => false) && liveChunks s b != []

/-- A segment holds a live extent. -/
def segLive (s : State) (seg : Nat) : Bool :=
  s.nv.bundles.any fun b => (match b.place with | some p => p.1 == seg | none => false) && liveChunks s b != []

/-! ### Missing positions, margin, the queue (R364 to R371) -/

/-- A position is missing: its member is missing and the strip has not been rebuilt, or the strip is unreadable (R364).
Void and unfilled positions are zero and never missing. -/
def posMissing (s : State) (x : Segment) (i : Nat) : Bool :=
  match segGen s x.num with
  | none => false
  | some g =>
    let p := posOf x i
    if p.state = 0 ∨ p.state = 3 then decide (g.d ≤ i) && x.state == 2 && memberMissing s g (posMember s x.num i)
    else p.state == 4 || memberMissing s g (posMember s x.num i)

/-- The positions of a segment that are missing. -/
def missingOf (s : State) (x : Segment) : List Nat :=
  match segGen s x.num with | some g => (List.range (genWidth g)).filter (posMissing s x) | none => []

/-- The margin of a segment: P less the missing positions, at least 0. -/
def marginOf (s : State) (x : Segment) : Nat :=
  match segGen s x.num with | some g => g.p - (missingOf s x).length | none => 0

/-- A queued segment of margin and number before another (R365). -/
def queueBefore (s : State) (a b : Nat) : Bool :=
  let m := fun n => match segOf s n with | some x => marginOf s x | none => 0
  decide (m a < m b) || (m a == m b && decide (a ≤ b))

/-- A number put into the queue in its place. -/
def queueInsert (s : State) (n : Nat) : List Nat → List Nat
  | [] => [n]
  | x :: xs => if queueBefore s n x then n :: x :: xs else x :: queueInsert s n xs

/-- The segments that belong in the rebuild queue (R365, R366): sealed, of an open or sealed band, with a live extent,
and a position missing on a failed member or an unreadable strip. -/
def queueDue (s : State) (x : Segment) : Bool :=
  x.state == 2 && segLive s x.num &&
  (match bandOf s (segBand x.num) with | some b => b.state == 1 || b.state == 2 | none => false) &&
  (match segGen s x.num with
   | some g => (missingOf s x).any fun i => (posOf x i).state == 4 || condOf s g (posMember s x.num i) == 3
   | none => false)

/-- The queue rebuilt and ordered (R365). -/
def reorderQueue (s : State) : State :=
  let due := (s.nv.segs.filter (queueDue s)).map (·.num)
  { s with lay.queue := due.foldl (fun q n => queueInsert s n q) [] }

/-- The margin of a queued segment by number. -/
def queuedMargin (s : State) (n : Nat) : Nat := match segOf s n with | some x => marginOf s x | none => 0

/-- The strips of a side rebuilt into a member's spare space, those of a batch not yet committed included. -/
def spareUsed (s : State) (port : Nat) (sideB : Bool) : Nat :=
  (s.nv.segs.filter fun x => x.sideB == sideB).foldl (fun n x => n + (x.positions.filter fun p => p.spare == port + 1).length)
    (s.lay.rebuilt.filter fun t => t.2.2 == port && (match segOf s t.1 with | some x => x.sideB == sideB | none => false)).length

/-- The positions of a segment that are rebuilt: missing on a failed member, or unreadable, and not yet written (R367). -/
def rebuildDue (s : State) (x : Segment) : List Nat :=
  match segGen s x.num with
  | some g => (missingOf s x).filter fun i => ((posOf x i).state == 4 || condOf s g (posMember s x.num i) == 3) &&
      !(s.lay.rebuilt.any fun t => t.1 == x.num && t.2.1 == i)
  | none => []

/-- The member that takes a rebuilt strip of a segment (R367): present, of the segment's generation, holding no other position
of it, with spare left on that side (R383); of these, the one with the least spare used. -/
def spareTarget (s : State) (x : Segment) : Option Nat :=
  match segGen s x.num with
  | none => none
  | some g =>
    let holds := fun (m : Nat) => (List.range (genWidth g)).any (fun i => posMember s x.num i == m) ||
      s.lay.rebuilt.any fun t => t.1 == x.num && t.2.2 == m
    let fits := fun (m : Nat) => match packIn s g m with
      | some p => decide (spareUsed s m x.sideB < spareHalf p.geom g * blockStrips p.geom)
      | none => false
    ((portsOf g.members).filter fun m => condOf s g m == 0 && reached s m && !holds m && fits m).foldl (fun b m => match b with
      | none => some m
      | some y => if spareUsed s m x.sideB < spareUsed s y x.sideB then some m else some y) none

/-- A queued segment waits for spare space (R367). -/
def waitsSpare (s : State) (n : Nat) : Bool :=
  match segOf s n with | some x => rebuildDue s x != [] && (spareTarget s x).isNone | none => false

/-- Strips still wait for spare space, in the episode of LAY_RB_STS.spare_out (R367). -/
def spareCheck (s : State) : State := { s with lay.spareOut := s.lay.spareOut && s.lay.queue.any (waitsSpare s) }

/-- A queued segment stands at margin 0 (R365). -/
def margin0 (s : State) : Bool := s.lay.queue.any fun n => queuedMargin s n == 0

/-! ### Stripe intents and band records taking effect when they are durable -/

/-- A bundle placed by a programmed strip: one that is only in Coil takes its place; a copy salvaged from a lost segment
moves by a map delta; any other copy waits for its batch's commit (R343, R371, R392). -/
def placeBundle (seg pos : Nat) (k : Nat) (s : State) : State :=
  match bundleByKey s k with
  | none => s
  | some b => match b.place with
    | none => updBundle b.domain b.id (fun b => { b with place := some (seg, pos) }) s
    | some p =>
      if (match segOf s p.1 with | some x => x.state == 4 | none => false) then
        appendOp s.hfe.arrival 65535 opxGc [0, 1, segBand p.1, 0, k, seg, pos] [] s
      else match s.med.batch with
        | some t => { s with med.batch := some { t with moves := t.moves.filter (fun m => m.1 != k) ++ [(k, seg, pos)] } }
        | none => s

/-- A data record is released once the segment that holds its bundle is sealed; intents with their segment's seal; a
band record once a later one for the band is persisted (R321). -/
def flashReleases (s : State) (r : CoilRec) : Bool :=
  match r.body with
  | .data id domain _ => (match bundleOf s domain id with
      | some b => (match b.place with
          | some p => (match segOf s p.1 with | some x => x.state == 2 || x.state == 4 | none => true)
          | none => b.destroyed || liveChunks s b == [])
      | none => true)
  | .intent seg _ _ _ _ => (match segOf s seg with | some x => decide (2 ≤ x.state) | none => true)
  | .band b _ _ _ _ _ => s.nv.journal.any fun q => decide (r.jseq < q.jseq) && decide (q.jseq ≤ s.nv.persisted) &&
      (match q.body with | .band b' _ _ _ _ _ => b' == b | _ => false)
  | _ => false

/-- A declaration or a rebuild batch of the Handle holder is held until a durable checkpoint covers its commit record (R376). -/
def ckptHolds (s : State) (op commit : Nat) : Bool := s.hdl.holder && (op == opxDeclare || op == opxRebuild) && decide (s.nv.ckptJseq < commit)

/-- A commit record is released with its delta, once it has been applied and the bundles it names are in sealed segments
(R321; DESIGN CHOICE, log 30: the metadata pages are written in the step that releases them). -/
def deltaReleases (s : State) (r : CoilRec) : Bool :=
  match r.body with
  | .delta a v es => s.nv.journal.any (fun q => match q.body with
      | .commit a' d v' _ _ _ _ => a' == a && v' == v && d == r.jseq && decide (q.jseq ≤ s.nv.applied) && decide (q.jseq ≤ s.col.commitPoint)
      | _ => false) &&
      es.all fun e => e.kind != 0 || (match storedOf s e.stored with
        | some c => (match bundleOf s c.domain c.bundle with | some b => b.place.isSome | none => true)
        | none => true)
  | .deltaOp _ _ op _ _ => s.nv.journal.any fun q => match q.body with
      | .commitOp _ d _ => d == r.jseq && !ckptHolds s op q.jseq && decide (q.jseq ≤ s.nv.applied) && decide (q.jseq ≤ s.col.commitPoint)
      | _ => false
  | .commit _ d _ _ _ _ _ => s.nv.journal.all fun q => q.jseq != d || q.released
  | .commitOp _ d _ => s.nv.journal.all fun q => q.jseq != d || q.released
  | _ => false

/-- What flash now holds is released (R321). -/
def releaseFlash (s : State) : State := releaseWhere (flashReleases s) s

/-- A metadata page written, in the format in force (R170, R172). -/
def writePage (k : Nat × Nat × Nat) (s : State) : State :=
  { s with nv.pages := s.nv.pages.filter (fun p => p.1 != k) ++ [(k, s.nv.format)] }

/-- The chunk-map page of a stored chunk written. -/
def writeChunkPage (id : Nat) (s : State) : State :=
  match storedOf s id with
  | some x => writePage (1, x.domain, Config.mapPage 1 x.domain id) s
  | none => s

/-- The chunk-map pages of a bundle's chunks written: its place changes (R393). -/
def writeBundlePages (k : Nat) (s : State) : State :=
  match bundleByKey s k with
  | some b => b.chunks.foldl (fun s id => writeChunkPage id s) s
  | none => s

/-- The pages that a delta changes: the volume's map, and the chunk map of the chunks that it names. -/
def writeDeltaPages (vol : Nat) (es : List DeltaEntry) (s : State) : State :=
  es.foldl (fun s e =>
    let s := writePage (0, vol, Config.mapPage 0 vol e.chunk) s
    if e.kind = 0 then writeChunkPage e.stored s else s) s

/-- The map deltas that have been applied are written to their pages and released, then their commit records (R321). -/
def releaseDeltas (s : State) : State :=
  let s := s.nv.journal.foldl (fun s r => match r.body with
    | .delta _ v es => if !r.released && decide (r.jseq ≤ s.nv.persisted) && deltaReleases s r then writeDeltaPages v es s else s
    | _ => s) s
  let s := releaseWhere (fun r => match r.body with | .delta .. => deltaReleases s r | .deltaOp .. => deltaReleases s r | _ => false) s
  releaseWhere (fun r => match r.body with | .commit .. => deltaReleases s r | .commitOp .. => deltaReleases s r | _ => false) s

/-- A void position: its bundles are placed again from their data records (R343, R346). -/
def voidPos (seg i : Nat) (s : State) : State :=
  match segOf s seg with
  | none => s
  | some x =>
    let p := posOf x i
    let s := updSeg seg (putPos { p with state := 3, bundles := [], data := none }) s
    p.bundles.foldl (fun s k => match bundleByKey s k with
      | some b => if b.place = some (seg, i) then updBundle b.domain b.id (fun b => { b with place := none }) s else s
      | none => s) s

/-- A position whose strip did not reach its pack is void: code 0x0A1 (R343, R346). -/
def voidStrip (seg i : Nat) (s : State) : State :=
  countEvent 0x0A1 0 (voidPos seg i { s with lay.voidStrips := satAdd (2 ^ 32 - 1) s.lay.voidStrips 1 })

/-- All P members have reported their parity programs complete: the seal's intent follows (R344). -/
def sealComplete (seg : Nat) (s : State) : State :=
  match segOf s seg, segGen s seg with
  | some x, some g => if x.state = 1 ∧ g.p ≤ x.parityDone then appendRecord (.intent seg g.d 4 (posMember s seg g.d) x.buffer) s else s
  | _, _ => s

/-- A band record of a band has been appended and is not yet durable. -/
def bandWaits (s : State) (band : Nat) : Bool :=
  (s.nv.journal.any fun r => decide (s.nv.persisted < r.jseq) && (match r.body with | .band b _ _ _ _ _ => b == band | _ => false)) ||
  (s.col.waiting.any fun b => match b with | .band n _ _ _ _ _ => n == band | _ => false)

/-- An open band whose segments are all closed, and which takes no further one, is sealed (R385). -/
def sealBand (band : Nat) (s : State) : State :=
  match bandOf s band with
  | none => s
  | some b =>
    let segs := s.nv.segs.filter fun x => segBand x.num == band
    if b.state = 1 ∧ segs.all (fun x => decide (2 ≤ x.state)) ∧ (b.noNew || decide (bandSegments s b ≤ segs.length)) = true ∧ bandWaits s band = false then
      appendRecord (.band band 2 1 b.row b.gen 0) s
    else s

/-- A band takes no new segment; once its segments are closed it is sealed. -/
def closeBand (band : Nat) (s : State) : State := sealBand band (updBand band (fun b => { b with noNew := true }) s)

/-- A strip is found unreadable: code 0x0AB (R370). QUEUE_REORDER follows. -/
def strikeUnreadable (seg i : Nat) (s : State) : State :=
  match segOf s seg with
  | none => s
  | some x =>
    if (posOf x i).state = 4 then s
    else countEvent 0x0AB 0 (updSeg seg (putPos { posOf x i with state := 4 })
      { s with lay.unread := satAdd (2 ^ 32 - 1) s.lay.unread 1 })

/-- The read-disturb threshold of a pack's block: PID 0x0B04 percent of the rated reads (R400). -/
def disturbThreshold (s : State) (p : Pack) : Nat := pidVal s 0x0B04 * p.geom.ratedReads / 100

/-- The page reads this head has issued to a block since its erase; after a restart, a quarter of the threshold (R400). -/
def readCount (s : State) (port block : Nat) : Nat :=
  match s.med.reads.find? fun e => e.1 == port && e.2.1 == block with
  | some e => e.2.2
  | none => match packOf s port with | some p => disturbThreshold s p / 4 | none => 0

/-- A block's read count set. -/
def setReads (port block n : Nat) (s : State) : State :=
  { s with med.reads := (port, block, n) :: s.med.reads.filter fun e => !(e.1 == port && e.2.1 == block) }

/-- The pages of a strip on a pack. -/
def stripPages (s : State) (port : Nat) : Nat := match packOf s port with | some p => 65536 / max 1 p.geom.page | none => 1

/-- A READ of the strip at a position, for a cause and an owner; its pages are counted (R400, R424). A member that only the
peer reaches is read through it (R361). -/
def readStrip (seg i why aux : Nat) (s : State) : State :=
  let m := posMember s seg i
  let b := (stripPlace s seg i m false).1
  if !reached s m && peerReaches s m then requestPeer { tag := 0, code := 0x21, ioTag := aux, stored := seg, chunk := i } [m, b] [] 0 s
  else
  sendReq m { tag := 0, cmd := 0x10, seg := seg, pos := i, block := b, why := why, aux := aux } (setReads m b (readCount s m b + stripPages s m) s)

/-- A read of an extent at a position: of its strip, or of D available positions where it is missing (R368). -/
def readExtent (seg i why aux : Nat) (s : State) : State :=
  match segOf s seg, segGen s seg with
  | some x, some g =>
    if posMissing s x i then
      let avail := (List.range (genWidth g)).filter fun j => !posMissing s x j && (posOf x j).state != 3 &&
        reached s (posMember s seg j)
      (avail.take g.d).foldl (fun s j => readStrip seg j why aux s) s
    else readStrip seg i why aux s
  | _, _ => s

/-- A stripe intent becomes durable: 1 strip issued sends its PROGRAM; 2 makes its buffer current and places its
bundles; 3 sends the parity PROGRAMs, leaving out missing members; 4 seals the segment (R343, R344). -/
def intentDurable (seg pos state pack buffer : Nat) (s : State) : State :=
  match segOf s seg with
  | none => s
  | some x =>
    let p := posOf x pos
    let send := fun (i : Nat) (s : State) =>
      let m := posMember s seg i
      sendReq m { tag := 0, cmd := 0x11, seg := seg, pos := i, block := bandBlock s (segBand seg) m } s
    if state = 1 ∧ ¬ reached s pack then voidStrip seg pos s
    else if state = 1 then
      let s := updSeg seg (putPos { p with state := 1 }) s
      sendReq pack { tag := 0, cmd := 0x11, seg := seg, pos := pos, block := bandBlock s (segBand seg) pack } s
    else if state = 2 then
      let s := updSeg seg (fun x => { putPos { p with state := 2 } x with buffer := buffer, lastAdd := s.now }) s
      let s := { s with lay.stripsAdded := satAdd (2 ^ 32 - 1) s.lay.stripsAdded 1 }
      p.bundles.foldl (fun s k => placeBundle seg pos k s) s
    else if state = 3 then
      let s := updSeg seg (fun x => { x with state := 1 }) s
      match segGen s seg with
      | none => s
      | some g => sealComplete seg <| (List.range g.p).foldl (fun s j =>
          let i := g.d + j
          if memberMissing s g (posMember s seg i) || !reached s (posMember s seg i) then
            updSeg seg (fun x => { putPos { posOf x i with state := 4 } x with parityDone := x.parityDone + 1 }) s
          else send i s) s
    else
      let early := x.early
      let s := updSeg seg (fun x => { x with state := 2 }) s
      let s := { s with lay.seals := satAdd (2 ^ 32 - 1) s.lay.seals 1 }
      let s := if early then countEvent 0x0A3 0 { s with lay.earlySeals := satAdd (2 ^ 32 - 1) s.lay.earlySeals 1 } else s
      sealBand (segBand seg) (releaseFlash s)

/-- A band leaves the sealed state: its segments leave the queue, and what was rebuilt of them is discarded (R366). -/
def leaveQueue (band : Nat) (s : State) : State :=
  spareCheck { s with
    lay.queue := s.lay.queue.filter fun n => segBand n != band
    lay.rebuilt := s.lay.rebuilt.filter fun t => segBand t.1 != band }

/-- A band record becomes durable: the band's state, row and generation (Table 12-8). -/
def bandDurable (band state row gen batch : Nat) (s : State) : State :=
  let s := if state = 0 ∨ 3 ≤ state then leaveQueue band s else s
  match bandOf s band with
  | some _ =>
    if state = 0 then
      { s with
        nv.bands := s.nv.bands.filter fun b => b.num != band
        nv.segs := s.nv.segs.filter fun x => segBand x.num != band
        nv.bundles := s.nv.bundles.filter fun b => !((match b.place with | some p => segBand p.1 == band | none => false) && liveChunks s b == []) }
    else updBand band (fun b => { b with state := state, row := row, gen := gen, batch := batch }) s
  | none => s

/-- The stripe intent records of a segment that are not yet durable. -/
def intentWaits (s : State) (seg : Nat) : Bool :=
  (s.nv.journal.any fun r => decide (s.nv.persisted < r.jseq) && (match r.body with | .intent g _ _ _ _ => g == seg | _ => false)) ||
  (s.col.waiting.any fun b => match b with | .intent g _ _ _ _ => g == seg | _ => false)

/-- The stripe intent of a segment's seal is appended: strip index D, naming the current buffer (R344). -/
def sealSegment (early : Bool) (x : Segment) (s : State) : State :=
  match segGen s x.num with
  | none => s
  | some g =>
    let s := updSeg x.num (fun x => { x with early := early, sealing := true }) s
    appendRecord (.intent x.num g.d 3 (posMember s x.num g.d) x.buffer) s

/-- A segment may be sealed: open, no intent on its way, no position in state 1, at least one programmed. -/
def sealable (s : State) (x : Segment) : Bool :=
  x.state == 0 && !x.sealing && !intentWaits s x.num && x.positions.all (fun p => p.state != 1) && x.positions.any (fun p => p.state == 2)

/-- Segments that satisfy a test are sealed early (R345). -/
def sealEarlyWhere (t : Segment → Bool) (s : State) : State :=
  (s.nv.segs.filter fun x => sealable s x && x.sideB == s.aon.side && t x).foldl (fun s x => sealSegment true x s) s

end Sys2Proof.Machine
end

