-- ==== Sys2Proof/Machine/TagOps.lean ====
section
/-! DEFINITION. Shared operations on tags and range locks: conflicts, grants, hits, completions, internal aborts (R187 to
R194, R204 to R213). -/

namespace Sys2Proof.Machine

/-- The tag of a running secure discard's deallocation, above the data hosts' tags. -/
abbrev discardTag : Nat := 65536

/-! ### Range locks (R207 to R212) -/

/-- Two entries of one volume whose ranges overlap with a conflicting mode (R209). -/
def conflicts (a b : Lock) : Bool :=
  a.vol == b.vol && decide (a.first ≤ b.last) && decide (b.first ≤ a.last) && (a.excl || b.excl)

/-- The earlier entries that conflict with an entry, granted or waiting (R209). -/
def blockers (locks : List Lock) (l : Lock) : List Lock := locks.filter fun x => decide (x.arrival < l.arrival) && conflicts x l

/-- The entry of a holder. -/
def lockOf (s : State) (h : Holder) : Option Lock := s.rlk.locks.find? fun l => l.holder == h

/-- The tag with an index. -/
def tagOf (s : State) (i : Nat) : Option Tag := s.hfe.tags.find? fun t => t.idx == i

/-- A tag changed. -/
def updTag (i : Nat) (f : Tag → Tag) (s : State) : State := { s with hfe.tags := updWhere (fun t => t.idx == i) f s.hfe.tags }

/-- The staged Write that serves a Read's entry under R212. -/
def hitSource (s : State) (l : Lock) : Option Tag :=
  match l.holder with
  | .plem _ _ => none
  | .tag i => match tagOf s i with
    | none => none
    | some r =>
      if r.kind ≠ 0 ∨ pidVal s 0x0500 ≠ 1 then none
      else s.rlk.locks.findSome? fun e =>
        match e.holder with
        | .plem _ _ => none
        | .tag j => match tagOf s j with
          | none => none
          | some w =>
            if w.kind = 1 ∧ (w.state = 3 ∨ w.state = 4) ∧ e.vol = l.vol ∧ e.arrival < l.arrival ∧ e.first ≤ l.first ∧ l.last ≤ e.last ∧
                (s.rlk.locks.all fun x => !(decide (e.arrival < x.arrival) && decide (x.arrival < l.arrival) && x.vol == l.vol &&
                  decide (x.first ≤ l.last) && decide (l.first ≤ x.last)) || !x.excl) then some w
            else none

/-- The next entry that can be granted, in order of arrival: no earlier conflict, or a hit (R209, R212). -/
def nextGrant (s : State) : Option Lock :=
  s.rlk.locks.find? fun l => !l.granted && (blockers s.rlk.locks l == [] || (hitSource s l).isSome)

/-- An entry added: the high-water mark follows, and the stalls where it waits on a conflict and is no hit (R208, R212, Table 08-7). -/
def addLock (l : Lock) (s : State) : State :=
  let stalls := blockers s.rlk.locks l != [] && (hitSource s l).isNone
  let locks := s.rlk.locks ++ [l]
  { s with rlk.locks := locks, rlk.hwm := max s.rlk.hwm locks.length, rlk.stalls := if stalls then satAdd (2 ^ 32 - 1) s.rlk.stalls 1 else s.rlk.stalls }

/-- A holder's entry released and freed at once (R210). -/
def releaseLock (h : Holder) (s : State) : State := { s with rlk.locks := s.rlk.locks.filter fun l => l.holder != h }

/-- The locks PLEM operations hold (R208: at most 256), that of a running secure discard among them. -/
def plemLocks (s : State) : Nat := (s.rlk.locks.filter fun l => match l.holder with | .plem _ _ => true | .tag i => decide (65536 ≤ i)).length

/-- The arrival number given next (R204). -/
def takeArrival (s : State) : State := { s with hfe.arrival := s.hfe.arrival + 1 }

/-- The number given next goes to commands of some volumes, whose last number it is (R206). -/
def numberVolumes (vols : List Nat) (s : State) : State :=
  { takeArrival s with hfe.volArrival := vols.map (fun v => (v, s.hfe.arrival)) ++ s.hfe.volArrival.filter fun e => !vols.contains e.1 }

/-! ### Completions (R189, R192) -/

/-- The NVMe status field's type and code (DEDUCED from the names that the manual uses and NVMe 2.0; log 31). -/
def nvmeCode (st : NvmeStatus) : Nat :=
  match st with
  | .success => 0x000 | .invalidOpcode => 0x001 | .invalidField => 0x002 | .abortRequested => 0x007 | .abortedSqDeletion => 0x008
  | .abortLimit => 0x103 | .lbaOutOfRange => 0x080 | .sglLengthInvalid => 0x00F | .capacityExceeded => 0x081
  | .namespaceNotReady => 0x082 | .writeProtected => 0x020 | .accessInaccessible => 0x302 | .accessTransition => 0x303
  | .invalidNamespace => 0x00B | .guardError => 0x282 | .appTagError => 0x283 | .refTagError => 0x284 | .unrecoveredRead => 0x281
  | .compareFailure => 0x285 | .connectInvalid => 0x182 | .featureNotChangeable => 0x10E | .invalidQueue => 0x101
  | .completionQueueInvalid => 0x100 | .invalidQueueSize => 0x102 | .invalidQueueDeletion => 0x10C | .aerLimit => 0x105

/-- The status with a code. -/
def nvmeStatusOf (code : Nat) : NvmeStatus :=
  ([.success, .invalidOpcode, .invalidField, .abortRequested, .abortedSqDeletion, .abortLimit, .lbaOutOfRange, .sglLengthInvalid,
    .capacityExceeded, .namespaceNotReady, .writeProtected, .accessInaccessible, .accessTransition, .invalidNamespace, .guardError,
    .appTagError, .refTagError, .unrecoveredRead, .compareFailure, .connectInvalid, .featureNotChangeable, .invalidQueue, .completionQueueInvalid, .invalidQueueSize,
    .invalidQueueDeletion, .aerLimit].find?
    fun st => nvmeCode st == code).getD .invalidField

/-- The extended-LBA bytes of a block (R195): data, then the protection information, most significant byte first. -/
def blockToBytes (fmt : Nat) (b : Block) : List Byte :=
  b.data ++ (if fmt = 4 then beBytes 8 b.guard ++ beBytes 2 b.app ++ beBytes 6 b.ref
             else if fmt = 1 ∨ fmt = 3 then beBytes 2 b.guard ++ beBytes 2 b.app ++ beBytes 4 b.ref else [])

/-- The Fabrics connection that serves a tag's queue. -/
def hostConn (s : State) (t : Tag) : Option Conn :=
  if t.peerTag.isSome then none else s.rma.conns.find? fun c => c.ctrlId == some t.ctrl && c.qid == t.sq && decide (c.cls < 2)

/-- The RETH of a transfer of the host's memory (R226). -/
def hostReth (t : Tag) (len : Nat) : List Byte := beBytes 8 t.pi.addr ++ beBytes 4 t.pi.key ++ beBytes 4 len

/-- Read data leaves for a data host of class 0 as an RDMA WRITE into its memory (Table 09-2). -/
def writeHost (t : Tag) (data : List Block) (s : State) : State :=
  match hostConn s t with
  | none => s
  | some c =>
    let fmt := match volumeOf s t.vol with | some v => v.format | none => 2
    let bytes := (data.map (blockToBytes fmt)).flatten
    if c.cls ≠ 0 ∨ bytes = [] then s else sendMessage c.num 0x10A (hostReth t bytes.length ++ bytes) s

/-- A completion leaves: to the data host, or over the peer link for a command forwarded by the peer (R193);
in fail-silence none is posted and no read data is released (R519). -/
def postCompletion (t : Tag) (st : NvmeStatus) (data : List Block) (s : State) : State :=
  if s.saf.failSilent then s
  else match t.peerTag with
  | some p =>
    let fmt := match volumeOf s t.vol with | some v => v.format | none => 2
    respondPeer p.1 0 0 (nvmeCode st) (data.map (blockToBytes fmt)).flatten s
  | none => emit (.nvmeCpl t.ctrl t.sq t.cid st 0 data) (writeHost t data s)

/-- A data host's submission queue has a tag that is not FREE. -/
def queueBusy (s : State) (ctrl sq : Nat) : Bool := s.hfe.tags.any fun t => t.ctrl == ctrl && t.sq == sq && t.peerTag.isNone && decide (t.idx < 65536)

/-- What waited for tags to be FREE: Delete I/O SQ commands complete and their queues are gone; a reset controller's CSTS.RDY
may read 0 (R194). -/
def queueChecks (s : State) : State :=
  let ready := s.hfe.ctrls.map fun c => (c.id, c.deletes.filter fun d => !queueBusy s c.id d.2)
  let s := ready.foldl (fun s e => e.2.foldl (fun s d => emit (.nvmeCpl e.1 0 d.1 .success 0 []) s) s) s
  { s with hfe.ctrls := s.hfe.ctrls.map fun c =>
      let gone := c.deletes.filter fun d => !queueBusy s c.id d.2
      { c with
        deletes := c.deletes.filter fun d => queueBusy s c.id d.2
        sqs := c.sqs.filter fun q => !gone.any fun d => d.2 == q.1
        resetting := c.resetting && s.hfe.tags.any fun t => t.ctrl == c.id && t.peerTag.isNone && decide (t.idx < 65536) } }

/-- A tag becomes FREE, gen increased modulo 16, and joins the free tags in order (R187, R189). -/
def freeTagNow (t : Tag) (s : State) : State :=
  queueChecks { s with
    hfe.tags := s.hfe.tags.filter fun x => x.idx != t.idx
    hfe.freed := s.hfe.freed ++ [(t.idx, (t.gen + 1) % 16, s.now)] }

/-- A tag ends: its entry is released, its completion posted at most once unless it is discarded, and it is FREE (R189,
R192, R194, R210). -/
def endTag (i : Nat) (st : NvmeStatus) (data : List Block) (s : State) : State :=
  match tagOf s i with
  | none => s
  | some t =>
    let s := releaseLock (.tag i) s
    let s := if t.posted || t.discardCpl then s else postCompletion t st data s
    freeTagNow t s

/-- The data hosts' tags of a submission queue, or of a controller. -/
def tagsWhere (s : State) (f : Tag → Bool) : List Tag := s.hfe.tags.filter fun t => t.peerTag.isNone && decide (t.idx < 65536) && f t

/-- A forwarded command has left for the peer (R193). -/
def leftForPeer (s : State) (i : Nat) : Bool := s.hdl.reqs.any fun r => r.code == 0x20 && r.ioTag == i

/-- The arbitration of Table 07-9 finds a winning row; a command that has left for the peer is arbitrated there (R193). -/
def abortWins (s : State) (t : Tag) : Bool := (t.state == 1 || t.state == 2) && !t.begun && !leftForPeer s t.idx

/-- An internal abort of one tag (R194): a winner is freed, with its completion only where one is named; a loser runs on,
its completion discarded unless one is named. -/
def internalAbort (cpl : Option NvmeStatus) (t : Tag) (s : State) : State :=
  if abortWins s t then
    match cpl with
    | some st => endTag t.idx st [] s
    | none => endTag t.idx .success [] (updTag t.idx (fun t => { t with discardCpl := true }) s)
  else if cpl.isNone then updTag t.idx (fun t => { t with discardCpl := true }) s
  else s

/-- Every tag that satisfies a test is aborted internally (R194). -/
def abortTags (cpl : Option NvmeStatus) (f : Tag → Bool) (s : State) : State :=
  (tagsWhere s f).foldl (fun s t => internalAbort cpl t s) s

end Sys2Proof.Machine
end

