-- ==== Sys2Proof/Machine/AccessOps.lean ====
section
/-! DEFINITION. Shared operations on asymmetric access and attachment: ANA states and the events they post (R183 to R185,
R264, R281, R457, R463). -/

namespace Sys2Proof.Machine

/-- A volume's domain is keyless (R264). -/
def keylessVolume (s : State) (v : Volume) : Bool :=
  match domainOf s v.domain with | some d => d.keyless | none => true

/-- The ANA state that this head reports for a volume (Table 07-6): 1 Optimized, 2 Non-optimized, 3 Inaccessible,
15 Change. In bridge mode every volume is Non-optimized, and Inaccessible while the VV4204 is silent (R463). -/
def anaState (s : State) (v : Volume) : Nat :=
  if s.hdl.bridge then (if s.hdl.silent then 3 else 2)
  else if v.inaccessible || keylessVolume s v then 3
  else if v.moving then 15
  else if ownsVolume s v then 1
  else if s.hdl.paired then 2
  else if s.hdl.severed then 3
  else 15

/-- A controller has a volume attached (R183, R281). -/
def attached (c : Ctrl) (v : Volume) : Bool :=
  !c.discovery && (bit v.hosts 0 || (c.id == 0 && bit v.hosts 1) || (c.id == 1 && bit v.hosts 2) ||
    (decide (2 ≤ c.id) && v.nqns.contains c.hostNqn))

/-- A controller changed. -/
def updCtrl (id : Nat) (f : Ctrl → Ctrl) (s : State) : State :=
  { s with hfe.ctrls := updWhere (fun c => c.id == id) f s.hfe.ctrls }

/-- The controller with an identifier. -/
def ctrlOf (s : State) (id : Nat) : Option Ctrl := s.hfe.ctrls.find? fun c => c.id == id

/-- An asynchronous event completes the first outstanding request of a controller; without one nothing is sent (R185).
Dword 0 holds the type (2, notice), the information and the log page (NVMe 2.0; DEDUCED, log 31). -/
def postAer (id info log : Nat) (s : State) : State :=
  match (ctrlOf s id).map (·.aers) with
  | some (cid :: rest) =>
    emit (.nvmeCpl id 0 cid .success (2 + info * 2 ^ 8 + log * 2 ^ 16) []) (updCtrl id (fun c => { c with aers := rest }) s)
  | _ => s

/-- A step whose ANA changes and lost attachments post their events: ANA Change for each volume whose state changed, to
each controller that has it attached; Namespace Attribute Changed for each controller that loses a volume (R185,
R281). -/
def withAccess (f : State → State) (s : State) : State :=
  let t := f s
  let t := s.nv.volumes.foldl (fun t v =>
    match volumeOf t v.num with
    | some w => if anaState s v = anaState t w then t
        else (t.hfe.ctrls.filter fun c => c.en && attached c w).foldl (fun t c => postAer c.id 3 0x0C t) t
    | none => t) t
  s.nv.volumes.foldl (fun t v =>
    (t.hfe.ctrls.filter fun c => c.en && attached c v && !(match volumeOf t v.num with | some w => attached c w | none => false)).foldl
      (fun t c => postAer c.id 0 0x04 (updCtrl c.id (fun c => { c with changed := insertNat (v.num + 1) c.changed }) t)) t) t

end Sys2Proof.Machine
end

