-- ==== Sys2Proof/Machine/Operands.lean ====
section
/-! DEFINITION. The operand forms: the in-line fields and parameter blocks of every PLEM opcode (stages 1 and 4 of
Table 04-9), and the parameters by number with their widths, access, roles and value checks (R95, R117 to R120). -/

namespace Sys2Proof.Machine

/-! ### Parameters by number -/

/-- The loop and offset of a Weaver PID (R505). -/
def loopPid (p : Nat) : Option (Nat × Nat) :=
  if 0x1000 ≤ p ∧ p < 0x1400 then some ((p - 0x1000) / 16, p % 16) else none

/-- The widths of a loop's PIDs (Table 19-4); none for offset 0xF. -/
def loopWidth (i : Nat) : Option Nat :=
  if i = 0 ∨ i = 0xD then some 1 else if i = 1 ∨ i = 2 then some 4 else if i = 0xE then some 0
  else if i < 0xD then some 2 else none

/-- The width of a PID, 0 for a block; none for one that is not defined (R117, R549). -/
def pidWidth (p : Nat) : Option Nat :=
  match plainPid p with
  | some i => some i.width
  | none =>
    if 0x0300 ≤ p ∧ p < 0x0320 then some 8
    else if (0x0440 ≤ p ∧ p < 0x0460) ∨ p = 0x0A10 ∨ p = 0x0D10 then some 0
    else match loopPid p with
      | some (_, i) => loopWidth i
      | none => none

/-- The length of a block PID's value. -/
def blockLen (p : Nat) : Nat := if p = 0x0D10 then 48 else if 0x1000 ≤ p then 32 else 64

/-- Bound loops whose set-point is taken from another PID (Table 19-3). -/
def boundSetpoint (n : Nat) : Bool := n == 4 || n == 7 || n == 8

/-- The access of a PID: 0 read-only, 1 seal-locked, 2 live (R118, R504, R548). -/
def pidAccess (p : Nat) : Nat :=
  match plainPid p with
  | some i => i.access
  | none =>
    if p = 0x0300 ∨ p = 0x030E ∨ p = 0x0A10 then 0
    else if (0x0300 ≤ p ∧ p < 0x0320) ∨ (0x0440 ≤ p ∧ p < 0x0460) then 1
    else match loopPid p with
      | some (n, i) => if i = 0xE ∨ (i = 1 ∧ n < 10) ∨ (i = 3 ∧ boundSetpoint n) then 0 else 2
      | none => 2

/-- The role that may write a PID. -/
def pidRole (p : Nat) : Nat :=
  match plainPid p with
  | some i => i.role
  | none => if p = 0x0D10 then 2 else 1

/-- A write to a PID is refused with ORD.LOCKED (R118). -/
def pidLocked (s : State) (p : Nat) : Bool := pidAccess p == 0 || (pidAccess p == 1 && s.boot.cfgSealed)

/-- A value of a protection PID that lowers protection (R107, R151, R255, R309, R330). -/
def lowersProtection (s : State) (p v : Nat) : Bool :=
  match plainPid p with
  | none => false
  | some i =>
    if i.prot = 1 then decide (pidVal s p < v)
    else if i.prot = 2 then (List.range 32).any fun k => bit (pidVal s p) k && !bit v k
    else false

/-! ### Window entries (R22, R548) -/

/-- Two ranges of units overlap. -/
def unitsOverlap (a : Win) (b : Win) : Bool :=
  decide (a.base < b.base + b.size) && decide (b.base < a.base + a.size) && decide (0 < a.size) && decide (0 < b.size)

/-- An enabled entry `n` passes the range check: base plus size, and region 8's bound (R21, R22). -/
def winRangeOk (n : Nat) (w : Win) : Bool := decide (w.base + w.size ≤ hamUnits) && (n != 8 || decide (w.size ≤ 32))

/-- An enabled entry `n` overlaps no other enabled entry (R22). -/
def winNoOverlap (wins : List Win) (n : Nat) (w : Win) : Bool :=
  (wins.zipIdx.all fun e => e.2 == n || !e.1.enable || !unitsOverlap w e.1)

/-- The window entry that a window PID's value names, keeping the entry's fixed bit. -/
def winOfPid (fixed : Bool) (v : Nat) : Win :=
  let acc := v / 2 ^ 32
  { base := field v 0 15, size := field v 16 15, enable := bit acc 31, fixed := fixed, owner := field acc 8 2,
    m := field acc 4 2, c := field acc 2 2, d := field acc 0 2 }

/-- Reserved bits of a window PID's value (R548): bit 15 of base and size, bits [30:10] and [7:6] of the access
image. -/
def winPidReserved (v : Nat) : Bool :=
  bit v 15 || bit v 31 || field v 38 2 != 0 || field v 42 21 != 0

/-- The check of a window PID's value against a window table. -/
def winPidCheck (wins : List Win) (n v : Nat) : Option Nat :=
  if winPidReserved v then some stFmtRsvd
  else
    let w := winOfPid false v
    if w.enable && !(winRangeOk n w && winNoOverlap wins n w) then some stLenOver else none

/-! ### Weaver PIDs (R498, R499, R504, R505) -/

/-- The loop `n`. -/
def loopAt (s : State) (n : Nat) : Loop := (s.wvr.loops[n]?).getD { num := n }

/-- A sensor code and instance of Table 19-1. -/
def sensorOk (code inst : Nat) : Bool :=
  if code = 0 then inst == 0
  else if code ≤ 3 then decide (inst ≤ 4)
  else if code = 9 then decide (inst < 32)
  else if code = 0xA then decide (inst < 8)
  else decide (code ≤ 0xE) && inst == 0

/-- An actuator code and instance of Table 19-2 that a free loop may name. -/
def actuatorOk (code inst : Nat) : Bool :=
  if code = 1 then decide (inst < 4) else decide (code ≤ 5) && inst == 0

/-- A loop's PID offset is a coefficient (R498). -/
def isCoefficient (i : Nat) : Bool := i == 1 || i == 2 || (decide (4 ≤ i) && decide (i ≤ 0xB)) || i == 0xD

/-- The loop that feeds loop `n`, if any (R495). -/
def outerOf (loops : List Loop) (n : Nat) : Option Loop := loops.find? (fun l => l.feeds == some n && l.num != n)

/-- The format and length checks of a Weaver PID's value (Table 19-4, R499). -/
def loopValueCheck (loops : List Loop) (n i v : Nat) : Option Nat :=
  let l := (loops[n]?).getD { num := n }
  match i with
  | 0 => if 2 < v then some stFmtParam else none
  | 1 => if sensorOk (field v 0 8) (field v 8 8) && actuatorOk (field v 16 8) (field v 24 8) then none else some stFmtParam
  | 2 =>
    if field v 0 2 = 3 ∨ field v 2 6 ≠ 0 ∨ bit v 15 ∨ field v 24 8 ≠ 0 then some stFmtParam
    else if bit v 8 then
      let m := field v 9 6
      let fedByOther : Bool := match outerOf loops m with | some o => o.num != n | none => false
      let inner := (loops[m]?).getD { num := m }
      if m == n || fedByOther || inner.feeds.isSome || (outerOf loops n).isSome || field v 16 8 == 0 then some stFmtParam
      else none
    else none
  | 7 => if bit v 15 then some stFmtParam else none
  | 9 => if sensorOk (field v 0 8) (field v 8 8) then none else some stFmtParam
  | 0xA => if l.umax < unsigned 16 v then some stFmtParam else none
  | 0xB => if unsigned 16 v < l.umin then some stFmtParam else none
  | 0xD => if 8 < v then some stLenOver else none
  | _ => none

/-- The state refusals of a Weaver PID write: ORD.CLOSED with the loop, ORD.LOCKED (R498, R499). -/
def loopStateCheck (loops : List Loop) (n i v : Nat) : Option (Nat × Nat) :=
  let l := (loops[n]?).getD { num := n }
  if isCoefficient i ∧ l.state = 2 then some (stOrdClosed, n)
  else if i = 2 ∧ bit v 8 then
    let m := field v 9 6
    if boundSetpoint m then some (stOrdLocked, 0)
    else if ((loops[m]?).getD { num := m }).state = 2 then some (stOrdClosed, m) else none
  else none

/-- A Weaver PID's value written into a loop; a change of state or binding ends an injection early (R506), a close
starts bumpless (R497). -/
def loopWrite (i v : Nat) (l : Loop) : Loop :=
  match i with
  | 0 => if l.state = v then l else
      { l with state := v, inj := none, bumpless := v == 2 }
  | 1 => { l with sensor := field v 0 8, sInst := field v 8 8, act := field v 16 8, aInst := field v 24 8, inj := none }
  | 2 => { l with rate := field v 0 2, feeds := if bit v 8 then some (field v 9 6) else none, k := field v 16 8 + 1 }
  | 3 => { l with r := unsigned 16 v }
  | 4 => { l with kp := unsigned 16 v }
  | 5 => { l with ki := unsigned 16 v }
  | 6 => { l with kd := unsigned 16 v }
  | 7 => { l with a := unsigned 16 v }
  | 8 => { l with kff := unsigned 16 v }
  | 9 => { l with ffSensor := field v 0 8, ffInst := field v 8 8 }
  | 0xA => { l with umin := unsigned 16 v }
  | 0xB => { l with umax := unsigned 16 v }
  | 0xC => { l with manual := unsigned 16 v }
  | 0xD => { l with shift := v }
  | _ => l

/-- The cap of a power state in W (Table 07-11). -/
def powerCap (ps : Nat) : Nat := if ps = 0 then 460 else if ps = 1 then 300 else 180

/-- The set-point of a loop, taken from another PID where Table 19-3 names one. -/
def loopSetpoint (s : State) (l : Loop) : Int :=
  if l.num = 4 then ((pidVal s 0x0B02 * 32768 / 100 : Nat) : Int)
  else if l.num = 7 then ((powerCap s.hfe.pwrCur * 32768 / 512 : Nat) : Int)
  else if l.num = 8 then ((pidVal s 0x0220 * 128 : Nat) : Int)
  else l.r

/-- The value a Weaver PID reads (Table 19-4). -/
def loopRead (s : State) (n i : Nat) : Nat :=
  let l := loopAt s n
  match i with
  | 0 => l.state
  | 1 => l.sensor + l.sInst * 2 ^ 8 + l.act * 2 ^ 16 + l.aInst * 2 ^ 24
  | 2 => l.rate + (match l.feeds with | some m => 2 ^ 8 + m * 2 ^ 9 + (l.k - 1) * 2 ^ 16 | none => 0)
  | 3 => signed 16 (loopSetpoint s l)
  | 4 => signed 16 l.kp
  | 5 => signed 16 l.ki
  | 6 => signed 16 l.kd
  | 7 => signed 16 l.a
  | 8 => signed 16 l.kff
  | 9 => l.ffSensor + l.ffInst * 2 ^ 8
  | 0xA => signed 16 l.umin
  | 0xB => signed 16 l.umax
  | 0xC => signed 16 l.manual
  | 0xD => l.shift
  | _ => 0

/-- The value of a PID of up to 8 bytes (R119). -/
def pidRead (s : State) (p : Nat) : Nat :=
  if 0x0300 ≤ p ∧ p < 0x0320 then winPid ((s.ham.win[p - 0x0300]?).getD { base := 0 })
  else if p = 0x0420 then s.hfe.pwrCur
  else match loopPid p with
    | some (n, i) => loopRead s n i
    | none => pidVal s p

/-! ### Value checks (R119) -/

/-- The FMT and LEN check of a value of a PID that is no block. -/
def pidValueCheck (s : State) (p v : Nat) : Option Nat :=
  match plainPid p with
  | some i =>
    (match i.kind with
     | .num lo hi =>
       if hi < v then some stLenOver
       else if v < lo then some stLenUnder
       else if p = 0x0702 ∧ winSize s 4 < (v + 2048) * 2 ^ 20 then some stLenUnder
       else none
     | .enum hi => if hi < v then some stFmtParam else none
     | .mask m => if Nat.land v m = v then none else some stFmtRsvd)
  | none =>
    if 0x0300 ≤ p ∧ p < 0x0320 then (if p = 0x0300 ∨ p = 0x030E then none else winPidCheck s.ham.win (p - 0x0300) v)
    else match loopPid p with
      | some (n, i) => if pidAccess p = 0 then none else loopValueCheck s.wvr.loops n i v
      | none => none

/-- The checks of a sub-port block in ascending offset (R175, Table 07-2): status and offset. -/
def subBlockCheck (b : List Byte) : Option (Nat × Nat) :=
  let mtu := numAt b 6 2
  let vlan := numAt b 8 2
  let fl := numAt b 11 1
  let v6 := bit fl 2
  let pre := numAt b 12 1
  let firstBad := fun (lo n : Nat) => ((List.range n).find? fun k => numAt b (lo + k) 1 != 0).map (lo + ·)
  if mtu < 1500 then some (stLenUnder, 6)
  else if 9216 < mtu then some (stLenOver, 6)
  else if 4094 < vlan then some (stFmtParam, 8)
  else if 7 < numAt b 10 1 then some (stFmtParam, 10)
  else if fl / 16 ≠ 0 then some (stFmtRsvd, 11)
  else if (if v6 then 128 else 32) < pre then some (stLenOver, 12)
  else if 2 < numAt b 13 1 then some (stFmtParam, 13)
  else if numAt b 14 2 ≠ 0 then some (stFmtRsvd, 14)
  else match (if v6 then none else firstBad 20 12) with
    | some o => some (stFmtParam, o)
    | none => match (if v6 then none else firstBad 36 12) with
      | some o => some (stFmtParam, o)
      | none => match firstBad 52 12 with
        | some o => some (stFmtRsvd, o)
        | none => none

/-! ### In-line fields (stage 1) -/

/-- A failing field: its packet offset, the status, and the result a LEN.SHORT gives. -/
structure Fail where
  off : Nat
  status : Nat
  result : Nat := 0
  deriving DecidableEq, Repr

/-- A failure when a condition holds. -/
def failIf (c : Bool) (off status : Nat) : List Fail := if c then [{ off := off, status := status }] else []

/-- The first non-zero reserved byte of a range of the packet (R9). -/
def rsvdIn (p : List Byte) (lo n : Nat) : List Fail :=
  match (List.range n).find? fun k => numAt p (lo + k) 1 != 0 with
  | some k => [{ off := lo + k, status := stFmtRsvd }]
  | none => []

/-- An output buffer's length field below the output (R99). -/
def shortBuf (p : List Byte) (lenOff need : Nat) : List Fail :=
  if numAt p lenOff 4 < need then [{ off := lenOff, status := stLenShort, result := need }] else []

/-- The sub-port that an Ethernet lane serves (R174); none in a disabled port. -/
def laneSub (s : State) (lane : Nat) : Option Nat :=
  let n := modeSubs (ethMode s (lane / 4))
  if n = 0 then none else some (4 * (lane / 4) + lane % 4 / (4 / n))

/-- The rate at which a port's sub-ports link, as HFE_PORT_STS shows it (Tables 07-1, 07-14). -/
def subSpeed (s : State) (k : Nat) : Nat := 5 - ethMode s (k / 4)

/-- The FEC of a sub-port: of its mode; in mode 4, as fec25 selects (Table 07-1, R175, Table 07-14). -/
def subFec (s : State) (k : Nat) : Nat :=
  if ethMode s (k / 4) = 4 then 2 - numAt (pidBlock s (0x0440 + k)) 13 1 else 3

/-- A mask of sub-ports names one that does not exist. -/
def subsMissing (s : State) (m : Nat) : Bool := (List.range 32).any fun k => bit m k && !subExists s k

/-- The in-line fields of the system opcodes. SYS_IDENTIFY and SYS_STATUS have no parameters (log 20). A sub-port in both
masks of PORT_ENABLE is found at the down mask (R176). -/
def inlineSystem (s : State) (op : Nat) (p : List Byte) : List Fail :=
  if op = opGetNonce then shortBuf p 32 48 ++ rsvdIn p 36 28
  else if op = opSessionOpen then failIf (numAt p 24 1 == 0 || decide (4 < numAt p 24 1)) 24 stFmtParam ++ rsvdIn p 25 39
  else if op = opPortEnable then
    failIf (subsMissing s (numAt p 24 4)) 24 stFmtParam ++
    failIf (subsMissing s (numAt p 28 4) || Nat.land (numAt p 24 4) (numAt p 28 4) != 0) 28 stFmtParam ++ rsvdIn p 32 32
  else if op = opHandleEligible then failIf (decide (1 < numAt p 24 1)) 24 stFmtParam ++ rsvdIn p 25 39
  else rsvdIn p 24 40

/-- The in-line fields of SET_PARAM (R119). -/
def inlineSetParam (s : State) (p : List Byte) : List Fail :=
  let pid := numAt p 24 2
  match pidWidth pid with
  | none => [{ off := 24, status := stFmtPid }]
  | some w =>
    failIf (numAt p 26 1 != w) 26 stFmtParam ++ rsvdIn p 27 1 ++
    (if w = 0 then rsvdIn p 28 8
     else (match pidValueCheck s pid (numAt p 28 w) with
       | some st => [{ off := 28, status := st }]
       | none => []) ++ rsvdIn p (28 + w) (8 - w)) ++
    rsvdIn p 36 28

/-- The in-line fields of GET_PARAM (R119). -/
def inlineGetParam (p : List Byte) : List Fail :=
  let pid := numAt p 24 2
  match pidWidth pid with
  | none => [{ off := 24, status := stFmtPid }]
  | some w =>
    failIf (numAt p 26 1 != w) 26 stFmtParam ++ rsvdIn p 27 9 ++
    (if w = 0 then shortBuf p 44 (blockLen pid) ++ rsvdIn p 48 16 else rsvdIn p 36 28)

/-- The BAR0 extent that holds blocks (R539). -/
def regAligned (off : Nat) : Bool := off % 4 == 0

/-- The in-line fields of the configuration opcodes; registers are looked up by the given test (R546). -/
def inlineConfig (s : State) (isReg writable : Nat → Bool) (op : Nat) (p : List Byte) : List Fail :=
  let off := numAt p 24 4
  if op = opSetParam then inlineSetParam s p
  else if op = opGetParam then inlineGetParam p
  else if op = opSetParams then failIf (decide (1024 < numAt p 24 4)) 24 stLenOver ++ rsvdIn p 28 36
  else if op = opRegRead then
    (if off % 4 ≠ 0 then [{ off := 24, status := stFmtAlign }] else failIf (!isReg off) 24 stFmtParam) ++ rsvdIn p 28 36
  else if op = opRegWrite then
    (if off % 4 ≠ 0 then [{ off := 24, status := stFmtAlign }] else failIf (!isReg off || !writable off) 24 stFmtParam) ++
      rsvdIn p 32 32
  else rsvdIn p 24 40

/-- The largest size of a volume of a format, in blocks (R278). -/
def maxBlocks (fmt : Nat) : Nat := if fmt = 0 ∨ fmt = 1 then 2 ^ 43 else 2 ^ 40

/-- The in-line fields of the volume opcodes (Table 10-4, R403); sizes and ranges are judged against the volume that they name (R12). -/
def inlineVolume (s : State) (op : Nat) (p : List Byte) : List Fail :=
  let v := volumeOf s (numAt p 24 2)
  if op = opVolCreate then
    failIf (decide (4 < numAt p 28 1)) 28 stFmtParam ++
    failIf (decide (numAt p 30 1 / 16 ≠ 0)) 30 stFmtRsvd ++ failIf (field (numAt p 30 1) 2 2 == 3) 30 stFmtParam ++
    rsvdIn p 31 1 ++ failIf (decide (maxBlocks (numAt p 28 1) < numAt p 32 8)) 32 stLenOver ++ rsvdIn p 40 24
  else if op = opVolDelete then failIf (decide (1 < numAt p 26 1)) 26 stFmtRsvd ++ rsvdIn p 27 37
  else if op = opVolResize then
    rsvdIn p 26 6 ++ failIf (match v with | some v => decide (maxBlocks v.format < numAt p 32 8) | none => false) 32 stLenOver ++ rsvdIn p 40 24
  else if op = opVolSetAccess then
    failIf (decide (2 < numAt p 26 1)) 26 stFmtParam ++
    failIf (if numAt p 26 1 = 2 then numAt p 27 1 != 0 else decide (1 < numAt p 27 1)) 27
      (if numAt p 26 1 = 2 then stFmtRsvd else stFmtParam) ++
    failIf (if numAt p 26 1 = 2 then decide (7 < numAt p 28 1) else numAt p 28 1 != 0) 28 stFmtRsvd ++ rsvdIn p 29 35
  else if op = opVolQuery then
    failIf (decide (3 < numAt p 24 1)) 24 stFmtParam ++ rsvdIn p 25 3 ++ shortBuf p 40 64 ++ rsvdIn p 44 20
  else if op = opSnapCreate then
    failIf (numAt p 24 2 == 0) 24 stLenUnder ++ failIf (decide (64 < numAt p 24 2)) 24 stLenOver ++ rsvdIn p 26 38
  else if op = opSnapDelete then rsvdIn p 28 36
  else if op = opVolClone then
    failIf (decide (1 < numAt p 26 1)) 26 stFmtParam ++ failIf (decide (1 < numAt p 27 1)) 27 stFmtRsvd ++ rsvdIn p 32 32
  else if op = opSecureDiscard then
    rsvdIn p 26 6 ++ (match v with
      | some v =>
        failIf (decide (v.size < numAt p 32 8)) 32 stLenOver ++ failIf (decide (v.size < numAt p 32 8 + numAt p 40 8)) 40 stLenOver
      | none => []) ++ shortBuf p 56 64 ++ rsvdIn p 60 4
  else if op = opDomainCreate then
    failIf (decide (4095 < numAt p 24 2)) 24 stFmtParam ++ failIf (decide (4095 < numAt p 26 2)) 26 stFmtParam ++
    failIf (decide (4 < numAt p 28 1)) 28 stFmtParam ++ failIf (decide (1 < numAt p 29 1)) 29 stFmtRsvd ++ rsvdIn p 30 34
  else []

/-- The members of a mask. -/
def maskCount (m : Nat) : Nat := ((List.range 64).filter (bit m)).length

/-- The in-line fields of the media and layout opcodes (R349 to R351, Tables 13-4, 14-3, 14-5; R404). -/
def inlineMedia (op : Nat) (p : List Byte) : List Fail :=
  if op = opPackAdmit ∨ op = opPackRetire then failIf (decide (63 < numAt p 24 1)) 24 stFmtParam ++ rsvdIn p 25 39
  else if op = opLayoutChange then
    failIf (decide (1 < numAt p 24 1)) 24 stFmtParam ++
    (if numAt p 24 1 = 1 then rsvdIn p 25 15
     else
       failIf (decide (numAt p 25 1 < 6) || decide (28 < numAt p 25 1)) 25 stFmtParam ++
       failIf (numAt p 26 1 != 2 && numAt p 26 1 != 3) 26 stFmtParam ++
       failIf (numAt p 27 1 == 0) 27 stLenUnder ++ failIf (decide (4 < numAt p 27 1)) 27 stLenOver ++
       failIf (decide (numAt p 28 2 < 1024)) 28 stLenUnder ++ failIf (decide (8192 < numAt p 28 2)) 28 stLenOver ++
       rsvdIn p 30 2 ++
       failIf (decide (maskCount (numAt p 32 8) < numAt p 25 1 + 2 * numAt p 26 1)) 32 stFmtParam) ++ rsvdIn p 40 24
  else if op = opRebuildCtrl then
    failIf (decide (3 < numAt p 24 1)) 24 stFmtParam ++
    (if numAt p 24 1 = 0 then failIf (decide (63 < numAt p 25 1)) 25 stFmtParam else rsvdIn p 25 1) ++ rsvdIn p 26 6 ++
    (if numAt p 24 1 = 3 then shortBuf p 40 64 else rsvdIn p 32 12) ++ rsvdIn p 44 20
  else if op = opMediaHealth then
    failIf (decide (2 < numAt p 24 1)) 24 stFmtParam ++
    (if numAt p 24 1 = 0 then failIf (decide (63 < numAt p 25 1)) 25 stFmtParam else rsvdIn p 25 1) ++ rsvdIn p 26 6 ++
    shortBuf p 40 (if numAt p 24 1 = 0 then 256 else if numAt p 24 1 = 1 then 16384 else 64) ++ rsvdIn p 44 20
  else if op = opLostListRead then
    failIf (decide (1 < numAt p 24 1)) 24 stFmtParam ++ rsvdIn p 25 3 ++
    failIf (decide (4096 < numAt p 32 4)) 32 stLenOver ++ shortBuf p 44 (32 * numAt p 32 4) ++ rsvdIn p 48 16
  else if op = opLostListClear then rsvdIn p 32 32
  else []

/-- The bytes of a key of a usage, 0 for none (Table 11-1). -/
def keyBytes (u : Nat) : Nat :=
  match u with
  | 1 => 32 | 2 => 64 | 3 => 16 | 4 => 32 | 5 => 16 | 6 => 32 | 7 => 32 | 8 => 32 | _ => 0

/-- A key command's slot field is legal: a slot, or 0xFFFF for usage 8 (R296). -/
def slotField (v : Nat) : Bool := decide (v ≤ 4095) || v == 0xFFFF

/-- The in-line fields of the key and Border opcodes (Tables 11-3, 05-13; R308). -/
def inlineSecurity (op : Nat) (p : List Byte) : List Fail :=
  if op = opKeyGenerate then
    let u := numAt p 26 1
    failIf (if u = 8 then numAt p 24 2 != 0xFFFF else decide (4095 < numAt p 24 2)) 24 stFmtParam ++
    failIf (u == 0 || decide (8 < u)) 26 stFmtParam ++ failIf (decide (1 < numAt p 27 1)) 27 stFmtRsvd ++
    failIf (decide (1 < numAt p 28 1)) 28 stFmtParam ++ rsvdIn p 29 3 ++
    shortBuf p 40 (if u = 8 then 208 else 72 + keyBytes u) ++ rsvdIn p 44 20
  else if op = opKeyLoad then
    failIf (!slotField (numAt p 24 2)) 24 stFmtParam ++ failIf (decide (1 < numAt p 26 1)) 26 stFmtRsvd ++ rsvdIn p 27 37
  else if op = opKeyExport then
    failIf (if numAt p 26 1 = 1 then numAt p 24 2 != 0xFFFF else decide (4095 < numAt p 24 2)) 24 stFmtParam ++
    failIf (decide (1 < numAt p 26 1)) 26 stFmtParam ++ rsvdIn p 27 1 ++
    (if numAt p 26 1 = 0 then failIf (decide (4095 < numAt p 28 2)) 28 stFmtParam else rsvdIn p 28 2) ++ rsvdIn p 30 2 ++
    (if numAt p 26 1 = 1 then shortBuf p 40 104 else []) ++ rsvdIn p 44 20
  else if op = opKeyDestroy then failIf (decide (4095 < numAt p 24 2)) 24 stFmtParam ++ rsvdIn p 26 38
  else if op = opKeyInstallSa then rsvdIn p 24 40
  else if op = opKeyQuery then
    let sel := numAt p 24 1
    failIf (decide (2 < sel)) 24 stFmtParam ++ rsvdIn p 25 1 ++
    (if sel = 0 then failIf (decide (4095 < numAt p 26 2)) 26 stFmtParam else rsvdIn p 26 2) ++ rsvdIn p 28 4 ++
    shortBuf p 40 (if sel = 0 then 64 else if sel = 1 then 48 else 16) ++ rsvdIn p 44 20
  else if op = opCipherOp then
    failIf (decide (4095 < numAt p 24 2)) 24 stFmtParam ++ failIf (decide (4 < numAt p 26 1)) 26 stFmtParam ++
    failIf (decide (3 < numAt p 27 1)) 27 stFmtRsvd ++ rsvdIn p 52 12
  else if op = opAuditRead then
    failIf (decide (8192 < numAt p 32 4)) 32 stLenOver ++ shortBuf p 44 (128 * numAt p 32 4) ++ rsvdIn p 48 16
  else if op = opAuditDrain ∨ op = opBootRecordDrain then rsvdIn p 32 32
  else if op = opAuditSeal then shortBuf p 32 224 ++ rsvdIn p 36 28
  else if op = opBootRecordRead then shortBuf p 40 8192 ++ rsvdIn p 44 20
  else if op = opAttestQuote then
    failIf (decide (1 < numAt p 24 1)) 24 stFmtParam ++ rsvdIn p 25 7 ++
    (if numAt p 24 1 = 1 then shortBuf p 40 240 else []) ++ rsvdIn p 44 20
  else if op = opSetTime then rsvdIn p 32 32
  else []

/-- The Hamper region, 3 or 11, that holds an address (R247). -/
def bufferRegion (s : State) (a : Nat) : Option Nat :=
  if winBase s 3 ≤ a ∧ a < winBase s 3 + winSize s 3 then some 3
  else if winBase s 11 ≤ a ∧ a < winBase s 11 + winSize s 11 then some 11
  else none

/-- The base and length of a REGION_REGISTER: the range lies in one of the two regions (R12, R247). -/
def regionRange (s : State) (p : List Byte) : List Fail :=
  match bufferRegion s (numAt p 24 8) with
  | none => [{ off := 24, status := stFmtParam }]
  | some w => failIf (decide (winBase s w + winSize s w < numAt p 24 8 + numAt p 32 4)) 32 stLenOver

/-- A region's connection is a legacy one (R247). -/
def legacyConn (s : State) (n : Nat) : Bool :=
  match s.rma.conns.find? (fun c => c.num == n) with
  | some c => c.prot == 2
  | none => false

/-- The in-line fields of the replication opcodes (Table 09-7). -/
def inlineReplication (s : State) (op : Nat) (p : List Byte) : List Fail :=
  if op = opReplPair then rsvdIn p 24 40
  else if op = opReplStart then
    failIf (decide (1 < numAt p 26 1)) 26 stFmtParam ++ failIf (decide (1 < numAt p 27 1)) 27 stFmtParam ++
    failIf (decide (2 ^ 20 ≤ numAt p 28 4)) 28 stFmtParam ++
    (if numAt p 26 1 = 0 then failIf (numAt p 32 4 == 0) 32 stLenUnder ++ failIf (decide (86400 < numAt p 32 4)) 32 stLenOver
     else []) ++ rsvdIn p 38 26
  else if op = opReplStop then rsvdIn p 26 38
  else if op = opReplStatus then rsvdIn p 26 6 ++ shortBuf p 40 64 ++ rsvdIn p 44 20
  else if op = opRegionRegister then
    regionRange s p ++ failIf (decide (7 < numAt p 36 1)) 36 stFmtRsvd ++ rsvdIn p 37 3 ++
    failIf (!legacyConn s (numAt p 40 4)) 40 stFmtParam ++ rsvdIn p 44 20
  else if op = opRegionRevoke ∨ op = opConnTeardown then rsvdIn p 28 36
  else []

/-- The in-line fields of the diagnostic opcodes (Tables 21-5; R506, R507, R514, R524). -/
def inlineDiagnostics (s : State) (op : Nat) (p : List Byte) : List Fail :=
  let b := fun (o : Nat) => numAt p o 1
  if op = opEvrRead then
    let sel := b 24
    failIf (decide (2 < sel)) 24 stFmtParam ++ rsvdIn p 25 1 ++
    (if sel = 1 then failIf (decide (0x3FF < numAt p 26 2)) 26 stFmtParam else rsvdIn p 26 2) ++
    (if sel = 0 then failIf (decide (8192 < numAt p 32 4)) 32 stLenOver ++ shortBuf p 44 (128 * numAt p 32 4)
     else rsvdIn p 28 8 ++ shortBuf p 44 (if sel = 1 then 320 else 32)) ++ rsvdIn p 48 16
  else if op = opEvrClear then
    failIf (decide (1 < b 24)) 24 stFmtRsvd ++ rsvdIn p 25 3 ++
    failIf (decide (s.nv.evrRecs.length < numAt p 28 4)) 28 stLenOver ++ rsvdIn p 32 32
  else if op = opWvrInject then
    let stop := b 25 == 1
    let wave := b 27
    failIf (decide (63 < b 24)) 24 stFmtParam ++ failIf (decide (1 < b 25)) 25 stFmtParam ++
    (if stop then rsvdIn p 26 38
     else
       failIf (decide (1 < b 26) || (b 26 == 1 && (loopAt s (b 24)).state != 2)) 26 stFmtParam ++ failIf (decide (3 < wave)) 27 stFmtParam ++ rsvdIn p 30 2 ++
       failIf (decide (16777215 < numAt p 32 4)) 32 stFmtParam ++
       (if wave = 1 then failIf (decide (numAt p 36 2 < 2)) 36 stFmtParam
        else if wave = 2 then failIf (numAt p 36 2 == 0 || decide (256 < numAt p 36 2)) 36 stFmtParam
        else failIf (numAt p 36 2 != 0) 36 stFmtParam) ++
       (if wave = 3 then failIf (decide (32768 < numAt p 38 2)) 38 stFmtParam ++ failIf (decide (32768 < numAt p 40 2)) 40 stFmtParam
        else failIf (numAt p 38 2 != 0) 38 stFmtParam ++ failIf (numAt p 40 2 != 0) 40 stFmtParam) ++ rsvdIn p 42 22)
  else if op = opWvrCapture then
    failIf (decide (2 < b 24)) 24 stFmtParam ++
    (if b 24 = 0 then
       failIf (decide (3 < b 25)) 25 stFmtParam ++ failIf (decide (63 < b 26)) 26 stFmtParam ++
       failIf (decide (65536 < numAt p 28 4)) 28 stLenOver ++
       ((List.range 4).map fun k =>
         let v := numAt p (32 + 2 * k) 2
         failIf (field v 6 2 != 0 || field v 12 4 != 0) (32 + 2 * k) stFmtRsvd ++
         failIf (decide (9 < field v 8 4)) (32 + 2 * k) stFmtParam).flatten ++ rsvdIn p 42 22
     else rsvdIn p 25 23 ++
       (if b 24 = 1 then
         shortBuf p 56 (8 * ((match s.wvr.capture with | some c => c.samples.length | none => 0) - numAt p 60 4))
        else rsvdIn p 48 16))
  else if op = opSelftest then failIf (decide (7 < b 24)) 24 stFmtRsvd ++ rsvdIn p 25 7 ++ shortBuf p 40 48 ++ rsvdIn p 44 20
  else if op = opThermStatus then shortBuf p 32 128 ++ rsvdIn p 36 28
  else []

/-- The in-line fields of the firmware opcodes (R159, R162, R166, R169, R173). -/
def inlineFirmware (op : Nat) (p : List Byte) : List Fail :=
  let comp := numAt p 24 1
  let total := numAt p 32 4
  if op = opStageImage then
    failIf (comp == 0 || comp == 6 || decide (8 < comp)) 24 stFmtParam ++ failIf (decide (3 < numAt p 25 1)) 25 stFmtRsvd ++
    rsvdIn p 26 2 ++ failIf (bit (numAt p 25 1) 0 && numAt p 28 4 != 0) 28 stFmtParam ++
    failIf (decide (total < if comp = 8 then 3 else 2048)) 32 stLenUnder ++
    failIf (decide ((match comp with
      | 1 => 0x100000 | 2 => 0x800000 | 3 => 0x2000000 | 4 => 0x200000 | 5 => 0x400000 | 7 => 0x1000000 | _ => 4096) < total))
      32 stLenOver ++ rsvdIn p 40 24
  else if op = opActivateImage then
    failIf (decide (31 < comp)) 24 stFmtRsvd ++ failIf (decide (31 < numAt p 25 1)) 25 stFmtRsvd ++
    failIf (decide (Nat.lor comp (numAt p 25 1) ≠ comp)) 25 stFmtParam ++ rsvdIn p 26 38
  else if op = opFwQuery then shortBuf p 32 192 ++ rsvdIn p 36 28
  else if op = opMigrateStatus then shortBuf p 32 32 ++ rsvdIn p 36 28
  else if op = opPackFwLoad then failIf (decide (63 < comp)) 24 stFmtParam ++ rsvdIn p 25 39
  else []

/-- The class of an opcode (Table 04-12). -/
def opClass (op : Nat) : Nat := op / 256

/-- The in-line fields of every opcode. -/
def inlineFails (s : State) (isReg writable : Nat → Bool) (op : Nat) (p : List Byte) : List Fail :=
  match opClass op with
  | 0 => inlineSystem s op p
  | 1 => inlineConfig s isReg writable op p
  | 2 => inlineVolume s op p
  | 3 => inlineMedia op p
  | 4 => inlineSecurity op p
  | 5 => inlineReplication s op p
  | 6 => inlineDiagnostics s op p
  | 7 => inlineFirmware op p
  | _ => []

/-- The failure at the lowest offset; of one offset the first listed. -/
def firstFail (l : List Fail) : Option Fail :=
  l.foldl (fun b f => match b with
    | none => some f
    | some x => if f.off < x.off then some f else b) none

/-! ### Parameter-block length (R95) -/

/-- The least and greatest length of an opcode's own block; R120 bounds SET_PARAMS by its entry count alone. -/
def blockBounds (op : Nat) (p : List Byte) : Nat × Nat :=
  if op = opSessionOpen then (96, 1048576)
  else if op = opOwnerEnroll then (1, 256)
  else if op = opSetParam then
    (match pidWidth (numAt p 24 2) with
     | some 0 => if pidAccess (numAt p 24 2) = 0 then (0, 4096) else (blockLen (numAt p 24 2), blockLen (numAt p 24 2))
     | _ => (0, 0))
  else if op = opSetParams then (0, 1048576)
  else if op = opVolSetAccess then (if numAt p 26 1 = 2 then (0, 262144) else (0, 0))
  else if op = opSnapCreate then (0, 1048576)
  else if op = opKeyLoad then (88, 136)
  else if op = opKeyInstallSa then (128, 128)
  else if op = opCipherOp then (16, 65552)
  else if op = opAuditDrain ∨ op = opBootRecordDrain then (48, 48)
  else if op = opAuditSeal then (32, 32)
  else if op = opAttestQuote then (if numAt p 24 1 = 1 then (32, 32) else (0, 0))
  else if op = opReplPair then (0, 1048576)
  else if op = opStageImage then (0, 1048576)
  else (0, 0)

/-- The most a signature block adds (Table 04-8). -/
abbrev sigMax : Nat := 204 + 2 * 6144

/-- The length of the block's own part as the packet and the block tell it. -/
def ownLen (signed : Bool) (pbLen : Nat) (block : List Byte) : Nat :=
  if signed && decide (4 ≤ pbLen) then min (numAt block (pbLen - 4) 4) pbLen else pbLen

/-- The length that a STAGE_IMAGE chunk may not have, by its in-line fields alone (R159). -/
def chunkShape (p : List Byte) : List Fail :=
  let n := numAt p 12 4
  let last := bit (numAt p 25 1) 1
  let endAt := numAt p 28 4 + n
  failIf (!last && n % 4096 != 0) 12 stLenShape ++ failIf (decide (numAt p 32 4 < endAt)) 12 stLenOver ++
  failIf (last && endAt != numAt p 32 4) 12 stLenShape

/-- The failures of pb_len, at offset 12. Of a signed SET_PARAMS, a signature block that begins inside the entries is left to stage 4
(R108). -/
def lengthFails (op : Nat) (p block : List Byte) (signed : Bool) : List Fail :=
  let n := numAt p 12 4
  let b := blockBounds op p
  let own := ownLen signed n block
  failIf (decide (1048576 < n)) 12 stLenOver ++
  failIf (decide (b.2 + (if signed then sigMax else 0) < n)) 12 stLenOver ++ failIf (decide (n < b.1)) 12 stLenUnder ++
  (if op = opSetParams then failIf (if signed then decide (16 * numAt p 24 4 < own) else n != 16 * numAt p 24 4) 12 stLenShape
   else if op = opSnapCreate then failIf (own != 2 * numAt p 24 2) 12 stLenShape
   else if op = opVolSetAccess then failIf (numAt p 26 1 == 2 && own % 256 != 0) 12 stLenShape
   else if op = opStageImage then chunkShape p
   else if op = opReplPair then failIf (own != 24 + 24 * numAt block 20 1) 12 stLenShape
   else [])

/-! ### Signature-block shape (R108) and dual control (R107, R110) -/

/-- The signature block of a parameter block: its offset. -/
def sigOff (block : List Byte) : Nat := numAt block (block.length - 4) 4

/-- The detail that locates a parameter-block offset (R97). -/
def blockDetail (off : Nat) : Nat := 0x8000 + off / 32

/-- The shape checks of the signature block, in order. Chains that do not end at the last 4 bytes are located at chain_len_a (R108
names no field; DESIGN CHOICE, log 144). -/
def sigShape (fixed : Nat) (block : List Byte) : Option (Nat × Nat) :=
  let n := block.length
  if n < 4 then some (stLenUnder, 12)
  else
    let o := sigOff block
    if o < fixed then some (stLenUnder, blockDetail (n - 4))
    else if n - 4 < o + 200 then some (stLenOver, blockDetail (n - 4))
    else if numAt block (o + 1) 3 ≠ 0 then some (stFmtRsvd, blockDetail (o + 1))
    else
      let la := numAt block (o + 4) 2
      let lb := numAt block (o + 6) 2
      if 6144 < la then some (stLenOver, blockDetail (o + 4))
      else if 6144 < lb then some (stLenOver, blockDetail (o + 6))
      else if n - 4 < o + 200 + la + lb then some (stLenOver, blockDetail (o + 4))
      else if o + 200 + la + lb < n - 4 then some (stLenShape, blockDetail (o + 4))
      else none

/-- The bytes of "Custodian" (R103, R110). -/
def roleName (role : Nat) : List Byte :=
  match role with
  | 1 => [0x4F, 0x70, 0x65, 0x72, 0x61, 0x74, 0x6F, 0x72]
  | 2 => [0x43, 0x75, 0x73, 0x74, 0x6F, 0x64, 0x69, 0x61, 0x6E]
  | 3 => [0x41, 0x75, 0x64, 0x69, 0x74, 0x6F, 0x72]
  | 4 => [0x53, 0x65, 0x72, 0x76, 0x69, 0x63, 0x65]
  | _ => []

/-- One signer of a dual-control block (R110): the chain before the signature. -/
def signerCheck (s : State) (packet block : List Byte) (chain sig : List Byte) (who : Nat) : Option (Nat × Nat) :=
  if !(Config.chainLeadsTo chain s.nv.fuses.ownerRoot) || Config.leafUnit chain != roleName 2 then some (stAuthCert, who)
  else if !Config.verifyEcdsa (Config.leafKey chain)
      (Config.sha384 (leBytes 8 s.nv.bootCounter ++ packet ++ block.take (sigOff block))) sig then some (stAuthSig, who)
  else none

/-- The dual-control checks of stage 5, in order; the issuing session's own leaf key does not count. -/
def dualCheck (s : State) (ownKey packet block : List Byte) (signed : Bool) : Option (Nat × Nat) :=
  let o := sigOff block
  if !signed || numAt block o 1 != 2 then some (stAuthDual, 0)
  else
    let la := numAt block (o + 4) 2
    let lb := numAt block (o + 6) 2
    let ca := bytesAt block (o + 200) la
    let cb := bytesAt block (o + 200 + la) lb
    let ka := Config.leafKey ca
    let kb := Config.leafKey cb
    if ka = ownKey then some (stAuthDual, 0)
    else if kb = ownKey then some (stAuthDual, 1)
    else if ka = kb then some (stAuthDual, 1)
    else match signerCheck s packet block ca (bytesAt block (o + 8) 96) 0 with
      | some f => some f
      | none => signerCheck s packet block cb (bytesAt block (o + 104) 96) 1

/-! ### SET_PARAMS entries (R120) -/

/-- One entry: PID, width, value. -/
def paramEntry (block : List Byte) (k : Nat) : Nat × Nat × Nat :=
  (numAt block (16 * k) 2, numAt block (16 * k + 2) 1, numAt block (16 * k + 8) 8)

/-- A write of one PID to the fields that later entries are checked against: values, window table, loops (R120, R498,
R548). -/
def previewPid (p v : Nat) (s : State) : State :=
  if 0x0300 ≤ p ∧ p < 0x0320 then
    { s with ham.win := updAt (p - 0x0300) (fun w => winOfPid w.fixed v) s.ham.win }
  else match loopPid p with
    | some (n, i) => { s with wvr.loops := updAt n (loopWrite i v) s.wvr.loops }
    | none => setPid p v s

/-- A SET_PARAMS entry closes a loop of which an earlier entry writes a coefficient (R498; the status is DEDUCED, log 69). -/
def closesWritten (s : State) (seen : List Nat) (p v : Nat) : Bool :=
  match loopPid p with
  | some (n, 0) => v == 2 && (loopAt s n).state != 2 &&
      seen.any fun q => match loopPid q with | some (m, i) => m == n && isCoefficient i | none => false
  | _ => false

/-- The checks of one entry, in their order; `seen` are the PIDs of earlier entries. R120's order names no ORD.CLOSED: it stands last,
after the access (DESIGN CHOICE, log 145). -/
def entryCheck (s : State) (role : Nat) (seen : List Nat) (block : List Byte) (k : Nat) : Option Nat :=
  let p := numAt block (16 * k) 2
  let w := numAt block (16 * k + 2) 1
  match pidWidth p with
  | none => some stFmtPid
  | some pw =>
    if seen.contains p then some stFmtParam
    else if pw = 0 ∨ w ≠ pw then some stFmtParam
    else if !allZero (bytesAt block (16 * k + 3) 5) || !allZero (bytesAt block (16 * k + 8 + w) (8 - w)) then some stFmtRsvd
    else
      let v := numAt block (16 * k + 8) w
      match pidValueCheck s p v with
      | some st => some st
      | none =>
        if pidRole p ≠ role then some stAuthRole
        else if pidLocked s p then some stOrdLocked
        else match (loopPid p).bind fun ni => loopStateCheck s.wvr.loops ni.1 ni.2 v with
          | some st => some st.1
          | none => if closesWritten s seen p v then some stOrdClosed else none

/-- Every entry checked in order, each against what the earlier ones leave; a failure gives its index. -/
def entriesCheck (role : Nat) (block : List Byte) : Nat → Nat → List Nat → State → Option (Nat × Nat)
  | 0, _, _, _ => none
  | n + 1, k, seen, s =>
    match entryCheck s role seen block k with
    | some st => some (st, k)
    | none =>
      let e := paramEntry block k
      entriesCheck role block n (k + 1) (e.1 :: seen) (previewPid e.1 (numAt block (16 * k + 8) e.2.1) s)

/-- The command needs dual control (R107). -/
def needsDual (s : State) (op : Nat) (p block : List Byte) : Bool :=
  match opSpec op with
  | none => false
  | some o =>
    if o.dual then true
    else if op = opSetParam then
      (match pidWidth (numAt p 24 2) with
       | some w => w != 0 && lowersProtection s (numAt p 24 2) (numAt p 28 w)
       | none => false)
    else if op = opSetParams then
      (List.range (numAt p 24 4)).any fun k =>
        let e := paramEntry block k
        lowersProtection s e.1 e.2.2
    else false

end Sys2Proof.Machine
end

