-- ==== Sys2Proof/Machine/RmaOps.lean ====
section
/-! DEFINITION. Shared operations of the remote memory access engine: sub-ports, connections, packets that leave, credits
(R227 to R231, R242 to R244). -/

namespace Sys2Proof.Machine

/-! ### Connections (R227 to R231) -/

/-- C: the size of Hamper region 8 over 256, at most 1,048,576 (R227). -/
def connCap (s : State) : Nat := min 1048576 (winSize s 8 / 256)

/-- Contexts on-die (RMA_ONDIE_USE). -/
def onDieUse (s : State) : Nat := (s.rma.conns.filter (·.onDie)).length

/-- Pinned connections (RMA_PINNED). -/
def pinnedUse (s : State) : Nat := (s.rma.conns.filter (·.pinned)).length

/-! ### PSNs (R242) -/

/-- The distance from PSN `a` on to PSN `b`, modulo 2^24. -/
def psnAhead (a b : Nat) : Nat := (b + 2 ^ 24 - a % 2 ^ 24) % 2 ^ 24

/-- PSN `b` lies behind `a`. -/
def psnBehind (a b : Nat) : Bool := decide (2 ^ 23 ≤ psnAhead a b)

/-! ### Credits (R243) -/

/-- The counts that the 5-bit AETH encoding can express, by code. -/
def creditCounts : List Nat :=
  [0, 1, 2, 3, 4, 6, 8, 12, 16, 24, 32, 48, 64, 96, 128, 192, 256, 384, 512, 768, 1024, 1536, 2048, 3072, 4096, 6144, 8192, 12288,
    16384, 24576, 32768]

/-- The code of the largest count that is no more than a number. -/
def creditCode (n : Nat) : Nat := (creditCounts.filter (decide <| · ≤ n)).length - 1

/-- The count of a code. -/
def creditCount (code : Nat) : Nat := (creditCounts[code]?).getD 0

/-- What the device grants on a connection: min(F, floor(u_c × L_c)), u_c being the class's credit actuator (R243). -/
def creditGrant (s : State) (c : Conn) : Nat :=
  min c.recvFree ((actOf s 1 c.cls * (pidVal s (0x0610 + c.cls) : Int)).toNat / 32768)

/-- An acknowledgement: the PSN up to which every packet has been received, with the credits granted (R242, R243). -/
def sendAck (n : Nat) (s : State) : State :=
  match connOf s n with
  | none => s
  | some c =>
    let g := creditGrant s c
    let body := if multipath c then mpethBytes c.nextMsn 0 false false else []
    txPacket n (creditCode g) ((c.expPsn + 2 ^ 24 - 1) % 2 ^ 24) body (updConn n (fun c => { c with creditsOut := creditCount (creditCode g) }) s)

/-- A packet of the responder that carries an AETH before its payload: the credits are granted in it (R243). -/
def txAeth (n kind psn : Nat) (bytes : List Byte) (s : State) : State :=
  match connOf s n with
  | none => s
  | some c =>
    let k := creditCode (creditGrant s c)
    let body := (if multipath c then mpethBytes c.nextMsn 0 false false else []) ++ leBytes 1 k ++ bytes
    txPacket n kind psn body (updConn n (fun c => { c with creditsOut := creditCount k }) s)

/-- The TCP receive window of a class 1 connection: the granted count times 4,096 bytes (R243). -/
def tcpWindow (s : State) (c : Conn) : Nat := creditCount (creditCode (creditGrant s c)) * 4096

/-- The device sends at most one CNP per connection per PID 0x0608 µs while CE-marked packets arrive (R224). -/
def noteCe (n : Nat) (s : State) : State :=
  match connOf s n with
  | none => s
  | some c =>
    if (match c.cnpAt with | some t => decide (s.now < t + 1000 * pidVal s 0x0608) | none => false) then s
    else txPacket n 0x181 0 (if multipath c then mpethBytes c.nextMsn 0 false false else []) (updConn n (fun c => { c with cnpAt := some s.now }) s)

/-- A packet's ECN mark noted. -/
def marked (ce : Bool) (n : Nat) (s : State) : State := if ce then noteCe n s else s

/-! ### Replication messages (R251) -/

/-- The chunks of a map's entries, as a replication message carries them: chunk, kind, and the data of a mapped one (DESIGN
CHOICE, log 56: the spec gives the remote protocol no form). -/
def chunkMessage (s : State) (es : List (Nat × Nat × Nat)) : List Byte :=
  (es.map fun e => leBytes 8 e.1 ++ [BitVec.ofNat 8 e.2.1] ++
    (if e.2.1 = 0 then (match storedOf s e.2.2 with | some x => x.data | none => []) else [])).flatten

/-- A write's records leave for the synchronous remote (R251). -/
def sendSync (t : Tag) (s : State) : State :=
  match s.rma.repls.find? fun r => r.vol == t.vol && r.mode == 1 && r.state == 2 with
  | none => s
  | some r => sendMessage r.conn 0x104 (leBytes 8 t.arrival ++ leBytes 2 r.remoteVol ++ chunkMessage s (t.entries.map fun e => (e.chunk, e.kind, e.stored))) s

end Sys2Proof.Machine
end

