-- ==== Sys2Proof/Machine/WriteOps.lean ====
section
/-! DEFINITION. The write path from a staged payload to its Coil records: merging, duplicates, bundles, parts, and the
loop that grants locks and reduces staged writes until nothing more can be done (R212, R218, R257 to R275, R318). -/

namespace Sys2Proof.Machine

/-! ### Chunks of a write and their new content (R257 to R259) -/

/-- A block lies in the blocks that a tag writes. -/
def tagCovers (t : Tag) (lba : Nat) : Bool :=
  if t.kind = 4 then t.ranges.any fun r => decide (r.1 ≤ lba) && decide (lba < r.1 + r.2)
  else decide (t.slba ≤ lba) && decide (lba < t.slba + t.nblocks)

/-- The chunks that hold a range of blocks. -/
def rangeChunks (fmt first n : Nat) : List Nat :=
  if n = 0 then [] else
    let c := chunkBlocks fmt
    (List.range ((first + n - 1) / c + 1 - first / c)).map (first / c + ·)

/-- The chunks that a tag touches. -/
def tagChunks (fmt : Nat) (t : Tag) : List Nat :=
  if t.kind = 4 then (t.ranges.map fun r => rangeChunks fmt r.1 r.2).flatten.eraseDups else rangeChunks fmt t.slba t.nblocks

/-- A chunk's new content: its data, its delta entry without a stored chunk, and whether blocks were merged. -/
structure NewChunk where
  data : List Byte
  entry : DeltaEntry
  merged : Bool
  deriving DecidableEq, Repr

/-- The merge of the blocks a tag writes into a chunk's current content (R258, R259). Write Zeroes leaves application
and reference tags zero (log 32). -/
def mergeChunk (s : State) (v : Volume) (t : Tag) (k : Nat) : NewChunk :=
  let n := chunkBlocks v.format
  let w := blockBytes v.format
  let cur := currentEntry s v.num k
  let curData := entryData s cur
  let blocks := (List.range n).map fun b =>
    let lba := k * n + b
    if tagCovers t lba then
      if t.kind = 1 then
        let x := (t.payload[lba - t.slba]?).getD { data := zeros w }
        (padTo w x.data, false, x.app, x.ref)
      else (zeros w, t.kind == 4 || t.deac, 0, 0)
    else
      let e := match cur with | some e => (e.apps, e.refs) | none => ([], [])
      (if blockDealloc cur b then zeros w else bytesAt curData (b * w) w, blockDealloc cur b, (e.1[b]?).getD 0, (e.2[b]?).getD 0)
  let data := (blocks.map (·.1)).flatten
  let dealloc := (blocks.zipIdx.foldl (fun m e => m + flagAt e.1.2.1 e.2) 0)
  let gone := blocks.all (·.2.1)
  let tagsKept := metaBytes v.format != 0
  { data := data
    merged := (List.range n).any fun b => !tagCovers t (k * n + b)
    entry := { chunk := k, kind := if gone then 2 else if allZero data then 1 else 0, dealloc := if gone ∨ n = 1 then 0 else dealloc
               apps := if tagsKept && !gone then blocks.map (·.2.2.1) else []
               refs := if tagsKept && !gone && v.pi == 3 then blocks.map (·.2.2.2) else [] } }

/-! ### Duplicates (R261, R265 to R267) -/

/-- The fingerprint of a chunk (R261). -/
def fingerprint (d : Domain) (data : List Byte) : List Byte := Config.sha256 (d.salt ++ data)

/-- The domain has a volume with deduplication set (R265). -/
def domainDedups (s : State) (d : Nat) : Bool := s.nv.volumes.any fun v => v.domain == d && v.dedup

/-- The stored chunk of a domain with a fingerprint that the cold index holds (R265). -/
def coldHolds (s : State) (d : Nat) (fp : List Byte) : Bool :=
  domainDedups s d && s.nv.stored.any fun x => x.domain == d && x.fp == fp && x.committed && refCount s x.id != 0

/-- The bundle of a stored chunk was written by the peer (R267, R272). -/
def peerWrote (s : State) (x : Stored) : Bool :=
  match bundleOf s x.domain x.bundle with | some b => b.sideB != s.aon.side | none => false

/-- The conditions of a match that do not concern the reference limit and the guard set (R266, R371). -/
def matchable (s : State) (x : Stored) (d : Nat) (fp : List Byte) : Bool :=
  x.domain == d && x.fp == fp && x.committed && !x.lost && refCount s x.id != 0

/-- The verdict on a candidate: 0 no match, 1 a match, 2 equal fingerprints with unequal guard sets, 3 at the reference
limit, 4 a match whose reference the peer takes. -/
def judge (s : State) (id d : Nat) (fp : List Byte) (guards : List Nat) : Nat :=
  match storedOf s id with
  | none => 0
  | some x =>
    if !matchable s x d fp then 0
    else if x.guards ≠ guards then 2
    else if pidVal s 0x0703 ≤ dedupCount s x then 3
    else if peerWrote s x then (if s.hdl.paired then 4 else 0)
    else 1

/-- A tag's entry for a chunk changed. -/
def setEntry (i k : Nat) (f : DeltaEntry → DeltaEntry) (s : State) : State :=
  updTag i (fun t => { t with entries := updWhere (fun e => e.chunk == k) f t.entries }) s

/-- A write is refused before its commit: it completes with an error and stores nothing (R197, R372, R387). A secure
discard's deallocation ends its command. -/
def failTag (i : Nat) (st : NvmeStatus) (s : State) : State :=
  if i = discardTag then
    let code := if st = .unrecoveredRead then stMedLost else if st = .writeProtected then stKeyExhausted else stResNotfound
    endLongOp opSecureDiscard code 0 0
      { releaseLock (.tag i) s with hfe.tags := s.hfe.tags.filter (fun t => t.idx != i), med.discard := none }
  else endTag i st [] s

/-! ### Bundles (R269 to R275) -/

/-- The form and units of a bundle's payload: the smallest extent among the forms tried, ties to stored, LZ4, zstd
(R271). -/
def chooseForm (compression : Nat) (payload : List Byte) : Nat × Nat :=
  let units := fun (form : Nat) => extentUnits (formPayload form payload).length
  let a := if (compression = 0 ∨ compression = 1) ∧ units 1 < units 0 then 1 else 0
  let a := if compression = 0 ∧ units 2 < units a then 2 else a
  (a, units a)

/-- The next bundle identifier of a domain on this head (R272). -/
def nextBundleId (s : State) (d : Domain) : Nat := if s.aon.side then 2 ^ 47 + d.counterB else d.counterA

/-- The counter of the writing head advanced; past 2^47 - 1 the domain is write-protected (R272). -/
def bumpCounter (sideB : Bool) (d : Domain) : Domain :=
  let c := if sideB then d.counterB + 1 else d.counterA + 1
  let d := if sideB then { d with counterB := c } else { d with counterA := c }
  if 2 ^ 47 ≤ c then { d with writeProtected := true } else d

/-- The counters of the forms (Table 10-8). -/
def countForm (form : Nat) (s : State) : State :=
  if form = 0 then { s with red.formStored := satAdd (2 ^ 32 - 1) s.red.formStored 1 }
  else if form = 1 then { s with red.formLz4 := satAdd (2 ^ 32 - 1) s.red.formLz4 1 }
  else { s with red.formZstd := satAdd (2 ^ 32 - 1) s.red.formZstd 1 }

/-- A failed verify-after-compress: stored form, code 0x071, and the slice that made the bundle leaves service (R273;
which slice is a free value, log 1). -/
def verifyFailed (s : State) : State :=
  countEvent 0x071 0 (drewFree { s with
    red.verifyFail := satAdd (2 ^ 32 - 1) s.red.verifyFail 1, red.sliceOut := setBit s.red.sliceOut (freeBelow 32 s) })

/-- The bundle of stored chunks: identifier, form, encryption under the domain's current key, and its data record
(R269 to R275, Table 12-4). A key at its limit or a domain out of identifiers refuses it: the writes that wait for it
complete with Namespace is Write Protected (R263). -/
def makeBundle (d : Domain) (compression : Nat) (ids : List Nat) (vok : Bool) (s : State) : State :=
  let payload := (ids.map fun i => match storedOf s i with | some x => padTo 4096 x.data | none => zeros 4096).flatten
  let f := chooseForm compression payload
  let bad : Bool := f.1 != 0 && !vok
  let s := if bad then verifyFailed s else s
  let f := if bad then (0, extentUnits payload.length) else f
  let refuseAll := fun (s : State) =>
    let hit := s.hfe.tags.filter fun t => t.entries.any fun e => e.kind == 0 && ids.contains e.stored
    let s := hit.foldl (fun s t => failTag t.idx .writeProtected s) s
    { s with nv.stored := s.nv.stored.filter fun x => !ids.contains x.id }
  match slotOf s d.cur with
  | none => refuseAll s
  | some x =>
    if overLimit x f.2 then refuseAll (keyExhausted x s)
    else if d.writeProtected then refuseAll s
    else
      let s := chargeKey x f.2 s
      let id := nextBundleId s d
      let b : Bundle := { id := id, domain := d.num, chunks := ids, form := f.1, units := f.2, keyGen := d.keyGen, sideB := s.aon.side,
                          extent := xtsExtent false x.key id f.2 (bundlePlain f.1 ids.length f.2 (formPayload f.1 payload)) }
      let s := updDomain d.num (bumpCounter s.aon.side) { s with nv.bundles := s.nv.bundles ++ [b] }
      let s := ids.zipIdx.foldl (fun s e => updStored e.1 (fun y => { y with bundle := id, pos := e.2 }) s) s
      appendRecord (.data id d.num []) (countForm f.1 s)

/-- An open bundle closes (R269). -/
def closeBundle (o : OpenBundle) (vok : Bool) (s : State) : State :=
  let s := { s with red.open_ := s.red.open_.filter fun x => !(x.domain == o.domain && x.compression == o.compression) }
  match domainOf s o.domain with
  | none => s
  | some d =>
    let ids := (o.chunks.map (·.1)).filter fun i => (storedOf s i).isSome
    if ids = [] then s else makeBundle d o.compression ids vok s

/-- The open bundle of a domain and policy. -/
def openBundle (s : State) (domain compression : Nat) : OpenBundle :=
  (s.red.open_.find? fun x => x.domain == domain && x.compression == compression).getD { domain := domain, compression := compression }

/-- A unique chunk joins its open bundle, which closes with 8 chunks, or at once where PID 0x0700 is 0 (R269). -/
def gather (v : Volume) (id tag : Nat) (vok : Bool) (s : State) : State :=
  let o := openBundle s v.domain v.compression
  let o := { o with chunks := o.chunks ++ [(id, tag)], oldest := if o.chunks = [] then s.now else o.oldest }
  let s := { s with red.open_ := s.red.open_.filter (fun x => !(x.domain == o.domain && x.compression == o.compression)) ++ [o] }
  if o.chunks.length = 8 ∨ pidVal s 0x0700 = 0 then closeBundle o vok s else s

/-- A chunk stored as unique; below the write reserve a data host's write completes with Capacity Exceeded instead (R387).
A secure discard's tag lies above the host's tags. -/
def storeUnique (v : Volume) (d : Domain) (i k : Nat) (data : List Byte) (vok : Bool) (s : State) : State :=
  if belowReserve s s.aon.side && decide (i < 65536) then
    let first : Bool := !s.med.reserveEpisode
    let s := countIf first 0x0B5 { s with med.reserveEpisode := true, med.capExceeded := satAdd (2 ^ 32 - 1) s.med.capExceeded 1 }
    failTag i .capacityExceeded s
  else
    let id := s.nv.nextStored
    let x : Stored := { id := id, domain := d.num, data := data, fp := fingerprint d data, guards := guardSet v.format data }
    gather v id i vok (setEntry i k (fun e => { e with kind := 0, stored := id })
      { s with nv.stored := s.nv.stored ++ [x], nv.nextStored := id + 1, med.reserveEpisode := false })

/-- A chunk matched with a stored one: a reference made by deduplication (R266). -/
def takeMatch (i k id : Nat) (s : State) : State := setEntry i k (fun e => { e with kind := 0, stored := id, dup := true }) s

/-- A duplicate counted, found hot or cold (Table 10-8). -/
def countDup (cold : Bool) (s : State) : State :=
  if cold then { s with red.dupCold := satAdd (2 ^ 32 - 1) s.red.dupCold 1 }
  else { s with red.dupHot := satAdd (2 ^ 32 - 1) s.red.dupHot 1 }

/-- A reference that the peer takes (R267): REF_TAKE names the bundle and position; the chunk waits for the response. -/
def askPeer (i k id : Nat) (x : Stored) (data : List Byte) (cold : Bool) (s : State) : State :=
  requestPeer { tag := 0, code := 0x22, ioTag := i, stored := id, chunk := k, data := data, cold := cold } [x.bundle, x.pos] [] 0 s

/-- A candidate acted upon (R266, R267): matched, stored as unique, or asked of the peer. -/
def useCandidate (v : Volume) (d : Domain) (i k id : Nat) (data : List Byte) (cold vok : Bool) (s : State) : State :=
  let verdict := judge s id d.num (fingerprint d data) (guardSet v.format data)
  if verdict = 1 then
    takeMatch i k id (countDup cold s)
  else if verdict = 4 then
    (match storedOf s id, peerTagFree s with
     | some x, some _ => askPeer i k id x data cold (setEntry i k (fun e => { e with kind := 3 }) s)
     | _, _ => storeUnique v d i k data vok s)
  else if verdict = 2 then
    storeUnique v d i k data vok (countEvent 0x070 0 { s with red.collide := satAdd (2 ^ 32 - 1) s.red.collide 1 })
  else if verdict = 3 then storeUnique v d i k data vok (countEvent 0x073 0 s)
  else storeUnique v d i k data vok s

/-- The hot index's candidate for a fingerprint (R265). -/
def hotCandidate (s : State) (d : Nat) (fp : List Byte) : Option Nat :=
  s.red.hot.find? fun id => match storedOf s id with | some x => x.domain == d && x.fp == fp | none => false

/-- One chunk reduced (R259, R266): zero and deallocated chunks are not stored; a chunk of a deduplicating volume is
looked up hot, then cold within the budget of PID 0x0701. -/
def reduceChunk (v : Volume) (d : Domain) (i : Nat) (vok : Bool) (s : State) (c : NewChunk) : State :=
  if (tagOf s i).isNone then s
  else
    let k := c.entry.chunk
    let s := { s with red.chunks := satAdd (2 ^ 32 - 1) s.red.chunks 1 }
    if c.entry.kind = 1 then { s with red.zero := satAdd (2 ^ 32 - 1) s.red.zero 1 }
    else if c.entry.kind = 2 then s
    else if !v.dedup then storeUnique v d i k c.data vok s
    else
      let fp := fingerprint d c.data
      match hotCandidate s d.num fp with
      | some id => useCandidate v d i k id c.data false vok s
      | none =>
        if !coldHolds s d.num fp && !Config.sieveMaybe fp then storeUnique v d i k c.data vok s
        else if s.red.coldInFlight.length < pidVal s 0x0701 then
          setEntry i k (fun e => { e with kind := 3 }) { s with red.coldInFlight := s.red.coldInFlight ++ [(i, k, c.data)] }
        else
          storeUnique v d i k c.data vok (countEvent 0x072 0
            { s with red.coldSkip := satAdd (2 ^ 32 - 1) s.red.coldSkip 1, red.coldLimitedAt := some s.now })

/-- An Error Information log entry (R372). -/
def logLost (v : Volume) (lba : Nat) (s : State) : State := { s with hfe.errLog := s.hfe.errLog ++ [(v.num + 1, lba)] }

/-- Stored chunks are read for a tag: the extents of their bundles from the packs (R368); a bundle only in Coil is read there. -/
def readStored (xs : List Stored) (i : Nat) (s : State) : State :=
  let places := (xs.filterMap fun x => (bundleOf s x.domain x.bundle).bind fun b => b.place).eraseDups
  places.foldl (fun s p => readExtent p.1 p.2 0 i s) s

/-- The stored chunks that a tag's merges read: the current content of a partly covered chunk that no earlier merge holds (R258). -/
def mergeReads (s : State) (v : Volume) (cs : List NewChunk) : List Stored :=
  cs.filterMap fun c =>
    if c.merged && (pendingEntry s v.num c.entry.chunk).isNone then
      (entryAt (mapOf s false v.num) c.entry.chunk).bind fun e => if e.kind = 0 then storedOf s e.stored else none
    else none

/-- A staged write, Write Zeroes or Dataset Management reduced chunk by chunk. A merge into a lost chunk fails it
(R372). -/
def reduceTag (vok : Bool) (t : Tag) (s : State) : State :=
  match volumeOf s t.vol with
  | none => failTag t.idx .invalidNamespace s
  | some v => match domainOf s v.domain with
    | none => failTag t.idx .accessInaccessible s
    | some d =>
      let cs := (tagChunks v.format t).map (mergeChunk s v t)
      match cs.find? fun c => c.merged && entryLost s (currentEntry s v.num c.entry.chunk) with
      | some c => failTag t.idx .unrecoveredRead (logLost v (c.entry.chunk * chunkBlocks v.format) s)
      | none =>
        let s := updTag t.idx (fun t => { t with reduced := true, entries := cs.map (·.entry) }) (readStored (mergeReads s v cs) t.idx s)
        cs.foldl (reduceChunk v d t.idx vok) s

/-! ### Parts and their records (R218, R318) -/

/-- The parts of a range: one where it holds 2 MiB or less, else cut at the 2 MiB boundaries of the volume. -/
def partsFrom : Nat → Nat → Nat → Nat → List (Nat × Nat)
  | 0, _, _, _ => []
  | fuel + 1, unit, first, n =>
    if n = 0 then [] else
      let m := min n (unit - first % unit)
      (first, m) :: partsFrom fuel unit (first + m) (n - m)

/-- The parts of a range of blocks. -/
def partsOf (fmt first n : Nat) : List (Nat × Nat) :=
  let u := partBlocks fmt
  if n ≤ u then [(first, n)] else partsFrom (n / u + 2) u first n

/-- The range of a tag's lock: for Dataset Management, its lowest first block to its highest last block (Table 08-1). -/
def tagRange (t : Tag) : Nat × Nat :=
  if t.kind = 4 then
    let rs := t.ranges.filter fun r => r.2 != 0
    let lo := rs.foldl (fun m r => min m r.1) (2 ^ 64)
    let hi := rs.foldl (fun m r => max m (r.1 + r.2)) 0
    (lo, hi - lo)
  else (t.slba, t.nblocks)

/-- Every chunk of a tag has its final entry, each mapped one in a bundle with its data record. -/
def tagBundled (s : State) (t : Tag) : Bool :=
  t.entries.all fun e => e.kind != 3 && (e.kind != 0 || (match storedOf s e.stored with
    | some x => x.bundle != 0
    | none => false))

/-- The delta and commit records of a tag's parts appended, each commit after its delta; a synchronous remote is sent them
(R251, R318). -/
def logTag (t : Tag) (s : State) : State :=
  let fmt := match volumeOf s t.vol with | some v => v.format | none => 2
  let n := chunkBlocks fmt
  let rng := tagRange t
  let parts := (partsOf fmt rng.1 rng.2).filterMap fun p =>
    let es := t.entries.filter fun e => decide (p.1 / n ≤ e.chunk) && decide (e.chunk ≤ (p.1 + p.2 - 1) / n)
    if es = [] then none else some (p, es)
  let s := sendSync t (updTag t.idx (fun t => { t with logged := true, parts := parts.length }) s)
  parts.zipIdx.foldl (fun s e =>
    appendRecord (.commit t.arrival 0 t.vol e.2 parts.length e.1.1.1 e.1.1.2) (appendRecord (.delta t.arrival t.vol e.1.2) s)) s

/-! ### What a grant does, and the loop -/

/-- A volume that lost its synchronous remote refuses new writes (R252). -/
def syncRefuses (s : State) (vol : Nat) : Bool := s.rma.repls.any fun r => r.vol == vol && r.refusing

/-- A granted Read, Compare or Verify reads its chunks. -/
def readTag (t : Tag) (s : State) : State :=
  match volumeOf s t.vol with
  | none => s
  | some v =>
    if t.kind = 1 ∨ t.kind = 3 ∨ t.kind = 4 then s
    else
      let xs := (rangeChunks v.format t.slba t.nblocks).filterMap fun k =>
        (entryAt (mapOf s false v.num) k).bind fun e => if e.kind = 0 then storedOf s e.stored else none
      readStored xs t.idx s

/-! ### Payload asked of a Fabrics host (R181, R226) -/

/-- The bytes that the data of one R2T carries at most. -/
abbrev maxH2cData : Nat := 131072

/-- The R2Ts of one command outstanding at most. -/
abbrev maxR2t : Nat := 16

/-- In-capsule data, in bytes. -/
abbrev inCapsule : Nat := 8192

/-- The device asks for a command's payload: over NVMe/TCP with R2Ts, while no more than 16 of them wait for their data; over NVMe/RDMA
with one RDMA READ of the host's memory. Data that fit a capsule have come in it (R181, R226; DESIGN CHOICE, log 163). -/
def askHost (i : Nat) (s : State) : State :=
  match tagOf s i with
  | none => s
  | some t => match hostConn s t, volumeOf s t.vol with
    | some c, some v =>
      let w := blockBytes v.format + if t.pi.pract then 0 else metaBytes v.format
      let total := t.nblocks * w
      if total ≤ inCapsule then s
      else if c.cls = 0 then
        (if t.r2ts = 0 then sendMessage c.num 0x10C (hostReth t total) (updTag i (fun t => { t with r2ts := 1 }) s) else s)
      else
        let upTo := min (ceilDiv total maxH2cData) (t.payload.length * w / maxH2cData + maxR2t)
        ((List.range upTo).drop t.r2ts).foldl
          (fun s k => emit (.nvmeTcp c.num 9 [t.cid, i, k * maxH2cData, min maxH2cData (total - k * maxH2cData)]) s)
          (updTag i (fun t => { t with r2ts := max t.r2ts upTo }) s)
    | _, _ => s

/-- A tag's entry is granted: its tag is LOCKED; a write-class command under the refusing policy completes with
Namespace Not Ready; Write Zeroes and Dataset Management move to STAGED in the same update, Verify issues its first read (R189, R209, R210,
R319). -/
def grantTag (l : Lock) (i : Nat) (s : State) : State :=
  match tagOf s i with
  | none => s
  | some t =>
    let src := if blockers s.rlk.locks l = [] then none else hitSource s l
    let wait := (s.now - l.since) / 1000
    let s := { s with
      rlk.locks := updWhere (fun x => x.holder == l.holder) (fun x => { x with granted := true, hit := src.isSome, source := match src with | some w => w.idx | none => 0 }) s.rlk.locks
      rlk.waitMax := max s.rlk.waitMax (min wait (2 ^ 24 - 1))
      rlk.hits := if src.isSome then satAdd (2 ^ 32 - 1) s.rlk.hits 1 else s.rlk.hits }
    if l.excl && decide (i < 65536) && (policyRefuses s || syncRefuses s l.vol) then endTag i .namespaceNotReady [] s
    else match src with
      | some w => updTag i (fun t => { t with state := 2, hit := true, payload := (w.payload.drop (t.slba - w.slba)).take t.nblocks }) s
      | none =>
        if t.kind = 3 ∨ t.kind = 4 then
          if t.abortReq then updTag i (fun t => { t with state := 2 }) s
          else updTag i (fun t => { t with state := 3, begun := true }) s
        else
          let s := readTag t (updTag i (fun t => { t with state := 2, begun := t.kind == 6 }) s)
          if t.kind = 1 ∨ t.kind = 5 then askHost i s else s

/-- An entry granted: of a tag, or of a PLEM operation. -/
def grantLock (l : Lock) (s : State) : State :=
  match l.holder with
  | .tag i => grantTag l i s
  | .plem _ _ =>
    let wait := (s.now - l.since) / 1000
    { s with
      rlk.locks := updWhere (fun x => x.holder == l.holder && x.vol == l.vol) (fun x => { x with granted := true }) s.rlk.locks
      rlk.waitMax := max s.rlk.waitMax (min wait (2 ^ 24 - 1)) }

/-- A write-class tag that has staged its payload. -/
def stagedWrite (t : Tag) : Bool := t.state == 3 && (t.kind == 1 || t.kind == 3 || t.kind == 4) && !t.forwarded

/-- The staged writes that can be reduced: no earlier write that touches one of their chunks has still to be merged (R258). -/
def reducible (s : State) : List Tag :=
  s.hfe.tags.filter fun t => stagedWrite t && !t.reduced &&
    (match volumeOf s t.vol with
     | none => true
     | some v =>
       let cs := tagChunks v.format t
       !s.hfe.tags.any fun u => u.vol == t.vol && decide (u.arrival < t.arrival) && (u.kind == 1 || u.kind == 3 || u.kind == 4) &&
         !u.forwarded && (!u.reduced || u.entries.any fun e => e.kind == 3) && (tagChunks v.format u).any fun k => cs.contains k)

/-- The next staged write to reduce: chunks are taken in order of arrival number (R269). -/
def nextReduce (s : State) : Option Tag := (reducible s).find? fun t => (reducible s).all fun u => decide (t.arrival ≤ u.arrival)

/-- The next reduced write whose records can be appended. -/
def nextLog (s : State) : Option Tag := s.hfe.tags.find? fun t => stagedWrite t && t.reduced && !t.logged && tagBundled s t

/-- Locks are granted, staged writes reduced and their records appended until nothing more can be done. -/
def settleLoop (vok : Bool) : Nat → State → State
  | 0, s => s
  | n + 1, s =>
    match nextGrant s with
    | some l => settleLoop vok n (grantLock l s)
    | none => match nextReduce s with
      | some t => settleLoop vok n (reduceTag vok t s)
      | none => match nextLog s with
        | some t => settleLoop vok n (logTag t s)
        | none => s

/-- The loop, long enough: each entry is granted once, each tag reduced once and logged once. -/
def settle (vok : Bool) (s : State) : State := settleLoop vok (s.rlk.locks.length + 2 * s.hfe.tags.length + 1) s

end Sys2Proof.Machine
end

