-- ==== Sys2Proof/Machine/Effects.lean ====
section
/-! DEFINITION. What an operation that commits in Coil does when its commit record takes effect: the operations of the
volume and layout classes, and the commits of garbage collection, rebuild and layout switches (R262 to R264, R281 to
R285, R349 to R355, R360, R367, R393 to R397). -/

namespace Sys2Proof.Machine

/-! ### Operation codes of the device's own commits -/

/-- The switch of generations (R354). -/
abbrev opxSwitch : Nat := 0xF003
/-- The retirement of a block (R397). -/
abbrev opxRetire : Nat := 0xF004
/-- The end of a reversed change (R355). -/
abbrev opxReverse : Nat := 0xF005
/-- The authority epoch in the layout roots (R452). -/
abbrev opxEpoch : Nat := 0xF007
/-- A replication snapshot (R251). -/
abbrev opxReplSnap : Nat := 0xF008

/-! ### Volumes, snapshots, clones (R278 to R285) -/

/-- A new volume; no data host has access to it (R278). -/
def createVolume (vol dom fmt pi flags size : Nat) (s : State) : State :=
  { s with nv.volumes := s.nv.volumes ++ [{
      num := vol, domain := dom, format := fmt, pi := pi, size := size, ownerB := bit flags 0, dedup := bit flags 1
      compression := field flags 2 2 }] }

/-- A snapshot's references dropped, and the snapshot with them. -/
def deleteSnapshot (id : Nat) (s : State) : State :=
  let s := replaceMap true id [] s
  { s with nv.snaps := s.nv.snaps.filter fun x => x.id != id }

/-- A volume's references dropped and its number freed; with the flag, its snapshots too (R282). -/
def deleteVolume (vol flag : Nat) (s : State) : State :=
  let s := if bit flag 0 then (s.nv.snaps.filter fun x => x.vol == vol).foldl (fun s x => deleteSnapshot x.id s) s else s
  let s := replaceMap false vol [] s
  { s with nv.volumes := s.nv.volumes.filter fun v => v.num != vol, rma.repls := s.rma.repls.filter fun r => r.vol != vol }

/-- The map of a volume cut at a size: chunks beyond it leave; in a chunk that the end cuts, the blocks beyond it are
deallocated (R259, R282). -/
def cutMap (fmt size : Nat) (l : List MapEntry) : List MapEntry :=
  let n := chunkBlocks fmt
  (l.filter fun e => decide (e.chunk * n < size)).map fun e =>
    if (e.chunk + 1) * n ≤ size then e
    else { e with dealloc := (List.range n).foldl (fun m b => if size ≤ e.chunk * n + b then setBit m b else m) e.dealloc }

/-- A volume's size changed (R282). -/
def resizeVolume (vol size : Nat) (s : State) : State :=
  match volumeOf s vol with
  | none => s
  | some v =>
    let s := if size < v.size then replaceMap false vol (cutMap v.format size (mapOf s false vol)) s else s
    updVolume vol (fun v => { v with size := size }) s

/-- The NQN entries of a block (R281). -/
def nqnEntries (b : List Byte) : List (List Byte) := (List.range (b.length / 256)).map fun k => bytesAt b (256 * k) 256

/-- VOL_SET_ACCESS (R281): op 0 begins the ownership move, both heads entering Change (R185). -/
def setAccess (vol op arg hosts : Nat) (block : List Byte) (s : State) : State :=
  if op = 0 then updVolume vol (fun v => { v with moving := true }) s
  else if op = 1 then updVolume vol (fun v => { v with inaccessible := arg == 1 }) s
  else updVolume vol (fun v => { v with hosts := hosts, nqns := nqnEntries block }) s

/-- Snapshots of volumes at one arrival number, with the identifiers that follow the first (R283, R284). -/
def createSnaps (arrival first : Nat) (replication : Bool) (vols : List Nat) (s : State) : State :=
  let s := { s with nv.nextSnap := max s.nv.nextSnap (first + vols.length) }
  vols.zipIdx.foldl (fun s e =>
    let size := match volumeOf s e.1 with | some v => v.size | none => 0
    let x : Snapshot := { id := first + e.2, vol := e.1, arrival := arrival, size := size, created := s.now, replication := replication }
    setMap true (first + e.2) (copiedMap s false e.1) { s with nv.snaps := s.nv.snaps ++ [x] }) s

/-- A clone: its source's attributes and every mapping (R285). -/
def cloneVolume (new kind flags source : Nat) (s : State) : State :=
  let vol := if kind = 0 then source else (match snapOf s source with | some x => x.vol | none => 65536)
  match volumeOf s vol with
  | none => s
  | some v =>
    let size := if kind = 0 then v.size else (match snapOf s source with | some x => x.size | none => 0)
    let w : Volume := { num := new, domain := v.domain, format := v.format, pi := v.pi, size := size, ownerB := bit flags 0,
                        dedup := v.dedup, compression := v.compression }
    setMap false new (copiedMap s (kind == 1) source) { s with nv.volumes := s.nv.volumes ++ [w] }

/-! ### Domains (R260 to R264) -/

/-- A bundle is protected by its domain's previous key. -/
def underPrev (d : Domain) (b : Bundle) : Bool := b.domain == d.num && b.keyGen != d.keyGen

/-- A slot serves a domain, or no longer (Table 11-1: attribute bit 2). -/
def slotServes (slot dom : Nat) (on : Bool) (s : State) : State :=
  updSlot slot (fun x => { x with attrs := if on then setBit x.attrs 2 else clearBit x.attrs 2, domain := if on then dom else 0 }) s

/-- The previous key's slot is released once no bundle remains under it (R263). -/
def releasePrev (dom : Nat) (s : State) : State :=
  match domainOf s dom with
  | none => s
  | some d => match d.prev with
    | none => s
    | some p =>
      if s.nv.bundles.any (underPrev d) then s
      else updDomain dom (fun d => { d with prev := none }) (slotServes p dom false s)

/-- Every domain's previous key released where nothing remains under it. -/
def releasePrevs (s : State) : State := s.nv.domains.foldl (fun s d => releasePrev d.num s) s

/-- A head has used its last bundle identifier: no key change makes room for another (R272). -/
def outOfIds (d : Domain) : Bool := decide (2 ^ 47 ≤ d.counterA) || decide (2 ^ 47 ≤ d.counterB)

/-- A domain made, or its key changed (R262, R263). The identifier counters of a domain made again go on (R272). -/
def makeDomain (dom slot fmt rekey : Nat) (salt : List Byte) (s : State) : State :=
  let s := slotServes slot dom true s
  match domainOf s dom with
  | none => { s with nv.domains := s.nv.domains ++ [{ num := dom, format := fmt, cur := slot, salt := salt }] }
  | some _ =>
    if rekey = 1 then
      releasePrev dom (updDomain dom (fun d => { d with prev := some d.cur, cur := slot, keyGen := d.keyGen + 1, writeProtected := outOfIds d }) s)
    else updDomain dom (fun d => { d with
      format := fmt, cur := slot, prev := none, salt := salt, keyGen := d.keyGen + 1, keyless := false
      writeProtected := outOfIds d }) s

/-! ### Packs and generations (R349 to R355, R359, R360) -/

/-- A pack admitted: it holds no data and is a member of no generation; the same pack's retired mark is cleared (R349). -/
def admitPack (port identity : Nat) (s : State) : State :=
  let p : Pack := { port := port, identity := identity, geom := (portOf s port).geom, cond := 5 }
  match packNow s port with
  | some q =>
    if q.identity = identity then updPack port identity (fun q => { q with cond := 5, geom := p.geom }) s
    else { s with nv.packs := (s.nv.packs.filter fun q => !(q.port == port && (q.cond == 4 || q.cond == 5))) ++ [p] }
  | none => { s with nv.packs := s.nv.packs ++ [p] }

/-- A pack retired at once, or marked retiring while it is a member (R350). -/
def retirePack (port : Nat) (s : State) : State :=
  if isMember s port then updPackNow port (fun p => { p with retiring := true }) s
  else updPackNow port (fun p => { p with cond := 4 }) s

/-- Admitted packs of a member mask become members. -/
def joinMembers (mask : Nat) (s : State) : State :=
  (portsOf mask).foldl (fun s m => updPackNow m (fun p => if p.cond = 5 then { p with cond := 0 } else p) s) s

/-- Bands of a generation. -/
def bandsOf (s : State) (g : Option Gen) : Nat :=
  match g with | some g => (s.nv.bands.filter fun b => b.gen == g.num && b.state != 0).length | none => 0

/-- A start of LAYOUT_CHANGE: the first one makes generation 1 current; a later one builds the new generation (R351,
R353). -/
def startLayout (d p sp r mask : Nat) (s : State) : State :=
  let g : Gen := { num := s.nv.nextGen, d := d, p := p, s := sp, r := r, members := mask }
  let s := joinMembers mask { s with nv.nextGen := s.nv.nextGen + 1 }
  if s.nv.genCur.isNone then { s with nv.genCur := some g }
  else { s with nv.genNew := some g, nv.change := 1, nv.bandsStart := bandsOf s s.nv.genCur, nv.bytesMoved := 0, nv.reverseWhy := 0 }

/-- A running change reversed (R355): by a cancel, or by the failure of a member of the new generation only, whose port
plus one is kept. -/
def reverseLayout (why : Nat) (s : State) : State :=
  if s.nv.change = 1 then { s with nv.change := 2, nv.bandsStart := bandsOf s s.nv.genNew, nv.reverseWhy := why } else s

/-- The switch (R354): the new generation is current, retiring packs outside it are retired, failed members leave. -/
def switchGens (s : State) : State :=
  match s.nv.genNew with
  | none => s
  | some g => { s with
      nv.genCur := some g, nv.genNew := none, nv.change := 0
      nv.packs := (s.nv.packs.filter fun p => p.cond != 3 || bit g.members p.port).map fun p =>
        if bit g.members p.port then p
        else if p.retiring then { p with cond := 4, retiring := false }
        else if p.cond = 0 ∨ p.cond = 1 ∨ p.cond = 2 then { p with cond := 5 } else p }

/-- The end of a reversed change: the new generation's table is deleted (R355). -/
def endReverse (s : State) : State :=
  let only := match s.nv.genNew, s.nv.genCur with
    | some g, some c => (portsOf g.members).filter fun m => !bit c.members m
    | _, _ => []
  let s := only.foldl (fun s m => updPackNow m (fun p => if p.cond = 0 then { p with cond := 5 } else p) s) s
  { s with nv.genNew := none, nv.change := 0 }

/-- A member declared failed takes its condition; its identity stays failed for the life of the array; the open segments
whose row holds it are sealed early; a failed member of the new generation only reverses the change (R355, R360, R364). -/
def memberFailed (port cause : Nat) (s : State) : State :=
  let onlyNew : Bool := memberOf s.nv.genNew port && !memberOf s.nv.genCur port
  let p := if onlyNew then packNow s port else packOf s port
  match p with
  | none => s
  | some p =>
    let s := updPack port p.identity (fun p => { p with cond := 3, declaredCause := cause }) s
    let s := { s with nv.failedIds := s.nv.failedIds ++ [p.identity], lay.declaredWait := s.lay.declaredWait.filter fun e => e.1 != port }
    let s := if onlyNew && s.nv.change == 1 then countEvent 0x0A4 0 (reverseLayout (port + 1) s) else s
    sealEarlyWhere (fun x => match bandOf s (segBand x.num) with | some b => b.blocks.any fun e => e.1 == port | none => false) s

/-- A block retired (R397): beyond the side's share of the reserve, the pack's reserve is spent. -/
def retireBlock (port block : Nat) (s : State) : State :=
  match packNow s port with
  | none => s
  | some p =>
    if p.retired.contains block then s
    else
      let p' := { p with retired := p.retired ++ [block] }
      let out : Bool := decide (retireHalf p.geom < (retiredSide p' (block % 2 == 1)).length)
      updPack port p.identity (fun p => { p with retired := p.retired ++ [block], reserveOut := p.reserveOut || out }) s

/-! ### Garbage collection and rebuild -/

/-- Triples of a list of numbers. -/
def triples : List Nat → List (Nat × Nat × Nat)
  | a :: b :: c :: t => (a, b, c) :: triples t
  | _ => []

/-- A bundle's location moved, if the chunk map still gives a victim's location (R394); under the previous key it has
been encrypted again under the current one (R263, R392). -/
def moveBundle (victims : List Nat) (m : Nat × Nat × Nat) (s : State) : State :=
  match bundleByKey s m.1 with
  | none => s
  | some b => match b.place with
    | none => s
    | some p =>
      if victims.contains (segBand p.1) then
        let gen := match domainOf s b.domain with | some d => if d.keyless || d.writeProtected then b.keyGen else d.keyGen | none => b.keyGen
        updBundle b.domain b.id (fun b => { b with place := some (m.2.1, m.2.2), keyGen := gen, extent := copyExtent s b })
          { s with nv.bytesMoved := if s.nv.change = 0 then s.nv.bytesMoved else s.nv.bytesMoved + b.units * 512
                   med.discard := s.med.discard.map fun d => { d with relocated := d.relocated + b.units * 512 } }
      else s

/-- A moved chunk replaced by a reference to a stored one (R268): every mapping that still names it is rewritten. -/
def replaceChunk (old new : Nat) (s : State) : State :=
  let move := fun (e : MapEntry) => if e.kind = 0 ∧ e.stored = old then { e with stored := new, dup := true } else e
  freeIfUnused old { s with nv.maps := s.nv.maps.map fun m => { m with entries := m.entries.map move } }

/-- A batch's map deltas take effect (R393, R394). The numbers are the batch, the count of victims, the victims, the count
of replaced chunks, the pairs, and the moves. -/
def commitMoves (nums : List Nat) (s : State) : State :=
  match nums with
  | _ :: nVict :: rest =>
    let victims := rest.take nVict
    match rest.drop nVict with
    | nr :: rest =>
      let pairs := rest.take (2 * nr)
      let moves := triples (rest.drop (2 * nr))
      let s := moves.foldl (fun s m => moveBundle victims m (writeBundlePages m.1 s)) s
      let s := (List.range nr).foldl (fun s k => replaceChunk ((pairs[2 * k]?).getD 0) ((pairs[2 * k + 1]?).getD 0) s) s
      releasePrevs s
    | [] => s
  | _ => s

/-- Rebuilt strips take effect: each position lies on the member that holds its copy; segments with nothing left to rebuild
leave the queue (R367). -/
def commitRebuilt (nums : List Nat) (s : State) : State :=
  let ts := triples nums
  let s := ts.foldl (fun s t =>
    updSeg t.1 (fun x => let p := posOf x t.2.1; putPos { p with spare := t.2.2 + 1, state := if p.state = 4 then 2 else p.state } x) s) s
  let s := { s with lay.rebuilt := s.lay.rebuilt.filter fun t => !ts.contains t }
  let s := { s with lay.queue := s.lay.queue.filter fun n => match segOf s n with | some x => queueDue s x | none => false }
  spareCheck s

/-! ### The lost ranges of every object (R371 to R373) -/

/-- The segment that held a lost chunk. -/
def lostSeg (s : State) (stored : Nat) : Nat :=
  match storedOf s stored with
  | some x => (match bundleOf s x.domain x.bundle with | some b => (match b.place with | some p => p.1 | none => 0) | none => 0)
  | none => 0

/-- The format of an object: its volume's. -/
def objectFormat (s : State) (snap : Bool) (num : Nat) : Nat :=
  let vol := if snap then (match snapOf s num with | some x => x.vol | none => 65536) else num
  match volumeOf s vol with | some v => v.format | none => 2

/-- Ranges of one object joined where they touch and name one segment. -/
def joinRanges : List LostRange → List LostRange
  | [] => []
  | r :: rs => match joinRanges rs with
    | [] => [r]
    | q :: qs => if r.first + r.blocks = q.first ∧ r.seg = q.seg then { r with blocks := r.blocks + q.blocks } :: qs else r :: q :: qs

/-- The lost ranges of a map: the blocks that map a lost chunk, deallocated ones left out. -/
def mapLost (s : State) (m : ObjMap) : List LostRange :=
  let n := chunkBlocks (objectFormat s m.snap m.num)
  joinRanges ((m.entries.filter fun e => entryLost s (some e)).map fun e =>
    (List.range n).filterMap fun b => if bit e.dealloc b then none
      else some { obj := m.num, snap := m.snap, first := e.chunk * n + b, blocks := 1, seg := lostSeg s e.stored }).flatten

/-- The range entries of the lost-stripe list (R373; DESIGN CHOICE, log 34: derived from the maps, in their order). -/
def lostRanges (s : State) : List LostRange := ((s.nv.maps.map (mapLost s)).flatten).take 1048576

/-- More ranges are lost than the list holds: list_full is set and code 0x0AA counted (R373). -/
def listFullCheck (s : State) : State :=
  if !s.lay.listFull && decide (1048576 < ((s.nv.maps.map (mapLost s)).flatten).length) then
    countEvent 0x0AA 0 { s with lay.listFull := true }
  else s

/-! ### Keys (R264, R298) -/

/-- A key destroyed: its slots are empty, its kcv is marked for both head sides, and a domain that it served is keyless, its
salt erased in the same step. -/
def destroyKey (kcv : List Byte) (dom : Option Nat) (s : State) : State :=
  let bound := fun (b : Bool) => match usageEntry s kcv b with | some e => e.1 | none => 0
  let s := putUsage kcv true (bound true) true (putUsage kcv false (bound false) true s)
  let s := { s with cip.slots := s.cip.slots.filter fun x => x.kcv != kcv }
  match dom with
  | none => s
  | some d => updDomain d (fun d => { d with keyless := true, salt := [] }) s

/-! ### The effect of an operation's commit -/

/-- The number at a place of a list. -/
def nth (l : List Nat) (k : Nat) : Nat := (l[k]?).getD 0

/-- The standby's record of a pack that the holder loads with firmware (R169, R359). -/
def followLoad (port away : Nat) (s : State) : State :=
  updPackNow port (fun p => if away = 1 then (if p.cond = 0 ∨ p.cond = 1 then { p with cond := 2 } else p)
    else if p.cond = 2 then { p with cond := 0 } else p) s

/-- What an operation does when it commits (R318, Table 12-5). -/
def applyOp (op : Nat) (nums : List Nat) (bytes : List Byte) (s : State) : State :=
  let n := nth nums
  if op = opVolCreate then createVolume (n 0) (n 1) (n 2) (n 3) (n 4) (n 5) s
  else if op = opVolDelete then withAccess (deleteVolume (n 0) (n 1)) s
  else if op = opVolResize then resizeVolume (n 0) (n 1) s
  else if op = opVolSetAccess then withAccess (setAccess (n 0) (n 1) (n 2) (n 3) bytes) s
  else if op = opSnapCreate then listFullCheck (createSnaps (n 0) (n 1) false (nums.drop 2) s)
  else if op = opxReplSnap then listFullCheck (createSnaps (n 0) (n 1) true (nums.drop 2) s)
  else if op = opSnapDelete then deleteSnapshot (n 0) s
  else if op = opVolClone then listFullCheck (cloneVolume (n 0) (n 1) (n 2) (n 3) s)
  else if op = opDomainCreate then withAccess (makeDomain (n 0) (n 1) (n 2) (n 3) bytes) s
  else if op = opPackAdmit then admitPack (n 0) (n 1) s
  else if op = opPackRetire then retirePack (n 0) s
  else if op = opLayoutChange then (if n 0 = 0 then startLayout (n 1) (n 2) (n 3) (n 4) (n 5) s else reverseLayout 0 s)
  else if op = opxGc then commitMoves nums s
  else if op = opxRebuild then commitRebuilt nums s
  else if op = opxSwitch then switchGens s
  else if op = opxRetire then retireBlock (n 0) (n 1) s
  else if op = opxReverse then endReverse s
  else if op = opxDeclare then memberFailed (n 0) (n 1) s
  else if op = opKeyDestroy then withAccess (destroyKey bytes (if n 0 = 0 then none else some (n 0 - 1))) s
  else if op = opxFormat then { s with nv.format := max s.nv.format (n 0), nv.rootFormat := max s.nv.rootFormat (n 0) }
  else if op = opxTempAbsent then (if s.hdl.holder then s else followLoad (n 0) (n 1) s)
  else if op = opxEpoch then { s with nv.epoch := max s.nv.epoch (n 0) }
  else s

end Sys2Proof.Machine
end

