-- ==== Sys2Proof/Machine/Commit.lean ====
section
/-! DEFINITION. What follows when Coil lines are persisted and records are committed: parts and operations take effect,
commands complete, intents and band records act on the packs (R213, R216 to R219, R251, R313 to R322, R343, R354, R393,
R402, R450). -/

namespace Sys2Proof.Machine

/-! ### Authority decisions (R450) -/

/-- The numbers of an authority decision, as AUTH_STATE carries them. -/
def authArgs (d : AuthDecision) : List Nat :=
  match d with
  | .newGeneration g d p s r m => [1, g, d, p, s, r, m]
  | .switch g => [2, g]
  | .cancelGeneration g => [3, g]
  | .admitPack p i => [4, p, i]
  | .retire p => [5, p]
  | .declareFailed p c => [6, p, c]
  | .mapRoot => [7]
  | .epoch e => [8, e]

/-- The latest authority sequence number applied (R450, HDL_ASN). -/
def asnOf (s : State) : Nat := match s.nv.decisions.getLast? with | some e => e.1 | none => 0

/-- A decision takes the next authority sequence number and goes to the standby (R450). -/
def announce (d : AuthDecision) (s : State) : State :=
  let n := asnOf s + 1
  let s := { s with nv.decisions := s.nv.decisions ++ [(n, d)] }
  if s.hdl.paired then sendPeer 0x30 (n :: authArgs d) [] 0 s else s

/-- An authority decision: announced, and committed in Coil, where it takes effect (R450). -/
def authority (d : AuthDecision) (op : Nat) (nums : List Nat) (s : State) : State :=
  appendOp s.hfe.arrival 65535 op nums [] (announce d s)

/-! ### Checkpoints (R376, R384) -/

/-- The members of a row that are present to this head, in order. -/
def presentIn (s : State) (g : Gen) (row : Nat) : List Nat :=
  (rowMembers g row).filter fun m => condOf s g m == 0 && reached s m

/-- The block that stands for a block of the checkpoint area, after its replacements (R384). -/
def ckptPhys (p : Pack) (block : Nat) : Nat := p.ckptMap.foldl (fun b e => if e.1 = b then e.2 else b) block

/-- A block of a checkpoint slot on a pack. -/
def ckptBlock (p : Pack) (slot k : Nat) : Nat := ckptPhys p (slot * ckptBlocks p.geom + k)

/-- One copy of a checkpoint: the slot's blocks are erased, then programmed (R384). -/
def sendCheckpoint (g : Gen) (slot port : Nat) (s : State) : State :=
  match packIn s g port with
  | none => s
  | some p =>
    let s := (List.range (ckptBlocks p.geom)).foldl (fun s k =>
      sendReq port { tag := 0, cmd := 0x12, pos := s.lay.ckpt.attempt, block := ckptBlock p slot k, why := 7 } s) s
    sendReq port { tag := 0, cmd := 0x11, pos := s.lay.ckpt.attempt, block := ckptBlock p slot 0, why := 7, aux := s.lay.ckpt.num } s

/-- The Handle holder writes the next checkpoint to the first three present members of its row (R376). -/
def writeCheckpoint (s : State) : State :=
  match s.nv.genCur with
  | none => s
  | some g =>
    if !s.hdl.holder then s
    else
      let n := s.nv.ckptSeq + 1
      let ports := (presentIn s g (n % max 1 g.r)).take 3
      let s := { s with lay.ckpt := { num := n, attempt := s.lay.ckpt.attempt + 1, ports := ports, jseq := s.nv.applied } }
      ports.foldl (fun s p => sendCheckpoint g (n % 2) p s) s

/-- A checkpoint that is durable on at least two packs is recorded in the layout roots with its ports (R376). -/
def recordCkpt (s : State) : State :=
  if 2 ≤ s.lay.ckpt.done.length then
    { s with nv.ckptSeq := s.lay.ckpt.num, nv.ckptPorts := s.lay.ckpt.ports, nv.ckptJseq := s.lay.ckpt.jseq }
  else s

/-- A copy of the checkpoint is durable on a pack. -/
def ckptDone (port attempt : Nat) (s : State) : State :=
  if s.lay.ckpt.attempt = attempt then recordCkpt { s with lay.ckpt.done := insertNat port s.lay.ckpt.done } else s

/-! ### Secure discard's bundles (R402) -/

/-- A band's segments name a bundle: its band summary (R402). -/
def bandNames (s : State) (band key : Nat) : Bool :=
  s.nv.segs.any fun x => segBand x.num == band && x.positions.any fun p => p.bundles.contains key

/-- A discard's counts changed. -/
def updDiscard (f : Discard → Discard) (s : State) : State := { s with med.discard := s.med.discard.map f }

/-- The key of a domain can protect one more bundle. -/
def canRepack (s : State) (d : Domain) : Bool :=
  !d.keyless && !d.writeProtected && (match slotOf s d.cur with | some x => !overLimit x 65 | none => false)

/-- A bundle that holds a target is destroyed: its other live chunks are repacked, its bands join the discard set
(R402). -/
def destroyBundle (b : Bundle) (s : State) : State :=
  let live := liveChunks s b
  let repacked : Option State := if live = [] then some s
    else match domainOf s b.domain with
      | some d => if canRepack s d then some (makeBundle d 0 live true s) else none
      | none => none
  match repacked with
  | none => updDiscard (fun d => { d with bundlesKept := d.bundlesKept + 1 }) s
  | some s =>
    let s := updBundle b.domain b.id (fun b => { b with destroyed := true }) s
    let zeroed := (s.nv.journal.filter fun r => match r.body with | .data i d _ => i == b.id && d == b.domain | _ => false).length +
      (s.nv.mirror.filter fun r => match r.body with | .data i d _ => i == b.id && d == b.domain | _ => false).length
    let s := updDiscard (fun d => { d with destroyed := d.destroyed + 1, zeroed := d.zeroed + zeroed }) s
    { s with nv.bands := updWhere (fun x => bandNames s x.num (bundleKey b)) (fun x => { x with discard := true }) s.nv.bands }

/-- The chunks that a discarded part no longer references: targets where their count reached zero, else kept (R402). -/
def discardPart (before : List Nat) (s : State) : State :=
  let gone := before.filter fun id => (storedOf s id).isNone
  let kept := before.filter fun id => (storedOf s id).isSome
  let has := fun (ids : List Nat) (b : Bundle) => b.chunks.any fun c => ids.contains c
  let s := updDiscard (fun d => { d with
    targets := d.targets + gone.length, kept := d.kept + kept.length
    bundlesKept := d.bundlesKept + (s.nv.bundles.filter fun b => has kept b && !has gone b).length }) s
  (s.nv.bundles.filter fun b => has gone b && !b.destroyed).foldl (fun s b => destroyBundle b s) s

/-- The 64 bytes of a secure discard's end (R403). -/
def discardBytes (d : Discard) : List Byte :=
  leBytes 8 d.targets ++ leBytes 8 d.kept ++ leBytes 8 d.bundlesKept ++ leBytes 8 d.destroyed ++ leBytes 8 d.bandsErased ++
    leBytes 8 d.relocated ++ leBytes 4 d.unreachable ++ leBytes 4 d.zeroed ++ zeros 8

/-- A secure discard ends once its deallocation has committed and no band of its set remains (R402). -/
def discardEnd (s : State) : State :=
  match s.med.discard with
  | none => s
  | some d =>
    if (tagOf s discardTag).isSome || s.nv.bands.any (·.discard) then s
    else
      let warn : Bool := d.unreachable != 0
      endLongOpOut opSecureDiscard (if warn then stOkWarn else stOkDone) (if warn then 0x0BA else 0) d.bundlesKept d.addr (discardBytes d)
        { s with med.discard := none }

/-! ### Parts of commands (R216, R218, R251) -/

/-- A committed write waits for its synchronous remote, which has not acknowledged its arrival number (R251). -/
def syncHolds (s : State) (vol arrival : Nat) : Bool := s.rma.repls.any fun r => r.vol == vol && r.mode == 1 && r.state == 2 &&
  (match r.lastAck with | some a => decide (a < arrival) | none => true)

/-- The last part of a tag is committed: COMMITTED, its lock released, its completion posted unless a synchronous remote
must acknowledge first (R189, R210, R216, R251). -/
def tagCommitted (t : Tag) (s : State) : State :=
  let s := releaseLock (.tag t.idx) s
  if t.idx = discardTag then { s with hfe.tags := s.hfe.tags.filter fun x => x.idx != t.idx }
  else
    let s := updTag t.idx (fun t => { t with state := 4 }) s
    if syncHolds s t.vol t.arrival then updTag t.idx (fun t => { t with remoteAcked := false }) s
    else endTag t.idx .success [] s

/-- The entries of the hot index (R265): the size of region 6 in bytes over 16. -/
def hotCap (s : State) : Nat := winSize s 6 / 16

/-- A fingerprint enters the hot index, the oldest leaving a full one (R265, R268). -/
def hotInsert (id : Nat) (s : State) : State :=
  if s.red.hot.contains id ∨ hotCap s = 0 then s
  else if s.red.hot.length < hotCap s then { s with red.hot := s.red.hot ++ [id] }
  else { s with red.hot := s.red.hot.drop 1 ++ [id], red.hotFull := true }

/-- Chunks that a committed delta maps are committed, and of a deduplicating volume indexed (R265, R267). -/
def markCommitted (vol : Nat) (es : List DeltaEntry) (s : State) : State :=
  let dedup := match volumeOf s vol with | some v => v.dedup | none => false
  (es.filter fun e => e.kind == 0).foldl (fun s e =>
    let s := updStored e.stored (fun x => { x with committed := true }) s
    if dedup then hotInsert e.stored s else s) s

/-- The body of the record with a jseq. -/
def bodyAt (s : State) (j : Nat) : Option CoilBody := (s.nv.journal.find? fun r => r.jseq == j).map (·.body)

/-- A part is committed: its delta takes effect (R218, R286). -/
def commitPart (arrival delta vol : Nat) (s : State) : State :=
  match bodyAt s delta with
  | some (.delta _ _ es) =>
    let tag := s.hfe.tags.find? fun t => t.arrival == arrival && t.vol == vol && t.logged
    let before := (mappedIds ((mapOf s false vol).filter fun e => es.any fun d => d.chunk == e.chunk)).eraseDups
    let s := applyDelta vol es (markCommitted vol es s)
    let s := match tag with | some t => if t.idx = discardTag then discardPart before s else s | none => s
    match tag with
    | none => s
    | some t =>
      if t.committed + 1 < t.parts then updTag t.idx (fun t => { t with committed := t.committed + 1 }) s
      else discardEnd (tagCommitted { t with committed := t.committed + 1 } s)
  | _ => s

/-! ### Operations (R318) -/

/-- A PLEM command whose operation has committed: its locks are released, its output written, its status posted
(Table 08-2). -/
def endOp (body : CoilBody) (s : State) : State :=
  match s.col.ends.find? fun e => e.body == body with
  | none => s
  | some e =>
    let s := { s with col.ends := s.col.ends.filter fun x => x.body != body }
    let s := releaseLock (.plem e.cmd.ring e.cmd.seq) s
    deliver e.cmd { e.pkt with time := s.now } e.addr e.output s

/-- An operation of a code has been appended and has not committed. -/
def opPending (s : State) (op : Nat) : Bool :=
  (s.nv.journal.any fun r => decide (s.col.commitPoint < r.jseq) && (match r.body with
    | .deltaOp _ _ o _ _ => o == op
    | .commitOp _ d _ => (match bodyAt s d with | some (.deltaOp _ _ o _ _) => o == op | _ => false)
    | _ => false)) ||
  s.col.waiting.any fun b => match b with | .deltaOp _ _ o _ _ => o == op | _ => false

/-- The digest of a generation's table: over a 16-byte prefix and the drawn rows (R337, log 6). -/
def tableDigest (g : Gen) : List Byte :=
  let rows := ((List.range g.r).map fun r => padTo (genWidth g) ((rowMembers g r).map (BitVec.ofNat 8))).flatten
  Config.sha384 (leBytes 2 g.num ++ [BitVec.ofNat 8 g.d, BitVec.ofNat 8 g.p, BitVec.ofNat 8 g.s, 0] ++ leBytes 2 g.r ++
    leBytes 8 g.members ++ rows)

/-- The param of the switch's Border entry: the generations and the new table's digest (R354). -/
def switchParam (old new : Nat) (g : Gen) : List Byte := leBytes 2 old ++ leBytes 2 new ++ (tableDigest g).take 20

/-- The chunks whose mapping differs between two maps, with the kind and stored chunk of the second (R251). -/
def mapDiff (old new : List MapEntry) : List (Nat × Nat × Nat) :=
  (new.filter fun e => (entryAt old e.chunk).map (fun o => { o with dup := e.dup }) != some e).map (fun e => (e.chunk, e.kind, e.stored)) ++
  ((old.filter fun e => (entryAt new e.chunk).isNone).map fun e => (e.chunk, 2, 0))

/-- A replication snapshot has been taken: the blocks that differ from the previous one are sent (R251). -/
def sendCycle (snap vol : Nat) (s : State) : State :=
  match s.rma.repls.find? fun r => r.vol == vol && r.curSnap == snap with
  | none => s
  | some r =>
    let msg := chunkMessage s (mapDiff (mapOf s true r.lastSnap) (mapOf s true snap))
    sendMessage r.conn 0x104 msg
      { s with rma.repls := updWhere (fun r => r.vol == vol) (fun r => { r with pendingBytes := msg.length }) s.rma.repls }

/-- What follows an operation's effect on the head that decided it. -/
def afterOp (before : State) (op : Nat) (nums : List Nat) (s : State) : State :=
  if op = opxSwitch then
    match s.nv.genCur with
    | some g =>
      endLongOp opLayoutChange stOkDone 0 g.num
        (borderEvent 0xFF12 (switchParam (match before.nv.genCur with | some c => c.num | none => 0) g.num g) s)
    | none => s
  else if op = opxReverse then
    let cur := match s.nv.genCur with | some g => g.num | none => 0
    if s.nv.reverseWhy = 0 then endLongOp opLayoutChange stOkNochange 0 cur s
    else endLongOp opLayoutChange stMedAbsent (s.nv.reverseWhy - 1) cur s
  else if op = opLayoutChange ∧ nth nums 0 = 0 ∧ before.nv.genCur.isNone then
    endLongOp opLayoutChange stOkDone 0 (match s.nv.genCur with | some g => g.num | none => 0) s
  else if op = opxDeclare then writeCheckpoint s
  else if op = opxReplSnap then sendCycle (nth nums 1) (nth nums 2) s
  else if op = opxGc ∧ nth nums 0 ≠ 0 then
    { s with med.batch := s.med.batch.map (fun b => { b with step := 2 }), med.gcBatches := satAdd (2 ^ 32 - 1) s.med.gcBatches 1 }
  else if op = opxRetire then
    let was := packNow before (nth nums 0)
    let now := packNow s (nth nums 0)
    if was = now then s
    else
      let s := countEvent 0x0B1 0 { s with med.retired := satAdd (2 ^ 32 - 1) s.med.retired 1 }
      countIf (match was, now with | some a, some b => !a.reserveOut && b.reserveOut | _, _ => false) 0x0B8 s
  else if op = opxRebuild then
    { s with
      lay.rbDone := satAdd (2 ^ 32 - 1) s.lay.rbDone (nums.length / 3)
      lay.bytesRebuilt := s.lay.bytesRebuilt + 65536 * (nums.length / 3) }
  else s

/-- An operation is committed. -/
def commitOpRecord (delta : Nat) (s : State) : State :=
  match bodyAt s delta with
  | some (.deltaOp a v op nums bytes) =>
    endOp (.deltaOp a v op nums bytes) (afterOp s op nums (applyOp op nums bytes s))
  | _ => s

/-! ### ERASE_PENDING (R393, R394) -/

/-- An ERASE issued to one member's block: an absent member owes it, a failed member's block is left. -/
def eraseBlock (band : Band) (g : Gen) (e : Nat × Nat) (s : State) : State :=
  let returned := fun (s : State) => updBand band.num (fun b => { b with erasedPorts := insertNat e.1 b.erasedPorts }) s
  if condOf s g e.1 = 3 ∨ condOf s g e.1 = 4 then returned s
  else if condOf s g e.1 = 0 ∧ reached s e.1 then sendReq e.1 { tag := 0, cmd := 0x12, seg := band.num * 65536, block := e.2, why := 3 } s
  else returned { s with nv.owedErases := if s.nv.owedErases.contains e then s.nv.owedErases else s.nv.owedErases ++ [e] }

/-- A block is retired when its band is dissolved: a program or erase failure, an uncorrectable read, or a relocation for
corrected bits in this cycle and the one before (R397). -/
def mustRetire (p : Pack) (block : Nat) : Bool :=
  p.bad.contains block || (p.relocNow.contains block && p.relocBefore.contains block)

/-- The blocks of a band that are to be retired. -/
def retiringBlocks (s : State) (b : Band) : List (Nat × Nat) :=
  b.blocks.filter fun e => match packNow s e.1 with | some p => mustRetire p e.2 && !p.retired.contains e.2 | none => false

/-- Every status of a band's erases has returned: the erased record follows, or the retired one where a block of it is to be
retired, each by a map delta (R393, R397; DESIGN CHOICE, log 35). -/
def erasesDone (band : Nat) (s : State) : State :=
  match bandOf s band with
  | none => s
  | some b =>
    if b.state = 3 ∧ b.blocks.all (fun e => b.erasedPorts.contains e.1) ∧ bandWaits s band = false then
      let due := retiringBlocks s b
      let s := appendRecord (.band band (if due = [] then 4 else 5) 3 b.row b.gen b.batch) s
      due.foldl (fun s e => appendOp s.hfe.arrival 65535 opxRetire [e.1, e.2] [] s) s
    else s

/-- ERASE_PENDING is durable in both Coils: the erases are issued (R393). -/
def eraseBand (band : Nat) (s : State) : State :=
  match bandOf s band with
  | none => s
  | some b => match genOf s b.gen with
    | none => s
    | some g => erasesDone band (b.blocks.foldl (fun s e => eraseBlock b g e s) (updBand band (fun b => { b with erasedPorts := [] }) s))

/-! ### The commit rule (R318) -/

/-- One record committed: commit records take effect, ERASE_PENDING issues its erases; a commit without the mirror
latches (R319). -/
def commitRecord (r : CoilRec) (s : State) : State :=
  let latch := fun (s : State) => if s.col.mirrorOn then s else { s with col.latched := true }
  match r.body with
  | .commit a d v _ _ _ _ => { latch (commitPart a d v s) with nv.applied := max s.nv.applied r.jseq }
  | .commitOp _ d _ => { latch (commitOpRecord d s) with nv.applied := max s.nv.applied r.jseq }
  | .band b 3 _ row gen batch => eraseBand b (bandDurable b 3 row gen batch s)
  | _ => s

/-- Records up to the commit target take effect in order; locks that clear are granted. -/
def commitAdvance (s : State) : State :=
  let target := commitTarget s
  if target ≤ s.col.commitPoint then s
  else
    let due := s.nv.journal.filter fun r => decide (s.col.commitPoint < r.jseq) && decide (r.jseq ≤ target)
    settle true (due.foldl (fun s r => commitRecord r s) { s with col.commitPoint := target })

/-- A region 2 record is wholly persisted: intents and band records act (R313, R343, R385). -/
def recordPersisted (jseq : Nat) (s : State) : State :=
  let s := { s with nv.persisted := max s.nv.persisted jseq }
  match bodyAt s jseq with
  | some (.intent g p st pk b) => intentDurable g p st pk b s
  | some (.band b st _ row gen batch) => if st = 3 then s else bandDurable b st row gen batch s
  | _ => s

/-! ### The peer's stream in region 3 (R317, R326, R337, R359) -/

/-- The operations that the standby follows through AUTH_STATE (R450, R458). -/
def authorityOp (op : Nat) : Bool :=
  op == opPackAdmit || op == opPackRetire || op == opLayoutChange || op == opxSwitch || op == opxReverse || op == opxDeclare || op == opxEpoch

/-- The form of a bundle from its units: the one that R271 keeps, ties going to stored, then LZ4. -/
def formOfUnits (payload : List Byte) (units : Nat) : Nat :=
  if units = extentUnits payload.length then 0 else if units = extentUnits (Config.lz4Block payload).length then 1 else 2

/-- A bundle that the peer wrote, from its data record (Table 12-4). -/
def peerBundle (id domain lines : Nat) (content : List ChunkData) (s : State) : State :=
  if (bundleOf s domain id).isSome then s
  else
    let first := s.nv.nextStored
    let gen := match domainOf s domain with | some d => d.keyGen | none => 0
    let chunks := content.zipIdx.map fun e =>
      ({ id := first + e.2, domain := domain, data := e.1.data, fp := e.1.fp, guards := e.1.guards, bundle := id, pos := e.2 } : Stored)
    let units := (lines - 1 - content.length) / 8
    let payload := (content.map fun c => padTo 4096 c.data).flatten
    let form := formOfUnits payload units
    let key := match domainOf s domain with | some d => domainKey s d gen | none => []
    let b : Bundle := { id := id, domain := domain, chunks := chunks.map (·.id), form := form, units := units, keyGen := gen, sideB := !s.aon.side,
                        extent := xtsExtent false key id units (bundlePlain form content.length units (formPayload form payload)) }
    { s with nv.stored := s.nv.stored ++ chunks, nv.nextStored := first + content.length, nv.bundles := s.nv.bundles ++ [b] }

/-- The stored chunk that an entry of the peer names by bundle identifier × 8 + position (Table 12-7; log 33). -/
def peerEntry (s : State) (vol : Nat) (e : DeltaEntry) : DeltaEntry :=
  let dom := match volumeOf s vol with | some v => v.domain | none => 4096
  if e.kind ≠ 0 then e
  else match s.nv.stored.find? fun x => x.domain == dom && x.bundle == e.stored / 8 && x.pos == e.stored % 8 with
    | some x => { e with stored := x.id, dup := e.dup || x.taken != 0 }
    | none => e

/-- The body of the peer's record with a jseq. -/
def mirrorBody (s : State) (j : Nat) : Option CoilBody := (s.nv.mirror.find? fun r => r.jseq == j).map (·.body)

/-- References taken for the peer are named by a delta of its own from now on (R267). -/
def dropTaken (es : List DeltaEntry) (s : State) : State :=
  (es.filter fun e => e.kind == 0).foldl (fun s e => updStored e.stored (fun x => { x with taken := x.taken - 1 }) s) s

/-- A record of the peer's stream takes effect in this head's view of the shared store, once it is persisted in region 3
(DESIGN CHOICE, log 33). -/
def mirrorRecord (r : CoilRec) (s : State) : State :=
  match r.body with
  | .data id d content => peerBundle id d r.lines content s
  | .commit _ d v _ _ _ _ => (match mirrorBody s d with
      | some (.delta _ _ es) => let es := es.map (peerEntry s v); dropTaken es (applyDelta v es (markCommitted v es s))
      | _ => s)
  | .commitOp _ d _ => (match mirrorBody s d with
      | some (.deltaOp _ _ op nums bytes) => if authorityOp op then s else applyOp op nums bytes s
      | _ => s)
  | .band b st _ row gen batch =>
      if st ≠ 0 ∧ (bandOf s b).isNone then
        { s with nv.bands := s.nv.bands ++ [{ num := b, sideB := !s.aon.side, gen := gen, row := row, state := st, batch := batch, slc := bit b 31 }] }
      else bandDurable b st row gen batch s
  | .intent g p st _ buffer =>
      let s := if (segOf s g).isSome then s else { s with nv.segs := s.nv.segs ++ [{ num := g, sideB := !s.aon.side }] }
      if st ≤ 2 then updSeg g (fun x => { putPos { posOf x p with state := st } x with buffer := if st = 2 then buffer else x.buffer }) s
      else updSeg g (fun x => { x with state := st - 2 }) s
  | _ => s

/-- A record of the peer's stream is wholly persisted (R317). -/
def mirrorPersist (jseq : Nat) (s : State) : State :=
  let s := { s with nv.mirrorPersisted := max s.nv.mirrorPersisted jseq }
  match s.nv.mirror.find? fun r => r.jseq == jseq with
  | some r => mirrorRecord r s
  | none => s

/-- Records that are now whole: of region 2, and of the peer's copy, which is acknowledged (R313, R317). -/
def recordsPersisted (l : List Accept) (s : State) : State :=
  let s := l.foldl (fun s a => if a.mirror then mirrorPersist a.jseq s else recordPersisted a.jseq s) s
  if l.any (·.mirror) then sendMirrorAck s else s

/-- The mirror is lost, and what waited for the peer's acknowledgement commits in the local Coil alone (R215, R319). -/
def mirrorLoss (s : State) : State := commitAdvance (loseMirror s)

end Sys2Proof.Machine
end

