-- ==== Sys2Proof/Machine/Carry.lean ====
section
/-! DEFINITION. Stage 6 of commands that the Handle holder executes and that commit in Coil: carrying to the holder,
arrival numbers, range locks, the refusal under the peer-absence policy (R205, R208, R279, R319, R349). -/

namespace Sys2Proof.Machine

/-- A command has been sent to the Handle holder and waits for its status. -/
def isCarried (s : State) (c : Cmd) : Bool :=
  s.hdl.reqs.any fun r => r.code == 0x05 && (match r.cmd with | some x => x.uid == c.uid | none => false)

/-- A command carried over the peer link, in the shape of PLEM (Table 17-2). -/
def carryCmd (c : Cmd) (s : State) : State :=
  requestPeer { tag := 0, code := 0x05, cmd := some c } [] (c.packet ++ c.block) c.block.length s

/-- The audit port takes a decided command. -/
def takeDecision (c : Cmd) (d : Decision) (s : State) : State := markTaken c { s with brd.port := s.brd.port ++ [.command c d] }

/-! ### Numbers and locks of the owning head (R205, R208) -/

/-- A lock that an operation takes: volume, first and last block, exclusive (Table 08-1). -/
abbrev LockNeed := Nat × Nat × Nat × Bool

/-- The last block of a whole-volume range (R207). -/
abbrev lastBlock : Nat := 2 ^ 64 - 1

/-- The entries of an operation's locks, at one arrival number. -/
def addNeeds (h : Holder) (l : List LockNeed) (s : State) : State :=
  let a := s.hfe.arrival
  l.foldl (fun s n => addLock { holder := h, vol := n.1, first := n.2.1, last := n.2.2.1, excl := n.2.2.2, arrival := a, since := s.now } s)
    (numberVolumes (l.map (·.1)) s)

/-- The entries of a holder. -/
def locksOf (s : State) (h : Holder) : List Lock := s.rlk.locks.filter fun l => l.holder == h

/-- A holder's entries released, and what waited for them goes on. -/
def dropLocks (h : Holder) (s : State) : State := if locksOf s h = [] then s else settle true (releaseLock h s)

/-- The peer owns one of some volumes, so that its head gives the number and holds the locks (R205). -/
def peerNumbers (s : State) (vols : List Nat) : Bool :=
  vols.any fun n => match volumeOf s n with | some v => !ownsVolume s v | none => false

/-- The existing volumes that an operation works on, besides those it locks. -/
def opVolumes (op : Nat) (nums : List Nat) : List Nat :=
  if op = opVolDelete ∨ op = opVolResize ∨ op = opVolSetAccess ∨ op = opSecureDiscard then [nth nums 0] else []

/-- The table and the share of PLEM operations have room for some entries (R208). -/
def lockRoom (s : State) (n : Nat) : Bool := decide (plemLocks s + n ≤ 256) && decide (s.rlk.locks.length + n ≤ 65536)

/-- A command leaves for the Handle holder. On a volume that this head owns it takes its number and its locks here first, and waits for
them (R205, R208). -/
def carryOut (c : Cmd) (needs : List LockNeed) (s : State) : Result :=
  let h := Holder.plem c.ring c.seq
  let l := needs.filter fun n => !peerNumbers s [n.1]
  if l = [] then .next (carryCmd c s)
  else if locksOf s h = [] && !lockRoom s l.length then .next s
  else
    let s := if locksOf s h = [] then settle true (addNeeds h l s) else s
    if (locksOf s h).all (·.granted) then .next (carryCmd c s) else .next s

/-- A head without the Handle carries a command, or refuses it with NET.PEER while no peer is paired; a command carried to
a head that does not hold the Handle is refused alike (DEDUCED, log 36). -/
def carryOr (c : Cmd) (needs : List LockNeed) (here : State → Result) (s : State) : Result :=
  if s.hdl.holder then here s
  else if isCarried s c then .next s
  else if !s.hdl.paired || s.hdl.bridge || c.peerTag.isSome then
    (if s.brd.port ≠ [] then .next s else .next (takeDecision c (refuse stNetPeer 0) s))
  else if (peerTagFree s).isNone then .next s
  else carryOut c needs s

/-- Stage 6 on the Handle holder of an operation that commits in Coil: while the port or another such operation is busy it
waits, as an authority decision does while the Handle is being transferred or the peer is severed (R455, R457); a refusal releases what it holds (Table 08-2); its locks are taken and waited for; then its outcome goes to the
port with its arrival number (R113, R205, R208). Of a volume that the peer owns the number is the peer's, a free value here, and the locks
are in its table (log 108). -/
def coilStage6 (c : Cmd) (decision : State → Cmd → Decision) (needs : State → Cmd → List LockNeed) (s : State) : Result :=
  if s.brd.port ≠ [] ∨ s.col.ends ≠ [] ∨ ((s.hdl.transfer.isSome ∨ s.hdl.severed) ∧ authorityOp c.opcode) then .next s
  else
    let h := Holder.plem c.ring c.seq
    let d := coilRefusal s (decision s c)
    if !isSuccess d.status || d.status == stOkNochange then
      .next (settle true (releaseLock h (takeDecision c d s)))
    else
      let vols := opVolumes c.opcode d.nums
      let away := peerNumbers s (vols ++ (needs s c).map (·.1))
      let d := if away then { d with arrival := (Config.freeValue s.free).toNat } else d
      let s := if away then drewFree s else s
      let l := (needs s c).filter fun n => !peerNumbers s [n.1]
      if l = [] then (if away then .next (takeDecision c d s) else .next (takeDecision c { d with arrival := s.hfe.arrival } (numberVolumes vols s)))
      else if locksOf s h = [] && !lockRoom s l.length then .next s
      else
        let s := if locksOf s h = [] then settle true (addNeeds h l s) else s
        let mine := locksOf s h
        if !mine.all (·.granted) then .next s
        else if away then .next (takeDecision c d s)
        else .next (takeDecision c { d with arrival := match mine with | x :: _ => x.arrival | [] => 0 } s)

/-- An audited operation that the Handle holder executes and that commits in Coil. -/
def coilOp (op : Nat) (decision : State → Cmd → Decision) (needs : State → Cmd → List LockNeed) (ring seq : Nat) (s : State) : Result :=
  match opCmd s ring seq op with
  | none => .next s
  | some c => carryOr c (needs s c) (coilStage6 c decision needs) s

/-- No lock is taken. -/
def noLocks (_ : State) (_ : Cmd) : List LockNeed := []

end Sys2Proof.Machine
end

