-- ==== Sys2Proof/Machine/Rebuild.lean ====
section
/-! DEFINITION. Rebuild and loss: declarations, the queue, reconstruction into spare space, lost segments, checkpoints and
their commands (R359 to R380). -/

namespace Sys2Proof.Machine

/-! ### Declarations (R360) -/

/-- The param of entry 0xFF13. -/
def declareParam (s : State) (port phase cause : Nat) : List Byte :=
  [BitVec.ofNat 8 port, BitVec.ofNat 8 phase, BitVec.ofNat 8 cause, 0] ++
    leBytes 2 (match s.nv.genCur with | some g => g.num | none => 0)

/-- A declaration whose entry is durable takes effect (R360, R450). -/
def declareMember (port cause : Nat) (s : State) : State := authority (.declareFailed port cause) opxDeclare [port, cause] s

/-- An entry waits before it can be appended (R129, R137). -/
def entryWaits (s : State) : Bool := !s.brd.counterDone || decide (auditFree s ≤ 16) || s.nv.waitingEntries != []

/-- A member is declared failed: its entry goes first, and until that is durable the declaration waits (R360); while the peer is
severed no decision takes effect (R457). -/
def declareFailed (port cause : Nat) (s : State) : State :=
  if s.hdl.severed || s.lay.declaredWait.any (fun e => e.1 == port) then s
  else
    let waits := entryWaits s
    let s := borderEvent 0xFF13 (declareParam s port 0 cause) { s with lay.declaredWait := s.lay.declaredWait ++ [(port, cause)] }
    if waits then s else declareMember port cause s

/-- A waiting entry that has been appended: a declaration takes effect on the holder (R360). -/
def waitedDeclaration (e : AuditEntry) (s : State) : State :=
  if e.kind = 3 ∧ e.opcode = 0xFF13 ∧ numAt e.param 1 1 = 0 ∧ s.hdl.holder then declareMember (numAt e.param 0 1) (numAt e.param 2 1) s else s

/-- The cause of a long absence: 5 where another pack is found on the member's port, else 1 (R340, R360). -/
def absenceCause (s : State) (port : Nat) : Nat :=
  match packOf s port with
  | some p => if (portOf s port).link = 3 ∧ (portOf s port).startStep ≠ 0 ∧ (portOf s port).identity ≠ p.identity then 5 else 1
  | none => 1

/-- ABSENCE_DECLARE_TIMEOUT (R360): the holder declares a member that is absent; the time has come (log 16). -/
def execAbsenceDeclareTimeout (port : Nat) (s : State) : Result := alive s <|
  if s.hdl.holder && s.col.replayStep == 6 && isMember s port && (match packOf s port with | some p => p.cond == 1 | none => false) then
    .next (declareFailed port (absenceCause s port) s)
  else .next s

/-! ### Lost segments (R371, R373) -/

/-- The lost data positions of a segment. -/
def lostPositions (s : State) (x : Segment) : List Nat :=
  match segGen s x.num with | some g => (missingOf s x).filter fun i => decide (i < g.d) | none => []

/-- A sealed segment is lost: fewer than D available positions, and a data position missing. -/
def isLost (s : State) (x : Segment) : Bool :=
  x.state == 2 && lostPositions s x != [] && (match segGen s x.num with
    | some g => decide (genWidth g < g.d + (missingOf s x).length)
    | none => false)

/-- A stripe entry recorded, or the list found full. -/
def recordStripe (e : LostStripe) (s : State) : State :=
  if s.nv.lostStripes.length < 65536 then { s with nv.lostStripes := s.nv.lostStripes ++ [e] }
  else if s.lay.listFull then s
  else countEvent 0x0AA 0 { s with lay.listFull := true }

/-- A segment is lost (R371): its entry, the lost marks of its chunks, their fingerprint entries, the lost-stripe list. Its
other extents are copied by STRIP_ADD. -/
def loseSegment (x : Segment) (s : State) : State :=
  let lost := lostPositions s x
  let mask := lost.foldl (fun m i => setBit m i) 0
  let g := (segGen s x.num).getD { num := 0, d := 0, p := 0, s := 0, r := 1, members := 0 }
  let chunks := ((s.nv.bundles.filter fun b => match b.place with | some p => p.1 == x.num && lost.contains p.2 | none => false).map
    (·.chunks)).flatten
  let s := countEvent 0x0A8 0 (borderEvent 0xFF14 (leBytes 8 x.num ++ leBytes 4 mask) s)
  let s := updSeg x.num (fun x => { x with state := 4 }) s
  let s := { s with
    nv.stored := updWhere (fun c => chunks.contains c.id) (fun c => { c with lost := true }) s.nv.stored
    red.hot := s.red.hot.filter fun id => !chunks.contains id
    lay.queue := s.lay.queue.filter (· != x.num)
    lay.rebuilt := s.lay.rebuilt.filter fun t => t.1 != x.num
    lay.lostThisOp := true }
  listFullCheck (recordStripe { seg := x.num, mask := mask, gen := g.num, d := g.d, p := g.p, mono := s.now, boot := s.nv.bootCounter } s)

/-- QUEUE_REORDER (R365): margins are recomputed; segments that are now lost are marked, the rest queued in order. -/
def execQueueReorder (s : State) : Result := engine s <|
  let s := (s.nv.segs.filter (isLost s)).foldl (fun s x => loseSegment x s) s
  .next (reorderQueue s)

/-! ### Reconstruction (R367) -/

/-- One strip written into spare space, or held for want of it: code 0x0A9 counts once for each episode. -/
def rebuildStrip (seg i : Nat) (s : State) : State :=
  match segOf s seg with
  | none => s
  | some x => match spareTarget s x with
    | some m => sendReq m { tag := 0, cmd := 0x11, seg := seg, pos := i, block := (stripPlace s seg i m true).1, why := 1 } { s with lay.rebuilt := s.lay.rebuilt ++ [(seg, i, m)] }
    | none =>
      let first : Bool := !s.lay.spareOut
      countIf first 0x0A9 { s with lay.spareOut := true }

/-- A segment held goes to the back of its margin group. -/
def holdBack (seg : Nat) (s : State) : State :=
  let m := queuedMargin s seg
  let rest := s.lay.queue.filter (· != seg)
  { s with lay.queue := rest.filter (fun n => decide (queuedMargin s n ≤ m)) ++ [seg] ++ rest.filter (fun n => decide (m < queuedMargin s n)) }

/-- SEGMENT_RECONSTRUCT_DONE (R367): a pause holds segments at margin 1 or more (R378); a mismatch of the two parity units
writes nothing and the head goes fail-silent (R348). -/
def execSegmentReconstructDone (seg : Nat) (mismatch : Bool) (s : State) : Result := engine s <|
  match segOf s seg with
  | none => .next s
  | some x =>
    if !s.lay.queue.contains seg || !worksSide s x.sideB || (s.lay.paused && marginOf s x != 0) || !s.col.accepting then .next s
    else if mismatch then
      .next (failSilent 1 0x0A0 (countEvent 0x0A0 0 { s with lay.verifyFail := satAdd (2 ^ 32 - 1) s.lay.verifyFail 1 }))
    else if isLost s x then .next (loseSegment x s)
    else
      let s := (rebuildDue s x).foldl (fun s i => rebuildStrip seg i s) s
      .next (if waitsSpare s seg then holdBack seg s else s)

/-- A rebuilt strip's PROGRAM has not ended. -/
def stripWriting (s : State) (t : Nat × Nat × Nat) : Bool :=
  let p := portOf s t.2.2
  p.reqs.any (fun r => r.cmd == 0x11 && r.why == 1 && r.seg == t.1 && r.pos == t.2.1) ||
    p.queued.any (fun r => r.cmd == 0x11 && r.why == 1 && r.seg == t.1 && r.pos == t.2.1)

/-- REBUILD_BATCH_COMMIT (R367): one batch of up to 256 at a time. -/
def execRebuildBatchCommit (s : State) : Result := engine s <|
  let due := (s.lay.rebuilt.filter fun t => !stripWriting s t).take 256
  if due = [] ∨ opPending s opxRebuild then .next s
  else .next (appendOp s.hfe.arrival 65535 opxRebuild ((due.map fun t => [t.1, t.2.1, t.2.2]).flatten) [] s)

/-- The queued segments that still miss a position on a member. -/
def stillMissing (s : State) (port : Nat) : List Nat :=
  (s.nv.segs.filter fun x => queueDue s x && (missingOf s x).any fun i => posMember s x.num i == port).map (·.num)

/-- The status of REBUILD_CTRL op 0 at the end of its rebuild (R378). -/
def rebuildStatus (spare lost : Bool) : Nat × Nat := if spare then (stMedSpace, 0) else if lost then (stOkWarn, 0x0A8) else (stOkDone, 0)

/-- REBUILD_END (R360, R378): nothing of the failed member is left to rebuild but what waits for spare. -/
def execRebuildEnd (port : Nat) (s : State) : Result := engine s <|
  match s.nv.packs.find? fun p => p.port == port && p.cond == 3 && !p.rebuildEnded with
  | none => .next s
  | some p =>
    let left := stillMissing s port
    if !s.hdl.holder || !left.all (waitsSpare s) then .next s
    else
      let spare : Bool := left != []
      let s := updPack port p.identity (fun p => { p with rebuildEnded := true }) s
      let s := borderEvent 0xFF13 (declareParam s port 1 (if spare then 1 else 0)) s
      if (match longOpOf s opRebuildCtrl with | some l => l.arg == port | none => false) then
        let st := rebuildStatus spare s.lay.lostThisOp
        .next (endLongOp opRebuildCtrl st.1 st.2 0 { s with lay.lostThisOp := false })
      else .next s

/-! ### Checkpoints (R376, R377) -/

/-- CHECKPOINT_TIMER. -/
def execCheckpointTimer (s : State) : Result := engine s <| if s.col.replayStep = 6 then .next (writeCheckpoint s) else .next s

/-- CHECKPOINT_LOAD (R377): `valid` lists the copies found valid; one on a pack that is failed or absent is skipped. The
conditions and batches after the checkpoint are in Coil and the layout roots. -/
def execCheckpointLoad (valid : List Nat) (s : State) : Result := alive s <|
  if s.col.replayStep ≠ 6 then .next s
  else
    let usable := fun (k : Nat) => match s.nv.ckptPorts[k]? with
      | some port => (match packOf s port with | some p => p.cond == 0 | none => false)
      | none => false
    if s.nv.ckptSeq = 0 ∨ valid.any usable then .next (reorderQueue s)
    else .next (countEvent 0x0AC 0 (reorderQueue { s with lay.rescan := true }))

/-! ### The commands (R374, R378) -/

/-- The members that have failed, as a mask. -/
def failedMask (s : State) : Nat := (s.nv.packs.filter fun p => p.cond == 3).foldl (fun m p => setBit m p.port) 0

/-- The members that are absent or temporarily absent, as a mask. -/
def absentMask (s : State) : Nat := (s.nv.packs.filter fun p => isMember s p.port && (p.cond == 1 || p.cond == 2)).foldl (fun m p => setBit m p.port) 0

/-- The queued segments at a margin. -/
def queuedAt (s : State) (m : Nat) : Nat := (s.lay.queue.filter fun n => queuedMargin s n == m).length

/-- Bytes that remain to be rebuilt. -/
def bytesLeft (s : State) : Nat :=
  s.lay.queue.foldl (fun n q => match segOf s q with | some x => n + 65536 * (rebuildDue s x).length | none => n) 0

/-- The seconds to the end at the current share: every present member reads u_r × PID 0x0A21 MB/s, and D bytes are read for
one (DEDUCED from R369 and the worked example of R378). -/
def rebuildEstimate (s : State) : Nat :=
  match s.nv.genCur with
  | none => 0
  | some g =>
    let n := ((portsOf g.members).filter fun m => condOf s g m == 0).length
    let rate := n * (actOf s 3 0).toNat * pidVal s 0x0A21 * 1000000 / 32768
    if rate = 0 then (if bytesLeft s = 0 then 0 else 2 ^ 32 - 1) else min (ceilDiv (bytesLeft s * g.d) rate) (2 ^ 32 - 1)

/-- The 64 bytes of REBUILD_CTRL op 3 (Table 14-5). -/
def rebuildStatusBytes (s : State) : List Byte :=
  let st := if s.lay.paused then 2 else if s.lay.queue = [] then 0 else if s.lay.queue.all (waitsSpare s) then 3 else 1
  [BitVec.ofNat 8 st, BitVec.ofNat 8 (portsOf (failedMask s)).length, 0, 0] ++ leBytes 4 s.nv.lostStripes.length ++
    leBytes 8 (failedMask s) ++ leBytes 8 (queuedAt s 0) ++ leBytes 8 (queuedAt s 1) ++ leBytes 8 (queuedAt s 2) ++
    leBytes 8 s.lay.bytesRebuilt ++ leBytes 8 (bytesLeft s) ++ leBytes 4 (rebuildEstimate s) ++ leBytes 2 (signed 16 (actOf s 3 0)) ++ zeros 2

/-- A segment whose row holds a port stands at margin 0. -/
def rowAtZero (s : State) (port : Nat) : Bool :=
  s.nv.segs.any fun x => x.state == 2 && segLive s x.num && marginOf s x == 0 &&
    (match segGen s x.num with
     | some g => (List.range (genWidth g)).any fun i => posMember s x.num i == port
     | none => false)

/-- REBUILD_CTRL op 0's outcome (Table 14-5). -/
def rebuildDeclare (s : State) (c : Cmd) : Decision :=
  let port := pk c 25 1
  if !isMember s port then refuse stResNotfound 0
  else if (match packOf s port with | some p => p.cond == 3 | none => false) then noChange
  else if rowAtZero s port then refuse stMedLost 0
  else if (longOpOf s opRebuildCtrl).isSome || s.lay.queue != [] then refuse stOrdBusy opRebuildCtrl
  else { nums := [0, port], started := true }

/-- The outcome of ops 1 to 3. -/
def rebuildOther (s : State) (c : Cmd) : Decision :=
  let op := pk c 24 1
  if op = 1 then (if s.lay.paused then noChange else { nums := [1] })
  else if op = 2 then (if s.lay.paused then { nums := [2] } else noChange)
  else { nums := [3], bytes := rebuildStatusBytes s }

/-- REBUILD_CTRL: op 0 is the Handle holder's, which decides every change of condition (R279, R359); the others act on this
head. -/
def execRebuildCtrl (ring seq : Nat) (s : State) : Result := fast s <|
  match opCmd s ring seq opRebuildCtrl with
  | none => .next s
  | some c =>
    if pk c 24 1 = 0 then coilOp opRebuildCtrl rebuildDeclare noLocks ring seq s
    else auditedOp opRebuildCtrl rebuildOther ring seq s

/-- What a REBUILD_CTRL does once its entry is durable. -/
def applyRebuildCtrl (d : Decision) (s : State) : State :=
  match d.nums with
  | [0, port] => declareFailed port 4 { s with lay.lostThisOp := false }
  | [1] => { s with lay.paused := true }
  | [2] => { s with lay.paused := false }
  | _ => s

/-- The 32 bytes of a stripe entry (Table 14-2). -/
def stripeBytes (e : LostStripe) : List Byte :=
  leBytes 8 e.seg ++ leBytes 4 e.mask ++ leBytes 2 e.gen ++ [BitVec.ofNat 8 e.d, BitVec.ofNat 8 e.p] ++ leBytes 8 e.mono ++ leBytes 8 e.boot

/-- The 32 bytes of a range entry (Table 14-2). -/
def rangeBytes (r : LostRange) : List Byte :=
  leBytes 4 r.obj ++ [if r.snap then 1 else 0] ++ zeros 3 ++ leBytes 8 r.first ++ leBytes 4 r.blocks ++ zeros 4 ++ leBytes 8 r.seg

/-- LOST_LIST_READ's outcome (Table 14-3). -/
def lostListRead (s : State) (c : Cmd) : Decision :=
  let entries := if pk c 24 1 = 0 then s.nv.lostStripes.map stripeBytes else (lostRanges s).map rangeBytes
  let out := (entries.drop (pk c 28 4)).take (pk c 32 4)
  { result := out.length + entries.length * 2 ^ 32, bytes := out.flatten }

/-- LOST_LIST_READ. -/
def execLostListRead (ring seq : Nat) (s : State) : Result := fast s <| plainOp opLostListRead 36 lostListRead (fun _ _ s => s) ring seq s

/-- LOST_LIST_CLEAR's outcome (Table 14-3). -/
def lostListClear (s : State) (c : Cmd) : Decision :=
  let seg := pk c 24 8
  if !(s.nv.lostStripes.any fun e => e.seg == seg) then refuse stResNotfound 0
  else
    let n := ((lostRanges s).filter fun r => r.seg == seg).length
    if n ≠ 0 then refuse stMedLost (min n 0xFFFF) else { nums := [seg] }

/-- The stripe entry removed. -/
def applyLostListClear (d : Decision) (s : State) : State :=
  match d.nums with
  | [seg] => { s with nv.lostStripes := s.nv.lostStripes.filter fun e => e.seg != seg }
  | _ => s

/-- LOST_LIST_CLEAR. -/
def execLostListClear (ring seq : Nat) (s : State) : Result := fast s <| auditedOp opLostListClear lostListClear ring seq s

end Sys2Proof.Machine
end

