-- ==== Sys2Proof/Machine/Authority.lean ====
section
/-! DEFINITION. Taking the Handle: the epoch a head adopts, fences, the assertion of the hold (R432, R446, R447, R452 to R454). -/

namespace Sys2Proof.Machine

/-- The highest epoch known: of the layout roots, and of any IDENT reply (R452). -/
def knownEpoch (s : State) : Nat := s.stk.ports.foldl (fun e p => max e p.epoch) (max s.nv.epoch s.hdl.epoch)

/-- A head adopts the next epoch before it issues a command that carries it (R432, R452). -/
def adoptEpoch (s : State) : State := { s with hdl.oldEpoch := knownEpoch s, hdl.epoch := knownEpoch s + 1 }

/-- The authority epoch, decided and committed in the layout roots (R450). -/
def commitEpoch (s : State) : State := authority (.epoch s.hdl.epoch) opxEpoch [s.hdl.epoch] s

/-- A port in L0 whose pack this head uses: one on the wrong port, or of another protocol version, counts as absent (R433). -/
def usesPack (p : Port) : Bool := p.link == 3 && !p.sideErr && !p.verErr

/-- A port whose pack this head reaches for an epoch command: in L0, used and open. -/
def fencable (p : Port) : Bool := usesPack p && !p.fenced

/-- Every Stake port that has trained reports side_err: the strap does not match the wiring (R447). -/
def allSideErr (s : State) : Bool := s.stk.ports.any (·.everTrained) && s.stk.ports.all fun p => !p.everTrained || p.sideErr

/-- An epoch command to every pack this head reaches: 0x40 FENCE_PORT with its op, 0x41 SET_EPOCH (R452 to R454). -/
def tellPacks (cmd op : Nat) (s : State) : State :=
  (s.stk.ports.filter fencable).foldl (fun s p => sendReq p.num { tag := 0, cmd := cmd, aux := op } s) s

/-- An edge has been seen on HDL_BEAT_IN within a window (R449). -/
def beatWithin (s : State) (ns : Nat) : Bool := match s.hdl.beatInAt with | some t => decide (s.now < t + ns) | none => false

/-- The second condition of R446, apart from the fence. -/
def holderStuckNow (s : State) : Bool := s.pins.holdIn && !beatWithin s 10000000

/-- Steps 4 and 5 of R453: the hold asserts under either condition of R446; region 3's header takes T, entry 0xFF15 is
appended; what lies above T in region 3 is dropped (R326). -/
def takeEnds (s : State) : State :=
  let stuck : Bool := s.pins.holdIn && !s.hdl.holder
  let t := s.nv.mirrorPersisted
  let s := { s with
    hdl.takeReq := false
    hdl.tieUntil := if s.hdl.holder || s.pins.holdIn then s.hdl.tieUntil else some (s.now + 100000)
    hdl.holder := true, hdl.holdOut := true
    hdl.peerStuck := s.hdl.peerStuck || stuck
    hdl.takeovers := satAdd (2 ^ 32 - 1) s.hdl.takeovers 1
    nv.mirror := s.nv.mirror.filter fun r => decide (r.jseq ≤ t)
    nv.accept := s.nv.accept.filter fun a => !a.mirror }
  let s := countEvent 0x0D6 0 (countIf stuck 0x0DD s)
  let s := borderEvent 0xFF15 (leBytes 8 s.hdl.oldEpoch ++ leBytes 8 s.hdl.epoch ++ leBytes 8 t) (writeHeader3 t s)
  commitEpoch s

/-- fence_done is set once every port in L0 whose pack is used has confirmed the current fence, and the hold asserts where the hardware lets it
(R446, R453). -/
def checkFence (s : State) : State :=
  if s.hdl.fencing && s.stk.ports.all (fun p => !usesPack p || p.fenceOk) then
    let s := { s with hdl.fencing := false, hdl.fenceDone := true }
    if s.hdl.holder || (s.boot.handleElig && (!s.pins.holdIn || holderStuckNow s)) then takeEnds s else s
  else s

/-- An eligible head begins to take the Handle from a silent peer (R453): the epoch, then FENCE_PORT to every pack it reaches. A
head whose ports all report side_err never requests it (R447). -/
def beginTake (s : State) : State :=
  if s.hdl.takingOver || s.saf.failSilent || !s.boot.handleElig || s.hdl.bridge || allSideErr s then s
  else
    let s := adoptEpoch { s with
      hdl.takingOver := true, hdl.takeReq := !s.hdl.holder, hdl.fencing := true, hdl.fenceDone := false
      stk.ports := s.stk.ports.map fun p => { p with fenceOk := false } }
    checkFence (tellPacks 0x40 0 s)

/-- A pack reached while the peer is fenced is fenced too (R453 step 3). -/
def fenceLate (n : Nat) (s : State) : State :=
  if s.hdl.fencing || (s.hdl.holder && s.nv.header3.tookOver && !s.hdl.paired) then sendReq n { tag := 0, cmd := 0x40, aux := 0 } s else s

end Sys2Proof.Machine
end

