-- ==== Sys2Proof/Machine/Firmware.lean ====
section
/-! DEFINITION. Firmware images, staging, activation, boot checks and the on-media format (R155 to R173). -/

namespace Sys2Proof.Machine

/-- The size of a component's slot or area (Table 06-2). -/
def slotSize (comp : Nat) : Nat :=
  match comp with
  | 1 => 0x100000
  | 2 => 0x800000
  | 3 => 0x2000000
  | 4 => 0x200000
  | 5 => 0x400000
  | 7 => 0x1000000
  | 8 => 4096
  | _ => 0

/-- The image bytes in a slot of a component (1 to 5). -/
def slotImage (s : State) (comp slot : Nat) : List Byte :=
  match s.nv.flash.images.find? (fun e => e.1 == slotOffset comp slot) with
  | some e => e.2
  | none => []

/-- An image's version, svn, length and formats (Table 06-4). -/
def imgVersion (img : List Byte) : Nat := numAt img 8 4
def imgSvn (img : List Byte) : Nat := numAt img 6 1
def imgLen (img : List Byte) : Nat := numAt img 12 4
def imgFmtWrite (img : List Byte) : Nat := numAt img 18 2
def imgFmtReadMin (img : List Byte) : Nat := numAt img 20 2
def imgMinVer (img : List Byte) (comp : Nat) : Nat := numAt img (24 + (comp - 1) * 4) 4
def imgCert (img : List Byte) : List Byte := (img.drop 256).take (min 1600 (numAt img 128 2))

/-- The running image of a component (1 to 5), empty when none runs. -/
def runningImage (s : State) (comp : Nat) : List Byte :=
  match (s.fw.running[comp - 1]?).getD none with
  | some slot => slotImage s comp slot
  | none => []

/-- The preferred slot of a component; with no valid directory every preference is slot 0 (R155). -/
def prefSlot (s : State) (comp : Nat) : Nat := (s.nv.flash.pref[comp - 1]?).getD 0

/-- A component's slot states and last reason (Table 06-3). -/
def slotStates (s : State) (comp : Nat) : Nat × Nat × Nat := (s.nv.flash.slots[comp - 1]?).getD (1, 1, 0)

/-- The state of one slot: 0 empty, 1 staged, 2 good, 3 failed. -/
def slotState (s : State) (comp slot : Nat) : Nat := if slot = 0 then (slotStates s comp).1 else (slotStates s comp).2.1

/-- A slot's state set. -/
def setSlot (comp slot v : Nat) (s : State) : State :=
  { s with nv.flash.slots :=
      updAt (comp - 1) (fun e => if slot = 0 then (v, e.2.1, e.2.2) else (e.1, v, e.2.2)) s.nv.flash.slots }

/-- Reason 1 of Table 06-5: hdr_id, hdr_format, comp, stepping and img_len are as Table 06-4 requires, and reserved bytes are zero. -/
def headerOk (img : List Byte) (comp : Nat) : Bool :=
  numAt img 0 4 == 0x4D495643 && numAt img 4 1 == 1 && numAt img 5 1 == comp && numAt img 7 1 == 0xB0 &&
  decide (2048 ≤ imgLen img) && decide (imgLen img ≤ slotSize comp) && numAt img 22 2 == 0 && allZero (bytesAt img 44 84) &&
  allZero (bytesAt img 130 126) && allZero (bytesAt img 1952 96)

/-- The signed bytes of an image (R157). -/
def signedBytes (img : List Byte) : List Byte := bytesAt img 0 1856 ++ (img.take (imgLen img)).drop 2048

/-- Reasons 1 to 4 of Table 06-5: the first check that fails, 0 when none does. -/
def staticCheck (s : State) (img : List Byte) (comp floorIdx : Nat) : Nat :=
  if !headerOk img comp then 1
  else if !Config.chainLeadsTo (imgCert img) Config.firmwareRoot then 2
  else if !Config.verifyEcdsa (Config.leafKey (imgCert img)) (signedBytes img) (bytesAt img 1856 96) then 3
  else if 128 < imgSvn img || imgSvn img < svnFloor s floorIdx then 4
  else 0

/-- Reason 5: minimum versions against the images already chosen, both ways (Table 06-5). -/
def minVersOk (s : State) (img : List Byte) (comp : Nat) : Bool :=
  (List.range 5).all fun k =>
    let other := runningImage s (k + 1)
    (s.fw.running[k]?).getD none == none ||
      (decide (imgMinVer img (k + 1) ≤ imgVersion other) && decide (imgMinVer other comp ≤ imgVersion img))

/-- The boot check of a slot: the reason of Table 06-5, 0 when it passes; an empty slot fails reason 1. -/
def bootCheck (s : State) (comp slot : Nat) : Nat :=
  let img := slotImage s comp slot
  let r := staticCheck s img comp (comp - 1)
  if r ≠ 0 then r
  else if !minVersOk s img comp then 5
  else if comp = 3 ∧ ¬ (imgFmtReadMin img ≤ s.nv.format ∧ s.nv.format ≤ imgFmtWrite img) then 6
  else 0

/-- A component has been checked in this boot: it runs, or both its slots failed. -/
def compChecked (s : State) (comp : Nat) : Bool :=
  ((s.fw.running[comp - 1]?).getD none).isSome || decide (2 ≤ (s.fw.failed.filter (fun f => f.1 == comp)).length)

/-- The directory rewritten once before the seal (R164): the slot that ran is good and preferred, failed slots carry
their reason, the raise bit of a component that fell back is cleared. -/
def rewriteDirectory (s : State) : State :=
  let s1 := s.fw.failed.foldl (fun s f =>
    let s := setSlot f.1 f.2.1 3 s
    let slots := updAt (f.1 - 1) (fun e => (e.1, e.2.1, f.2.2)) s.nv.flash.slots
    let raises := clearBit s.nv.flash.raiseBits (f.1 - 1)
    { s with nv.flash.slots := slots, nv.flash.raiseBits := raises }) s
  let s2 := (List.range 5).foldl (fun s k =>
    match (s.fw.running[k]?).getD none with
    | some slot =>
      let s := setSlot (k + 1) slot 2 s
      { s with nv.flash.pref := updAt k (fun _ => slot) s.nv.flash.pref }
    | none => s) s1
  writeDir s2

/-- The measurement of an image that runs (R126): SHA-384 over the image as stored. -/
def imageMeas (s : State) (comp slot : Nat) (fallback : Bool) : Meas :=
  let img := slotImage s comp slot
  { comp := comp, slot := slot, fallback := fallback, svn := imgSvn img, version := imgVersion img,
    hash := Config.sha384 (img.take (imgLen img)) }

/-- A component may be checked now: ROM checks AOC, then MGT; MGT firmware CTL, WVM, SDS in that order; CTL once the
format in force is known (R126, R163). -/
def bootCheckDue (s : State) (comp : Nat) : Bool :=
  !compChecked s comp &&
  (match comp with
   | 1 => s.boot.romReading
   | 2 => s.boot.romReading && ((s.fw.running[0]?).getD none).isSome
   | 3 => s.boot.mgtRunning && s.boot.coilReady
   | 4 => s.boot.mgtRunning && compChecked s 3
   | 5 => s.boot.mgtRunning && compChecked s 4
   | _ => false)

/-- FIRMWARE_BOOT_CHECK (R163 to R165): the preferred slot, then the other; the slot that passes runs and is measured;
after SDS the directory is rewritten. -/
def execFirmwareBootCheck (comp : Nat) (s : State) : Result := fast s <|
  if bootCheckDue s comp then
    let a := prefSlot s comp
    let ra := bootCheck s comp a
    let rb := bootCheck s comp (1 - a)
    let run := fun (slot : Nat) (fb : Bool) (failed : List (Nat × Nat × Nat)) =>
      recordMeas (imageMeas s comp slot fb)
        { s with fw.running := updAt (comp - 1) (fun _ => some slot) s.fw.running, fw.failed := s.fw.failed ++ failed }
    let s1 := if ra = 0 then run a false []
      else if rb = 0 then run (1 - a) true [(comp, a, ra)]
      else { s with fw.failed := s.fw.failed ++ [(comp, a, ra), (comp, 1 - a, rb)] }
    .next (if comp = 5 then rewriteDirectory (deriveAlias s1) else s1)
  else .next s

/-! ### Staging (R159 to R161) -/

/-- The inactive slot: the one the component did not boot from; with none running, the one not preferred. -/
def inactiveSlot (s : State) (comp : Nat) : Nat :=
  match (s.fw.running[comp - 1]?).getD none with
  | some slot => 1 - slot
  | none => 1 - prefSlot s comp

/-- STAGE_IMAGE's outcome at stage 6 (R113, R159, R161). A later chunk of another session than the staging's owner is no chunk of a
staging of its own: FMT.PARAM at the offset (DESIGN CHOICE, log 153). -/
def stageImage (s : State) (c : Cmd) : Decision :=
  let comp := pk c 24 1
  let first := bit (pk c 25 1) 0
  let off := pk c 28 4
  let total := pk c 32 4
  let crc := pk c 36 4
  let own := match s.fw.staging with | some g => g.session == c.session | none => true
  if (longOpOf s opStageImage).isSome || (first && !own) then refuse stOrdBusy opStageImage
  else
    let start := if first then none else
      match s.fw.staging with
      | none => some 28
      | some g => if g.comp ≠ comp then some 24 else if off ≠ g.done then some 28 else if g.total ≠ total then some 32
        else if g.crc ≠ crc then some 36 else if !own then some 28 else none
    match start with
    | some o => refuse stFmtParam o
    | none => { started := true }

/-- A staging begins or goes on: on a first chunk the directory prefers the running slot, the inactive slot is empty and
its raise bit cleared, and the slot is erased (R160). The identity area is replaced only when an image is accepted, since R159 leaves
it as it was after a refusal (DESIGN CHOICE, log 154). -/
def applyStageImage (c : Cmd) (s : State) : State :=
  let comp := pk c 24 1
  let s1 := if bit (pk c 25 1) 0 then
      let s := { s with fw.staging := some { session := c.session, comp := comp, total := pk c 32 4, crc := pk c 36 4 } }
      if comp ≤ 5 then
        let slot := inactiveSlot s comp
        let s := setSlot comp slot 0 s
        putSlot comp slot [] (writeDir { s with
          nv.flash.pref := updAt (comp - 1) (fun _ => 1 - slot) s.nv.flash.pref
          nv.flash.raiseBits := clearBit s.nv.flash.raiseBits (comp - 1) })
      else if comp = 7 then
        { writeDir { s with nv.flash.packState := 0 } with nv.flash.packImage := [] }
      else s
    else s
  startLongOp c 0 s1

/-- STAGE_IMAGE. -/
def execStageImage (ring seq : Nat) (s : State) : Result := fast s <| auditedOp opStageImage stageImage ring seq s

/-- The area of a complete staging written and its state set (R160). -/
def placeImage (comp : Nat) (data : List Byte) (s : State) : State :=
  if comp ≤ 5 then
    let slot := inactiveSlot s comp
    writeDir (setSlot comp slot 1 (putSlot comp slot data s))
  else if comp = 7 then
    writeDir { s with nv.flash.packState := 1, nv.flash.packLen := data.length, nv.flash.packImage := data }
  else { s with nv.flash.identity := data }

/-- The verdict on a complete image: CRC, and for an identity image its length and hash (R159). -/
def stagedVerdict (s : State) (g : Staging) (data : List Byte) : Nat × Nat :=
  if crc32c data ≠ g.crc then (stFwCrc, g.comp)
  else if g.comp = 8 then
    if numAt data 0 2 + 2 ≠ g.total then (stLenShape, 32)
    else if Config.sha384 (data.drop 2) ≠ s.nv.fuses.devidCertHash then (stFmtParam, 0x8000)
    else (stOkDone, 0)
  else (stOkDone, 0)

/-- STAGE_IMAGE_CHUNK_DONE (R159, R160): the chunk is programmed; after the last one the verdict decides, and a good
image's slot is staged. A staging whose session ended is abandoned (R161). -/
def execStageImageChunkDone (s : State) : Result := fast s <|
  match longOpOf s opStageImage, s.fw.staging with
  | some l, some g =>
    let c := l.cmd
    let data := g.data ++ c.block.take (unsignedLen c)
    if bit (pk c 25 1) 1 then
      let v := stagedVerdict s g data
      let alive := s.plem.sessions.any (fun x => x.id == g.session)
      let s := if v.1 = stOkDone ∧ alive then placeImage g.comp data s else s
      .next (endLongOp opStageImage v.1 v.2 0 { s with fw.staging := none })
    else
      let s := endLongOp opStageImage stOkDone 0 0
        { s with fw.staging := some { g with data := data, done := data.length } }
      .next (if s.plem.sessions.any (fun x => x.id == g.session) then s else { s with fw.staging := none })
  | _, _ => .next s

/-! ### Activation, query, format (R162, R166, R170 to R173) -/

/-- The components of a mask, 1 to 5. -/
def maskComps (m : Nat) : List Nat := ((List.range 5).filter (bit m)).map (· + 1)

/-- ACTIVATE_IMAGE's outcome (R162). -/
def activateImage (s : State) (c : Cmd) : Decision :=
  let m := pk c 24 1
  let r := pk c 25 1
  match (maskComps m).find? (fun k => let v := slotState s k (inactiveSlot s k); v != 1 && v != 2) with
  | some k => refuse stFwSlot k
  | none =>
    let same := (maskComps m).all fun k => prefSlot s k == inactiveSlot s k && (bit s.nv.flash.raiseBits (k - 1) == bit r (k - 1))
    if same then noChange else { nums := [m, r] }

/-- One directory write prefers the inactive slots and sets the raise bits (R162). -/
def applyActivateImage (d : Decision) (s : State) : State :=
  match d.nums with
  | [m, r] =>
    let s := (maskComps m).foldl (fun s k =>
      { s with
        nv.flash.pref := updAt (k - 1) (fun _ => inactiveSlot s k) s.nv.flash.pref
        nv.flash.raiseBits := if bit r (k - 1) then setBit s.nv.flash.raiseBits (k - 1) else clearBit s.nv.flash.raiseBits (k - 1) }) s
    writeDir s
  | _ => s

/-- ACTIVATE_IMAGE. -/
def execActivateImage (ring seq : Nat) (s : State) : Result := fast s <| auditedOp opActivateImage activateImage ring seq s

/-- The 32-byte record of a component in FW_QUERY (R166). -/
def fwRecord (s : State) (comp : Nat) : List Byte :=
  let img := fun (slot : Nat) => if slotState s comp slot = 0 then [] else slotImage s comp slot
  let st := slotStates s comp
  let run := match (s.fw.running[comp - 1]?).getD none with | some r => r | none => 0xFF
  [BitVec.ofNat 8 comp, BitVec.ofNat 8 run, BitVec.ofNat 8 (st.1 + st.2.1 * 4 + st.2.2 * 16),
   BitVec.ofNat 8 (prefSlot s comp + flagAt (bit s.nv.flash.raiseBits (comp - 1)) 1)] ++
  leBytes 4 (imgVersion (img 0)) ++ leBytes 4 (imgVersion (img 1)) ++ leBytes 1 (imgSvn (img 0)) ++
  leBytes 1 (imgSvn (img 1)) ++ zeros 2 ++ leBytes 4 (imgLen (img 0)) ++ leBytes 4 (imgLen (img 1)) ++ zeros 8

/-- The record of the PACK staging area (R166). -/
def fwPackRecord (s : State) : List Byte :=
  let img := if s.nv.flash.packState = 0 then [] else s.nv.flash.packImage
  [7, 0xFF, BitVec.ofNat 8 s.nv.flash.packState, 0] ++ leBytes 4 (imgVersion img) ++ zeros 4 ++ leBytes 1 (imgSvn img) ++
  zeros 3 ++ leBytes 4 (imgLen img) ++ zeros 12

/-- FW_QUERY's outcome (R166). -/
def fwQuery (s : State) (_c : Cmd) : Decision :=
  answer (((List.range 5).map fun k => fwRecord s (k + 1)).flatten ++ fwPackRecord s)

/-- FW_QUERY. -/
def execFwQuery (ring seq : Nat) (s : State) : Result := fast s <| plainOp opFwQuery 24 fwQuery (fun _ _ s => s) ring seq s

/-- The format N of the next raise, given the peer's fmt_write; F when none is possible (R171). -/
def nextFormat (s : State) (peerFmt : Nat) : Nat :=
  let n := min (imgFmtWrite (runningImage s 3)) peerFmt
  if s.hdl.holder ∧ s.hdl.paired ∧ s.nv.format < n then n else s.nv.format

/-- A superblock, a layout root or a journal header still carries another format than the one in force: headers migrate (R171). A reset
changes nothing of it. -/
def migrating (s : State) : Bool :=
  s.nv.superFormat != s.nv.format || s.nv.rootFormat != s.nv.format || s.nv.header2.format != s.nv.format ||
    s.nv.header3.format != s.nv.format

/-- The bulk pages that carry an older format than the one in force (R172, R173). -/
def oldPages (s : State) : Nat := (s.nv.pages.filter fun p => decide (p.2 < s.nv.format)).length

/-- The migration state: 0 settled, 1 headers migrating, 2 bulk pages pending (R173). -/
def migState (s : State) : Nat := if migrating s then 1 else if 0 < oldPages s then 2 else 0

/-- MIGRATE_STATUS's outcome (R173); the peer's fmt_write is the one last learnt. -/
def migrateStatus (s : State) (_c : Cmd) : Decision :=
  answer (leBytes 2 s.nv.format ++ leBytes 2 (nextFormat s s.fw.peerFmt) ++ [BitVec.ofNat 8 (migState s)] ++ zeros 3 ++
    leBytes 8 (oldPages s) ++ leBytes 8 (match s.nv.lastRaise with | some q => q | none => 2 ^ 64 - 1) ++
    leBytes 8 s.fw.migEnd)

/-- MIGRATE_STATUS. -/
def execMigrateStatus (ring seq : Nat) (s : State) : Result := fast s <|
  plainOp opMigrateStatus 24 migrateStatus (fun _ _ s => s) ring seq s

/-- FORMAT_RAISE (R171): the Handle holder with a paired peer appends entry 0xFF10, the point of no return, and header
migration begins; the layout roots take the format in one Coil step, of which the peer's copy tells the other head (DEDUCED, log 157).
Without space the entry cannot be appended, and nothing is raised. -/
def execFormatRaise (peerFmtWrite : Nat) (s : State) : Result := fast s <|
  let s := { s with fw.peerFmt := peerFmtWrite }
  let n := nextFormat s peerFmtWrite
  if n ≤ s.nv.format ∨ auditFree s ≤ 16 ∨ s.nv.waitingEntries ≠ [] ∨ migrating s then .next s
  else
    let q := s.nv.chain.length
    let s := borderEvent 0xFF10 (leBytes 2 s.nv.format ++ leBytes 2 n) s
    .next (appendOp s.hfe.arrival 65535 opxFormat [n] [] { s with nv.format := n, nv.lastRaise := some q })

/-- The superblocks are written in the format in force, which ends the migration (R173). -/
def settleFormat (s : State) : State := { s with nv.superFormat := s.nv.format, fw.migEnd := s.now }

/-- FORMAT_MIGRATION_END (R171, R172): on either head, once the layout roots hold the format in force, the superblocks and both journal
headers are written in it. -/
def execFormatMigrationEnd (s : State) : Result := fast s <|
  if migrating s && s.nv.rootFormat == s.nv.format then
    .next (settleFormat (putHeader true { s.nv.header3 with format := s.nv.format }
      (putHeader false { s.nv.header2 with format := s.nv.format } s)))
  else .next s

end Sys2Proof.Machine
end

