-- ==== Sys2Proof/Machine/Power.lean ====
section
/-! DEFINITION. Power, resets, clocks, the first second, tiles and Doze (R51 to R84), and the sideband's early answers
(R54, R77). -/

namespace Sys2Proof.Machine

/-! ### Resets (R63 to R67, R543) -/

/-- What stays in Coil and flash over a loss of the running machine: accepted lines that were not persisted are gone,
the stream ends at the last record persisted whole (R57, R313). -/
def survive (nv : Nv) : Nv :=
  { nv with
    journal := nv.journal.filter (fun r => decide (r.jseq ≤ nv.persisted))
    mirror := nv.mirror.filter (fun r => decide (r.jseq ≤ nv.mirrorPersisted))
    nextJseq := nv.persisted + 1
    tailLine := match nv.journal.find? (fun r => decide (nv.persisted < r.jseq)) with | some r => r.line | none => nv.tailLine
    torn := nv.accept.any fun a => !a.mirror && nv.journal.any (fun r => r.jseq == a.jseq && decide (a.lines < r.lines))
    accept := []
    cells := nv.cells.filter fun c => !nv.journal.any (fun r => decide (nv.persisted < r.jseq) && recordHas false r c.1) &&
      !nv.mirror.any (fun r => decide (nv.mirrorPersisted < r.jseq) && recordHas true r c.1) }

/-- Every register at its reset value, with what R543 keeps: the always-on records and the fault latch; the cause is no
longer of this boot. Waiting commands and what was sent are the model's own; the head's epoch is the one in the layout
roots (R452). near_full is clear until an entry crosses the threshold again (DESIGN CHOICE, log 158). -/
def afterReset (s : State) : State :=
  { State.reset with
    pending := s.pending
    out := s.out
    free := s.free
    pins := { s.pins with ospiReset := true, pwrok := true, holdIn := s.pins.holdIn, tap := .bypass }
    aon := { s.aon with cause := { s.aon.cause with thisBoot := false } }
    nv := survive s.nv
    hdl := { epoch := s.nv.epoch } }

/-- PWROK_RISE (R61, R63, R66): a power-on reset; the strap is sampled. With PWRFAIL_N low the fall is latched and the
device does not start; a latched trip holds it in reset (R511). The always-on rails have been within range for more than
1 ms (R63). Only a rising edge counts. -/
def execPwrokRise (sideB pwrfailLow : Bool) (s : State) : Result :=
  if s.pins.pwrok || !s.pins.aonInRange then .next s
  else
    let s := afterReset s
    .next { s with
      aon.side := sideB
      aon.responder := true
      boot := { pwrfailLatched := pwrfailLow, bootStopped := pwrfailLow || s.aon.trip, fastStopped := pwrfailLow || s.aon.trip } }

/-- The boot while PWROK is low: held in reset. Whether data service has run since the last power-up is kept (R56). -/
def heldBoot (s : State) : Boot := { bootStopped := true, fastStopped := true, serviceEver := s.boot.serviceEver }

/-- PWROK_FALL (R58, R60, R65): the device is held in reset; the PWRFAIL_N and FAULT_N latches and fail-silence
clear. -/
def execPwrokFall (s : State) : Result :=
  if !s.pins.pwrok then .next s
  else
    let held := heldBoot s
    let s := afterReset s
    .next { s with pins.pwrok := false, pins.faultN := false, aon.faultLatch := false, boot := held, brd.udsOpen := false }

/-- AON_RAILS_UP (R51): the Handle outputs drive low; the open-drain outputs are released unless a trip is latched. -/
def execAonRailsUp (s : State) : Result :=
  if s.pins.aonInRange then .next s
  else .next { s with
    pins.aonInRange := true
    pins.thermtrip := s.aon.trip
    pins.faultN := s.aon.faultLatch
    pins.alertN := false
    hdl.holdOut := false
    hdl.beatOut := false }

/-- AON_RESPONDER_READY (R65): the always-on rails have been within range for 1 ms; with PWROK low and a trip or cause
latched, the responder answers from now on. -/
def execAonResponderReady (s : State) : Result :=
  if s.pins.aonInRange then .next { s with aon.responder := true } else .next s

/-- AON_RAILS_DOWN (R59, R522): VDD_AON below 0.30 V clears the trip latch and the cause; nothing runs. -/
def execAonRailsDown (s : State) : Result :=
  let held := heldBoot s
  let s := afterReset s
  .next { s with
    pins := { aonInRange := false, pwrok := false, ospiReset := true, holdIn := s.pins.holdIn }
    aon := { side := s.aon.side, responder := false }
    boot := held
    brd.udsOpen := false }

/-- The power-loss stop is latched (R57, R58). -/
def latchPwrfail (s : State) : State := { s with boot.pwrfailLatched := true, boot.stopping := true, boot.bootStopped := true }

/-- PWRFAIL_RECOGNISED (R57): a low level of 1 µs or more is recognised; below 200 ns it is ignored; between the two the
manual leaves it open and a free value decides (log 1). -/
def execPwrfailRecognised (lowNs : Nat) (s : State) : Result :=
  if !s.pins.pwrok || s.boot.pwrfailLatched || decide (lowNs < 200) then .next s
  else if 1000 ≤ lowNs then .next (latchPwrfail s)
  else .next (if freeBelow 2 s = 1 then latchPwrfail (drewFree s) else drewFree s)

/-- FRONT_ENDS_STOP (R57): no new command is taken, Coil accepts no new line. -/
def execFrontEndsStop (s : State) : Result :=
  if s.boot.stopping then .next { s with boot.frontEndsStopped := true, col.accepting := false } else .next s

/-- Every accepted Coil line is persisted (Table 02-12, R59). -/
def persistAccepted (s : State) : State := { s with nv.persisted := s.nv.nextJseq - 1, nv.mirrorPersisted := lastMirror s, nv.accept := [] }

/-- COIL_RETENTION_ENTER (R57): accepted lines are persisted, all fast activity has stopped, Coil is in retention. -/
def execCoilRetentionEnter (s : State) : Result :=
  if s.boot.stopping && s.boot.frontEndsStopped then
    .next { idleLinks (persistAccepted s) with boot.retention := true, boot.fastStopped := true, boot.service := false, wvr.running := false }
  else .next s

/-- The stop and the links of a warm reset (R67): service stops as at a power loss, every link goes down. -/
def beginWarmReset (s : State) : State :=
  { idleLinks (persistAccepted s) with
    boot.warmPending := true, boot.service := false, boot.frontEndsStopped := true, col.accepting := false,
    boot.linkUpC0 := false, boot.linkUpC1 := false, wvr.running := false }

/-- WARM_RESET_RELEASE (R66, R67, R543): the first second runs again, OSPI_RESET_N asserted; HDL_SIDE is not resampled. The
always-on domain does not restart: the sideband keeps its mode, dynamic address and endpoint identifier (R54). A fail-silent
device and one whose PWRFAIL_N latch is set wait for PWROK (R58, R67). -/
def execWarmResetRelease (s : State) : Result :=
  if s.boot.warmPending && !s.saf.failSilent && !s.boot.pwrfailLatched then
    let kept : Boot := { warm := true, serviceEver := s.boot.serviceEver, i3c := s.boot.i3c, i3cAddr := s.boot.i3cAddr, bmcEid := s.boot.bmcEid }
    let s := afterReset s
    .next { s with boot := kept }
  else .next s

/-! ### Clocks (R69 to R71) -/

/-- Start-up goes on: PWROK high, not held by a latched fall or trip, not halted (R58, R70, R511). -/
def starting (s : State) : Bool := s.pins.pwrok && !s.boot.bootStopped && !s.boot.halted && !s.boot.warmPending

/-- REFCLK_LOST (R70): a clock-loss failure once data service has started in this boot, else start-up halts. -/
def execRefclkLost (s : State) : Result :=
  let s' := { s with boot.refOk := false, boot.aonTick := true }
  if !s.pins.pwrok then .next s
  else if s.boot.served then .next (failSilent 0x03 0 s')
  else .next { s' with boot.halted := true }

/-- REFCLK_NOT_GOOD (R70, R145): the tick and the monotonic time fall back to the always-on clock. -/
def execRefclkNotGood (s : State) : Result :=
  if s.pins.pwrok then .next { s with boot.refOk := false, boot.aonTick := true } else .next s

/-- REFCLK_GOOD (R70): a halted start-up resumes, the tick returns to REFCLK25. -/
def execRefclkGood (s : State) : Result :=
  if s.pins.pwrok then .next { s with boot.refOk := true, boot.aonTick := false, boot.halted := false } else .next s

/-- A PLL that does not run: core, engine, Hamper PHY and Coil PHY in Doze (Table 03-3). -/
def pllOff (s : State) (pll : Nat) : Bool := s.pwr.doze && decide (pll < 4)

/-- PLL_LOCKED (R71, Table 22-3); on leaving Doze the fast PLLs lock again. -/
def execPllLocked (pll : Nat) (s : State) : Result := fast s <|
  if starting s && decide (pll < 8) && !(pllOff s pll && !s.pwr.waking) then .next { s with boot.pll := setBit s.boot.pll pll } else .next s

/-- PLL_LOCK_LOST (R71): clock loss once data service has started in this boot. -/
def execPllLockLost (pll : Nat) (s : State) : Result := fast s <|
  if pll < 8 ∧ ¬ pllOff s pll then
    let s' := { s with boot.pll := clearBit s.boot.pll pll }
    if s.boot.served then .next (failSilent 0x03 0 s') else .next s'
  else .next s

/-! ### The first second (R76 to R80) -/

/-- OSPI_RESET_RELEASE (R55, R155): ROM begins reading boot flash, and takes the valid directory copy. -/
def execOspiResetRelease (s : State) : Result :=
  if starting s then .next { s with pins.ospiReset := false, boot.romReading := true, nv.flash := loadDir s.nv.flash } else .next s

/-- SIDEBAND_EARLY_SERVICE (R77); a trip or PWRFAIL_N that holds the device in reset leaves the responder on (R511). -/
def execSidebandEarlyService (s : State) : Result :=
  if s.pins.pwrok && !s.boot.sbEarly then .next { s with boot.sbEarly := true } else .next s

/-- Hamper life against PID 0x0B09: code 0x0BB once (R406). -/
def hamLifeCheck (s : State) : State :=
  if !s.med.hamWarn && decide (100 * pidVal s 0x0B09 ≤ s.nv.fuses.hamRepair) then countEvent 0x0BB 0 { s with med.hamWarn := true } else s

/-- FUSES_LOADED (R84, R123, R291, R327): fuses and Border's identity; while the UDS read paths are open, the device root wrapping
key and Coil's key are derived from it. -/
def execFusesLoaded (s : State) : Result :=
  if starting s && s.boot.romReading && !s.boot.fusesLoaded && s.brd.udsOpen then
    .next <| hamLifeCheck { s with
      boot.fusesLoaded := true, boot.borderId := true
      cip.drwk := (Config.hmac384 (udsOf s) [0x43, 0x56, 0x44, 0x52, 0x57, 0x4B]).take 32
      col.key := coilKey (udsOf s), col.xtsOk := true
      rma.wrapKey := freeBytes 32 s, free := s.free + 32 }
  else .next s

/-- MGT_FIRMWARE_RUNNING (R84, R123, R126): once AOC and MGT have been checked and run, ROM's layer ends; the firmware reads the flash's SFDP tables
and switches it to 8D-8D-8D (R55; DESIGN CHOICE, log 136: the moment). -/
def execMgtFirmwareRunning (s : State) : Result :=
  if starting s && s.boot.fusesLoaded && ((s.fw.running[0]?).getD none).isSome && ((s.fw.running[1]?).getD none).isSome then
    .next { romLayerEnds s with boot.mgtRunning := true, boot.flashOctal := true, saf.cfgScrub := true }
  else .next s

/-- SIDEBAND_FULL_SERVICE (R77). -/
def execSidebandFullService (s : State) : Result :=
  if starting s && s.boot.mgtRunning then .next { s with boot.sbFull := true, boot.sbEarly := true } else .next s

/-- HAMPER_TRAINED (R84): hamper_ready is set and the scrubber runs (R518). -/
def execHamperTrained (s : State) : Result :=
  if starting s then .next { s with boot.hamperReady := true, saf.hamScrub := true } else .next s

/-- PLEM_FUNCTION_READY (R76). -/
def execPlemFunctionReady (s : State) : Result :=
  if starting s && s.boot.mgtRunning && s.boot.hamperReady && s.brd.counterDone then
    .next { s with boot.plemReady := true }
  else .next s

/-- PCIE_LINK_TRAIN_START (R76): C0 or C1 trains, its PERST_N released. -/
def execPcieLinkTrainStart (port : Nat) (s : State) : Result :=
  if !starting s then .next s
  else if port = 0 then .next { s with boot.linkUpC0 := true, pins.perstC0 := false }
  else if port = 1 then .next { s with boot.linkUpC1 := true, pins.perstC1 := false }
  else .next s

/-- The functions of a PCIe port with their class code, BAR0 size and MSI-X vectors; neither port has SR-IOV (R177, Table 07-3). -/
def pcieFunctions (port : Nat) : List (Nat × Nat × Nat × Nat) :=
  if port = 0 then [(0, 0x088000, 2 * 2 ^ 20, 64), (1, 0x010802, 16 * 2 ^ 10, 2048)] else [(0, 0x010802, 16 * 2 ^ 10, 2048)]

/-- The answer to a configuration request: retry status, or the configuration spaces of the port's functions. -/
def configAnswer (port : Nat) (s : State) : State :=
  if !s.boot.plemReady then emit (.cfgAnswer port true) s
  else (pcieFunctions port).foldl (fun s f => emit (.cfgFunction port f.1 f.2.1 f.2.2.1 f.2.2.2 false) s) (emit (.cfgAnswer port false) s)

/-- PCIE_CONFIG_REQUEST (R76): retry status until the PLEM function is ready; without a link there is no request. -/
def execPcieConfigRequest (port : Nat) (s : State) : Result := fast s <|
  if (port = 0 ∧ s.boot.linkUpC0) ∨ (port = 1 ∧ s.boot.linkUpC1) then .next (configAnswer port s)
  else .next s

/-- STAKE_WAVE_START (R78): wave w takes ports 8w to 8w + 7 out of electrical idle, in wave order. -/
def execStakeWaveStart (wave : Nat) (s : State) : Result :=
  if starting s && !s.saf.failSilent && wave == s.boot.wavesBegun && decide (wave < 8) then
    .next { s with
      boot.wavesBegun := wave + 1
      stk.ports := s.stk.ports.map fun p => if p.num / 8 = wave then { p with link := 2, wave := wave } else p }
  else .next s

/-- STAKE_WAVE_END (R78): ports with no receiver are absent for this boot, detected ports that did not train are
retried. -/
def execStakeWaveEnd (wave receivers : Nat) (s : State) : Result := alive s <|
  if starting s && decide (wave < s.boot.wavesBegun) && !bit s.boot.wavesDone wave then
    .next { s with
      boot.wavesDone := setBit s.boot.wavesDone wave
      stk.ports := s.stk.ports.map fun p =>
        if p.num / 8 = wave ∧ p.link = 2 then
          if bit receivers p.num then { p with link := 0, retry := true } else { p with link := 0, absent := true }
        else p }
  else .next s

/-- STAKE_CATCHUP_WAVE (R78): up to 8 ports that failed to train are tried again, in port order (DESIGN CHOICE, log 137: of
more than 8, each wave takes the lowest). -/
def execStakeCatchupWave (s : State) : Result :=
  if starting s && !s.saf.failSilent then
    let due := ((s.stk.ports.filter fun p => p.retry && p.link == 0).map (·.num)).take 8
    .next { s with stk.ports := s.stk.ports.map fun p => if due.contains p.num then { p with link := 2 } else p }
  else .next s

/-- PEER_LINK_TRAIN_ATTEMPT (R79, R464): the peer link trains unless it is up or bridge mode is set. -/
def execPeerLinkTrainAttempt (s : State) : Result := alive s <|
  if starting s && !s.hdl.linkUp && pidVal s 0x0D11 == 0 then
    .next { s with hdl.training := true }
  else .next s

/-- MONITOR_SELF_TEST (R523): before the boot record is sealed; a monitor that does not fire is class 0x0D. -/
def execMonitorSelfTest (notFired : Nat) (s : State) : Result := fast s <|
  if s.boot.recSealed || !starting s then .next s
  else if notFired = 0 then .next { s with saf.monitorTested := true, saf.monitorOk := true }
  else .next (failSilent 0x0D 0 { s with saf.monitorTested := true, saf.monitorOk := false })

/-! ### Tiles, groups, Doze (R72 to R75) -/

/-- The state of a tile: 0 awake, 1 gated, 2 powered off. -/
def tileState (s : State) (t : Nat) : Nat := (s.pwr.tiles[t]?).getD 0

/-- TILE_GATE (R72): an awake tile with an empty queue stops its clock. -/
def execTileGate (tile : Nat) (s : State) : Result := engine s <|
  if tile < 256 ∧ tileState s tile = 0 then .next { s with pwr.tiles := updAt tile (fun _ => 1) s.pwr.tiles } else .next s

/-- A doorbell for a powered-off group waits at the rouser, once (R73, R74). -/
def queueGroup (g : Nat) (s : State) : State :=
  if s.pwr.wakeQueue.any (fun e => e.2 == g) || s.pwr.restoring.contains g then s
  else { s with pwr.wakeQueue := s.pwr.wakeQueue ++ [(s.now, g)] }

/-- TILE_WAKE (R31, R72): a gated tile wakes; a doorbell to a powered-off tile is held until its group is restored. -/
def execTileWake (tile : Nat) (s : State) : Result := engine s <|
  if 256 ≤ tile then .next s
  else if tileState s tile = 1 then .next { s with pwr.tiles := updAt tile (fun _ => 0) s.pwr.tiles }
  else if tileState s tile = 2 then .next (queueGroup (Config.groupOf tile) s)
  else .next s

/-- A power group goes off, its tiles' state saved to Hamper region 12 (R66, R74). -/
def groupOff (g : Nat) (s : State) : State :=
  { s with
    pwr.groupOff := setBit s.pwr.groupOff g
    pwr.tiles := s.pwr.tiles.zipIdx.map fun e => if Config.groupOf e.2 = g then 2 else e.1
    pwr.saved := insertNat g s.pwr.saved }

/-- GROUP_AUTO_OFF (R74): with auto-off set and every tile of the group gated. -/
def execGroupAutoOff (group : Nat) (s : State) : Result := engine s <|
  if group < 24 ∧ pidVal s 0x0211 ≠ 0 ∧ ¬ bit s.pwr.groupOff group ∧
      (s.pwr.tiles.zipIdx.all fun e => Config.groupOf e.2 != group || e.1 == 1) then .next (groupOff group s)
  else .next s

/-- The next group of the rouser: the earliest doorbell, of the same tick the lowest group (R73). -/
def nextGroup (q : List (Nat × Nat)) : Option (Nat × Nat) :=
  q.foldl (fun b e => match b with
    | none => some e
    | some x => if e.1 / 1000 < x.1 / 1000 ∨ (e.1 / 1000 = x.1 / 1000 ∧ e.2 < x.2) then some e else b) none

/-- GROUP_POWER_ON (R73): one waiting group powers on and begins restoring. -/
def execGroupPowerOn (s : State) : Result := engine s <|
  match nextGroup s.pwr.wakeQueue with
  | none => .next s
  | some e => .next { s with
      pwr.wakeQueue := s.pwr.wakeQueue.erase e
      pwr.restoring := s.pwr.restoring ++ [e.2]
      pwr.groupOff := clearBit s.pwr.groupOff e.2
      pwr.lastPowerOn := some s.now }

/-- GROUP_RESTORE_COMPLETE (R72): the group's tiles run again with their saved state. -/
def execGroupRestoreComplete (group : Nat) (s : State) : Result := engine s <|
  if s.pwr.restoring.contains group then
    .next { s with
      pwr.restoring := s.pwr.restoring.erase group
      pwr.tiles := s.pwr.tiles.zipIdx.map fun e => if Config.groupOf e.2 = group ∧ e.1 = 2 then 0 else e.1
      pwr.saved := s.pwr.saved.erase group }
  else .next s

/-- DOZE_WAKE (R72): restoration starts. -/
def execDozeWake (s : State) : Result := fast s <|
  if s.pwr.doze then .next { s with pwr.waking := true } else .next s

/-- A CLOSED loop starts its next sample bumpless (R497, R504). -/
def resumeLoops (s : State) : State :=
  { s with wvr.loops := updWhere (fun l => l.state == 2) (fun l => { l with bumpless := true }) s.wvr.loops }

/-- DOZE_EXIT_COMPLETE (R75): tiles, cores and PLEM are restored, so their PLLs run; Coil leaves retention and accepts again;
DEVICE_DOZE completes, records held in Doze are written (R535), CLOSED loops resume (R504). -/
def execDozeExitComplete (s : State) : Result := fast s <|
  if s.pwr.doze && s.pwr.waking then
    let s := { s with pwr.doze := false, pwr.waking := false, pwr.tiles := s.pwr.tiles.map (fun _ => 0), pwr.groupOff := 0,
                      pwr.restoring := [], pwr.wakeQueue := [], pwr.saved := [], boot.pll := s.boot.pll / 16 * 16 + 15,
                      col.accepting := !s.saf.failSilent && !s.boot.frontEndsStopped }
    .next (finishDeferred opDeviceDoze 0 false (evrFlush (resumeLoops s)))
  else .next s

/-! ### The sideband (R54, R65, R77, R522) -/

/-- The sideband target acknowledges: early or full service; while PWROK is low the always-on responder, with a trip or a
cause latched (R65). -/
def sbAnswers (s : State) : Bool :=
  if s.pins.pwrok then s.boot.sbEarly || s.boot.sbFull else s.aon.responder && (s.aon.trip || s.aon.cause.valid)

/-- The device answers as an SMBus target at 0x4D: not in I3C mode (R54). -/
def smbusAnswers (s : State) : Bool := sbAnswers s && !s.boot.i3c

/-- MCTP reaches the device over either binding; in I3C mode only once it has a dynamic address (R54; PRESUMED, log 139). -/
def mctpAnswers (s : State) : Bool := sbAnswers s && (!s.boot.i3c || s.boot.i3cAddr != 0)

/-- The order code VV6408-XA and stepping B0 as text (R1; DESIGN CHOICE, log 18: the block's layout is not given). -/
def identityText : List Byte :=
  [0x56, 0x56, 0x36, 0x34, 0x30, 0x38, 0x2D, 0x58, 0x41, 0x42, 0x30]

/-- SMBUS_READ_IDENTITY (R77): order code and stepping, and the serial number once fuses are loaded. -/
def execSmbusReadIdentity (s : State) : Result :=
  if smbusAnswers s then
    .next (emit (.smbus (identityText ++ if s.boot.fusesLoaded then leBytes 8 s.nv.fuses.dieSerial else [])) s)
  else .next s

/-- SMBUS_READ_TEMPERATURE (R77): the hottest on-die sensor, signed 16 bits in 1/16 °C; a free value before any valid
sample (log 1). -/
def execSmbusReadTemperature (s : State) : Result :=
  if smbusAnswers s then
    match hottest s with
    | some h => .next (emit (.smbus (leBytes 2 (signed 16 h.1))) s)
    | none => .next (drewFree (emit (.smbus (leBytes 2 (freeBelow 65536 s))) s))
  else .next s

/-- SMBUS_READ_BOOT_STATUS (R77). -/
def execSmbusReadBootStatus (s : State) : Result :=
  if smbusAnswers s then .next (emit (.smbus (leBytes 4 (aonBootSts s))) s) else .next s

/-- SMBUS_READ_CAUSE (R522): SAF_CAUSE, then SAF_CAUSE_NS, 12 bytes. -/
def execSmbusReadCause (s : State) : Result :=
  if smbusAnswers s then .next (emit (.smbus (leBytes 4 (safCause s) ++ leBytes 8 s.aon.cause.ns)) s) else .next s

/-- SMBUS_OTHER_COMMAND (R77): status 0x04 until full service; after it the manual gives no answer (a free byte, log 1). -/
def execSmbusOtherCommand (_cmd : Nat) (s : State) : Result :=
  if !smbusAnswers s then .next s
  else if !fullService s then .next (emit (.smbus [0x04]) s)
  else .next (drewFree (emit (.smbus [BitVec.ofNat 8 (freeBelow 256 s)]) s))

/-- SMBUS_CLOCK_LOW_TIMEOUT (R54): from 35 ms the transaction has ended, below 25 ms it goes on; between, a free value
decides (log 1). -/
def execSmbusClockLowTimeout (lowMs : Nat) (s : State) : Result :=
  if s.boot.i3c || decide (lowMs < 25) then .next s
  else if 35 ≤ lowMs then .next (emit .smbusTimeout s)
  else .next (if freeBelow 2 s = 1 then emit .smbusTimeout (drewFree s) else drewFree s)

/-- I3C_FIRST_BROADCAST (R54). -/
def execI3cFirstBroadcast (s : State) : Result := if s.pins.pwrok then .next { s with boot.i3c := true } else .next s

/-- ENTDAA (R54): a target in I3C mode without a dynamic address takes the one assigned. -/
def execEntdaa (addr : Nat) (s : State) : Result :=
  if s.boot.i3c ∧ s.boot.i3cAddr = 0 then .next { s with boot.i3cAddr := addr } else .next s

/-- SETDASA (R54): from static address 0x4D. -/
def execSetdasa (static addr : Nat) (s : State) : Result :=
  if s.boot.i3c ∧ static = 0x4D ∧ s.boot.i3cAddr = 0 then .next { s with boot.i3cAddr := addr } else .next s

/-- RSTDAA (R54): SMBus behaviour at 0x4D again. -/
def execRstdaa (s : State) : Result := .next { s with boot.i3c := false, boot.i3cAddr := 0 }

/-- SET_ENDPOINT_ID (R77). -/
def execSetEndpointId (eid : Nat) (s : State) : Result :=
  if mctpAnswers s then .next (sendMctp (.mctp 1 0 [BitVec.ofNat 8 eid]) { s with boot.bmcEid := eid }) else .next s

/-- GET_ENDPOINT_ID (R77). -/
def execGetEndpointId (s : State) : Result :=
  if mctpAnswers s then .next (sendMctp (.mctp 2 0 [BitVec.ofNat 8 s.boot.bmcEid]) s) else .next s

/-- GET_MCTP_VERSION_SUPPORT (R77): answered; the manual does not state the version bytes (free values, log 1). -/
def execGetMctpVersionSupport (_msgType : Nat) (s : State) : Result :=
  if mctpAnswers s then .next (drewFree (sendMctp (.mctp 4 0 (freeBytes 1 s)) s)) else .next s

/-- GET_MESSAGE_TYPE_SUPPORT (R77, R104, R148): SPDM and Vendor Defined – PCI (PRESUMED codes, log 19). -/
def execGetMessageTypeSupport (s : State) : Result :=
  if mctpAnswers s then .next (sendMctp (.mctp 5 0 [0x05, 0x06, 0x7E]) s) else .next s

/-- MCTP_OTHER_CONTROL (R77): ERROR_NOT_READY until full service; after it a completion code the manual does not state
(a free value, log 1). -/
def execMctpOtherControl (cmd : Nat) (s : State) : Result :=
  if !mctpAnswers s then .next s
  else if !fullService s then .next (sendMctp (.mctp cmd 0x04 []) s)
  else .next (drewFree (sendMctp (.mctp cmd (freeBelow 256 s) []) s))

/-- TAP_INSTRUCTION_UPDATE (R56): the boundary-scan instructions until the first start of data service, then only
IDCODE and BYPASS; any other is BYPASS. -/
def execTapInstructionUpdate (ir : TapInstr) (s : State) : Result :=
  let eff : TapInstr := match ir with
    | .bypass => .bypass
    | .idcode => .idcode
    | .other _ => .bypass
    | x => if s.boot.serviceEver then .bypass else x
  .next (emit (.tap eff) { s with pins.tap := eff })

end Sys2Proof.Machine
end

