-- ==== Sys2Proof/Machine/Coil.lean ====
section
/-! DEFINITION. Coil's rows: readiness, persisting lines, the mirror, headers, space, replay, failure (R311 to R331, R346). -/

namespace Sys2Proof.Machine

/-- COIL_READY (R324): Border's region is replayed, which ends step 1 and sets coil_ready. -/
def execCoilReady (s : State) : Result := fast s <|
  if starting s && s.boot.fusesLoaded && !s.boot.coilReady then .next { s with boot.coilReady := true, col.replayStep := 1 }
  else .next s

/-- The place of the oldest data record that is not released and already placed. -/
def oldestPlaced (s : State) : Option Nat :=
  s.nv.journal.findSome? fun r => match r.body with
    | .data id d _ => if r.released then none else (bundleOf s d id).bind fun b => b.place.map (·.1)
    | _ => none

/-- Above the fill of PID 0x0902 the open segment of the oldest unreleased data record is sealed early (R322, R345). -/
def fillSeals (s : State) : State :=
  if pidVal s 0x0902 * 100 < coilFill s then
    match oldestPlaced s with
    | some g => sealEarlyWhere (fun x => x.num == g) s
    | none => s
  else s

/-- COIL_LINES_PERSISTED (R313, R318, R322, R328). -/
def execCoilLinesPersisted (lines : Nat) (s : State) : Result := fast s <|
  let have_ := s.nv.accept.foldl (fun n a => n + a.lines) 0
  let r := persistLines lines s.nv.accept
  let s := wearCoil (min lines have_) { s with nv.accept := r.2 }
  .next (fillSeals (commitAdvance (recordsPersisted r.1 s)))

/-- The peer's records accepted into region 3 at their line offsets, those already there left out (R317, R320). -/
def acceptMirror (records : List CoilRec) (s : State) : State :=
  let new := records.filter fun r => decide (lastMirror s < r.jseq)
  let s := new.foldl (fun s r => storeLines true r.line r.lines r.bytes s) s
  { s with
    nv.mirror := s.nv.mirror ++ new
    nv.accept := s.nv.accept ++ new.map fun r => { mirror := true, jseq := r.jseq, lines := r.lines } }

/-- MIRROR (R317): while paired and while Coil accepts lines (R323); records that are all there already are acknowledged at once. -/
def execMirror (_line : Nat) (records : List CoilRec) (s : State) : Result := alive s <|
  if s.hdl.paired && !s.hdl.bridge && s.col.accepting then
    (if records.all fun r => decide (r.jseq ≤ lastMirror s) then .next (sendMirrorAck s) else .next (acceptMirror records s))
  else .next s

/-- An acknowledgement ends a catch-up that it reaches: the mirror is on, single_copy and refusing clear (R320). -/
def catchUpEnds (s : State) : State :=
  match s.col.catchUp with
  | none => s
  | some t => if t ≤ s.col.peerAck then { s with col.catchUp := none, col.mirrorOn := true, col.singleCopy := false, col.refusing := false } else s

/-- Region 3 released up to the peer's head (R321). -/
def releaseMirror (head : Nat) (s : State) : State := { s with nv.mirror := s.nv.mirror.filter fun r => decide (head ≤ r.jseq) }

/-- The returned head's replay has ended: its head_jseq lies past T, and the holder reopens its ports with FENCE_PORT, op 1
(R454; DEDUCED, log 46: no other message tells the holder). -/
def reopenPeer (head : Nat) (s : State) : State :=
  if s.hdl.holder && s.nv.header3.tookOver && decide (s.nv.header3.takeoverJseq < head) then
    tellPacks 0x40 1 (putHeader true { s.nv.header3 with tookOver := false } s)
  else s

/-- MIRROR_ACK (R317, R318): the peer's persisted point, never beyond what was sent, and its release point. -/
def execMirrorAck (persisted released : Nat) (s : State) : Result := alive s <|
  if !s.hdl.paired || s.hdl.bridge then .next s
  else
    let ack := max s.col.peerAck (min persisted (s.nv.nextJseq - 1))
    let s := { s with
      col.peerAck := ack
      col.ackSince := if ack < s.col.sent then (if s.col.ackSince.isSome then some s.now else none) else none }
    .next (commitAdvance (reopenPeer released (releaseMirror released (catchUpEnds s))))

/-- MIRROR_ACK_TIMEOUT (R319): an acknowledgement is outstanding; the time has come (log 16). -/
def execMirrorAckTimeout (s : State) : Result := alive s <| if s.col.ackSince.isSome then .next (mirrorLoss s) else .next s

/-- JOURNAL_HEADER_WRITE (R321): metadata pages take the deltas applied so far, and the header names the new head. -/
def execJournalHeaderWrite (s : State) : Result := alive s <|
  if !s.col.accepting then .next s
  else
    let s := releaseDeltas s
    if s.col.headMoved = 0 then .next s else .next (writeHeader2 s)

/-- Waiting records placed while they fit (R322). -/
def placeWaiting : Nat → State → State
  | 0, s => s
  | n + 1, s =>
    match s.col.waiting with
    | [] => s
    | b :: bs =>
      if coilFits s (recLines s b) then placeWaiting n (placeRecord b { s with col.waiting := bs, col.fullWait := bs != [] })
      else s

/-- WAITING_RECORD_APPEND (R322). -/
def execWaitingRecordAppend (s : State) : Result := alive s <|
  if s.col.accepting then .next (placeWaiting s.col.waiting.length s) else .next s

/-! ### Replay (R324 to R326) -/

/-- REPLAY_START (R324): step 2 reads both streams; a torn record at the end counts code 0x092. -/
def execReplayStart (s : State) : Result := alive s <|
  if s.col.replayStep = 1 then .next (countIf s.nv.torn 0x092 { s with col.replayStep := 2, nv.torn := false })
  else .next s

/-- The last band record of a band in the stream. -/
def lastBandRec (s : State) (band : Nat) : Option CoilBody :=
  (s.nv.journal.filter fun r => match r.body with | .band b _ _ _ _ _ => b == band | _ => false).getLast?.map (·.body)

/-- Step 2: the last band state record of every band is applied; a band whose open record was never durable is gone
(R324, R385). -/
def replayBands (s : State) : State :=
  let s := s.nv.bands.foldl (fun s b => match lastBandRec s b.num with
    | some (.band n st _ row gen batch) => if st = b.state then s else bandDurable n st row gen batch s
    | _ => s) s
  { s with nv.bands := s.nv.bands.filter fun b => b.state != 6 }

/-- Bands left at ERASE_PENDING are erased (R324, R393). -/
def replayErases (s : State) : State :=
  (s.nv.bands.filter fun b => b.state == 3 && b.sideB == s.aon.side).foldl (fun s b => eraseBand b.num s) s

/-- Step 3: Table 13-3 for one segment of this head that was not sealed. -/
def replaySegment (x : Segment) (s : State) : State :=
  if x.state = 1 then
    let s := x.positions.foldl (fun s p => voidPos x.num p.idx s) s
    countEvent 0x0A2 0 (updSeg x.num (fun x => { x with state := 3 }) { s with lay.voidSegs := satAdd (2 ^ 32 - 1) s.lay.voidSegs 1 })
  else
    x.positions.foldl (fun s p =>
      if p.state = 1 then voidStrip x.num p.idx s
      else if p.state = 0 then updSeg x.num (putPos { p with bundles := [], data := none }) s
      else s) s

/-- Step 3: this head's open segments (R346); one whose band is gone, or with nothing issued, was never begun. -/
def replaySegments (s : State) : State :=
  let s := { s with nv.segs := s.nv.segs.filter fun x =>
    (bandOf s (segBand x.num)).isSome && (x.sideB != s.aon.side || x.state != 0 || x.positions.any fun p => p.state != 0) }
  (s.nv.segs.filter fun x => x.sideB == s.aon.side && (x.state == 0 || x.state == 1)).foldl (fun s x => replaySegment x s)
    { s with nv.segs := s.nv.segs.map fun x => { x with sealing := false } }

/-- A delta names only bundles that are on flash or in the stream (R324 step 4). -/
def deltaWhole (s : State) (es : List DeltaEntry) : Bool :=
  es.all fun e => e.kind != 0 || (match storedOf s e.stored with
    | none => false
    | some x => match bundleOf s x.domain x.bundle with
      | none => false
      | some b => b.place.isSome || b.sideB != s.aon.side || s.nv.journal.any fun r => match r.body with | .data i d _ => i == b.id && d == b.domain | _ => false)

/-- Step 4: a committed part or operation applied, unless it has been (R324). -/
def replayCommit (r : CoilRec) (s : State) : State :=
  if r.jseq ≤ s.nv.applied then s
  else
    let done := fun (s : State) => { s with nv.applied := r.jseq }
    match r.body with
    | .commit _ d v _ _ _ _ => (match bodyAt s d with
        | some (.delta _ _ es) => if deltaWhole s es then done (applyDelta v es (markCommitted v es s)) else done (countEvent 0x095 0 s)
        | _ => done s)
    | .commitOp _ d _ => done (commitOpRecord d s)
    | _ => s

/-- Step 5: chunks that no applied delta names become garbage; their data records and deltas without a commit are
discarded (R324). -/
def replayDiscard (s : State) : State :=
  let s := { s with nv.stored := s.nv.stored.filter fun x => x.committed || refCount s x.id != 0 }
  releaseWhere (fun r => match r.body with
    | .data id d _ => (match bundleOf s d id with | some b => b.place.isNone && liveChunks s b == [] | none => true)
    | .delta .. => s.nv.journal.all fun q => match q.body with | .commit _ d _ _ _ _ _ => d != r.jseq | _ => true
    | .deltaOp .. => s.nv.journal.all fun q => match q.body with | .commitOp _ d _ => d != r.jseq | _ => true
    | _ => false) s

/-- Steps 2 to 5 after the read. -/
def replayApply (s : State) : State :=
  let s := replaySegments (replayBands s)
  let s := s.nv.journal.foldl (fun s r => replayCommit r s) s
  let s := replayDiscard (replayErases s)
  { s with col.replayStep := 5, col.commitPoint := s.nv.persisted, lay.resumed := s.nv.change != 0 }

/-- A port trained in the waves was found closed to this head (R325). -/
def fencedAtStart (s : State) : Bool := s.stk.ports.any fun p => p.fenced

/-- REPLAY_RESUME (R325): once every wave has ended; a fenced head stays held. -/
def execReplayResume (s : State) : Result := alive s <|
  if s.col.replayStep ≠ 2 ∨ s.boot.wavesDone % 256 ≠ 255 then .next s
  else if fencedAtStart s then .next { s with col.replayStep := 7, col.takenOver := true }
  else .next (replayApply s)

/-- Replay has ended: the patrol resumes where it had saved its progress (R399); bands whose segments are all closed are
sealed. -/
def endReplay (s : State) : State :=
  (s.nv.bands.filter fun b => b.sideB == s.aon.side).foldl (fun s b => sealBand b.num s)
    { s with col.replayStep := 6, med.patrolPos := s.nv.patrolSaved, med.patrolBegin := s.now }

/-- REPLAY_END (R324). -/
def execReplayEnd (s : State) : Result := alive s <| if s.col.replayStep = 5 then .next (endReplay s) else .next s

/-- COIL_FAILURE (R329): code 0x096, and the head goes fail-silent with class 0x08. -/
def execCoilFailure (s : State) : Result := fast s <| .next (failSilent 8 0x096 (countEvent 0x096 0 s))

end Sys2Proof.Machine
end

