-- ==== Sys2Proof/Machine/Hamper.lean ====
section
/-! DEFINITION. Accesses to the Hamper under its window entries, denied accesses, and the Rim's rings (R19, R22 to R30, R312). -/

namespace Sys2Proof.Machine

/-! ### Planes and denials (R19, R24, R467, R472) -/

/-- The plane a Data Mover lane acts for (Table 18-1). -/
def lanePlane (n : Nat) : Nat := if n < 8 then 1 else if n < 14 then 2 else 3

/-- Lanes 14 and 15 act for array software. -/
def serviceLane (n : Nat) : Bool := decide (14 ≤ n)

/-- The limits of the service lanes on one byte: never a fixed entry, entry 12 for reading only (R472). -/
def serviceLimit (wins : List Win) (write : Bool) (a : Nat) : Bool :=
  match winOf wins a with
  | some n => !((wins[n]?).getD { base := 0 }).fixed && !(n == 12 && write)
  | none => false

/-- A lane may read or write every byte of a Hamper range. -/
def laneAllows (s : State) (lane : Nat) (write : Bool) (a n : Nat) : Bool :=
  winAllowsRange s.ham.win (lanePlane lane) write a n &&
  (!serviceLane lane || (List.range n).all fun k => serviceLimit s.ham.win write (a + k))

/-- A denied Hamper access: captured where none is, code 0x012 counted (R24). -/
def deniedHam (plane addr : Nat) (write : Bool) (s : State) : State :=
  countEvent 0x012 0 { s with ham.viol := captureViol s.ham.viol plane (addr % 2 ^ 48) write }

/-- A denied Coil access (R312). -/
def deniedCol (plane addr : Nat) (write : Bool) (s : State) : State :=
  countEvent 0x012 0 { s with col.viol := captureViol s.col.viol plane (addr / 64) write }

/-- The fault of a denied access by an engine: class 0x02 (R24). -/
def engineDenied (s : State) : State := failSilent 2 0x012 s

/-- Coil's regions: base and end in MiB, owner, and the codes of the data, control and management planes (Table 12-1). -/
def coilRegions : List (Nat × Nat × Nat × Nat × Nat × Nat) :=
  [ (0, 1024, 3, 0, 0, 0), (1024, 1280, 3, 0, 0, 0), (1280, 25856, 1, 0, 1, 0), (25856, 50432, 1, 0, 1, 0), (50432, 50560, 1, 0, 1, 0),
    (50560, 50568, 1, 0, 0, 0), (50568, 54664, 2, 0, 0, 1), (54664, 65536, 0, 0, 0, 0) ]

/-- The region of Coil that holds an address. -/
def coilRegion (a : Nat) : Option (Nat × Nat × Nat × Nat × Nat × Nat) :=
  coilRegions.find? fun r => decide (r.1 * 1048576 ≤ a) && decide (a < r.2.1 * 1048576)

/-- A plane may read or write a Coil address (R26). -/
def coilAllows (plane : Nat) (write : Bool) (a : Nat) : Bool :=
  match coilRegion a with
  | none => false
  | some r =>
    let code := if r.2.2.1 = plane then 3 else if plane = 1 then r.2.2.2.1 else if plane = 2 then r.2.2.2.2.1 else r.2.2.2.2.2
    if write then code / 2 == 1 else code % 2 == 1

/-- The range holds a line with an uncorrectable error (R518). -/
def poisonedIn (s : State) (a n : Nat) : Bool := s.ham.poisoned.any fun l => decide (l * 64 < a + n) && decide (a < l * 64 + 64)

/-- A data-plane engine writes the Hamper under the window table; a denied write is its fault (R16, R24). -/
def engineWrite (a : Nat) (bytes : List Byte) (s : State) : State :=
  if winAllowsRange s.ham.win 1 true a bytes.length then { s with ham.mem := memWrite s.ham.mem a bytes }
  else engineDenied (deniedHam 1 a true s)

/-- What an engine's read of the Hamper meets: a denied range or a poisoned line is its fault (R24, R518). -/
def engineReads (a n : Nat) (s : State) : Option State :=
  if !winAllowsRange s.ham.win 1 false a n then some (engineDenied (deniedHam 1 a false s))
  else if poisonedIn s a n then some (failSilent 1 0 s)
  else none

/-- A step of a plane: the management plane's goes on through fail-silence and Doze (R520, Table 03-4). -/
def planeStep (plane : Nat) (s : State) (r : Result) : Result := if plane = 3 then fast s r else engine s r

/-! ### HAMPER_ACCESS (R24) -/

/-- A read returns its bytes, or writes its bytes; an engine that reads a poisoned line is class 0x01 (R518). -/
def accessDone (engine write : Bool) (addr : Nat) (bytes : List Byte) (s : State) : State :=
  if write then { s with ham.mem := memWrite s.ham.mem addr bytes }
  else if engine && poisonedIn s addr bytes.length then failSilent 1 0 s
  else emit (.memRead (memRead s.ham.mem addr bytes.length)) s

/-- HAMPER_ACCESS: of a read, the operand gives the length. -/
def execHamperAccess (src : AccessSrc) (write : Bool) (addr : Nat) (bytes : List Byte) (s : State) : Result := fast s <|
  match src with
  | .dataEngine => engine s <|
    if winAllowsRange s.ham.win 1 write addr bytes.length then .next (accessDone true write addr bytes s)
    else .next (engineDenied (deniedHam 1 addr write s))
  | .controlCore => engine s <|
    if winAllowsRange s.ham.win 2 write addr bytes.length then .next (accessDone false write addr bytes s)
    else .next (emit .accessError (deniedHam 2 addr write s))
  | .mgmtCore =>
    if winAllowsRange s.ham.win 3 write addr bytes.length then .next (accessDone false write addr bytes s)
    else .next (emit .accessError (deniedHam 3 addr write s))
  | .lane n => engine s <|
    if laneAllows s n write addr bytes.length then .next (accessDone true write addr bytes s)
    else if serviceLane n then .next (deniedHam 3 addr write s)
    else .next (engineDenied (deniedHam (lanePlane n) addr write s))

/-! ### The Rim (R27 to R30) -/

/-- The entries of a ring. -/
abbrev rimCap : Nat := 256

/-- The producer's and the consumer's plane of a ring, fixed in hardware (Table 01-4). -/
def rimPlanes (n : Nat) : Nat × Nat :=
  if n < 16 then (1, 2) else if n < 32 then (2, 1) else if n < 40 then (3, 2) else if n < 48 then (2, 3)
  else if n < 56 then (1, 3) else if n < 60 then (3, 1) else if n < 62 then (2, 1) else (1, 2)

/-- Cores produce into a ring; into the others, engines and the Weaver do (Table 01-4). -/
def rimByCore (n : Nat) : Bool := (decide (16 ≤ n) && decide (n < 48)) || (decide (56 ≤ n) && decide (n < 60))

/-- A ring of the Rim. -/
def rimOf (s : State) (n : Nat) : Rim := (s.ham.rim[n]?).getD {}

/-- The queue of a hardware producer is stalled: a full ring holds up an entry of it (R30). -/
def rimStalls (s : State) (who : Nat) : Bool := s.ham.rim.any fun r => r.held.any fun e => e.1 == who

/-- A hardware producer's queue posts an entry: into the ring, or held while it is full (R30). -/
def rimPost (n who : Nat) (entry : List Byte) (s : State) : State :=
  { s with ham.rim := updAt n (fun r =>
      if r.entries.length < rimCap ∧ r.held = [] then { r with entries := r.entries ++ [padTo 64 entry] }
      else { r with held := r.held ++ [(who, padTo 64 entry)] }) s.ham.rim }

/-- Every write pending in the write-through buffer is accepted by the arbiter, in order. -/
def drainAll (s : State) : State := { s with mch.wt := [], ham.mem := s.mch.wt.foldl (fun m w => memWrite m w.1 w.2) s.ham.mem }

/-- RIM_POST: only a ring's own producer posts to it (R27). A control core's earlier writes have been accepted first (R28). A core
that finds its ring full is told so, and no entry is posted (R30). -/
def execRimPost (ring : Nat) (core : Bool) (entry : List Byte) (s : State) : Result := planeStep (rimPlanes ring).1 s <|
  if 64 ≤ ring ∨ core ≠ rimByCore ring then .next s
  else if core && decide (rimCap ≤ (rimOf s ring).entries.length) then .next (emit (.rimFull ring) s)
  else .next (rimPost ring 17 entry (if core && (rimPlanes ring).1 == 2 then drainAll s else s))

/-- The oldest entry of a ring has been taken; a held one follows into the place it leaves. -/
def rimShift (ring : Nat) (s : State) : State :=
  { s with ham.rim := updAt ring (fun r => { r with
      entries := r.entries.drop 1 ++ (r.held.take 1).map (·.2), held := r.held.drop 1 }) s.ham.rim }

/-- RIM_TAKE: the consumer's plane takes the oldest entry. -/
def execRimTake (ring : Nat) (s : State) : Result := planeStep (rimPlanes ring).2 s <|
  match (rimOf s ring).entries with
  | [] => .next s
  | e :: _ =>
    .next (emit (.rimNotice ring (rimPlanes ring).2 e) (rimShift ring s))

/-! ### C0's PLEM function (R17) -/

/-- The C0 PLEM function writes a packet and its parameter block into Hamper region 2, under entry 2 of the window table, and posts a
notice that names the address and the length on a ring of 48 to 55 (Table 01-4). The manual states neither the place in the
region nor which of the eight rings: free values (log 140). A region too small for them takes nothing. -/
def stagePacket (ring : Nat) (bytes : List Byte) (s : State) : State :=
  let w := (s.ham.win[2]?).getD { base := 0 }
  let room := winSize s 2
  if room < bytes.length then s
  else
    let a := winBase s 2 + freeBelow (room - bytes.length + 1) s
    let s := drewFree s
    if w.enable && winCode w 1 / 2 == 1 then
      rimPost (48 + freeBelow 8 s) (18 + ring) (leBytes 8 a ++ leBytes 4 bytes.length)
        (drewFree { s with ham.mem := memWrite s.ham.mem a bytes })
    else engineDenied (deniedHam 1 a true s)

end Sys2Proof.Machine
end

