-- ==== Sys2Proof/Machine/RegMap.lean ====
section
/-! DEFINITION. The register map of BAR0: which offsets hold a register, their access types and their 64-bit pairs
(R539 to R547). -/

namespace Sys2Proof.Machine

/-- Access types (Table 22-2). A register with fields of several types takes the type that a write can act on. -/
inductive RegKind where
  | ro | rw | w1c | wo | rc | rwl
  deriving DecidableEq, Repr

/-- A set of registers: first BAR0 offset, stride, instances (R547). -/
structure RegSet where
  first : Nat
  stride : Nat
  count : Nat
  kind : RegKind
  /-- 0 a single register, 1 the _LO half of a 64-bit quantity, 2 the _HI half (R541). -/
  half : Nat := 0
  deriving DecidableEq, Repr

/-- `n` registers side by side. -/
def regRun (first n : Nat) (k : RegKind) : List RegSet := [{ first := first, stride := 4, count := n, kind := k }]

/-- A _LO, _HI pair, or a replicated set of them (R541). -/
def regPair (first stride n : Nat) (k : RegKind) : List RegSet :=
  [{ first := first, stride := stride, count := n, kind := k, half := 1 },
   { first := first + 4, stride := stride, count := n, kind := k, half := 2 }]

/-- One register of a replicated set. -/
def regRep (first stride n : Nat) (k : RegKind) : List RegSet := [{ first := first, stride := stride, count := n, kind := k }]

/-- AON, CLK, PWR, FUS, BRD and PLM (Tables 22-3, 05-15, 04-2). -/
def regsManagement : List RegSet :=
  regRun 0x00000 1 .ro ++ regRun 0x00010 1 .ro ++ regRun 0x10000 2 .ro ++ regRun 0x20000 3 .ro ++
  regPair 0x30000 8 1 .ro ++ regRun 0x30008 1 .ro ++
  regRun 0x40000 1 .w1c ++ regRun 0x40004 1 .rc ++ regPair 0x40008 8 1 .ro ++ regPair 0x40010 8 1 .ro ++
  regPair 0x40018 8 1 .ro ++ regRun 0x40020 1 .ro ++ regRun 0x40040 6 .ro ++ regRun 0x40060 12 .ro ++
  regPair 0x51000 0x40 60 .rw ++ regPair 0x51008 0x40 60 .rw ++ regRep 0x51010 0x40 60 .rw ++ regRep 0x51014 0x40 60 .wo ++
  regRep 0x51018 0x40 60 .wo ++ regRep 0x5101C 0x40 60 .w1c ++ regRep 0x51020 0x40 60 .ro ++ regRep 0x51024 0x40 60 .ro

/-- HFE, RLK and RMA (Tables 07-13, 08-7, 09-9). -/
def regsHost : List RegSet :=
  regRun 0x60010 1 .ro ++ regRun 0x60014 1 .rc ++ regRun 0x60018 1 .ro ++ regRun 0x60020 1 .rw ++ regRun 0x60024 1 .ro ++
  regRun 0x60030 3 .rc ++ regRun 0x60040 1 .ro ++ regRun 0x60044 1 .rc ++ regRun 0x60100 32 .ro ++
  regRun 0x70000 1 .ro ++ regRun 0x70004 1 .rc ++ regRun 0x70008 1 .ro ++ regRun 0x70010 3 .rc ++ regRun 0x70020 1 .rw ++
  regRun 0x70024 2 .ro ++ regPair 0x70030 8 1 .ro ++ regPair 0x70038 8 1 .ro ++ regPair 0x70040 8 1 .ro ++
  regRun 0x80000 5 .ro ++ regRun 0x80014 3 .rc ++ regRun 0x80020 1 .ro ++ regRun 0x80024 1 .rc ++ regRun 0x80028 1 .ro ++
  regRun 0x80030 1 .rw ++ regRun 0x80034 1 .ro ++ regPair 0x80038 8 1 .ro ++ regPair 0x80040 8 1 .ro ++ regRun 0x80048 1 .ro

/-- RED, CIP, COL and HAM (Tables 10-8, 11-8, 12-12, 22-3). -/
def regsStore : List RegSet :=
  regRun 0x90000 1 .ro ++ regRun 0x90004 10 .rc ++ regPair 0x90030 8 1 .ro ++ regRun 0x90038 1 .ro ++
  regRun 0xA0000 2 .ro ++ regRun 0xA0008 2 .rc ++ regRun 0xA0010 1 .ro ++ regRun 0xA0020 1 .rw ++ regRun 0xA0024 1 .ro ++
  regPair 0xA0028 8 1 .ro ++ regRun 0xA0100 64 .ro ++
  regRun 0xB0000 1 .w1c ++ regRun 0xB0004 2 .ro ++ regPair 0xB0010 8 1 .ro ++ regPair 0xB0018 8 1 .ro ++
  regPair 0xB0020 8 1 .ro ++ regRun 0xB0028 1 .rc ++ regRun 0xB0030 1 .w1c ++ regRun 0xB0034 1 .ro ++
  regRep 0xB0400 0x10 16 .ro ++ regRep 0xB0404 0x10 16 .ro ++ regRep 0xB0408 0x10 16 .ro ++
  regRun 0xC0000 1 .w1c ++ regPair 0xC0008 8 1 .ro ++ regRun 0xC0010 1 .w1c ++
  regRep 0xC0400 0x10 32 .rwl ++ regRep 0xC0404 0x10 32 .rwl ++ regRep 0xC0408 0x10 32 .rwl ++ regRun 0xC0800 64 .ro

/-- LAY, MED and STK (Tables 13-7, 14-8, 15-7, 16-8). -/
def regsMedia : List RegSet :=
  regRun 0xD0000 4 .ro ++ regRun 0xD0010 6 .rc ++ regRun 0xD0030 1 .rw ++ regRun 0xD0034 1 .ro ++ regRun 0xD0040 8 .ro ++
  regRun 0xD0080 1 .ro ++ regPair 0xD0084 8 1 .ro ++ regPair 0xD008C 8 1 .ro ++ regRun 0xD0094 3 .ro ++
  regRun 0xD00A0 2 .rc ++ regRun 0xD00A8 2 .ro ++ regPair 0xD00B0 8 1 .ro ++ regRun 0xD00B8 1 .ro ++
  regRun 0xE0000 1 .ro ++ regPair 0xE0008 8 1 .ro ++ regPair 0xE0010 8 1 .ro ++ regRun 0xE0018 6 .rc ++
  regRun 0xE0030 1 .ro ++ regRun 0xE0034 1 .rc ++ regRun 0xE0038 1 .ro ++ regRun 0xE003C 1 .rc ++ regRun 0xE0040 1 .ro ++
  regPair 0xF0000 8 1 .ro ++ regPair 0xF0008 8 1 .ro ++ regPair 0xF0010 8 1 .ro ++ regRep 0xF1000 0x40 64 .ro ++
  regRep 0xF1004 0x40 64 .rc ++ regRep 0xF1008 0x40 64 .rc ++ regRep 0xF100C 0x40 64 .rc ++ regRep 0xF1010 0x40 64 .rc ++
  regRep 0xF1014 0x40 64 .ro ++ regRep 0xF1018 0x40 64 .ro ++ regRep 0xF101C 0x40 64 .ro ++ regPair 0xF1020 0x40 64 .ro ++
  regRep 0xF1028 0x40 64 .ro ++ regRep 0xF102C 0x40 64 .ro ++ regRep 0xF1030 0x40 64 .ro ++ regRep 0xF1034 0x40 64 .ro

/-- HDL, DMV, MCH and WVR (Tables 17-8, 18-8, 18-10, 19-7). -/
def regsControl : List RegSet :=
  regRun 0x100000 2 .ro ++ regPair 0x100008 8 1 .ro ++ regPair 0x100010 8 1 .ro ++ regRun 0x100018 1 .ro ++
  regRun 0x10001C 2 .rc ++ regRun 0x100040 12 .ro ++ regRun 0x100100 1 .ro ++ regRun 0x100104 3 .rc ++
  regRun 0x110000 1 .ro ++ regRun 0x110008 2 .rc ++ regRep 0x110100 0x40 16 .ro ++ regRep 0x110104 0x40 16 .rc ++
  regPair 0x110108 0x40 16 .ro ++ regPair 0x110110 0x40 16 .ro ++ regPair 0x110498 0x40 2 .rw ++
  regPair 0x1104A0 0x40 2 .rw ++ regRep 0x1104A8 0x40 2 .rw ++ regRep 0x1104AC 0x40 2 .wo ++ regRep 0x1104B0 0x40 2 .wo ++
  regRun 0x120000 1 .ro ++ regRun 0x120004 1 .wo ++ regRun 0x120008 2 .ro ++ regRun 0x120010 1 .w1c ++
  regRun 0x120014 5 .rc ++ regPair 0x120030 8 1 .ro ++ regRun 0x120038 1 .ro ++ regRun 0x120040 1 .ro ++
  regRun 0x120044 1 .rc ++
  regRun 0x130000 2 .ro ++ regRun 0x130008 1 .rc ++ regPair 0x13000C 8 1 .ro ++ regRep 0x131000 0x20 64 .ro ++
  regRep 0x131004 0x20 64 .ro ++ regRep 0x131008 0x20 64 .ro ++ regPair 0x13100C 0x20 64 .ro ++ regRep 0x131014 0x20 64 .ro

/-- THM, EVR and SAF (Tables 20-7, 21-7, 20-8). -/
def regsSafety : List RegSet :=
  regRun 0x140000 3 .ro ++ regPair 0x14000C 8 1 .ro ++ regRun 0x140014 2 .rc ++ regRun 0x140100 37 .ro ++
  regRun 0x150000 2 .ro ++ regPair 0x150008 8 1 .ro ++ regRun 0x150010 1 .ro ++ regRun 0x150014 2 .rc ++
  regRun 0x15001C 1 .ro ++ regRun 0x150020 1 .rw ++ regPair 0x150024 8 1 .ro ++
  regRun 0x160000 2 .ro ++ regPair 0x160008 8 1 .ro ++ regPair 0x160010 8 1 .ro ++ regRun 0x160018 2 .rc ++
  regRun 0x160020 1 .ro ++ regRun 0x160040 8 .ro

/-- Every register of the 23 blocks. -/
def regMap : List RegSet :=
  regsManagement ++ regsHost ++ regsStore ++ regsMedia ++ regsControl ++ regsSafety

/-- A set holds a register at an offset. -/
def RegSet.holds (r : RegSet) (off : Nat) : Bool :=
  decide (r.first ≤ off) && (off - r.first) % r.stride == 0 && decide ((off - r.first) / r.stride < r.count)

/-- The set that holds the register at a BAR0 offset. -/
def regAt (off : Nat) : Option RegSet := regMap.find? (·.holds off)

/-- An offset holds a register. -/
def isReg (off : Nat) : Bool := (regAt off).isSome

/-- The access type at an offset; none where there is no register. -/
def regKind (off : Nat) : Option RegKind := (regAt off).map (·.kind)

/-- The offset lies in the PLM ring registers or the DMV_SVC registers, which REG_WRITE does not write (R546). -/
def plainWritable (off : Nat) : Bool :=
  !(decide (0x51000 ≤ off) && decide (off < 0x52000)) &&
  !(decide (0x110100 ≤ off) && decide (off < 0x110500) && decide (0x18 ≤ (off - 0x110100) % 0x40))

end Sys2Proof.Machine
end

