-- ==== Sys2Proof/Machine/Plem.lean ====
section
/-! DEFINITION. PLEM rings, the fetch and the checks of stages 0 to 5, starting commands, nonces and session ends
(R85 to R116). -/

namespace Sys2Proof.Machine

/-! ### Ring registers (R86 to R91) -/

/-- A ring is closed: its session ends, what it held and what its commands would post is discarded (R93). -/
def closeRing (n : Nat) (s : State) : State :=
  updRing n (fun r => { r with enable := false, held := [] }) (discardCmds n (endSession n s))

/-- PLM_RING_CFG_n written (R87, R89). -/
def ringCfgWrite (n v : Nat) (s : State) : State :=
  let r := ringOf s n
  let size := field v 0 4
  if r.enable && size != r.sizeLog2 then updRing n (fun r => { r with cfgErr := true }) s
  else if r.enable then
    let s := updRing n (fun r => { r with irqEn := bit v 30 }) s
    if bit v 31 then s else closeRing n s
  else
    let s := updRing n (fun r => { r with irqEn := bit v 30, sizeLog2 := size }) s
    if !bit v 31 then s
    else if size < 4 || 12 < size then updRing n (fun r => { r with cfgErr := true }) s
    else updRing n (fun r => { r with
      enable := true, sqHead := 0, sqTail := 0, cqTail := 0, cqHead := 0, phase := true, held := [], seq := 0, session := 0 }) s

/-- PLM_RING_CFG_WRITE: a write over the C0 link, which the PLEM function needs (R83). -/
def execPlmRingCfgWrite (ring : Nat) (value : Word) (s : State) : Result := fast s <|
  if ring < 60 ∧ s.boot.linkUpC0 then .next (ringCfgWrite ring value.toNat s) else .next s

/-- A C0 doorbell in Doze wakes the device (R72, R114). -/
def doorbellWakes (s : State) : State := if s.pwr.doze then { s with pwr.waking := true } else s

/-- PLM_RSQ_TAIL_n written (R90). -/
def tailDoorbell (n v : Nat) (s : State) : State :=
  let t := field v 0 12
  let s := doorbellWakes s
  if 2 ^ (ringOf s n).sizeLog2 ≤ t then updRing n (fun r => { r with dbErr := true }) s
  else updRing n (fun r => { r with sqTail := t }) s

/-- PLM_RSQ_TAIL_DOORBELL. -/
def execPlmRsqTailDoorbell (ring : Nat) (value : Word) (s : State) : Result := fast s <|
  if ring < 60 ∧ s.boot.linkUpC0 then .next (tailDoorbell ring value.toNat s) else .next s

/-- Held statuses are posted in order while there is room (R91). -/
def releaseHeld (n : Nat) : Nat → State → State
  | 0, s => s
  | k + 1, s =>
    let r := ringOf s n
    match r.held with
    | [] => s
    | h :: t => if cplFull n r then s else releaseHeld n k (placeStatus n h.1 h.2 (updRing n (fun r => { r with held := t }) s))

/-- PLM_RCQ_HEAD_n written (R90, R91). -/
def headDoorbell (n v : Nat) (s : State) : State :=
  let h := field v 0 12
  let s := doorbellWakes s
  if 2 ^ (ringOf s n).sizeLog2 ≤ h then updRing n (fun r => { r with dbErr := true }) s
  else
    let s := updRing n (fun r => { r with cqHead := h }) s
    releaseHeld n (ringOf s n).held.length s

/-- PLM_RCQ_HEAD_DOORBELL. -/
def execPlmRcqHeadDoorbell (ring : Nat) (value : Word) (s : State) : Result := fast s <|
  if ring < 60 ∧ s.boot.linkUpC0 then .next (headDoorbell ring value.toNat s) else .next s

/-! ### The check stages (Table 04-9) -/

/-- The origin of a ring (Table 04-1, R100). -/
def ringOrigin (n : Nat) : Nat := if n < 60 then 1 else if n < 62 then 2 else if n = 62 then 3 else 4

/-- The role bit set of an opcode holds a role. -/
def roleIn (roles role : Nat) : Bool := role != 0 && bit roles role

/-- The role an opcode requires, for AUTH.ROLE: the lowest of its roles, 0 for none (Table 04-14). -/
def roleNeeded (roles : Nat) : Nat := ((List.range 5).find? (bit roles)).getD 0

/-- The unmet conditions of R81, from bit 0. -/
def notReadyBits (s : State) : Nat :=
  flagAt (!s.boot.recSealed) 0 + flagAt (decide (pidVal s 0x0100 < recUndrained s)) 1 + flagAt (!s.boot.cfgSealed) 2 +
  flagAt (!s.boot.coilReady || s.col.replayStep != 6) 3

/-- A refusal of the check stages: status, detail, result. -/
abbrev Check := Option (Nat × Nat × Nat)

/-- The first of two checks that refuses. -/
def orElse (a b : Check) : Check := match a with | some r => some r | none => b

/-- A check that refuses when a condition holds. -/
def refuseIf (c : Bool) (status detail : Nat) : Check := if c then some (status, detail, 0) else none

/-- The role of the session bound to a ring, 0 for none. -/
def ringRole (s : State) (ring : Nat) : Nat := match sessionOn s ring with | some x => x.role | none => 0

/-- Stage 0: capacity, for a known audited opcode (R111, R137). -/
def stage0 (s : State) (ring : Nat) (p block : List Byte) : Check :=
  match opSpec (numAt p 0 2) with
  | none => none
  | some o =>
    refuseIf (o.audited && !tierAllows s o.code (ringRole s ring) (numAt p 24 1) (drainsOne s (numAt p 24 8) (block.take 48)))
      stAudFull 0

/-- Stage 1: the packet fields, in ascending offset (R13, R94 to R101). A pb_addr that is not zero on rings 60 to 62 is FMT.PARAM
(R95 states no status; DESIGN CHOICE, log 141). -/
def stage1 (s : State) (ring : Nat) (p block : List Byte) : Check :=
  let op := numAt p 0 2
  let fl := numAt p 2 1
  let sg := bit fl 0
  let r := ringOf s ring
  let pbLen := numAt p 12 4
  match opSpec op with
  | none => some (stFmtOpcode, 0, 0)
  | some o =>
    orElse (refuseIf (decide (8 ≤ fl)) stFmtRsvd 2) <|
    orElse (refuseIf (sg && !needsDual s op p block) stFmtFlags 2) <|
    orElse (refuseIf (numAt p 3 1 != 1) stFmtVersion 3) <|
    orElse (refuseIf (numAt p 4 4 != r.seq) stOrdSeq (r.seq % 65536)) <|
    orElse (refuseIf (numAt p 8 4 != r.session || (r.session == 0 && !o.u)) stAuthSession 0) <|
    match firstFail (lengthFails op p block sg ++
      failIf (decide (60 ≤ ring) && decide (block.length < pbLen)) 12 stLenOver ++
      failIf (decide (ring < 60) && pbLen != 0 && numAt p 16 8 % 8 != 0) 16 stFmtAlign ++
      failIf (decide (60 ≤ ring) && pbLen != 0 && numAt p 16 8 != 0) 16 stFmtParam ++ inlineFails s isReg plainWritable op p) with
    | some f => some (f.status, f.off, f.result)
    | none => none

/-- Stage 2: ownership, origin, role (R101, R102, R105, R115, R118). -/
def stage2 (s : State) (ring : Nat) (p : List Byte) : Check :=
  let op := numAt p 0 2
  let role := ringRole s ring
  match opSpec op with
  | none => none
  | some o =>
    orElse (refuseIf (!owned s && op != opOwnerEnroll && !(o.u && !o.audited)) stAuthUnowned 0) <|
    orElse (refuseIf (ring == 62 && !o.peer) stAuthOrigin 3) <|
    orElse (refuseIf ((ring == 60 || ring == 61) && (ringOf s ring).session != 0 && !bit (pidVal s 0x0012) (opClass op))
      stAuthOrigin 2) <|
    if (ringOf s ring).session = 0 ∨ ring = 62 ∨ op = opSysIdentify then none
    else if o.perPid then
      (if op = opSetParam then
        let need := pidRole (numAt p 24 2)
        refuseIf (role != need) stAuthRole need
       else none)
    else refuseIf (!roleIn o.roles role) stAuthRole (if o.u then 0 else roleNeeded o.roles)

/-- Stage 3: the device's state (R81, R114). -/
def stage3 (s : State) (p : List Byte) : Check :=
  let op := numAt p 0 2
  let st := devState s
  match opSpec op with
  | none => none
  | some o =>
    if op = opServiceStart ∨ op = opPortEnable then
      let held := !s.boot.service && (if op = opServiceStart then notReadyBits s != 0 else !s.boot.served)
      refuseIf (!bit o.states st || held) stOrdNotready (notReadyBits s)
    else refuseIf (!bit o.states st) stOrdState st

/-- A ring's nonce, while its 10 s last (R103). -/
def validNonce (s : State) (ring : Nat) : Option (List Byte) :=
  match (ringOf s ring).nonce with
  | some n => if s.now ≤ n.2 + 10000000000 then some n.1 else none
  | none => none

/-- SESSION_OPEN's credentials, in order (R103): the block holds the chain, then the 96-byte signature (DEDUCED,
log 21). -/
def credentialCheck (s : State) (ring : Nat) (p block : List Byte) : Check :=
  let role := numAt p 24 1
  let chain := block.take (block.length - 96)
  let sig := block.drop (block.length - 96)
  if !Config.chainLeadsTo chain s.nv.fuses.ownerRoot || (s.brd.wallValid && !Config.chainValidAt chain (wallNow s)) then
    some (stAuthCert, 2, 0)
  else if Config.leafUnit chain ≠ roleName role then some (stAuthCert, 2, 0)
  else match validNonce s ring with
    | none => some (stAuthSig, 2, 0)
    | some n =>
      let signedPart := Config.sha384 (leBytes 8 s.nv.bootCounter ++ n ++ [BitVec.ofNat 8 ring, BitVec.ofNat 8 role])
      refuseIf (!Config.verifyEcdsa (Config.leafKey chain) signedPart sig) stAuthSig 2

/-- Stage 4: the parameter block, then the signature block's shape (R103, R108, R119, R120). -/
def stage4 (s : State) (ring : Nat) (p block : List Byte) : Check :=
  let op := numAt p 0 2
  let sg := bit (numAt p 2 1) 0
  let own : Check :=
    if op = opSessionOpen then credentialCheck s ring p block
    else if op = opSetParam then
      (if 0x0440 ≤ numAt p 24 2 ∧ numAt p 24 2 < 0x0460 then
        match subBlockCheck block with
        | some f => some (f.1, blockDetail f.2, 0)
        | none => none
       else none)
    else if op = opSetParams then
      match entriesCheck (ringRole s ring) block (numAt p 24 4) 0 [] s with
      | some f => some (f.1, f.2, 0)
      | none => none
    else none
  orElse own <|
    if !sg then none
    else
      let fixed := if op = opSetParams then 16 * numAt p 24 4 else (blockBounds op p).1
      match sigShape fixed block with
      | some f => some (f.1, f.2, 0)
      | none => refuseIf (decide ((blockBounds op p).2 < sigOff block)) stLenOver 12

/-- Stage 5: dual control (R107, R110). -/
def stage5 (s : State) (ring : Nat) (p block : List Byte) : Check :=
  if needsDual s (numAt p 0 2) p block then
    let key := match sessionOn s ring with | some x => x.leafKey | none => []
    match dualCheck s key p block (bit (numAt p 2 1) 0) with
    | some f => some (f.1, f.2, 0)
    | none => none
  else none

/-- Stages 0 to 3. -/
def earlyStages (s : State) (ring : Nat) (p block : List Byte) : Check :=
  orElse (stage0 s ring p block) (orElse (stage1 s ring p block) (orElse (stage2 s ring p) (stage3 s p)))

/-- Stages 4 and 5. -/
def lateStages (s : State) (ring : Nat) (p block : List Byte) : Check :=
  orElse (stage4 s ring p block) (stage5 s ring p block)

/-- The bytes of the parameter block the device copies (R92): pb_len bytes, on rings 60 to 62 those of the message. -/
def blockCopy (ring : Nat) (p block : List Byte) : List Byte :=
  let n := numAt p 12 4
  if 60 ≤ ring then block.take n else if n ≤ 1048576 then padTo n block else []

/-- A packet taken whole and checked (R92, R98, R111): a matching sequence advances the expected number; a SESSION_OPEN
that reaches stage 4 uses the nonce; a refused command posts its status, after its entry where its opcode is audited;
an accepted one waits to start. -/
def takePacket (ring : Nat) (packet block : List Byte) (peerTag : Option Nat) (s : State) : State :=
  let p := padTo 64 packet
  let b := blockCopy ring p block
  let op := numAt p 0 2
  let early := earlyStages s ring p (if 60 ≤ ring then block else b)
  let check := orElse early (lateStages s ring p b)
  let r := ringOf s ring
  let matched := numAt p 4 4 == r.seq
  let usedNonce := early.isNone && op == opSessionOpen
  let c : Cmd := { ring := ring, seq := numAt p 4 4, opcode := op, packet := p, block := b, session := r.session,
                   role := ringRole s ring, uid := s.plem.nextUid, peerTag := peerTag,
                   dualOk := check.isNone && needsDual s op p b }
  let s := updRing ring (fun r => { r with
    seq := if matched then (r.seq + 1) % 2 ^ 32 else r.seq
    nonce := if usedNonce then none else r.nonce }) s
  let s := { s with
    plem.nextUid := s.plem.nextUid + 1
    plem.sessions := updWhere (fun x => x.ring == ring && x.id == numAt p 8 4) (fun x => { x with lastUse := s.now }) s.plem.sessions }
  match check with
  | none => { s with plem.cmds := s.plem.cmds ++ [c] }
  | some (status, detail, result) =>
    let audited := match opSpec op with | some o => o.audited | none => false
    if audited && status != stAudFull then holdCommand c { status := status, detail := detail, result := result } s
    else finishCmd c (statusOf c status detail result false s) s

/-- The commands of a ring in progress. -/
def ringRunning (s : State) (ring : Nat) : Nat := (s.plem.cmds.filter fun c => c.ring == ring && c.running).length

/-- The management cores interpret the packets of a ring: PLEM is ready, over MCTP from full sideband service (Table 03-5), not in
Doze, its cores not halted by class 0x03 or 0x04 (R520). -/
def plemRuns (s : State) (ring : Nat) : Bool :=
  (if ring = 60 ∨ ring = 61 then s.boot.sbFull else s.boot.plemReady) && !s.pwr.doze && !s.saf.mgmtHalted

/-- A power-loss stop has reached the front ends: no command of any kind is taken (Table 02-12). -/
def takesNone (s : State) : Bool := s.boot.stopping && s.boot.frontEndsStopped

/-- A device-internal ring takes a packet: it runs and is below its limit in progress. -/
def internalTakes (s : State) (n : Nat) : Bool := plemRuns s n && !takesNone s && decide (ringRunning s n < pidVal s 0x0010)

/-- A packet arrives on a device-internal ring: taken at once, or behind those that wait in the ring's submission part (R85, R112); a
ring that holds as many as it may (R90) takes none (DESIGN CHOICE, log 142: the manual states no answer). -/
def internalArrive (n : Nat) (packet block : List Byte) (peerTag : Option Nat) (s : State) : State :=
  let r := ringOf s n
  if r.queue = [] ∧ internalTakes s n then takePacket n packet block peerTag s
  else if r.queue.length + 1 < ringSize n r then updRing n (fun r => { r with queue := r.queue ++ [(packet, block)] }) s
  else s

/-- The oldest packet that waits in a device-internal ring is taken. -/
def internalFetch (n : Nat) (s : State) : State :=
  match (ringOf s n).queue with
  | [] => s
  | e :: t =>
    if internalTakes s n then
      takePacket n e.1 e.2 (if n = 62 then some 0 else none) (updRing n (fun r => { r with queue := t }) s)
    else s

/-- PLEM_PACKET_FETCH (R90, R111, R112): the next packet of an enabled ring below its limit in progress, over the C0 link
(R83); on rings 60 to 62 the oldest that waits. -/
def execPlemPacketFetch (ring : Nat) (packet block : List Byte) (s : State) : Result := fast s <|
  let r := ringOf s ring
  if 60 ≤ ring ∧ ring < 63 then .next (internalFetch ring s)
  else if decide (ring < 60) && r.enable && r.sqHead != r.sqTail && s.boot.linkUpC0 && !takesNone s && !rimStalls s (18 + ring) && plemRuns s ring && decide (ringRunning s ring < pidVal s 0x0010) then
    .next (takePacket ring packet block none (stagePacket ring (packet ++ block) (updRing ring (fun r => { r with sqHead := (r.sqHead + 1) % 2 ^ r.sizeLog2 }) s)))
  else .next s

/-- The waiting command that a ring starts next: the first, if its fence and a fence before it allow (R112). -/
def startable (s : State) (ring : Nat) : Option Cmd :=
  match (ringCmds s ring).find? (fun c => !c.running) with
  | none => none
  | some c =>
    let fence := fun (c : Cmd) => bit (pk c 2 1) 1
    let before := (ringCmds s ring).filter (·.running)
    if (fence c && before != []) || before.any (fun x => fence x && decide (x.uid < c.uid)) then none else some c

/-- A CIPHER_OP finds fewer than PID 0x0801 of them in progress; another command needs none of them to end (R308). -/
def cipherRoom (s : State) (c : Cmd) : Bool :=
  c.opcode != opCipherOp || decide ((s.plem.cmds.filter fun x => x.running && x.opcode == opCipherOp).length < pidVal s 0x0801)

/-- PLEM_COMMAND_START (R91, R112, R308). -/
def execPlemCommandStart (ring : Nat) (s : State) : Result := fast s <|
  let r := ringOf s ring
  match startable s ring with
  | none => .next s
  | some c =>
    if plemRuns s ring && decide (ringRunning s ring < pidVal s 0x0010) &&
        decide ((s.plem.cmds.filter (·.running)).length < 256) && cipherRoom s c && !cplFull ring r && r.held == [] then
      .next { s with plem.cmds := updWhere (fun x => x.uid == c.uid) (fun x => { x with running := true }) s.plem.cmds }
    else .next s

/-- A fetch over C0 failed: the ring is disabled, fetch_err set, its session closed, code 0x020 counted (R93). -/
def fetchFailed (ring : Nat) (s : State) : State :=
  let r := ringOf s ring
  if ring < 60 ∧ r.enable then
    countEvent 0x020 0 (updRing ring (fun r => { r with fetchErr := true }) (closeRing ring s))
  else s

/-- C0_FETCH_FAILURE (R93). -/
def execC0FetchFailure (ring : Nat) (s : State) : Result := fast s <| .next (fetchFailed ring s)

/-- C0_FETCH_TIMEOUT (R93): 50 ms have passed (log 16). -/
def execC0FetchTimeout (ring : Nat) (s : State) : Result := fast s <| .next (fetchFailed ring s)

/-- NONCE_EXPIRY (R103). -/
def execNonceExpiry (ring : Nat) (s : State) : Result := fast s <| .next (updRing ring (fun r => { r with nonce := none }) s)

/-- SESSION_IDLE_TIMEOUT (R115): with a timeout set, an idle session is closed. -/
def execSessionIdleTimeout (ring : Nat) (s : State) : Result := fast s <|
  if ring < 63 ∧ pidVal s 0x0011 ≠ 0 ∧ (ringOf s ring).session ≠ 0 then .next (endSession ring s) else .next s

/-! ### PLEM over MCTP (R77, R104) -/

/-- The ring of a secured session: its own, else a free one of 60 and 61. -/
def mctpRing (s : State) (sess : Nat) : Option Nat :=
  match [60, 61].find? (fun n => (ringOf s n).spdm == some sess) with
  | some n => some n
  | none => [60, 61].find? (fun n => (ringOf s n).spdm == none)

/-- PLEM_OVER_MCTP: outside a secured session AUTH.ORIGIN; a third session RES.EXHAUSTED; before full service
ORD.NOTREADY; beyond the limit in progress the packet waits in its ring (R112). Over C0's MCTP there is no PLEM (R104). -/
def execPlemOverMctp (onC0 : Bool) (secured : Option Nat) (eid : Nat) (packet block : List Byte) (s : State) : Result :=
  if !mctpAnswers s && !onC0 then .next s
  else if onC0 then .next (sendMctp (.mctpPlem stAuthOrigin 2) s)
  else if !fullService s then .next (sendMctp (.mctpPlem stOrdNotready (notReadyBits s)) s)
  else match secured with
    | none => .next (sendMctp (.mctpPlem stAuthOrigin 2) s)
    | some k =>
      if !s.brd.spdm.any (fun x => x.1 == k && x.2.1) then .next (sendMctp (.mctpPlem stAuthOrigin 2) s)
      else match mctpRing s k with
        | none => .next (sendMctp (.mctpPlem stResExhausted 0) s)
        | some n => .next (internalArrive n packet block none (updRing n (fun r => { r with spdm := some k, eid := eid }) s))

end Sys2Proof.Machine
end

