-- ==== Sys2Proof/Machine/Stake.lean ====
section
/-! DEFINITION. Stake Link: the link layer, the start of a port, the packs' responses and their outcomes, pack firmware (R409
to R434, R169). -/

namespace Sys2Proof.Machine

/-! ### Conditions of members (R340, R359, R361) -/

/-- The open segments whose row holds a port are sealed early (R345, R361). -/
def sealRowsOf (port : Nat) (s : State) : State :=
  sealEarlyWhere (fun x => match bandOf s (segBand x.num) with | some b => b.blocks.any fun e => e.1 == port | none => false) s

/-- The erases a member owes are issued once it is reached (R394). -/
def sendOwed (port : Nat) (s : State) : State :=
  (s.nv.owedErases.filter fun e => e.1 == port).foldl (fun s e => sendReq port { tag := 0, cmd := 0x12, block := e.2, why := 8 } s) s

/-- An episode in which one head reaches a member and the other does not: code 0x0A6 once; the head that does not reach it seals
its segments (R361). -/
def oneHeadEpisode (port : Nat) (here there : Bool) (s : State) : State :=
  if here != there && s.hdl.paired then
    (if s.lay.oneHead.contains port then s
     else
       let s := countEvent 0x0A6 0 { s with lay.oneHead := insertNat port s.lay.oneHead }
       if here then s else sealRowsOf port s)
  else { s with lay.oneHead := s.lay.oneHead.filter (· != port) }

/-- A firmware load takes a pack out of placement on this head (R169). -/
def loadsHere (s : State) (port : Nat) : Bool := !s.hdl.holder || s.fw.packLoadPort == some port

/-- A member's condition follows who reaches it: absent when neither head does (R359; DESIGN CHOICE, log 40: each head keeps
its own record of absence). A holder that no longer loads a pack, after a reset or a takeover, takes it back (DEDUCED, log 104). -/
def updateMember (port : Nat) (s : State) : State :=
  match packOf s port with
  | none => s
  | some p =>
    if !isMember s port || !(p.cond == 0 || p.cond == 1 || (p.cond == 2 && !loadsHere s port)) then s
    else
      let here := memberHere s p
      let there := peerReaches s port
      let s := if here || there then
          let s := updPack port p.identity (fun p => { p with cond := 0 }) s
          if here && p.cond == 1 then sendOwed port s else s
        else if p.cond = 1 then s
        else updPack port p.identity (fun p => { p with cond := 1, absentSince := s.now }) s
      oneHeadEpisode port here there s

/-- Every member's condition. -/
def updateMembers (s : State) : State := (List.range 64).foldl (fun s n => updateMember n s) s

/-! ### Outcomes of media requests (R343, R370, R394 to R397, R421) -/

/-- A block had a failure in this cycle. -/
def markBad (port block : Nat) (s : State) : State := updPackNow port (fun p => { p with bad := insertNat block p.bad }) s

/-- A block is marked retiring, and its band takes no new segment (R395, R396). -/
def markRetiring (band port : Nat) (s : State) : State :=
  closeBand band (updBand band (fun b => { b with retiring := insertNat port b.retiring }) (markBad port (bandBlock s band port) s))

/-- A batch copied into a block that failed: those extents are copied again, the band's open segments are sealed early or
released unused; code 0x0B0 counts once for the batch (R395). -/
def recopyBlock (band port : Nat) (s : State) : State :=
  match s.med.batch with
  | none => s
  | some t =>
    let on := fun (seg i : Nat) => segBand seg == band && posMember s seg i == port
    let dest : Bool := t.moves.any (fun m => segBand m.2.1 == band) ||
      (s.nv.segs.any fun x => segBand x.num == band && x.positions.any fun p => p.bundles.any fun k =>
        match bundleByKey s k with | some b => (match b.place with | some q => t.victims.contains (segBand q.1) | none => false) | none => false)
    if !dest then s
    else
      let first : Bool := !t.recopy
      let s := { s with med.batch := some { t with
        recopy := true, step := min t.step 0, moves := t.moves.filter fun m => !on m.2.1 m.2.2 } }
      let s := countIf first 0x0B0 { s with med.gcRecopy := if first then satAdd (2 ^ 32 - 1) s.med.gcRecopy 1 else s.med.gcRecopy }
      let unused := fun (x : Segment) => segBand x.num == band && x.state == 0 && !intentWaits s x.num &&
        x.positions.all (fun p => p.state != 1 && p.state != 2)
      sealEarlyWhere (fun x => segBand x.num == band) { s with nv.segs := s.nv.segs.filter fun x => !unused x }

/-- The next present member of the checkpoint's row that has no copy (R384). -/
def nextCkptPort (s : State) : Option Nat :=
  s.nv.genCur.bind fun g => (presentIn s g (s.lay.ckpt.num % max 1 g.r)).find? fun p => !s.lay.ckpt.ports.contains p

/-- A copy of the checkpoint goes to the next present member of its row, or is left out (R384). -/
def ckptMove (g : Gen) (port : Nat) (s : State) : State :=
  if !s.lay.ckpt.ports.contains port then s
  else match nextCkptPort s with
    | some q => sendCheckpoint g (s.lay.ckpt.num % 2) q (recordCkpt { s with
        lay.ckpt.ports := s.lay.ckpt.ports.map fun x => if x = port then q else x, lay.ckpt.done := s.lay.ckpt.done.filter (· != port) })
    | none => recordCkpt { s with
        lay.ckpt.ports := s.lay.ckpt.ports.filter (· != port), lay.ckpt.done := s.lay.ckpt.done.filter (· != port) }

/-- A checkpoint block fails: a standby block takes its place; without one, the copy goes to the next member and code 0x0B1 counts
(R384). A member that is no longer reached loses its copy to the next one; a block already replaced is written again in its place. -/
def ckptFailed (port : Nat) (r : Req) (s : State) : State :=
  match packNow s port, s.nv.genCur with
  | some p, some g =>
    if !reached s port then ckptMove g port s
    else if ckptPhys p r.block ≠ r.block then sendReq port { r with tag := 0, reissued := false, block := ckptPhys p r.block } s
    else if p.ckptMap.length < ckptBlocks p.geom then
      let y := 2 * ckptBlocks p.geom + p.ckptMap.length
      sendReq port { r with tag := 0, reissued := false, block := y } (updPack port p.identity (fun p => { p with ckptMap := p.ckptMap ++ [(r.block, y)] }) s)
    else ckptMove g port (countEvent 0x0B1 0 s)
  | _, _ => s

/-- A checkpoint's PROGRAM completes: its copy is durable, unless an erase failed under it and the block has been replaced (R376,
R384). -/
def ckptWritten (port : Nat) (r : Req) (s : State) : State :=
  match packNow s port with
  | some p =>
    if ckptPhys p r.block ≠ r.block then sendReq port { r with tag := 0, reissued := false, block := ckptPhys p r.block } s
    else ckptDone port r.pos s
  | none => s

/-- A data or parity PROGRAM that did not store its strip: a data position is void, a parity position unreadable (R343,
R396). -/
def stripLost (r : Req) (s : State) : State :=
  match segGen s r.seg with
  | none => s
  | some g =>
    if r.pos < g.d then sealBand (segBand r.seg) (voidStrip r.seg r.pos s)
    else sealComplete r.seg (updSeg r.seg (fun x => { x with parityDone := x.parityDone + 1 }) (strikeUnreadable r.seg r.pos s))

/-- A PROGRAM fails (R343, R395, R396); `blame` where the block failed. -/
def programFailed (port : Nat) (r : Req) (blame : Bool) (s : State) : State :=
  if r.why = 7 then ckptFailed port r s
  else if r.why = 1 then { s with lay.rebuilt := s.lay.rebuilt.filter fun t => !(t.1 == r.seg && t.2.1 == r.pos) }
  else
    let band := segBand r.seg
    let s := if blame then markRetiring band port (updPackNow port (fun p => { p with progFail := p.progFail + 1 }) s) else s
    let s := stripLost r s
    if blame then recopyBlock band port s else s

/-- A PROGRAM completes: the intent of state 2, or one more parity strip (R343, R344). -/
def programDone (port : Nat) (r : Req) (s : State) : State :=
  if r.why = 7 then ckptWritten port r s
  else if r.why ≠ 0 then s
  else match segOf s r.seg, segGen s r.seg with
  | some x, some g =>
    if r.pos < g.d then
      (if (posOf x r.pos).state = 1 then appendRecord (.intent r.seg r.pos 2 port (targetBuffer x)) s else s)
    else sealComplete r.seg (updSeg r.seg (fun x => { x with parityDone := x.parityDone + 1 }) s)
  | _, _ => s

/-- One erase status of a band has returned. -/
def eraseReturned (port : Nat) (r : Req) (s : State) : State :=
  if r.why ≠ 3 then s
  else erasesDone (segBand r.seg) (updBand (segBand r.seg) (fun b => { b with erasedPorts := insertNat port b.erasedPorts }) s)

/-- An erase that is not known to have been made is owed (R394, R421). -/
def eraseOwed (port : Nat) (r : Req) (s : State) : State :=
  if r.why = 7 then s
  else eraseReturned port r
    { s with nv.owedErases := if s.nv.owedErases.contains (port, r.block) then s.nv.owedErases else s.nv.owedErases ++ [(port, r.block)] }

/-- The wear warning of a pack: code 0x0B7 once (R398). -/
def wearWarning (port : Nat) (s : State) : State :=
  match packNow s port with
  | none => s
  | some p =>
    let mean := p.cycles.foldl (fun n e => n + e.2) 0
    if !p.wearWarned && decide (pidVal s 0x0B05 * p.geom.blocks * p.geom.rated ≤ 100 * mean) && p.geom.blocks != 0 then
      countEvent 0x0B7 0 (updPack port p.identity (fun p => { p with wearWarned := true }) s)
    else s

/-- An ERASE completes: one more cycle, the read count is cleared (R398, R400). -/
def eraseDone (port : Nat) (r : Req) (s : State) : State :=
  let s := updPackNow port (fun p => { p with cycles := (r.block, blockCycles p r.block + 1) :: p.cycles.filter fun e => e.1 != r.block }) s
  let s := { setReads port r.block 0 s with nv.owedErases := s.nv.owedErases.filter fun e => e != (port, r.block) }
  eraseReturned port r (wearWarning port s)

/-- An ERASE fails: the block is retired when its band is dissolved, code 0x0B2 (R396). -/
def eraseFailed (port : Nat) (r : Req) (s : State) : State :=
  if r.why = 7 then ckptFailed port r s
  else
    let s := markBad port r.block (updPackNow port (fun p => { p with eraseFail := p.eraseFail + 1 }) s)
    eraseReturned port r (countEvent 0x0B2 0 { s with nv.owedErases := s.nv.owedErases.filter fun e => e != (port, r.block) })

/-- A READ that failed for a data host is served by reconstruction from D other positions (R368, R370, R421). -/
def reconstructRead (r : Req) (s : State) : State :=
  if r.why ≠ 0 then s
  else match segOf s r.seg, segGen s r.seg with
  | some x, some g =>
    let avail := (List.range (genWidth g)).filter fun j => j != r.pos && !posMissing s x j && (posOf x j).state != 3 && reached s (posMember s r.seg j)
    if avail.length < g.d then s else (avail.take g.d).foldl (fun s j => readStrip r.seg j 1 r.aux s) s
  | _, _ => s

/-- The outcome of a request that has none (R421). -/
def outcomeLost (port : Nat) (r : Req) (blame : Bool) (s : State) : State :=
  if r.cmd = 0x10 then (if r.why = 5 then respondPeer 0 stMedAbsent port 0 [] s else reconstructRead r s)
  else if r.cmd = 0x11 then programFailed port r blame s
  else if r.cmd = 0x12 then eraseOwed port r s
  else s

/-! ### Links (R410 to R418, R423) -/

/-- A link frame sent: 0x10 ACK, 0x11 NAK, 0x13 keep-alive (Table 16-1). -/
def linkFrame (n kind seq : Nat) (s : State) : State :=
  emit (.stakeFrame n (linkBytes kind 0 seq 0 0)) (updPort n (fun p => { p with dl.lastTx := s.now }) s)

/-- A credit frame sent: the cumulative grants of a channel (R418, Table 16-1). -/
def creditFrame (n vc : Nat) (s : State) : State :=
  let c := creditOf (portOf s n).dl.granted vc
  emit (.stakeFrame n (linkBytes 0x12 vc 0 c.1 c.2.1)) (updPort n (fun p => { p with dl.lastTx := s.now }) s)

/-- A link goes down (R416, R423): outstanding requests end without an outcome, the port's tags are free, the replay buffers are
discarded; it is tried again with the ports that failed their wave. -/
def linkDown (n : Nat) (s : State) : State :=
  let reqs := (portOf s n).reqs ++ (portOf s n).queued
  let s := updPort n (fun p => { p with
    link := 0, retry := true, startStep := 0, reqs := [], queued := [], dl := {}, fenceOk := false, linkDowns := min 255 (p.linkDowns + 1) }) s
  let s := countEvent 0x0C3 0 s
  checkFence (updateMember n (reqs.foldl (fun s r => if r.held then s else outcomeLost n r true s) s))

/-- Recovery is entered: code 0x0C2; the third entry within 10 ms takes the link down (R414, R416). -/
def enterRecovery (n : Nat) (s : State) : State :=
  let recent := ((portOf s n).dl.recoveries.filter fun t => decide (s.now < t + 10000000)) ++ [s.now]
  let s := updPort n (fun p => { p with link := 4, recovers := satAdd (2 ^ 32 - 1) p.recovers 1, dl.recoveries := recent }) s
  let s := countEvent 0x0C2 0 s
  if 3 ≤ recent.length then linkDown n s else s

/-- A protocol error: code 0x0C9, proto_err, Recovery (R413). -/
def protocolError (n : Nat) (s : State) : State := enterRecovery n (countEvent 0x0C9 0 (updPort n (fun p => { p with protoErr := true }) s))

/-- The credits the device grants at link-up (Table 16-2a). -/
def firstGrants : List (Nat × Nat × Nat × Nat × Nat) := [(2, 1024, 4096, 0, 0), (3, 16, 16, 0, 0)]

/-- STAKE_LINK_TRAINED (R434, R410, R416): from Recovery the held frames are resent; from training sequence numbers and credits
start afresh and the start of the port begins with IDENT. -/
def execStakeLinkTrained (port : Nat) (s : State) : Result := alive s <|
  let p := portOf s port
  if 64 ≤ port ∨ s.saf.failSilent ∨ s.hdl.bridge then .next s
  else if p.link = 4 then .next (pumpPort port (updPort port (fun p => { p with link := 3, dl := resendAll s.now { p.dl with lastRx := s.now } }) s))
  else if p.link = 2 then
    let s := updPort port (fun p => { p with
      link := 3, absent := false, everTrained := true, wave := if p.retry then 8 else p.wave, retry := false, fenced := false
      sideErr := false, protoErr := false, verErr := false, geomErr := false, startStep := 0, reqs := [], queued := [], fenceOk := false
      dl := { granted := firstGrants, lastTx := s.now, lastRx := s.now } }) s
    .next (sendReq port { tag := 0, cmd := 0x01 } (creditFrame port 3 (creditFrame port 2 s)))
  else .next s

/-- STAKE_TRAINING_FAILED (R410): code 0x0C7; the port is retried (R78). -/
def execStakeTrainingFailed (port : Nat) (s : State) : Result := alive s <|
  if (portOf s port).link = 2 ∧ port < 64 then .next (countEvent 0x0C7 0 (updPort port (fun p => { p with link := 0, retry := true }) s)) else .next s

/-- A received transaction frame is corrupt (R413). -/
def frameCorrupt (maxLen : Nat) (f : Frame) : Bool := !f.crcOk || f.type == 0 || decide (3 < f.type) || decide (maxLen < f.len) || f.len % 4 != 0

/-- A VC carries a type towards the device (Table 16-2a): responses on 2 and 3, data on 2. -/
def vcCarries (f : Frame) : Bool := (f.type == 2 && (f.vc == 2 || f.vc == 3)) || (f.type == 3 && f.vc == 2)

/-- A frame accepted: it consumes credits, whose buffers are granted again at once; an ACK follows (R415, R418). -/
def acceptFrame (now : Nat) (f : Frame) (l : Link) : Link :=
  let c := creditOf l.granted f.vc
  let u := dataUnits f.len
  { l with
    rxSeq := (l.rxSeq + 1) % 65536, nakOut := false, lastRx := now
    granted := putCredit f.vc ((c.1 + 1) % 65536, (c.2.1 + u) % 65536, (c.2.2.1 + 1) % 65536, (c.2.2.2 + u) % 65536) l.granted }

/-- STAKE_TRANSACTION_FRAME (R413, R415). -/
def execStakeTransactionFrame (port : Nat) (bytes : List Byte) (s : State) : Result := alive s <|
  let frame := frameOf bytes
  let p := portOf s port
  if p.link ≠ 3 ∨ 64 ≤ port then .next s
  else if frameCorrupt 4096 frame then
    let s := countEvent 0x0C0 0 (updPort port (fun p => { p with crc := satAdd (2 ^ 32 - 1) p.crc 1 }) s)
    if p.dl.nakOut then .next s else .next (linkFrame port 0x11 p.dl.rxSeq (updPort port (fun p => { p with dl.nakOut := true }) s))
  else if !frame.rsvdZero || !vcCarries frame then .next (protocolError port s)
  else
    let d := (frame.seq + 65536 - p.dl.rxSeq) % 65536
    if d = 0 then
      (if covered (creditOf p.dl.granted frame.vc) frame.len then
        let s := updPort port (fun p => { p with dl := acceptFrame s.now frame p.dl }) s
        .next (creditFrame port frame.vc (linkFrame port 0x10 frame.seq s))
      else .next (protocolError port s))
    else if d < 32768 then .next (linkFrame port 0x11 p.dl.rxSeq (updPort port (fun p => { p with dl.nakOut := true, dl.lastRx := s.now }) s))
    else .next (linkFrame port 0x10 ((p.dl.rxSeq + 65535) % 65536) (updPort port (fun p => { p with dl.lastRx := s.now }) s))

/-- A valid frame came in. -/
def heard (n : Nat) (s : State) : State := updPort n (fun p => { p with dl.lastRx := s.now }) s

/-- STAKE_ACK (R414). -/
def execStakeAck (port seq : Nat) (s : State) : Result := alive s <|
  if (portOf s port).link ≠ 3 then .next s
  else .next (pumpPort port (updPort port (fun p => { p with dl := ackFrames s.now seq p.dl }) (heard port s)))

/-- A replay has begun: counted; a frame resent four times without release takes the link through Recovery (R414). -/
def replayed (n : Nat) (s : State) : State :=
  let s := updPort n (fun p => { p with replays := satAdd (2 ^ 32 - 1) p.replays 1 }) s
  if resendsSpent (portOf s n).dl then enterRecovery n (updPort n (fun p => { p with dl.replay := p.dl.replay.map fun f => { f with resends := 0 } }) s)
  else s

/-- STAKE_NAK (R414). -/
def execStakeNak (port seq : Nat) (s : State) : Result := alive s <|
  if (portOf s port).link ≠ 3 then .next s
  else
    let resent : Bool := (portOf s port).dl.replay.any fun f => f.seq == seq
    let s := pumpPort port (updPort port (fun p => { p with dl := nakFrames s.now seq p.dl }) (heard port s))
    .next (if resent then replayed port s else s)

/-- STAKE_CREDIT (R418): the cumulative grants of a channel. -/
def execStakeCredit (port vc frames units : Nat) (s : State) : Result := alive s <|
  if (portOf s port).link ≠ 3 ∨ 3 < vc then .next s
  else
    let set := fun (l : Link) =>
      let c := creditOf l.credits vc
      { l with credits := putCredit vc (frames % 65536, units % 65536, c.2.2.1, c.2.2.2) l.credits }
    .next (pumpPort port (updPort port (fun p => { p with dl := set p.dl }) (heard port s)))

/-- STAKE_KEEP_ALIVE (R416). -/
def execStakeKeepAlive (port : Nat) (s : State) : Result := alive s <| if (portOf s port).link = 3 then .next (heard port s) else .next s

/-- STAKE_KEEP_ALIVE_DUE (R416). -/
def execStakeKeepAliveDue (port : Nat) (s : State) : Result := alive s <|
  if (portOf s port).link = 3 then .next (linkFrame port 0x13 0 s) else .next s

/-- STAKE_RX_IDLE_TIMEOUT (R416): no valid frame for 100 µs; the time has come (log 16). -/
def execStakeRxIdleTimeout (port : Nat) (s : State) : Result := alive s <| if (portOf s port).link = 3 then .next (enterRecovery port s) else .next s

/-- STAKE_RECOVERY_TIMEOUT (R416): Recovery has not returned to L0 within 2 ms. -/
def execStakeRecoveryTimeout (port : Nat) (s : State) : Result := alive s <| if (portOf s port).link = 4 then .next (linkDown port s) else .next s

/-- STAKE_REPLAY_TIMEOUT (R414): every held frame is resent. -/
def execStakeReplayTimeout (port : Nat) (s : State) : Result := alive s <|
  if (portOf s port).link = 3 ∧ (portOf s port).dl.replay ≠ [] then
    .next (replayed port (updPort port (fun p => { p with dl := resendAll s.now p.dl }) s))
  else .next s

/-! ### Responses (R419, R421, R428, R432) -/

/-- The outstanding request of a port with a tag and command; a late response for a held tag has none. -/
def reqOf (s : State) (n tag cmd : Nat) : Option Req := (portOf s n).reqs.find? fun r => r.tag == tag && r.cmd == cmd && !r.held

/-- A response arrives: its tag is free, and its request, unless it came too late, is acted upon (R419, R421). -/
def onResponse (n tag cmd : Nat) (f : Req → State → State) (s : State) : Result :=
  match reqOf s n tag cmd with
  | some r => .next (f r (dropReq n tag s))
  | none =>
    if (portOf s n).reqs.any fun r => r.tag == tag && r.cmd == cmd && r.held then .next (dropReq n tag s) else .next s

/-- The head has lost authority (R456). -/
def lostAuthority (s : State) : State := failSilent 7 0x0DC (countEvent 0x0DC 0 s)

/-- This head holds or is taking the Handle. -/
def inAuthority (s : State) : Bool := s.hdl.holder || s.hdl.takingOver || s.hdl.takeReq

/-- More than half of the current generation's members have closed this head's port (R456). -/
def mostlyFenced (s : State) : Bool :=
  match s.nv.genCur with
  | some g => decide ((portsOf g.members).length < 2 * ((portsOf g.members).filter fun m => (portOf s m).fenced).length)
  | none => false

/-- A port found closed to this head: in the start of a port before replay applies records it only holds replay (R325), apart
from that it counts under R456. -/
def closedPort (n : Nat) (fresh : Bool) (s : State) : State :=
  let s := updateMember n s
  if fresh && (s.col.replayStep == 5 || s.col.replayStep == 6) && mostlyFenced s then lostAuthority s else s

/-- SK_FENCED (R432, R456). -/
def skFenced (n : Nat) (s : State) : State :=
  let known : Bool := (portOf s n).fenced
  let s := countEvent 0x0C6 0 (updPort n (fun p => { p with fenced := true }) s)
  if inAuthority s then lostAuthority (updateMember n s) else closedPort n (!known) s

/-- The statuses of Table 16-5 that every command shares: nothing where the command's own meaning applies. -/
def commonStatus (n st : Nat) (r : Req) (s : State) : Option State :=
  if st = 0x0201 ∨ st = 0x0202 ∨ st = 0x0203 then some (outcomeLost n r true (countEvent 0x0C9 0 s))
  else if st = 0x0301 then
    some (if r.epoch < s.hdl.epoch ∧ ¬ r.reissued then sendReq n { r with reissued := true } s
      else
        let s := outcomeLost n r false (countEvent 0x0C5 0 s)
        if inAuthority s then lostAuthority s else s)
  else if st = 0x0302 then some (outcomeLost n r false (skFenced n s))
  else if st = 0x0402 then some (outcomeLost n r false (sendReq n { tag := 0, cmd := 0x20 } s))
  else none

/-- STAKE_RESPONSE_TIMEOUT (R421): code 0x0C4, the tag is held; too many held tags, or a start request without its answer
(R434), take the link down, as a fence without its answer does (DEDUCED, log 43). -/
def execStakeResponseTimeout (port tag : Nat) (s : State) : Result := alive s <|
  match (portOf s port).reqs.find? fun r => r.tag == tag && !r.held with
  | none => .next s
  | some r =>
    let s := countEvent 0x0C4 0 (updPort port (fun p => { p with
      timeouts := satAdd (2 ^ 32 - 1) p.timeouts 1, reqs := updWhere (fun r => r.tag == tag) (fun r => { r with held := true }) p.reqs }) s)
    let s := outcomeLost port r true s
    let held := ((portOf s port).reqs.filter (·.held)).length
    let start : Bool := r.cmd == 0x40 || decide ((portOf s port).startStep < 4) && (r.cmd == 0x01 || r.cmd == 0x02 || r.cmd == 0x30 || r.cmd == 0x20)
    if start || decide (pidVal s 0x0C03 < held) then .next (linkDown port s) else .next s

/-! ### The start of a port (R381, R433, R434) -/

/-- The requests of a start, in order (R434). -/
def startCmd (step : Nat) : Nat := if step = 0 then 0x01 else if step = 1 then 0x02 else if step = 2 then 0x30 else 0x20

/-- The request of a step is answered: the next one goes out, also on a closed port or to a pack that is not used; after the
fourth the port has started, and a pack reached late is fenced while the peer is (R434, R453). -/
def startNext (n step : Nat) (s : State) : State :=
  if (portOf s n).link = 3 ∧ (portOf s n).startStep = step then
    let s := updPort n (fun p => { p with startStep := step + 1 }) s
    if step < 3 then sendReq n { tag := 0, cmd := startCmd (step + 1) } s
    else updateMember n (if fencable (portOf s n) then fenceLate n s else s)
  else s

/-- The outcome of a start's request that is not SK_OK: a closed port goes on with its start; after any other error the start does
not pass (DEDUCED, log 127). -/
def startError (n step status : Nat) (s : State) : State := if status = 0x0302 then startNext n step s else s

/-- IDENT_RESPONSE (R432, R433). A fenced port that is asked again and found open starts afresh (log 46). -/
def identReply (n status : Nat) (i : Ident) (r : Req) (s : State) : State :=
  match commonStatus n status r s with
  | some t => startError n 0 status t
  | none =>
    let sideBad : Bool := i.arrival != (if s.aon.side then 1 else 0)
    let verBad : Bool := i.protoMajor != 1
    let wasFenced : Bool := (portOf s n).fenced
    let s := updPort n (fun p => { p with
      identity := i.identity, maxTag := i.maxTags, epoch := i.epoch, otherClosed := i.otherClosed, fenced := i.closed
      startStep := if wasFenced && !i.closed then 0 else p.startStep
      sideErr := sideBad, protoErr := p.protoErr || verBad, verErr := verBad }) s
    let s := countIf (sideBad || verBad) 0x0C8 s
    startNext n 0 (if sideBad || verBad then updateMember n s else if i.closed then closedPort n (!wasFenced) s else s)

/-- IDENT_RESPONSE. -/
def execIdentResponse (port tag status : Nat) (ident : Ident) (s : State) : Result := alive s <| onResponse port tag 0x01 (identReply port status ident) s

/-- A number lies in a range. -/
def inSpan (lo n hi : Nat) : Bool := decide (lo ≤ n) && decide (n ≤ hi)

/-- A power of two. -/
def isPow2 (n : Nat) : Bool := n != 0 && 2 ^ Nat.log2 n == n

/-- The accepted geometry (Table 15-1). -/
def geomAccepted (g : Geom) : Bool :=
  (g.cell == 3 || g.cell == 4) && inSpan 15360000000000 g.rawBytes 245760000000000 && inSpan 1 g.dies 1024 && inSpan 1 g.planes 16 &&
  inSpan 256 g.blockUnits 65536 && inSpan 1 g.blocks 16777215 && decide (g.blockUnits * 65536 * g.blocks ≤ g.rawBytes) &&
  inSpan 4096 g.page 65536 && isPow2 g.page && inSpan 16384 g.progUnit 1048576 && isPow2 g.progUnit &&
  inSpan 100 g.rated 100000 && inSpan 10000 g.ratedReads 100000000 && inSpan 1 g.corrLimit 1023

/-- GEOM's reply (R381). -/
def geomReply (n status : Nat) (g : Geom) (r : Req) (s : State) : State :=
  match commonStatus n status r s with
  | some t => startError n 1 status t
  | none =>
    let bad : Bool := !geomAccepted g
    startNext n 1 (countIf bad 0x0BC (updPort n (fun p => { p with geom := g, geomErr := bad }) s))

/-- GEOM_RESPONSE. -/
def execGeomResponse (port tag status : Nat) (geom : Geom) (s : State) : Result := alive s <| onResponse port tag 0x02 (geomReply port status geom) s

/-- A pack's measurement (R126, R143); after the seal it is a Border entry (R131). -/
def measurePack (n : Nat) (hash : List Byte) (version svn slot : Nat) (s : State) : State :=
  let m : Meas := { comp := 0x40 + n, slot := slot, svn := svn, version := version, hash := hash, belowFloor := decide (svn < svnFloor s 5) }
  lateMeasurement m (recordMeas m s)

/-- The pack that was loaded returns to placement, on both heads (R169, R359). -/
def backToPlacement (n : Nat) (s : State) : State :=
  appendOp s.hfe.arrival 65535 opxTempAbsent [n, 0] []
    (updPackNow n (fun p => if p.cond = 2 then { p with cond := 0 } else p) { s with fw.packLoadPort := none })

/-- A loaded pack answers FW_MEASURE: entry 0xFF11, and it returns to placement (R169 step 5). -/
def packLoadDone (n : Nat) (s : State) : State :=
  match longOpOf s opPackFwLoad with
  | none => s
  | some l =>
    if l.arg ≠ n ∨ s.fw.packLoadPort ≠ some n then s
    else match measOf s (0x40 + n) with
      | none => s
      | some m =>
        let s := borderEvent 0xFF11 ((measBytes m.comp m false).take 8 ++ m.hash.take 16) s
        endLongOp opPackFwLoad stOkDone 0 0 (backToPlacement n s)

/-- The security versions that the packs in service report, the members that are neither failed nor retired; none while one of
them has not reported in this boot. -/
def packSvns (s : State) : Option (List Nat) :=
  (s.nv.packs.filter fun p => decide (p.cond < 3)).mapM fun p => (measOf s (0x40 + p.port)).map (·.svn)

/-- svn_floor_PACK rises to the lowest svn once every pack in service reports that svn or a higher one; a floor is at most 128 (R142, R144;
DEDUCED, log 115). -/
def raisePackFloor (s : State) : State :=
  match packSvns s with
  | some (v :: vs) => if vs.foldl min v ≤ 128 then raiseFloor 5 (vs.foldl min v) s else s
  | _ => s

/-- FW_MEASURE's reply. -/
def measureReply (n status : Nat) (hash : List Byte) (version svn slot : Nat) (r : Req) (s : State) : State :=
  match commonStatus n status r s with
  | some t => startError n 2 status t
  | none => startNext n 2 (raisePackFloor (packLoadDone n (measurePack n hash version svn slot s)))

/-- FW_MEASURE_RESPONSE (R126, R169). -/
def execFwMeasureResponse (port tag status : Nat) (hash : List Byte) (version svn slot : Nat) (s : State) : Result := alive s <|
  onResponse port tag 0x30 (measureReply port status hash version svn slot) s

/-- HEALTH's reply (R360 cause 2): the holder declares a member that reports itself failed. -/
def healthReply (n status : Nat) (failed : Bool) (r : Req) (s : State) : State :=
  match (if status = 0x0402 then none else commonStatus n status r s) with
  | some t => startError n 3 status t
  | none =>
    let s := startNext n 3 s
    let live : Bool := match packOf s n with | some p => p.cond != 3 && p.cond != 4 && sameMember s p | none => false
    if failed && s.hdl.holder && isMember s n && live then declareFailed n 2 s else s

/-- HEALTH_RESPONSE. -/
def execHealthResponse (port tag status : Nat) (failed : Bool) (s : State) : Result := alive s <| onResponse port tag 0x20 (healthReply port status failed) s

/-! ### Media responses -/

/-- The histogram bin of a corrected-bit count against the limit (Table 15-5). -/
def corrBin (count limit : Nat) : Nat := min 15 (count * 16 / max 1 limit)

/-- A page read with a corrected-bit count (R399, Table 15-5): at PID 0x0B03 of the limit its band is marked for relocation,
and code 0x0B3 carries the count. -/
def pageRead (n count : Nat) (r : Req) (s : State) : State :=
  match packNow s n with
  | none => s
  | some p =>
    let pages := stripPages s n
    let s := updPack n p.identity (fun p => { p with pagesRead := p.pagesRead + pages, hist := updAt (corrBin count p.geom.corrLimit) (· + pages) p.hist }) s
    if pidVal s 0x0B03 * p.geom.corrLimit ≤ 100 * count then
      let fresh : Bool := match bandOf s (segBand r.seg) with | some b => !b.relocate | none => false
      let s := updBand (segBand r.seg) (fun b => { b with relocate := true }) s
      let s := updPack n p.identity (fun p => { p with relocNow := insertNat r.block p.relocNow }) s
      countEvent 0x0B3 count { s with med.reloc := if fresh then satAdd (2 ^ 32 - 1) s.med.reloc 1 else s.med.reloc }
    else s

/-- A READ relayed for the peer is answered (R361; DEDUCED, log 41, log 42: on tag 0, with free bytes of the length asked). -/
def relayReply (n status value len : Nat) (s : State) : State :=
  if status = 0 then respondPeer 0 0 0 value (freeBytes len s) { s with free := s.free + len }
  else if status = 0x0101 then respondPeer 0 stMedLost n 0 [] (updPackNow n (fun p => { p with uncorrectable := p.uncorrectable + 1 }) s)
  else respondPeer 0 stMedAbsent n 0 [] s

/-- The first stored bytes of a Read or Compare enter host staging: staging_begun is set, unless an Abort was first (R189, R191). -/
def stagingBegins (r : Req) (s : State) : State :=
  if r.why ≤ 1 then updTag r.aux (fun t => { t with begun := t.begun || (t.state == 2 && !t.abortReq && (t.kind == 0 || t.kind == 5)) }) s else s

/-- READ's reply: an uncorrectable page, or an extent whose check fails (R276), makes the strip unreadable (R370). -/
def readReply (n status value : Nat) (checkOk : Bool) (r : Req) (s : State) : State :=
  if r.why = 5 ∧ status ≤ 0x0101 then relayReply n status value r.aux s
  else if status = 0 then
    let s := stagingBegins r (pageRead n (value % 1024) r s)
    if checkOk then s else reconstructRead r (strikeUnreadable r.seg r.pos s)
  else if status = 0x0101 then
    let s := updPackNow n (fun p => { p with uncorrectable := p.uncorrectable + 1 }) (markBad n r.block s)
    reconstructRead r (strikeUnreadable r.seg r.pos s)
  else (commonStatus n status r s).getD s

/-- READ_RESPONSE (R428). -/
def execReadResponse (port tag status value : Nat) (checkOk : Bool) (s : State) : Result := alive s <|
  onResponse port tag 0x10 (readReply port status value checkOk) s

/-- PROGRAM's reply. -/
def programReply (n status : Nat) (r : Req) (s : State) : State :=
  if status = 0 then programDone n r s
  else if status = 0x0102 then programFailed n r true s
  else (commonStatus n status r s).getD s

/-- PROGRAM_RESPONSE (R343, R344). -/
def execProgramResponse (port tag status _value : Nat) (s : State) : Result := alive s <| onResponse port tag 0x11 (programReply port status) s

/-- ERASE's reply. -/
def eraseReply (n status : Nat) (r : Req) (s : State) : State :=
  if status = 0 then eraseDone n r s
  else if status = 0x0103 then eraseFailed n r s
  else (commonStatus n status r s).getD s

/-- ERASE_RESPONSE (R393). -/
def execEraseResponse (port tag status _value : Nat) (s : State) : Result := alive s <| onResponse port tag 0x12 (eraseReply port status) s

/-- The bin of a pack temperature in 1/16 °C (Table 15-5). -/
def tempBin (t : Int) : Nat := min 15 (((t + 640) / 160).toNat)

/-- TEMP's reply (R405). -/
def tempReply (n status : Nat) (temp : Int) (r : Req) (s : State) : State :=
  if status = 0 then
    updPackNow n (fun p => { p with
      tempMin := some (match p.tempMin with | some m => min m temp | none => temp)
      tempMax := some (match p.tempMax with | some m => max m temp | none => temp)
      tempHist := updAt (tempBin temp) (· + 1) p.tempHist }) s
  else (commonStatus n status r s).getD s

/-- TEMP_RESPONSE. -/
def execTempResponse (port tag status : Nat) (temp : Int) (s : State) : Result := alive s <| onResponse port tag 0x21 (tempReply port status temp) s

/-! ### Pack firmware (R169, R427) -/

/-- Another pack that is absent, fenced or being rebuilt. -/
def otherPackBusy (s : State) (port : Nat) : Option Nat :=
  (s.nv.packs.find? fun p => p.port != port && p.cond != 4 && (p.cond == 1 || p.cond == 2 || (p.cond == 3 && !p.rebuildEnded) ||
    (portOf s p.port).fenced)).map (·.port)

/-- PACK_FW_LOAD's outcome. -/
def packFwLoad (s : State) (c : Cmd) : Decision :=
  let port := pk c 24 1
  if !s.hdl.holder then refuse stOrdState (devState s)
  else if (longOpOf s opPackFwLoad).isSome then refuse stOrdBusy opPackFwLoad
  else if s.nv.flash.packState = 0 ∨ staticCheck s s.nv.flash.packImage 7 5 ≠ 0 then refuse stFwSlot 0x07
  else if !started s port then refuse stMedAbsent port
  else match otherPackBusy s port with
    | some p => refuse stMedAbsent p
    | none => { nums := [port], started := true }

/-- PACK_FW_LOAD. -/
def execPackFwLoad (ring seq : Nat) (s : State) : Result := fast s <| auditedOp opPackFwLoad packFwLoad ring seq s

/-- The pack is temporarily absent, open segments whose row includes it are sealed early, and FW_LOAD is sent (R169 steps 3
and 4). -/
def applyPackFwLoad (d : Decision) (s : State) : State :=
  match d.nums with
  | [port] =>
    let s := appendOp s.hfe.arrival 65535 opxTempAbsent [port, 1] []
      (updPackNow port (fun p => if isMember s port && p.cond == 0 then { p with cond := 2 } else p) s)
    sendReq port { tag := 0, cmd := 0x31 } (sealRowsOf port { s with fw.packLoadPort := some port })
  | _ => s

/-- A load ends without success: the pack returns to placement. -/
def packLoadFails (n status detail : Nat) (s : State) : State :=
  endLongOp opPackFwLoad status detail 0 (backToPlacement n s)

/-- FW_LOAD's reply (R427): an image refused ends the command; other failures leave the 300 s limit to run. -/
def loadReply (n status : Nat) (r : Req) (s : State) : State :=
  if status = 0 then s
  else if status = 0x0401 then packLoadFails n stFwSlot 0x07 s
  else (commonStatus n status r s).getD s

/-- FW_LOAD_RESPONSE. -/
def execFwLoadResponse (port tag status : Nat) (s : State) : Result := alive s <| onResponse port tag 0x31 (loadReply port status) s

/-- PACK_FW_MEASURE_TIMEOUT (R169, R360 cause 3). -/
def execPackFwMeasureTimeout (port : Nat) (s : State) : Result := alive s <|
  if s.fw.packLoadPort = some port then
    let s := endLongOp opPackFwLoad stMedAbsent port 0 { s with fw.packLoadPort := none }
    .next (if isMember s port then declareFailed port 3 s else s)
  else .next s

end Sys2Proof.Machine
end

