-- ==== Sys2Proof/Machine/System.lean ====
section
/-! DEFINITION. The system commands: identity, nonces, sessions, service, sub-ports, Doze and reset (R67, R75, R81, R100
to R106, R116, R176). -/

namespace Sys2Proof.Machine

/-- SYS_IDENTIFY's outcome: the die serial number (Table 05-1 names the command as its reader; DEDUCED, log 22). -/
def sysIdentify (s : State) (_c : Cmd) : Decision := done s.nv.fuses.dieSerial

/-- SYS_IDENTIFY. -/
def execSysIdentify (ring seq : Nat) (s : State) : Result := fast s <|
  plainOp opSysIdentify 24 sysIdentify (fun _ _ s => s) ring seq s

/-- GET_NONCE's outcome: 48 bytes of the generator (free values, log 1). -/
def getNonce (s : State) (_c : Cmd) : Decision := answer (freeBytes 48 s)

/-- The nonce bound to the ring; it replaces any earlier one (R103). -/
def applyGetNonce (c : Cmd) (d : Decision) (s : State) : State :=
  updRing c.ring (fun r => { r with nonce := some (d.bytes, s.now) }) { s with free := s.free + 48, cip.generates := s.cip.generates + 1 }

/-- GET_NONCE. -/
def execGetNonce (ring seq : Nat) (s : State) : Result := fast s <| plainOp opGetNonce 24 getNonce applyGetNonce ring seq s

/-- A session identifier (R100). -/
def sessionId (ring serial : Nat) : Nat := ringOrigin ring * 2 ^ 28 + ring * 2 ^ 22 + serial

/-- SESSION_OPEN's outcome: the credentials passed at stage 4; the next serial of the boot (R100, R103). -/
def sessionOpen (s : State) (c : Cmd) : Decision :=
  if 2 ^ 22 ≤ s.plem.nextSerial then refuse stResExhausted 0 else done (sessionId c.ring s.plem.nextSerial)

/-- The session bound to its ring; a ring closed or bound meanwhile takes none. -/
def applySessionOpen (c : Cmd) (d : Decision) (s : State) : State :=
  if discarded c s ∨ (ringOf s c.ring).session ≠ 0 then s
  else
    let x : Session := { id := d.result, ring := c.ring, origin := ringOrigin c.ring, role := pk c 24 1,
                         leafKey := Config.leafKey (c.block.take (c.block.length - 96)), lastUse := s.now }
    updRing c.ring (fun r => { r with session := d.result }) { s with plem.sessions := s.plem.sessions ++ [x] }

/-- SESSION_OPEN: the serial number is used from its decision on (R100). -/
def execSessionOpen (ring seq : Nat) (s : State) : Result := fast s <|
  match opCmd s ring seq opSessionOpen with
  | none => .next s
  | some c =>
    if s.brd.port ≠ [] then .next s
    else
      let d := sessionOpen s c
      .next (markTaken c { s with
        brd.port := [.command c d], plem.nextSerial := s.plem.nextSerial + if isSuccess d.status then 1 else 0 })

/-- The session that carried a SESSION_CLOSE ends (R106). -/
def applySessionClose (c : Cmd) (s : State) : State :=
  if (ringOf s c.ring).session = c.session then endSession c.ring s else s

/-- SESSION_CLOSE. -/
def execSessionClose (ring seq : Nat) (s : State) : Result := fast s <| auditedOp opSessionClose (fun _ _ => done) ring seq s

/-- SYS_STATUS's outcome: the manual states no layout for its 8 result bytes (a free value, log 20). -/
def sysStatus (s : State) (_c : Cmd) : Decision := done (Config.freeValue s.free).toNat

/-- SYS_STATUS. -/
def execSysStatus (ring seq : Nat) (s : State) : Result := fast s <| plainOp opSysStatus 24 sysStatus (fun _ _ s => drewFree s) ring seq s

/-- SERVICE_START's outcome (R81, R116). -/
def serviceStart (s : State) (_c : Cmd) : Decision :=
  if s.boot.service then noChange
  else if notReadyBits s ≠ 0 ∨ !starting s then refuse stOrdNotready (notReadyBits s)
  else done

/-- Data service starts; the first start of a boot raises the floors asked for (R81, R144). After a power-loss stop, a halt or
a fail-silent decision it never starts (R58, R70, R523). -/
def applyServiceStart (s : State) : State :=
  if !starting s || s.saf.failSilent then s
  else
    let s := if s.boot.served then s else raiseRequested s
    { s with boot.service := true, boot.serviceEver := true, boot.served := true }

/-- SERVICE_START. -/
def execServiceStart (ring seq : Nat) (s : State) : Result := fast s <| auditedOp opServiceStart serviceStart ring seq s

/-- Data service stops. -/
def applyServiceStop (s : State) : State := { s with boot.service := false }

/-- SERVICE_STOP. -/
def execServiceStop (ring seq : Nat) (s : State) : Result := fast s <| auditedOp opServiceStop (fun _ _ => done) ring seq s

/-- The mask of enabled sub-ports. -/
def enabledMask (s : State) : Nat :=
  (s.hfe.subs.zipIdx).foldl (fun m e => m + flagAt e.1.enabled e.2) 0

/-- The mask of enabled sub-ports after a PORT_ENABLE (R176). -/
def maskAfter (s : State) (up down : Nat) : Nat :=
  (List.range 32).foldl (fun m k => m + flagAt ((bit (enabledMask s) k || bit up k) && !bit down k) k) 0

/-- PORT_ENABLE's outcome (R176). -/
def portEnable (s : State) (c : Cmd) : Decision :=
  let m := maskAfter s (pk c 24 4) (pk c 28 4)
  if m = enabledMask s then noChange m else done m

/-- The lanes whose transmitters are out of electrical idle: those that serve an enabled sub-port (R174, R176). -/
def ethLaneMask (s : State) : Nat :=
  (List.range 32).foldl (fun m i => m + flagAt (match laneSub s i with
    | some k => (s.hfe.subs[k]?.map (·.enabled)).getD false
    | none => false) i) 0

/-- The lanes after a change of the sub-ports. -/
def driveLanes (s : State) : State := emit (.ethLanes (ethLaneMask s)) s

/-- Transmitters leave or enter electrical idle; a sub-port that goes idle has no link. -/
def applyPortEnable (c : Cmd) (s : State) : State :=
  driveLanes { s with
    hfe.subs := s.hfe.subs.zipIdx.map fun e =>
      if bit (pk c 24 4) e.2 then (if e.1.enabled then e.1 else { enabled := true })
      else if bit (pk c 28 4) e.2 then { linkDowns := satAdd 65535 e.1.linkDowns (flagAt e.1.linkUp 0) }
      else e.1 }

/-- PORT_ENABLE. -/
def execPortEnable (ring seq : Nat) (s : State) : Result := fast s <| auditedOp opPortEnable portEnable ring seq s

/-- Doze is entered (Tables 03-3, 03-4): every tile is off with its state saved, the core, engine, Hamper and Coil PLLs stop,
Coil is in retention. The command ends when the device has left it (R75). -/
def applyDeviceDoze (s : State) : State :=
  { s with
    pwr.doze := true, pwr.waking := false, pwr.tiles := s.pwr.tiles.map (fun _ => 2), pwr.groupOff := 2 ^ 24 - 1,
    pwr.wakeQueue := [], pwr.restoring := [], pwr.saved := List.range 24
    boot.pll := s.boot.pll / 16 * 16, col.accepting := false }

/-- DEVICE_DOZE. -/
def execDeviceDoze (ring seq : Nat) (s : State) : Result := fast s <| auditedOp opDeviceDoze (fun _ _ => done) ring seq s

/-- RESET_DEVICE (R67). -/
def execResetDevice (ring seq : Nat) (s : State) : Result := fast s <| auditedOp opResetDevice (fun _ _ => done) ring seq s

end Sys2Proof.Machine
end

