-- ==== Sys2Proof/Machine/Peer.lean ====
section
/-! DEFINITION. The peer link: training, pairing, what the peer sends, health and the standby (R437 to R444, R450, R454, R458 to
R464). -/

namespace Sys2Proof.Machine

/-! ### HELLO, CONFIRM, UNPAIR (R441 to R444, R461) -/

/-- Certificates of a HELLO: Alias, FwID, DeviceID, leaf first (R441). -/
def helloChain (s : State) : List Byte := aliasCert s ++ s.brd.fwIdCert ++ s.brd.devIdCert

/-- The HELLO payload (Table 17-3); over a legacy connection the key is zero (R464). The key and the nonce are free values. -/
def helloBytes (s : State) : List Byte :=
  let key := if pidVal s 0x0D11 = 1 then zeros 96 else freeBytes 96 s
  [1, 1, BitVec.ofNat 8 (flagAt s.aon.side 0)] ++ bytesAt (runningImage s 2) 16 2 ++ zeros 3 ++ leBytes 8 s.nv.bootCounter ++
    s.nv.fuses.ownerRoot ++ key ++ freeBytes 32 { s with free := s.free + 96 } ++ leBytes 2 (helloChain s).length ++ zeros 6

/-- HELLO sent: what the peer sent before counts no more. Before this boot's Alias key is derived it is owed (R129). -/
def sendHello (s : State) : State :=
  if !s.brd.aliasReady then { s with hdl.helloDue := true }
  else
    let t := { s with hdl.peerHello := none, hdl.confirmSent := false, hdl.helloDue := false, free := s.free + 128 }
    sendPeer 0x01 [] (helloBytes s ++ helloChain s) (helloChain s).length t

/-- The first check of Table 17-4 that a HELLO fails (R443, R463, R464, R167). -/
def helloFails (s : State) (h : Hello) : Option Nat :=
  let own := runningImage s 2
  let major := numAt own 16 1
  let minor := numAt own 17 1
  let admitted : Bool := h.devId == pidBlock s 0x0D10
  let bridge : Bool := h.chip == 2
  let protoOk : Bool := if bridge then h.protoMajor == 2 && decide (6 ≤ h.protoMinor)
    else h.protoMajor == major && decide (h.protoMinor ≤ minor + 1) && decide (minor ≤ h.protoMinor + 1)
  let idOk : Bool := admitted || (!bridge && (match s.nv.peerDevId with | none => true | some d => d == h.devId))
  if h.format ≠ 1 ∨ !(h.chip == 1 || h.chip == 2) ∨ (bridge && !h.viaLegacy) then some 1
  else if h.side = s.aon.side then some 2
  else if !h.chainOk then some 3
  else if h.ownerRoot ≠ s.nv.fuses.ownerRoot then some 4
  else if !protoOk then some 5
  else if !idOk then some 6
  else if bridge && pidVal s 0x0D11 != 1 then some 7
  else none

/-! ### The end of pairing (R444, R521) -/

/-- A transfer that can no longer complete ends with DEV.FAULT (R455; DEDUCED, log 47: pairing ends before its HANDOFF is
confirmed or its epoch is learnt). -/
def transferFails (detail : Nat) (s : State) : State :=
  match s.hdl.transfer with
  | none => s
  | some c => endTwoPart c stDevFault detail 0 false { s with hdl.transfer := none }

/-- A request whose response will not come (R193, R267, R279, R361). -/
def requestLost (r : PeerReq) (s : State) : State :=
  if r.code = 0x05 ∨ r.code = 0x06 then
    (match r.cmd with | some c => takeDecision c (refuse stNetPeer 0) (dropLocks (.plem c.ring c.seq) s) | none => s)
  else if r.code = 0x20 then endTag r.ioTag .accessTransition [] s
  else if r.code = 0x21 then reconstructRead { tag := 0, cmd := 0x10, seg := r.stored, pos := r.chunk, aux := r.ioTag } s
  else if r.code = 0x22 then
    (match (tagOf s r.ioTag).bind fun t => volumeOf s t.vol with
     | some v => (match domainOf s v.domain with | some d => storeUnique v d r.ioTag r.chunk r.data true s | none => s)
     | none => s)
  else s

/-- Pairing ends (R444): ring 62's session ends, what waited for the peer ends, the mirror is lost; ANA follows. `f` is what
else changes in the same step. -/
def endPairing (f : State → State) (s : State) : State :=
  if !s.hdl.paired then withAccess f s
  else
    let mirror : Bool := !s.hdl.bridge
    let s := withAccess (fun s =>
      let reqs := s.hdl.reqs
      let s := f { s with
        hdl.paired := false, hdl.bridge := false, hdl.peerHello := none, hdl.confirmSent := false, hdl.peerHealth := none
        hdl.healthAbsent := false, hdl.transferIn := false, hdl.reqs := [] }
      let s := transferFails 0 (endSession 62 s)
      updateMembers (reqs.foldl (fun s r => requestLost r s) s)) s
    settle true (if mirror then mirrorLoss s else s)

/-- UNPAIR sent with a reason of Table 17-4: the reason is kept and code 0x0D1 counted (R443); before the seal the peer is recorded
absent (R127). -/
def refusePairing (n : Nat) (s : State) : State :=
  let s := sendPeer 0x03 [n] [] 0 s
  let s := if s.boot.recSealed then s else recordMeas { comp := 6, slot := 0xFF, absent := true } s
  countEvent 0x0D1 0 { s with hdl.pairReason := n, hdl.peerHello := none, hdl.confirmSent := false }

/-- A HELLO answered: UNPAIR with the first check that it fails, or CONFIRM; without this boot's Alias key it waits for it
(R441, R443, R129). -/
def answerHello (hello : Hello) (s : State) : State :=
  if !s.brd.aliasReady then { s with hdl.peerHello := some hello, hdl.confirmSent := false }
  else match helloFails s hello with
    | some n => refusePairing n s
    | none => sendPeer 0x02 [] (freeBytes 96 s) 0 { s with hdl.peerHello := some hello, hdl.confirmSent := true, free := s.free + 96 }

/-- HELLO (R441, R443): over the peer link, or over the legacy connection. A HELLO while paired ends that pairing. -/
def execHello (hello : Hello) (s : State) : Result := alive s <|
  if s.saf.failSilent ∨ !(if hello.viaLegacy then class3Ready s else s.hdl.linkUp) then .next s
  else .next (answerHello hello (endPairing id { s with hdl.peerMajor := hello.protoMajor, hdl.peerMinor := hello.protoMinor }))

/-! ### Pairing (R444) -/

/-- The peer's DeviceID is recorded: at the array's first pairing by each head, at a replacement by the holder with entry
0xFF16, which clears PID 0x0D10 (R461). -/
def recordPeer (h : Hello) (s : State) : State :=
  if h.chip = 2 then s
  else match s.nv.peerDevId with
  | none => { s with nv.peerDevId := some h.devId }
  | some d =>
    if d ≠ h.devId ∧ s.hdl.holder then
      setPidBlock 0x0D10 (zeros 48) (borderEvent 0xFF16 (h.devId.take 24) { s with nv.peerDevId := some h.devId })
    else s

/-- Ring 62 is bound to a session of peer origin without a role (R105); its expected sequence number goes on (R98). With the serial
numbers of the boot exhausted it stays unbound (R100; DEDUCED, log 143). -/
def bindPeerRing (s : State) : State :=
  let id := sessionId 62 s.plem.nextSerial
  if 2 ^ 22 ≤ s.plem.nextSerial then s else
  let s := { s with
    plem.nextSerial := s.plem.nextSerial + 1
    plem.sessions := s.plem.sessions ++ [{ id := id, ring := 62, origin := 3, role := 0, lastUse := s.now }] }
  updRing 62 (fun r => { r with session := id }) s

/-- The mirror starts: every unreleased record is sent, oldest first; with none, the rule of R318 applies at once (R320). -/
def startMirror (s : State) : State :=
  let due := s.nv.journal.filter fun r => !r.released
  if due = [] then
    { s with col.mirrorOn := true, col.catchUp := none, col.singleCopy := false, col.refusing := false }
  else catchUpEnds (due.foldl (fun s r => sendRecord r s) { s with col.catchUp := some (s.nv.nextJseq - 1), col.mirrorOn := false })

/-- What the holder sends: every decision, of which the peer applies those it lacks, and T to a head it has taken over
(R444, R454). -/
def sendAuthority (s : State) : State :=
  if !s.hdl.holder then s
  else
    let s := s.nv.decisions.foldl (fun s e => sendPeer 0x30 (e.1 :: authArgs e.2) [] 0 s) s
    if s.nv.header3.tookOver then sendPeer 0x33 [s.nv.header3.takeoverJseq] [] 0 s else s

/-- In bridge mode the Stake ports are idle (R463). -/
def idleStake (s : State) : State :=
  { s with stk.ports := s.stk.ports.map fun p => { p with link := 0, reqs := [], queued := [], dl := {}, startStep := 0, retry := false } }

/-- The heads are paired (R441, R444, R463): the peer is measured, ring 62 bound, the mirror started. -/
def pairUp (h : Hello) (s : State) : State :=
  let bridge : Bool := h.chip == 2
  withAccess (fun s =>
    let s := { s with
      hdl.paired := true, hdl.bridge := bridge, hdl.silent := false, hdl.released := false, hdl.severed := false, hdl.healthAbsent := false
      hdl.mismatchRun := 0, hdl.mismatchFlag := false, hdl.selfTestFails := 0, hdl.healthSeq := 0, hdl.framesSent := 0
      hdl.keyPhase := false, hdl.keyGen := 0, hdl.peerHealth := none }
    let m : Meas := { comp := 6, slot := 0xFF, version := h.protoMajor % 256 * 2 ^ 24 + h.protoMinor % 256 * 2 ^ 16, hash := h.devId }
    let s := if s.nv.peerDevId = some h.devId then s else { s with col.peerAck := 0 }
    let s := bindPeerRing (recordPeer h (lateMeasurement m (recordMeas m s)))
    if bridge then idleStake s else updateMembers (sendAuthority (if lateWaits s 6 then policyChanged s else startMirror (policyChanged s)))) s

/-- CONFIRM (R441): after this head's own; a signature that does not verify is reason 3. -/
def execConfirm (sigOk : Bool) (s : State) : Result := alive s <|
  match s.hdl.peerHello with
  | none => .next s
  | some h =>
    if s.hdl.paired ∨ !s.hdl.confirmSent ∨ s.saf.failSilent then .next s
    else if sigOk then .next (pairUp h s)
    else .next (refusePairing 3 s)

/-- UNPAIR (R444): the sender has counted its reason. -/
def execUnpair (_reason : Nat) (s : State) : Result := alive s <|
  if peerPath s then .next (endPairing (fun s => { s with hdl.peerHello := none, hdl.confirmSent := false }) s) else .next s

/-- PAIRING_RETRY (R443, R464): every 1 s after a refusal, and in bridge mode, until the heads are paired; a HELLO that waited for the
Alias key goes too, and the peer's that came meanwhile is answered (DEDUCED, log 146). -/
def execPairingRetry (s : State) : Result := alive s <|
  if s.hdl.paired || s.saf.failSilent || !peerPath s || (s.hdl.pairReason == 0 && pidVal s 0x0D11 != 1 && !s.hdl.helloDue) then .next s
  else
    let early := if s.hdl.confirmSent then none else s.hdl.peerHello
    let t := sendHello s
    .next (match early with | some h => if t.hdl.helloDue then t else answerHello h t | none => t)

/-! ### The link (R437 to R440, R442, R444) -/

/-- All 8 lanes of a half are aligned. -/
def halfAligned (lanes : Nat) : Bool := field lanes 0 8 == 255 || field lanes 8 8 == 255

/-- PEER_LINK_TRAINED (R437, R441): at ×16, or ×8 on one half; each head sends HELLO unless the pairing has lived on over the
connection. -/
def execPeerLinkTrained (lanes : Nat) (s : State) : Result := alive s <|
  if !s.hdl.training || s.saf.failSilent || pidVal s 0x0D11 == 1 then .next s
  else
    let s := { s with hdl.training := false, hdl.lanes := lanes % 65536, hdl.linkUp := halfAligned lanes }
    if halfAligned lanes && !s.hdl.paired then .next (sendHello s) else .next s

/-- PEER_LINK_DOWN (R440): the paired heads go on over the class 3 connection where there is one. -/
def execPeerLinkDown (lanes : Nat) (s : State) : Result := alive s <| .next { s with hdl.linkUp := false, hdl.lanes := lanes % 65536 }

/-- PEER_PATH_LOSS (R444): no path for 10 ms ends pairing; the time has come (log 16). -/
def execPeerPathLoss (s : State) : Result := alive s <|
  if s.hdl.linkUp || viaConn s then .next s else .next (endPairing id s)

/-- PEER_PROTOCOL_ERROR (R413, R439): code 0x0D0. -/
def peerProtocolError (s : State) : State :=
  countEvent 0x0D0 0 { s with hdl.linkCrc := satAdd (2 ^ 32 - 1) s.hdl.linkCrc 1 }

/-- PEER_PROTOCOL_ERROR. -/
def execPeerProtocolError (s : State) : Result := alive s <| if peerPath s then .next (peerProtocolError s) else .next s

/-- PEER_KEY_PHASE_CHANGE (R442): after every 2^31 frames sent since pairing. -/
def execPeerKeyPhaseChange (s : State) : Result := alive s <|
  if s.hdl.paired && !s.hdl.bridge && decide ((s.hdl.keyGen + 1) * 2 ^ 31 ≤ s.hdl.framesSent) then
    .next { s with hdl.keyPhase := !s.hdl.keyPhase, hdl.keyGen := s.hdl.keyGen + 1 }
  else .next s

/-- A message that only paired heads exchange: before pairing it is discarded, in bridge mode it is a protocol error (R441,
R464). -/
def fromPeer (s : State) (k : State → Result) : Result :=
  if !s.hdl.paired then .next s else if s.hdl.bridge then .next (peerProtocolError s) else k s

/-! ### Commands from the peer (R105, R279, R349, R361, R267) -/

/-- PEER_PLEM (R105): a packet for ring 62 (DEDUCED, log 41: answered on tag 0). -/
def execPeerPlem (packet block : List Byte) (s : State) : Result := alive s <|
  fromPeer s fun s => .next (internalArrive 62 packet block (some 0) s)

/-- CARRY (R279, R349, R455): the receiving head has checked the command and appends its entry; here it only runs. -/
def execCarry (packet block : List Byte) (s : State) : Result := alive s <|
  fromPeer s fun s =>
    let p := padTo 64 packet
    let c : Cmd := { ring := 62, seq := numAt p 4 4, opcode := numAt p 0 2, packet := p, block := block, session := 0, role := 0,
                     uid := s.plem.nextUid, running := true, peerTag := some 0 }
    .next { s with plem.nextUid := s.plem.nextUid + 1, plem.cmds := s.plem.cmds ++ [c] }

/-- PACK_RELAY (R361): a READ for the peer of a pack that this head reaches. -/
def execPackRelay (port block offset length : Nat) (slc : Bool) (s : State) : Result := alive s <|
  fromPeer s fun s =>
    if reached s port then .next (sendReq port { tag := 0, cmd := 0x10, seg := flagAt slc 47, pos := offset, block := block, why := 5, aux := length } (setReads port block (readCount s port block + stripPages s port) s))
    else .next (respondPeer 0 stMedAbsent port 0 [] s)

/-- The stored chunk that a REF_TAKE names, written by this head (Table 17-2; DESIGN CHOICE, log 48: of several domains the first
stored). -/
def refTarget (s : State) (bundle pos : Nat) : Option Stored :=
  s.nv.stored.find? fun x => x.bundle == bundle && x.pos == pos && !peerWrote s x && x.committed && !x.lost && refCount s x.id + x.taken != 0

/-- REF_TAKE (R266, R267): the reference is taken (0) while its conditions hold, or not (1). -/
def execRefTake (bundle position : Nat) (s : State) : Result := alive s <|
  fromPeer s fun s =>
    match refTarget s bundle position with
    | some x =>
      if dedupCount s x < pidVal s 0x0703 then
        .next (respondPeer 0 0 0 0 [] (updStored x.id (fun x => { x with taken := x.taken + 1 }) s))
      else .next (respondPeer 0 0 0 1 [] s)
    | none => .next (respondPeer 0 0 0 1 [] s)

/-! ### Authority on the standby (R450, R454, R458) -/

/-- A decision takes effect on the standby. -/
def applyDecision (d : AuthDecision) (s : State) : State :=
  match d with
  | .newGeneration g d p sp r m => startLayout d p sp r m { s with nv.nextGen := g }
  | .switch _ => switchGens s
  | .cancelGeneration _ => if s.nv.change = 1 then reverseLayout 0 s else if s.nv.change = 2 then endReverse s else s
  | .admitPack p i => admitPack p i s
  | .retire p => retirePack p s
  | .declareFailed p c => memberFailed p c s
  | .mapRoot => s
  | .epoch e => { s with nv.epoch := max s.nv.epoch e, hdl.epoch := max s.hdl.epoch e }

/-- AUTH_STATE (R458): a decision above the latest asn. -/
def execAuthState (asn : Nat) (decision : AuthDecision) (s : State) : Result := alive s <|
  fromPeer s fun s =>
    if s.hdl.holder ∨ asn ≤ asnOf s then .next s
    else .next (updateMembers (applyDecision decision { s with nv.decisions := s.nv.decisions ++ [(asn, decision)] }))

/-- This head's open segments as the survivor closed them (R347, Table 13-3). -/
def closeOwnSegments (s : State) : State :=
  let s := replaySegments s
  { s with nv.segs := (s.nv.segs.filter fun x => !(x.sideB == s.aon.side && x.state == 0 && !x.positions.any fun p => p.state == 2)).map fun x =>
      if x.sideB = s.aon.side ∧ x.state = 0 then { x with state := 2 } else x }

/-- TAKEOVER_T (R325, R454): what the peer applied up to T stands in the shared store (log 44); every record above T is
discarded, none is applied here, the header names the position past the last record, and replay ends. The peer owns this
head's volumes. -/
def execTakeoverT (t : Nat) (s : State) : Result := alive s <|
  fromPeer s fun s =>
    if s.col.replayStep ≠ 7 then .next s
    else
      let s := (s.nv.journal.filter fun r => decide (r.jseq ≤ t)).foldl (fun s r => replayCommit r s) (replayBands s)
      let s := closeOwnSegments s
      let last := s.nv.nextJseq - 1
      let s := { s with nv.journal := [], nv.applied := last, nv.persisted := last, col.commitPoint := last }
      let s := withAccess (fun s => { s with nv.volumes := updWhere (fun v => v.ownerB == s.aon.side) (fun v => { v with ownerB := !s.aon.side }) s.nv.volumes }) s
      .next (sendMirrorAck (endReplay (writeHeader2 s)))

/-! ### Health, digest, known-answer tests (R458 to R460) -/

/-- The members this head cannot reach, the Coil fill, and the flags of a health record (Table 17-5). -/
def healthBytes (s : State) : List Byte :=
  let flags := flagAt s.aon.side 0 + flagAt s.hdl.holder 1 + flagAt s.boot.handleElig 2 + flagAt s.boot.service 3 + flagAt (viaConn s) 4 +
    flagAt s.col.singleCopy 5 + flagAt s.hdl.mismatchFlag 6 + flagAt (s.hdl.selfTestFails != 0) 7
  let hot : Nat := match hottest s with | some h => signed 16 h.1 | none => 0x8000
  let gen := fun (g : Option Gen) => match g with | some g => g.num | none => 0
  let body := [1, BitVec.ofNat 8 flags, BitVec.ofNat 8 (unreachedCount s), 0] ++ leBytes 4 s.hdl.healthSeq ++ leBytes 8 s.nv.bootCounter ++
    leBytes 8 s.now ++ leBytes 8 s.hdl.epoch ++ leBytes 2 (gen s.nv.genCur) ++ leBytes 2 (gen s.nv.genNew) ++ leBytes 2 hot ++
    leBytes 2 (coilLife s) ++ leBytes 8 s.hdl.digestAsn ++ padTo 8 (s.hdl.digest.take 8) ++ leBytes 2 (min 65535 s.hdl.selfTestFails) ++
    leBytes 2 (coilFill s)
  body ++ leBytes 4 (crc32c body)

/-- A fenced port is asked again whether it is open (DEDUCED, log 46: the manual gives the returned head no other way to
learn that its ports have been reopened). -/
def askFenced (s : State) : State :=
  if s.hdl.holder then s
  else (s.stk.ports.filter fun p => p.link == 3 && p.fenced && !p.reqs.any (fun r => r.cmd == 0x01)).foldl
    (fun s p => sendReq p.num { tag := 0, cmd := 0x01 } s) s

/-- HEALTH_SEND (R460): every 100 ms while paired. -/
def execHealthSend (s : State) : Result := alive s <|
  if !s.hdl.paired || s.saf.failSilent then .next s
  else .next (askFenced (sendPeer 0x31 [] (healthBytes s) 0 { s with hdl.healthSeq := (s.hdl.healthSeq + 1) % 2 ^ 32 }))

/-- A digest compared at an equal asn: a difference counts code 0x0D8; two in succession set the flag (R458). -/
def compareDigest (h : Health) (s : State) : State :=
  if h.asn ≠ s.hdl.digestAsn ∨ s.hdl.digest = [] then s
  else if h.digest.take 8 = s.hdl.digest.take 8 then { s with hdl.mismatchRun := 0 }
  else
    countEvent 0x0D8 0 { s with
      hdl.mismatches := satAdd (2 ^ 32 - 1) s.hdl.mismatches 1
      hdl.mismatchRun := s.hdl.mismatchRun + 1
      hdl.mismatchFlag := s.hdl.mismatchFlag || decide (2 ≤ s.hdl.mismatchRun + 1) }

/-- PEER_HEALTH (R460, Table 17-6; R456). -/
def execPeerHealth (health : Health) (s : State) : Result := alive s <|
  if !s.hdl.paired then .next s
  else if !health.crcOk then .next (countEvent 0x0D0 0 s)
  else
    let s := withAccess (fun s => { s with hdl.peerHealth := some health, hdl.healthAbsent := false, hdl.silent := s.hdl.silent && !s.hdl.bridge }) s
    if s.hdl.bridge then .next s
    else if health.holder && s.hdl.holder && (decide (s.hdl.epoch < health.epoch) || (health.epoch == s.hdl.epoch && s.aon.side)) then
      .next (lostAuthority s)
    else .next (updateMembers (compareDigest health s))

/-- HEALTH_ABSENT (R460): none for 300 ms while frames arrive (log 16). -/
def execHealthAbsent (s : State) : Result := alive s <|
  if s.hdl.paired && !s.hdl.healthAbsent then .next (countEvent 0x0DA 0 { s with hdl.healthAbsent := true }) else .next s

/-- The authority state at the latest asn, as the decisions that made it. Its form is not specified (Table 17-2, AUTH_STATE). -/
def authorityBytes (s : State) : List Byte :=
  (s.nv.decisions.map fun e => (leBytes 8 e.1) ++ ((authArgs e.2).map (leBytes 8)).flatten).flatten

/-- DIGEST_BOUNDARY (R458). -/
def execDigestBoundary (s : State) : Result := alive s <|
  .next { s with hdl.digest := Config.sha384 (authorityBytes s), hdl.digestAsn := asnOf s }

/-- TILE_KNOWN_ANSWER_TEST (R459): on the standby, of an idle tile in service; a failure takes it out, code 0x0D9. -/
def execTileKnownAnswerTest (tile : Nat) (pass : Bool) (s : State) : Result := alive s <|
  if s.hdl.holder || !s.boot.coilReady || decide (256 ≤ tile) || s.saf.tileOut.contains tile || tileState s tile != 0 || pass then .next s
  else .next (countEvent 0x0D9 0 { s with saf.tileOut := insertNat tile s.saf.tileOut, hdl.selfTestFails := min 65535 (s.hdl.selfTestFails + 1) })

end Sys2Proof.Machine
end

