-- ==== Sys2Proof/Machine/Cipher.lean ====
section
/-! DEFINITION. The cipher engine: key slots, wrapped keys, the array wrapping key, lookaside requests, CIPHER_OP, the random bit
generator (R290 to R308). -/

namespace Sys2Proof.Machine

/-! ### Blobs (R293) -/

/-- A key blob (Table 11-2): the header, then AES-KWP over header and key. -/
def keyBlob (wrapKey : List Byte) (wrap usage attrs salt kek : Nat) (key : List Byte) : List Byte :=
  let h := [1, BitVec.ofNat 8 wrap, BitVec.ofNat 8 usage, BitVec.ofNat 8 (clearBit attrs 2)] ++ leBytes 4 salt ++ leBytes 2 kek ++ zeros 6 ++ kcvOf key
  h ++ Config.kwpWrap wrapKey (h ++ key)

/-- The salt of a slot on this head: bit 31 is HDL_SIDE (R302); zero for usages without a salt. -/
def headSalt (s : State) (x : Slot) : Nat :=
  if x.usage = 3 ∨ x.usage = 4 then x.salt % 2 ^ 31 + flagAt s.aon.side 31 else 0

/-- A key needs a new entry of the full usage table (R294). -/
def tableFull (s : State) (usage : Nat) (kcv : List Byte) : Bool :=
  usageLimit usage != 0 && (usageEntry s kcv s.aon.side).isNone && decide (usageCap ≤ s.nv.usage.length)

/-- A key takes its slot: its count starts at the recorded bound, which has its entry (R294); a slot that a domain names serves it
(R262; DESIGN CHOICE, log 52: a domain's slots serve it again when their keys are loaded after a start). -/
def installKey (slot usage attrs salt : Nat) (key : List Byte) (s : State) : State :=
  let kcv := kcvOf key
  let serves := s.nv.domains.find? fun d => !d.keyless && (d.cur == slot || d.prev == some slot)
  let count := match usageEntry s kcv s.aon.side with | some e => e.1 | none => 0
  let x : Slot := { num := slot, usage := usage, attrs := if serves.isSome then setBit attrs 2 else attrs, salt := salt, key := key, kcv := kcv,
                    count := count, domain := match serves with | some d => d.num | none => 0 }
  let s := { s with cip.slots := s.cip.slots ++ [x] }
  if usageLimit usage = 0 ∨ (usageEntry s kcv s.aon.side).isSome then s else putUsage kcv s.aon.side 0 false s

/-! ### KEY_GENERATE (R292, R295, R296) -/

/-- The free values that a generated key and its salt take. -/
abbrev keyDraw : Nat := 68

/-- A key drawn from the generator, and its salt base for GCM usages (R302). -/
def drawnKey (s : State) (u : Nat) : List Byte × Nat :=
  (freeBytes (keyBytes u) s, if u = 3 ∨ u = 4 then leNat (freeBytes 4 { s with free := s.free + 64 }) else 0)

/-- The generator's draw is counted (R292). -/
def drewKey (s : State) : State := { s with free := s.free + keyDraw, cip.generates := s.cip.generates + 1 }

/-- KEY_GENERATE's outcome for a slot (Table 11-3). -/
def keyGenerate (s : State) (c : Cmd) : Decision :=
  let slot := pk c 24 2
  let u := pk c 26 1
  let wrap := pk c 28 1
  let k := drawnKey s u
  let wrapKey := if wrap = 0 then s.cip.drwk else s.cip.awk.getD []
  if (slotOf s slot).isSome then refuse stResExists 0
  else if wrap = 1 ∧ s.cip.awk.isNone then refuse stKeySlot 0xFFFF
  else if tableFull s u (kcvOf k.1) then refuse stResExhausted 0
  else { nums := [slot, u, pk c 27 1, k.2], bytes := keyBlob wrapKey wrap u (pk c 27 1) k.2 0 k.1, secret := k.1 }

/-- The refusals of the array wrapping key's creation (R295, R296). -/
def awkRefusal (s : State) (c : Cmd) : Option Decision :=
  if pk c 28 1 = 1 ∧ s.cip.awk.isNone then some (refuse stKeySlot 0xFFFF)
  else if !s.hdl.paired || s.hdl.bridge then some (refuse stNetPeer 0)
  else if !s.hdl.holder then some (refuse stOrdState (devState s))
  else if s.cip.awk.isSome then some (refuse stResExists 0)
  else none

/-- A command waits for the peer's blob. -/
def awaitsKey (s : State) (c : Cmd) : Bool :=
  s.hdl.reqs.any fun r => r.code == 0x06 && (match r.cmd with | some x => x.uid == c.uid | none => false)

/-- The array wrapping key sent to the peer, inside the link's protection (R295; DESIGN CHOICE, log 50: before the entry, whose
outcome and output depend on the answer). -/
def sendKey (c : Cmd) (key : List Byte) (s : State) : State :=
  requestPeer { tag := 0, code := 0x06, cmd := some c, data := key } [] key 0 s

/-- KEY_GENERATE. -/
def execKeyGenerate (ring seq : Nat) (s : State) : Result := fast s <|
  match opCmd s ring seq opKeyGenerate with
  | none => .next s
  | some c =>
    if s.brd.port ≠ [] ∨ awaitsKey s c then .next s
    else if pk c 26 1 ≠ 8 then .next (drewKey (takeDecision c (keyGenerate s c) s))
    else match awkRefusal s c with
      | some d => .next (takeDecision c d s)
      | none => .next (sendKey c (drawnKey s 8).1 (drewKey s))

/-- The key generated takes its slot, or becomes the array wrapping key. -/
def applyKeyGenerate (d : Decision) (s : State) : State :=
  match d.nums with
  | [slot, u, attrs, salt] => if u = 8 then { s with cip.awk := some d.secret } else installKey slot u attrs salt d.secret s
  | _ => s

/-- The peer's answer to KEY_XFER: its blob, which ends the command that waits, or its refusal. -/
def keyAnswered (r : PeerReq) (status : Nat) (blob : List Byte) (s : State) : State :=
  match r.cmd with
  | none => s
  | some c =>
    if !isSuccess status then takeDecision c (refuse status 0) s
    else if c.opcode = opKeyGenerate then
      takeDecision c { nums := [0xFFFF, 8, pk c 27 1, 0], secret := r.data
                       bytes := keyBlob s.cip.drwk 0 8 (pk c 27 1) 0 0 r.data ++ padTo 104 blob } s
    else takeDecision c { bytes := padTo 104 blob } s

/-- KEY_XFER (R295): the peer's copy is wrapped under this die's DRWK and its blob returned; another key held is RES.EXISTS. The row
names the key by its kcv (log 2). -/
def execKeyXfer (kcv : List Byte) (s : State) : Result := fast s <|
  fromPeer s fun s =>
    let give := fun (key : List Byte) (s : State) => respondPeer 0 0 0 0 (keyBlob s.cip.drwk 0 8 0 0 0 key) s
    match s.cip.awk with
    | some k => if kcvOf k = kcv then .next (give k s) else .next (respondPeer 0 stResExists 0 0 [] s)
    | none => .next (give (Config.keyWithKcv kcv) { s with cip.awk := some (Config.keyWithKcv kcv) })

/-! ### KEY_LOAD, KEY_EXPORT, KEY_DESTROY, KEY_QUERY (R296 to R299) -/

/-- The key that unwraps a blob: the DRWK, the AWK, or a key-encryption key; else the slot that a KEY.SLOT names. -/
def unwrapKey (s : State) (wrap kek : Nat) : Except Nat (List Byte) :=
  if wrap = 0 then .ok s.cip.drwk
  else if wrap = 1 then (match s.cip.awk with | some k => .ok k | none => .error 0xFFFF)
  else if pidVal s 0x0800 = 0 then .error kek
  else match slotOf s kek with
    | some x => if x.usage = 7 then .ok x.key else .error kek
    | none => .error kek

/-- The key of a blob whose integrity, header and kcv agree (R293). -/
def openBlob (wrapKey blob : List Byte) : Option (List Byte) :=
  match Config.kwpUnwrap wrapKey (blob.drop 32) with
  | none => none
  | some x => if x.take 32 = blob.take 32 ∧ kcvOf (x.drop 32) = bytesAt blob 16 16 then some (x.drop 32) else none

/-- KEY_LOAD's outcome (R293, R296, R297). -/
def keyLoad (s : State) (c : Cmd) : Decision :=
  let b := c.block
  let slot := pk c 24 2
  let wrap := numAt b 1 1
  let u := numAt b 2 1
  let kcv := bytesAt b 16 16
  let attrs := numAt b 3 1 % 4
  let attrs := if wrap = 2 then setBit attrs 1 else attrs
  let attrs := if pk c 26 1 = 1 then clearBit attrs 0 else attrs
  if (slot == 0xFFFF) != (u == 8) then refuse stFmtParam 24
  else if numAt b 0 1 ≠ 1 ∨ 2 < wrap ∨ u = 0 ∨ 8 < u then refuse stFmtParam (blockDetail 0)
  else if 8 ≤ numAt b 3 1 ∨ !allZero (bytesAt b 10 6) then refuse stFmtRsvd (blockDetail 0)
  else if b.length ≠ 72 + keyBytes u then refuse stLenShape 12
  else match unwrapKey s wrap (numAt b 8 2) with
    | .error d => refuse stKeySlot d
    | .ok w =>
      if (match usageEntry s kcv s.aon.side with | some e => e.2 | none => false) then refuse stKeySlot slot
      else match openBlob w b with
        | none => refuse stKeyUnwrap 0
        | some key =>
          let held := if u = 8 then s.cip.awk.map kcvOf else (slotOf s slot).map (·.kcv)
          match held with
          | some h => if h = kcv then noChange else refuse stResExists 0
          | none => if tableFull s u kcv then refuse stResExhausted 0 else { nums := [slot, u, attrs, numAt b 4 4], secret := key }

/-- KEY_LOAD. -/
def execKeyLoad (ring seq : Nat) (s : State) : Result := fast s <| auditedOp opKeyLoad keyLoad ring seq s

/-- The loaded key takes its slot. -/
def applyKeyLoad (d : Decision) (s : State) : State := applyKeyGenerate d s

/-- KEY_EXPORT's outcome under a key-encryption key (Table 11-3). -/
def keyExport (s : State) (c : Cmd) : Decision :=
  let slot := pk c 24 2
  let kek := pk c 28 2
  match slotOf s slot with
  | none => refuse stKeySlot slot
  | some x =>
    if !bit x.attrs 0 || x.usage == 7 then refuse stKeySlot slot
    else match slotOf s kek with
      | none => refuse stKeySlot kek
      | some k =>
        let need := 72 + x.key.length
        if k.usage ≠ 7 then refuse stKeySlot kek
        else if pk c 40 4 < need then { status := stLenShort, detail := 40, result := need }
        else { bytes := keyBlob k.key 2 x.usage x.attrs x.salt kek x.key }

/-- KEY_EXPORT: to the peer, the array wrapping key; else a blob of wrap 2. -/
def execKeyExport (ring seq : Nat) (s : State) : Result := fast s <|
  match opCmd s ring seq opKeyExport with
  | none => .next s
  | some c =>
    if s.brd.port ≠ [] ∨ awaitsKey s c then .next s
    else if pk c 26 1 = 0 then .next (takeDecision c (keyExport s c) s)
    else match s.cip.awk with
      | none => .next (takeDecision c (refuse stKeySlot 0xFFFF) s)
      | some k => if !s.hdl.paired || s.hdl.bridge then .next (takeDecision c (refuse stNetPeer 0) s) else .next (sendKey c k s)

/-- KEY_DESTROY's outcome (R298). -/
def keyDestroy (s : State) (c : Cmd) : Decision :=
  match slotOf s (pk c 24 2) with
  | none => refuse stKeySlot (pk c 24 2)
  | some x => { nums := [if bit x.attrs 2 then x.domain + 1 else 0], secret := x.kcv }

/-- KEY_DESTROY. -/
def execKeyDestroy (ring seq : Nat) (s : State) : Result := fast s <| auditedOp opKeyDestroy keyDestroy ring seq s

/-- The slot is zeroized, the kcv marked, its domain keyless; the peer is told by an operation record of the stream (R264, R298;
DESIGN CHOICE, log 51: Table 17-2 has no message for it). -/
def applyKeyDestroy (d : Decision) (s : State) : State :=
  match d.nums with
  | [n] =>
    let s := withAccess (destroyKey d.secret (if n = 0 then none else some (n - 1))) s
    appendOp s.hfe.arrival 65535 opKeyDestroy [n] d.secret s
  | _ => s

/-- KEY_QUERY's outcome (Table 11-4). -/
def keyQuery (s : State) (c : Cmd) : Decision :=
  let sel := pk c 24 1
  if sel = 1 then answer (padTo 48 s.nv.fuses.ownerRoot)
  else if sel = 2 then answer (match s.cip.awk with | some k => 1 :: (kcvOf k).take 15 | none => zeros 16)
  else
    let n := pk c 26 2
    match slotOf s n with
    | none => answer (leBytes 2 n ++ zeros 22 ++ leBytes 2 0xFFFF ++ zeros 38)
    | some x => answer (leBytes 2 n ++ [BitVec.ofNat 8 x.usage, BitVec.ofNat 8 x.attrs] ++ leBytes 4 (headSalt s x) ++ leBytes 8 x.count ++
        leBytes 8 (usageLimit x.usage) ++ leBytes 2 (if bit x.attrs 2 then x.domain else 0xFFFF) ++ zeros 6 ++ padTo 16 x.kcv ++ zeros 16)

/-- KEY_QUERY. -/
def execKeyQuery (ring seq : Nat) (s : State) : Result := fast s <| plainOp opKeyQuery 32 keyQuery (fun _ _ s => s) ring seq s

/-! ### Requests (R301 to R305) -/

/-- 16 MiB, the bound of Table 11-6. -/
abbrev cipherMax : Nat := 16777216

/-- A request: its mode, whether it decrypts, the XTS data unit, its payload length, additional data length and IV. -/
structure CipherReq where
  mode : Nat
  decrypt : Bool
  unit : Nat
  len : Nat
  aadLen : Nat
  iv : List Byte

/-- The usage that a request counts (Table 11-6). -/
def cipherCount (q : CipherReq) : Nat := if q.mode = 0 then ceilDiv q.len q.unit else if q.mode = 1 then 1 else 0

/-- The 16-byte blocks of a length. -/
def blocks16 (n : Nat) : Nat := ceilDiv n 16

/-- The length checks of Table 11-6, the first that fails. -/
def cipherLength (q : CipherReq) : Option Nat :=
  if cipherMax < q.len then some stLenOver
  else if q.mode = 0 then
    (if q.len = 0 then none else if q.len < 16 then some stLenUnder
     else if 2 ^ 128 < leNat (q.iv.take 16) + cipherCount q then some stLenShape else none)
  else if q.mode = 1 then (if 65536 < q.aadLen then some stLenOver else none)
  else if q.mode = 3 then
    (if 2 ^ 64 < leNat (bytesAt q.iv 8 8).reverse + blocks16 q.len then some stLenShape else none)
  else if q.len % 16 ≠ 0 then some stLenShape
  else none

/-- The GCM nonce of this head (R302): the salt, then the usage count before the request, both most significant byte first. -/
def gcmNonce (s : State) (x : Slot) : List Byte := beBytes 4 (headSalt s x) ++ beBytes 8 x.count

/-- The output of a request, or none where a GCM tag does not verify (R302, R304). The nonce of a GCM encryption precedes the
ciphertext where `withNonce` is set, and its tag follows it; a decryption takes its nonce from `iv`. -/
def runCipher (s : State) (x : Slot) (q : CipherReq) (withNonce : Bool) (data aad : List Byte) : Option (List Byte) :=
  if q.mode ≠ 1 then some (if q.len = 0 then [] else Config.cipher q.mode q.decrypt x.key q.iv aad data)
  else if q.decrypt then
    let ct := data.take q.len
    let tag := bytesAt data q.len 16
    if Config.gcmTagOk x.key q.iv aad ct tag then some (Config.cipher 1 true x.key q.iv aad ct) else none
  else
    let n := gcmNonce s x
    some ((if withNonce then n else []) ++ Config.cipher 1 false x.key n aad data ++ Config.gcmTag x.key n aad data)

/-- A tag did not verify: no plaintext, code 0x083 (R304). -/
def tagFailed (s : State) : State := countEvent 0x083 0 { s with cip.tagFail := satAdd (2 ^ 32 - 1) s.cip.tagFail 1 }

/-! ### LOOKASIDE_REQUEST (R300, R301) -/

/-- The output length of a lookaside request: a GCM encryption adds its tag. -/
def lookasideOut (q : CipherReq) : Nat := if q.mode = 1 ∧ !q.decrypt then q.len + 16 else q.len

/-- The input length of a lookaside request: a GCM decryption takes its tag too (DEDUCED, log 53). -/
def lookasideIn (q : CipherReq) : Nat := if q.mode = 1 ∧ q.decrypt then q.len + 16 else q.len

/-- LOOKASIDE_REQUEST: checked in the order of R301, counted at acceptance, checked for a fault before release (R305). -/
def execLookasideRequest (queue slot mode flags length aadLen : Nat) (iv : List Byte) (srcTotal dstTotal : Nat)
    (data aad : List Byte) (mismatch : Bool) (s : State) : Result := engine s <|
  let q : CipherReq := { mode := mode, decrypt := bit flags 0, unit := if bit flags 1 then 4096 else 512, len := length, aadLen := aadLen,
                         iv := if mode = 1 then iv.take 12 else iv.take 16 }
  let say := fun (st res : Nat) (out : List Byte) (s : State) => (.next (emit (.lookaside queue st res out) s) : Result)
  if s.saf.failSilent then .next s
  else match slotOf s slot with
  | none => say stKeySlot 0 [] s
  | some x =>
    if !modeAllowed x.usage mode then say stKeySlot 0 [] s
    else if overLimit x (cipherCount q) then say stKeyExhausted 0 [] (keyExhausted x s)
    else match cipherLength q with
    | some st => say st 0 [] s
    | none =>
      if lookasideIn q < srcTotal then say stLenOver 0 [] s
      else if srcTotal < lookasideIn q then say stLenUnder 0 [] s
      else if dstTotal < lookasideOut q then say stLenShort (lookasideOut q) [] s
      else
        let t := chargeKey x (cipherCount q) s
        if mismatch then .next (failSilent 1 0x080 (countEvent 0x080 0 t))
        else match runCipher s x q false data aad with
          | none => say stAuthSig 0 [] (tagFailed t)
          | some out => say stOkDone (if mode = 1 ∧ !q.decrypt then x.count else 0) out t

/-! ### CIPHER_OP (R308) -/

/-- The request of a CIPHER_OP: a GCM decryption's input is the nonce, the ciphertext and the tag. -/
def cipherOpReq (c : Cmd) (input : List Byte) : CipherReq :=
  let mode := pk c 26 1
  let dec : Bool := bit (pk c 27 1) 0
  let gcmDec : Bool := mode == 1 && dec
  { mode := mode, decrypt := dec, unit := if bit (pk c 27 1) 1 then 4096 else 512
    len := if gcmDec then pk c 28 4 - 28 else pk c 28 4, aadLen := c.block.length - 16
    iv := if gcmDec then input.take 12 else c.block.take 16 }

/-- The output length needed (R308). -/
def cipherOpOut (q : CipherReq) : Nat := if q.mode = 1 ∧ !q.decrypt then q.len + 28 else q.len

/-- CIPHER_OP's refusal, in the order of R301. -/
def cipherOpRefusal (s : State) (c : Cmd) (q : CipherReq) : Option Decision :=
  let slot := pk c 24 2
  if q.mode = 1 ∧ !allZero (c.block.take 16) then some (refuse stFmtRsvd (blockDetail 0))
  else match slotOf s slot with
  | none => some (refuse stKeySlot slot)
  | some x =>
    if bit x.attrs 2 || !modeAllowed x.usage q.mode then some (refuse stKeySlot slot)
    else if overLimit x (cipherCount q) then some (refuse stKeyExhausted slot)
    else if q.mode = 1 ∧ q.decrypt = true ∧ pk c 28 4 < 28 then some (refuse stLenUnder 28)
    else match cipherLength q with
    | some st => some (refuse st 28)
    | none => if pk c 48 4 < cipherOpOut q then some { status := stLenShort, detail := 48, result := cipherOpOut q } else none

/-- The input of a CIPHER_OP, read over C0 once, stands in Hamper region 5 (R308). Where in the region is a free value (log 168); a
region too small takes nothing. -/
def stageInput (bytes : List Byte) (s : State) : State :=
  let room := winSize s 5
  if room < bytes.length then s
  else engineWrite (winBase s 5 + freeBelow (room - bytes.length + 1) s) bytes (drewFree s)

/-- CIPHER_OP. -/
def execCipherOp (ring seq : Nat) (input : List Byte) (s : State) : Result := fast s <|
  match opCmd s ring seq opCipherOp with
  | none => .next s
  | some c =>
    let input := padTo (pk c 28 4) input
    let q := cipherOpReq c input
    let t := stageInput input s
    let fin := fun (d : Decision) (s : State) => (.next (completePlain c d (pk c 40 8) s) : Result)
    match cipherOpRefusal s c q, slotOf s (pk c 24 2) with
    | some d, some x => fin d (if d.status = stKeyExhausted then keyExhausted x t else t)
    | some d, none => fin d t
    | none, none => .next t
    | none, some x =>
      let t := chargeKey x (cipherCount q) t
      match runCipher s x q true (if q.mode = 1 ∧ q.decrypt then input.drop 12 else input) (c.block.drop 16) with
      | none => fin (refuse stAuthSig 3) (tagFailed t)
      | some out =>
        let warn : Bool := usageLimit x.usage != 0 && decide (warnPoint x.usage ≤ x.count + cipherCount q)
        fin { status := if warn then stOkWarn else stOkDone, detail := if warn then 0x081 else 0
              result := if q.mode = 1 ∧ !q.decrypt then x.count else 0, bytes := out } t

/-! ### The generator (R292) -/

/-- DRBG_RESEED: after 2^20 generate calls (log 16). -/
def execDrbgReseed (s : State) : Result := fast s <| .next { s with cip.generates := 0 }

/-- ENTROPY_HEALTH_FAIL: class 0x0A (Table 20-5), no event code of its own. -/
def execEntropyHealthFail (s : State) : Result := fast s <| .next (failSilent 0x0A 0 { s with cip.entropyOk := false })

end Sys2Proof.Machine
end

