-- ==== Sys2Proof/Machine/Dmv.lean ====
section
/-! DEFINITION. The Data Mover: descriptor checks, bursts, pacing, completion and arrival, the service lanes; and the Map Cache
invalidations that its writes make (R467 to R480, R487). -/

namespace Sys2Proof.Machine

/-! ### Lanes -/

/-- The lane `n`. -/
def laneOf (s : State) (n : Nat) : Lane := (s.dmv.lanes[n]?).getD { num := n }

/-- A lane changed. -/
def updLane (n : Nat) (f : Lane → Lane) (s : State) : State := { s with dmv.lanes := updAt n f s.dmv.lanes }

/-- The space of a tagged address (R470). -/
def spaceOf (a : Nat) : Nat := field a 60 4

/-- Its byte address. -/
def byteOf (a : Nat) : Nat := field a 0 48

/-- Bits [59:48] of a tagged address are reserved; a service lane names no Coil address (R470, R480). -/
def addrValid (lane a : Nat) : Bool :=
  decide (a < 2 ^ 64) && field a 48 12 == 0 && decide (spaceOf a ≤ 2) && !(serviceLane lane && spaceOf a == 1)

/-- A Coil address that is not a multiple of 64. -/
def coilMisaligned (a : Nat) : Bool := spaceOf a == 1 && byteOf a % 64 != 0

/-! ### Checks at fetch (R471, R472) -/

/-- A refusal of a descriptor: status, detail, and whether a denied access stands behind it: space, address, write. -/
structure DmvFail where
  status : Nat
  detail : Nat
  denied : Option (Nat × Nat × Bool) := none
  deriving DecidableEq, Repr

/-- A failure at a byte offset. -/
def dmvIf (c : Bool) (off status : Nat) : Option DmvFail := if c then some { status := status, detail := off } else none

/-- Step 1 of R471: the fields in ascending offset. `op` is 1 COPY, 2 FILL, 3 FENCE, 4 FLUSH. A Coil buffer's length follows R470
(DEDUCED, log 63). -/
def fieldFails (lane op : Nat) (d : DmvDesc) : List (Option DmvFail) :=
  let moves : Bool := op ≤ 2
  let coilDst := spaceOf d.dst == 1
  [ dmvIf (decide (8 ≤ d.flags) || (serviceLane lane && bit d.flags 2)) 1 stFmtParam,
    dmvIf (!(d.pace == 0 || (decide (0x40 ≤ d.pace) && decide (d.pace ≤ 0x81))) || (d.pace == 0x81 && !(moves && coilDst))) 2 stFmtParam,
    dmvIf (decide (16 ≤ d.notifyRing)) 3 stFmtParam,
    dmvIf (if op = 4 then decide (32 ≤ d.region) else d.region != 0) 4 stFmtParam,
    dmvIf (d.rsvd5 != 0) 5 stFmtParam,
    dmvIf (op == 1 && decide (4096 < d.srcCount)) 6 stLenOver,
    dmvIf (op != 1 && d.srcCount != 0) 6 stFmtParam,
    dmvIf (if op = 1 then !addrValid lane d.srcSgl || spaceOf d.srcSgl != 0 else if op = 2 then !addrValid lane d.srcSgl else d.srcSgl != 0) 8 stFmtParam,
    dmvIf (if moves then !addrValid lane d.dst else d.dst != 0) 16 stFmtParam,
    dmvIf (moves && coilMisaligned d.dst) 16 stFmtAlign,
    dmvIf (!moves && d.dstLen != 0) 24 stFmtParam,
    dmvIf (decide (2 ^ 44 < d.dstLen)) 24 stLenOver,
    dmvIf (coilDst && d.dstLen % 64 != 0) 24 stLenShape,
    dmvIf (op != 2 && d.pattern != 0) 32 stFmtParam,
    dmvIf (d.rsvd48 != 0) 48 stFmtParam ]

/-- The end of the window entry, or of the Coil region, that holds an address; head-processor memory has no end. -/
def windowEnd (s : State) (a : Nat) : Nat :=
  if spaceOf a = 0 then
    (match winOf s.ham.win (byteOf a) with
     | some n => winBase s n + winSize s n
     | none => 2 ^ 64)
  else if spaceOf a = 1 then (match coilRegion (byteOf a) with | some r => r.2.1 * 1048576 | none => 2 ^ 64)
  else 2 ^ 64

/-- Step 2 of R471 for one entry. -/
def entryFail (s : State) (lane : Nat) (e : SgEntry) : Option Nat :=
  if !addrValid lane e.addr || e.rsvd != 0 then some stFmtParam
  else if coilMisaligned e.addr then some stFmtAlign
  else if spaceOf e.addr = 1 ∧ e.len % 64 ≠ 0 then some stLenShape
  else if windowEnd s e.addr < byteOf e.addr + e.len then some stLenOver
  else none

/-- A lane may touch a range of a space, window entry by window entry. -/
def laneRange (s : State) (lane : Nat) (write : Bool) (space : Nat) : Nat → Nat → Nat → Bool
  | 0, _, n => n == 0
  | fuel + 1, a, n =>
    if n = 0 ∨ space = 2 then true
    else if space = 1 then
      coilAllows (lanePlane lane) write a &&
      (match coilRegion a with
       | some r => if a + n ≤ r.2.1 * 1048576 then true else laneRange s lane write 1 fuel (r.2.1 * 1048576) (a + n - r.2.1 * 1048576)
       | none => false)
    else
      laneAllows s lane write a 1 &&
      (match winOf s.ham.win a with
       | some k =>
         let e := winBase s k + winSize s k
         if a + n ≤ e then true else laneRange s lane write 0 fuel e (a + n - e)
       | none => false)

/-- A range with its window check: space, address, length, write, and the index its detail carries. -/
def rangeFail (s : State) (lane : Nat) (r : Nat × Nat × Nat × Bool × Nat) : Option DmvFail :=
  if laneRange s lane r.2.2.2.1 r.1 33 r.2.1 r.2.2.1 then none
  else some { status := stFmtParam, detail := 0x8000 + r.2.2.2.2, denied := some (r.1, r.2.1, r.2.2.2.1) }

/-- The sum of the entry lengths. -/
def totalOf (srcs : List SgEntry) : Nat := (srcs.map (·.len)).foldl (· + ·) 0

/-- The ranges that a descriptor touches (R472), the source list first. -/
def rangesOf (op : Nat) (d : DmvDesc) (srcs : List SgEntry) (total : Nat) : List (Nat × Nat × Nat × Bool × Nat) :=
  (if op = 1 then [(0, byteOf d.srcSgl, 16 * srcs.length, false, 0)] else []) ++
  srcs.zipIdx.map (fun e => (spaceOf e.1.addr, byteOf e.1.addr, e.1.len, false, e.2)) ++
  (if op ≤ 2 then [(spaceOf d.dst, byteOf d.dst, total, true, 0x7FFF)] else [])

/-- The checks of R471 in order; the first failure. -/
def descFail (s : State) (lane op : Nat) (d : DmvDesc) (srcs : List SgEntry) : Option DmvFail :=
  let total := if op = 1 then totalOf srcs else if op = 2 then d.dstLen else 0
  match (fieldFails lane op d).findSome? id with
  | some f => some f
  | none =>
    match srcs.zipIdx.findSome? fun e => (entryFail s lane e.1).map fun st => ({ status := st, detail := 0x8000 + e.2 } : DmvFail) with
    | some f => some f
    | none =>
      match (rangesOf op d srcs total).findSome? (rangeFail s lane) with
      | some f => some f
      | none => if op = 1 ∧ d.dstLen < total then some { status := stLenOver, detail := 24 } else none

/-! ### Completion records (R476, R479, R480) -/

/-- The 32 bytes of a completion record (Table 18-3). -/
def dmvRecordBytes (lane tag moved status detail : Nat) (arrived phase : Bool) (time : Nat) : List Byte :=
  leBytes 8 tag ++ leBytes 8 moved ++ leBytes 2 status ++ leBytes 2 detail ++ leBytes 1 lane ++ leBytes 1 (flagAt arrived 0 + flagAt phase 1) ++
    zeros 2 ++ leBytes 8 time

/-- The completion ring of a service lane is full (R91). -/
def svcFull (l : Lane) : Bool := (l.cqTail + 1) % 2 ^ l.sizeLog2 == l.cqHead

/-- A record placed in the completion ring; the phase inverts at each wrap. -/
def placeDmvRecord (n : Nat) (r : Nat × Nat × Nat × Nat) (s : State) : State :=
  let l := laneOf s n
  let tail := (l.cqTail + 1) % 2 ^ l.sizeLog2
  updLane n (fun l => { l with cqTail := tail, phase := if tail = 0 then !l.phase else l.phase })
    (emit (.dmvRecord n r.1 r.2.1 r.2.2.1 r.2.2.2 false l.phase s.now) s)

/-- A service lane's record is posted, or held in order while its ring is full. -/
def svcRecord (n : Nat) (r : Nat × Nat × Nat × Nat) (s : State) : State :=
  let l := laneOf s n
  if svcFull l || l.held != [] then updLane n (fun l => { l with held := l.held ++ [r] }) s else placeDmvRecord n r s

/-- A descriptor's record: a service lane posts it; another lane's becomes a notice where one is asked for, once its writes have
arrived (R476, R479). -/
def endRecord (n : Nat) (r : Running) (status detail : Nat) (s : State) : State :=
  if serviceLane n then svcRecord n (r.desc.tag, r.moved, status, detail) s
  else if bit r.desc.flags 2 then
    if (laneOf s n).writes.any (fun w => w.id == r.id) then
      updLane n (fun l => { l with notices := l.notices ++ [{ id := r.id, tag := r.desc.tag, moved := r.moved, ring := r.desc.notifyRing, status := status }] }) s
    else rimPost r.desc.notifyRing n (dmvRecordBytes n r.desc.tag r.moved status detail true false s.now) s
  else s

/-- The running descriptor ends. -/
def endRun (n : Nat) (status detail : Nat) (s : State) : State :=
  match (laneOf s n).run with
  | none => s
  | some r => endRecord n r status detail (updLane n (fun l => { l with run := none, paceWait := none, fenceWait := false }) s)

/-- The running descriptor is complete: its last write has left (R476). -/
def completeRun (n : Nat) (s : State) : State :=
  endRun n stOkDone 0 (updLane n (fun l => { l with done := satAdd (2 ^ 32 - 1) l.done 1 }) s)

/-! ### FENCE and FLUSH (R477, R478) -/

/-- The running FENCE or FLUSH of a lane need not wait any longer. -/
def fencePassed (s : State) (l : Lane) : Bool :=
  match l.run with
  | some r =>
    if r.op = 3 then l.writes.isEmpty
    else if r.op = 4 then s.dmv.lanes.all fun x => x.writes.all fun w => !(decide (w.seq < r.id) && w.region == some r.desc.region)
    else false
  | none => false

/-- Every FENCE and FLUSH that need not wait completes. -/
def passFences (s : State) : State :=
  (s.dmv.lanes.map (·.num)).foldl (fun s n => if (laneOf s n).fenceWait && fencePassed s (laneOf s n) then completeRun n s else s) s

/-! ### Taking a descriptor (R468, R471, R472) -/

/-- The lane takes a descriptor: it runs none, no full Rim ring stalls it (R30), and a service lane's ring has one and room for its
record (R91, R468, R480). -/
def takes (s : State) (n : Nat) : Bool :=
  let l := laneOf s n
  decide (n < 16) && l.run.isNone && !l.stopped && !rimStalls s n &&
  (!serviceLane n || (l.enable && l.sqHead != l.sqTail && l.held.isEmpty))

/-- A descriptor leaves its queue: a service lane's submission ring, or the Rim ring whose entries are the lane's descriptors (Table
18-1; DEDUCED, log 166: the command carries the oldest of them). -/
def nextDescriptor (n : Nat) (s : State) : State :=
  if serviceLane n then updLane n (fun l => { l with sqHead := (l.sqHead + 1) % 2 ^ l.sizeLog2 }) s else rimShift (16 + n) s

/-- A FLUSH of a disabled window entry, or of one of size zero (R478). -/
def flushesNothing (s : State) (op : Nat) (d : DmvDesc) : Bool :=
  let w := (s.ham.win[d.region]?).getD { base := 0 }
  op == 4 && (!w.enable || w.size == 0)

/-- A descriptor is refused: code 0x0E0; a denied range is captured and counted, and on lanes 0 to 13 it is the engine's
fault (R471, R472). -/
def refuseDesc (n op : Nat) (d : DmvDesc) (f : DmvFail) (s : State) : State :=
  match f.denied with
  | some (space, addr, write) =>
    let s := if space = 1 then deniedCol (lanePlane n) addr write s else deniedHam (lanePlane n) addr write s
    if serviceLane n then
      endRecord n { op := op, desc := d } f.status f.detail (countEvent 0x0E0 0 { s with dmv.refused := satAdd (2 ^ 32 - 1) s.dmv.refused 1 })
    else engineDenied s
  | none => endRecord n { op := op, desc := d } f.status f.detail (countEvent 0x0E0 0 { s with dmv.refused := satAdd (2 ^ 32 - 1) s.dmv.refused 1 })

/-- A descriptor taken by a lane: refused, run, or complete at once. -/
def takeDesc (n op : Nat) (d : DmvDesc) (srcs : List SgEntry) (s : State) : Result :=
  if !takes s n then .next s
  else
    let s := nextDescriptor n s
    let srcs := srcs.take d.srcCount
    match descFail s n op d srcs with
    | some f => .next (refuseDesc n op d f s)
    | none =>
      let total := if op = 1 then totalOf srcs else if op = 2 then d.dstLen else 0
      let r : Running := { op := op, desc := d, srcs := srcs, total := total, id := s.dmv.nextId }
      let s := updLane n (fun l => { l with run := some r, fenceWait := decide (3 ≤ op) }) { s with dmv.nextId := s.dmv.nextId + 1 }
      if (op ≤ 2 ∧ total = 0) ∨ flushesNothing s op d then .next (completeRun n s) else .next (passFences s)

/-- COPY. -/
def execCopy (lane : Nat) (desc : DmvDesc) (srcs : List SgEntry) (s : State) : Result := engine s <| takeDesc lane 1 desc srcs s

/-- FILL. -/
def execFill (lane : Nat) (desc : DmvDesc) (s : State) : Result := engine s <| takeDesc lane 2 desc [] s

/-- FENCE. -/
def execFence (lane : Nat) (desc : DmvDesc) (s : State) : Result := engine s <| takeDesc lane 3 desc [] s

/-- FLUSH (R478). -/
def execFlush (lane : Nat) (desc : DmvDesc) (s : State) : Result := engine s <| takeDesc lane 4 desc [] s

/-! ### Bursts (R473, R474) -/

/-- The bit of an endpoint in a request mask: 0 to 63 the Stake ports, 64 the peer-link transmitter, 65 the Coil write port. -/
def endpointBit (pace : Nat) : Nat := if pace < 0x80 then pace - 0x40 else pace - 0x80 + 64

/-- A lane has a burst ready under the requests that are asserted. -/
def burstReady (requests : Nat) (l : Lane) : Bool :=
  match l.run with
  | some r => decide (r.op ≤ 2) && l.paceWait.isNone && !l.stopped && (r.desc.pace == 0 || bit requests (endpointBit r.desc.pace))
  | none => false

/-- The priority of a lane's running descriptor. -/
def lanePriority (l : Lane) : Nat := match l.run with | some r => r.desc.flags % 4 | none => 0

/-- The lane that the port serves: the oldest of those ready for 2 µs, else the highest level, in round robin after the lane
last served there (R473). -/
def grantLane (requests : Nat) (age : List Nat) (s : State) : Option Nat :=
  let ready := fun (n : Nat) => burstReady requests (laneOf s n)
  match age.find? ready with
  | some n => some n
  | none =>
    [3, 2, 1, 0].findSome? fun p =>
      let after := (s.dmv.lastServed[p]?).getD 15
      ((List.range 16).map fun k => (after + 1 + k) % 16).find? fun n => ready n && lanePriority (laneOf s n) == p

/-- The source entry that holds byte `k` of a COPY, and its offset there. -/
def srcAt : List SgEntry → Nat → Option (SgEntry × Nat)
  | [], _ => none
  | e :: t, k => if k < e.len then some (e, k) else srcAt t (k - e.len)

/-- The next burst: its length, which crosses no 512-byte boundary of the destination and no end of a source entry. -/
def burstLen (r : Running) : Nat :=
  let room := 512 - (byteOf r.desc.dst + r.moved) % 512
  let left := r.total - r.moved
  match (if r.op = 1 then srcAt r.srcs r.moved else none) with
  | some (e, k) => min (min room left) (e.len - k)
  | none => min room left

/-- The bytes a burst reads: from the Hamper; those of Coil and of head-processor memory are free values (log 64). -/
def burstBytes (s : State) (r : Running) (n : Nat) : List Byte :=
  if r.op = 2 then (List.range n).map fun k => BitVec.ofNat 8 (field r.desc.pattern (8 * ((r.moved + k) % 8)) 8)
  else match srcAt r.srcs r.moved with
  | some (e, k) => if spaceOf e.addr = 0 then memRead s.ham.mem (byteOf e.addr + k) n else freeBytes n s
  | none => []

/-- The arbiter denies the burst that is next (R472). -/
def burstDenied (s : State) (lane : Nat) (r : Running) (n : Nat) : Option (Nat × Nat × Bool) :=
  let dst := byteOf r.desc.dst + r.moved
  let src := if r.op = 1 then (srcAt r.srcs r.moved).map fun e => (spaceOf e.1.addr, byteOf e.1.addr + e.2) else none
  if (match src with | some e => !laneRange s lane false e.1 33 e.2 n | none => false) then src.map fun e => (e.1, e.2, false)
  else if !laneRange s lane true (spaceOf r.desc.dst) 33 dst n then some (spaceOf r.desc.dst, dst, true)
  else none

/-- The burst reads a poisoned line (R518). -/
def burstPoisoned (s : State) (r : Running) (n : Nat) : Bool :=
  r.op == 1 && (match srcAt r.srcs r.moved with | some (e, k) => spaceOf e.addr == 0 && poisonedIn s (byteOf e.addr + k) n | none => false)

/-- A burst leaves its lane; the last completes the descriptor. Bytes for head-processor memory leave over C0. -/
def issueBurst (lane : Nat) (r : Running) (s : State) : State :=
  let n := burstLen r
  let bytes := burstBytes s r n
  let dst := byteOf r.desc.dst + r.moved
  let space := spaceOf r.desc.dst
  let w : DmvWrite := { id := r.id, space := space, addr := dst, bytes := bytes, seq := s.dmv.nextId,
                        region := if space = 0 then winOf s.ham.win dst else none
                        whole := if r.moved = 0 ∧ 4096 < r.total then r.total else 0 }
  let s := { s with dmv.nextId := s.dmv.nextId + 1, free := s.free + n }
  let s := if space = 2 then emit (.hostWrite dst bytes) s else s
  let s := updLane lane (fun l => { l with run := some { r with moved := r.moved + n }, writes := l.writes ++ [w] }) s
  if r.moved + n = r.total then completeRun lane s else s

/-- A lane's request is withdrawn: it waits (R474). -/
def paceChecks (requests : Nat) (s : State) : State :=
  { s with dmv.lanes := s.dmv.lanes.map fun l =>
      match l.run with
      | some r =>
        if r.op ≤ 2 ∧ r.desc.pace ≠ 0 ∧ !bit requests (endpointBit r.desc.pace) ∧ l.paceWait.isNone then { l with paceWait := some s.now } else l
      | none => l }

/-- BURST_GRANT: `age` names the lanes ready for 2 µs, oldest first. -/
def execBurstGrant (requests : Nat) (age : List Nat) (s : State) : Result := engine s <|
  let s := paceChecks requests s
  match grantLane requests age s with
  | none => .next s
  | some n =>
    match (laneOf s n).run with
    | none => .next s
    | some r =>
      let s := { s with dmv.lastServed := updAt (r.desc.flags % 4) (fun _ => n) s.dmv.lastServed }
      match burstDenied s n r (burstLen r) with
      | some (space, addr, write) =>
        let s := if space = 1 then deniedCol (lanePlane n) addr write s else deniedHam (lanePlane n) addr write s
        if serviceLane n then .next (endRun n stFmtParam 0 s) else .next (engineDenied s)
      | none => if burstPoisoned s r (burstLen r) then .next (failSilent 1 0 s) else .next (issueBurst n r s)

/-- PACE_REQUEST_RESUME (R474). -/
def execPaceRequestResume (lane : Nat) (s : State) : Result := engine s <| .next (updLane lane (fun l => { l with paceWait := none }) s)

/-- PACE_TIMEOUT (R475): the request has stayed withdrawn for PID 0x0E00 ms (log 16); code 0x0E1 carries the bytes moved. -/
def execPaceTimeout (lane : Nat) (s : State) : Result := engine s <|
  match (laneOf s lane).run, (laneOf s lane).paceWait with
  | some r, some _ =>
    .next (endRun lane stDevTimeout 0 (countEvent 0x0E1 r.moved { s with dmv.paceTimeout := satAdd (2 ^ 32 - 1) s.dmv.paceTimeout 1 }))
  | _, _ => .next s

/-! ### Arrival and the Map Cache's lines (R476, R479, R487) -/

/-- An address lies in an entry that is cacheable: named by PID 0x0E10, with no write access for the data or the management
plane (R481). -/
def cacheableEntry (s : State) (n : Nat) : Bool :=
  let w := (s.ham.win[n]?).getD { base := 0 }
  bit (pidVal s 0x0E10) n && decide (winCode w 1 < 2) && decide (winCode w 3 < 2)

/-- A Hamper address is cacheable. -/
def cacheable (s : State) (a : Nat) : Bool := match winOf s.ham.win a with | some n => cacheableEntry s n | none => false

/-- The line of an address. -/
def lineAddr (a : Nat) : Nat := a / 128 * 128

/-- Lines of a range are invalidated: a fill outstanding is not allocated; a line of a locked way sets its lock-lost bit and
counts code 0x0E2 (Table 18-4). -/
def invalidateRange (a n : Nat) (s : State) : State :=
  let hit := fun (x : Nat) => decide (x < a + n) && decide (a < x + 128)
  let gone := s.mch.lines.filter fun l => hit l.addr
  let s := { s with
    mch.lines := s.mch.lines.filter fun l => !hit l.addr
    mch.fills := s.mch.fills.map fun f => if hit f.addr then { f with alloc := false } else f
    mch.hwInv := satAdd (2 ^ 32 - 1) s.mch.hwInv gone.length }
  gone.foldl (fun s l => if bit s.mch.lock l.way then countEvent 0x0E2 0 { s with mch.lockLost := setBit s.mch.lockLost l.way } else s) s

/-- A descriptor whose destination in a cacheable entry exceeds 4 KiB invalidates its whole range at its first burst, and holds
the range up to its last (R487). -/
def rangeInvalidate (w : DmvWrite) (s : State) : State :=
  if w.whole = 0 then s
  else invalidateRange w.addr w.whole { s with mch.ranges := s.mch.ranges ++ [(w.id, w.addr, w.whole)] }

/-- A descriptor still runs, or has a write that has not arrived. -/
def descLive (s : State) (id : Nat) : Bool :=
  s.dmv.lanes.any fun l => (match l.run with | some r => r.id == id | none => false) || l.writes.any fun w => w.id == id

/-- One write arrives: accepted by the Hamper's arbiter, with the cached lines it covers invalidated. -/
def arriveWrite (w : DmvWrite) (s : State) : State :=
  if w.space ≠ 0 then s
  else
    let s := { s with ham.mem := memWrite s.ham.mem w.addr w.bytes }
    if cacheable s w.addr then invalidateRange w.addr w.bytes.length (rangeInvalidate w s) else s

/-- Notices whose writes have all arrived are posted (R479). -/
def postNotices (lane : Nat) (s : State) : State :=
  let l := laneOf s lane
  let due := l.notices.filter fun n => !l.writes.any fun w => w.id == n.id
  due.foldl (fun s n => rimPost n.ring lane (dmvRecordBytes lane n.tag n.moved n.status 0 true false s.now) s)
    (updLane lane (fun l => { l with notices := l.notices.filter fun n => l.writes.any fun w => w.id == n.id }) s)

/-- WRITES_ARRIVED: the oldest `count` writes of a lane have arrived. -/
def execWritesArrived (lane count : Nat) (s : State) : Result := engine s <|
  let ws := (laneOf s lane).writes.take count
  let s := ws.foldl (fun s w => arriveWrite w s) (updLane lane (fun l => { l with writes := l.writes.drop count }) s)
  let s := { s with mch.ranges := s.mch.ranges.filter fun r => descLive s r.1 }
  .next (passFences (postNotices lane s))

/-- C0_WRITE_ARRIVAL_TIMEOUT (R477): a FENCE's writes to head-processor memory have not arrived 50 ms after they left (log 16): the lane is
stopped as R93 stops a ring, with code 0x020. -/
def execC0WriteArrivalTimeout (lane : Nat) (s : State) : Result := engine s <|
  let l := laneOf s lane
  let waits : Bool := match l.run with | some r => r.op == 3 && l.writes.any fun w => w.space == 2 | none => false
  if !waits then .next s
  else .next (countEvent 0x020 0 (updLane lane (fun l => { l with run := none, fenceWait := false, paceWait := none, stopped := true, enable := false, held := [] }) s))

/-! ### Service lanes (R480) -/

/-- A service lane stops at its burst boundary: its descriptor ends with no record. -/
def stopLane (n : Nat) (s : State) : State :=
  updLane n (fun l => { l with run := none, paceWait := none, fenceWait := false, held := [], enable := false, stopped := true }) s

/-- DMV_SVC_CFG_n written, as PLM_RING_CFG_n is (R87, R89). -/
def svcCfgWrite (n v : Nat) (s : State) : State :=
  let l := laneOf s n
  let size := field v 0 4
  if l.enable then (if size ≠ l.sizeLog2 ∨ bit v 31 then s else stopLane n s)
  else
    let s := updLane n (fun l => { l with sizeLog2 := size }) s
    if !bit v 31 || decide (size < 4) || decide (12 < size) then s
    else updLane n (fun l => { l with
      enable := true, stopped := false, sqHead := 0, sqTail := 0, cqTail := 0, cqHead := 0, phase := true, held := [] }) s

/-- DMV_SVC_CFG_WRITE: the registers exist for lanes 14 and 15. -/
def execDmvSvcCfgWrite (lane : Nat) (value : Word) (s : State) : Result := fast s <|
  if serviceLane lane && decide (lane < 16) then .next (svcCfgWrite lane value.toNat s) else .next s

/-- DMV_SVC_TAIL_DOORBELL (R90): a value of 2^size_log2 or more is ignored. -/
def execDmvSvcTailDoorbell (lane : Nat) (value : Word) (s : State) : Result := fast s <|
  let t := field value.toNat 0 12
  if serviceLane lane && decide (t < 2 ^ (laneOf s lane).sizeLog2) then .next (doorbellWakes (updLane lane (fun l => { l with sqTail := t }) s))
  else .next (doorbellWakes s)

/-- Held records are posted in order while there is room (R91). -/
def releaseRecords (n : Nat) : Nat → State → State
  | 0, s => s
  | k + 1, s =>
    let l := laneOf s n
    match l.held with
    | [] => s
    | r :: t => if svcFull l then s else releaseRecords n k (placeDmvRecord n r (updLane n (fun l => { l with held := t }) s))

/-- DMV_SVC_HEAD_DOORBELL (R90, R91). -/
def execDmvSvcHeadDoorbell (lane : Nat) (value : Word) (s : State) : Result := fast s <|
  let h := field value.toNat 0 12
  if serviceLane lane && decide (h < 2 ^ (laneOf s lane).sizeLog2) then
    let s := updLane lane (fun l => { l with cqHead := h }) (doorbellWakes s)
    .next (releaseRecords lane (laneOf s lane).held.length s)
  else .next (doorbellWakes s)

end Sys2Proof.Machine
end

