-- ==== Sys2Proof/Machine/Recorder.lean ====
section
/-! DEFINITION. The event recorder's commands and time steps (R528 to R538). -/

namespace Sys2Proof.Machine

/-- The event codes that the chapters define (R528). -/
def definedCodes : List Nat :=
  [0x001, 0x002, 0x003, 0x012, 0x020, 0x030, 0x033, 0x050, 0x051, 0x052, 0x054, 0x060, 0x061, 0x062, 0x063, 0x064, 0x065,
   0x066, 0x067, 0x068, 0x069, 0x06A, 0x06B, 0x06C, 0x06D, 0x070, 0x071, 0x072, 0x073] ++
  [0x080, 0x081, 0x082, 0x083, 0x090, 0x091, 0x092, 0x093, 0x094, 0x095, 0x096, 0x0A0, 0x0A1, 0x0A2, 0x0A3, 0x0A4, 0x0A5,
   0x0A6, 0x0A8, 0x0A9, 0x0AA, 0x0AB, 0x0AC, 0x0B0, 0x0B1, 0x0B2, 0x0B3, 0x0B4, 0x0B5, 0x0B6, 0x0B7, 0x0B8, 0x0B9, 0x0BA,
   0x0BB, 0x0BC] ++
  [0x0C0, 0x0C2, 0x0C3, 0x0C4, 0x0C5, 0x0C6, 0x0C7, 0x0C8, 0x0C9, 0x0D0, 0x0D1, 0x0D4, 0x0D5, 0x0D6, 0x0D7, 0x0D8, 0x0D9,
   0x0DA, 0x0DB, 0x0DC, 0x0DD, 0x0E0, 0x0E1, 0x0E2, 0x0E3, 0x0F0, 0x0F2, 0x0F3, 0x100, 0x101, 0x102, 0x104, 0x105, 0x106,
   0x107]

/-- EVENT_NOTICE (R528, R530): an occurrence of a defined code; only value codes carry a value (R529). -/
def execEventNotice (code value : Nat) (s : State) : Result := fast s <|
  if definedCodes.contains code then .next (countEvent code (if valueCode code then value else 0) s) else .next s

/-! ### Records (R534) -/

/-- A record of this moment. -/
def evrNew (kind code : Nat) (body : List Nat) (s : State) : EvrRec :=
  { kind := kind, code := code, epoch := s.evr.epochNum, boot := s.nv.bootCounter, mono := s.now, lossy := s.evr.lossy,
    body := body }

/-- The bytes of a record's body, 32 to 123 (Table 21-4). -/
def evrBody (r : EvrRec) : List Byte :=
  match r.kind with
  | 1 => (r.body.take 7 |>.map (leBytes 8)).flatten ++ leBytes 4 ((r.body[7]?).getD 0)
  | 4 => leBytes 1 ((r.body[0]?).getD 0) ++ zeros 3 ++ (r.body.drop 1 |>.map (leBytes 4)).flatten
  | 0x10 => leBytes 4 ((r.body[0]?).getD 0) ++ leBytes 4 ((r.body[1]?).getD 0) ++ leBytes 8 0
  | _ => (r.body.map (leBytes 8)).flatten

/-- The 128 bytes of a record (Table 21-3). -/
def evrBytes (r : EvrRec) : List Byte :=
  let b := [0x71, BitVec.ofNat 8 r.kind] ++ leBytes 2 (r.code % 1024) ++ leBytes 4 r.epoch ++ leBytes 8 r.boot ++
    leBytes 8 r.mono ++ leBytes 4 r.gen ++ leBytes 4 (flagAt r.lossy 0) ++ padTo 92 (evrBody r)
  b ++ leBytes 4 (crc32c b)

/-- The summary of a code's figures in the ending epoch, and its histogram parts with a non-zero count (R532). -/
def summaryOf (s : State) (c : Counter) : List EvrRec :=
  let live := counterOf s.evr.live c.code
  let parts := (List.range 3).filterMap fun k =>
    let bins := ((c.hist.drop (22 * k)).take 22)
    if bins.any (· != 0) then some (evrNew 4 c.code (k :: bins) s) else none
  evrNew 1 c.code [c.count, c.first, c.last, c.min, c.max, live.count, live.first, c.suppressed] s ::
    (if valueCode c.code then parts else [])

/-- EPOCH_END (R532): the summaries in ascending code order, then the next epoch, whose length PID 0x0F00 gives now; with
a new length the epoch number is the boundary's time over that length (DEDUCED, log 25). -/
def execEpochEnd (s : State) : Result := fast s <|
  let recs := ((s.evr.epoch.filter fun c => decide (0 < c.count)).map (summaryOf s)).flatten
  let s1 := { s with evr.epoch := [] }
  let s2 := recs.foldl (fun s r => evrRecord r s) s1
  let len := pidVal s 0x0F00
  let boundary := s.evr.epochStart + s.evr.lenS * 1000000000
  .next { s2 with
    evr.epochNum := if len = s.evr.lenS then s.evr.epochNum + 1 else boundary / (len * 1000000000)
    evr.epochStart := boundary
    evr.lenS := len
    evr.lossy := false }

/-- START_MARKER (R535): once Coil is ready, the recorder counts a torn last record, writes its start marker and then
what waited; a full region records nothing. -/
def execStartMarker (s : State) : Result := fast s <|
  if !s.boot.coilReady || !s.evr.coilWait then .next s
  else
    let torn := match s.nv.evrRecs.getLast? with | some r => r.kind == 0 | none => false
    let s := countIf torn 0x001 { s with evr.coilWait := false }
    if evrCap ≤ s.nv.evrRecs.length then
      let lost := s.evr.heldRecs.length + 1
      .next (countEvent 0x002 0 { s with evr.full := true, evr.heldRecs := [], evr.overflow := s.evr.overflow + lost })
    else
      let held := s.evr.heldRecs
      let s := evrRecord (evrNew 0x10 0 [pidVal s 0x0F00, pidVal s 0x0F01] s) { s with evr.recording := true, evr.heldRecs := [] }
      .next (held.foldl (fun s r => evrRecord r s) s)

/-! ### EVR_READ and EVR_CLEAR (R536) -/

/-- The 320 bytes of a code's live counters (Table 21-5). -/
def liveBytes (c : Counter) : List Byte :=
  ([c.count, c.first, c.last, c.min, c.max, c.count, c.first, 0].map (leBytes 8)).flatten ++
    ((if c.hist = [] then List.replicate 64 0 else c.hist).map (leBytes 4)).flatten

/-- EVR_READ's outcome. -/
def evrRead (s : State) (c : Cmd) : Decision :=
  let h := s.nv.evrRecs.length
  match pk c 24 1 with
  | 0 =>
    let rs := (s.nv.evrRecs.drop (pk c 28 4)).take (pk c 32 4)
    { result := rs.length + h * 2 ^ 32, bytes := (rs.map evrBytes).flatten }
  | 1 => answer (liveBytes (counterOf s.evr.live (pk c 26 2)))
  | _ => answer (leBytes 4 h ++ leBytes 4 s.nv.evrGen ++ leBytes 8 s.evr.overflow ++ leBytes 8 s.evr.epochNum ++
      leBytes 8 s.evr.stageDrop)

/-- EVR_READ. -/
def execEvrRead (ring seq : Nat) (s : State) : Result := fast s <| plainOp opEvrRead 36 evrRead (fun _ _ s => s) ring seq s

/-- EVR_CLEAR's outcome. -/
def evrClear (s : State) (c : Cmd) : Decision :=
  if s.nv.evrRecs.length < pk c 28 4 then refuse stLenOver 28
  else if pk c 28 4 = 0 ∧ ¬ bit (pk c 24 1) 0 then noChange
  else { nums := [pk c 28 4, pk c 24 1 % 2] }

/-- The clear: later records move to the front, the generation increments, the overflow clears, code 0x003 is counted;
then a reset of the live counters takes effect (R536). -/
def applyEvrClear (d : Decision) (s : State) : State :=
  match d.nums with
  | [c, reset] =>
    let class8 := s.saf.failSilent && s.aon.cause.cls == 8
    let s := { s with
      nv.evrRecs := s.nv.evrRecs.drop c
      nv.evrGen := s.nv.evrGen + 1
      evr.overflow := 0
      evr.full := decide (evrCap ≤ (s.nv.evrRecs.drop c).length)
      evr.recording := !s.evr.coilWait && !class8 && decide ((s.nv.evrRecs.drop c).length < evrCap) }
    let s := countEvent 0x003 0 s
    evrFlush (if reset = 1 then { s with evr.live := [], evr.epoch := [] } else s)
  | _ => s

/-- EVR_CLEAR. -/
def execEvrClear (ring seq : Nat) (s : State) : Result := fast s <| auditedOp opEvrClear evrClear ring seq s

end Sys2Proof.Machine
end

