-- ==== Sys2Proof/Machine/Io.lean ====
section
/-! DEFINITION. NVMe I/O commands: the checks at fetch, tags, payloads, reads, forwarding, the pass of an ownership move (R182 to
R189, R193, R195 to R198, R204 to R217). -/

namespace Sys2Proof.Machine

/-! ### Checks at fetch (R182 to R184, R217, R263) -/

/-- The kind of an I/O opcode (R188, Table 07-5). -/
def ioKind (op : Nat) : Nat :=
  if op = 0x00 then 2 else if op = 0x01 then 1 else if op = 0x02 then 0 else if op = 0x05 then 5 else if op = 0x08 then 3
  else if op = 0x09 then 4 else 6

/-- The blocks of a command; NLB is 0-based (R182). -/
def ioBlocks (c : IoCmd) : Nat := if ioKind c.opcode = 2 ∨ ioKind c.opcode = 4 then 0 else c.nlb + 1

/-- The bytes a command transfers: extended blocks, without protection information where the device makes or strips it
(R195, R197, R198). -/
def ioTransfer (v : Volume) (c : IoCmd) : Nat :=
  ioBlocks c * (blockBytes v.format + if c.pi.pract then 0 else metaBytes v.format)

/-- MDTS: 8 MiB (Table 07-4). -/
abbrev mdts : Nat := 8388608

/-- The completions of R182, in its order. The data pointer is the receiving head's; the ranges of Dataset Management, whose NR is
0-based, are 16 bytes each. -/
def lengthRefusal (v : Volume) (here : Bool) (c : IoCmd) : Option NvmeStatus :=
  let k := ioKind c.opcode
  let moves : Bool := k == 0 || k == 1 || k == 5
  if moves && decide (mdts < ioTransfer v c) then some .invalidField
  else if k = 4 then
    (if c.ad && c.ranges.any (fun r => r.2 != 0 && decide (v.size < r.1 + r.2)) then some .lbaOutOfRange
     else if here && decide (c.sglLen < 16 * (c.nlb + 1)) then some .sglLengthInvalid else none)
  else if k ≠ 2 && decide (v.size < c.slba + ioBlocks c) then some .lbaOutOfRange
  else if here && moves && decide (c.sglLen < ioTransfer v c) then some .sglLengthInvalid
  else none

/-- A command's refusal before it takes a lock: its namespace, the state of access, write protection, its lengths. In bridge mode
every command goes to the VV4204 (R463). -/
def ioRefusal (s : State) (own : Option Ctrl) (c : IoCmd) : Option NvmeStatus :=
  if s.hdl.bridge then (if s.hdl.silent then some .accessInaccessible else none)
  else if ioKind c.opcode = 2 ∧ c.nsid = 0xFFFFFFFF then none
  else match (if c.nsid = 0 then none else volumeOf s (c.nsid - 1)) with
  | none => some .invalidNamespace
  | some v =>
    if (match own with | some x => !attached x v | none => false) then some .invalidNamespace
    else
      let a := anaState s v
      let protected_ : Bool := (ioKind c.opcode == 1 || ioKind c.opcode == 3) &&
        (match domainOf s v.domain with | some d => d.writeProtected | none => false)
      if a = 3 then some .accessInaccessible
      else if a = 15 ∨ (own.isNone ∧ a ≠ 1) then some .accessTransition
      else if protected_ then some .writeProtected
      else lengthRefusal v own.isSome c

/-- A command that has no tag completes. -/
def completeUntagged (w : Waiting) (st : NvmeStatus) (s : State) : State :=
  match w.peerTag with
  | some p => respondPeer p.1 0 0 (nvmeCode st) [] s
  | none => emit (.nvmeCpl w.ctrl w.sq w.cid st 0 []) s

/-- A controller fetches from a queue: it is enabled, data service runs, the queue exists and is not being deleted (R81, R194). -/
def fetches (s : State) (ctrl sq : Nat) : Bool :=
  s.boot.service && !s.boot.frontEndsStopped &&
  (match ctrlOf s ctrl with
   | some c => c.en && !c.cfs && !c.resetting && (c.sqs.any fun q => q.1 == sq) && !c.deletes.any fun d => d.2 == sq
   | none => false)

/-- Capsules that wait for a tag (R187, HFE_PEND_DEPTH). -/
def pendingCapsules (s : State) : Nat := (s.hfe.waiting.filter fun w => w.peerTag.isNone && decide (2 ≤ w.ctrl)).length

/-- The free tags: those never used and those freed (R187). -/
def freeTags (s : State) : Nat := 65536 - s.hfe.freeNext + s.hfe.freed.length

/-- No further entry is fetched or capsule taken: a PCIe controller stops while no free tag is left for the entry, the pending list of
the capsules holds 524,288 (R187). -/
def fetchStops (ctrl : Nat) (s : State) : Bool :=
  if 2 ≤ ctrl then decide (524288 ≤ pendingCapsules s) else decide (freeTags s ≤ s.hfe.waiting.length)

/-- An I/O command is fetched: it completes at once where it is refused, else it waits for its tag (R182, R187; DESIGN CHOICE,
log 55: between its fetch and TAG_ASSIGN an entry fetched by a PCIe controller waits in the same list). -/
def fetchIo (ctrl sq cid : Nat) (cmd : IoCmd) (s : State) : Result :=
  if !fetches s ctrl sq || fetchStops ctrl s then .next s
  else
    let w : Waiting := { ctrl := ctrl, sq := sq, cid := cid, cmd := cmd }
    match ioRefusal s (ctrlOf s ctrl) cmd with
    | some st => .next (completeUntagged w st s)
    | none => .next { s with hfe.waiting := s.hfe.waiting ++ [w] }

/-- NVME_FLUSH (R217). -/
def execNvmeFlush (ctrl sq cid nsid : Nat) (s : State) : Result := alive s <| fetchIo ctrl sq cid { opcode := 0x00, nsid := nsid } s

/-- NVME_WRITE (R207). -/
def execNvmeWrite (ctrl sq cid nsid slba nlb : Nat) (pi : PiCtl) (sglLen : Nat) (s : State) : Result := alive s <|
  fetchIo ctrl sq cid { opcode := 0x01, nsid := nsid, slba := slba, nlb := nlb, pi := pi, sglLen := sglLen } s

/-- NVME_READ (R207). -/
def execNvmeRead (ctrl sq cid nsid slba nlb : Nat) (pi : PiCtl) (sglLen : Nat) (s : State) : Result := alive s <|
  fetchIo ctrl sq cid { opcode := 0x02, nsid := nsid, slba := slba, nlb := nlb, pi := pi, sglLen := sglLen } s

/-- NVME_COMPARE (R207). -/
def execNvmeCompare (ctrl sq cid nsid slba nlb : Nat) (pi : PiCtl) (sglLen : Nat) (s : State) : Result := alive s <|
  fetchIo ctrl sq cid { opcode := 0x05, nsid := nsid, slba := slba, nlb := nlb, pi := pi, sglLen := sglLen } s

/-- NVME_WRITE_ZEROES (R259). -/
def execNvmeWriteZeroes (ctrl sq cid nsid slba nlb : Nat) (deac : Bool) (s : State) : Result := alive s <|
  fetchIo ctrl sq cid { opcode := 0x08, nsid := nsid, slba := slba, nlb := nlb, deac := deac } s

/-- NVME_DATASET_MANAGEMENT (R207): NR counts its ranges from 0 (R182). -/
def execNvmeDatasetManagement (ctrl sq cid nsid : Nat) (ad : Bool) (data : DsmRanges) (s : State) : Result := alive s <|
  fetchIo ctrl sq cid { opcode := 0x09, nsid := nsid, nlb := data.nr, ad := ad, ranges := data.ranges.take (data.nr + 1), sglLen := data.sglLen } s

/-- NVME_VERIFY (R207). -/
def execNvmeVerify (ctrl sq cid nsid slba nlb : Nat) (pi : PiCtl) (s : State) : Result := alive s <|
  fetchIo ctrl sq cid { opcode := 0x0C, nsid := nsid, slba := slba, nlb := nlb, pi := pi } s

/-- A forwarded Abort arbitrated on the tag that its command has here (R193, Table 07-9): a win ends the command, whose completion
says so; in every other case the command's own outcome does. -/
def peerAbort (tag gen : Nat) (s : State) : State :=
  match s.hfe.tags.find? fun t => t.peerTag == some (tag, gen) with
  | some t => if abortWins s t then settle true (endTag t.idx .abortRequested [] s) else s
  | none => s

/-- FWD_CMD (R193, R204): on the owning head the command takes a tag and an arrival number of its own; its completion returns. An
Abort, 0x108 beside the I/O opcodes, is arbitrated. In bridge mode only the VV4204 serves commands. -/
def execFwdCmd (tag gen : Nat) (cmd : IoCmd) (s : State) : Result := alive s <|
  fromPeer s fun s =>
    if cmd.opcode = 0x108 then .next (peerAbort tag gen s) else
    let w : Waiting := { ctrl := 0, sq := 0, cid := 0, cmd := cmd, peerTag := some (tag, gen) }
    match ioRefusal s none cmd with
    | some st => .next (completeUntagged w st s)
    | none => .next { s with hfe.waiting := s.hfe.waiting ++ [w] }

/-! ### Tags (R187, R189, R208) -/

/-- The next free tag and its gen: those never used, then the freed ones in order, each 1 µs after it was freed (R187). -/
def nextTag (s : State) : Option (Nat × Nat) :=
  if s.hfe.freeNext < 65536 then some (s.hfe.freeNext, 0)
  else match s.hfe.freed with
  | f :: _ => if f.2.2 + 1000 ≤ s.now then some (f.1, f.2.1) else none
  | [] => none

/-- The next free tag is taken out of the free ones. -/
def takeTag (s : State) : State :=
  if s.hfe.freeNext < 65536 then { s with hfe.freeNext := s.hfe.freeNext + 1 } else { s with hfe.freed := s.hfe.freed.drop 1 }

/-- Tags not FREE (HFE_TAG_USE). -/
def tagUse (s : State) : Nat := (s.hfe.tags.filter fun t => decide (t.idx < 65536)).length

/-- The lock of a tag's command (Table 08-1): none for Flush, for AD clear, and where every range is empty. -/
def tagLock (t : Tag) (ad : Bool) : Option (Nat × Nat × Bool) :=
  if t.kind = 2 ∨ (t.kind = 4 ∧ (!ad || t.ranges.all (·.2 == 0))) then none
  else
    let r := tagRange t
    some (r.1, r.1 + r.2 - 1, t.kind == 1 || t.kind == 3 || t.kind == 4)

/-- A command for a volume that the peer owns, or any command in bridge mode, is forwarded (R193, R463). -/
def forwards (s : State) (c : IoCmd) : Bool :=
  s.hdl.bridge || (c.nsid != 0 && (match volumeOf s (c.nsid - 1) with | some v => anaState s v == 2 | none => false))

/-- The fields of the submission entry that FWD_CMD carries (Table 17-2). -/
def entryArgs (cmd : IoCmd) : List Nat :=
  [cmd.opcode, cmd.nsid, cmd.slba, cmd.nlb, flagAt cmd.pi.pract 0, cmd.pi.prchk, cmd.pi.refTag, cmd.pi.appTag, cmd.pi.appMask, flagAt cmd.pi.fua 0,
   flagAt cmd.deac 0, flagAt cmd.ad 0] ++ (cmd.ranges.map fun r => [r.1, r.2]).flatten

/-- A forwarded command leaves for the peer, with its write data (R193, Table 17-2). -/
def sendForward (t : Tag) (cmd : IoCmd) (s : State) : State :=
  let args := t.idx :: t.gen :: entryArgs cmd
  let fmt := match volumeOf s t.vol with | some v => v.format | none => 2
  let data := (t.payload.map (blockToBytes fmt)).flatten
  requestPeer { tag := 0, code := 0x20, ioTag := t.idx } args data data.length { s with hdl.fwdCmds := satAdd (2 ^ 32 - 1) s.hdl.fwdCmds 1 }

/-- A tag's command in the form that FWD_CMD carries. -/
def tagCmd (t : Tag) : IoCmd :=
  let op := if t.kind = 0 then 0x02 else if t.kind = 1 then 0x01 else if t.kind = 2 then 0x00 else if t.kind = 3 then 0x08
    else if t.kind = 4 then 0x09 else if t.kind = 5 then 0x05 else 0x0C
  { opcode := op, nsid := t.vol + 1, slba := t.slba, nlb := t.nblocks - 1, pi := t.pi, deac := t.deac, ad := true, ranges := t.ranges }

/-- A command with its tag: a forwarded one leaves at once unless host data must go with it; one without a lock completes at once;
the others take their range-lock entry (R189, R193, R207, R208, R217). -/
def startTag (t : Tag) (cmd : IoCmd) (s : State) : State :=
  if forwards s cmd then
    let t := { t with forwarded := true }
    let s := { s with hfe.tags := s.hfe.tags ++ [t] }
    if t.kind = 1 ∨ t.kind = 5 then askHost t.idx s else sendForward t cmd s
  else
    let s := { s with hfe.tags := s.hfe.tags ++ [t] }
    match tagLock t cmd.ad with
    | none => endTag t.idx .success [] s
    | some (a, b, x) =>
      settle true (addLock { holder := .tag t.idx, vol := t.vol, first := a, last := b, excl := x, arrival := t.arrival, since := s.now } s)

/-- TAG_ASSIGN (R187, R204, R208): the first waiting command takes a freed tag, an arrival number and a lock entry. Its access is
judged again, as it may have changed while it waited. -/
def execTagAssign (s : State) : Result := engine s <|
  match s.hfe.waiting, nextTag s with
  | w :: ws, some (idx, gen) =>
    let own := if w.peerTag.isSome then none else ctrlOf s w.ctrl
    match ioRefusal s own w.cmd with
    | some st => .next (completeUntagged w st { s with hfe.waiting := ws })
    | none =>
      if 65536 ≤ s.rlk.locks.length ∨ (forwards s w.cmd ∧ (peerTagFree s).isNone) then .next s
      else
        let t : Tag := {
          idx := idx, gen := gen, kind := ioKind w.cmd.opcode, state := 1, ctrl := w.ctrl, sq := w.sq, cid := w.cid, vol := w.cmd.nsid - 1
          slba := w.cmd.slba, nblocks := ioBlocks w.cmd, pi := w.cmd.pi, arrival := s.hfe.arrival, at_ := s.now, ranges := w.cmd.ranges
          deac := w.cmd.deac, peerTag := w.peerTag }
        let s := numberVolumes [w.cmd.nsid - 1] (takeTag { s with hfe.waiting := ws, hfe.tagHwm := max s.hfe.tagHwm (tagUse s + 1) })
        .next (startTag t w.cmd s)
  | _, _ => .next s

/-! ### Payloads and reads (R189, R195 to R198, R212 to R214) -/

/-- The blocks of a write as they are kept: with PRACT set the device makes the protection information (R197). -/
def ingest (fmt pi : Nat) (ctl : PiCtl) (bs : List Block) : List Block :=
  if pi = 0 ∨ !ctl.pract then bs
  else bs.zipIdx.map fun e => { e.1 with
    guard := blockGuard fmt e.1.data, app := ctl.appTag, ref := if pi = 3 then (ctl.refTag + e.2) % 2 ^ refBits fmt else 0 }

/-- A write's payload is whole: its protection information is checked, a failure stores nothing and counts code 0x050; else it is
STAGED (R189, R196, R197). -/
def payloadWhole (t : Tag) (vok : Bool) (s : State) : State :=
  match volumeOf s t.vol with
  | none => s
  | some v =>
    let ps := ingest v.format v.pi t.pi t.payload
    let bad := if v.pi = 0 ∨ metaBytes v.format = 0 ∨ t.pi.pract then .success
      else firstBad (fun b k => piCheck v.format v.pi t.pi b (t.slba + k) k) t.payload 0
    if bad ≠ .success then
      settle vok (failTag t.idx bad (countEvent 0x050 0 { s with hfe.piErr := satAdd (2 ^ 32 - 1) s.hfe.piErr 1 }))
    else settle vok (updTag t.idx (fun t => { t with state := 3, payload := ps }) s)

/-- WRITE_PAYLOAD_DATA (R189): payload enters host staging; of a Compare it is the host's data; of a forwarded command it leaves
for the peer when it is whole. -/
def execWritePayloadData (tag : Nat) (blocks : List Block) (last verifyOk : Bool) (s : State) : Result := engine s <|
  match tagOf s tag with
  | none => .next s
  | some t =>
    let takes : Bool := (t.kind == 1 || t.kind == 5) && decide (t.payload.length + blocks.length ≤ t.nblocks) &&
      (if t.forwarded then t.state == 1 && !leftForPeer s tag else t.state == 2) && !(last && decide (t.payload.length + blocks.length < t.nblocks))
    if !takes || (t.forwarded && last && (peerTagFree s).isNone) then .next s
    else
      let t := { t with payload := t.payload ++ blocks, begun := true }
      let s := askHost tag (updTag tag (fun _ => t) s)
      if !last then .next s
      else if t.forwarded then .next (sendForward t (tagCmd t) s)
      else if t.kind = 5 then .next s
      else .next (payloadWhole t verifyOk s)

/-- The blocks of a read served from a staged write: its data and tags, with the reference tags regenerated (R214). -/
def hitBlocks (v : Volume) (t : Tag) : List Block :=
  if v.pi = 0 then t.payload.map fun b => { b with guard := 0, app := 0, ref := 0 }
  else t.payload.zipIdx.map fun e => { e.1 with
    guard := blockGuard v.format e.1.data
    ref := if v.pi = 1 then (t.slba + e.2) % 2 ^ refBits v.format
           else if v.pi = 2 then (t.pi.refTag + e.2) % 2 ^ refBits v.format else e.1.ref }

/-- Protection information stripped (R198). -/
def strip (bs : List Block) : List Block := bs.map fun b => { b with guard := 0, app := 0, ref := 0 }

/-- What a Read, Compare or Verify returns: a lost block, a failed check, a difference, or its data (R198, R372). -/
def readOutcome (s : State) (v : Volume) (t : Tag) : NvmeStatus × List Block :=
  let bs := if t.hit then hitBlocks v t else readBlocks s v t.pi.refTag t.slba t.nblocks
  let check := fun (b : Block) (k : Nat) => if v.pi = 0 then NvmeStatus.success else piReadCheck v.format v.pi t.pi b k
  let bad := firstBad check bs 0
  if !t.hit && (firstLost s v t.slba t.nblocks).isSome then (.unrecoveredRead, [])
  else if bad ≠ .success then (bad, if t.kind = 0 then goodPrefix check bs 0 else [])
  else if t.kind = 5 then (if t.payload.map (·.data) = bs.map (·.data) then .success else .compareFailure, [])
  else if t.kind = 6 then (.success, [])
  else (.success, if t.pi.pract then strip bs else bs)

/-- The guards recomputed over the stored chunks of a range agree with the kept ones (R198, R277). -/
def guardsAgree (s : State) (v : Volume) (slba n : Nat) : Bool :=
  (rangeChunks v.format slba n).all fun k =>
    match (entryAt (mapOf s false v.num) k).bind fun e => if e.kind = 0 then storedOf s e.stored else none with
    | some x => x.lost || x.guards == guardSet v.format x.data
    | none => true

/-- READ_DATA_READY (R189, R212): a guard that disagrees is a datapath corruption, and no block is released (R198). Else all the data is ready: the tag is STAGED, its data leaves and it completes. A Compare also needs
the host's data. -/
def execReadDataReady (tag : Nat) (s : State) : Result := engine s <|
  match tagOf s tag with
  | none => .next s
  | some t =>
    if t.state ≠ 2 ∨ t.forwarded ∨ !(t.kind == 0 || t.kind == 5 || t.kind == 6) ∨ (t.kind = 5 ∧ t.payload.length < t.nblocks) then .next s
    else match volumeOf s t.vol with
    | none => .next (settle true (endTag tag .invalidNamespace [] s))
    | some v =>
      if keylessVolume s v then .next (settle true (endTag tag .accessInaccessible [] s))
      else if !t.hit && !guardsAgree s v t.slba t.nblocks then .next (failSilent 1 0 s)
      else
        let r := readOutcome s v t
        let s := match (if t.hit then none else firstLost s v t.slba t.nblocks) with | some lba => logLost v lba s | none => s
        .next (settle true (endTag tag r.1 r.2 (updTag tag (fun t => { t with begun := true, state := 3 }) s)))

/-- LOCK_WAIT_WARNING (R211): longer than PID 0x0501 (log 16), where 0 disables the warning (R222); code 0x054 carries the wait in µs. -/
def execLockWaitWarning (who : LockWaiter) (s : State) : Result := alive s <|
  if pidVal s 0x0501 = 0 then .next s
  else match who with
  | .plem ring seq =>
    (match s.rlk.locks.find? fun l => l.holder == .plem ring seq && !l.granted with
     | none => .next s
     | some l =>
       if l.warned then .next s
       else .next (countEvent 0x054 ((s.now - l.since) / 1000)
         { s with rlk.locks := updWhere (fun l => l.holder == .plem ring seq) (fun l => { l with warned := true }) s.rlk.locks }))
  | .tag tag =>
  match tagOf s tag, lockOf s (.tag tag) with
  | some t, some l =>
    if l.granted || t.warned then .next s
    else .next (countEvent 0x054 ((s.now - l.since) / 1000) (updTag tag (fun t => { t with warned := true }) s))
  | _, _ => .next s

/-! ### Forwarded commands and ownership (R185, R193, R206) -/

/-- The forwarded command's completion returns from the peer: it is posted here with the read data; an Abort that went to the peer
completes with it, won or lost here (R193). -/
def forwardAnswered (r : PeerReq) (code : Nat) (data : List Byte) (s : State) : State :=
  match tagOf s r.ioTag with
  | none => s
  | some t =>
    let fmt := match volumeOf s t.vol with | some v => v.format | none => 2
    let w := blockBytes fmt + metaBytes fmt
    let blocks := (List.range (data.length / w)).map fun k =>
      let b := bytesAt data (k * w) w
      let m := b.drop (blockBytes fmt)
      ({ data := b.take (blockBytes fmt), guard := leNat (m.take (if fmt = 4 then 8 else 2)).reverse
         app := leNat (bytesAt m (if fmt = 4 then 8 else 2) 2).reverse, ref := leNat (m.drop (if fmt = 4 then 10 else 4)).reverse } : Block)
    let gone := s.hfe.aborts.filter fun a => a.remote && a.target == some (t.idx, t.gen)
    let st := nvmeStatusOf code
    let dw := if st = .abortRequested then 0 else 1 + (if pidVal s 0x0412 = 1 then 2 else 0)
    let s := endTag t.idx st blocks { s with
      hfe.aborts := s.hfe.aborts.filter fun a => !(a.remote && a.target == some (t.idx, t.gen))
      hfe.abortWon := if st = .abortRequested then satAdd (2 ^ 32 - 1) s.hfe.abortWon gone.length else s.hfe.abortWon
      hfe.abortLost := if st = .abortRequested then s.hfe.abortLost else satAdd (2 ^ 32 - 1) s.hfe.abortLost gone.length }
    gone.foldl (fun s a => emit (.nvmeCpl a.ctrl 0 a.cid .success dw []) s) s

/-- The old owner sends the new one the last arrival number that it assigned to the volume, if any in this boot (R206; DEDUCED, log 164:
the spec names no message that carries it). -/
def sendLastArrival (vol : Nat) (s : State) : State :=
  match s.hfe.volArrival.find? fun e => e.1 == vol with
  | some e => emit (.lastArrival vol e.2) s
  | none => s

/-- OWNERSHIP_MOVE_PASS (R185, R206): every tag of the volume has completed; the old owner sends its last number of the volume, the new
owner's counter passes it. -/
def execOwnershipMovePass (vol lastArrival : Nat) (s : State) : Result := alive s <|
  match volumeOf s vol with
  | none => .next s
  | some v =>
    if !v.moving ∨ s.hfe.tags.any (fun t => t.vol == vol) then .next s
    else
      let s := if ownsVolume s v then sendLastArrival vol s else { s with hfe.arrival := max s.hfe.arrival (lastArrival + 1) }
      .next (withAccess (fun s => updVolume vol (fun v => { v with ownerB := !v.ownerB, moving := false }) s) s)

end Sys2Proof.Machine
end

