-- ==== Sys2Proof/Machine/Nvme.lean ====
section
/-! DEFINITION. NVMe controllers: admin and Fabrics commands, aborts, resets, associations, power states, the resets of
ports C0 and C1 (R68, R178 to R181, R186, R190 to R194, R199 to R201). -/

namespace Sys2Proof.Machine

/-! ### Controllers -/

/-- A controller's admin queue is served: CSTS.RDY reads 1 (R81, R194). -/
def ctrlReady (s : State) (c : Ctrl) : Bool := c.en && !c.cfs && !c.resetting && s.boot.service && !s.boot.frontEndsStopped

/-- An admin command of a ready controller; of any other nothing is fetched (log 15). -/
def onAdmin (ctrl : Nat) (f : Ctrl → State → State) (s : State) : Result :=
  match ctrlOf s ctrl with
  | some c => if ctrlReady s c then .next (f c s) else .next s
  | none => .next s

/-- An admin command completes. -/
def adminDone (ctrl cid : Nat) (st : NvmeStatus) (s : State) : State := emit (.nvmeCpl ctrl 0 cid st 0 []) s

/-- An admin command completes with a Dword 0. -/
def adminValue (ctrl cid dw0 : Nat) (s : State) : State := emit (.nvmeCpl ctrl 0 cid .success dw0 []) s

/-- An admin command completes after its data, given as the numbers its structure carries. -/
def adminData (ctrl cid : Nat) (words : List Nat) (s : State) : State := adminDone ctrl cid .success (emit (.nvmeInfo ctrl cid words) s)

/-! ### I/O queues (R179, R186, R194) -/

/-- The I/O queue pairs of a PCIe controller (R186). -/
def pcieQueues (s : State) (ctrl : Nat) : Nat := pidVal s (0x0410 + ctrl)

/-- What remains to the Fabrics controllers of the 32,768 queue pairs. -/
def fabricsQueues (s : State) : Nat := 32768 - pcieQueues s 0 - pcieQueues s 1

/-- The I/O queues that the Fabrics controllers have. -/
def fabricsUsed (s : State) : Nat := ((s.hfe.ctrls.filter fun c => decide (2 ≤ c.id)).map (·.sqs.length)).foldl (· + ·) 0

/-- The queue pairs granted to the other Fabrics controllers. -/
def fabricsGranted (s : State) (ctrl : Nat) : Nat :=
  ((s.hfe.ctrls.filter fun c => decide (2 ≤ c.id) && c.id != ctrl).map (·.grantedQ)).foldl (· + ·) 0

/-- The queue pairs that remain to a controller (R186). -/
def queuesLeft (s : State) (ctrl : Nat) : Nat := if ctrl < 2 then pcieQueues s ctrl else fabricsQueues s - fabricsGranted s ctrl

/-- A 0-based queue size is within CAP.MQES, and not a queue of one entry (Table 07-4, NVMe 2.0). -/
def queueSizeOk (size : Nat) : Bool := decide (1 ≤ size) && decide (size ≤ 4095)

/-- NVME_CREATE_IO_CQ (Table 07-5). -/
def createIoCq (c : Ctrl) (cid cq size : Nat) (contiguous : Bool) (s : State) : State :=
  if 2 ≤ c.id then adminDone c.id cid .invalidOpcode s
  else if !contiguous then adminDone c.id cid .invalidField s
  else if cq = 0 ∨ c.cqs.any (fun q => q.1 == cq) ∨ pcieQueues s c.id ≤ c.cqs.length then adminDone c.id cid .invalidQueue s
  else if !queueSizeOk size then adminDone c.id cid .invalidQueueSize s
  else adminDone c.id cid .success (updCtrl c.id (fun c => { c with cqs := c.cqs ++ [(cq, size)] }) s)

/-- NVME_CREATE_IO_CQ. -/
def execNvmeCreateIoCq (ctrl cid cq size : Nat) (contiguous : Bool) (s : State) : Result := alive s <|
  onAdmin ctrl (fun c s => createIoCq c cid cq size contiguous s) s

/-- NVME_CREATE_IO_SQ (Table 07-5). -/
def createIoSq (c : Ctrl) (cid sq cq size : Nat) (contiguous : Bool) (s : State) : State :=
  if 2 ≤ c.id then adminDone c.id cid .invalidOpcode s
  else if !contiguous then adminDone c.id cid .invalidField s
  else if sq = 0 ∨ c.sqs.any (fun q => q.1 == sq) ∨ pcieQueues s c.id ≤ c.sqs.length then adminDone c.id cid .invalidQueue s
  else if !c.cqs.any (fun q => q.1 == cq) then adminDone c.id cid .completionQueueInvalid s
  else if !queueSizeOk size then adminDone c.id cid .invalidQueueSize s
  else adminDone c.id cid .success (updCtrl c.id (fun c => { c with sqs := c.sqs ++ [(sq, cq, size, 0)] }) s)

/-- NVME_CREATE_IO_SQ. -/
def execNvmeCreateIoSq (ctrl cid sq cq size : Nat) (contiguous : Bool) (s : State) : Result := alive s <|
  onAdmin ctrl (fun c s => createIoSq c cid sq cq size contiguous s) s

/-- NVME_DELETE_IO_CQ: a queue that a submission queue uses stays. -/
def deleteIoCq (c : Ctrl) (cid cq : Nat) (s : State) : State :=
  if 2 ≤ c.id then adminDone c.id cid .invalidOpcode s
  else if !c.cqs.any (fun q => q.1 == cq) then adminDone c.id cid .invalidQueue s
  else if c.sqs.any (fun q => q.2.1 == cq) then adminDone c.id cid .invalidQueueDeletion s
  else adminDone c.id cid .success (updCtrl c.id (fun c => { c with cqs := c.cqs.filter fun q => q.1 != cq }) s)

/-- NVME_DELETE_IO_CQ. -/
def execNvmeDeleteIoCq (ctrl cid cq : Nat) (s : State) : Result := alive s <| onAdmin ctrl (fun c s => deleteIoCq c cid cq s) s

/-- The commands of a queue that still wait for a tag complete or vanish with it. -/
def dropWaiting (cpl : Option NvmeStatus) (f : Waiting → Bool) (s : State) : State :=
  let gone := s.hfe.waiting.filter fun w => w.peerTag.isNone && f w
  let s := { s with hfe.waiting := s.hfe.waiting.filter fun w => !(w.peerTag.isNone && f w) }
  match cpl with
  | some st => gone.foldl (fun s w => completeUntagged w st s) s
  | none => s

/-- NVME_DELETE_IO_SQ (R194): winners complete with Command Aborted due to SQ Deletion, losers with their own outcome; the
command completes when every tag of the queue is FREE. -/
def deleteIoSq (c : Ctrl) (cid sq : Nat) (s : State) : State :=
  if 2 ≤ c.id then adminDone c.id cid .invalidOpcode s
  else if !c.sqs.any (fun q => q.1 == sq) || c.deletes.any (fun d => d.2 == sq) then adminDone c.id cid .invalidQueue s
  else
    let s := dropWaiting (some .abortedSqDeletion) (fun w => w.ctrl == c.id && w.sq == sq) s
    let s := updCtrl c.id (fun c => { c with deletes := c.deletes ++ [(cid, sq)] }) s
    settle true (queueChecks (abortTags (some .abortedSqDeletion) (fun t => t.ctrl == c.id && t.sq == sq) s))

/-- NVME_DELETE_IO_SQ. -/
def execNvmeDeleteIoSq (ctrl cid sq : Nat) (s : State) : Result := alive s <| onAdmin ctrl (fun c s => deleteIoSq c cid sq s) s

/-- NVME_SQ_DOORBELL (R187): the tail of a PCIe controller's queue; a tail beyond the queue is ignored. -/
def execNvmeSqDoorbell (ctrl sq tail : Nat) (s : State) : Result := alive s <|
  if ctrl < 2 ∧ fetches s ctrl sq then
    .next (updCtrl ctrl (fun c => { c with
      sqs := c.sqs.map fun q => if q.1 == sq && decide (tail ≤ q.2.2.1) then (q.1, q.2.1, q.2.2.1, tail) else q }) s)
  else .next s

/-! ### Logs and Identify (R178 to R180, R220) -/

/-- The opcodes of Table 07-5: admin, then I/O from 256 on. -/
def supportedOpcodes : List Nat :=
  [0x00, 0x01, 0x02, 0x04, 0x05, 0x06, 0x08, 0x09, 0x0A, 0x0C, 0x18, 0x7F, 0x100, 0x101, 0x102, 0x105, 0x108, 0x109, 0x10C]

/-- The discovery entries: each enabled sub-port and transport with its listen port (R181). -/
def discoveryEntries (s : State) : List Nat :=
  ((List.range 32).map fun k =>
    let b := pidBlock s (0x0440 + k)
    if !(s.hfe.subs[k]?.map (·.enabled)).getD false || !subExists s k then []
    else (if bit (numAt b 11 1) 0 then [k, 0, numAt b 48 2] else []) ++ (if bit (numAt b 11 1) 1 then [k, 1, numAt b 50 2] else [])).flatten

/-- NVME_GET_LOG_PAGE (Table 07-5). What the SMART page (0x02) reports the spec does not state: a free value (log 57). -/
def getLogPage (c : Ctrl) (cid lid : Nat) (s : State) : State :=
  if lid = 0x01 then adminData c.id cid ((s.hfe.errLog.map fun e => [e.1, e.2]).flatten) s
  else if lid = 0x02 then adminData c.id cid [(Config.freeValue s.free).toNat] (drewFree s)
  else if lid = 0x03 then adminData c.id cid [numAt (runningImage s 3) 8 4] s
  else if lid = 0x04 then adminData c.id cid c.changed (updCtrl c.id (fun c => { c with changed := [] }) s)
  else if lid = 0x05 then adminData c.id cid supportedOpcodes s
  else if lid = 0x0C then
    adminData c.id cid (((s.nv.volumes.filter (attached c)).map fun v => [v.num + 1, anaState s v]).flatten) s
  else if lid = 0x70 ∧ c.discovery then adminData c.id cid (discoveryEntries s) s
  else adminDone c.id cid .invalidField s

/-- NVME_GET_LOG_PAGE: a transfer beyond MDTS or beyond the data pointer is
refused (R182). -/
def execNvmeGetLogPage (ctrl cid : Nat) (page : LogRequest) (s : State) : Result := alive s <|
  onAdmin ctrl (fun c s =>
    if mdts < 4 * (page.numd + 1) then adminDone c.id cid .invalidField s
    else if page.sglLen < 4 * (page.numd + 1) then adminDone c.id cid .sglLengthInvalid s
    else getLogPage c cid page.lid s) s

/-- Identify Controller: VER, MDTS, ACL, AERL, KAS, ANACAP, ANATT, ONCS, FUSES, VWC, AWUN, AWUPF, ACWU, IOCCSZ, IORCSZ, and MP,
ENLAT, EXLAT of each power state (Tables 07-4, 07-11, 08-4, R181; the bits of ANACAP and ONCS DEDUCED, log 31). A Fabrics
controller gives SGLS too: keyed SGL data blocks. IOCCSZ holds the entry and the in-capsule data, in units of 16 bytes. -/
def identifyCtrl (c : Ctrl) : List Nat :=
  [0x00020000, 11, 255, 15, 1, 0x57, 10, 0x8D, 0, 0, 0, 0, 0] ++ (if 2 ≤ c.id then [(64 + inCapsule) / 16, 1, 5] else [0, 0]) ++
  [46000, 0, 0, 30000, 250, 50, 18000, 250, 50]

/-- Identify Namespace: size, format, PI type, ANA group, NSABP, NAWUN, NAWUPF, NACWU, DLFEAT, NABSN, NABO, NABSPF (Tables 07-7, 08-4, R183, R259). -/
def identifyNs (v : Volume) : List Nat :=
  let n := if blockBytes v.format = 4096 then 511 else 4095
  [v.size, v.format, v.pi, v.num + 1, 1, n, n, 0, 0x19, 0, 0, 0]

/-- The active namespaces above one. -/
def activeList (s : State) (c : Ctrl) (nsid : Nat) : List Nat :=
  ((s.nv.volumes.filter (attached c)).map (·.num + 1)).foldl (fun l n => if nsid < n then insertNat n l else l) []

/-- NVME_IDENTIFY (R180). Identifiers of a namespace (CNS 0x03) and the command-set limits of CNS 0x06 the spec does not state:
free values (log 57). An attached namespace is described; one that is not reads as zeros. CNS 0x05 to 0x08 are answered for the
NVM command set, whose CSI is 0, only. -/
def identify (c : Ctrl) (cid cns nsid csi : Nat) (s : State) : State :=
  if 5 ≤ cns ∧ cns ≤ 8 ∧ csi ≠ 0 then adminDone c.id cid .invalidField s
  else if cns = 0x01 then adminData c.id cid (identifyCtrl c) s
  else if cns = 0x02 ∨ cns = 0x07 then adminData c.id cid (activeList s c nsid) s
  else if cns = 0x06 then adminData c.id cid [(Config.freeValue s.free).toNat] (drewFree s)
  else if cns = 0x1C then adminData c.id cid [1] s
  else if cns = 0x00 ∨ cns = 0x03 ∨ cns = 0x05 ∨ cns = 0x08 then
    match (if nsid = 0 then none else volumeOf s (nsid - 1)) with
    | none => adminDone c.id cid .invalidNamespace s
    | some v =>
      if !attached c v then adminData c.id cid [] s
      else if cns = 0x00 then adminData c.id cid (identifyNs v) s
      else if cns = 0x03 then adminData c.id cid [(Config.freeValue s.free).toNat] (drewFree s)
      else if cns = 0x05 then adminData c.id cid [v.format, v.pi] s
      else adminData c.id cid [v.num + 1] s
  else adminDone c.id cid .invalidField s

/-- NVME_IDENTIFY. -/
def execNvmeIdentify (ctrl cid : Nat) (what : IdRequest) (nsid : Nat) (s : State) : Result := alive s <|
  onAdmin ctrl (fun c s => identify c cid what.cns nsid what.csi s) s

/-! ### Aborts (R190 to R193) -/

/-- Aborts outstanding of a controller. -/
def abortsOf (s : State) (ctrl : Nat) : Nat := (s.hfe.aborts.filter fun a => a.ctrl == ctrl).length

/-- NVME_ABORT (R190, R192): resolved to the tag and gen of the command as fetched before it; more than 256 outstanding is
refused. A command that waits for a tag has none and is not found (DESIGN CHOICE, log 58). -/
def nvmeAbort (c : Ctrl) (cid sq target : Nat) (s : State) : State :=
  if 256 ≤ abortsOf s c.id then adminDone c.id cid .abortLimit s
  else
    let t := s.hfe.tags.find? fun t => t.ctrl == c.id && t.sq == sq && t.cid == target && t.peerTag.isNone && decide (t.idx < 65536)
    { s with hfe.aborts := s.hfe.aborts ++ [{ ctrl := c.id, cid := cid, target := t.map fun t => (t.idx, t.gen) }] }

/-- NVME_ABORT. -/
def execNvmeAbort (ctrl cid sq target : Nat) (s : State) : Result := alive s <| onAdmin ctrl (fun c s => nvmeAbort c cid sq target s) s

/-- An Abort completes: Dword 0 bit 0, and the reason where PID 0x0412 asks for it (R191). -/
def abortDone (a : AbortCmd) (b0 reason : Nat) (s : State) : State :=
  adminValue a.ctrl a.cid (b0 + if pidVal s 0x0412 = 1 then 2 * reason else 0)
    { s with hfe.aborts := s.hfe.aborts.filter fun x => !(x.ctrl == a.ctrl && x.cid == a.cid) }

/-- The tag that an Abort resolved to, where its gen still agrees. -/
def abortTarget (s : State) (a : AbortCmd) : Option Tag :=
  a.target.bind fun e => (tagOf s e.1).filter fun t => t.gen == e.2 && t.peerTag.isNone

/-- ABORT_ARBITRATION (Table 07-9, R192, R193): a command that has left for the peer is arbitrated there. -/
def arbitrate (a : AbortCmd) (s : State) : State :=
  match abortTarget s a with
  | none => abortDone a 1 2 (countEvent 0x051 0 { s with hfe.abortNotFound := satAdd (2 ^ 32 - 1) s.hfe.abortNotFound 1 })
  | some t =>
    if leftForPeer s t.idx then
      sendPeer 0x20 [t.idx, t.gen, 0x108] [] 0
        { s with hfe.aborts := updWhere (fun x => x.ctrl == a.ctrl && x.cid == a.cid) (fun x => { x with remote := true }) s.hfe.aborts }
    else if abortWins s t then
      settle true (abortDone a 0 0 (endTag t.idx .abortRequested [] { s with hfe.abortWon := satAdd (2 ^ 32 - 1) s.hfe.abortWon 1 }))
    else abortDone a 1 1 { s with hfe.abortLost := satAdd (2 ^ 32 - 1) s.hfe.abortLost 1 }

/-- ABORT_ARBITRATION. -/
def execAbortArbitration (ctrl cid : Nat) (s : State) : Result := alive s <|
  match s.hfe.aborts.find? fun a => a.ctrl == ctrl && a.cid == cid && !a.remote with
  | some a => .next (arbitrate a s)
  | none => .next s

/-! ### Power states (R199 to R201) -/

/-- The requester of a change is answered (R201). -/
def powerAnswered (e : PowerEntry) (s : State) : State :=
  let s := match e.cid with | some cid => adminDone 0 cid .success s | none => s
  match e.plem with | some uid => finishUid uid e.post s | none => s

/-- A requested change begins: to lower power the entry window opens; any other takes effect at once (R201). -/
def beginPower (e : PowerEntry) (s : State) : State :=
  if s.hfe.pwrCur < e.target then { s with hfe.pwrEntry := some e } else powerAnswered e { s with hfe.pwrCur := e.target }

/-- The changes that wait are begun in order until one opens a window (R200). -/
def beginQueued : Nat → State → State
  | 0, s => s
  | n + 1, s =>
    match s.hfe.pwrEntry, s.hfe.pwrQueue with
    | none, e :: rest => beginQueued n (beginPower e { s with hfe.pwrQueue := rest })
    | _, _ => s

/-- A change of power state is requested: during an entry it waits (R200). -/
def requestPower (e : PowerEntry) (s : State) : State :=
  if s.hfe.pwrEntry.isSome then { s with hfe.pwrQueue := s.hfe.pwrQueue ++ [e] } else beginPower e s

/-- NVME_SET_FEATURES_POWER (R200). -/
def setPower (c : Ctrl) (cid ps : Nat) (s : State) : State :=
  if c.id ≠ 0 then adminDone c.id cid .featureNotChangeable s
  else if 2 < ps then adminDone c.id cid .invalidField s
  else requestPower { target := ps, cid := some cid } s

/-- NVME_SET_FEATURES_POWER. -/
def execNvmeSetFeaturesPower (ctrl cid ps : Nat) (s : State) : Result := alive s <| onAdmin ctrl (fun c s => setPower c cid ps s) s

/-- POWER_ENTRY_WINDOW_END (R201): S is fixed; `lastSeq` is the first number beyond it. -/
def execPowerEntryWindowEnd (s : State) : Result := fast s <|
  match s.hfe.pwrEntry with
  | some e =>
    if e.windowOpen then .next { s with hfe.pwrEntry := some { e with windowOpen := false, lastSeq := s.hfe.arrival } } else .next s
  | none => .next s

/-- POWER_ENTRY_DONE (R201). -/
def execPowerEntryDone (s : State) : Result := fast s <|
  match s.hfe.pwrEntry with
  | some e =>
    if e.windowOpen || s.hfe.tags.any (fun t => decide (t.idx < 65536) && decide (t.arrival < e.lastSeq)) then .next s
    else
      let s := powerAnswered e { s with hfe.pwrCur := e.target, hfe.pwrEntry := none }
      .next (beginQueued s.hfe.pwrQueue.length s)
  | none => .next s

/-! ### Features (Table 07-5) -/

/-- A feature's value; 0 until it is set. -/
def featureOf (c : Ctrl) (fid : Nat) : Nat := match c.feats.find? fun f => f.1 == fid with | some f => f.2 | none => 0

/-- NVME_SET_FEATURES_QUEUES (R186): Dword 0 gives the 0-based counts; with none left it is free (log 57). -/
def setQueues (c : Ctrl) (cid count : Nat) (s : State) : State :=
  let n := min count (queuesLeft s c.id)
  let s := updCtrl c.id (fun c => { c with grantedQ := n }) s
  if n = 0 then adminValue c.id cid ((Config.freeValue s.free).toNat % 2 ^ 32) (drewFree s)
  else adminValue c.id cid ((n - 1) * 65537) s

/-- NVME_SET_FEATURES_QUEUES. -/
def execNvmeSetFeaturesQueues (ctrl cid count : Nat) (s : State) : Result := alive s <| onAdmin ctrl (fun c s => setQueues c cid count s) s

/-- A feature of the table that is kept as it is written; 0x08 is for PCIe only. -/
def plainFeature (c : Ctrl) (fid : Nat) : Bool := (fid == 0x08 && decide (c.id < 2)) || fid == 0x0B || fid == 0x0F || fid == 0x81

/-- The queue pairs that Set Features Number of Queues asks for: NSQR and NCQR are 0-based (R182; NVMe 2.0). -/
def queuesAsked (value : Nat) : Nat := max (value % 65536) (value / 65536 % 65536) + 1

/-- NVME_SET_FEATURES: the features of Table 07-5. -/
def setFeatures (c : Ctrl) (cid fid value : Nat) (s : State) : State :=
  if fid = 0x02 then setPower c cid value s
  else if fid = 0x07 then setQueues c cid (queuesAsked value) s
  else if plainFeature c fid then
    adminDone c.id cid .success (updCtrl c.id (fun c => { c with
      kaAt := if fid = 0x0F then s.now else c.kaAt
      feats := (fid, value) :: c.feats.filter fun f => f.1 != fid }) s)
  else adminDone c.id cid .invalidField s

/-- NVME_SET_FEATURES. -/
def execNvmeSetFeatures (ctrl cid fid value : Nat) (s : State) : Result := alive s <| onAdmin ctrl (fun c s => setFeatures c cid fid value s) s

/-- NVME_GET_FEATURES: the power state is the device's (R200). -/
def getFeatures (c : Ctrl) (cid fid : Nat) (s : State) : State :=
  if fid = 0x02 then adminValue c.id cid s.hfe.pwrCur s
  else if fid = 0x07 then adminValue c.id cid ((c.grantedQ - 1) * 65537) s
  else if plainFeature c fid then adminValue c.id cid (featureOf c fid) s
  else adminDone c.id cid .invalidField s

/-- NVME_GET_FEATURES. -/
def execNvmeGetFeatures (ctrl cid fid : Nat) (s : State) : Result := alive s <| onAdmin ctrl (fun c s => getFeatures c cid fid s) s

/-- NVME_ASYNC_EVENT_REQUEST: 16 outstanding (AERL 15). -/
def execNvmeAsyncEventRequest (ctrl cid : Nat) (s : State) : Result := alive s <|
  onAdmin ctrl (fun c s =>
    if 16 ≤ c.aers.length then adminDone c.id cid .aerLimit s
    else updCtrl c.id (fun c => { c with aers := c.aers ++ [cid] }) s) s

/-- NVME_INVALID_OPCODE (R179): an admin command on queue 0; an I/O command completes on its own queue. -/
def execNvmeInvalidOpcode (ctrl : Nat) (entry : SqEntry) (_opcode : Nat) (s : State) : Result := alive s <|
  if entry.sq = 0 then onAdmin ctrl (fun c s => adminDone c.id entry.cid .invalidOpcode s) s
  else if fetches s ctrl entry.sq then .next (emit (.nvmeCpl ctrl entry.sq entry.cid .invalidOpcode 0 []) s)
  else .next s

/-- NVME_KEEP_ALIVE: the timer restarts. -/
def execNvmeKeepAlive (ctrl cid : Nat) (s : State) : Result := alive s <|
  onAdmin ctrl (fun c s => adminDone c.id cid .success (updCtrl c.id (fun c => { c with kaAt := s.now }) s)) s

/-! ### Resets and associations (R68, R180, R181, R194) -/

/-- Every tag of a controller is aborted internally, with no completion; its waiting commands and Aborts vanish (R194). -/
def abortCtrl (ctrl : Nat) (s : State) : State :=
  let s := dropWaiting none (fun w => w.ctrl == ctrl) s
  let s := { s with hfe.aborts := s.hfe.aborts.filter fun a => a.ctrl != ctrl }
  settle true (abortTags none (fun t => t.ctrl == ctrl) s)

/-- A controller reset: CC.EN reads 0, the queues and requests are gone, CSTS.RDY reads 0 once every tag is FREE (R194). In
fail-silence C0 and C1 keep CFS (Table 20-4). -/
def resetCtrl (ctrl : Nat) (s : State) : State :=
  queueChecks (updCtrl ctrl (fun c => { c with
    en := false, css := 0, cfs := s.saf.failSilent && decide (c.id < 2), sqs := [], cqs := [], grantedQ := 0, aers := [], feats := []
    deletes := [], changed := [], resetting := true }) (abortCtrl ctrl s))

/-- CC_EN_CLEAR. -/
def execCcEnClear (ctrl : Nat) (s : State) : Result := fast s <| .next (resetCtrl ctrl s)

/-- FUNCTION_LEVEL_RESET: of C0's or C1's NVMe function. -/
def execFunctionLevelReset (ctrl : Nat) (s : State) : Result := fast s <| if ctrl < 2 then .next (resetCtrl ctrl s) else .next s

/-- CC.EN set: CSS 0b000 or 0b110, any other value sets CSTS.CFS (R81, R180). -/
def enableCtrl (ctrl css : Nat) (s : State) : State :=
  updCtrl ctrl (fun c => if c.en then c else { c with en := true, css := css, cfs := c.cfs || !(css == 0 || css == 6) }) s

/-- CC_EN_SET. -/
def execCcEnSet (ctrl css : Nat) (s : State) : Result := fast s <| .next (enableCtrl ctrl css s)

/-- A Fabrics association ends: its tags are aborted internally, the controller is gone (R194). -/
def endAssociation (ctrl : Nat) (s : State) : State :=
  if ctrl < 2 then s
  else
    let s := abortCtrl ctrl s
    { s with
      hfe.ctrls := s.hfe.ctrls.filter fun c => c.id != ctrl
      rma.conns := updWhere (fun c => c.ctrlId == some ctrl) (fun c => { c with ctrlId := none }) s.rma.conns }

/-- KEEP_ALIVE_EXPIRY (R181, R194): the time has come (log 16); code 0x052. -/
def execKeepAliveExpiry (ctrl : Nat) (s : State) : Result := alive s <|
  if 2 ≤ ctrl ∧ (ctrlOf s ctrl).isSome then .next (endAssociation ctrl (countEvent 0x052 0 s)) else .next s

/-- FABRICS_DISCONNECT: it completes, and the association ends. -/
def execFabricsDisconnect (ctrl cid : Nat) (s : State) : Result := wire s <|
  if 2 ≤ ctrl ∧ (ctrlOf s ctrl).isSome then .next (endAssociation ctrl (adminDone ctrl cid .success s)) else .next s

/-- FABRICS_CONNECTION_LOSS. -/
def execFabricsConnectionLoss (ctrl : Nat) (s : State) : Result := alive s <| .next (endAssociation ctrl s)

/-- The SQSIZE values of the Fabrics I/O queues (R186). -/
def fabricsSizes (s : State) : Nat :=
  ((s.hfe.ctrls.filter fun c => decide (2 ≤ c.id)).map fun c => (c.sqs.map (·.2.2.1)).foldl (· + ·) 0).foldl (· + ·) 0

/-- A Connect to an admin queue: a dynamic controller, 4,096 at once (R181). -/
def connectAdmin (conn cid : Nat) (discovery : Bool) (hostNqn : List Byte) (s : State) : State :=
  if 4096 ≤ (s.hfe.ctrls.filter fun c => decide (2 ≤ c.id)).length then adminDone s.hfe.nextCtrl cid .connectInvalid s
  else
    let c : Ctrl := { id := s.hfe.nextCtrl, conn := conn, discovery := discovery, hostNqn := hostNqn, kaAt := s.now }
    adminValue c.id cid c.id { s with
      hfe.ctrls := s.hfe.ctrls ++ [c]
      hfe.nextCtrl := s.hfe.nextCtrl + 1
      rma.conns := updWhere (fun x => x.num == conn) (fun x => { x with ctrlId := some c.id, qid := 0 }) s.rma.conns }

/-- A Connect to an I/O queue (R186). -/
def connectIo (conn cid qid sqsize : Nat) (c : Ctrl) (s : State) : State :=
  let bad : Bool := c.discovery || !ctrlReady s c || (c.sqs.any fun q => q.1 == qid) || !queueSizeOk sqsize ||
    decide (524288 < fabricsSizes s + sqsize) || decide (fabricsQueues s ≤ fabricsUsed s) || (c.grantedQ != 0 && decide (c.grantedQ ≤ c.sqs.length))
  if bad then emit (.nvmeCpl c.id qid cid .connectInvalid 0 []) s
  else
    let s := updCtrl c.id (fun c => { c with sqs := c.sqs ++ [(qid, qid, sqsize, 0)] }) s
    emit (.nvmeCpl c.id qid cid .success c.id [])
      { s with rma.conns := updWhere (fun x => x.num == conn) (fun x => { x with ctrlId := some c.id, qid := qid }) s.rma.conns }

/-- FABRICS_CONNECT (R181, R186): over a ready connection of class 0 or 1 that serves no queue yet. -/
def execFabricsConnect (conn cid : Nat) (ctrl : Option Nat) (qid sqsize : Nat) (discovery : Bool) (hostNqn : List Byte) (s : State) : Result := wire s <|
  if !(s.rma.conns.any fun x => x.num == conn && decide (x.cls < 2) && x.state == 2 && x.ctrlId.isNone) then .next s
  else match ctrl with
  | none => if qid = 0 then .next (connectAdmin conn cid discovery hostNqn s) else .next (emit (.nvmeCpl s.hfe.nextCtrl qid cid .connectInvalid 0 []) s)
  | some k =>
    match (ctrlOf s k).filter fun c => decide (2 ≤ c.id) with
    | some c => if qid = 0 then .next (emit (.nvmeCpl k 0 cid .connectInvalid 0 []) s) else .next (connectIo conn cid qid sqsize c s)
    | none => .next (emit (.nvmeCpl k qid cid .connectInvalid 0 []) s)

/-- The properties of a controller: CAP, VS, CC, CSTS (Table 07-4). -/
def propertyOf (s : State) (c : Ctrl) (offset : Nat) : Option Nat :=
  if offset = 0x00 then some (4095 + 2 ^ 16 + 0xFF * 2 ^ 24 + 0x41 * 2 ^ 37 + 4 * 2 ^ 52)
  else if offset = 0x08 then some 0x00020000
  else if offset = 0x14 then some (flagAt c.en 0 + c.css * 16)
  else if offset = 0x1C then some (flagAt (ctrlReady s c || (c.resetting && s.boot.service)) 0 + flagAt c.cfs 1)
  else none

/-- FABRICS_PROPERTY_GET. -/
def execFabricsPropertyGet (ctrl cid offset : Nat) (s : State) : Result := wire s <|
  match (ctrlOf s ctrl).filter fun c => decide (2 ≤ c.id) with
  | some c => (match propertyOf s c offset with
    | some v => .next (adminValue ctrl cid v s)
    | none => .next (adminDone ctrl cid .invalidField s))
  | none => .next s

/-- FABRICS_PROPERTY_SET: CC is the property a host writes. -/
def execFabricsPropertySet (ctrl cid offset value : Nat) (s : State) : Result := wire s <|
  match (ctrlOf s ctrl).filter fun c => decide (2 ≤ c.id) with
  | some c =>
    if offset ≠ 0x14 then .next (adminDone ctrl cid .invalidField s)
    else if bit value 0 then .next (adminDone ctrl cid .success (enableCtrl ctrl (field value 4 3) s))
    else .next (adminDone ctrl cid .success (if c.en then resetCtrl ctrl s else s))
  | none => .next s

/-- PERST_C0_ASSERT (R68, R480): every PLEM session over C0 ends, the ring and service-lane enables clear, the service lanes stop,
C0's controller resets. -/
def execPerstC0Assert (s : State) : Result :=
  let s := (List.range 60).foldl (fun s n => closeRing n s) s
  let s := resetCtrl 0 s
  .next { s with
    pins.perstC0 := true, boot.linkUpC0 := false
    dmv.lanes := updWhere (fun l => decide (14 ≤ l.num) && l.enable) (fun l => { l with
      enable := false, held := [], run := none, paceWait := none, fenceWait := false, stopped := true }) s.dmv.lanes }

/-- PERST_C1_ASSERT (R68): C1's commands fail by internal abort. -/
def execPerstC1Assert (s : State) : Result :=
  let s := resetCtrl 1 s
  .next { s with pins.perstC1 := true, boot.linkUpC1 := false }

end Sys2Proof.Machine
end

