-- ==== Sys2Proof/Machine/Ethernet.lean ====
section
/-! DEFINITION. Ethernet sub-ports: link changes and the answers to ARP, neighbour discovery and ICMP echo (R174 to R176). -/

namespace Sys2Proof.Machine

/-- ETH_LINK_CHANGE (R176, Table 07-14): the link is up at the rate and FEC of the port's mode (R174, R175), whatever the event
reports; a fall from link-up counts in link_downs. -/
def execEthLinkChange (sub : Nat) (up : Bool) (_speed _fec : Nat) (pfc : Bool) (s : State) : Result := alive s <|
  if !subRuns s sub then .next s
  else
    let change := fun (p : SubPort) =>
      if up then { p with linkUp := true, speed := subSpeed s sub, fec := subFec s sub, pfc := pfc }
      else { p with linkUp := false, speed := 0, fec := 0, pfc := false, linkDowns := satAdd 65535 p.linkDowns (flagAt p.linkUp 0) }
    .next { s with hfe.subs := updAt sub change s.hfe.subs }

/-- The answer to a request for the sub-port's own address, of the family that its flags select. -/
def answerAddress (sub kind : Nat) (v6 : Bool) (target answer : List Byte) (s : State) : Result :=
  if subUp s sub && subV6 s sub == v6 && target == bytesAt (subBlock s sub) 16 (if v6 then 16 else 4) then .next (emit (.ethReply sub kind answer) s)
  else .next s

/-- ARP_REQUEST: answered with the MAC address. -/
def execArpRequest (sub : Nat) (target : List Byte) (s : State) : Result := wire s <|
  answerAddress sub 1 false target (bytesAt (subBlock s sub) 0 6) s

/-- NEIGHBOR_SOLICITATION: answered with the MAC address. -/
def execNeighborSolicitation (sub : Nat) (target : List Byte) (s : State) : Result := wire s <|
  answerAddress sub 2 true target (bytesAt (subBlock s sub) 0 6) s

/-- ICMP_ECHO_REQUEST: answered with its payload. -/
def execIcmpEchoRequest (sub : Nat) (target payload : List Byte) (s : State) : Result := wire s <|
  answerAddress sub 3 (subV6 s sub) target payload s

end Sys2Proof.Machine
end

