-- ==== Sys2Proof/Machine/Handle.lean ====
section
/-! DEFINITION. The Handle: its signals, taking and moving it, the commands that govern it (R445 to R457, R521). -/

namespace Sys2Proof.Machine

/-! ### Signals (R445 to R449, R456, R457, R521) -/

/-- The peer is silent: code 0x0D5; pairing ends and the mirror is lost (R449, R319). -/
def peerSilent (s : State) : State :=
  if s.hdl.bridge then withAccess (fun s => { s with hdl.silent := true }) (countEvent 0x0D5 0 s)
  else
    let s := endPairing (fun s => { s with hdl.silent := true, hdl.severed := false }) (countEvent 0x0D5 0 s)
    policyChanged (mirrorLoss (updateMembers s))

/-- HOLD_IN_FALL (R521): with no HANDOFF, the paired standby's holder has failed (DEDUCED, log 49: a head that itself holds the
Handle sees only a tie's loser let go). -/
def execHoldInFall (s : State) : Result :=
  if !s.pins.holdIn then .next s
  else
    let s := { s with pins.holdIn := false }
    if s.hdl.paired && !s.hdl.bridge && !s.hdl.transferIn && !s.hdl.holdOut && !s.saf.failSilent && !s.boot.fastStopped then
      .next { peerSilent s with hdl.released := true }
    else .next s

/-- HOLD_IN_RISE (R447, R456): within the tie window the side-B head lets go; after it, authority is lost unless the peer is
known to be stuck. -/
def execHoldInRise (s : State) : Result :=
  let s := { s with pins.holdIn := true }
  if !s.hdl.holdOut || s.hdl.peerStuck || s.saf.failSilent || s.boot.fastStopped then .next s
  else
    let tie : Bool := match s.hdl.tieUntil with | some t => decide (s.now ≤ t) | none => false
    if !tie then .next (lostAuthority s)
    else if s.aon.side then .next (countEvent 0x0D7 0 { s with hdl.holdOut := false, hdl.holder := false, hdl.takingOver := false, hdl.tieLost := true })
    else .next s

/-- HANDLE_TAKE (R446, R452): HDL_HOLD_IN has been low for 5 ms (log 16) and eligibility is granted. -/
def execHandleTake (s : State) : Result := alive s <|
  if s.pins.holdIn || s.hdl.holder || !s.boot.handleElig || s.saf.failSilent || s.hdl.bridge || allSideErr s then .next s
  else if s.hdl.takingOver then (if s.hdl.fenceDone && s.hdl.takeReq then .next (takeEnds s) else .next s)
  else if s.hdl.paired then
    let s := adoptEpoch { s with
      hdl.holder := true, hdl.holdOut := true, hdl.tieLost := false, hdl.tieUntil := some (s.now + 100000), hdl.transferIn := false }
    .next (tellPacks 0x41 0 (commitEpoch s))
  else if s.hdl.severed then .next (countEvent 0x0D4 0 s)
  else .next (beginTake s)

/-- HOLDER_STUCK (R449, R453): HDL_HOLD_IN asserted and no beat edge for 10 ms; a fence that is done already lets the hold
assert (R446). -/
def execHolderStuck (s : State) : Result := alive s <|
  if !s.pins.holdIn || s.hdl.peerStuck || s.hdl.holdOut || s.saf.failSilent then .next s
  else if s.hdl.takingOver then (if s.hdl.fenceDone && s.hdl.takeReq && s.boot.handleElig then .next (takeEnds s) else .next s)
  else .next (beginTake (if s.hdl.silent then s else peerSilent s))

/-- PEER_SILENT (R449): no frame for 10 ms and no beat edge for 50 ms; the holder fences a silent standby (R451, R453). -/
def execPeerSilent (s : State) : Result := alive s <|
  if s.hdl.silent || s.saf.failSilent then .next s
  else
    let s := peerSilent s
    if s.hdl.holder then .next (beginTake s) else .next s

/-- PEER_SEVERED (R449, R457): no frame for 10 ms while beats continue. -/
def execPeerSevered (s : State) : Result := alive s <|
  if s.hdl.severed || s.hdl.silent || s.hdl.bridge || s.saf.failSilent then .next s
  else .next (mirrorLoss (updateMembers (endPairing (fun s => { s with hdl.severed := true }) (countEvent 0x0D4 0 s))))

/-- PEER_STUCK_CLEAR (R447): HDL_HOLD_IN low for 5 ms. -/
def execPeerStuckClear (s : State) : Result := alive s <| if s.pins.holdIn then .next s else .next { s with hdl.peerStuck := false }

/-- OUTPUT_READBACK_MISMATCH (R448): code 0x0DB, fail-silence of class 0x06. -/
def execOutputReadbackMismatch (s : State) : Result := fast s <|
  if s.pins.pwrok then .next (failSilent 6 0x0DB (countEvent 0x0DB 0 { s with hdl.readbackErr := true })) else .next s

/-- BEAT_IN_EDGE (R449): a peer that beats is not silent, unless its hold is stuck or it has let go (R447, R521); in bridge mode
its frames decide (R464). -/
def execBeatInEdge (s : State) : Result := alive s <|
  .next { s with hdl.beatInAt := some s.now, hdl.silent := s.hdl.silent && (s.hdl.peerStuck || s.hdl.released || s.hdl.bridge) }

/-- HDL_HOLD_IN is asserted after the tie window while this head's own hold is (R456). -/
def holdsClash (s : State) : Bool :=
  s.pins.holdIn && s.hdl.holdOut && !s.hdl.peerStuck && !(match s.hdl.tieUntil with | some t => decide (s.now ≤ t) | none => false)

/-- BEAT_OUT_EDGE (R445): the holder and an eligible head beat; a tie whose window has passed with the peer's hold still asserted
is seen here (R456). -/
def execBeatOutEdge (s : State) : Result := fast s <|
  if holdsClash s && !s.saf.failSilent && s.pins.pwrok then .next (lostAuthority s)
  else if s.boot.handleElig && !s.saf.failSilent && s.pins.pwrok then .next { s with hdl.beatOut := !s.hdl.beatOut } else .next s

/-! ### Fences and epochs (R431, R432, R446, R453) -/

/-- FENCE_PORT's reply: the pack holds the epoch and reports its other port; op 0 with the current epoch confirms the fence. -/
def fenceReply (n status value : Nat) (r : Req) (s : State) : State :=
  if status = 0 then
    let s := updPort n (fun p => { p with epoch := max p.epoch r.epoch, otherClosed := bit value 0 }) s
    if r.aux = 0 ∧ r.epoch = s.hdl.epoch then checkFence (updPort n (fun p => { p with fenceOk := true }) s) else s
  else (commonStatus n status r s).getD s

/-- FENCE_PORT_RESPONSE. -/
def execFencePortResponse (port tag status value : Nat) (s : State) : Result := alive s <| onResponse port tag 0x40 (fenceReply port status value) s

/-- SET_EPOCH's reply: the pack holds the epoch. -/
def setEpochReply (n status : Nat) (r : Req) (s : State) : State :=
  if status = 0 then updPort n (fun p => { p with epoch := max p.epoch r.epoch }) s else (commonStatus n status r s).getD s

/-- SET_EPOCH_RESPONSE. -/
def execSetEpochResponse (port tag status _value : Nat) (s : State) : Result := alive s <| onResponse port tag 0x41 (setEpochReply port status) s

/-! ### The replay of the peer's copy (R326, R347, R453) -/

/-- One open segment of the silent peer (R347, Table 13-3): void where its seal was issued; released unused with nothing
programmed; else sealed by the survivor, code 0x0A5. -/
def closePeerSegment (x : Segment) (s : State) : State :=
  if x.state = 1 then replaySegment x s
  else
    let s := replaySegment x s
    if !x.positions.any (fun p => p.state == 2) then { s with nv.segs := s.nv.segs.filter fun y => y.num != x.num }
    else match segOf s x.num with
      | some y => countEvent 0x0A5 0 (sealSegment false y ((y.positions.filter fun p => p.state == 2).foldl (fun s p => readStrip y.num p.idx 4 0 s) s))
      | none => s

/-- PEER_REPLAY_END (R453 step 6): the peer's open segments are closed, its bands at ERASE_PENDING are erased, and its volumes
are this head's, whose arrival counter is raised past the copy's (R206). -/
def execPeerReplayEnd (s : State) : Result := alive s <|
  if !s.hdl.takingOver || !s.hdl.fenceDone || !s.hdl.holder then .next s
  else
    let mine := s.aon.side
    let s := (s.nv.segs.filter fun x => x.sideB != mine && (x.state == 0 || x.state == 1)).foldl (fun s x => closePeerSegment x s) s
    let s := (s.nv.bands.filter fun b => b.state == 3 && b.sideB != mine).foldl (fun s b => eraseBand b.num s) s
    let last := s.nv.mirror.foldl (fun m r => match r.body with | .commit a _ _ _ _ _ _ => max m (a + 1) | .commitOp a _ _ => max m (a + 1) | _ => m) 0
    .next (withAccess (fun s => { s with
      hdl.takingOver := false, hfe.arrival := max s.hfe.arrival last
      nv.volumes := updWhere (fun v => v.ownerB != mine) (fun v => { v with ownerB := mine, moving := false }) s.nv.volumes }) s)

/-! ### HANDLE_ELIGIBLE (R451) -/

/-- HANDLE_ELIGIBLE's outcome. -/
def handleEligible (s : State) (c : Cmd) : Decision :=
  let v := pk c 24 1
  if s.hdl.bridge ∧ v = 1 then refuse stOrdState (devState s)
  else if s.hdl.holder ∧ v = 0 then refuse stOrdState (devState s)
  else if s.boot.handleElig = (v == 1) then noChange
  else { nums := [v] }

/-- Eligibility granted or withdrawn; the hardware hold of the outputs ends or begins. -/
def applyHandleEligible (d : Decision) (s : State) : State :=
  match d.nums with
  | [v] => { s with boot.handleElig := v == 1, hdl.beatOut := s.hdl.beatOut && v == 1 }
  | _ => s

/-- HANDLE_ELIGIBLE. -/
def execHandleEligible (ring seq : Nat) (s : State) : Result := fast s <| auditedOp opHandleEligible handleEligible ring seq s

/-! ### HANDLE_TRANSFER (R455) -/

/-- The last health record of the standby, if it allows a transfer: the event code of what does not. -/
def handoffBar (s : State) : Option Nat :=
  match s.hdl.peerHealth with
  | none => some 0x0DA
  | some h => if s.hdl.healthAbsent then some 0x0DA else if h.selfTestFail then some 0x0D9 else if h.digestMismatch then some 0x0D8 else none

/-- HANDLE_TRANSFER's outcome on the holder. -/
def handleTransfer (s : State) (_c : Cmd) : Decision :=
  if !s.hdl.paired || s.hdl.bridge then refuse stNetPeer 0
  else match s.hdl.peerHealth with
    | some h => if !h.eligible then refuse stOrdState (devState s) else (match handoffBar s with | some e => refuse stDevFault e | none => { started := true })
    | none => refuse stDevFault 0x0DA

/-- HANDLE_TRANSFER: while another moves the Handle away it waits, for it is never refused with ORD.BUSY (R135; DEDUCED, log 152). A
head without the Handle carries it to the holder; with neither head holding it, ORD.STATE. -/
def execHandleTransfer (ring seq : Nat) (s : State) : Result := fast s <|
  match opCmd s ring seq opHandleTransfer with
  | none => .next s
  | some c =>
    let peerHolds : Bool := match s.hdl.peerHealth with | some h => h.holder | none => s.pins.holdIn
    if s.hdl.holder ∨ (s.hdl.paired && !peerHolds) ∨ c.peerTag.isSome then
      (if s.brd.port ≠ [] ∨ (s.hdl.holder ∧ s.hdl.transfer.isSome) then .next s
       else .next (takeDecision c (if s.hdl.holder then handleTransfer s c else refuse stOrdState (devState s)) s))
    else carryOr c [] (fun s => .next s) s

/-- Step 1: no new authority decision starts, and HANDOFF goes with the asn and the digest at it. -/
def applyHandleTransfer (c : Cmd) (s : State) : State :=
  requestPeer { tag := 0, code := 0x32 } [asnOf s] ((Config.sha384 (authorityBytes s)).take 8) 0 { s with hdl.transfer := some c, hdl.oldEpoch := s.hdl.epoch }

/-- HANDOFF (R455): the standby confirms an equal digest at that asn; otherwise it answers DEV.FAULT. -/
def execHandoff (asn : Nat) (digest : List Byte) (s : State) : Result := alive s <|
  fromPeer s fun s =>
    if asn = asnOf s ∧ (Config.sha384 (authorityBytes s)).take 8 = digest.take 8 then
      .next (respondPeer 0 0 0 0 [] { s with hdl.transferIn := true })
    else .next (respondPeer 0 stDevFault 0x0D8 0 [] s)

/-- HANDOFF answered: the holder lets go and beats as a standby (step 2), or the command ends with DEV.FAULT. -/
def handoffAnswered (status : Nat) (s : State) : State :=
  if s.hdl.transfer.isNone then s
  else if status = 0 then { s with hdl.holdOut := false, hdl.holder := false }
  else transferFails 0x0D8 s

/-- HANDLE_TRANSFER_END (R455 step 4): the old holder has learnt the new epoch; every SET_EPOCH has been answered (log 16). -/
def execHandleTransferEnd (s : State) : Result := alive s <|
  match s.hdl.transfer with
  | none => .next s
  | some c =>
    if !s.hdl.holder && decide (s.hdl.oldEpoch < s.hdl.epoch) then
      .next (endTwoPart c stOkDone 0 s.hdl.epoch false { s with hdl.transfer := none })
    else .next s

end Sys2Proof.Machine
end

