-- ==== Sys2Proof/Machine/Layout.lean ====
section
/-! DEFINITION. The layout: adding strips, sealing segments, packs in the pool, changing generations (R332 to R358). -/

namespace Sys2Proof.Machine

/-! ### Bands and segments (R335, R342, R385, R386, R389) -/

/-- The lowest free band number of a mode: bit 31 set for SLC (R386). -/
def lowestBand (s : State) (slc : Bool) : Nat :=
  let base := if slc then 2 ^ 31 else 0
  ((List.range (s.nv.bands.length + 1)).map (base + ·)).find? (fun n => (bandOf s n).isNone) |>.getD base

/-- A row may take a band of this head: no unavailable member, and each has an erased free block (R335, R361, R385). -/
def rowFree (s : State) (g : Gen) (row : Nat) : Bool :=
  (rowMembers g row).all fun m => !unavailable s g m &&
    (match packIn s g m with | some p => decide (0 < freeBlocks s g m s.aon.side) && (pickBlock s p s.aon.side).isSome | none => false)

/-- The row of a new band: device firmware chooses it; the model takes the first that may serve, from a free value on
(R385; log 1). -/
def chooseRow (s : State) (g : Gen) : Option Nat :=
  let from_ := freeBelow (max 1 g.r) s
  ((List.range g.r).map fun k => (from_ + k) % g.r).find? (rowFree s g)

/-- The blocks of a pack's side that SLC bands hold. -/
def slcBlocks (s : State) (port : Nat) (sideB : Bool) : Nat :=
  (s.nv.bands.filter fun b => b.slc && b.sideB == sideB && b.blocks.any fun e => e.1 == port).length

/-- Half of a pack's SLC allowance (R388). -/
def slcHalf (s : State) (g : Gen) (p : Pack) : Nat :=
  let held := (bandBlocks s p.port false).length + (bandBlocks s p.port true).length
  let free := usableBlocks p.geom - held - 2 * spareHalf p.geom g
  max (ceilDiv (usableBlocks p.geom * 25) 10000) (free * 8 / 100) / 2

/-- Every member of a row has SLC allowance left on this side (R389). -/
def slcAllowed (s : State) (g : Gen) (row : Nat) : Bool :=
  (rowMembers g row).all fun m => match packIn s g m with
    | some p => decide (slcBlocks s m s.aon.side < slcHalf s g p)
    | none => false

/-- The standby allocates no band while its generation differs from the holder's (Table 17-6). -/
def generationLevel (s : State) : Bool :=
  s.hdl.holder || (match s.hdl.peerHealth, s.nv.genCur with
    | some h, some g => h.genCur == g.num || h.genCur == 0
    | _, _ => true)

/-- A band allocated: its row and its blocks are fixed, its open record goes ahead of its first intent (R335, R385). -/
def openBand (num : Nat) (s : State) : Option State :=
  match allocGen s with
  | none => none
  | some g =>
    let slc := bit num 31
    if num ≠ lowestBand s slc ∨ !generationLevel s then none
    else match chooseRow s g with
      | none => none
      | some row =>
        if slc && !slcAllowed s g row then none
        else
          let blocks := (rowMembers g row).filterMap fun m => (packIn s g m).bind fun p => (pickBlock s p s.aon.side).map fun b => (m, b)
          let b : Band := { num := num, sideB := s.aon.side, gen := g.num, row := row, state := 6, slc := slc, blocks := blocks }
          some (appendRecord (.band num 1 0 row g.num 0) (drewFree { s with nv.bands := s.nv.bands ++ [b] }))

/-- The lowest accumulator slot that no open segment holds (R342). -/
def freeSlot (s : State) : Option Nat := (List.range 256).find? fun k => !(openSegs s).any (fun x => x.slot == k)

/-- A segment begun in an open band: within the limit of PID 0x0A01, with a slot (R342, R395). -/
def openSegment (seg : Nat) (s : State) : Option State :=
  match bandOf s (segBand seg), freeSlot s with
  | some b, some k =>
    if b.sideB == s.aon.side && (b.state == 1 || b.state == 6) && !b.noNew && decide (seg % 65536 < bandSegments s b) &&
        decide ((openSegs s).length < pidVal s 0x0A01) then
      let x : Segment := { num := seg, slot := k, sideB := s.aon.side, lastAdd := s.now }
      some { s with nv.segs := s.nv.segs ++ [x] }
    else none
  | _, _ => none

/-- The segment that a strip is added to, its band and itself begun where they are not yet. -/
def readySegment (seg : Nat) (s : State) : Option State :=
  if (segOf s seg).isSome then some s
  else
    let s1 := if (bandOf s (segBand seg)).isSome then some s else openBand (segBand seg) s
    s1.bind (openSegment seg)

/-! ### STRIP_ADD (R334, R343) -/

/-- A bundle's place lies in a victim band of the running batch, or in a lost segment that is salvaged (R371, R392). -/
def mayCopy (s : State) (b : Bundle) : Bool :=
  match b.place with
  | none => false
  | some p => (match s.med.batch with | some t => t.step == 0 && t.victims.contains (segBand p.1) | none => false) ||
      (match segOf s p.1 with | some x => x.state == 4 | none => false)

/-- A strip may hold a list of bundles: each is still only in Coil, or is copied; their extents fit; an SLC band takes no
copies (R334, R389). -/
def stripFits (s : State) (slc : Bool) (keys : List Nat) : Bool :=
  let bs := keys.filterMap (bundleByKey s)
  keys != [] && bs.length == keys.length && keys.eraseDups.length == keys.length &&
    decide (bs.foldl (fun n b => n + b.units * 512) 0 ≤ 65536) &&
    bs.all (fun b => !b.destroyed && ((b.place.isNone && (b.sideB == s.aon.side || s.nv.header3.tookOver)) || (!slc && mayCopy s b))) &&
    !(s.nv.segs.any fun x => x.state != 2 && x.positions.any fun p => (p.state == 0 || p.state == 1) && p.bundles.any keys.contains)

/-- The next data position of a segment: the first that holds nothing and is not void. -/
def nextPos (x : Segment) (d : Nat) : Option Nat := (List.range d).find? fun i => (posOf x i).state == 0 && (posOf x i).bundles == []

/-- A strip added: its bundles take the next data position, and the intent of state 1 is appended. -/
def addStrip (seg : Nat) (keys : List Nat) (s : State) : Option State :=
  match segOf s seg, segGen s seg with
  | some x, some g =>
    if x.state ≠ 0 ∨ x.sealing ∨ x.sideB ≠ s.aon.side ∨ intentWaits s seg ∨ x.positions.any (fun p => p.state == 1) ∨
        !stripFits s (bit (segBand seg) 31) keys then none
    else (nextPos x g.d).map fun i =>
      let s := updSeg seg (putPos { posOf x i with bundles := keys, data := some (stripOf s keys) }) s
      appendRecord (.intent seg i 1 (posMember s seg i) (targetBuffer x)) s
  | _, _ => none

/-- STRIP_ADD (R343): a mismatch of the two parity units writes nothing and the head goes fail-silent (R348). -/
def execStripAdd (seg : Nat) (bundles : List Nat) (mismatch : Bool) (s : State) : Result := engine s <|
  if !s.col.accepting || s.col.replayStep != 6 then .next s
  else match (readySegment seg s).bind (addStrip seg bundles) with
    | none => .next s
    | some t =>
      if mismatch then
        .next (failSilent 1 0x0A0 (countEvent 0x0A0 0 { s with lay.verifyFail := satAdd (2 ^ 32 - 1) s.lay.verifyFail 1 }))
      else .next t

/-! ### Sealing (R344, R345) -/

/-- Every data position of a segment is programmed or void. -/
def segFull (s : State) (x : Segment) : Bool :=
  match segGen s x.num with
  | some g => (List.range g.d).all fun i => (posOf x i).state == 2 || (posOf x i).state == 3
  | none => false

/-- SEGMENT_SEAL (R344): a segment that is not full is sealed early; an accumulator whose CRC fails is a Coil failure
(R348). -/
def execSegmentSeal (seg : Nat) (early crcOk : Bool) (s : State) : Result := engine s <|
  match segOf s seg with
  | none => .next s
  | some x =>
    if !sealable s x || x.sideB != s.aon.side || !(early || segFull s x) || !s.col.accepting then .next s
    else if !crcOk then .next (failSilent 8 0x096 (countEvent 0x096 0 s))
    else .next (sealSegment (!segFull s x) x s)

/-- SEAL_AGE_TIMEOUT (R345): with an age limit set, the segment is sealed early. -/
def execSealAgeTimeout (seg : Nat) (s : State) : Result := engine s <|
  match segOf s seg with
  | none => .next s
  | some x =>
    if pidVal s 0x0A02 ≠ 0 ∧ sealable s x ∧ x.sideB = s.aon.side then .next (sealSegment (!segFull s x) x s) else .next s

/-! ### Packs in the pool (R349, R350) -/

/-- A port's pack may be admitted: trained, identified, not fenced, not below the floor, never failed (R349, R360, R381). -/
def admittable (s : State) (port : Nat) : Bool :=
  reached s port && !s.nv.failedIds.contains (portOf s port).identity

/-- PACK_ADMIT's outcome (R349). -/
def packAdmit (s : State) (c : Cmd) : Decision :=
  let port := pk c 24 1
  let id := (portOf s port).identity
  if !admittable s port then refuse stMedAbsent port
  else if (match packNow s port with | some p => p.identity == id && p.cond != 4 && p.cond != 3 | none => false) then noChange
  else { nums := [port, id] }

/-- PACK_ADMIT. -/
def execPackAdmit (ring seq : Nat) (s : State) : Result := fast s <| coilOp opPackAdmit packAdmit noLocks ring seq s

/-- PACK_RETIRE's outcome (R350). -/
def packRetire (s : State) (c : Cmd) : Decision :=
  let port := pk c 24 1
  match packNow s port with
  | none => refuse stResNotfound 0
  | some p =>
    if p.retiring ∨ p.cond = 4 then noChange
    else if packBelowFloor s port then refuse stMedAbsent port
    else if memberOf s.nv.genNew port then refuse stOrdBusy opLayoutChange
    else { nums := [port] }

/-- PACK_RETIRE. -/
def execPackRetire (ring seq : Nat) (s : State) : Result := fast s <| coilOp opPackRetire packRetire noLocks ring seq s

/-! ### LAYOUT_CHANGE (R351 to R355) -/

/-- The number of the current generation, 0 when none. -/
def curGen (s : State) : Nat := match s.nv.genCur with | some g => g.num | none => 0

/-- The first member of a mask that a start refuses, in ascending port: not admitted, retiring, absent, fenced or failed
(Table 13-4). -/
def badMember (s : State) (mask : Nat) : Option (Nat × Nat) :=
  (portsOf mask).findSome? fun m => match packNow s m with
    | none => some (stResNotfound, 0)
    | some p =>
      if p.cond = 4 ∨ p.cond = 6 then some (stResNotfound, 0)
      else if p.retiring then some (stMedRetired, m)
      else if p.cond = 1 ∨ p.cond = 2 ∨ p.cond = 3 ∨ (portOf s m).fenced ∨ !memberHere s p then some (stMedAbsent, m)
      else none

/-- LAYOUT_CHANGE's outcome. -/
def layoutChange (s : State) (c : Cmd) : Decision :=
  if pk c 24 1 = 1 then (if s.nv.change = 1 then { result := curGen s, nums := [1] } else noChange (curGen s))
  else
    let mask := pk c 32 8
    let g : Gen := { num := s.nv.nextGen, d := pk c 25 1, p := pk c 26 1, s := pk c 27 1, r := pk c 28 2, members := mask }
    match badMember s mask with
    | some f => refuse f.1 f.2
    | none =>
      if 65535 < s.nv.nextGen then refuse stResExhausted 0
      else if (match s.nv.genCur with | some x => x.d == g.d && x.p == g.p && x.s == g.s && x.r == g.r && x.members == g.members | none => false) then
        noChange (curGen s)
      else if s.nv.change ≠ 0 ∨ (longOpOf s opLayoutChange).isSome then refuse stOrdBusy opLayoutChange
      else if dataCapacity { s with nv.genNew := some g } g * (100 - pidVal s 0x0A00) < 100 * storedBytes s (fun _ => true) then refuse stMedSpace 0
      else { nums := [0, g.d, g.p, g.s, g.r, mask], started := true }

/-- LAYOUT_CHANGE. -/
def execLayoutChange (ring seq : Nat) (s : State) : Result := fast s <| coilOp opLayoutChange layoutChange noLocks ring seq s

/-- Open segments of a generation. -/
def openInGen (s : State) (g : Nat) : Bool :=
  s.nv.segs.any fun x => (x.state == 0 || x.state == 1) && (match bandOf s (segBand x.num) with | some b => b.gen == g | none => false)

/-- LAYOUT_CHANGE_END (R354): the emptied generation holds no band and no open segment; the switch commits. -/
def execLayoutChangeEnd (s : State) : Result := engine s <|
  match s.nv.genCur, s.nv.genNew with
  | some g, some h =>
    if s.hdl.holder && s.nv.change == 1 && !migrating s && bandsOf s s.nv.genCur == 0 && !openInGen s g.num && !s.hdl.severed then
      .next (authority (.switch h.num) opxSwitch [g.num, h.num] { s with nv.change := 3 })
    else .next s
  | _, _ => .next s

/-- LAYOUT_REVERSE_END (R355): the new generation holds no band; its table is deleted. -/
def execLayoutReverseEnd (s : State) : Result := engine s <|
  match s.nv.genNew with
  | some h =>
    if s.hdl.holder && s.nv.change == 2 && bandsOf s s.nv.genNew == 0 && !openInGen s h.num && !s.hdl.severed && !opPending s opxReverse then
      .next (authority (.cancelGeneration h.num) opxReverse [h.num] s)
    else .next s
  | none => .next s

end Sys2Proof.Machine
end

