-- ==== Sys2Proof/Machine/MapCache.lean ====
section
/-! DEFINITION. The Map Cache and the Map Lookaside (R481 to R488). -/

namespace Sys2Proof.Machine

/-! ### Reads, fills, writes (R481 to R483) -/

/-- An entry that PID 0x0E10 names grants write to the data or the management plane (R481, MCH_STS.mask_err). -/
def maskWrong (s : State) : Bool :=
  (List.range 32).any fun n => bit (pidVal s 0x0E10) n && ((s.ham.win[n]?).getD { base := 0 }).enable && !cacheableEntry s n

/-- A write in the write-through buffer laid over bytes at an address. -/
def overlay (a : Nat) (w : Nat × List Byte) (bytes : List Byte) : List Byte :=
  bytes.zipIdx.map fun e => if w.1 ≤ a + e.2 ∧ a + e.2 < w.1 + w.2.length then numAt w.2 (a + e.2 - w.1) 1 else e.1

/-- Bytes with every pending write laid over them, oldest first (R483). -/
def withPending (s : State) (a : Nat) (bytes : List Byte) : List Byte := s.mch.wt.foldl (fun b w => overlay a w b) bytes

/-- The 16-byte word of an address in the bytes of its line. -/
def wordOf (a : Nat) (line : List Byte) : List Byte := bytesAt line (a % 128 / 16 * 16) 16

/-- A word delivered to its requester. -/
def deliverWord (a : Nat) (line : List Byte) (s : State) : State :=
  emit (.cacheWord (a / 16 * 16) (wordOf a (withPending s (lineAddr a) line))) s

/-- A control core's access that its plane's code denies: a synchronous error, the Hamper not touched (R24). -/
def coreDenied (write : Bool) (addr n : Nat) (s : State) (r : Result) : Result :=
  if winAllowsRange s.ham.win 2 write addr n then r else .next (emit .accessError (deniedHam 2 addr write s))

/-- MAP_CACHE_READ: a hit, a miss that starts or joins a fill, or a read that is not cacheable (R482). -/
def execMapCacheRead (addr : Nat) (s : State) : Result := engine s <| coreDenied false addr 1 s <|
  let s := { s with mch.clock := s.mch.clock + 1 }
  let la := lineAddr addr
  if !cacheable s addr then .next (deliverWord addr (memRead s.ham.mem la 128) s)
  else match s.mch.lines.find? fun l => l.addr == la with
  | some l =>
    .next (deliverWord addr l.data { s with
      mch.hits := satAdd (2 ^ 32 - 1) s.mch.hits 1
      mch.lines := updWhere (fun l => l.addr == la) (fun l => { l with used := s.mch.clock }) s.mch.lines })
  | none =>
    let s := { s with mch.misses := satAdd (2 ^ 32 - 1) s.mch.misses 1 }
    if s.mch.fills.any fun f => f.addr == la then
      .next { s with mch.fills := updWhere (fun f => f.addr == la) (fun f => { f with wants := f.wants ++ [addr] }) s.mch.fills }
    else .next { s with mch.fills := s.mch.fills ++ [{ addr := la, data := memRead s.ham.mem la 128, wants := [addr] }] }

/-- The set of a line (R481). -/
def setOf (la : Nat) : Nat := la / 128 % 32768

/-- A way is powered down (R485). -/
def wayDown (s : State) (w : Nat) : Bool := bit (pidVal s 0x0E11) w

/-- The way that an allocation takes: a free one of those powered and not locked, else the least recently used (R482). -/
def allocWay (s : State) (la : Nat) : Option Nat :=
  let inSet := s.mch.lines.filter fun l => setOf l.addr == setOf la
  let ways := (List.range 16).filter fun w => !wayDown s w && !bit s.mch.lock w
  match ways.find? fun w => !inSet.any fun l => l.way == w with
  | some w => some w
  | none =>
    ((inSet.filter fun l => ways.contains l.way).foldl (fun b l => match b with
      | none => some l
      | some (x : Line) => if l.used < x.used then some l else some x) none).map (·.way)

/-- A line placed in a way of its set, what was there leaving it. -/
def placeLine (la way : Nat) (data : List Byte) (s : State) : State :=
  { s with mch.lines := (s.mch.lines.filter fun l => !(l.way == way && setOf l.addr == setOf la)) ++
      [{ addr := la, way := way, data := data, used := s.mch.clock }] }

/-- A line of a Data Mover range whose last burst has not been accepted is not allocated (R487). -/
def rangeHeld (s : State) (la : Nat) : Bool :=
  s.mch.ranges.any fun r => descLive s r.1 && decide (la < r.2.1 + r.2.2) && decide (r.2.1 < la + 128)

/-- A locked way holds another line of the set: that line leaves it only by invalidation, so a preload's fill is not allocated there
(R484; DEDUCED, log 167). -/
def lockHolds (s : State) (way la : Nat) : Bool :=
  bit s.mch.lock way && s.mch.lines.any fun l => l.way == way && setOf l.addr == setOf la

/-- MAP_CACHE_FILL_DONE: every requester gets its word; the line is allocated unless an invalidation intervened or no way takes
it. A preload's line that is not allocated counts in MCH_PRELOAD_SKIP (R482, R484, Table 18-4). -/
def execMapCacheFillDone (addr : Nat) (s : State) : Result := engine s <|
  let la := lineAddr addr
  match s.mch.fills.find? fun f => f.addr == la with
  | none => .next s
  | some f =>
    let s := { s with mch.fills := s.mch.fills.filter fun f => f.addr != la, mch.clock := s.mch.clock + 1 }
    let s := f.wants.foldl (fun s a => deliverWord a f.data s) s
    let way := if !f.alloc || rangeHeld s la then none else match f.way with
      | some w => if wayDown s w || lockHolds s w la then none else some w
      | none => allocWay s la
    match way with
    | some w => .next (placeLine la w (withPending s la f.data) s)
    | none =>
      if f.way.isSome then .next { s with mch.skip := satAdd (2 ^ 32 - 1) s.mch.skip 1 }
      else .next { s with mch.noAlloc := satAdd (2 ^ 32 - 1) s.mch.noAlloc 1 }

/-- The oldest pending write is accepted by the arbiter. It was issued under the window entry then in force (R23). -/
def drainOne (s : State) : State :=
  match s.mch.wt with
  | [] => s
  | w :: t => { s with mch.wt := t, ham.mem := memWrite s.ham.mem w.1 w.2 }

/-- MAP_CACHE_WRITE (R483): a hit line and a fill outstanding take the bytes, which enter the write-through buffer; a store from a
full buffer waits until the oldest has left. -/
def execMapCacheWrite (addr : Nat) (bytes : List Byte) (s : State) : Result := engine s <| coreDenied true addr bytes.length s <|
  let la := lineAddr addr
  let s := if s.mch.wt.length < 64 then s else drainOne s
  .next { s with
    mch.lines := updWhere (fun l => l.addr == la) (fun l => { l with data := overlay la (addr, bytes) l.data }) s.mch.lines
    mch.fills := updWhere (fun f => f.addr == la) (fun f => { f with data := overlay la (addr, bytes) f.data }) s.mch.fills
    mch.wt := s.mch.wt ++ [(addr, bytes)] }

/-! ### Preloads, locks, power, invalidation (R484 to R486) -/

/-- A preload runs (MCH_STS.preload_busy). -/
def preloadBusy (s : State) : Bool := s.mch.fills.any fun f => f.way.isSome

/-- The lines of a preload: one that is present, or on its way, is counted in MCH_PRELOAD_SKIP; the others are filled. -/
def preloadLine (way la : Nat) (s : State) : State :=
  if s.mch.lines.any (fun l => l.addr == la) || s.mch.fills.any (fun f => f.addr == la) || !cacheable s la then
    { s with mch.skip := satAdd (2 ^ 32 - 1) s.mch.skip 1 }
  else { s with mch.fills := s.mch.fills ++ [{ addr := la, data := memRead s.ham.mem la 128, way := some way }] }

/-- MCH_PRELOAD_CTRL_WRITE: [31] start, [19:16] way, [15:0] count - 1; at most 32,768 lines. -/
def execMchPreloadCtrlWrite (addr : Nat) (value : Word) (s : State) : Result := fast s <|
  let v := value.toNat
  let way := field v 16 4
  let count := field v 0 16 + 1
  if preloadBusy s then .next s
  else
    let s := { s with mch.preloadAddr := addr % 2 ^ 48, mch.preloadCtrl := v }
    if !bit v 31 then .next s
    else if wayDown s way || decide (32768 < count) then .next { s with mch.lockErr := true }
    else .next ((List.range count).foldl (fun s k => preloadLine way (lineAddr addr + 128 * k) s) s)

/-- The ways named by a mask. -/
def waysOf (m : Nat) : List Nat := (List.range 16).filter (bit m)

/-- MCH_WAY_LOCK_WRITE: at most 15 ways, none powered down, or the mask stays and lock_err is set. -/
def execMchWayLockWrite (mask : Nat) (s : State) : Result := fast s <|
  let m := mask % 65536
  if 15 < (waysOf m).length ∨ (waysOf m).any (wayDown s) then .next { s with mch.lockErr := true }
  else .next { s with mch.lock := m }

/-- INV_ALL (R486): the buffer drains, every line leaves, fills outstanding are not allocated; locked ways that held a line say so. The
operation ends within its step, so inv_busy reads 0 (log 65). -/
def invAll (s : State) : State :=
  let s := drainAll s
  let lost := (s.mch.lines.map (·.way)).filter (bit s.mch.lock)
  { s with
    mch.lockLost := lost.foldl setBit s.mch.lockLost
    mch.lines := []
    mch.fills := s.mch.fills.map fun f => { f with alloc := false } }

/-- INV_ALL. -/
def execInvAll (s : State) : Result := fast s <| .next (invAll s)

/-- PID 0x0E11 written (R485): the buffer drains and the lines of the ways powered down leave. -/
def waysPowered (down : Nat) (s : State) : State :=
  let s := drainAll s
  { s with mch.lines := s.mch.lines.filter fun l => !bit down l.way }

/-! ### The Map Lookaside (R488) -/

/-- The set of an entry. -/
def mlaSet (e : MlaEntry) : Nat := Config.lookasideSet e.kind e.object e.page % 131072

/-- The frames of region 7. -/
def mlaFrames (s : State) : Nat := winSize s 7 / 4096

/-- An entry has the key. -/
def mlaKey (kind object page : Nat) (e : MlaEntry) : Bool := e.kind == kind && e.object == object && e.page == page

/-- Lookups that waited for a key get its frame. -/
def mlaAnswer (e : MlaEntry) (s : State) : State :=
  let hit := fun (w : Nat × Nat × Nat) => w.1 == e.kind && w.2.1 == e.object && w.2.2 == e.page
  let n := (s.mch.mlaWaiting.filter hit).length
  (List.range n).foldl (fun s _ => emit (.mapFrame e.kind e.object e.page e.frame) s)
    { s with mch.mlaWaiting := s.mch.mlaWaiting.filter fun w => !hit w }

/-- An entry inserted: it replaces one of its key, else the least recently used that is not pinned of a full set; a set of eight pinned
entries refuses it, code 0x0E3. -/
def mlaInsert (e : MlaEntry) (s : State) : State :=
  let others := s.mch.mla.filter fun x => !mlaKey e.kind e.object e.page x
  let inSet := others.filter fun x => mlaSet x == mlaSet e
  if inSet.length < 8 then mlaAnswer e { s with mch.mla := others ++ [e] }
  else
    match (inSet.filter fun x => !x.pinned).foldl (fun b x => match b with
      | none => some x
      | some (y : MlaEntry) => if x.used < y.used then some x else some y) none with
    | none => countEvent 0x0E3 0 { s with mch.mlaPinned := true }
    | some v => mlaAnswer e { s with mch.mla := (others.filter fun x => !mlaKey v.kind v.object v.page x) ++ [e] }

/-- MAP_LOOKASIDE_INSERT. A kind of 3, or a frame beyond region 7, no rule gives an effect: control firmware's obligation. -/
def execMapLookasideInsert (kind object page frame : Nat) (pinned : Bool) (s : State) : Result := engine s <|
  if 3 ≤ kind ∨ mlaFrames s ≤ frame then .refused (.obligationBroken 488)
  else
    let s := { s with mch.clock := s.mch.clock + 1 }
    .next (mlaInsert { kind := kind, object := object, page := page, frame := frame, pinned := pinned, used := s.mch.clock } s)

/-- MAP_LOOKASIDE_REMOVE. -/
def execMapLookasideRemove (kind object page : Nat) (s : State) : Result := engine s <|
  .next { s with mch.mla := s.mch.mla.filter fun e => !mlaKey kind object page e }

/-- MAP_LOOKASIDE_LOOKUP: a hit answers the frame; with its queue stalled by a full ring (R30) a lookup waits behind it; a miss posts a map-miss notice and waits. Which ring of 0 to 15 the notice takes is not
stated: a free value (log 62). -/
def execMapLookasideLookup (kind object page : Nat) (s : State) : Result := engine s <|
  let s := { s with mch.clock := s.mch.clock + 1 }
  match s.mch.mla.find? (mlaKey kind object page) with
  | some e =>
    .next (emit (.mapFrame kind object page e.frame)
      { s with mch.mla := updWhere (mlaKey kind object page) (fun e => { e with used := s.mch.clock }) s.mch.mla })
  | none =>
    let ring := freeBelow 16 s
    .next (rimPost ring 16 (leBytes 1 kind ++ leBytes 4 object ++ leBytes 8 page) (drewFree { s with
      mch.mlaMiss := satAdd (2 ^ 32 - 1) s.mch.mlaMiss 1, mch.mlaWaiting := s.mch.mlaWaiting ++ [(kind, object, page)] }))

end Sys2Proof.Machine
end

