-- ==== Sys2Proof/Machine/Media.lean ====
section
/-! DEFINITION. Media management: garbage collection, the patrol, read disturb, wear, secure discard and health (R381 to
R408). -/

namespace Sys2Proof.Machine

/-! ### Victims (R390, R391) -/

/-- A segment of a band is queued for rebuild. -/
def bandQueued (s : State) (band : Nat) : Bool := s.lay.queue.any fun n => segBand n == band

/-- The victim class of a sealed band (Table 15-2). -/
def victimClass (s : State) (b : Band) : Nat :=
  if !bandLive s b.num || (s.lay.queue.any fun n => segBand n == b.num && !segLive s n) then 1
  else if b.retiring != [] || b.relocate then 2
  else if (match emptiedGen s with | some g => g.num == b.gen | none => false) then 3
  else if b.discard then 4
  else if b.slc then 5
  else 6

/-- A band may be collected: sealed, or open in an emptied generation or closed to new segments with no open segment (R353);
one with a stripe awaiting rebuild is rebuilt before a layout change moves it. -/
def collectable (s : State) (b : Band) : Bool :=
  worksSide s b.sideB && (b.state == 2 || (b.state == 1 && (b.noNew || victimClass s b == 3) &&
    !(s.nv.segs.any fun x => segBand x.num == b.num && (x.state == 0 || x.state == 1)))) &&
  !(victimClass s b == 3 && bandQueued s b.num) && !bandWaits s b.num

/-- Free bytes are below the set-point of PID 0x0B02 (R390). -/
def belowSetpoint (s : State) : Bool :=
  match allocGen s with
  | some g => decide (100 * sideFree s s.aon.side < pidVal s 0x0B02 * (dataCapacity s g / 2))
  | none => false

/-- Victims of classes 1 to 5 exist (MED_STS.gc_forced). -/
def gcForced (s : State) : Bool := s.nv.bands.any fun b => b.state == 2 && worksSide s b.sideB && decide (victimClass s b ≤ 5)

/-- A victim list follows the class order: no band left out stands in a lower class than one taken (R391). -/
def victimOrder (s : State) (bs : List Band) : Bool :=
  let top := bs.foldl (fun m b => max m (victimClass s b)) 0
  (s.nv.bands.filter fun b => b.state == 2 && collectable s b && !bs.any (fun v => v.num == b.num)).all (fun b => decide (top ≤ victimClass s b)) &&
    (top != 6 || belowSetpoint s)

/-- An open band taken as a victim is sealed first (R385). -/
def sealVictim (b : Band) (s : State) : State :=
  if b.state = 1 then appendRecord (.band b.num 2 1 b.row b.gen 0) (updBand b.num (fun b => { b with noNew := true }) s) else s

/-- GC_BATCH_START (R390): 1 to 64 victims; one batch at a time. -/
def execGcBatchStart (victims : List Nat) (s : State) : Result := engine s <|
  let bs := victims.filterMap (bandOf s)
  if s.med.batch.isSome || s.col.replayStep != 6 || !s.col.accepting || victims == [] || decide (64 < victims.length) || bs.length != victims.length ||
      victims.eraseDups.length != victims.length || !bs.all (collectable s) || !victimOrder s bs then .next s
  else
    let num := (if s.aon.side then 2 ^ 63 else 0) + s.nv.nextBatch
    let s := { s with med.batch := some { num := num, victims := victims }, nv.nextBatch := s.nv.nextBatch + 1 }
    .next (bs.foldl (fun s b => sealVictim b s) s)

/-! ### The batch (R392 to R395) -/

/-- The live bundles placed in the victims of a batch. -/
def victimBundles (s : State) (t : Batch) : List Bundle :=
  s.nv.bundles.filter fun b => (match b.place with | some p => t.victims.contains (segBand p.1) | none => false) && liveChunks s b != []

/-- Every live extent of the batch has a copy. -/
def batchCopied (s : State) (t : Batch) : Bool := (victimBundles s t).all fun b => t.moves.any fun m => m.1 == bundleKey b

/-- A moved extent under the domain's previous key is encrypted again under the current one, which counts its usage (R263,
R303). -/
def chargeMove (s : State) (m : Nat × Nat × Nat) : State :=
  match bundleByKey s m.1 with
  | none => s
  | some b => match domainOf s b.domain with
    | none => s
    | some d => if b.keyGen = d.keyGen ∨ d.keyless ∨ d.writeProtected then s
      else match slotOf s d.cur with
        | some x => if overLimit x b.units then keyExhausted x s else chargeKey x b.units s
        | none => s

/-- GC_COPY_DONE (R393): every live extent is copied; the destination segments still open are sealed early. With nothing to
copy the batch goes straight to step 3. -/
def execGcCopyDone (s : State) : Result := engine s <|
  match s.med.batch with
  | none => .next s
  | some t =>
    if t.step ≠ 0 ∨ ¬ batchCopied s t ∨ (victimBundles s t = [] ∧ t.victims.any (bandWaits s)) then .next s
    else if victimBundles s t = [] then .next { s with med.batch := some { t with step := 2 } }
    else
      let s := t.moves.foldl chargeMove { s with med.batch := some { t with step := 1 } }
      .next (sealEarlyWhere (fun x => t.moves.any fun m => m.2.1 == x.num) s)

/-- A stored chunk with more references that replaces a moved one (R268). -/
def betterChunk (s : State) (id : Nat) : Option Nat :=
  match storedOf s id with
  | none => none
  | some x =>
    if !domainDedups s x.domain || x.lost then none
    else (s.nv.stored.find? fun y => y.id != id && matchable s y x.domain x.fp && y.guards == x.guards &&
      decide (dedupCount s y < pidVal s 0x0703) && decide (refCount s id < refCount s y.id)).map (·.id)

/-- The replacements of a batch's moved chunks, where PID 0x0704 is 1 (R268). -/
def batchPairs (s : State) (t : Batch) : List (Nat × Nat) :=
  if pidVal s 0x0704 = 1 then
    ((victimBundles s t).map fun b => (liveChunks s b).filterMap fun id => (betterChunk s id).map fun y => (id, y)).flatten
  else []

/-- GC_MAP_COMMIT (R394): once every copy stands in a sealed segment; the map deltas are appended. -/
def execGcMapCommit (s : State) : Result := engine s <|
  match s.med.batch with
  | none => .next s
  | some t =>
    let sealed : Bool := t.moves.all fun m => match segOf s m.2.1 with | some x => x.state == 2 | none => false
    if t.step ≠ 1 ∨ ¬ batchCopied s t ∨ ¬ sealed ∨ opPending s opxGc ∨ migrating s then .next s
    else
      let pairs := batchPairs s t
      let nums := [t.num, t.victims.length] ++ t.victims ++ [pairs.length] ++ (pairs.map fun p => [p.1, p.2]).flatten ++
        (t.moves.map fun m => [m.1, m.2.1, m.2.2]).flatten
      .next (appendOp s.hfe.arrival 65535 opxGc nums [] s)

/-- A read that resolved to a band is outstanding (R394). -/
def bandReads (s : State) (band : Nat) : Bool :=
  s.stk.ports.any fun p => p.reqs.any fun r => r.cmd == 0x10 && segBand r.seg == band

/-- GC_ERASE_PENDING (R393, R394): the victims' records of state 3 are appended; their ERASE commands follow once each is
durable in both Coils. -/
def execGcErasePending (s : State) : Result := engine s <|
  match s.med.batch with
  | none => .next s
  | some t =>
    if t.step ≠ 2 ∨ t.victims.any (bandReads s) ∨ t.victims.any (bandWaits s) then .next s
    else
      let s := (t.victims.filterMap (bandOf s)).foldl (fun s b => appendRecord (.band b.num 3 2 b.row b.gen t.num) s) s
      .next { s with med.batch := none }

/-- The copies of destroyed bundles in a band that no erase reached: on a failed member, or on one that owes the erase
(R402). -/
def unreachableIn (s : State) (b : Band) : Nat :=
  let gone := fun (seg i : Nat) => let m := posMember s seg i
    s.nv.owedErases.contains (m, bandBlock s b.num m) || (match packOf s m with | some p => p.cond == 3 || p.cond == 4 | none => true)
  (s.nv.segs.filter fun x => segBand x.num == b.num).foldl (fun n x => x.positions.foldl (fun n p =>
    if gone x.num p.idx then n + (p.bundles.filter fun k => match bundleByKey s k with | some y => y.destroyed | none => false).length else n) n) 0

/-- Code 0x0BA counted for each unreachable copy. -/
def countUnreachable : Nat → State → State
  | 0, s => s
  | n + 1, s => countUnreachable n (countEvent 0x0BA 0 s)

/-- A dissolved band's blocks begin a new cycle: read counts are cleared, this cycle's relocations become the last one's
(R397, R400). -/
def newCycle (s : State) (e : Nat × Nat) : State :=
  updPackNow e.1 (fun p => { p with
    bad := p.bad.filter (· != e.2)
    relocBefore := if p.relocNow.contains e.2 then insertNat e.2 p.relocBefore else p.relocBefore.filter (· != e.2)
    relocNow := p.relocNow.filter (· != e.2) }) (setReads e.1 e.2 0 s)

/-- BAND_FREE (R393, R386): the free record of an erased or retired band; a band of the discard set is counted, and a secure
discard ends with its last one (R402). -/
def execBandFree (band : Nat) (s : State) : Result := engine s <|
  match bandOf s band with
  | none => .next s
  | some b =>
    if (b.state ≠ 4 ∧ b.state ≠ 5) ∨ ¬ worksSide s b.sideB ∨ bandWaits s band then .next s
    else
      let u := if b.discard then unreachableIn s b else 0
      let s := countUnreachable u (b.blocks.foldl newCycle s)
      let s := if b.discard then updDiscard (fun d => { d with bandsErased := d.bandsErased + 1, unreachable := d.unreachable + u }) s else s
      let s := updBand band (fun b => { b with discard := false }) { s with med.bandsFreed := satAdd (2 ^ 32 - 1) s.med.bandsFreed 1 }
      .next (discardEnd (appendRecord (.band band 0 b.state b.row b.gen b.batch) s))

/-! ### Patrol, read disturb, wear (R398 to R400) -/

/-- The strips a patrol pass reads: programmed positions of the open and sealed bands this head works on, in order. -/
def patrolStrips (s : State) : List (Nat × Nat) :=
  let segs := s.nv.segs.filter fun x => worksSide s x.sideB && decide (x.state ≤ 2) &&
    (match bandOf s (segBand x.num) with | some b => b.state == 1 || b.state == 2 | none => false)
  (segs.map fun x =>
    let parity := match segGen s x.num with
      | some g => if x.state = 2 then (List.range (genWidth g)).filter fun i => decide (g.d ≤ i) && (posOf x i).state != 4 else []
      | none => []
    (((x.positions.filter fun p => p.state == 2).map (·.idx)) ++ parity).eraseDups.map fun i => (x.num, i)).flatten

/-- Pass progress in 0.01 % (MED_PATROL_PROG). -/
def patrolProgress (s : State) : Nat :=
  let n := (patrolStrips s).length
  if n = 0 then 0 else min 10000 (s.med.patrolPos * 10000 / n)

/-- The patrol may read a strip: its member is present and this head reaches it. -/
def patrolReads (s : State) (t : Nat × Nat) : Bool :=
  let m := posMember s t.1 t.2
  reached s m && (match packOf s m with | some p => p.cond == 0 | none => false)

/-- The strip of an absent member waits for its return (R399). -/
def patrolSkips (s : State) (t : Nat × Nat) : Bool :=
  !s.med.patrolOwed.contains t && (match packOf s (posMember s t.1 t.2) with | some p => decide (p.cond < 3) | none => false)

/-- The next strip of the pass. -/
def patrolNext (s : State) : State :=
  let strips := patrolStrips s
  let s := match strips[s.med.patrolPos]? with
    | some t =>
      let s := if patrolReads s t then readStrip t.1 t.2 2 0 s
        else if patrolSkips s t then { s with med.patrolOwed := s.med.patrolOwed ++ [t] } else s
      { s with med.patrolPos := s.med.patrolPos + 1 }
    | none => s
  if strips.length ≤ s.med.patrolPos then
    { s with med.patrolPos := 0, med.patrolBegin := s.now, med.patrolLate := false
             med.patrolOwed := s.med.patrolOwed.filter strips.contains
             med.patrolPasses := satAdd (2 ^ 32 - 1) s.med.patrolPasses 1 }
  else s

/-- PATROL_READ (R399): a strip whose member has returned is read first, else the next one of the pass; the last one ends it. -/
def execPatrolRead (s : State) : Result := engine s <|
  if s.col.replayStep ≠ 6 then .next s
  else match s.med.patrolOwed.find? fun t => (patrolStrips s).contains t && patrolReads s t with
    | some t => .next (readStrip t.1 t.2 2 0 { s with med.patrolOwed := s.med.patrolOwed.filter (· != t) })
    | none => .next (patrolNext s)

/-- PATROL_OVERRUN (R399): the pass has overrun PID 0x0B00 days; the time has come (log 16). -/
def execPatrolOverrun (s : State) : Result := alive s <|
  if s.med.patrolLate ∨ s.col.replayStep ≠ 6 then .next s else .next (countEvent 0x0B9 0 { s with med.patrolLate := true })

/-- PATROL_PROGRESS_SAVE (R399): pass progress goes to Coil region 6. -/
def execPatrolProgressSave (s : State) : Result := engine s <|
  if s.col.accepting then .next (wearCoil 1 { s with nv.patrolSaved := s.med.patrolPos }) else .next s

/-- The programmed strips on a block of a pack. -/
def blockStripsOn (s : State) (port block : Nat) : List (Nat × Nat) :=
  (patrolStrips s).filter fun t => posMember s t.1 t.2 == port && bandBlock s (segBand t.1) port == block

/-- READ_DISTURB_VERIFY (R400): the count has reached half of the threshold; every programmed page is read, and the count
becomes a quarter of it. -/
def execReadDisturbVerify (port block : Nat) (s : State) : Result := engine s <|
  match packOf s port with
  | none => .next s
  | some p =>
    let t := disturbThreshold s p
    if t = 0 ∨ readCount s port block < t / 2 ∨ ¬ reached s port then .next s
    else
      let s := (blockStripsOn s port block).foldl (fun s e => readStrip e.1 e.2 6 0 s) s
      .next (countEvent 0x0B4 0 (setReads port block (t / 4) { s with med.disturb := satAdd (2 ^ 32 - 1) s.med.disturb 1 }))

/-- The mean erase count of a pack, in 0.01 cycle. -/
def meanCycles (p : Pack) : Nat := 100 * p.cycles.foldl (fun n e => n + e.2) 0 / max 1 p.geom.blocks

/-- The highest erase count of a pack. -/
def maxCycles (p : Pack) : Nat := p.cycles.foldl (fun n e => max n e.2) 0

/-- The wear fraction of a pack, in 0.01 %. -/
def wearUsed (p : Pack) : Nat := meanCycles p * 100 / max 1 p.geom.rated

/-- Two members' wear fractions differ by more than PID 0x0B06 (R398). -/
def wearApart (s : State) : Bool :=
  match s.nv.genCur with
  | none => false
  | some g =>
    let ws := (portsOf g.members).filterMap fun m => (packIn s g m).map wearUsed
    match ws with
    | [] => false
    | w :: rest => decide (10 * pidVal s 0x0B06 < rest.foldl max w - rest.foldl min w)

/-- WEAR_SPREAD_TIMEOUT (R398): the difference has lasted 24 h; the time has come (log 16). -/
def execWearSpreadTimeout (s : State) : Result := alive s <|
  if !wearApart s then .next { s with med.wearSpread := false }
  else if s.med.wearSpread then .next s
  else .next (countEvent 0x0B6 0 { s with med.wearSpread := true })

/-- PACK_TEMP_SAMPLE (R405): TEMP goes to each pack this head reaches. -/
def execPackTempSample (s : State) : Result := alive s <|
  .next ((s.stk.ports.filter fun p => started s p.num).foldl (fun s p => sendReq p.num { tag := 0, cmd := 0x21 } s) s)

/-! ### Secure discard (R402, R403) -/

/-- A range cuts a lost chunk: its deallocation would need a merge (R372). -/
def cutsLost (s : State) (v : Volume) (first n : Nat) : Bool :=
  let c := chunkBlocks v.format
  (rangeChunks v.format first n).any fun k => entryLost s (entryAt (mapOf s false v.num) k) &&
    (decide (k * c < first) || decide (first + n < (k + 1) * c))

/-- SECURE_DISCARD's outcome (R403). -/
def secureDiscard (s : State) (c : Cmd) : Decision :=
  let first := pk c 32 8
  let n := pk c 40 8
  match volumeOf s (pk c 24 2) with
  | none => refuse stResNotfound 0
  | some v =>
    if (match domainOf s v.domain with | some d => d.keyless | none => true) then refuse stKeyDomain v.domain
    else if v.size < first + n then refuse stLenOver (if v.size < first then 32 else 40)
    else if (longOpOf s opSecureDiscard).isSome then refuse stOrdBusy opSecureDiscard
    else if n = 0 then { bytes := zeros 64 }
    else if cutsLost s v first n then refuse stMedLost 0
    else { nums := [v.num, first, n, pk c 48 8], started := true }

/-- Its exclusive lock, from stage 6 on; an empty range takes none (Table 08-1, R208). -/
def discardLocks (_s : State) (c : Cmd) : List LockNeed :=
  if pk c 40 8 = 0 then [] else [(pk c 24 2, pk c 32 8, pk c 32 8 + pk c 40 8 - 1, true)]

/-- SECURE_DISCARD. -/
def execSecureDiscard (ring seq : Nat) (s : State) : Result := fast s <| coilOp opSecureDiscard secureDiscard discardLocks ring seq s

/-- Its deallocation starts (R402 step 1; Table 08-1): an internal tag, STAGED at once, takes over the lock that was granted at
stage 6. -/
def applySecureDiscard (c : Cmd) (d : Decision) (s : State) : State :=
  match d.nums with
  | [vol, first, n, addr] =>
    let t : Tag := { idx := discardTag, kind := 4, state := 3, begun := true, vol := vol, ranges := [(first, n)], arrival := d.arrival
                     at_ := s.now, discardCpl := true }
    settle true { s with
      med.discard := some { vol := vol, first := first, blocks := n, addr := addr }
      hfe.tags := s.hfe.tags ++ [t]
      rlk.locks := updWhere (fun l => l.holder == .plem c.ring c.seq) (fun l => { l with holder := .tag discardTag }) s.rlk.locks }
  | _ => s

/-! ### Health (R404 to R406) -/

/-- The spare bytes left on a pack: of the current generation's spare blocks, less the strips rebuilt into them. -/
def spareFree (s : State) (p : Pack) : Nat :=
  match s.nv.genCur with
  | some g => if bit g.members p.port then
      (2 * spareHalf p.geom g * blockStrips p.geom - spareUsed s p.port false - spareUsed s p.port true) * 65536 else 0
  | none => 0

/-- The usable bytes free outside spare on a pack. -/
def usableFree (s : State) (p : Pack) : Nat :=
  match s.nv.genCur with
  | some g => if bit g.members p.port then (freeBlocks s g p.port false + freeBlocks s g p.port true) * blockStrips p.geom * 65536
      else (usableBlocks p.geom - (bandBlocks s p.port false).length - (bandBlocks s p.port true).length) * blockStrips p.geom * 65536
  | none => usableBlocks p.geom * blockStrips p.geom * 65536

/-- The retirement reserve left, in 0.01 %. -/
def reserveLeft (p : Pack) : Nat :=
  let total := 2 * retireHalf p.geom
  if total = 0 then 0 else (total - p.retired.length) * 10000 / total

/-- The 256 bytes of the record of a pack (Table 15-5). -/
def packFields (s : State) (p : Pack) : List Byte :=
  let port := p.port
  let slc := (s.nv.bands.filter fun b => b.slc && b.blocks.any fun e => e.1 == port).length
  let e := max 1 p.geom.rated
  [BitVec.ofNat 8 port, BitVec.ofNat 8 p.cond, BitVec.ofNat 8 p.geom.cell,
   BitVec.ofNat 8 (flagAt (started s port) 0 + flagAt (peerReaches s port) 1 + flagAt p.retiring 2 + flagAt p.wearWarned 3 +
     flagAt p.reserveOut 4 + flagAt (s.brd.meas.any fun m => m.comp == 0x40 + port && m.belowFloor) 5)] ++
  leBytes 4 p.geom.rated ++ leBytes 8 p.geom.rawBytes ++ leBytes 4 p.geom.blocks ++ leBytes 4 p.geom.blockUnits ++
  leBytes 4 p.retired.length ++ leBytes 4 (reserveLeft p) ++ leBytes 8 (spareFree s p) ++ leBytes 8 (usableFree s p) ++
  leBytes 4 (meanCycles p) ++ leBytes 4 (maxCycles p) ++ leBytes 2 (wearUsed p) ++ leBytes 2 (maxCycles p * 10000 / e) ++ leBytes 4 slc ++
  leBytes 8 p.pagesRead ++ leBytes 8 p.uncorrectable ++ leBytes 4 p.progFail ++ leBytes 4 p.eraseFail ++
  padTo 64 (p.hist.map (leBytes 4)).flatten ++ leBytes 2 (signed 16 (p.tempMin.getD 0)) ++ leBytes 2 (signed 16 (p.tempMax.getD 0)) ++
  zeros 4 ++ padTo 64 (p.tempHist.map (leBytes 4)).flatten ++ zeros 32

/-- The pack record of a port (R404, R405): of a pack that is not admitted, its geometry; none where no pack has been identified. -/
def packRecord (s : State) (port : Nat) : List Byte :=
  match packNow s port with
  | some p => packFields s p
  | none =>
    if (portOf s port).startStep = 0 then [BitVec.ofNat 8 port, 0xFF] ++ zeros 254
    else packFields s { port := port, identity := (portOf s port).identity, geom := (portOf s port).geom }

/-- Hamper life in 0.01 %: the share of the spare repair rows consumed (R406). -/
def hamLife (s : State) : Nat := s.nv.fuses.hamRepair

/-- The garbage bytes of this head's side (R287, R406). -/
def sideGarbage (s : State) : Nat := garbageBytes s fun b => b.sideB == s.aon.side

/-- The 64 bytes of the device record (R406). -/
def deviceRecord (s : State) : List Byte :=
  let d := s.med.discard
  leBytes 2 (coilLife s) ++ leBytes 2 (hamLife s) ++
    [BitVec.ofNat 8 (flagAt (decide (100 * pidVal s 0x0903 ≤ coilLife s)) 0 + flagAt s.med.hamWarn 1 + flagAt (belowReserve s s.aon.side) 2 +
      flagAt d.isSome 3)] ++ zeros 3 ++
    leBytes 8 (sideFree s s.aon.side) ++ leBytes 8 (writeReserve s) ++ leBytes 8 (sideGarbage s) ++
    leBytes 8 (match d with | some x => x.targets | none => 0) ++ leBytes 8 (s.nv.bands.filter (·.discard)).length ++
    leBytes 8 (patrolProgress s) ++ leBytes 8 s.med.patrolBegin

/-- MEDIA_HEALTH's outcome (R404). -/
def mediaHealth (s : State) (c : Cmd) : Decision :=
  let sel := pk c 24 1
  if sel = 0 then answer (packRecord s (pk c 25 1))
  else if sel = 1 then answer ((List.range 64).map (packRecord s)).flatten
  else answer (deviceRecord s)

/-- MEDIA_HEALTH. -/
def execMediaHealth (ring seq : Nat) (s : State) : Result := fast s <| plainOp opMediaHealth 32 mediaHealth (fun _ _ s => s) ring seq s

end Sys2Proof.Machine
end

