-- ==== Sys2Proof/Machine/Thermal.lean ====
section
/-! DEFINITION. Temperature sensors, the trip, watchdogs, scrubs, self-test, and the fail-silent decision (R509 to
R524). -/

namespace Sys2Proof.Machine

/-! ### Sensors (R509 to R512) -/

/-- The first index and size of the index group of a sensor of Table 20-1; none for stacks and Coil. -/
def sensorGroup (k : Nat) : Option (Nat × Nat) :=
  if k < 8 then some (0, 8) else if k < 20 then some (8, 12) else if k < 28 then some (20, 8)
  else if k < 32 then some (28, 4) else none

/-- A reading, in 1/16 °C, lies in −60 to 150 °C. -/
def inRange (r : Int) : Bool := decide (-960 ≤ r) && decide (r ≤ 2400)

/-- A reading differs by more than 15 °C from the mean of the other sensors of its group that have not failed (R512). -/
def differs (sensors : List Sensor) (readings : List Int) (k : Nat) (r : Int) : Bool :=
  match sensorGroup k with
  | none => false
  | some (lo, n) =>
    let others := (List.range n).filterMap fun j =>
      let i := lo + j
      let x := (readings[i]?).getD 0
      if i ≠ k ∧ !((sensors[i]?).getD {}).failed ∧ inRange x then some x else none
    let m : Int := others.length
    let sum := others.foldl (· + ·) 0
    decide (0 < others.length) && decide (240 * m < (r * m - sum).natAbs)

/-- One sensor takes its sample (R512). -/
def sampleSensor (sensors : List Sensor) (readings : List Int) (k : Nat) (x : Sensor) (r : Int) : Sensor :=
  let run := if differs sensors readings k r then x.differ + 1 else 0
  { valid := true, reading := r, differ := run, failed := x.failed || !inRange r || decide (16 ≤ run) }

/-- More than 4 of sensors 0 to 31, or any of 32 to 36, are failed (R512). -/
def coverageGone (sensors : List Sensor) : Bool :=
  decide (4 < ((sensors.take 32).filter (·.failed)).length) || (sensors.drop 32).any (·.failed)

/-- Every reading is below a bound. -/
def allBelow (readings : List Int) (b : Int) : Bool := readings.all (fun r => decide (r < b))

/-- The sensors after a sample; each new failure counts code 0x102, the highest hottest value is kept. -/
def takeSamples (readings : List Int) (s : State) : State :=
  let old := s.thm.sensors
  let new := (old.zip readings).zipIdx.map fun e => sampleSensor old readings e.2 e.1.1 e.1.2
  let fresh := ((old.zip new).filter fun e => !e.1.failed && e.2.failed).length
  let s := (List.range fresh).foldl (fun s _ => countEvent 0x102 0 s) { s with thm.sensors := new }
  match hottest s, s.thm.hotMax with
  | some h, some m => if m.1 < h.1 then { s with thm.hotMax := some (h.1, s.now) } else s
  | some h, none => { s with thm.hotMax := some (h.1, s.now) }
  | none, _ => s

/-- Fast sampling begins at 115 °C, once per episode, with the hottest reading as (T + 60) × 16; the time below 113 °C is
watched (R510). -/
def fastSampling (readings : List Int) (s : State) : State :=
  let since := if allBelow readings 1808 then (match s.thm.coolSince with | some t => some t | none => some s.now) else none
  let s := { s with thm.coolSince := since }
  if s.thm.fast || allBelow readings 1840 then s
  else
    let top := match hottest s with | some h => h.1 | none => 2400
    countEvent 0x100 (top + 960).toNat { s with thm.fast := true, thm.fastEntries := satAdd (2 ^ 32 - 1) s.thm.fastEntries 1 }

/-- The 135 °C comparators (R59, R511): THERMTRIP_N asserts and stays, the device is fail-silent with class 0x0C, all fast
activity stops. -/
def tripCheck (readings : List Int) (s : State) : State :=
  if s.aon.trip || allBelow readings 2160 then s
  else { failSilent 0x0C 0 { s with aon.trip := true, pins.thermtrip := true } with boot.fastStopped := true }

/-- Thermal coverage (R512): its loss is class 0x0B. -/
def coverageCheck (s : State) : State :=
  if s.thm.coverageLost || !coverageGone s.thm.sensors then s
  else failSilent 0x0B 0x102 { s with thm.coverageLost := true }

/-- THERMAL_SENSOR_SAMPLE (R510 to R512): the 37 readings in 1/16 °C, while VDD_AON is in range. -/
def execThermalSensorSample (readings : List Int) (s : State) : Result :=
  if !s.pins.aonInRange || readings.length != 37 then .next s
  else .next (tripCheck readings (coverageCheck (fastSampling readings (takeSamples readings s))))

/-- FAST_SAMPLING_EXIT (R510): every sensor has read below 113 °C for 100 ms (log 16). -/
def execFastSamplingExit (s : State) : Result :=
  if s.thm.fast && s.thm.coolSince.isSome then .next { s with thm.fast := false } else .next s

/-- THERM_STATUS's outcome (Table 20-2); before a valid sample the hottest value and its index are free values (log 1). -/
def thermStatus (s : State) (_c : Cmd) : Decision :=
  let hot := match hottest s with
    | some h => leBytes 2 (signed 16 h.1) ++ leBytes 1 h.2
    | none => leBytes 3 (freeBelow (2 ^ 24) s)
  let top := match s.thm.hotMax with
    | some m => (leBytes 2 (signed 16 m.1), m.2)
    | none => (leBytes 2 (freeBelow (2 ^ 16) s), 0)
  answer (hot ++ leBytes 1 (flagAt s.thm.fast 0 + flagAt s.thm.throttling 1 + flagAt s.thm.coverageLost 2) ++
    leBytes 2 (signed 16 (actOf s 5 0)) ++ leBytes 2 (pidVal s 0x0220 * 16) ++ top.1 ++ zeros 6 ++ leBytes 8 top.2 ++
    leBytes 8 (failedSensors s) ++ (s.thm.sensors.map fun x => leBytes 2 (signed 16 x.reading)).flatten ++ zeros 6 ++
    leBytes 8 s.thm.throttleUs ++ zeros 8)

/-- THERM_STATUS. -/
def execThermStatus (ring seq : Nat) (s : State) : Result := fast s <|
  plainOp opThermStatus 24 thermStatus (fun _ _ s => drewFree s) ring seq s

/-! ### Watchdogs and scrubs (R516 to R518) -/

/-- A core's watchdog is watched: a core that is not parked. -/
def watched (s : State) (core : Nat) : Bool := decide (core < 37) && !bit s.saf.parked core

/-- WATCHDOG_KICK. -/
def execWatchdogKick (core : Nat) (s : State) : Result := fast s <|
  .next { s with saf.kicks := updAt core (fun _ => s.now) s.saf.kicks }

/-- A watchdog fires: class 0x04; on a management core only the sideband responder goes on (R520). -/
def watchdogFires (core : Nat) (s : State) : State :=
  let s := failSilent 0x04 0 s
  if 32 ≤ core ∧ core < 36 then { s with saf.mgmtHalted := true } else s

/-- WATCHDOG_EXPIRY (R516): 5 ms without a kick (log 16). -/
def execWatchdogExpiry (core : Nat) (s : State) : Result := fast s <|
  if s.pins.pwrok && watched s core then .next (watchdogFires core s) else .next s

/-- WATCHDOG_PARK_WRITE (R516, R544): a control core's park register is written through the audit port. -/
def execWatchdogParkWrite (core : Nat) (park : Bool) (s : State) : Result := fast s <|
  if core < 32 then .next { s with brd.port := s.brd.port ++ [.park core park] } else .next s

/-- A park register takes its value. -/
def applyPark (core : Nat) (park : Bool) (s : State) : State :=
  { s with saf.parked := if park then setBit s.saf.parked core else clearBit s.saf.parked core,
           saf.kicks := updAt core (fun _ => s.now) s.saf.kicks }

/-- PARKED_CORE_EXECUTES (R516): its watchdog fires at once. -/
def execParkedCoreExecutes (core : Nat) (s : State) : Result := fast s <|
  if s.pins.pwrok && decide (core < 37) && bit s.saf.parked core then .next (watchdogFires core s) else .next s

/-- CONFIG_SCRUB_PASS (R517): a pass ends; a mismatch is class 0x05. -/
def execConfigScrubPass (mismatch : Bool) (s : State) : Result := fast s <|
  if !s.saf.cfgScrub then .next s
  else if mismatch then .next (failSilent 0x05 0 s)
  else .next { s with saf.cfgPasses := satAdd (2 ^ 32 - 1) s.saf.cfgPasses 1 }

/-- HAMPER_SCRUB_READ (R518): a clean line, a corrected symbol, or an uncorrectable line, poisoned or class 0x09 as its
window entry decides; the pass begins again at line 0. -/
def execHamperScrubRead (line symbols : Nat) (s : State) : Result := fast s <|
  if !s.saf.hamScrub || decide (hamUnits * winUnit ≤ line * 64) then .next s
  else
    let s := if line = 0 then { s with saf.hamPassAt := s.now } else s
    if symbols = 0 then .next s
    else if symbols = 1 then .next (countEvent 0x105 0 { s with saf.hamCorr := satAdd (2 ^ 32 - 1) s.saf.hamCorr 1 })
    else if (winOf s.ham.win (line * 64)).isSome then .next (failSilent 0x09 0 s)
    else .next (countEvent 0x106 0 { s with ham.poisoned := insertNat line s.ham.poisoned })

/-- FAIL_SILENT_DECISION (R515, R519): a failure of a class of Table 20-3, found by the check that counts a code. -/
def execFailSilentDecision (cls code : Nat) (s : State) : Result := fast s <|
  if 1 ≤ cls ∧ cls ≤ 0x0D ∧ s.pins.pwrok then .next (failSilent cls code s) else .next s

/-! ### SELFTEST (R524) -/

/-- SELFTEST: nothing selected ends at once; otherwise the tests begin and the outcome is decided at their end. -/
def execSelftest (ring seq : Nat) (s : State) : Result := fast s <|
  match opCmd s ring seq opSelftest with
  | none => .next s
  | some c =>
    if pk c 24 1 = 0 then auditedOp opSelftest (fun _ _ => answer (zeros 48)) ring seq s
    else .next (markTaken c { s with plem.deferred := s.plem.deferred ++ [(c, 0)] })

/-- A mask of the numbers in a list. -/
def maskOf (l : List Nat) : Nat := l.foldl (fun m t => setBit m t) 0

/-- The outcome of the tests: failures of the selected kinds only. -/
def selftestOutcome (c : Cmd) (tiles : List Nat) (monitors sensors : Nat) : Decision :=
  let sel := pk c 24 1
  let t := if bit sel 0 then maskOf (tiles.filter (· < 256)) else 0
  let m := if bit sel 1 then monitors % 2 ^ 32 else 0
  let f := if bit sel 2 then sensors % 2 ^ 64 else 0
  let n := ((List.range 256).filter (bit t)).length + ((List.range 32).filter (bit m)).length +
    ((List.range 64).filter (bit f)).length
  let st := if n = 0 then (stOkDone, 0) else (stOkWarn, 0x107)
  { status := st.1, detail := st.2, result := n, nums := [sel, t, m, n],
    bytes := leBytes 32 t ++ leBytes 4 m ++ leBytes 8 f ++ zeros 4 }

/-- The effects of the tests' end: passing tiles and slices return to service, failures are counted, a failed monitor makes
the device fail-silent. -/
def applySelftest (d : Decision) (s : State) : State :=
  match d.nums with
  | [sel, t, m, n] =>
    let s := if bit sel 0 then
        let slices := (List.range 32).foldl
          (fun x k => if bit s.red.sliceOut k && !bit t (Config.sliceTile k) then clearBit x k else x) s.red.sliceOut
        { s with saf.tileOut := (List.range 256).filter (bit t), red.sliceOut := slices }
      else s
    let s := countIf (decide (0 < n)) 0x107 s
    if m = 0 then s else failSilent 0x0D 0x107 s
  | _ => s

/-- SELFTEST_COMPLETE: the tests have ended; the outcome goes to the audit port. -/
def execSelftestComplete (tiles : List Nat) (monitors sensors : Nat) (s : State) : Result := fast s <|
  match s.plem.deferred.find? (fun d => d.1.opcode == opSelftest) with
  | none => .next s
  | some (c, _) => .next { s with
      plem.deferred := s.plem.deferred.filter (fun x => x.1.uid != c.uid)
      brd.port := s.brd.port ++ [.command c (selftestOutcome c tiles monitors sensors)] }

end Sys2Proof.Machine
end

