-- ==== Sys2Proof/Machine/Weaver.lean ====
section
/-! DEFINITION. The Weaver: the arithmetic of a loop, due loops and nesting, actuators and the guard, test signals and
capture (R492 to R508, R513). -/

namespace Sys2Proof.Machine

/-! ### Arithmetic (R492) -/

/-- A Q1.15 value, saturated. -/
def sat16 (x : Int) : Int := max (-32768) (min 32767 x)

/-- A Q9.31 value, saturated. -/
def sat40 (x : Int) : Int := max (-549755813888) (min 549755813887 x)

/-- The product of two Q1.15 values in Q9.31. -/
def mul15 (a b : Int) : Int := 2 * a * b

/-- The product of a Q1.15 and a Q9.31 value in Q9.31; how it is rounded is not stated (log 66). -/
def mulWide (a v : Int) : Int :=
  let x := a * v
  sat40 (x / 32768 + if x % 32768 ≠ 0 ∧ Config.roundUp x then 1 else 0)

/-- A Q9.31 value as Q1.15: to the nearest, halves upward, saturated. -/
def roundQ (x : Int) : Int := sat16 ((x + 32768) / 65536)

/-! ### One sample (R493, R496, R497) -/

/-- The terms of a sample: error, the derivative state, and p, d and ff in Q9.31. -/
structure Terms where
  e : Int
  v : Int
  p : Int
  d : Int
  ff : Int
  deriving DecidableEq, Repr

/-- The terms of a loop at a sensor value, set-point and feed-forward value. -/
def termsOf (l : Loop) (v yPrev y r f : Int) : Terms :=
  let v := sat40 (mulWide l.a v + mul15 (32768 - l.a) (yPrev - y))
  { e := r - y, v := v, p := mul15 l.kp (r - y), d := mulWide l.kd v, ff := mul15 l.kff f }

/-- 2^s × (p + i + d + ff), every sum saturating. -/
def loopSum (l : Loop) (t : Terms) (i : Int) : Int :=
  sat40 (2 ^ l.shift * sat40 (sat40 (sat40 (t.p + i) + t.d) + t.ff))

/-- u_raw: the sum with the output injection, in Q1.15, added. -/
def rawOut (l : Loop) (t : Terms) (i inj : Int) : Int := sat40 (loopSum l t i + 65536 * inj)

/-- The output that a u_raw gives. -/
def clampOut (l : Loop) (raw : Int) : Int :=
  if l.umax * 65536 < raw then l.umax else if raw < l.umin * 65536 then l.umin else roundQ raw

/-- Integration is suspended: the new term would drive a clamped output further. -/
def windupHeld (l : Loop) (raw e : Int) : Bool :=
  (decide (l.umax * 65536 < raw) && decide (0 < l.ki * e)) || (decide (raw < l.umin * 65536) && decide (l.ki * e < 0))

/-- The integrator preset to which the first CLOSED sample gives the held output (R497). -/
def presetI (l : Loop) (y r f : Int) : Int :=
  sat40 (l.held * 65536 / 2 ^ l.shift - mul15 l.kp (r - y) - mul15 l.kff f)

/-- A loop ready for its first CLOSED sample (R497). -/
def bumplessStart (l : Loop) (y r f : Int) : Loop :=
  if l.bumpless then { l with v := 0, yPrev := y, i := presetI l y r f, bumpless := false } else l

/-- A CLOSED sample (R493). -/
def closedSample (y r f inj : Int) (l : Loop) : Loop :=
  let l := bumplessStart l y r f
  let t := termsOf l l.v l.yPrev y r f
  let raw := rawOut l t l.i inj
  let hold := windupHeld l raw t.e
  { l with
    v := t.v, y := y, yPrev := y, rEff := r
    u := clampOut l raw, held := clampOut l (loopSum l t l.i)
    clampHi := decide (l.umax * 65536 < raw), clampLo := decide (raw < l.umin * 65536), windup := hold
    i := if hold then l.i else sat40 (l.i + mul15 l.ki t.e)
    eLast := t.e, pLast := t.p, dLast := t.d, ffLast := t.ff, injLast := inj, count := l.count + 1 }

/-- A sample of a loop that is OPEN, or that behaves as OPEN hold: the sensor is sampled, the integrator stays (R496). -/
def openSample (y r f inj out : Int) (l : Loop) : Loop :=
  let t := termsOf l l.v l.yPrev y r f
  { l with
    v := t.v, y := y, yPrev := y, rEff := r
    u := sat16 (out + inj), held := out, clampHi := false, clampLo := false, windup := false
    eLast := t.e, pLast := t.p, dLast := t.d, ffLast := t.ff, injLast := inj, count := l.count + 1 }

/-- A loop whose sensor code is 0 holds its output in every state (R500). -/
def blindSample (inj : Int) (l : Loop) : Loop := { l with u := sat16 (l.held + inj), injLast := inj, count := l.count + 1 }

/-! ### Test signals (R506) -/

/-- The next chip of PRBS-11: x^11 + x^9 + 1, the oldest bit leaving first (PRESUMED, log 67). -/
def prbsNext (r : Nat) : Nat := r * 2 % 2048 + (if bit r 10 != bit r 8 then 1 else 0)

/-- The value of a test signal at its sample `n`. -/
def injectValue (x : Inject) : Int :=
  let neg := sat16 (-x.amp)
  match x.wave with
  | 0 => x.amp
  | 1 => if 2 * (x.n % x.period) < x.period then x.amp else neg
  | 2 => if bit x.lfsr 10 then x.amp else neg
  | _ =>
    let top : Int := x.amp.natAbs + 2
    sat16 (max (-top) (min top (Config.sweptSine x.amp x.f0 x.f1 x.dur x.n)))

/-- The signal after a sample; it ends at its duration. -/
def injectNext (x : Inject) : Option Inject :=
  if x.dur ≤ x.n + 1 then none
  else some { x with n := x.n + 1, lfsr := if x.wave = 2 ∧ (x.n + 1) % x.period = 0 then prbsNext x.lfsr else x.lfsr, cmd := none }

/-- The output and set-point parts of a loop's signal. -/
def injectParts (l : Loop) : Int × Int :=
  match l.inj with
  | none => (0, 0)
  | some x => if x.point = 0 then (injectValue x, 0) else (0, injectValue x)

/-- The command that started a signal ends (R506). -/
def injectBegun (x : Option Inject) (s : State) : State :=
  match x with
  | some x => (match x.cmd with | some c => finishUid c.1 (c.2.1, c.2.2, 0) s | none => s)
  | none => s

/-- A signal that ends early: code 0x0F2 is counted; a command that still waited ends. -/
def injectCut (n : Nat) (s : State) : State :=
  match (loopAt s n).inj with
  | none => s
  | some x => injectBegun (some x) (countEvent 0x0F2 0 { s with wvr.loops := updAt n (fun l => { l with inj := none }) s.wvr.loops })

/-- A Weaver PID's write as an effect: a change of state or binding cuts an injection (R506). -/
def writeLoop (n i v : Nat) (s : State) : State :=
  let cut : Bool := (loopAt s n).inj.isSome && (loopWrite i v (loopAt s n)).inj.isNone
  let s := if cut then injectCut n s else s
  { s with wvr.loops := updAt n (loopWrite i v) s.wvr.loops }

/-! ### Sensors (R500, R501) -/

/-- The latest sample of a sensor and its time. -/
def sampleOf (s : State) (code inst : Nat) : Option (Int × Nat) :=
  (s.wvr.samples.find? fun e => e.1 == code && e.2.1 == inst).map fun e => (e.2.2.1, e.2.2.2)

/-- The refresh period of a sensor in ns (Table 19-1). -/
def refreshNs (s : State) (code : Nat) : Nat :=
  if code = 6 ∨ code = 7 then 1000000
  else if code = 8 ∨ code = 9 then (if s.thm.fast then 50000 else 1000000)
  else if code = 0xE then 100000 else 10000

/-- A base rate's period in ticks (R494). -/
def rateTicks (rate : Nat) : Nat := if rate = 0 then 10 else if rate = 1 then 100 else 1000

/-- A loop's period in ticks: an outer loop runs at every k-th sample of its inner loop (R495). -/
def loopTicks (s : State) (l : Loop) : Nat :=
  match l.feeds with
  | some m => l.k * rateTicks (loopAt s m).rate
  | none => rateTicks l.rate

/-- A loop's sensor has aged past twice the longer of the two periods. -/
def sensorAged (s : State) (l : Loop) : Bool :=
  match sampleOf s l.sensor l.sInst with
  | some e => decide (2 * max (loopTicks s l * 1000) (refreshNs s l.sensor) < s.now - e.2)
  | none => false

/-- A stale episode begins. -/
def beginStale (n : Nat) (s : State) : State :=
  if (loopAt s n).stale ∨ (loopAt s n).sensor = 0 then s
  else countEvent 0x0F0 0 { s with
    wvr.loops := updAt n (fun l => { l with stale := true }) s.wvr.loops
    wvr.staleCount := satAdd (2 ^ 32 - 1) s.wvr.staleCount 1 }

/-- SENSOR_STALE (log 16). -/
def execSensorStale (loop : Nat) (s : State) : Result := alive s <| if loop < 64 then .next (beginStale loop s) else .next s

/-- SENSOR_SAMPLE_ARRIVAL: the latest sample of a sensor; loops for which it was stale resume bumpless. -/
def execSensorSampleArrival (code inst : Nat) (value : Int) (s : State) : Result := alive s <|
  if code = 0 ∨ !sensorOk code inst then .next s
  else .next { s with
    wvr.samples := (code, inst, sat16 value, s.now) :: s.wvr.samples.filter fun e => !(e.1 == code && e.2.1 == inst)
    wvr.loops := updWhere (fun l => l.stale && l.sensor == code && l.sInst == inst)
      (fun l => { l with stale := false, bumpless := true }) s.wvr.loops }

/-! ### Evaluating the due loops (R494, R495) -/

/-- The set-point of a loop: what its outer loop puts out, else its own (R495). -/
def setpointOf (s : State) (l : Loop) : Int :=
  match outerOf s.wvr.loops l.num with
  | some o => o.u
  | none => loopSetpoint s l

/-- A loop evaluated. -/
def evalLoop (s : State) (n : Nat) : State :=
  let s := if sensorAged s (loopAt s n) then beginStale n s else s
  let l := loopAt s n
  let j := injectParts l
  let r := sat16 (setpointOf s l + j.2)
  let f := match sampleOf s l.ffSensor l.ffInst with | some e => e.1 | none => 0
  let l' := match sampleOf s l.sensor l.sInst with
    | none => if l.sensor = 0 ∨ l.state ≠ 1 then blindSample j.1 l else openSample l.y r f j.1 l.manual l
    | some e =>
      if l.state = 2 ∧ !l.stale then closedSample e.1 r f j.1 l
      else openSample e.1 r f j.1 (if l.state = 1 then l.manual else l.held) l
  let l' := { l' with injLast := j.1 + j.2, inj := l.inj.bind injectNext }
  injectBegun l.inj { s with wvr.loops := updAt n (fun _ => l') s.wvr.loops }

/-- A loop is due at a tick: by its rate, or, for an outer loop, at every k-th due tick of its inner loop. -/
def loopDue (s : State) (t : Nat) (l : Loop) : Bool :=
  match l.feeds with
  | some m => t % rateTicks (loopAt s m).rate == 0 && (loopAt s m).count % l.k == 0
  | none => t % rateTicks l.rate == 0

/-- The due loops in their order: ascending, an outer loop before its inner loop. -/
def dueOrder (s : State) : List Nat :=
  let due := (s.wvr.loops.filter (loopDue s s.wvr.tick)).map (·.num)
  due.foldl (fun acc n =>
    let first := match outerOf s.wvr.loops n with
      | some o => if due.contains o.num ∧ !acc.contains o.num then [o.num] else []
      | none => []
    if acc.contains n then acc else acc ++ first ++ [n]) []

/-! ### Actuators and the guard (R502, R503, R513) -/

/-- A percentage as Q1.15, rounded as R492 rounds (DEDUCED, log 68). -/
def pctQ (n : Nat) : Int := roundQ ((n : Int) * 2147483648 / 100)

/-- The patrol pass is behind its schedule (R399, Table 19-1). -/
def patrolBehind (s : State) : Bool :=
  s.med.patrolLate ||
    decide (s.med.patrolPos * (pidVal s 0x0B00 * 86400000000000) < (s.now - s.med.patrolBegin) * (patrolStrips s).length)

/-- The floor of an actuator in percent, and whether it applies now. -/
def floorOf (s : State) (code : Nat) : Nat × Bool :=
  if code = 2 then (pidVal s 0x0B07, gcForced s)
  else if code = 3 then (pidVal s 0x0B08, patrolBehind s)
  else if code = 4 then (pidVal s 0x0A22, true)
  else if code = 5 then (pidVal s 0x0221, true)
  else (0, false)

/-- The guard stage of an actuator (Table 19-2). -/
def guardStage (code : Nat) : Option Nat :=
  if code = 1 then some 3 else if code = 2 then some 0 else if code = 3 then some 1 else if code = 4 then some 2 else none

/-- min(max(4x − j, 0), 1) in 1/32,768 for the guard pressure x. -/
def guardShare (x : Int) (j : Nat) : Int := min (max (4 * x - 32768 * j) 0) 32768

/-- The guard ceiling of an actuator in Q1.15; none where it is 1 (R503). -/
def guardCeiling (s : State) (x : Int) (code : Nat) : Option Int :=
  match guardStage code with
  | none => none
  | some j =>
    let w := guardShare x j * (100 - (floorOf s code).1)
    if w = 0 then none else some (roundQ (2147483648 - w * 65536 / 100))

/-- The loops that drive an actuator instance and have been evaluated. -/
def drivers (s : State) (code inst : Nat) : List Loop :=
  s.wvr.loops.filter fun l => l.act == code && l.aInst == inst && decide (0 < l.count)

/-- The value applied to an actuator instance and what limited it: value, floor applied, override. -/
def appliedValue (s : State) (x : Int) (code inst : Nat) : Option (Int × Bool × Bool) :=
  match drivers s code inst with
  | [] => none
  | l :: ls =>
    let cap := fun (l : Loop) => match guardCeiling s x code with
      | some c => if l.state = 2 then min (max 0 l.u) c else max 0 l.u
      | none => max 0 l.u
    let v := ls.foldl (fun v l => min v (cap l)) (cap l)
    let fl := floorOf s code
    let raised : Bool := fl.2 && decide (v < pctQ fl.1)
    let v := if raised then pctQ fl.1 else v
    if code = 4 ∧ margin0 s then some (32767, raised, true) else some (v, raised, false)

/-- One actuator instance takes its value; its drivers report what limited it. -/
def applyAct (x : Int) (s : State) (a : Nat × Nat) : State :=
  match appliedValue s x a.1 a.2 with
  | none => s
  | some v =>
    let lim := fun (l : Loop) => match guardCeiling s x a.1 with | some c => l.state == 2 && decide (c < max 0 l.u) | none => false
    { s with
      wvr.acts := (a.1, a.2, v.1) :: s.wvr.acts.filter (fun e => !(e.1 == a.1 && e.2.1 == a.2))
      wvr.loops := updWhere (fun l => l.act == a.1 && l.aInst == a.2)
        (fun l => { l with applied := v.1, guardLim := lim l, floorAp := v.2.1, overruled := v.2.2 }) s.wvr.loops }

/-- The actuator instances that the guard limits or that a floor holds. -/
def actInstances : List (Nat × Nat) := [(1, 0), (1, 1), (1, 2), (1, 3), (2, 0), (3, 0), (4, 0), (5, 0)]

/-- A ceiling is below 1 (R503). -/
def guardOn (s : State) : Bool := actInstances.any fun a => (guardCeiling s (actOf s 6 0) a.1).isSome

/-- The outputs applied: the guard pressure first, then the other actuators; an episode of the guard and one of throttling
are counted once. -/
def applyActs (s : State) : State :=
  let s := applyAct 0 s (6, 0)
  let s := actInstances.foldl (applyAct (actOf s 6 0)) s
  let guard := guardOn s
  let s := countIf (guard && !s.wvr.guard) 0x0F3 { s with wvr.guard := guard }
  let slow := decide (actOf s 5 0 < 32767)
  countIf (slow && !s.thm.throttling) 0x101 { s with thm.throttling := slow }

/-- A microsecond of throttled time (Table 20-2, THM_THROTTLE_MS). -/
def throttleTick (s : State) : State :=
  if s.thm.throttling then
    { s with thm.throttleUs := s.thm.throttleUs + 1
             thm.throttleMs := if (s.thm.throttleUs + 1) % 1000 = 0 then satAdd (2 ^ 32 - 1) s.thm.throttleMs 1 else s.thm.throttleMs }
  else s

/-! ### Capture (R507) -/

/-- One signal of a loop, in Q1.15 with wider terms saturated. -/
def signalOf (s : State) (sel : Nat) : Int :=
  let l := loopAt s (field sel 0 6)
  match field sel 8 4 with
  | 0 => l.y
  | 1 => l.rEff
  | 2 => sat16 l.eLast
  | 3 => l.u
  | 4 => roundQ l.pLast
  | 5 => roundQ l.i
  | 6 => roundQ l.dLast
  | 7 => roundQ l.ffLast
  | 8 => l.injLast
  | _ => l.applied

/-- The Hamper address of a sample of the capture. -/
def captureAddr (s : State) (k : Nat) : Nat := winBase s 13 + 0x2000000 + 8 * k

/-- The bytes of one sample. -/
def sampleBytes (x : List Int) : List Byte := (x.map fun v => leBytes 2 (signed 16 v)).flatten

/-- A capture begins. -/
def startCapture (s : State) : State :=
  { s with wvr.capture := s.wvr.capture.map fun c => if c.state = 1 then { c with state := 2 } else c }

/-- An armed capture's trigger occurs with the clock loop's sample: at once, with a signal's first sample, or with the
sensor crossing the level. -/
def triggered (c : Capture) (before after : Loop) : Bool :=
  c.state == 1 && (match c.trigger with
    | 0 => true
    | 1 => (match before.inj with | some x => x.n == 0 | none => false)
    | 2 => decide (before.y < c.level) && decide (c.level ≤ after.y)
    | _ => decide (c.level < before.y) && decide (after.y ≤ c.level))

/-- A running capture at a sample of its clock loop: every d-th is taken, until the count. -/
def captureSample (s : State) : State :=
  match s.wvr.capture with
  | none => s
  | some c =>
    if c.state ≠ 2 then s
    else if c.skip ≠ 0 then
      let c' : Capture := { c with skip := (c.skip + 1) % c.d }
      { s with wvr.capture := some c' }
    else
      let x := c.sel.map (signalOf s)
      let c' : Capture := { c with
        samples := c.samples ++ [x], skip := 1 % c.d, tick0 := if c.samples = [] then s.wvr.tick else c.tick0
        state := if c.count ≤ c.samples.length + 1 then 3 else 2 }
      let a := captureAddr s c.samples.length
      let s := { s with wvr.capture := some c' }
      if winAllowsRange s.ham.win 2 true a (sampleBytes x).length then { s with ham.mem := memWrite s.ham.mem a (sampleBytes x) }
      else deniedHam 2 a true s

/-- The capture at a tick at which its clock loop was evaluated. -/
def captureTick (before : State) (s : State) : State :=
  match s.wvr.capture with
  | none => s
  | some c =>
    if (dueOrder before).contains c.clock then
      captureSample (if triggered c (loopAt before c.clock) (loopAt s c.clock) then startCapture s else s)
    else s

/-- CAPTURE_TRIGGER. -/
def execCaptureTrigger (s : State) : Result := alive s <| .next (startCapture s)

/-! ### The engine's steps -/

/-- The loops run: WVM runs, the device is not in Doze and not fail-silent (R504). -/
def weaverRuns (s : State) : Bool := s.wvr.running && !s.pwr.doze && !s.saf.failSilent

/-- The due loops evaluated and their outputs applied. -/
def runLoops (s : State) : State := captureTick s (applyActs ((dueOrder s).foldl evalLoop s))

/-- LOOP_TICK (R494): one tick; the due loops are evaluated, their outputs applied, the capture samples. -/
def execLoopTick (s : State) : Result := alive s <|
  let s1 := throttleTick (if weaverRuns s then runLoops s else s)
  .next { s1 with wvr.tick := s1.wvr.tick + 1 }

/-- The running WVM image has been found (R157, R504). -/
def wvmFound (s : State) : Bool := match s.fw.running[3]? with | some (some _) => true | _ => false

/-- WVM_START (R504): the loops begin to be evaluated, the first sample of a CLOSED loop bumpless from its actuator's reset
value. -/
def execWvmStart (s : State) : Result := alive s <|
  if s.wvr.running || !s.boot.mgtRunning || !wvmFound s || s.saf.failSilent then .next s
  else .next { s with
    wvr.running := true
    wvr.loops := s.wvr.loops.map fun l => { l with held := if l.act = 6 then 0 else 32767, bumpless := true } }

/-- INJECTION_END (R506): a signal that still runs ends early (one at its duration has ended with its last sample). -/
def execInjectionEnd (loop : Nat) (s : State) : Result := alive s <| .next (injectCut loop s)

/-! ### WVR_INJECT and WVR_CAPTURE -/

/-- The injections running. -/
def injections (s : State) : Nat := (s.wvr.loops.filter fun l => l.inj.isSome).length

/-- WVR_INJECT's outcome. -/
def wvrInject (s : State) (c : Cmd) : Decision :=
  let l := loopAt s (pk c 24 1)
  if pk c 25 1 = 1 then (if l.inj.isNone then noChange else done)
  else if pk c 26 1 = 1 ∧ l.state ≠ 2 then refuse stFmtParam 26
  else if l.inj.isSome then refuse stResExists 0
  else if 8 ≤ injections s then refuse stResExhausted 0
  else done

/-- WVR_INJECT. -/
def execWvrInject (ring seq : Nat) (s : State) : Result := fast s <| auditedOp opWvrInject wvrInject ring seq s

/-- The command starts a signal, and so ends with the loop's next sample. -/
def injectWaits (c : Cmd) : Bool := pk c 25 1 == 0 && pk c 32 4 != 0

/-- WVR_INJECT's effect: the signal stands ready for the loop's next sample, or stops. -/
def applyWvrInject (c : Cmd) (status detail : Nat) (s : State) : State :=
  let n := pk c 24 1
  if pk c 25 1 = 1 then
    injectBegun (loopAt s n).inj { s with wvr.loops := updAt n (fun l => { l with inj := none }) s.wvr.loops }
  else if !injectWaits c then s
  else
    let x : Inject := { point := pk c 26 1, wave := pk c 27 1, amp := unsigned 16 (pk c 28 2), dur := pk c 32 4,
                        period := max 1 (pk c 36 2), f0 := pk c 38 2, f1 := pk c 40 2, cmd := some (c.uid, status, detail) }
    { s with wvr.loops := updAt n (fun l => { l with inj := some x }) s.wvr.loops }

/-- A capture is armed or running. -/
def captureBusy (s : State) : Bool := match s.wvr.capture with | some c => c.state == 1 || c.state == 2 | none => false

/-- The samples captured. -/
def captured (s : State) : List (List Int) := match s.wvr.capture with | some c => c.samples | none => []

/-- WVR_CAPTURE's outcome. -/
def wvrCapture (s : State) (c : Cmd) : Decision :=
  match pk c 24 1 with
  | 0 => if captureBusy s then refuse stResExists 0 else done
  | 1 =>
    let first := pk c 60 4
    let l := (captured s).drop first
    if pk c 56 4 < 8 * l.length then { status := stLenShort, detail := 56, result := 8 * l.length }
    else
      let t := match s.wvr.capture with | some c => c.tick0 % 2 ^ 32 | none => 0
      { result := l.length + t * 2 ^ 32, bytes := (l.map sampleBytes).flatten }
  | _ => if captureBusy s then done else noChange

/-- WVR_CAPTURE. -/
def execWvrCapture (ring seq : Nat) (s : State) : Result := fast s <| auditedOp opWvrCapture wvrCapture ring seq s

/-- WVR_CAPTURE's effect: an arm discards the samples of the last capture; a cancel keeps them. -/
def applyWvrCapture (c : Cmd) (s : State) : State :=
  match pk c 24 1 with
  | 0 =>
    if pk c 28 4 = 0 then s
    else
      let x : Capture := { trigger := pk c 25 1, clock := pk c 26 1, d := pk c 27 1 + 1, count := pk c 28 4
                           sel := (List.range 4).map (fun k => pk c (32 + 2 * k) 2), level := unsigned 16 (pk c 40 2) }
      { s with wvr.capture := some x }
  | 1 => s
  | _ => { s with wvr.capture := s.wvr.capture.map fun x => if x.state = 1 ∨ x.state = 2 then { x with state := 0 } else x }

/-! ### What a loop reports (Tables 19-5, 19-8) -/

/-- The status block of a loop (Table 19-5). -/
def loopStatus (s : State) (n : Nat) : List Byte :=
  let l := loopAt s n
  let flags := flagAt l.stale 0 + flagAt l.clampHi 1 + flagAt l.clampLo 2 + flagAt l.inj.isSome 3 +
    flagAt (outerOf s.wvr.loops n).isSome 4 + flagAt l.guardLim 5 + flagAt l.floorAp 6 + flagAt l.overruled 7
  leBytes 1 l.state ++ leBytes 1 flags ++ leBytes 2 (signed 16 l.y) ++ leBytes 2 (signed 16 l.rEff) ++
    leBytes 2 (signed 16 l.u) ++ leBytes 2 (signed 16 l.applied) ++ zeros 6 ++ leBytes 5 (signed 40 l.i) ++ zeros 3 ++
    leBytes 8 l.count

/-- WVR_LOOP_STS_n (Table 19-8). -/
def loopSts (s : State) (n : Nat) : Nat :=
  let l := loopAt s n
  l.state * 2 ^ 30 + flagAt l.stale 29 + flagAt l.clampHi 28 + flagAt l.clampLo 27 + flagAt l.windup 26 +
    flagAt l.inj.isSome 25 + flagAt (outerOf s.wvr.loops n).isSome 24 + flagAt l.feeds.isSome 23 + flagAt l.guardLim 22 +
    flagAt l.floorAp 21 + flagAt l.overruled 20 + l.rate * 2 ^ 18 + l.act * 2 ^ 8 + l.sensor

/-- WVR_STS (Table 19-7). -/
def wvrSts (s : State) : Nat :=
  let st := match s.wvr.capture with | some c => c.state | none => 0
  flagAt s.wvr.running 0 + flagAt (st == 1) 1 + flagAt (st == 2) 2 + flagAt (st == 3) 3 + flagAt s.wvr.guard 4 +
    injections s % 16 * 2 ^ 8

end Sys2Proof.Machine
end

