-- ==== Sys2Proof/Machine/Params.lean ====
section
/-! DEFINITION. SET_PARAM, GET_PARAM and SET_PARAMS: what stage 6 still decides, the values read, and what a new value
does beside being stored (R74, R117 to R120, R357, R548). -/

namespace Sys2Proof.Machine

/-! ### The layout status block (Table 13-6) -/

/-- Rows of a generation that hold both of two members (R338). -/
def pairCount (g : Gen) (a b : Nat) : Nat :=
  ((List.range g.r).filter fun r => (rowMembers g r).contains a && (rowMembers g r).contains b).length

/-- The pair counts of a generation's members. -/
def pairCounts (g : Gen) : List Nat :=
  let ms := portsOf g.members
  (ms.map fun a => (ms.filter fun b => decide (a < b)).map fun b => pairCount g a b).flatten

/-- The three bytes D, P, S of a generation, zero for none. -/
def dpsBytes (g : Option Gen) : List Byte :=
  match g with | some g => [BitVec.ofNat 8 g.d, BitVec.ofNat 8 g.p, BitVec.ofNat 8 g.s] | none => zeros 3

/-- A figure of a generation, zero for none. -/
def genFig (f : Gen → Nat) (g : Option Gen) : Nat := match g with | some g => f g | none => 0

/-- The layout status block (R357). -/
def layoutBlock (s : State) : List Byte :=
  let cur := s.nv.genCur
  let new := s.nv.genNew
  let counts := match (if new.isSome then new else cur) with | some g => pairCounts g | none => []
  leBytes 2 (genFig (·.num) cur) ++ leBytes 2 (genFig (·.num) new) ++ leBytes 1 s.nv.change ++ dpsBytes cur ++ dpsBytes new ++
    leBytes 1 (flagAt s.lay.resumed 0) ++ leBytes 2 (genFig (·.r) cur) ++ leBytes 2 (genFig (·.r) new) ++
    leBytes 8 (genFig (·.members) cur) ++ leBytes 8 (genFig (·.members) new) ++ leBytes 4 s.nv.bandsStart ++
    leBytes 4 (bandsOf s (emptiedGen s)) ++ leBytes 8 s.nv.bytesMoved ++
    leBytes 2 (counts.foldl min (counts.foldl max 0)) ++ leBytes 2 (counts.foldl max 0) ++ zeros 4 ++
    (match cur with | some g => (tableDigest g).take 8 | none => zeros 8)

/-! ### GET_PARAM (R119) -/

/-- The value of a block PID as GET_PARAM gives it. -/
def blockRead (s : State) (p : Nat) : List Byte :=
  if p = 0x0A10 then layoutBlock s
  else match loopPid p with
    | some (n, _) => loopStatus s n
    | none => pidBlock s p

/-- GET_PARAM's outcome. -/
def getParam (s : State) (c : Cmd) : Decision :=
  let p := pk c 24 2
  if pidWidth p = some 0 then answer (blockRead s p) else done (pidRead s p)

/-- GET_PARAM. -/
def execGetParam (ring seq : Nat) (s : State) : Result := fast s <| plainOp opGetParam 36 getParam (fun _ _ s => s) ring seq s

/-! ### What a value does beside being stored -/

/-- PID 0x0210 written: a new 1 powers its group off, a new 0 enables it again (R72 to R74). -/
def groupsWritten (old new : Nat) (s : State) : State :=
  (List.range 24).foldl (fun s g =>
    if bit new g && !bit old g then (if bit s.pwr.groupOff g then s else groupOff g { s with pwr.restoring := s.pwr.restoring.erase g })
    else if bit old g && !bit new g && bit s.pwr.groupOff g then queueGroup g s
    else s) s

/-- One PID takes a value (R119, R548): a window entry, a Weaver PID, or a stored value with its effect. A
change of PID 0x0101 leaves near_full as it is (DESIGN CHOICE, log 158), one of PID 0x0102 the validity of wall time (DESIGN CHOICE, log
159). -/
def applyPid (p v : Nat) (s : State) : State :=
  if 0x0300 ≤ p ∧ p < 0x0320 then { s with ham.win := updAt (p - 0x0300) (fun w => winOfPid w.fixed v) s.ham.win }
  else match loopPid p with
    | some (n, i) => writeLoop n i v s
    | none =>
      let old := pidVal s p
      let s := setPid p v s
      if p = 0x0210 then groupsWritten old v s
      else if p = 0x0900 then policyChanged s
      else if p = 0x0B09 then hamLifeCheck s
      else if p = 0x0E11 then waysPowered v s
      else if p = 0x0D11 ∧ v = 1 then { s with hdl.linkUp := false, hdl.training := false }
      else s

/-- PID 0x0420 written by PLEM: the command ends when the change of power state does (R201). -/
def powerWritten (uid v : Nat) (post : Nat × Nat × Nat) (s : State) : State :=
  requestPower { target := v, plem := some uid, post := post } s

/-! ### SET_PARAM (R118, R119) -/

/-- What stage 6 refuses of one value: the access (R118), a CLOSED loop (R498, R499), a window entry that fails R22 by
now, a locked way that would lose power (R482). -/
def pidRefusal (s : State) (p v : Nat) : Option (Nat × Nat) :=
  if pidLocked s p then some (stOrdLocked, 0)
  else match (loopPid p).bind fun e => loopStateCheck s.wvr.loops e.1 e.2 v with
    | some f => some f
    | none =>
      if 0x0300 ≤ p ∧ p < 0x0320 then (winPidCheck s.ham.win (p - 0x0300) v).map fun st => (st, 28)
      else if p = 0x0E11 ∧ Nat.land v s.mch.lock ≠ 0 then some (stOrdLocked, 0)
      else none

/-- SET_PARAM's outcome: the previous value, zero for a block PID; a write of the current value is OK.NOCHANGE. A change of
power state is compared with the one that the device will have reached. -/
def setParam (s : State) (c : Cmd) : Decision :=
  let p := pk c 24 2
  if pidWidth p = some 0 then
    let b := c.block.take (unsignedLen c)
    if pidLocked s p then refuse stOrdLocked 0
    else if pidBlock s p = b then noChange
    else { nums := [p], bytes := b }
  else
    let v := pk c 28 (pk c 26 1)
    match pidRefusal s p v with
    | some f => refuse f.1 f.2
    | none =>
      let prev := pidRead s p
      if prev = v ∧ ¬ (p = 0x0420 ∧ s.hfe.pwrEntry.isSome) then noChange prev else { result := prev, nums := [p, v] }

/-- SET_PARAM. -/
def execSetParam (ring seq : Nat) (s : State) : Result := fast s <| auditedOp opSetParam setParam ring seq s

/-- SET_PARAM's effect, but for PID 0x0420. -/
def applySetParam (d : Decision) (s : State) : State :=
  match d.nums with
  | [p] => setPidBlock p d.bytes s
  | [p, v] => applyPid p v s
  | _ => s

/-! ### SET_PARAMS (R120) -/

/-- The entries of a block. -/
def paramEntries (c : Cmd) : List (Nat × Nat) :=
  (List.range (pk c 24 4)).map fun k => let e := paramEntry c.block k; (e.1, numAt c.block (16 * k + 8) e.2.1)

/-- The first entry that stage 6 refuses, each against what the earlier ones leave; its detail is its index. -/
def entriesRefusal : List (Nat × Nat) → Nat → State → Option (Nat × Nat)
  | [], _, _ => none
  | e :: es, k, s =>
    match pidRefusal s e.1 e.2 with
    | some f => some (f.1, k)
    | none => entriesRefusal es (k + 1) (previewPid e.1 e.2 s)

/-- SET_PARAMS's outcome; a command whose every value is already current changes nothing and says so, as R118 rules for SET_PARAM (DEDUCED,
log 160). -/
def setParams (s : State) (c : Cmd) : Decision :=
  match entriesRefusal (paramEntries c) 0 s with
  | some f => refuse f.1 f.2
  | none =>
    if (paramEntries c).all fun e => pidRead s e.1 == e.2 && !(e.1 == 0x0420 && s.hfe.pwrEntry.isSome) then noChange else done

/-- SET_PARAMS. -/
def execSetParams (ring seq : Nat) (s : State) : Result := fast s <| auditedOp opSetParams setParams ring seq s

/-- SET_PARAMS's effect, in entry order, but for PID 0x0420. -/
def applySetParams (c : Cmd) (s : State) : State :=
  (paramEntries c).foldl (fun s e => if e.1 = 0x0420 then s else applyPid e.1 e.2 s) s

/-- The power state that a PLEM write of PID 0x0420 asks for. -/
def powerAsked (c : Cmd) (d : Decision) : Option Nat :=
  if !isSuccess d.status || d.status == stOkNochange then none
  else if c.opcode = opSetParam then (match d.nums with | [p, v] => if p = 0x0420 then some v else none | _ => none)
  else if c.opcode = opSetParams then ((paramEntries c).find? fun e => e.1 == 0x0420).map (·.2)
  else none

end Sys2Proof.Machine
end

