-- ==== Sys2Proof/Machine/Rma.lean ====
section
/-! DEFINITION. The remote memory access engine: connection set-up, ESP, packets, message trackers, the region table,
revocation and teardown (R224 to R250). -/

namespace Sys2Proof.Machine

/-! ### Replies and the error state -/

/-- A step that can take the class 3 connection away: bridge pairing ends when it moves to the error state (R464). -/
def withBridge (f : State → State) (s : State) : State :=
  let t := f s
  if s.hdl.paired && s.hdl.bridge && class3Ready s && !class3Ready t then endPairing id t else t

/-- A NAK of a PSN (AETH syndrome). -/
def nak (n syndrome psn : Nat) (s : State) : State := txPacket n syndrome psn [] s

/-- A NAK that moves the connection to the error state (R225). -/
def nakError (n syndrome psn : Nat) (s : State) : State := errorConn n (nak n syndrome psn s)

/-- NAK Invalid Request. -/
abbrev nakInvalid : Nat := 0x61
/-- NAK Remote Access Error. -/
abbrev nakAccess : Nat := 0x62
/-- NAK Remote Operational Error. -/
abbrev nakOperational : Nat := 0x63
/-- RNR NAK with timer 1 (R244). -/
abbrev nakRnr : Nat := 0x21

/-- The longest RETH DMA length and SEND message (R225). -/
abbrev dmaMax : Nat := 16777216

/-- Bytes that the engine writes into the Hamper, under the window table (R16, R24). -/
def hamWrite (a : Nat) (bytes : List Byte) (s : State) : State := engineWrite a bytes s

/-! ### The region table (R245 to R248) -/

/-- The entry at an index; one never used is FREE with tag 0. -/
def regionOf (s : State) (i : Nat) : Region := (s.rma.regions.find? fun r => r.idx == i).getD { idx := i }

/-- The 32 bytes of an entry (Table 09-6). -/
def regionBytes (r : Region) : List Byte :=
  leBytes 8 r.base ++ leBytes 4 r.len ++ leBytes 2 (r.tag + r.state * 16384) ++ [BitVec.ofNat 8 r.rights, 0] ++ leBytes 4 r.conn ++
    leBytes 4 r.inFlight ++ zeros 8

/-- An entry changed, on-die and in its home in one step (R246). -/
def setRegion (r : Region) (s : State) : State :=
  hamWrite (winBase s 9 + 32 * r.idx) (regionBytes r)
    { s with rma.regions := r :: s.rma.regions.filter fun x => x.idx != r.idx }

/-- A request counted in or out of its region (R248). -/
def countRegion (up : Bool) (i : Nat) (s : State) : State :=
  let r := regionOf s i
  setRegion { r with inFlight := if up then r.inFlight + 1 else r.inFlight - 1 } s

/-- The target of an inbound WRITE (right 1), READ (0) or ATOMIC (2): its Hamper address and region; none where the check
refuses (Table 09-2, R245). -/
def checkTarget (s : State) (c : Conn) (rkey va len right : Nat) : Option (Nat × Option Nat) :=
  if c.cls < 2 then none
  else if c.prot = 2 then
    let r := regionOf s (rkey / 16384)
    if r.tag = rkey % 16384 ∧ r.state = 1 ∧ r.conn = c.num ∧ bit r.rights right ∧ va + len ≤ r.len then some (r.base + va, some r.idx) else none
  else if c.prot = 1 then
    if len = 0 then some (0, none)
    else (c.bufs.find? fun b => b.1 == rkey).bind fun b => if va + len ≤ b.2.2 then some (b.2.1 + va, none) else none
  else none

/-- A refused target: code 0x069 is counted on a legacy connection (R245). -/
def targetRefused (c : Conn) (psn : Nat) (s : State) : State := countIf (c.prot == 2) 0x069 (nakError c.num nakAccess psn s)

/-! ### Messages begun (R248 to R250) -/

/-- A message begins. -/
def beginMsg (n psn : Nat) (region : Option Nat) (s : State) : State :=
  let s := updConn n (fun c => { c with msgs := c.msgs ++ [{ conn := n, psn := psn, region := region }] }) s
  match region with | some i => countRegion true i s | none => s

/-- The connection's messages that satisfy a test end, or are abandoned (R248). -/
def endMsgs (n : Nat) (f : Inflight → Bool) (s : State) : State :=
  match connOf s n with
  | none => s
  | some c =>
    let s := updConn n (fun c => { c with msgs := c.msgs.filter fun m => !f m }) s
    (c.msgs.filter f).foldl (fun s m => match m.region with | some i => countRegion false i s | none => s) s

/-- The latest message of a connection ends. -/
def endLastMsg (c : Conn) (s : State) : State :=
  match c.msgs.getLast? with
  | some m => endMsgs c.num (fun x => x.psn == m.psn) s
  | none => s

/-! ### Requests in order (R224, R225, R244, R245) -/

/-- The expected PSN moves on. -/
def advancePsn (n k : Nat) (s : State) : State := updConn n (fun c => { c with expPsn := (c.expPsn + k) % 2 ^ 24 }) s

/-- A SEND packet (R225, R244): the first takes a receive buffer, or is answered with an RNR NAK; one longer than the buffer is
refused; the last completes the message. What its bytes mean is the rows of the NVMe, replication and peer messages (log 56). -/
def recvSend (c : Conn) (psn length : Nat) (first last : Bool) (s : State) : State :=
  if (first ∧ dmaMax < length) ∨ (!first ∧ c.msgs = []) then nakError c.num nakInvalid psn s
  else if first ∧ c.recvFree = 0 then nak c.num nakRnr psn s
  else if first ∧ Config.recvSize c.cls < length then nakError c.num nakAccess psn s
  else
    let s := advancePsn c.num 1 s
    let s := if first then beginMsg c.num psn none (updConn c.num (fun c => { c with recvFree := c.recvFree - 1 }) s) else s
    if !last then s
    else match connOf s c.num with
      | none => s
      | some x => sendAck c.num (updConn c.num (fun c => { c with recvFree := c.recvFree + 1 }) (endLastMsg x s))

/-- An RDMA WRITE packet on a single path: checked at the first, placed as it arrives, its region counted until the last byte
is accepted (R245, R248). -/
def recvWrite (c : Conn) (psn rkey va len : Nat) (first last : Bool) (bytes : List Byte) (s : State) : State :=
  if first then
    if dmaMax < len then nakError c.num nakInvalid psn s
    else match checkTarget s c rkey va len 1 with
    | none => targetRefused c psn s
    | some (a, r) =>
      let data := bytes.take len
      let s := hamWrite a data (advancePsn c.num 1 s)
      if last then sendAck c.num s
      else
        let run : WriteRun := { addr := a + data.length, left := len - data.length, region := r }
        beginMsg c.num psn r (updConn c.num (fun c => { c with write := some run }) s)
  else match c.write with
  | none => nakError c.num nakInvalid psn s
  | some w =>
    let data := bytes.take w.left
    let s := hamWrite w.addr data (advancePsn c.num 1 s)
    if last then sendAck c.num (endLastMsg c (updConn c.num (fun c => { c with write := none }) s))
    else updConn c.num (fun c => { c with write := some { w with addr := w.addr + data.length, left := w.left - data.length } }) s

/-- The response to a READ: one packet for each path MTU, of which the first and the last carry an AETH (Table 09-1, R243). -/
def readResponse (c : Conn) (psn : Nat) (data : List Byte) (s : State) : State :=
  let parts := mtuParts c.mtu data
  parts.zipIdx.foldl (fun s e =>
    let k := partKind 0x110 e.2 parts.length
    let p := (psn + e.2) % 2 ^ 24
    if k = 0x10E then txPacket c.num k p ((if multipath c then mpethBytes c.nextMsn e.2 false false else []) ++ e.1) s
    else txAeth c.num k p e.1 s) s

/-- An RDMA READ request: checked and served; it takes the PSNs of its response packets (R225, R245). -/
def recvRead (c : Conn) (psn rkey va len : Nat) (s : State) : State :=
  if dmaMax < len then nakError c.num nakInvalid psn s
  else match checkTarget s c rkey va len 0 with
  | none => targetRefused c psn s
  | some (a, _) => match engineReads a len s with
    | some t => t
    | none => readResponse c psn (memRead s.ham.mem a len) (advancePsn c.num (max 1 (ceilDiv len (max 1 c.mtu))) s)

/-- An atomic: 8 bytes, 8-byte aligned; the former value returns (Table 09-1). -/
def recvAtomic (c : Conn) (psn rkey va : Nat) (new : Nat → Nat) (s : State) : State :=
  match checkTarget s c rkey va 8 2 with
  | none => targetRefused c psn s
  | some (a, _) =>
    if a % 8 ≠ 0 then nakError c.num nakInvalid psn s
    else match engineReads a 8 s with
    | some t => t
    | none =>
      let old := leNat (memRead s.ham.mem a 8)
      txAeth c.num 0x112 psn (beBytes 8 old) (advancePsn c.num 1 (hamWrite a (leBytes 8 (new old)) s))

/-! ### Multipath (R240 to R242) -/

/-- The device's message trackers in use (RMA_TRK_USE). -/
def trackerUse (s : State) : Nat := (s.rma.conns.map (·.trackers.length)).foldl (· + ·) 0

/-- A message is complete: bits 0 to final are all set. -/
def trackerDone (t : Tracker) : Bool := match t.final with | some f => (List.range (f + 1)).all t.seen.contains | none => false

/-- Complete messages are posted in msn order, their trackers freed (R241). -/
def postMessages : Nat → Conn → Conn
  | 0, c => c
  | n + 1, c =>
    match c.trackers.find? fun t => t.msn == c.nextMsn with
    | some t =>
      if trackerDone t then postMessages n { c with trackers := c.trackers.filter fun x => x.msn != t.msn, nextMsn := (c.nextMsn + 1) % 2 ^ 24 }
      else c
    | none => c

/-- The expected PSN passes those received (R242). -/
def passPsns : Nat → Conn → Conn
  | 0, c => c
  | n + 1, c => if c.rcvd.contains c.expPsn then passPsns n { c with rcvd := c.rcvd.erase c.expPsn, expPsn := (c.expPsn + 1) % 2 ^ 24 } else c

/-- The packet is received: the cumulative PSN follows, complete messages are posted, an acknowledgement leaves where either
moved. -/
def multiReceived (n psn : Nat) (s : State) : State :=
  match connOf s n with
  | none => s
  | some c =>
    let c := if c.rcvd.contains psn then c else { c with rcvd := c.rcvd ++ [psn] }
    let d := postMessages c.trackers.length (passPsns c.rcvd.length c)
    let s := updConn n (fun _ => d) s
    if d.expPsn = c.expPsn ∧ d.nextMsn = c.nextMsn then s else sendAck n s

/-- A packet contradicts its message's final offset (R240). -/
def offsetBad (t : Tracker) (off : Nat) (last : Bool) : Bool :=
  (match t.final with | some f => decide (f < off) || (last && off != f) | none => false) || (last && t.seen.any fun o => decide (off < o))

/-- An RDMA WRITE Only of a multipath connection (R240, R241). -/
def recvMulti (c : Conn) (psn rkey va len : Nat) (m : Mpeth) (bytes : List Byte) (s : State) : State :=
  if dmaMax < len then nakError c.num nakInvalid psn s
  else if psnBehind c.nextMsn m.msn then multiReceived c.num psn s
  else
    let held := c.trackers.find? fun t => t.msn == m.msn
    match held with
    | none =>
      if c.state = 3 then nak c.num nakOperational psn s
      else if 4096 ≤ trackerUse s ∨ pidVal s 0x0603 ≤ c.trackers.length then
        countEvent 0x068 0 { s with rma.trkDrop := satAdd (2 ^ 32 - 1) s.rma.trkDrop 1 }
      else match checkTarget s c rkey va len 1 with
        | none => targetRefused c psn s
        | some (a, _) =>
          let t : Tracker := { msn := m.msn, seen := [m.offset], final := if m.last then some m.offset else none, target := a - 4096 * m.offset }
          multiReceived c.num psn (hamWrite a (bytes.take len) (updConn c.num (fun c => { c with trackers := c.trackers ++ [t] }) s))
    | some t =>
      if offsetBad t m.offset m.last then nakError c.num nakInvalid psn s
      else if t.seen.contains m.offset then multiReceived c.num psn s
      else match checkTarget s c rkey va len 1 with
        | none => targetRefused c psn s
        | some (_, _) =>
          let t' : Tracker := { t with seen := t.seen ++ [m.offset], final := if m.last then some m.offset else t.final }
          multiReceived c.num psn (hamWrite (t.target + 4096 * m.offset) (bytes.take len)
            (updConn c.num (fun c => { c with trackers := updWhere (fun x => x.msn == t.msn) (fun _ => t') c.trackers }) s))

/-! ### Answers to the device's own requests (R242, R244) -/

/-- An acknowledgement releases the packets up to its PSN; its credits allow messages that wait (R244). -/
def releaseSent (n psn : Nat) (s : State) : State :=
  updConn n (fun c => { c with sent := c.sent.filter fun e => psnBehind e.1 psn, oldestAt := s.now, retries := 0 }) s

/-- The device's messages not yet acknowledged (R244). -/
def messagesOut (c : Conn) : Nat := (c.sent.filter fun e => lastKind e.2.1 && needsCredit c e.2.1).length

/-- The packets not yet acknowledged leave again, in order (go-back-N, R242). -/
def resendSent (n : Nat) (s : State) : State :=
  match connOf s n with
  | none => s
  | some c => c.sent.foldl (fun s e => txPacket n e.2.1 e.1 e.2.2 s) s

/-- An acknowledgement with credits, which the messages still unacknowledged count against; code 31 carries none. -/
def ackCredits (n psn code : Nat) (s : State) : State :=
  let s := releaseSent n psn s
  if 31 ≤ code then s
  else
    let s := updConn n (fun c => { c with creditsIn := creditCount code, creditsLeft := creditCount code - messagesOut c }) s
    pumpConn (pumpFuel s n) n s

/-- An Acknowledge packet with its AETH syndrome (R242, R244; the classes of the syndrome PRESUMED from the InfiniBand specification,
log 59): below 0x20 an acknowledgement; an RNR NAK, after which the timeout resends; NAK 0x60 of a PSN sequence error, after which the
packets from that PSN leave again; every other NAK is an error. -/
def recvAck (n psn syndrome : Nat) (s : State) : State :=
  if syndrome < 0x20 then ackCredits n psn syndrome s
  else
    let before := (psn + 2 ^ 24 - 1) % 2 ^ 24
    if syndrome < 0x60 then releaseSent n before s
    else if syndrome = 0x60 then resendSent n (releaseSent n before s)
    else errorConn n s

/-! ### Arrival (R224, R227, R229, R242, R250) -/

/-- The packet begins a message, so that a draining connection refuses it (R250). -/
def beginsMessage (p : RocePkt) : Bool :=
  match p with
  | .send _ f _ _ => f
  | .write _ _ _ f _ m _ => f && m.isNone
  | .readReq .. | .swap .. | .add .. => true
  | _ => false

/-- A request in its order. -/
def runRequest (c : Conn) (psn : Nat) (p : RocePkt) (s : State) : State :=
  match p with
  | .send l f e _ => recvSend c psn l f e s
  | .write k va l f e _ b => recvWrite c psn k va l f e b s
  | .readReq k va l => recvRead c psn k va l s
  | .swap k va x v => recvAtomic c psn k va (fun old => if old = x % 2 ^ 64 then v else old) s
  | .add k va v => recvAtomic c psn k va (fun old => old + v) s
  | _ => nakError c.num nakInvalid psn s

/-- A request in PSN order: the PSN expected runs, one behind is acknowledged again, one ahead is a sequence error, of which a multipath
connection sends no NAK (R242). -/
def recvSingle (c : Conn) (psn : Nat) (p : RocePkt) (s : State) : State :=
  if psn % 2 ^ 24 = c.expPsn then runRequest c psn p s
  else if psnBehind c.expPsn psn then sendAck c.num s
  else if multipath c then s
  else nak c.num 0x60 c.expPsn s

/-- A packet whose context is on-die is processed: by a ready or a draining connection only. -/
def receive (n psn : Nat) (p : RocePkt) (s : State) : State :=
  match connOf s n with
  | none => s
  | some c =>
    if c.cls = 1 ∨ !(c.state == 2 || c.state == 3) then s
    else
      let s := updConn n (fun c => { c with lastUse := s.now }) s
      match p with
      | .ack k => recvAck n psn k s
      | .readResp _ _ => releaseSent n psn s
      | .atomicAck v => releaseSent n psn (updConn n (fun c => { c with atomicVal := v % 2 ^ 64 }) s)
      | .cnp => updConn n (fun c => { c with cnps := c.cnps + 1 }) s
      | p =>
        if c.state = 3 ∧ beginsMessage p then nak n nakOperational psn s
        else if multipath c then
          if psnBehind c.expPsn psn ∨ c.rcvd.contains (psn % 2 ^ 24) then sendAck n s
          else match p with
            | .write k va l _ _ (some m) b => recvMulti c (psn % 2 ^ 24) k va l m b s
            | .write _ _ _ _ _ none _ => nakError n nakInvalid psn s
            | p => recvSingle c psn p s
        else recvSingle c psn p s

/-- Packets in the miss queue (RMA_MISS_DEPTH). -/
def missDepth (s : State) : Nat := (s.rma.conns.map (·.missQ.length)).foldl (· + ·) 0

/-- A connection of class 0 or 1 without protection, on a sub-port whose bit of PID 0x0600 is set: its packets are dropped (R234). -/
def plainConn (s : State) (c : Conn) : Bool := decide (c.cls < 2) && c.sa.isNone && bit (pidVal s 0x0600) c.sub

/-- A packet arrives: one that names no connection is dropped (0x061), as is plaintext where protection is required (0x06C); one whose
context is not on-die waits in the miss queue, 256 for a connection and 65,536 in all (0x062). -/
def arrive (n psn : Nat) (p : RocePkt) (s : State) : State :=
  match connOf s n with
  | none => countEvent 0x061 0 s
  | some c =>
    if plainConn s c then countEvent 0x06C 0 s
    else if c.onDie then withBridge (receive n psn p) s
    else if 256 ≤ c.missQ.length ∨ 65536 ≤ missDepth s then countEvent 0x062 0 { s with rma.missDrop := satAdd (2 ^ 32 - 1) s.rma.missDrop 1 }
    else updConn n (fun c => { c with missQ := c.missQ ++ [(psn, p)] }) s

/-- SEND. -/
def execSend (conn : Nat) (bth : Bth) (length : Nat) (first last : Bool) (bytes : List Byte) (s : State) : Result := wire s <|
  .next (arrive conn bth.psn (.send length first last bytes) (marked bth.ce conn s))

/-- RDMA_WRITE. -/
def execRdmaWrite (conn : Nat) (bth : Bth) (rkey va dmaLen : Nat) (first last : Bool) (mpeth : Option Mpeth) (bytes : List Byte) (s : State) : Result := wire s <|
  .next (arrive conn bth.psn (.write rkey va dmaLen first last mpeth bytes) (marked bth.ce conn s))

/-- RDMA_READ_REQUEST. -/
def execRdmaReadRequest (conn : Nat) (bth : Bth) (rkey va dmaLen : Nat) (s : State) : Result := wire s <| .next (arrive conn bth.psn (.readReq rkey va dmaLen) (marked bth.ce conn s))

/-- RDMA_READ_RESPONSE: it acknowledges its request; the data reaches host staging as WRITE_PAYLOAD_DATA gives it (log 56). -/
def execRdmaReadResponse (conn : Nat) (bth : Bth) (last : Bool) (bytes : List Byte) (s : State) : Result := wire s <|
  .next (arrive conn bth.psn (.readResp last bytes) (marked bth.ce conn s))

/-- ACKNOWLEDGE. -/
def execAcknowledge (conn : Nat) (bth : Bth) (credits : Nat) (s : State) : Result := wire s <| .next (arrive conn bth.psn (.ack credits) (marked bth.ce conn s))

/-- ATOMIC_ACKNOWLEDGE. -/
def execAtomicAcknowledge (conn : Nat) (bth : Bth) (value : Nat) (s : State) : Result := wire s <| .next (arrive conn bth.psn (.atomicAck value) (marked bth.ce conn s))

/-- COMPARE_SWAP. -/
def execCompareSwap (conn : Nat) (bth : Bth) (rkey va compare swap : Nat) (s : State) : Result := wire s <| .next (arrive conn bth.psn (.swap rkey va compare swap) (marked bth.ce conn s))

/-- FETCH_ADD. -/
def execFetchAdd (conn : Nat) (bth : Bth) (rkey va add : Nat) (s : State) : Result := wire s <| .next (arrive conn bth.psn (.add rkey va add) (marked bth.ce conn s))

/-- CNP. -/
def execCnp (conn : Nat) (s : State) : Result := wire s <| .next (arrive conn 0 .cnp s)

/-- ROCE_UNSUPPORTED_PACKET (R224, Table 09-1): a failed ICRC is 0x06D; a service not supported is dropped, 0x060; a request
with an unsupported opcode is answered. -/
def execRoceUnsupportedPacket (conn psn : Nat) (service icrcBad : Bool) (s : State) : Result := wire s <|
  if icrcBad then .next (countEvent 0x06D 0 s)
  else if service then .next (countEvent 0x060 0 s)
  else .next (arrive conn psn .unsupported s)

/-! ### Contexts (R228 to R230) -/

/-- A context may be evicted (R230). -/
def evictable (c : Conn) : Bool := c.onDie && !c.pinned && c.missQ.isEmpty && c.trackers.isEmpty && c.msgs.isEmpty

/-- The eligible context that has not been used for the longest. -/
def oldestEvictable (s : State) : Option Conn :=
  s.rma.conns.foldl (fun b c => if !evictable c then b else match b with
    | none => some c
    | some x => if c.lastUse < x.lastUse then some c else b) none

/-- A context is written back to its home slot, its SA keys wrapped under the key of this boot (R228). -/
def writeBack (c : Conn) (s : State) : State :=
  let keys := match c.sa with | some a => Config.kwpWrap s.rma.wrapKey a.keys | none => []
  hamWrite (winBase s 8 + 256 * c.num) (padTo 256 (Config.contextImage c.num keys)) (updConn c.num (fun c => { c with onDie := false }) s)

/-- Room for one more context on-die: 16,384, else an eligible one is evicted; none where no context is eligible. -/
def makeRoom (s : State) : Option State :=
  if onDieUse s < 16384 then some s
  else (oldestEvictable s).map fun c => writeBack c s

/-- A timeout acts: go-back-N from the oldest packet not acknowledged; past the retry count the connection is in error (R242). -/
def retransmit (c : Conn) (s : State) : State :=
  if pidVal s 0x0602 ≤ c.retries then withBridge (errorConn c.num) s
  else resendSent c.num (updConn c.num (fun c => { c with retries := c.retries + 1, oldestAt := s.now }) s)

/-- A timer is due. -/
def retransmits (c : Conn) : Bool := c.sent != [] && (c.state == 2 || c.state == 3)

/-- What waited for a context: its packets in order, a timer, the device's own requests (R229). -/
def contextReady (n : Nat) (q : List (Nat × RocePkt)) (due : Bool) (s : State) : State :=
  let s := withBridge (fun s => q.foldl (fun s e => receive n e.1 e.2 s) s) s
  let s := match connOf s n with | some c => if due && retransmits c then retransmit c s else s | none => s
  pumpConn (pumpFuel s n) n s

/-- CONTEXT_FETCH_DONE (R229): what waited for the context goes on. -/
def execContextFetchDone (conn : Nat) (s : State) : Result := alive s <|
  match connOf s conn with
  | none => .next s
  | some c =>
    if c.onDie then .next s
    else match makeRoom s with
    | none => .next s
    | some s => .next (contextReady conn c.missQ c.timerDue (updConn conn (fun c => { c with onDie := true, missQ := [], timerDue := false }) s))

/-- RETRANSMIT_TIMEOUT (R229, R242): a timer whose context is not on-die waits for it. The time has come (log 16). -/
def execRetransmitTimeout (conn : Nat) (s : State) : Result := alive s <|
  match connOf s conn with
  | none => .next s
  | some c =>
    if !retransmits c then .next s
    else if !c.onDie then .next (updConn conn (fun c => { c with timerDue := true }) s)
    else .next (retransmit c s)

/-! ### Connection set-up (R226 to R234) -/

/-- The lowest connection number that is free and that no decided REPL_PAIR will take. -/
def freeConnNum (s : State) : Option Nat :=
  ((List.range (s.rma.conns.length + s.rma.reserved.length + 1)).find? fun n =>
    (connOf s n).isNone && !s.rma.reserved.any (·.1 == n)).filter fun n => decide (n < connCap s)

/-- The pinned connections, with those that decided REPL_PAIR commands will make (R231). -/
def pinnedTaken (s : State) : Nat := pinnedUse s + s.rma.reserved.length

/-- A class 3 connection exists or is decided upon; there is at most one (R440). -/
def class3Taken (s : State) : Bool := s.rma.conns.any (·.cls == 3) || s.rma.reserved.any (·.2 == 3)

/-- The pending pair of an inbound SPI. -/
def pendingOf (s : State) (spi : Nat) : Option SaPair := s.rma.pendingSa.find? fun p => p.spiIn == spi

/-- A pair with the inbound SPI belongs to a connection. -/
def spiBound (s : State) (spi : Nat) : Bool :=
  s.rma.conns.any fun c => (match c.sa with | some a => a.spiIn == spi | none => false) ||
    (match c.oldSa with | some a => a.spiIn == spi | none => false)

/-- A connection made: on-die where there is room, a pinned one always (R231; DEDUCED, log 162); a pair it binds leaves the pending ones
(R234). -/
def addConn (c : Conn) (s : State) : State :=
  let r := makeRoom s
  let s := r.getD s
  let c := { c with
    onDie := r.isSome || decide (2 ≤ c.cls), pinned := decide (2 ≤ c.cls), lastUse := s.now, recvFree := Config.recvBuffers c.cls
    bufs := if c.prot = 1 ∧ 2 ≤ c.cls then Config.advertised c.num else [] }
  { s with
    rma.conns := s.rma.conns ++ [c]
    rma.pendingSa := match c.sa with | some a => s.rma.pendingSa.filter fun p => p.handle != a.handle | none => s.rma.pendingSa }

/-- CM message kinds: 0 REQ, 1 REP, 2 RTU, 3 REJ, 4 DREQ, 5 DREP. A REJ has no connection number. -/
def cmReject (reason : Nat) (s : State) : State := emit (.cm 1048576 3 reason) s

/-- Plaintext packets of classes 0 and 1 are dropped on a sub-port whose bit of PID 0x0600 is set (R234). -/
def plainDropped (s : State) (sub cls : Nat) (spi : Option Nat) : Bool := spi.isNone && decide (cls < 2) && bit (pidVal s 0x0600) sub

/-- CM_REQ (R224, R226, R231, R232, R234): accepted with a REP, or rejected. Without a pair class 3 is legacy, toward a VV4204 peer only; of
class 2 the request does not say what the remote is (DEDUCED, log 94). -/
def cmReq (sub cls mtu : Nat) (spi : Option Nat) (s : State) : State :=
  if plainDropped s sub cls spi then countEvent 0x06C 0 s
  else
    let pair := spi.bind (pendingOf s)
    if (match spi with | some k => pair.isNone && !spiBound s k | none => false) then countEvent 0x064 0 s
    else if spi.isSome && pair.isNone then cmReject 28 s
    else if cls == 1 || decide (3 < cls) || (match pair with | some a => a.cls != cls | none => false) then cmReject 28 s
    else if pair.isNone && cls == 3 && pidVal s 0x0D11 != 1 then cmReject 28 s
    else if cls = 0 ∧ !bit (numAt (subBlock s sub) 11 1) 1 then s
    else if !(mtu == 1024 || mtu == 2048 || mtu == 4096) then cmReject 26 s
    else if (2 ≤ cls ∧ 4096 ≤ pinnedTaken s) ∨ (cls = 3 ∧ class3Taken s) then cmReject 28 s
    else match freeConnNum s with
      | none => cmReject 4 (countEvent 0x063 0 s)
      | some n =>
        let prot := if pair.isSome then 1 else if 2 ≤ cls then 2 else 0
        cmSend n 1 0 (addConn { num := n, cls := cls, prot := prot, sub := sub, mtu := mtu, sa := pair } s)

/-- CM_REQ. -/
def execCmReq (sub cls mtu : Nat) (spiIn : Option Nat) (s : State) : Result := wire s <|
  if subUp s sub then .next (cmReq sub cls mtu spiIn s) else .next s

/-- A SYN is answered with SYN-ACK and the receive window (R243), or with RST. TCP answers: 0 SYN-ACK, 1 RST, 2 FIN, 3 ICResp, 4 the ICReq refused. -/
def tcpSyn (sub dstPort : Nat) (spi : Option Nat) (s : State) : State :=
  let b := subBlock s sub
  if plainDropped s sub 1 spi then countEvent 0x06C 0 s
  else
    let pair := spi.bind (pendingOf s)
    if (match spi with | some k => pair.isNone && !spiBound s k | none => false) then countEvent 0x064 0 s
    else if !bit (numAt b 11 1) 0 || numAt b 48 2 != dstPort || (spi.isSome && pair.isNone) ||
        (match pair with | some a => a.cls != 1 | none => false) then emit (.tcp 1048576 1) s
    else match freeConnNum s with
      | none => emit (.tcp 1048576 1) (countEvent 0x063 0 s)
      | some n =>
        let c : Conn := { num := n, cls := 1, prot := if pair.isSome then 1 else 0, sub := sub, sa := pair }
        let s := tcpSend n 0 (addConn c s)
        emit (.nvmeTcp n 0 [match connOf s n with | some c => tcpWindow s c | none => 0]) s

/-- TCP_SYN (R232, R234). -/
def execTcpSyn (sub dstPort : Nat) (spiIn : Option Nat) (s : State) : Result := wire s <|
  if subUp s sub then .next (tcpSyn sub dstPort spiIn s) else .next s

/-- A connection is freed: its messages are abandoned, its association ends, its pair is erased, its home slot zeroed (R250). -/
def freeConn (c : Conn) (s : State) : State :=
  let s := endMsgs c.num (fun _ => true) s
  let s := match c.ctrlId with | some k => endAssociation k s | none => s
  hamWrite (winBase s 8 + 256 * c.num) (zeros 256) { s with rma.conns := s.rma.conns.filter fun x => x.num != c.num }

/-- A connection of a state changes. -/
def inState (conn state : Nat) (ours : Bool) (f : Conn → State → State) (s : State) : Result :=
  match connOf s conn with
  | some c => if plainConn s c then .next (countEvent 0x06C 0 s)
    else if c.state = state ∧ c.cls ≠ 1 ∧ c.ours = ours then .next (f c s) else .next s
  | none => .next s

/-- NVME_TCP_ICREQ (R181): one that asks for TLS is refused and its connection closed; the ICResp gives MAXH2CDATA and the digests. -/
def execNvmeTcpIcreq (conn : Nat) (tls hdgst ddgst : Bool) (s : State) : Result := wire s <|
  match connOf s conn with
  | some c =>
    if c.cls ≠ 1 ∨ c.state ≠ 1 then .next s
    else if plainConn s c then .next (countEvent 0x06C 0 s)
    else if tls then .next (freeConn c (tcpSend conn 4 s))
    else .next (sealPacket conn 0 6 [1] (.nvmeTcp conn 1 [maxH2cData, flagAt hdgst 0, flagAt ddgst 0]) (updConn conn (fun c => { c with state := 2, hdgst := hdgst, ddgst := ddgst }) s))
  | none => .next s

/-- CM_REP: the device's request is answered; it sends RTU and its credits. -/
def execCmRep (conn : Nat) (s : State) : Result := wire s <|
  inState conn 1 true (fun _ s => sendAck conn (cmSend conn 2 0 (updConn conn (fun c => { c with state := 2 }) s))) s

/-- CM_RTU: the connection is ready; its credits are sent. -/
def execCmRtu (conn : Nat) (s : State) : Result := wire s <|
  inState conn 1 false (fun _ s => sendAck conn (updConn conn (fun c => { c with state := 2 }) s)) s

/-- CM_REJ: the device's request is refused; the connection is in error (DESIGN CHOICE, log 59). -/
def execCmRej (conn _reason : Nat) (s : State) : Result := wire s <| inState conn 1 true (fun _ s => errorConn conn s) s

/-- CM_DREQ: answered with DREP, and the connection is freed. -/
def execCmDreq (conn : Nat) (s : State) : Result := wire s <|
  match connOf s conn with
  | some c =>
    if plainConn s c then .next (countEvent 0x06C 0 s)
    else if c.cls = 1 then .next s else .next (withBridge (freeConn c) (cmSend conn 5 0 s))
  | none => .next s

/-- CM_DREP: the connection number was freed with the DREQ (R250 step 4); nothing remains. -/
def execCmDrep (_conn : Nat) (s : State) : Result := wire s <| .next s

/-- CM_MRA: received and ignored. -/
def execCmMra (_conn : Nat) (s : State) : Result := wire s <| .next s

/-! ### ESP (R233 to R238) -/

/-- The 64-bit number inferred from the low 32 bits (RFC 4303 Appendix A), window 16,384; negative where it would lie before
the first. -/
def inferSeq (high lo : Nat) : Int :=
  let tl := high % 2 ^ 32
  let th : Int := (high / 2 ^ 32 : Nat)
  let up : Int := if 16383 ≤ tl then (if tl - 16383 ≤ lo then th else th + 1) else (if tl + 2 ^ 32 - 16383 ≤ lo then th - 1 else th)
  up * 2 ^ 32 + lo

/-- The lower edge of the window of an SA (R235). -/
def windowEdge (a : SaPair) : Int := (a.inHigh : Int) - 16383

/-- The window updated with an accepted number. -/
def windowTake (n : Nat) (a : SaPair) : SaPair :=
  let h := max a.inHigh n
  { a with inHigh := h, inSeen := (n :: a.inSeen).filter fun x => decide (h < x + 16384) }

/-- An accepted packet's SA: a pending pair, a connection's pair or its old one; the first under a new pair starts the old one's
last second (R235, R237). -/
def espAccept (spi n : Nat) (s : State) : State :=
  let hit := fun (a : Option SaPair) => match a with | some a => a.spiIn == spi | none => false
  { s with
    rma.pendingSa := updWhere (fun a => a.spiIn == spi) (windowTake n) s.rma.pendingSa
    rma.conns := s.rma.conns.map fun c =>
      if hit c.sa then { c with sa := c.sa.map (windowTake n), oldSaAt := if c.oldSa.isSome && c.oldSaAt.isNone then some s.now else c.oldSaAt }
      else if hit c.oldSa then { c with oldSa := c.oldSa.map (windowTake n) }
      else c }

/-- The SA of an inbound SPI. -/
def saOf (s : State) (spi : Nat) : Option SaPair :=
  match pendingOf s spi with
  | some a => some a
  | none => s.rma.conns.findSome? fun c =>
      match c.sa.filter (·.spiIn == spi) with
      | some a => some a
      | none => c.oldSa.filter (·.spiIn == spi)

/-- ESP_INBOUND_PACKET (R235): looked up, window-checked, authenticated; what it carries is its own row (log 60). -/
def execEspInboundPacket (spi seqLo : Nat) (icvOk : Bool) (s : State) : Result := wire s <|
  if s.saf.failSilent then .next s
  else match saOf s spi with
  | none => .next (countEvent 0x064 0 s)
  | some a =>
    let n := inferSeq a.inHigh (seqLo % 2 ^ 32)
    let replay := fun (v : Nat) => countEvent 0x065 v { s with rma.replayDrop := satAdd (2 ^ 32 - 1) s.rma.replayDrop 1 }
    if n < windowEdge a ∨ n < 0 then .next (replay (windowEdge a - n).toNat)
    else if a.inSeen.contains n.toNat then .next (replay 0)
    else if !icvOk then .next (countEvent 0x066 0 { s with rma.icvFail := satAdd (2 ^ 32 - 1) s.rma.icvFail 1 })
    else .next (espAccept spi n.toNat s)

/-- PENDING_SA_EXPIRY (R234): the time has come (log 16). -/
def execPendingSaExpiry (handle : Nat) (s : State) : Result := alive s <|
  .next { s with rma.pendingSa := s.rma.pendingSa.filter fun p => p.handle != handle }

/-- OLD_SA_EXPIRY (R237): 1 s after the first packet under the new inbound SPI (log 16). -/
def execOldSaExpiry (conn : Nat) (s : State) : Result := alive s <|
  .next (updConn conn (fun c => if c.oldSaAt.isSome then { c with oldSa := none, oldSaAt := none } else c) s)

/-- KEY_INSTALL_SA's outcome (R238, Table 09-3). -/
def keyInstallSa (s : State) (c : Cmd) : Decision :=
  let b := c.block
  let target := numAt b 0 4
  let flags := numAt b 6 1
  let cls := numAt b 7 1
  let spi := numAt b 8 4
  let conn := (connOf s target).filter fun x => x.state == 2 && x.sa.isSome
  if (if bit flags 0 then conn.isNone else target != 0xFFFFFFFF) then refuse stFmtParam (blockDetail 0)
  else if 4 ≤ flags then refuse stFmtRsvd (blockDetail 6)
  else if decide (3 < cls) || (match conn with | some x => bit flags 0 && x.cls != cls | none => false) then refuse stFmtParam (blockDetail 7)
  else if spi < 256 then refuse stFmtParam (blockDetail 8)
  else if numAt b 12 4 < 256 then refuse stFmtParam (blockDetail 12)
  else if !allZero (bytesAt b 32 16) then refuse stFmtRsvd (blockDetail 32)
  else match (slotOf s (numAt b 4 2)).filter fun x => x.usage == 7 with
    | none => refuse stKeySlot (numAt b 4 2)
    | some k =>
      match Config.kwpUnwrap k.key (bytesAt b 48 80) with
      | none => refuse stKeyUnwrap 0
      | some keys =>
        if (saOf s spi).isSome then refuse stResExists 0
        else if !bit flags 0 && decide (16384 ≤ s.rma.pendingSa.length) then refuse stResExhausted 0
        else { result := s.rma.nextHandle, nums := [target, flags, cls, spi, numAt b 12 4], bytes := bytesAt b 16 16, secret := keys }

/-- KEY_INSTALL_SA. -/
def execKeyInstallSa (ring seq : Nat) (s : State) : Result := fast s <| auditedOp opKeyInstallSa keyInstallSa ring seq s

/-- The pair is pending, or replaces its connection's pair (R234, R237). -/
def applyKeyInstallSa (d : Decision) (s : State) : State :=
  match d.nums with
  | [target, flags, cls, spi, out] =>
    let p : SaPair := {
      handle := d.result, cls := cls, spiIn := spi, spiOut := out, remote := d.bytes, keys := d.secret, ipv6 := bit flags 1, installed := s.now }
    let s := { s with rma.nextHandle := s.rma.nextHandle + 1 }
    if bit flags 0 then updConn target (fun c => { c with sa := some p, oldSa := c.sa, oldSaAt := none, rekeyDue := false }) s
    else { s with rma.pendingSa := s.rma.pendingSa ++ [p] }
  | _ => s

/-! ### Regions and teardown (R247 to R250) -/

/-- The entries of the region table. -/
abbrev regionCap : Nat := 262144

/-- The lowest FREE index. -/
def freeRegion (s : State) : Option Nat :=
  ((List.range (s.rma.regions.length + 1)).find? fun i => (regionOf s i).state == 0).filter fun i => decide (i < regionCap)

/-- REGION_REGISTER's outcome: the result is the rkey. -/
def regionRegister (s : State) (c : Cmd) : Decision :=
  let base := pk c 24 8
  match bufferRegion s base with
  | none => refuse stFmtParam 24
  | some w =>
    if winBase s w + winSize s w < base + pk c 32 4 then refuse stLenOver 32
    else if !(match connOf s (pk c 40 4) with | some x => x.prot == 2 | none => false) then refuse stFmtParam 40
    else match freeRegion s with
      | none => refuse stResExhausted 0
      | some i =>
        let tag := ((regionOf s i).tag + 1) % 16384
        { result := i * 16384 + tag, nums := [i, tag, base, pk c 32 4, pk c 36 1, pk c 40 4] }

/-- REGION_REGISTER. -/
def execRegionRegister (ring seq : Nat) (s : State) : Result := fast s <| auditedOp opRegionRegister regionRegister ring seq s

/-- The entry is VALID. -/
def applyRegionRegister (d : Decision) (s : State) : State :=
  match d.nums with
  | [i, tag, base, len, rights, conn] => setRegion { idx := i, base := base, len := len, tag := tag, state := 1, rights := rights, conn := conn } s
  | _ => s

/-- REGION_REVOKE's outcome. -/
def regionRevoke (s : State) (c : Cmd) : Decision :=
  let r := regionOf s (pk c 24 4 / 16384)
  if (longOpOf s opRegionRevoke).isSome then refuse stOrdBusy opRegionRevoke
  else if r.state ≠ 1 ∨ r.tag ≠ pk c 24 4 % 16384 then refuse stResNotfound 0
  else { nums := [r.idx], started := true }

/-- REGION_REVOKE. -/
def execRegionRevoke (ring seq : Nat) (s : State) : Result := fast s <| auditedOp opRegionRevoke regionRevoke ring seq s

/-- The revoke point (R249 step 1). -/
def applyRegionRevoke (d : Decision) (s : State) : State :=
  match d.nums with
  | [i] =>
    let r := regionOf s i
    setRegion { r with state := 2 } { s with rma.revoking := some i, rma.revokeAt := s.now, rma.revokeWarn := false }
  | _ => s

/-- REGION_REVOKE_END (R249 steps 4 and 5). -/
def execRegionRevokeEnd (s : State) : Result := alive s <|
  match s.rma.revoking with
  | none => .next s
  | some i =>
    let r := regionOf s i
    if r.inFlight ≠ 0 then .next s
    else
      let warn := s.rma.revokeWarn
      let s := setRegion { r with state := 0 } { s with rma.revoking := none, rma.revokeWarn := false }
      .next (endLongOp opRegionRevoke (if warn then stOkWarn else stOkDone) (if warn then 0x06A else 0) 0 s)

/-- CONN_TEARDOWN's outcome. -/
def connTeardown (s : State) (c : Cmd) : Decision :=
  match connOf s (pk c 24 4) with
  | none => refuse stResNotfound 0
  | some x => if x.draining then noChange else { nums := [x.num] }

/-- CONN_TEARDOWN. -/
def execConnTeardown (ring seq : Nat) (s : State) : Result := fast s <| auditedOp opConnTeardown connTeardown ring seq s

/-- The drain point (R250 step 1). -/
def applyConnTeardown (d : Decision) (s : State) : State :=
  match d.nums with
  | [n] => withBridge (updConn n (fun c => { c with state := 3, draining := true, txQ := [] })) s
  | _ => s

/-- REVOKE_DRAIN_TIMEOUT (R249 step 5, R250 step 2): PID 0x0607 ms after the revoke or drain point (log 16), the connection's
messages that have not ended are abandoned. -/
def execRevokeDrainTimeout (conn : Nat) (s : State) : Result := alive s <|
  match connOf s conn with
  | none => .next s
  | some c =>
    let revoked := fun (m : Inflight) => s.rma.revoking.isSome && m.region == s.rma.revoking
    let stuck := c.msgs.any revoked
    if !stuck && !(c.draining && (c.msgs != [] || c.trackers != [] || c.sent != [])) then .next s
    else
      let f := fun (m : Inflight) => c.draining || revoked m
      let s := endMsgs conn f (withBridge (errorConn conn) s)
      let s := updConn conn (fun c => { c with trackers := if c.draining then [] else c.trackers, sent := if c.draining then [] else c.sent }) s
      .next (countEvent 0x06A 0 { s with rma.revokeWarn := s.rma.revokeWarn || stuck })

/-- TEARDOWN_DRAIN_END (R250 steps 3 and 4): every message begun before the drain point, the device's own among them, has ended. -/
def execTeardownDrainEnd (conn : Nat) (s : State) : Result := alive s <|
  match connOf s conn with
  | none => .next s
  | some c =>
    if !c.draining || c.msgs != [] || c.trackers != [] || c.sent != [] then .next s
    else .next (withBridge (freeConn c) (if c.cls = 1 then tcpSend conn 2 s else cmSend conn 4 0 s))

end Sys2Proof.Machine
end

