-- ==== Sys2Proof/Machine/Registers.lean ====
section
/-! DEFINITION. The registers of the 23 blocks: their values, the side effects of reading them, their writes by access type, the
audited window registers, REG_READ and REG_WRITE (R18 to R22, R223, R256, R310, R311, R331, R339, R539 to R548). -/

namespace Sys2Proof.Machine

/-- The half of a 64-bit quantity at `lo` that an offset names (R541). -/
def halfOf (lo off v : Nat) : Nat := if off = lo then v % 2 ^ 32 else v / 2 ^ 32 % 2 ^ 32

/-- A number's bytes 4k to 4k + 3. -/
def bytesReg (l : List Byte) (k : Nat) : Nat := numAt l (4 * k) 4

/-! ### Values, by block -/

/-- AON, CLK, PWR and FUS (Table 22-3). -/
def readAon (s : State) (o : Nat) : Nat := if o = 0 then 0x6408B000 else if o = 0x10 then aonBootSts s else 0

/-- CLK (Table 22-3). -/
def readClk (s : State) (o : Nat) : Nat :=
  if o = 0 then s.boot.pll % 256 else if o = 4 then flagAt s.boot.refOk 0 + flagAt s.boot.aonTick 1 else 0

/-- PWR (Table 22-3). -/
def readPwr (s : State) (o : Nat) : Nat :=
  if o = 0 then pidVal s 0x0210 % 2 ^ 24 else if o = 4 then s.pwr.groupOff % 2 ^ 24
  else if o = 8 then flagAt s.pwr.doze 0 + flagAt s.pwr.waking 1 else 0

/-- FUS (Table 22-3). -/
def readFus (s : State) (o : Nat) : Nat :=
  if o < 8 then (if s.boot.fusesLoaded then halfOf 0 o s.nv.fuses.dieSerial else 0)
  else if o = 8 then flagAt s.boot.fusesLoaded 0 + flagAt (owned s) 1 else 0

/-- BRD (Table 05-15). The last durable entry's sequence reads zero while the chain is empty. -/
def readBrd (s : State) (o : Nat) : Nat :=
  if o = 0 then brdAudSts s
  else if o = 4 then s.brd.refused
  else if o < 0x10 then halfOf 8 o (s.nv.chain.length - 1)
  else if o < 0x18 then halfOf 0x10 o s.nv.drain
  else if o < 0x20 then halfOf 0x18 o s.nv.bootCounter
  else if o = 0x20 then recUndrained s % 2 ^ 17
  else if 0x40 ≤ o ∧ o < 0x58 then svnFloor s ((o - 0x40) / 4)
  else if 0x60 ≤ o ∧ o < 0x90 then bytesReg s.brd.cfgDigest ((o - 0x60) / 4) else 0

/-- PLM_RING_STS_n (Table 04-4). -/
def ringSts (r : Ring) : Nat :=
  flagAt (r.session != 0) 31 + flagAt (r.held != []) 30 + flagAt r.dbErr 3 + flagAt r.cfgErr 2 + flagAt r.fetchErr 1

/-- PLM (Tables 04-2 to 04-4). -/
def readPlm (s : State) (o : Nat) : Nat :=
  let r := ringOf s ((o - 0x1000) / 0x40)
  let k := o % 0x40
  if k < 8 then halfOf 0 k r.sqBase
  else if k < 0x10 then halfOf 8 k r.cqBase
  else if k = 0x10 then flagAt r.enable 31 + flagAt r.irqEn 30 + r.sizeLog2
  else if k = 0x1C then ringSts r
  else if k = 0x20 then r.session
  else if k = 0x24 then r.seq else 0

/-- HFE_TAG_WORD of a tag (Table 07-8). -/
def tagWord (s : State) (i : Nat) : Nat :=
  match tagOf s i with
  | none => (match s.hfe.freed.find? fun f => f.1 == i with | some f => f.2.1 % 16 * 2 ^ 28 | none => 0)
  | some t => t.gen % 16 * 2 ^ 28 + flagAt t.posted 27 + flagAt t.abortReq 26 + flagAt t.begun 25 + flagAt t.forwarded 24 +
      t.kind % 16 * 2 ^ 20 + t.state % 8

/-- HFE_PORT_STS_s (Table 07-14). -/
def subSts (s : State) (k : Nat) : Nat :=
  let p := subPort s k
  flagAt (subExists s k) 31 + flagAt p.enabled 30 + flagAt p.linkUp 29 + p.speed % 8 * 2 ^ 26 + p.fec % 4 * 2 ^ 24 +
    flagAt p.pfc 23 + p.linkDowns % 2 ^ 16

/-- HFE (Table 07-13). -/
def readHfe (s : State) (o : Nat) : Nat :=
  if o = 0x10 then tagUse s
  else if o = 0x14 then s.hfe.tagHwm
  else if o = 0x18 then pendingCapsules s % 2 ^ 20
  else if o = 0x20 then s.hfe.tagSel
  else if o = 0x24 then tagWord s s.hfe.tagSel
  else if o = 0x30 then s.hfe.abortWon
  else if o = 0x34 then s.hfe.abortLost
  else if o = 0x38 then s.hfe.abortNotFound
  else if o = 0x40 then
    s.hfe.pwrCur % 4 + (match s.hfe.pwrEntry with | some e => e.target % 4 * 4 + 16 | none => s.hfe.pwrCur % 4 * 4)
  else if o = 0x44 then s.hfe.piErr
  else if 0x100 ≤ o then subSts s ((o - 0x100) / 4) else 0

/-- The earliest of a list of entries. -/
def earliest (l : List Lock) : Option Lock :=
  l.foldl (fun b x => match b with | none => some x | some y => if x.arrival < y.arrival then some x else some y) none

/-- RLK_ENTRY_STS of a tag (Table 08-8). A PLEM operation that blocks holds no tag: blocker is then a free value (log 70). -/
def lockSts (s : State) (i : Nat) : Nat :=
  match lockOf s (.tag i) with
  | none => 0
  | some l =>
    let by_ := if l.granted then none else earliest (blockers s.rlk.locks l)
    flagAt true 31 + flagAt l.excl 30 + flagAt l.granted 29 + flagAt l.hit 28 + flagAt by_.isSome 16 +
      (match by_ with
       | some b => (match b.holder with | .tag t => t % 2 ^ 16 | .plem _ _ => freeBelow (2 ^ 16) s)
       | none => if l.hit then l.source % 2 ^ 16 else 0)

/-- RLK (Table 08-7). -/
def readRlk (s : State) (o : Nat) : Nat :=
  if o = 0 then s.rlk.locks.length % 2 ^ 17
  else if o = 4 then s.rlk.hwm
  else if o = 8 then (s.rlk.locks.filter fun l => !l.granted).length % 2 ^ 17
  else if o = 0x10 then s.rlk.hits
  else if o = 0x14 then s.rlk.stalls
  else if o = 0x18 then s.rlk.waitMax
  else if o = 0x20 then s.rlk.sel
  else if o = 0x24 then lockSts s s.rlk.sel
  else if o = 0x28 then s.rlk.snap.vol
  else if 0x30 ≤ o ∧ o < 0x38 then halfOf 0x30 o s.rlk.snap.first
  else if 0x38 ≤ o ∧ o < 0x40 then halfOf 0x38 o s.rlk.snap.last
  else if 0x40 ≤ o then halfOf 0x40 o s.rlk.snap.arrival else 0

/-- RMA_CONN_STS of a connection (Table 09-10). -/
def connSts (s : State) (n : Nat) : Nat :=
  match connOf s n with
  | none => 0
  | some c => flagAt true 31 + flagAt c.onDie 30 + flagAt c.pinned 29 + c.state % 8 * 2 ^ 26 + c.cls % 4 * 2 ^ 24 +
      c.prot % 4 * 2 ^ 22 + flagAt c.rekeyDue 21 + flagAt (multipath c) 20 + max 1 c.paths.length % 16 * 2 ^ 16 +
      c.trackers.length % 2 ^ 13

/-- RMA (Table 09-9). -/
def readRma (s : State) (o : Nat) : Nat :=
  if o = 0 then s.rma.conns.length
  else if o = 4 then connCap s
  else if o = 8 then onDieUse s
  else if o = 0xC then pinnedUse s
  else if o = 0x10 then missDepth s
  else if o = 0x14 then s.rma.missDrop
  else if o = 0x18 then s.rma.replayDrop
  else if o = 0x1C then s.rma.icvFail
  else if o = 0x20 then trackerUse s
  else if o = 0x24 then s.rma.trkDrop
  else if o = 0x28 then (s.rma.regions.filter fun r => r.state != 0).length
  else if o = 0x30 then s.rma.connSel
  else if o = 0x34 then connSts s s.rma.connSel
  else if 0x38 ≤ o ∧ o < 0x40 then halfOf 0x38 o s.rma.snap.esnOut
  else if 0x40 ≤ o ∧ o < 0x48 then halfOf 0x40 o s.rma.snap.esnIn
  else if o = 0x48 then s.rma.snap.credit else 0

/-- RED (Tables 10-8, 10-9). -/
def readRed (s : State) (o : Nat) : Nat :=
  if o = 0 then
    flagAt s.red.hotFull 2 + flagAt (s.red.sliceOut != 0) 1 +
      flagAt (match s.red.coldLimitedAt with | some t => decide (s.now < t + 1000000) | none => false) 0
  else if o = 4 then s.red.chunks
  else if o = 8 then s.red.dupHot
  else if o = 0xC then s.red.dupCold
  else if o = 0x10 then s.red.zero
  else if o = 0x14 then s.red.collide
  else if o = 0x18 then s.red.coldSkip
  else if o = 0x1C then s.red.verifyFail
  else if o = 0x20 then s.red.formStored
  else if o = 0x24 then s.red.formLz4
  else if o = 0x28 then s.red.formZstd
  else if o < 0x38 then halfOf 0x30 o s.red.hot.length
  else if o = 0x38 then s.red.sliceOut else 0

/-- CIP_SLOT_STS of a slot (Table 11-9). Destruction ends within its step, so destroying reads 0 (log 71). -/
def slotSts (s : State) (n : Nat) : Nat :=
  match slotOf s n with
  | none => 0
  | some x => flagAt true 31 + flagAt x.warned 30 + flagAt (usageLimit x.usage != 0 && decide (usageLimit x.usage ≤ x.count)) 29 +
      x.usage % 16 * 2 ^ 16 + x.attrs % 8 * 2 ^ 13 + (if bit x.attrs 2 then x.domain % 2 ^ 12 else 0)

/-- CIP (Table 11-8). A lookaside request runs in its own step, so the queues' depths read 0 (log 71). -/
def readCip (s : State) (o : Nat) : Nat :=
  if o = 0 then flagAt s.cip.awk.isSome 0 + flagAt (s.cip.drwk != []) 1 + flagAt s.cip.entropyOk 2
  else if o = 4 then s.cip.slots.length
  else if o = 8 then s.cip.tagFail
  else if o = 0xC then s.cip.exhausted
  else if o = 0x10 then s.nv.usage.length
  else if o = 0x20 then s.cip.slotSel
  else if o = 0x24 then slotSts s s.cip.slotSel
  else if o < 0x30 then halfOf 0x28 o s.cip.countSnap else 0

/-- COL_STS (Table 12-13). -/
def colSts (s : State) : Nat :=
  s.col.replayStep % 8 * 2 ^ 9 + flagAt s.col.takenOver 8 + flagAt s.col.mirrorOn 7 + flagAt s.col.singleCopy 6 +
    flagAt s.col.latched 5 + flagAt s.col.refusing 4 + flagAt s.col.fullWait 3 + flagAt (decide (pidVal s 0x0903 ≤ coilLife s)) 2 +
    flagAt s.col.xtsOk 1

/-- The window entry `n` of Coil: Table 12-1 for entries 0 to 7, disabled above (R311). -/
def coilWin (n : Nat) : Win :=
  match coilRegions[n]? with
  | some r => { base := r.1 / 8, size := (r.2.1 - r.1) / 8, enable := true, fixed := true, owner := r.2.2.1, d := r.2.2.2.1,
                c := r.2.2.2.2.1, m := r.2.2.2.2.2 }
  | none => { fixed := true }

/-- The base, size and access registers of a window entry: R18, R311. -/
def winReg (w : Win) (k : Nat) : Nat := if k = 0 then w.base else if k = 4 then w.size else if k = 8 then winAcc w else 0

/-- COL (Table 12-12). -/
def readCol (s : State) (o : Nat) : Nat :=
  if o = 0 then colSts s
  else if o = 4 then coilLife s
  else if o = 8 then coilFill s
  else if 0x10 ≤ o ∧ o < 0x18 then halfOf 0x10 o (s.nv.nextJseq - 1)
  else if 0x18 ≤ o ∧ o < 0x20 then halfOf 0x18 o (headJseq s)
  else if 0x20 ≤ o ∧ o < 0x28 then halfOf 0x20 o s.col.peerAck
  else if o = 0x28 then s.col.fullWaits
  else if o = 0x30 then s.col.viol.addr % 2 ^ 32
  else if o = 0x34 then s.col.viol.plane
  else if 0x400 ≤ o then winReg (coilWin ((o - 0x400) / 0x10)) (o % 0x10) else 0

/-- HAM_VIOL_SRC (Table 22-3). -/
def violSrc (v : Viol) : Nat := flagAt v.valid 31 + flagAt v.write 2 + v.plane % 4

/-- HAM (Table 22-3). -/
def readHam (s : State) (o : Nat) : Nat :=
  if o = 0 then flagAt s.ham.stsRange 0 + flagAt s.ham.stsOverlap 1
  else if 8 ≤ o ∧ o < 0x10 then halfOf 8 o s.ham.viol.addr
  else if o = 0x10 then violSrc s.ham.viol
  else if 0x400 ≤ o ∧ o < 0x600 then winReg ((s.ham.win[(o - 0x400) / 0x10]?).getD { base := 0 }) (o % 0x10)
  else if 0x800 ≤ o then (rimOf s ((o - 0x800) / 4)).entries.length else 0

/-- The generation that LAY_ROW_SEL selects. -/
def selGen (s : State) : Option Gen := if s.lay.rowNew then s.nv.genNew else s.nv.genCur

/-- LAY_ROW_STS: the selected row exists, and W (Table 13-7). -/
def rowSts (s : State) : Nat :=
  match selGen s with
  | some g => if s.lay.rowSel < g.r then 2 ^ 31 + genWidth g % 32 else 0
  | none => 0

/-- The members of the selected row; bytes beyond W read 0xFF (R339). -/
def rowMem (s : State) (k : Nat) : Nat :=
  let ms := match selGen s with
    | some g => if s.lay.rowSel < g.r then rowMembers g s.lay.rowSel else []
    | none => []
  leNat ((List.range 4).map fun j => BitVec.ofNat 8 ((ms[4 * k + j]?).getD 0xFF))

/-- A row of the current generation is free of unavailable members (R363). -/
def anyRowOpen (s : State) : Bool :=
  match s.nv.genCur with
  | some g => (List.range g.r).any fun row => (rowMembers g row).all fun m => !unavailable s g m
  | none => true

/-- The silent peer's segments are being sealed (R347). -/
def takeoverSeal (s : State) : Bool :=
  s.nv.header3.tookOver && s.nv.segs.any fun x => x.sideB != s.aon.side && x.sealing && decide (x.state < 2)

/-- LAY_STS (Table 13-8). -/
def laySts (s : State) : Nat :=
  flagAt s.lay.resumed 5 + flagAt (takeoverSeal s) 4 + s.nv.change % 4 * 4 + flagAt (decide (pidVal s 0x0A01 ≤ (openSegs s).length)) 1 + flagAt s.nv.genCur.isSome 0

/-- LAY_RB_STS (Table 14-9). -/
def rbSts (s : State) : Nat :=
  flagAt (!anyRowOpen s) 8 + flagAt s.lay.rescan 7 + flagAt s.lay.listFull 6 + flagAt s.lay.spareOut 5 + flagAt s.lay.paused 4 +
    flagAt (s.lay.queue != []) 3 + flagAt (margin0 s) 2 + flagAt (s.nv.lostStripes != []) 1 + flagAt (s.lay.declaredWait != []) 0

/-- LAY_CKPT_PORTS (Table 14-8). -/
def ckptPortsReg (s : State) : Nat :=
  let p := fun k => (s.nv.ckptPorts[k]?).getD 0xFF % 256
  p 0 + p 1 * 2 ^ 8 + p 2 * 2 ^ 16

/-- LAY: the layout registers (Table 13-7). -/
def readLayout (s : State) (o : Nat) : Nat :=
  if o = 0 then laySts s
  else if o = 4 then genFig (·.num) s.nv.genCur % 2 ^ 16 + genFig (·.num) s.nv.genNew % 2 ^ 16 * 2 ^ 16
  else if o = 8 then bandsOf s (emptiedGen s)
  else if o = 0xC then (openSegs s).length
  else if o = 0x10 then s.lay.stripsAdded
  else if o = 0x14 then s.lay.seals
  else if o = 0x18 then s.lay.earlySeals
  else if o = 0x1C then s.lay.voidStrips
  else if o = 0x20 then s.lay.voidSegs
  else if o = 0x24 then s.lay.verifyFail
  else if o = 0x30 then s.lay.rowSel + flagAt s.lay.rowNew 16
  else if o = 0x34 then rowSts s
  else if 0x40 ≤ o then rowMem s ((o - 0x40) / 4) else 0

/-- LAY: the rebuild registers (Table 14-8). -/
def readRebuild (s : State) (o : Nat) : Nat :=
  if o = 0x80 then rbSts s
  else if o < 0x8C then halfOf 0x84 o (failedMask s)
  else if o < 0x94 then halfOf 0x8C o (absentMask s)
  else if o < 0xA0 then queuedAt s ((o - 0x94) / 4)
  else if o = 0xA0 then s.lay.rbDone
  else if o = 0xA4 then s.lay.unread
  else if o = 0xA8 then s.nv.lostStripes.length
  else if o = 0xAC then signed 16 (actOf s 3 0)
  else if o < 0xB8 then halfOf 0xB0 o s.nv.ckptSeq
  else if o = 0xB8 then ckptPortsReg s else 0

/-- MED_STS (Table 15-8). -/
def medSts (s : State) : Nat :=
  flagAt s.med.discard.isSome 7 + flagAt s.med.wearSpread 6 + flagAt s.med.patrolLate 5 +
    flagAt (s.nv.packs.any fun p => isMember s p.port && p.reserveOut) 4 + flagAt s.med.hamWarn 3 + flagAt (gcForced s) 2 +
    flagAt s.med.batch.isSome 1 + flagAt (belowReserve s s.aon.side) 0

/-- MED (Table 15-7). -/
def readMed (s : State) (o : Nat) : Nat :=
  if o = 0 then medSts s
  else if o < 0x10 then halfOf 8 o (sideFree s s.aon.side)
  else if o < 0x18 then halfOf 0x10 o (writeReserve s)
  else if o = 0x18 then s.med.gcBatches
  else if o = 0x1C then s.med.gcRecopy
  else if o = 0x20 then s.med.bandsFreed
  else if o = 0x24 then s.med.retired
  else if o = 0x28 then s.med.reloc
  else if o = 0x2C then s.med.disturb
  else if o = 0x30 then patrolProgress s
  else if o = 0x34 then s.med.patrolPasses
  else if o = 0x38 then
    ((s.nv.bands.filter fun b => b.slc && b.sideB == s.aon.side && b.state != 0).map (·.blocks.length)).foldl (· + ·) 0
  else if o = 0x3C then s.med.capExceeded
  else if o = 0x40 then hamLife s else 0

/-- A mask of the Stake ports that satisfy a test. -/
def portMask (s : State) (t : Port → Bool) : Nat := (s.stk.ports.filter t).foldl (fun m p => setBit m p.num) 0

/-- STK_PORT_STS_p (Table 16-9). -/
def portSts (p : Port) : Nat :=
  flagAt (p.link == 3) 31 + flagAt (p.link == 2 || p.link == 4) 30 + flagAt p.absent 29 + flagAt p.fenced 28 + flagAt p.otherClosed 27 +
    flagAt p.sideErr 26 + flagAt p.protoErr 25 + flagAt (p.dl.waiting.any fun w => covered (creditOf p.dl.credits w.vc) w.len && decide (stakeReplayCap < replayBytes p.dl + 32 + w.len)) 24 + p.wave % 16 * 2 ^ 16 + p.linkDowns % 256

/-- STK (Tables 16-8, 16-9). -/
def readStk (s : State) (o : Nat) : Nat :=
  if o < 8 then halfOf 0 o s.hdl.epoch
  else if o < 0x10 then halfOf 8 o (portMask s fun p => p.link == 3)
  else if o < 0x18 then halfOf 0x10 o (portMask s (·.fenced))
  else
    let p := portOf s ((o - 0x1000) / 0x40)
    let k := o % 0x40
    if k = 0 then portSts p
    else if k = 4 then p.crc
    else if k = 8 then p.replays
    else if k = 0xC then p.recovers
    else if k = 0x10 then p.timeouts
    else if k = 0x14 then (p.reqs.filter fun r => !r.held).length + (p.reqs.filter (·.held)).length * 2 ^ 16
    else if k = 0x18 then replayBytes p.dl
    else if k = 0x1C then p.maxTag
    else if k < 0x28 then halfOf 0x20 k p.epoch
    else if k < 0x38 then p.identity / 2 ^ (8 * (k - 0x28)) % 2 ^ 32 else 0

/-- HDL_STS (Table 17-9). beat_ok uses 10 ms of a peer that holds, else 50 ms (R449). -/
def hdlSts (s : State) : Nat :=
  flagAt s.hdl.holder 31 + flagAt s.hdl.holdOut 30 + flagAt s.pins.holdIn 29 +
    flagAt (beatWithin s (if s.pins.holdIn then 10000000 else 50000000)) 28 + flagAt s.hdl.fenceDone 27 + flagAt s.hdl.tieLost 26 +
    flagAt s.hdl.paired 25 + flagAt (viaConn s) 24 + flagAt s.hdl.severed 23 + flagAt s.hdl.silent 22 + flagAt s.hdl.bridge 21 +
    flagAt s.hdl.readbackErr 20 + flagAt s.hdl.peerStuck 19 + flagAt s.aon.side 0

/-- HDL_CTRL (Table 17-8). The release ends within its step, so release_req reads 0 (log 72). -/
def hdlCtrl (s : State) : Nat := flagAt s.hdl.takeReq 31 + flagAt (s.boot.handleElig && !s.saf.failSilent) 29 + flagAt s.boot.handleElig 28

/-- HDL (Table 17-8). -/
def readHdl (s : State) (o : Nat) : Nat :=
  if o = 0 then hdlCtrl s
  else if o = 4 then hdlSts s
  else if o < 0x10 then halfOf 8 o s.hdl.epoch
  else if o < 0x18 then halfOf 0x10 o (asnOf s)
  else if o = 0x18 then
    s.hdl.pairReason % 16 + s.hdl.peerMajor % 256 * 2 ^ 8 + s.hdl.peerMinor % 256 * 2 ^ 16
  else if o = 0x1C then s.hdl.mismatches
  else if o = 0x20 then s.hdl.takeovers
  else if 0x40 ≤ o ∧ o < 0x70 then
    bytesReg (match s.hdl.peerHello with | some h => h.devId | none => s.nv.peerDevId.getD []) ((o - 0x40) / 4)
  else if o = 0x100 then
    flagAt s.hdl.linkUp 31 + flagAt (s.hdl.linkUp && s.hdl.lanes != 0xFFFF) 30 +
      flagAt (s.hdl.linkUp && s.hdl.lanes % 256 != 0xFF) 28 + s.hdl.lanes % 2 ^ 16
  else if o = 0x104 then s.hdl.linkCrc
  else if o = 0x108 then s.hdl.linkReplay
  else if o = 0x10C then s.hdl.fwdCmds else 0

/-- DMV_LANE_STS_n (Table 18-9). -/
def laneSts (l : Lane) : Nat :=
  flagAt l.run.isSome 31 + flagAt l.paceWait.isSome 30 + flagAt l.fenceWait 29 + flagAt l.stopped 28 +
    (match l.run with
     | some r => r.desc.flags % 4 * 2 ^ 26 + r.desc.pace % 256 * 2 ^ 16 + r.op % 256 * 2 ^ 8
     | none => 0)

/-- A mask of the lanes that satisfy a test. -/
def laneMask (s : State) (t : Lane → Bool) : Nat := (s.dmv.lanes.filter t).foldl (fun m l => setBit m l.num) 0

/-- DMV (Tables 18-8, 18-9). -/
def readDmv (s : State) (o : Nat) : Nat :=
  if o = 0 then laneMask s (·.run.isSome) + laneMask s (·.paceWait.isSome) * 2 ^ 16
  else if o = 8 then s.dmv.paceTimeout
  else if o = 0xC then s.dmv.refused
  else
    let l := laneOf s ((o - 0x100) / 0x40)
    let k := o % 0x40
    if k = 0 then laneSts l
    else if k = 4 then l.done
    else if k < 0x10 then halfOf 8 k (match l.run with | some r => r.total - r.moved | none => 0)
    else if k < 0x18 then halfOf 0x10 k (match l.run with | some r => r.desc.tag | none => 0)
    else if k < 0x20 then halfOf 0x18 k l.sqBase
    else if k < 0x28 then halfOf 0x20 k l.cqBase
    else if k = 0x28 then flagAt l.enable 31 + l.sizeLog2 else 0

/-- MCH_STS (Table 18-11). -/
def mchSts (s : State) : Nat :=
  flagAt (maskWrong s) 5 + flagAt s.mch.lockErr 4 + flagAt (preloadBusy s) 2 + flagAt s.mch.mlaPinned 0

/-- MCH (Table 18-10). -/
def readMch (s : State) (o : Nat) : Nat :=
  if o = 0 then mchSts s
  else if o = 8 then s.mch.lock
  else if o = 0xC then pidVal s 0x0E11
  else if o = 0x10 then s.mch.lockLost
  else if o = 0x14 then s.mch.hits
  else if o = 0x18 then s.mch.misses
  else if o = 0x1C then s.mch.hwInv
  else if o = 0x20 then s.mch.noAlloc
  else if o = 0x24 then s.mch.skip
  else if 0x30 ≤ o ∧ o < 0x38 then halfOf 0x30 o s.mch.preloadAddr
  else if o = 0x38 then s.mch.preloadCtrl % 2 ^ 20 + flagAt (bit s.mch.preloadCtrl 31) 31
  else if o = 0x40 then s.mch.mla.length
  else if o = 0x44 then s.mch.mlaMiss else 0

/-- WVR (Tables 19-7, 19-8). -/
def readWvr (s : State) (o : Nat) : Nat :=
  if o = 0 then wvrSts s
  else if o = 4 then (captured s).length
  else if o = 8 then s.wvr.staleCount
  else if o < 0x14 then halfOf 0xC o ((s.wvr.loops.filter fun l => l.state == 2).foldl (fun m l => setBit m l.num) 0)
  else
    let n := (o - 0x1000) / 0x20
    let l := loopAt s n
    let k := o % 0x20
    if k = 0 then loopSts s n
    else if k = 4 then signed 16 l.y + signed 16 l.rEff * 2 ^ 16
    else if k = 8 then signed 16 l.u + signed 16 l.applied * 2 ^ 16
    else if k < 0x14 then halfOf 0xC k (signed 40 l.i)
    else if k = 0x14 then l.count % 2 ^ 32 else 0

/-- THM (Table 20-7). With no sensor to judge from, THM_HOT and THM_MAX read 0 (log 7). -/
def readThm (s : State) (o : Nat) : Nat :=
  if o = 0 then flagAt s.thm.fast 0 + flagAt s.thm.throttling 1 + flagAt s.thm.coverageLost 2 + flagAt s.aon.trip 3
  else if o = 4 then (match hottest s with | some h => signed 16 h.1 + h.2 * 2 ^ 16 | none => 0)
  else if o = 8 then (match s.thm.hotMax with | some m => signed 16 m.1 | none => 0)
  else if o < 0x14 then halfOf 0xC o (failedSensors s)
  else if o = 0x14 then s.thm.fastEntries
  else if o = 0x18 then s.thm.throttleMs
  else if 0x100 ≤ o then
    (match s.thm.sensors[(o - 0x100) / 4]? with
     | some x => flagAt x.valid 31 + flagAt x.failed 30 + signed 16 x.reading
     | none => 0)
  else 0

/-- EVR_STS (Table 21-8). -/
def evrSts (s : State) : Nat :=
  flagAt s.evr.coilWait 4 + flagAt s.evr.lossy 3 + flagAt s.evr.clearing 2 + flagAt s.evr.full 1 + flagAt (evrWrites s) 0

/-- EVR (Table 21-7). -/
def readEvr (s : State) (o : Nat) : Nat :=
  if o = 0 then evrSts s
  else if o = 4 then s.nv.evrRecs.length
  else if o < 0x10 then halfOf 8 o s.evr.overflow
  else if o = 0x10 then s.evr.epochNum % 2 ^ 32
  else if o = 0x14 then s.evr.stageDrop
  else if o = 0x18 then s.evr.extSuppr
  else if o = 0x1C then s.nv.evrGen % 2 ^ 32
  else if o = 0x20 then s.evr.codeSel
  else if o < 0x2C then halfOf 0x24 o (counterOf s.evr.live s.evr.codeSel).count else 0

/-- SAF (Tables 20-8, 20-9). -/
def readSaf (s : State) (o : Nat) : Nat :=
  if o = 0 then safSts s
  else if o = 4 then safCause s
  else if o < 0x10 then halfOf 8 o s.aon.cause.ns
  else if o < 0x18 then halfOf 0x10 o (2 ^ 37 - 1 - s.saf.parked % 2 ^ 37)
  else if o = 0x18 then s.saf.cfgPasses
  else if o = 0x1C then s.saf.hamCorr
  else if o = 0x20 then (s.now - s.saf.hamPassAt) / 1000000 % 2 ^ 32
  else if 0x40 ≤ o then tileOutMask s / 2 ^ (32 * ((o - 0x40) / 4)) % 2 ^ 32 else 0

/-- The value at a BAR0 offset, as a read without side effects would find it; zero where there is no register (R540). -/
def regValue (s : State) (off : Nat) : Nat :=
  let o := off % 65536
  if !isReg off then 0
  else match off / 65536 with
    | 0 => readAon s o
    | 1 => readClk s o
    | 2 => readPwr s o
    | 3 => readFus s o
    | 4 => readBrd s o
    | 5 => readPlm s o
    | 6 => readHfe s o
    | 7 => readRlk s o
    | 8 => readRma s o
    | 9 => readRed s o
    | 10 => readCip s o
    | 11 => readCol s o
    | 12 => readHam s o
    | 13 => if o < 0x80 then readLayout s o else readRebuild s o
    | 14 => readMed s o
    | 15 => readStk s o
    | 16 => readHdl s o
    | 17 => readDmv s o
    | 18 => readMch s o
    | 19 => readWvr s o
    | 20 => readThm s o
    | 21 => readEvr s o
    | 22 => readSaf s o
    | _ => 0

/-! ### The side effects of a read (R223, R256, R310, R541, R542) -/

/-- RLK_ENTRY_STS read: the snapshot (R223). -/
def takeRlkSnap (s : State) : State :=
  match lockOf s (.tag s.rlk.sel) with
  | some l => { s with rlk.snap := { vol := l.vol % 65536, first := l.first, last := l.last, arrival := l.arrival } }
  | none => { s with rlk.snap := {} }

/-- RMA_CONN_STS read: the snapshot (R256). -/
def takeRmaSnap (s : State) : State :=
  match connOf s s.rma.connSel with
  | some c =>
    let sa := c.sa.getD { handle := 0 }
    { s with rma.snap := { esnOut := sa.outNum, esnIn := sa.inHigh, credit := c.creditsOut % 2 ^ 16 + c.creditsIn % 2 ^ 16 * 2 ^ 16 } }
  | none => { s with rma.snap := {} }

/-- CIP_SLOT_STS read: the snapshot (R310). -/
def takeCipSnap (s : State) : State := { s with cip.countSnap := match slotOf s s.cip.slotSel with | some x => x.count | none => 0 }

/-- An RC register of the host blocks read: zero, or the quantity as it stands (Table 22-2). -/
def clearHost (off : Nat) (s : State) : State :=
  if off = 0x40004 then { s with brd.refused := 0 }
  else if off = 0x60014 then { s with hfe.tagHwm := tagUse s }
  else if off = 0x60030 then { s with hfe.abortWon := 0 }
  else if off = 0x60034 then { s with hfe.abortLost := 0 }
  else if off = 0x60038 then { s with hfe.abortNotFound := 0 }
  else if off = 0x60044 then { s with hfe.piErr := 0 }
  else if off = 0x70004 then { s with rlk.hwm := s.rlk.locks.length }
  else if off = 0x70010 then { s with rlk.hits := 0 }
  else if off = 0x70014 then { s with rlk.stalls := 0 }
  else if off = 0x70018 then { s with rlk.waitMax := 0 }
  else if off = 0x80014 then { s with rma.missDrop := 0 }
  else if off = 0x80018 then { s with rma.replayDrop := 0 }
  else if off = 0x8001C then { s with rma.icvFail := 0 }
  else if off = 0x80024 then { s with rma.trkDrop := 0 } else s

/-- An RC register of the store's blocks read. -/
def clearStore (off : Nat) (s : State) : State :=
  if off = 0x90004 then { s with red.chunks := 0 }
  else if off = 0x90008 then { s with red.dupHot := 0 }
  else if off = 0x9000C then { s with red.dupCold := 0 }
  else if off = 0x90010 then { s with red.zero := 0 }
  else if off = 0x90014 then { s with red.collide := 0 }
  else if off = 0x90018 then { s with red.coldSkip := 0 }
  else if off = 0x9001C then { s with red.verifyFail := 0 }
  else if off = 0x90020 then { s with red.formStored := 0 }
  else if off = 0x90024 then { s with red.formLz4 := 0 }
  else if off = 0x90028 then { s with red.formZstd := 0 }
  else if off = 0xA0008 then { s with cip.tagFail := 0 }
  else if off = 0xA000C then { s with cip.exhausted := 0 }
  else if off = 0xB0028 then { s with col.fullWaits := 0 } else s

/-- An RC register of the media blocks read. -/
def clearMedia (off : Nat) (s : State) : State :=
  if off = 0xD0010 then { s with lay.stripsAdded := 0 }
  else if off = 0xD0014 then { s with lay.seals := 0 }
  else if off = 0xD0018 then { s with lay.earlySeals := 0 }
  else if off = 0xD001C then { s with lay.voidStrips := 0 }
  else if off = 0xD0020 then { s with lay.voidSegs := 0 }
  else if off = 0xD0024 then { s with lay.verifyFail := 0 }
  else if off = 0xD00A0 then { s with lay.rbDone := 0 }
  else if off = 0xD00A4 then { s with lay.unread := 0 }
  else if off = 0xE0018 then { s with med.gcBatches := 0 }
  else if off = 0xE001C then { s with med.gcRecopy := 0 }
  else if off = 0xE0020 then { s with med.bandsFreed := 0 }
  else if off = 0xE0024 then { s with med.retired := 0 }
  else if off = 0xE0028 then { s with med.reloc := 0 }
  else if off = 0xE002C then { s with med.disturb := 0 }
  else if off = 0xE0034 then { s with med.patrolPasses := 0 }
  else if off = 0xE003C then { s with med.capExceeded := 0 } else s

/-- An RC register of a Stake port read. -/
def clearPort (off : Nat) (s : State) : State :=
  let n := (off - 0xF1000) / 0x40
  let k := off % 0x40
  if k = 4 then updPort n (fun p => { p with crc := 0 }) s
  else if k = 8 then updPort n (fun p => { p with replays := 0 }) s
  else if k = 0xC then updPort n (fun p => { p with recovers := 0 }) s
  else updPort n (fun p => { p with timeouts := 0 }) s

/-- An RC register of HDL, DMV, MCH, WVR, THM, EVR or SAF read. -/
def clearControl (off : Nat) (s : State) : State :=
  if off = 0x10001C then { s with hdl.mismatches := 0 }
  else if off = 0x100020 then { s with hdl.takeovers := 0 }
  else if off = 0x100104 then { s with hdl.linkCrc := 0 }
  else if off = 0x100108 then { s with hdl.linkReplay := 0 }
  else if off = 0x10010C then { s with hdl.fwdCmds := 0 }
  else if off = 0x110008 then { s with dmv.paceTimeout := 0 }
  else if off = 0x11000C then { s with dmv.refused := 0 }
  else if off < 0x120000 then updLane ((off - 0x110100) / 0x40) (fun l => { l with done := 0 }) s
  else if off = 0x120014 then { s with mch.hits := 0 }
  else if off = 0x120018 then { s with mch.misses := 0 }
  else if off = 0x12001C then { s with mch.hwInv := 0 }
  else if off = 0x120020 then { s with mch.noAlloc := 0 }
  else if off = 0x120024 then { s with mch.skip := 0 }
  else if off = 0x120044 then { s with mch.mlaMiss := 0 }
  else if off = 0x130008 then { s with wvr.staleCount := 0 }
  else if off = 0x140014 then { s with thm.fastEntries := 0 }
  else if off = 0x140018 then { s with thm.throttleMs := 0 }
  else if off = 0x150014 then { s with evr.stageDrop := 0 }
  else if off = 0x150018 then { s with evr.extSuppr := 0 }
  else if off = 0x160018 then { s with saf.cfgPasses := 0 }
  else if off = 0x16001C then { s with saf.hamCorr := 0 } else s

/-- An RC register read (Table 22-2). -/
def clearRc (off : Nat) (s : State) : State :=
  if off < 0x90000 then clearHost off s
  else if off < 0xD0000 then clearStore off s
  else if off < 0xF0000 then clearMedia off s
  else if off < 0x100000 then clearPort off s
  else clearControl off s

/-- A _LO read captures its _HI half, in place of an earlier capture (R541). -/
def captureHi (off : Nat) (s : State) : State :=
  { s with regs.hi := (off + 4, BitVec.ofNat 32 (regValue s (off + 4))) :: s.regs.hi.filter fun h => h.1 != off + 4 }

/-- The value that a read returns: of a _HI register the half captured, if its _LO has been read (R541). -/
def readValue (s : State) (off : Nat) : Nat :=
  match s.regs.hi.find? fun h => h.1 == off with
  | some h => h.2.toNat
  | none => regValue s off

/-- What a read of a register does besides returning its value. -/
def readEffect (off : Nat) (s : State) : State :=
  match regAt off with
  | none => s
  | some r =>
    if r.kind = .rc then clearRc off s
    else if r.half = 1 then captureHi off s
    else if off = 0x70024 then takeRlkSnap s
    else if off = 0x80034 then takeRmaSnap s
    else if off = 0xA0024 then takeCipSnap s
    else s

/-! ### Window registers (R18 to R22, R544, R548) -/

/-- The number and the register (0 base, 4 size, 8 access) of a HAM window offset. -/
def winOffset (off : Nat) : Option (Nat × Nat) :=
  if 0xC0400 ≤ off ∧ off < 0xC0600 ∧ (off % 16 = 0 ∨ off % 16 = 4 ∨ off % 16 = 8) then some ((off - 0xC0400) / 16, off % 16) else none

/-- A window register's fields written. -/
def winPut (k v : Nat) (w : Win) : Win :=
  if k = 0 then { w with base := field v 0 15 }
  else if k = 4 then { w with size := field v 0 15 }
  else { w with enable := bit v 31, owner := field v 8 2, m := field v 4 2, c := field v 2 2, d := field v 0 2 }

/-- How a write breaches R22: by range, by overlap. Only an entry that is or becomes enabled can. -/
def winBreach (wins : List Win) (n k v : Nat) : Bool × Bool :=
  let w := winPut k v ((wins[n]?).getD { base := 0 })
  (w.enable && !winRangeOk n w, w.enable && !winNoOverlap wins n w)

/-- The entry's fixed bit. -/
def winFixed (s : State) (n : Nat) : Bool := ((s.ham.win[n]?).getD { base := 0 }).fixed

/-- A direct write to a window register: discarded when the configuration is sealed or the entry is fixed; else it goes behind the
writes that the audit port has taken, and R22 and R548 judge it by the table that these leave (R33, R35, R544). -/
def winDirect (n k v requester : Nat) (s : State) : State :=
  if s.boot.cfgSealed || winFixed s n || decide (32 ≤ n) then s
  else { s with brd.port := s.brd.port ++ [.register (0xC0400 + 16 * n + k) v requester] }

/-- HAM_WIN_BASE_WRITE. -/
def execHamWinBaseWrite (n : Nat) (value : Word) (requester : Nat) (s : State) : Result := fast s <| .next (winDirect n 0 value.toNat requester s)

/-- HAM_WIN_SIZE_WRITE. -/
def execHamWinSizeWrite (n : Nat) (value : Word) (requester : Nat) (s : State) : Result := fast s <| .next (winDirect n 4 value.toNat requester s)

/-- HAM_WIN_ACC_WRITE. -/
def execHamWinAccWrite (n : Nat) (value : Word) (requester : Nat) (s : State) : Result := fast s <| .next (winDirect n 8 value.toNat requester s)

/-! ### Writes by access type (R542) -/

/-- One half of a 64-bit base written; its low bits read as zero. -/
def putHalf (lo off align v old : Nat) : Nat :=
  if off = lo then old / 2 ^ 32 * 2 ^ 32 + v / align * align else old % 2 ^ 32 + v * 2 ^ 32

/-- A base register of a ring written: ignored while enable is 1, which sets cfg_err (R87). -/
def writeBase (n : Nat) (f : Ring → Ring) (s : State) : State :=
  updRing n (fun r => if r.enable then { r with cfgErr := true } else f r) s

/-- A PLM ring register written (Tables 04-2 to 04-4). -/
def writePlm (o v : Nat) (s : State) : State :=
  let n := (o - 0x1000) / 0x40
  let k := o % 0x40
  if k < 8 then writeBase n (fun r => { r with sqBase := putHalf 0 k 64 v r.sqBase }) s
  else if k < 0x10 then writeBase n (fun r => { r with cqBase := putHalf 8 k 32 v r.cqBase }) s
  else if k = 0x10 then ringCfgWrite n v s
  else if k = 0x14 then tailDoorbell n v s
  else if k = 0x18 then headDoorbell n v s
  else if k = 0x1C then
    updRing n (fun r => { r with dbErr := r.dbErr && !bit v 3, cfgErr := r.cfgErr && !bit v 2, fetchErr := r.fetchErr && !bit v 1 }) s
  else s

/-- RLK_SEL, RMA_CONN_SEL or CIP_SLOT_SEL written: what it selects reads zero until its status is read (R223, R256, R310). -/
def writeSelector (off v : Nat) (s : State) : State :=
  if off = 0x70020 then { s with rlk.sel := v % 2 ^ 16, rlk.snap := {} }
  else if off = 0x80030 then { s with rma.connSel := v % 2 ^ 20, rma.snap := {} }
  else { s with cip.slotSel := v % 2 ^ 12, cip.countSnap := 0 }

/-- A DMV_SVC register of a lane written (Table 18-8). -/
def writeSvc (o v : Nat) (s : State) : Result :=
  let n := (o - 0x100) / 0x40
  let k := o % 0x40
  let w := BitVec.ofNat 32 v
  if k < 0x18 then .next s
  else if k < 0x20 then .next (updLane n (fun l => { l with sqBase := putHalf 0x18 k 64 v l.sqBase }) s)
  else if k < 0x28 then .next (updLane n (fun l => { l with cqBase := putHalf 0x20 k 32 v l.cqBase }) s)
  else if k = 0x28 then execDmvSvcCfgWrite n w s
  else if k = 0x2C then execDmvSvcTailDoorbell n w s
  else execDmvSvcHeadDoorbell n w s

/-- A register that the audit port does not take written: W1C bits, selectors, strobes (Tables 05-16, 07-13, 12-13, 13-7, 18-10,
21-7, 22-3). -/
def writePlain (off v : Nat) (s : State) : State :=
  if off = 0x40000 then { s with brd.regRefused := s.brd.regRefused && !bit v 0 }
  else if off = 0x60020 then { s with hfe.tagSel := v % 2 ^ 16 }
  else if off = 0x70020 ∨ off = 0x80030 ∨ off = 0xA0020 then writeSelector off v s
  else if off = 0xB0000 then { s with col.latched := s.col.latched && !bit v 5 }
  else if off = 0xB0030 then { s with col.viol := {} }
  else if off = 0xC0000 then
    { s with ham.stsRange := s.ham.stsRange && !bit v 0, ham.stsOverlap := s.ham.stsOverlap && !bit v 1 }
  else if off = 0xC0010 then { s with ham.viol := {} }
  else if off = 0xD0030 then { s with lay.rowSel := v % 2 ^ 13, lay.rowNew := bit v 16 }
  else if off = 0x120004 then (if bit v 0 then invAll s else s)
  else if off = 0x120010 then { s with mch.lockLost := (waysOf v).foldl clearBit s.mch.lockLost }
  else if off = 0x150020 then { s with evr.codeSel := v % 2 ^ 10 }
  else s

/-- A BAR0 write to a register that is not audited; to an offset without a register, or to a RO or RC register, nothing (R540,
R542). -/
def regWrite (off v : Nat) (s : State) : Result :=
  match regKind off with
  | none => .next s
  | some k =>
    if k = .ro ∨ k = .rc ∨ k = .rwl then .next s
    else if 0x51000 ≤ off ∧ off < 0x52000 then .next (writePlm (off % 65536) v s)
    else if 0x110100 ≤ off ∧ off < 0x110500 then writeSvc (off % 65536) v s
    else .next (writePlain off v s)

/-- REGISTER_WRITE: the window registers, which carry a requester, have rows of their own (log 15). -/
def execRegisterWrite (offset : Nat) (value : Word) (s : State) : Result := fast s <|
  if offset % 4 ≠ 0 then .next s else regWrite offset value.toNat s

/-- BAR0_MALFORMED_REQUEST (R540). -/
def execBar0MalformedRequest (write : Bool) (s : State) : Result := fast s <| if write then .next s else .next (emit .regUnsupported s)

/-- HAM_VIOL_SRC_WRITE (R545). -/
def execHamViolSrcWrite (value : Word) (s : State) : Result := fast s <| .next (writePlain 0xC0010 value.toNat s)

/-- COL_VIOL_ADDR_WRITE (R331). -/
def execColViolAddrWrite (value : Word) (s : State) : Result := fast s <| .next (writePlain 0xB0030 value.toNat s)

/-- RLK_SEL_WRITE (R223). -/
def execRlkSelWrite (value : Word) (s : State) : Result := fast s <| .next (writeSelector 0x70020 value.toNat s)

/-- RMA_CONN_SEL_WRITE (R256). -/
def execRmaConnSelWrite (value : Word) (s : State) : Result := fast s <| .next (writeSelector 0x80030 value.toNat s)

/-- CIP_SLOT_SEL_WRITE (R310). -/
def execCipSlotSelWrite (value : Word) (s : State) : Result := fast s <| .next (writeSelector 0xA0020 value.toNat s)

/-! ### REG_READ and REG_WRITE (R546) -/

/-- REG_READ's outcome: the value. -/
def regReadDecision (s : State) (c : Cmd) : Decision := done (readValue s (pk c 24 4))

/-- REG_READ. -/
def execRegRead (ring seq : Nat) (s : State) : Result := fast s <|
  plainOp opRegRead 24 regReadDecision (fun c _ s => readEffect (pk c 24 4) s) ring seq s

/-- REG_WRITE's outcome: the value before the write, or the refusal (R21, R22, R546). -/
def regWriteDecision (s : State) (c : Cmd) : Decision :=
  let off := pk c 24 4
  let v := pk c 28 4
  let ok : Decision := { result := regValue s off, nums := [off, v] }
  match regKind off with
  | none => refuse stFmtParam 24
  | some k =>
    if k = .ro ∨ k = .rc then refuse stOrdLocked 0
    else match winOffset off with
      | none => ok
      | some (n, r) =>
        if s.boot.cfgSealed || winFixed s n then refuse stOrdLocked 0
        else
          let b := winBreach s.ham.win n r v
          if b.1 || b.2 then refuse stLenOver 28 else ok

/-- REG_WRITE. -/
def execRegWrite (ring seq : Nat) (s : State) : Result := fast s <| auditedOp opRegWrite regWriteDecision ring seq s

/-- The write of a successful REG_WRITE; it reaches no ring or service register, whose writes alone could stop (R546). -/
def applyRegWrite (d : Decision) (s : State) : State :=
  match d.nums with
  | [off, v] =>
    (match winOffset off with
     | some (n, k) => { s with ham.win := updAt n (winPut k v) s.ham.win }
     | none => writePlain off v s)
  | _ => s

end Sys2Proof.Machine
end

