-- ==== Sys2Proof/Machine/Volumes.lean ====
section
/-! DEFINITION. The volume class: domains, volumes, snapshots, clones, queries, and the two reduction events (R258 to R289,
Table 10-4, Table 10-6). -/

namespace Sys2Proof.Machine

/-- A refusal that names a packet offset. -/
def badField (off : Nat) : Decision := refuse stFmtParam off

/-- A protection-information type is allowed with a format (R278). -/
def piAllowed (fmt pi : Nat) : Bool := if fmt = 0 ∨ fmt = 2 then pi == 0 else decide (1 ≤ pi) && decide (pi ≤ 3)

/-- The domain exists and holds a key. -/
def domainKeyed (s : State) (d : Nat) : Bool := match domainOf s d with | some x => !x.keyless | none => false

/-! ### VOL_CREATE, VOL_DELETE, VOL_RESIZE, VOL_SET_ACCESS -/

/-- VOL_CREATE's outcome (Table 10-4). -/
def volCreate (s : State) (c : Cmd) : Decision :=
  let vol := pk c 24 2
  let dom := pk c 26 2
  let fmt := pk c 28 1
  let pi := pk c 29 1
  if (volumeOf s vol).isSome then refuse stResExists 0
  else if !domainKeyed s dom then refuse stKeyDomain dom
  else if (domainOf s dom).map (·.format) ≠ some fmt then badField 28
  else if !piAllowed fmt pi then badField 29
  else if 65536 ≤ s.nv.volumes.length then refuse stResExhausted 0
  else { nums := [vol, dom, fmt, pi, pk c 30 1, pk c 32 8] }

/-- VOL_CREATE. -/
def execVolCreate (ring seq : Nat) (s : State) : Result := fast s <| coilOp opVolCreate volCreate noLocks ring seq s

/-- VOL_DELETE's outcome (Table 10-4). -/
def volDelete (s : State) (c : Cmd) : Decision :=
  let vol := pk c 24 2
  let flag := pk c 26 1
  if (volumeOf s vol).isNone then refuse stResNotfound 0
  else if (flag == 0 && s.nv.snaps.any (fun x => x.vol == vol)) || s.rma.repls.any (fun r => r.vol == vol) then refuse stResExists 0
  else { nums := [vol, flag] }

/-- VOL_DELETE. -/
def execVolDelete (ring seq : Nat) (s : State) : Result := fast s <|
  coilOp opVolDelete volDelete (fun _ c => [(pk c 24 2, 0, lastBlock, true)]) ring seq s

/-- A volume that a command names: absent, keyless, or there. -/
def namedVolume (s : State) (vol : Nat) (k : Volume → Decision) : Decision :=
  match volumeOf s vol with
  | none => refuse stResNotfound 0
  | some v => if keylessVolume s v then refuse stKeyDomain v.domain else k v

/-- VOL_RESIZE's outcome (R282). -/
def volResize (s : State) (c : Cmd) : Decision :=
  let size := pk c 32 8
  namedVolume s (pk c 24 2) fun v =>
    if maxBlocks v.format < size then refuse stLenOver 32
    else if size = v.size then noChange else { nums := [v.num, size] }

/-- The blocks that a shrink removes (Table 08-1). -/
def resizeLocks (s : State) (c : Cmd) : List LockNeed :=
  match volumeOf s (pk c 24 2) with
  | some v => if pk c 32 8 < v.size then [(v.num, pk c 32 8, v.size - 1, true)] else []
  | none => []

/-- VOL_RESIZE. -/
def execVolResize (ring seq : Nat) (s : State) : Result := fast s <| coilOp opVolResize volResize resizeLocks ring seq s

/-- VOL_SET_ACCESS's outcome (R281). A move to a peer that is not paired is refused with NET.PEER (DESIGN CHOICE, log 38). -/
def volSetAccess (s : State) (c : Cmd) : Decision :=
  let op := pk c 26 1
  let arg := pk c 27 1
  namedVolume s (pk c 24 2) fun v =>
    if op = 0 ∧ (arg == 1) = v.ownerB then noChange
    else if op = 0 ∧ !s.hdl.paired then refuse stNetPeer 0
    else { nums := [v.num, op, arg, pk c 28 1], bytes := if op = 2 then c.block.take (unsignedLen c) else [] }

/-- A command names a volume whose ownership is moving. -/
def movingTarget (s : State) (ring seq op : Nat) : Bool :=
  match opCmd s ring seq op with
  | some c => (match volumeOf s (pk c 24 2) with | some v => v.moving | none => false)
  | none => false

/-- VOL_SET_ACCESS; it waits while a move of the volume runs (R113). -/
def execVolSetAccess (ring seq : Nat) (s : State) : Result := fast s <|
  if movingTarget s ring seq opVolSetAccess then .next s else coilOp opVolSetAccess volSetAccess noLocks ring seq s

/-! ### Snapshots and clones -/

/-- The volumes that a SNAP_CREATE names. -/
def snapVols (c : Cmd) : List Nat := (List.range (pk c 24 2)).map fun k => numAt c.block (2 * k) 2

/-- The first entry of a list of volumes that fails: absent, repeated or of another owner than the first, keyless (R284). -/
def snapEntryFail (s : State) : List Nat → List Nat → Nat → Option Decision
  | _, [], _ => none
  | seen, n :: ns, k =>
    match volumeOf s n with
    | none => some (refuse stResNotfound 0)
    | some v =>
      let other : Bool := match seen with
        | x :: _ => (volumeOf s x).map (·.ownerB) != some v.ownerB
        | [] => false
      if seen.contains n || other then some (refuse stFmtParam (blockDetail (2 * k)))
      else if keylessVolume s v then some (refuse stKeyDomain v.domain)
      else snapEntryFail s (seen ++ [n]) ns (k + 1)

/-- The snapshots the array holds at most (R283). -/
abbrev snapCap : Nat := 1048576

/-- SNAP_CREATE's outcome (R283, R284): the result is the first identifier. -/
def snapCreate (s : State) (c : Cmd) : Decision :=
  let vols := snapVols c
  match snapEntryFail s [] vols 0 with
  | some d => d
  | none =>
    if snapCap < s.nv.snaps.length + vols.length ∨ 2 ^ 32 ≤ s.nv.nextSnap + vols.length then refuse stResExhausted 0
    else { result := s.nv.nextSnap, nums := s.nv.nextSnap :: vols }

/-- SNAP_CREATE. -/
def execSnapCreate (ring seq : Nat) (s : State) : Result := fast s <|
  coilOp opSnapCreate snapCreate (fun _ c => (snapVols c).map fun v => (v, 0, lastBlock, false)) ring seq s

/-- SNAP_DELETE's outcome (Table 10-4). -/
def snapDelete (s : State) (c : Cmd) : Decision :=
  match snapOf s (pk c 24 4) with
  | none => refuse stResNotfound 0
  | some x =>
    if x.replication && s.rma.repls.any (fun r => r.lastSnap == x.id || r.curSnap == x.id) then refuse stOrdLocked 0
    else { nums := [x.id] }

/-- SNAP_DELETE. -/
def execSnapDelete (ring seq : Nat) (s : State) : Result := fast s <| coilOp opSnapDelete snapDelete noLocks ring seq s

/-- The volume of a clone's source. -/
def cloneVol (s : State) (c : Cmd) : Option Volume :=
  if pk c 26 1 = 0 then (if pk c 28 4 < 65536 then volumeOf s (pk c 28 4) else none)
  else (snapOf s (pk c 28 4)).bind fun x => volumeOf s x.vol

/-- VOL_CLONE's outcome (Table 10-4, R285). -/
def volClone (s : State) (c : Cmd) : Decision :=
  if (volumeOf s (pk c 24 2)).isSome then refuse stResExists 0
  else match cloneVol s c with
    | none => refuse stResNotfound 0
    | some v =>
      if keylessVolume s v then refuse stKeyDomain v.domain
      else if 65536 ≤ s.nv.volumes.length then refuse stResExhausted 0
      else { nums := [pk c 24 2, pk c 26 1, pk c 27 1, pk c 28 4] }

/-- VOL_CLONE. -/
def execVolClone (ring seq : Nat) (s : State) : Result := fast s <|
  coilOp opVolClone volClone (fun _ c => if pk c 26 1 = 0 then [(pk c 28 4, 0, lastBlock, false)] else []) ring seq s

/-! ### DOMAIN_CREATE (R262, R299) -/

/-- A slot may become a domain's key: it holds an AES-256 XTS key, serves no other domain, and while paired its kcv is the
same on the peer. -/
def slotFits (s : State) (slot dom : Nat) : Bool :=
  match slotOf s slot with
  | none => false
  | some x => x.usage == 2 && (!bit x.attrs 2 || x.domain == dom) && (!s.hdl.paired || Config.peerSlotSame slot x.kcv)

/-- A keyless domain that holds no volume is free again; a snapshot keeps its volume (R264). -/
def domainFree (s : State) (d : Domain) : Bool := d.keyless && !s.nv.volumes.any (fun v => v.domain == d.num)

/-- DOMAIN_CREATE's outcome (R262). -/
def domainCreate (s : State) (c : Cmd) : Decision :=
  let dom := pk c 24 2
  let slot := pk c 26 2
  let fmt := pk c 28 1
  let rekey := pk c 29 1
  let ok : Decision := { nums := [dom, slot, fmt, rekey] }
  match domainOf s dom with
  | none => if rekey = 1 then refuse stResNotfound 0 else if !slotFits s slot dom then refuse stKeySlot slot else ok
  | some d =>
    if d.keyless then
      (if !domainFree s d ∨ rekey = 1 then refuse stKeyDomain dom else if !slotFits s slot dom then refuse stKeySlot slot else ok)
    else if rekey = 0 then refuse stResExists 0
    else if !slotFits s slot dom then refuse stKeySlot slot
    else if fmt ≠ d.format then badField 28
    else if slot = d.cur then noChange
    else if d.prev.isSome then refuse stResExhausted 0
    else ok

/-- DOMAIN_CREATE. -/
def execDomainCreate (ring seq : Nat) (s : State) : Result := fast s <| coilOp opDomainCreate domainCreate noLocks ring seq s

/-! ### VOL_QUERY (R287, Table 10-6) -/

/-- The stored cost of a chunk, in 840ths of a byte. -/
def chunkCost (s : State) (id : Nat) : Nat :=
  match storedOf s id with
  | some x => (match bundleOf s x.domain x.bundle with | some b => costShare b 1 | none => 0)
  | none => 0

/-- The chunks that only the maps of a test reference. -/
def onlyIn (s : State) (t : ObjMap → Bool) : List Nat :=
  let mine := ((s.nv.maps.filter t).map fun m => mappedIds m.entries).flatten.eraseDups
  let others := ((s.nv.maps.filter fun m => !t m).map fun m => mappedIds m.entries).flatten
  mine.filter fun id => !others.contains id

/-- The mapped chunks that are also referenced from elsewhere: from the map of another volume or of a snapshot (R287). -/
def sharedIn (s : State) (num : Nat) : List Nat :=
  let others := ((s.nv.maps.filter fun m => m.snap || m.num != num).map fun m => mappedIds m.entries).flatten
  (mappedIds (mapOf s false num)).filter fun id => others.contains id

/-- The stored cost of a list of chunks, in bytes rounded down. -/
def costOf (s : State) (ids : List Nat) : Nat := (ids.foldl (fun n id => n + chunkCost s id) 0) / 840

/-- The volume record. -/
def volRecord (s : State) (v : Volume) : List Byte :=
  let es := mapOf s false v.num
  let isSnap := fun (m : ObjMap) => m.snap && (match snapOf s m.num with | some x => x.vol == v.num | none => false)
  let wp := match domainOf s v.domain with | some d => d.writeProtected | none => false
  let state := if keylessVolume s v then 3 else if v.inaccessible then 1 else if wp then 2 else 0
  leBytes 2 v.num ++ leBytes 2 v.domain ++ [BitVec.ofNat 8 v.format, BitVec.ofNat 8 v.pi,
    BitVec.ofNat 8 (flagAt v.ownerB 0 + flagAt v.dedup 1 + v.compression * 4), BitVec.ofNat 8 state] ++ leBytes 8 v.size ++
  leBytes 8 (mappedIds es).length ++ leBytes 8 (es.filter fun e => e.kind == 1).length ++
  leBytes 8 (costOf s (onlyIn s fun m => !m.snap && m.num == v.num)) ++
  leBytes 8 (sharedIn s v.num).length ++ leBytes 8 (costOf s (onlyIn s isSnap)) ++
  leBytes 4 (s.nv.snaps.filter fun x => x.vol == v.num).length ++ zeros 4

/-- The snapshot record. -/
def snapRecord (s : State) (x : Snapshot) : List Byte :=
  leBytes 4 x.id ++ leBytes 2 x.vol ++ [BitVec.ofNat 8 (flagAt x.replication 0), 0] ++ leBytes 8 x.arrival ++ leBytes 8 x.size ++
  leBytes 8 x.created ++ leBytes 8 (costOf s (onlyIn s fun m => m.snap && m.num == x.id)) ++ leBytes 8 (mappedIds (mapOf s true x.id)).length ++
  zeros 16

/-- The domain record. -/
def domainRecord (s : State) (d : Domain) : List Byte :=
  let ids := (s.nv.stored.filter fun x => x.domain == d.num).map (·.id)
  leBytes 2 d.num ++ [BitVec.ofNat 8 d.format,
    BitVec.ofNat 8 (flagAt (!d.keyless) 0 + flagAt d.prev.isSome 1 + flagAt d.writeProtected 2 + flagAt d.keyless 3)] ++
  leBytes 2 d.cur ++ leBytes 2 (d.prev.getD 0xFFFF) ++ leBytes 8 ids.length ++ leBytes 8 (ids.foldl (fun n id => n + refCount s id) 0) ++
  leBytes 8 (storedBytes s fun b => b.domain == d.num) ++ leBytes 8 (garbageBytes s fun b => b.domain == d.num) ++
  leBytes 8 (s.nv.bundles.filter (underPrev d)).length ++
  leBytes 8 (match slotOf s d.cur with | some x => x.count | none => 0) ++ zeros 8

/-- The array record. -/
def arrayRecord (s : State) : List Byte :=
  leBytes 4 s.nv.volumes.length ++ leBytes 2 (s.nv.domains.filter fun d => !domainFree s d).length ++ zeros 2 ++
  leBytes 8 s.nv.snaps.length ++ leBytes 8 s.nv.stored.length ++
  leBytes 8 (s.nv.maps.foldl (fun n m => if m.snap then n else n + 4096 * (mappedIds m.entries).length) 0) ++
  leBytes 8 (storedBytes s fun _ => true) ++ leBytes 8 (garbageBytes s fun _ => true) ++ leBytes 8 s.red.hot.length ++ leBytes 8 (hotCap s)

/-- VOL_QUERY's outcome. -/
def volQuery (s : State) (c : Cmd) : Decision :=
  let idx := pk c 28 4
  let found : Option (List Byte) := match pk c 24 1 with
    | 0 => if idx < 65536 then (volumeOf s idx).map (volRecord s) else none
    | 1 => (snapOf s idx).map (snapRecord s)
    | 2 => (domainOf s idx).map (domainRecord s)
    | _ => some (arrayRecord s)
  match found with
  | some b => answer b
  | none => refuse stResNotfound 0

/-- VOL_QUERY; a head without the Handle carries it (R279). -/
def execVolQuery (ring seq : Nat) (s : State) : Result := fast s <|
  match opCmd s ring seq opVolQuery with
  | none => .next s
  | some c =>
    if s.hdl.holder then plainOp opVolQuery 32 volQuery (fun _ _ s => s) ring seq s
    else if isCarried s c then .next s
    else if !s.hdl.paired || c.peerTag.isSome then .next (completePlain c (refuse stNetPeer 0) 0 s)
    else if (peerTagFree s).isNone then .next s
    else .next (carryCmd c s)

/-! ### Reduction events -/

/-- The open bundle whose oldest chunk has waited longest. -/
def oldestOpen (s : State) : Option OpenBundle :=
  s.red.open_.foldl (fun b o => match b with | none => some o | some x => if o.oldest < x.oldest then some o else some x) none

/-- BUNDLE_GATHER_TIMEOUT (R269): the oldest open bundle closes (log 16). -/
def execBundleGatherTimeout (verifyOk : Bool) (s : State) : Result := engine s <|
  match oldestOpen s with
  | none => .next s
  | some o => .next (settle verifyOk (closeBundle o verifyOk s))

/-- A cold lookup of a tag's chunk returns (R266). -/
def coldDone (tag k : Nat) (data : List Byte) (found : Option Nat) (s : State) : State :=
  match tagOf s tag with
  | none => s
  | some t => match volumeOf s t.vol with
    | none => s
    | some v => match domainOf s v.domain with
      | none => s
      | some d => match found with
        | some id => useCandidate v d tag k id data true true s
        | none => storeUnique v d tag k data true s

/-- COLD_LOOKUP_DONE: the oldest lookup of the tag. -/
def execColdLookupDone (tag : Nat) (found : Option Nat) (s : State) : Result := engine s <|
  match s.red.coldInFlight.find? fun e => e.1 == tag with
  | none => .next s
  | some e =>
    let s := { s with red.coldInFlight := s.red.coldInFlight.filter fun x => x != e }
    .next (settle true (coldDone tag e.2.1 e.2.2 found s))

end Sys2Proof.Machine
end

