-- ==== Sys2Proof/Machine/Repl.lean ====
section
/-! DEFINITION. Replication of volumes to a remote array: its connections, asynchronous cycles, synchronous acknowledgements
and the loss of the remote (R251 to R254). -/

namespace Sys2Proof.Machine

/-- The replication of a volume. -/
def replOf (s : State) (vol : Nat) : Option Repl := s.rma.repls.find? fun r => r.vol == vol

/-- A replication changed. -/
def updRepl (vol : Nat) (f : Repl → Repl) (s : State) : State := { s with rma.repls := updWhere (fun r => r.vol == vol) f s.rma.repls }

/-! ### REPL_PAIR (R231, R239, R251) -/

/-- The path entries of a block: sub-port, remote address, UDP port. -/
def pairPaths (b : List Byte) : List (Nat × List Byte × Nat) :=
  (List.range (numAt b 20 1)).map fun k => (numAt b (24 + 24 * k) 1, bytesAt b (28 + 24 * k) 16, numAt b (44 + 24 * k) 2)

/-- The first path entry that fails its checks: a sub-port that does not exist, a reserved byte, an mtu too small for
multipath. -/
def pathFail (s : State) (b : List Byte) (many : Bool) : Option Decision :=
  (pairPaths b).zipIdx.findSome? fun e =>
    let o := 24 + 24 * e.2
    if 32 ≤ e.1.1 ∨ subExists s e.1.1 = false then some (refuse stFmtParam (blockDetail o))
    else if !allZero (bytesAt b (o + 1) 3) then some (refuse stFmtRsvd (blockDetail (o + 1)))
    else if !allZero (bytesAt b (o + 22) 2) then some (refuse stFmtRsvd (blockDetail (o + 22)))
    else if many && decide (numAt (subBlock s e.1.1) 6 2 < 4220) then some (refuse stLenUnder (blockDetail o))
    else none

/-- REPL_PAIR's outcome (Table 09-7). -/
def replPair (s : State) (c : Cmd) : Decision :=
  let b := c.block
  let count := numAt b 20 1
  let legacy := bit (numAt b 21 1) 0
  let cls := if bit (numAt b 21 1) 1 then 3 else 2
  let handle := numAt b 16 4
  let sa := if legacy then none else s.rma.pendingSa.find? fun p => p.handle == handle
  if legacy && handle != 0 then refuse stFmtParam (blockDetail 16)
  else if !legacy && sa.isNone then refuse stResNotfound 0
  else if (match sa with | some a => a.cls != cls | none => false) then refuse stFmtParam (blockDetail 16)
  else if count = 0 then refuse stLenUnder (blockDetail 20)
  else if 8 < count then refuse stLenOver (blockDetail 20)
  else if legacy && decide (1 < count) then refuse stFmtParam (blockDetail 20)
  else if 4 ≤ numAt b 21 1 then refuse stFmtRsvd (blockDetail 21)
  else if !allZero (bytesAt b 22 2) then refuse stFmtRsvd (blockDetail 22)
  else match pathFail s b (decide (2 ≤ count)) with
    | some d => d
    | none =>
        if cls = 3 ∧ class3Taken s then refuse stResExists 0
        else if 4096 ≤ pinnedTaken s then refuse stResExhausted 0
        else match freeConnNum s with
          | none => refuse stResExhausted 0
          | some n => { result := n, nums := [n, cls, handle, flagAt legacy 0], bytes := b }

/-- REPL_PAIR: its connection number is taken from its decision on (R227, R231). -/
def execReplPair (ring seq : Nat) (s : State) : Result := fast s <|
  match opCmd s ring seq opReplPair with
  | none => .next s
  | some c =>
    if s.brd.port ≠ [] then .next s
    else
      let d := replPair s c
      .next (markTaken c { s with
        brd.port := [.command c d]
        rma.reserved := if isSuccess d.status then s.rma.reserved ++ [(d.result, nth d.nums 1)] else s.rma.reserved })

/-- The connection is made and asked for (R251). Its path MTU is 4,096 (R239; of a single path DESIGN CHOICE, log 56). -/
def applyReplPair (d : Decision) (s : State) : State :=
  match d.nums with
  | [n, cls, handle, legacy] =>
    let paths := pairPaths d.bytes
    let sub := match paths with | p :: _ => p.1 | [] => 0
    let sa := if legacy = 1 then none else s.rma.pendingSa.find? fun p => p.handle == handle
    cmSend n 0 0 (addConn {
      num := n, cls := cls, prot := if legacy = 1 then 2 else 1, ours := true, sub := sub, paths := paths, sa := sa
      remoteId := bytesAt d.bytes 0 16 } { s with rma.reserved := s.rma.reserved.filter fun e => e.1 != n })
  | _ => s

/-! ### REPL_START, REPL_STOP, REPL_STATUS (R251, R254) -/

/-- REPL_START's outcome: `remote` is what the remote answers, 0 for acceptance. -/
def replStart (remote : Nat) (s : State) (c : Cmd) : Decision :=
  let vol := pk c 24 2
  if (volumeOf s vol).isNone then refuse stResNotfound 0
  else if (replOf s vol).isSome then refuse stResExists 0
  else if !(match connOf s (pk c 28 4) with | some x => x.cls == 2 | none => false) then refuse stFmtParam 28
  else if remote ≠ 0 then refuse stNetRemote 0
  else { nums := [vol, pk c 26 1, pk c 27 1, pk c 28 4, pk c 32 4, pk c 36 2] }

/-- REPL_START. -/
def execReplStart (ring seq remote : Nat) (s : State) : Result := fast s <| auditedOp opReplStart (replStart remote) ring seq s

/-- A write of the volume has been handed to Coil and is not yet committed. -/
def writePending (s : State) (vol : Nat) : Bool := s.hfe.tags.any fun t => t.vol == vol && t.logged && t.state == 3

/-- Replication begins: a synchronous volume that holds data, or a write that the remote has not been sent, is resynchronised first
(DEDUCED, log 61). -/
def applyReplStart (d : Decision) (s : State) : State :=
  match d.nums with
  | [vol, mode, loss, conn, interval, remoteVol] =>
    { s with rma.repls := s.rma.repls ++ [{
        vol := vol, mode := mode, onLoss := loss, conn := conn, interval := interval, remoteVol := remoteVol
        state := if mode = 0 then 0 else if mapOf s false vol = [] ∧ !writePending s vol then 2 else 4, lastAckAt := s.now
        nextDue := s.now + interval * 1000000000 }] }
  | _ => s

/-- Committed writes of a volume whose remote no longer counts complete with success. -/
def releaseSynced (vol : Nat) (f : Tag → Bool) (s : State) : State :=
  (s.hfe.tags.filter fun t => t.vol == vol && t.state == 4 && !t.remoteAcked && f t).foldl (fun s t => endTag t.idx .success [] s) s

/-- REPL_STOP's outcome. -/
def replStop (s : State) (c : Cmd) : Decision :=
  if (replOf s (pk c 24 2)).isNone then refuse stResNotfound 0 else { nums := [pk c 24 2] }

/-- REPL_STOP. -/
def execReplStop (ring seq : Nat) (s : State) : Result := fast s <| auditedOp opReplStop replStop ring seq s

/-- Replication ends; pending synchronous completions post on local commit (Table 09-7). -/
def applyReplStop (d : Decision) (s : State) : State :=
  match d.nums with
  | [vol] => settle true (releaseSynced vol (fun _ => true) { s with rma.repls := s.rma.repls.filter fun r => r.vol != vol })
  | _ => s

/-- REPL_STATUS's outcome: the median round trip is measured, a free value (log 1). -/
def replStatus (s : State) (c : Cmd) : Decision :=
  match replOf s (pk c 24 2) with
  | none => refuse stResNotfound 0
  | some r =>
    let remote := match connOf s r.conn with | some x => x.remoteId | none => []
    answer (leBytes 1 r.state ++ leBytes 1 r.mode ++ leBytes 1 (flagAt r.outOfSync 0) ++ [0] ++ leBytes 4 (freeBelow (2 ^ 32) s) ++
      leBytes 8 r.pendingBytes ++ leBytes 8 (r.lastAck.getD 0) ++ leBytes 8 r.lastSnap ++ padTo 16 remote ++ zeros 16)

/-- REPL_STATUS. -/
def execReplStatus (ring seq : Nat) (s : State) : Result := fast s <|
  plainOp opReplStatus 32 replStatus (fun _ _ s => drewFree s) ring seq s

/-! ### Cycles (R251, R252) -/

/-- A cycle may begin: an asynchronous volume at its interval, or a synchronous one that is being resynchronised. -/
def cycleReady (r : Repl) : Bool := (r.mode == 0 && r.state == 0) || (r.mode == 1 && r.state == 4 && r.curSnap == 0)

/-- ASYNC_CYCLE_START (R251): a replication snapshot, which counts toward the snapshot limit; the interval has elapsed (log 16).
An identifier is taken only while no other operation is choosing one. -/
def execAsyncCycleStart (vol : Nat) (s : State) : Result := alive s <|
  match replOf s vol, volumeOf s vol with
  | some r, some v =>
    if !cycleReady r || !ownsVolume s v || keylessVolume s v || !s.boot.service || s.brd.port != [] || s.col.ends != [] ||
        decide (snapCap ≤ s.nv.snaps.length) || decide (2 ^ 32 ≤ s.nv.nextSnap + 1) then .next s
    else
      let id := s.nv.nextSnap
      let a := s.hfe.arrival
      let s := takeArrival (updRepl vol (fun r => { r with
        state := if r.mode = 0 then 1 else 4, curSnap := id, nextDue := s.now + r.interval * 1000000000 }) { s with nv.nextSnap := id + 1 })
      .next (appendOp a vol opxReplSnap [a, id, vol] [] s)
  | _, _ => .next s

/-- ASYNC_CYCLE_END (R251, R252): the last block is acknowledged; the snapshot before is dropped. A synchronous volume without a
difference left is in sync again. -/
def execAsyncCycleEnd (vol : Nat) (s : State) : Result := alive s <|
  match replOf s vol with
  | none => .next s
  | some r =>
    if r.curSnap = 0 ∨ (snapOf s r.curSnap).isNone then .next s
    else
      let same : Bool := mapDiff (mapOf s true r.curSnap) (mapOf s false vol) == [] && !writePending s vol
      let a := s.hfe.arrival
      let s := if r.lastSnap = 0 ∨ (snapOf s r.lastSnap).isNone then s
        else appendOp a vol opSnapDelete [r.lastSnap] [] (takeArrival s)
      .next (updRepl vol (fun r => { r with
        state := if r.mode = 0 then 0 else if same then 2 else 4
        refusing := r.refusing && !(r.mode == 1 && same)
        lastSnap := r.curSnap, curSnap := 0, pendingBytes := 0 }) s)

/-! ### Synchronous acknowledgements (R251, R252) -/

/-- REMOTE_RECORD_ACK: every record up to an arrival number is committed there; waiting completions are posted. A remote that
returns is resynchronised. -/
def execRemoteRecordAck (vol arrival : Nat) (s : State) : Result := alive s <|
  match replOf s vol with
  | none => .next s
  | some r =>
    if r.mode ≠ 1 then .next s
    else
      let s := updRepl vol (fun r => { r with
        lastAck := some (max arrival (r.lastAck.getD 0)), lastAckAt := s.now, state := if r.state = 3 then 4 else r.state }) s
      .next (settle true (releaseSynced vol (fun t => decide (t.arrival ≤ arrival)) s))

/-- SYNC_REMOTE_LOSS (R252): nothing acknowledged for PID 0x0618 ms (log 16); code 0x06B. Either way what is COMMITTED completes with
success and the flag latches; on_loss 1 refuses new writes. -/
def execSyncRemoteLoss (vol : Nat) (s : State) : Result := alive s <|
  match replOf s vol with
  | none => .next s
  | some r =>
    if r.mode ≠ 1 ∨ r.state ≠ 2 then .next s
    else
      let s := countEvent 0x06B 0 (updRepl vol (fun r => { r with state := 3, outOfSync := true, refusing := r.onLoss == 1 }) s)
      .next (settle true (releaseSynced vol (fun _ => true) s))

end Sys2Proof.Machine
end

