-- ==== Sys2Proof/Machine/Durable.lean ====
section
/-! DEFINITION. The audit port: an entry becomes durable and what the port held for it takes effect (R32 to R35, R134, R135, R137,
R544). -/

namespace Sys2Proof.Machine

/-! ### Effects of audited commands -/

/-- SERVICE_START's effect; with no paired peer the mirror is lost from now on (R81, R319). -/
def startService (s : State) : State :=
  let s := applyServiceStart s
  if s.hdl.paired || !s.boot.service then s else mirrorLoss s

/-- SERVICE_STOP's effect; the open segments are sealed early (R345). -/
def stopService (s : State) : State := sealEarlyWhere (fun _ => true) (applyServiceStop s)

/-- The effect of a successful command that changes only this head's own state, or ends in a later step. -/
def applyCommand (c : Cmd) (d : Decision) (s : State) : State :=
  let op := c.opcode
  if op = opSessionOpen then applySessionOpen c d s
  else if op = opSessionClose then applySessionClose c s
  else if op = opServiceStart then startService s
  else if op = opServiceStop then stopService s
  else if op = opPortEnable then applyPortEnable c s
  else if op = opDeviceDoze then applyDeviceDoze s
  else if op = opHandleEligible then applyHandleEligible d s
  else if op = opOwnerEnroll then applyOwnerEnroll d s
  else if op = opSetParam then (if powerAsked c d = none then applySetParam d s else s)
  else if op = opSetParams then applySetParams c s
  else if op = opConfigSeal then applyConfigSeal s
  else if op = opRegWrite then applyRegWrite d s
  else if op = opRebuildCtrl then applyRebuildCtrl d s
  else if op = opLostListClear then applyLostListClear d s
  else if op = opKeyGenerate then applyKeyGenerate d s
  else if op = opKeyLoad then applyKeyLoad d s
  else if op = opKeyDestroy then applyKeyDestroy d s
  else if op = opKeyInstallSa then applyKeyInstallSa d s
  else if op = opAuditDrain then applyAuditDrain d s
  else if op = opBootRecordDrain then applyBootRecordDrain d s
  else if op = opReplPair then applyReplPair d s
  else if op = opReplStart then applyReplStart d s
  else if op = opReplStop then applyReplStop d s
  else if op = opRegionRegister then applyRegionRegister d s
  else if op = opConnTeardown then applyConnTeardown d s
  else if op = opEvrClear then applyEvrClear d s
  else if op = opWvrInject then applyWvrInject c d.status d.detail s
  else if op = opWvrCapture then applyWvrCapture c s
  else if op = opSelftest then applySelftest d s
  else if op = opActivateImage then applyActivateImage d s
  else s

/-- What a started operation does first (R135): a long operation also takes its place among those that run (R113). -/
def applyStart (c : Cmd) (d : Decision) (s : State) : State :=
  let op := c.opcode
  if op = opHandleTransfer then applyHandleTransfer c s
  else if op = opStageImage then applyStageImage c s
  else if op = opRegionRevoke then startLongOp c 0 (applyRegionRevoke d s)
  else if op = opPackFwLoad then startLongOp c (nth d.nums 0) (applyPackFwLoad d s)
  else if op = opRebuildCtrl then startLongOp c (nth d.nums 1) (applyRebuildCtrl d s)
  else if op = opSecureDiscard then applySecureDiscard c d (startLongOp c 0 s)
  else startLongOp c 0 s

/-! ### Operations that commit in Coil (R279, R349) -/

/-- The opcodes whose effect is an operation that commits in Coil. -/
def commitsInCoil (op : Nat) : Bool :=
  op == opVolCreate || op == opVolDelete || op == opVolResize || op == opVolSetAccess || op == opSnapCreate || op == opSnapDelete ||
    op == opVolClone || op == opDomainCreate || op == opPackAdmit || op == opPackRetire || op == opLayoutChange

/-- The volume that orders an operation's records; 65,535 for one of the whole array. -/
def opVolume (op : Nat) (nums : List Nat) : Nat :=
  if op = opSnapCreate then nth nums 1
  else if op = opVolCreate ∨ op = opVolDelete ∨ op = opVolResize ∨ op = opVolSetAccess ∨ op = opVolClone then nth nums 0
  else 65535

/-- The numbers of an operation's record: a snapshot's begin with its arrival number (R283). -/
def opNums (op : Nat) (d : Decision) : List Nat := if op = opSnapCreate then d.arrival :: d.nums else d.nums

/-- The authority decision that an operation announces to the standby (R450). -/
def opAnnounce (op : Nat) (nums : List Nat) (s : State) : State :=
  if op = opPackAdmit then announce (.admitPack (nth nums 0) (nth nums 1)) s
  else if op = opPackRetire then announce (.retire (nth nums 0)) s
  else if op = opLayoutChange then
    (if nth nums 0 = 0 then
       announce (.newGeneration s.nv.nextGen (nth nums 1) (nth nums 2) (nth nums 3) (nth nums 4) (nth nums 5)) s
     else announce (.cancelGeneration (match s.nv.genNew with | some g => g.num | none => 0)) s)
  else s

/-- An operation's records appended to the stream. -/
def appendCommand (c : Cmd) (d : Decision) (s : State) : State :=
  let op := c.opcode
  settle true (appendOp d.arrival (opVolume op d.nums) op (opNums op d) d.bytes (opAnnounce op d.nums s))

/-- DOMAIN_CREATE draws the salt that its record holds (R260, R292). -/
def withSalt (c : Cmd) (s : State) (d : Decision) : Decision := if c.opcode = opDomainCreate then { d with bytes := freeBytes 32 s } else d

/-- The draw counted. -/
def drewSalt (c : Cmd) (s : State) : State :=
  if c.opcode = opDomainCreate then { s with free := s.free + 32, cip.generates := s.cip.generates + 1 } else s

/-- The record body at whose commit the command ends. -/
def opBody (c : Cmd) (d : Decision) : CoilBody := .deltaOp d.arrival (opVolume c.opcode d.nums) c.opcode (opNums c.opcode d) d.bytes

/-! ### A command's entry and what follows it -/

/-- The buffer of an audited command's output, by opcode; none for an opcode without output. -/
def outputAt (c : Cmd) : Option Nat :=
  if c.opcode = opAuditSeal then some (pk c 24 8)
  else if c.opcode = opKeyGenerate ∨ c.opcode = opKeyExport ∨ c.opcode = opSelftest ∨ c.opcode = opRebuildCtrl then some (pk c 32 8)
  else if c.opcode = opSecureDiscard ∨ c.opcode = opWvrCapture then some (pk c 48 8)
  else none

/-- The output of an audited command, written before its status; AUDIT_SEAL's head covers its own entry (R140). -/
def outputOf (c : Cmd) (d : Decision) (s : State) : List Byte :=
  if !isSuccess d.status then []
  else if c.opcode = opAuditSeal then sealHead s (c.block.take 32)
  else if (outputAt c).isNone then [] else d.bytes

/-- The command ends in a later step: Doze left, the power state reached, the loop sampled (R75, R201, R506). -/
def endsLater (c : Cmd) (d : Decision) : Bool :=
  isSuccess d.status && !d.carried && d.status != stOkNochange &&
    (c.opcode == opDeviceDoze || (powerAsked c d).isSome || (c.opcode == opWvrInject && injectWaits c))

/-- A decided command after its entry: `seq` is its sequence, none where the peer's head has it. -/
def afterEntry (c : Cmd) (d : Decision) (status detail : Nat) (seq : Option Nat) (s : State) : State :=
  let out := outputOf c d s
  let pkt : StatusPkt := { statusOf c status detail d.result (out != []) s with
    audited := seq.isSome, auditSeq := (seq.getD 0) % 2 ^ 32 }
  let addr := (outputAt c).getD 0
  if !isSuccess d.status || d.carried || d.status == stOkNochange then deliver c pkt addr out s
  else if d.started then
    let s := applyStart c d s
    if commitsInCoil c.opcode then appendCommand c d s else s
  else if commitsInCoil c.opcode then
    let d := withSalt c s d
    appendCommand c d (drewSalt c { s with col.ends := s.col.ends ++ [{ body := opBody c d, cmd := c, pkt := pkt, addr := addr, output := out }] })
  else if endsLater c d then
    let s := { s with plem.deferred := s.plem.deferred ++ [(c, seq.getD 0)] }
    let s := applyCommand c { d with status := status, detail := detail } s
    match powerAsked c d with
    | some v => powerWritten c.uid v (status, detail, d.result) s
    | none => s
  else if c.opcode = opResetDevice then beginWarmReset (deliver c pkt 0 [] s)
  else deliver c pkt addr out (applyCommand c d s)

/-- A command whose success is lost: the device became fail-silent, in which it does not accept the opcode, between the decision
and the effect (R134). -/
def lostInFailSilence (s : State) (c : Cmd) (d : Decision) : Bool :=
  s.saf.failSilent && isSuccess d.status && !(match opSpec c.opcode with | some o => bit o.states 3 | none => false)

/-- What a refused operation of Coil holds is released (Table 08-2). -/
def releaseHolds (c : Cmd) (s : State) : State :=
  if commitsInCoil c.opcode ∧ locksOf s (.plem c.ring c.seq) ≠ [] then settle true (releaseLock (.plem c.ring c.seq) s) else s

/-- A command at the head of the port: refused with AUD.FULL without an entry, or its entry appended and what follows
(R34, R111, R134, R135, R137, R138). -/
def commandDurable (c : Cmd) (d : Decision) (s : State) : State :=
  if carriedHere c then afterEntry c d d.status d.detail none s
  else if !cmdTier s c then finishCmd c (statusOf c stAudFull 0 0 false s) (releaseHolds c s)
  else
    let ok := isSuccess d.status
    let s := if c.opcode = opSetTime ∧ ok ∧ !d.carried then setWall (pk c 24 8) false s else s
    let n := if d.started then (stOkDone, 0) else nearStatus s d.status d.detail
    let sess := if c.opcode = opSessionOpen ∧ ok then d.result else entrySession c
    let seq := s.nv.chain.length
    let s1 := appendEntry (commandEntry s c n.1 n.2 sess d.started) s
    if lostInFailSilence s c d then s1 else afterEntry c d n.1 n.2 (some seq) s1

/-! ### Direct writes -/

/-- A direct write refused under R34: discarded, counted. -/
def refuseDirect (s : State) : State := { s with brd.regRefused := true, brd.refused := satAdd (2 ^ 32 - 1) s.brd.refused 1 }

/-- The entry of kind 0x02 of a register write (Table 05-6, R133). -/
def registerEntry (s : State) (off old new requester : Nat) : AuditEntry :=
  { freshEntry 2 s with requester := requester, param := leBytes 4 off ++ leBytes 4 old ++ leBytes 4 new ++ zeros 12 }

/-- A direct write to a window register at the head of the port: checked again as the writes before it left the table (R35). -/
def windowDurable (off v requester : Nat) (s : State) : State :=
  match winOffset off with
  | none => s
  | some (n, k) =>
    let b := winBreach s.ham.win n k v
    if s.boot.cfgSealed || winFixed s n then s
    else if b.1 || b.2 then { s with ham.stsRange := s.ham.stsRange || b.1, ham.stsOverlap := s.ham.stsOverlap || b.2 }
    else if auditFree s ≤ 4096 then refuseDirect s
    else
      let s := appendEntry (registerEntry s off (regValue s off) v requester) s
      { s with ham.win := updAt n (winPut k v) s.ham.win }

/-- A park register's write at the head of the port; its requester is 0xFFFF (R516, R544). -/
def parkDurable (core : Nat) (park : Bool) (s : State) : State :=
  if auditFree s ≤ 4096 then refuseDirect s
  else
    let old := flagAt (bit s.saf.parked core) 0
    applyPark core park (appendEntry (registerEntry s (Config.parkOffset core) old (flagAt park 0) 0xFFFF) s)

/-! ### The rows -/

/-- The port appends: this boot is counted, Coil's Border region is reached, and Coil has not failed (R33, R129, R520). -/
def portRuns (s : State) : Bool :=
  s.brd.counterDone && s.boot.coilReady && !s.boot.retention && !s.pwr.doze &&
    !(s.saf.failSilent && s.aon.cause.thisBoot && s.aon.cause.cls == 8)

/-- AUDIT_ENTRY_DURABLE: the oldest item of the port (R35). A command needs the management cores (R520). -/
def execAuditEntryDurable (s : State) : Result := fast s <|
  if !portRuns s then .next s
  else match s.brd.port with
    | [] => .next s
    | h :: rest =>
      let t := { s with brd.port := rest }
      match h with
      | .command c d => if s.saf.mgmtHalted then .next s else .next (commandDurable c d t)
      | .register off v req => .next (windowDurable off v req t)
      | .park core park => .next (parkDurable core park t)

/-- A partner's late measurement has been appended: a pack or the peer carries data from now on (R80, R131). -/
def waitedMeasurement (e : AuditEntry) (s : State) : State :=
  if e.kind = 3 ∧ e.opcode = 0xFF01 ∧ e.boot = s.nv.bootCounter ∧ ¬ lateWaits s (numAt e.param 0 1) then
    (if numAt e.param 0 1 = 6 then (if s.hdl.paired ∧ ¬ s.hdl.bridge then startMirror s else s) else updateMember (numAt e.param 0 1 - 0x40) s)
  else s

/-- A waiting entry appended, with the status it takes at the append; a status held for it is posted (R137). -/
def appendWaiting (e : AuditEntry) (pkt : Option StatusPkt) (s : State) : State :=
  match pkt with
  | none => waitedMeasurement e (waitedDeclaration e (appendEntry (restamp s e) s))
  | some p =>
    let n := nearStatus s e.status e.detail
    let p' := { p with auditSeq := s.nv.chain.length % 2 ^ 32, status := n.1, detail := n.2 }
    let s1 := appendEntry { restamp s e with status := n.1, detail := n.2, param := endParam p' } s
    match s1.brd.heldEnds.find? (fun h => h.2 == p) with
    | none => s1
    | some h => finishCmd h.1 p' { s1 with brd.heldEnds := s1.brd.heldEnds.filter (fun x => x.2 != p) }

/-- WAITING_ENTRY_APPEND (R137): the oldest waiting entry, once space permits. -/
def execWaitingEntryAppend (s : State) : Result := fast s <|
  match s.nv.waitingEntries with
  | [] => .next s
  | (e, pkt) :: rest =>
    if auditFree s ≤ 16 ∨ !portRuns s then .next s else .next (appendWaiting e pkt { s with nv.waitingEntries := rest })

end Sys2Proof.Machine
end

