-- ==== Sys2Proof/Machine/Reads.lean ====
section
/-! DEFINITION. Register reads over C0 (R35, R223, R256, R310, R541, R542). -/

namespace Sys2Proof.Machine

/-- The state that every write the audit port has taken leaves, in their order (R35). -/
def portDrained (s : State) : State :=
  s.brd.port.foldl (fun t h => match h with
    | .command c d => commandDurable c d t
    | .register off v req => windowDurable off v req t
    | .park core park => parkDurable core park t) s

/-- A BAR0 read of one register: its value goes out, and what the read does follows. A window register, which is audited, is read
behind the writes that the port has taken (R35). -/
def barRead (off : Nat) (s : State) : State :=
  let seen := if (winOffset off).isSome then { s with ham.win := (portDrained s).ham.win } else s
  readEffect off (emit (.regRead off (BitVec.ofNat 32 (readValue seen off))) s)

/-- RC_REGISTER_READ (R542). -/
def execRcRegisterRead (offset : Nat) (s : State) : Result := fast s <| if offset % 4 ≠ 0 then .next (emit .regUnsupported s) else .next (barRead offset s)

/-- LO_REGISTER_READ (R541). -/
def execLoRegisterRead (offset : Nat) (s : State) : Result := fast s <| if offset % 4 ≠ 0 then .next (emit .regUnsupported s) else .next (barRead offset s)

/-- RLK_ENTRY_STS_READ (R223). -/
def execRlkEntryStsRead (s : State) : Result := fast s <| .next (barRead 0x70024 s)

/-- RMA_CONN_STS_READ (R256). -/
def execRmaConnStsRead (s : State) : Result := fast s <| .next (barRead 0x80034 s)

/-- CIP_SLOT_STS_READ (R310). -/
def execCipSlotStsRead (s : State) : Result := fast s <| .next (barRead 0xA0024 s)

end Sys2Proof.Machine
end

