-- ==== Sys2Proof/Machine/Respond.lean ====
section
/-! DEFINITION. The peer's responses to this head's requests (R438, Table 17-2; R193, R267, R279, R295, R361, R455). -/

namespace Sys2Proof.Machine

/-- The status of a carried command, from the peer's status packet and the output after it (log 36). -/
def carriedDecision (status detail : Nat) (bytes : List Byte) : Decision :=
  if bytes.length < 32 then { status := status, detail := detail, carried := true }
  else { status := numAt bytes 4 2, detail := numAt bytes 6 2, result := numAt bytes 8 8, bytes := bytes.drop 32, carried := true }

/-- A carried command has been carried out: an audited one gets its entry here, with the peer's status (R279); VOL_QUERY's
output is written and its status posted. -/
def carryAnswered (r : PeerReq) (status detail : Nat) (bytes : List Byte) (s : State) : State :=
  match r.cmd with
  | none => s
  | some c =>
    let s := dropLocks (.plem c.ring c.seq) s
    let d := carriedDecision status detail bytes
    let audited := match opSpec c.opcode with | some o => o.audited | none => false
    if audited then takeDecision c d s else completePlain c d (pk c 32 8) s

/-- REF_TAKE answered: the chunk is matched with the peer's, or stored as unique (R267). -/
def refAnswered (r : PeerReq) (value : Nat) (s : State) : State :=
  if value = 0 then settle true (takeMatch r.ioTag r.chunk r.stored (countDup r.cold s)) else settle true (requestLost r s)

/-- PACK_RELAY answered: data, an unreadable strip, or nothing; the last two are served by reconstruction (R361, R370). -/
def relayAnswered (r : PeerReq) (status : Nat) (s : State) : State :=
  if isSuccess status then s
  else requestLost r (if status = stMedLost then strikeUnreadable r.stored r.chunk s else s)

/-- PEER_RESPONSE: the request with that tag is answered; without one the frame completes nothing. -/
def execPeerResponse (tag status detail value : Nat) (bytes : List Byte) (s : State) : Result := alive s <|
  match s.hdl.reqs.find? fun r => r.tag == tag with
  | none => .next s
  | some r =>
    let s := { s with hdl.reqs := s.hdl.reqs.filter fun x => x.tag != tag }
    if r.code = 0x05 then .next (carryAnswered r status detail bytes s)
    else if r.code = 0x06 then .next (keyAnswered r status bytes s)
    else if r.code = 0x20 then .next (settle true (forwardAnswered r value bytes s))
    else if r.code = 0x21 then .next (relayAnswered r status s)
    else if r.code = 0x22 then .next (refAnswered r value s)
    else if r.code = 0x32 then .next (handoffAnswered status s)
    else .next s

end Sys2Proof.Machine
end

