-- ==== Sys2Proof/Machine/Spdm.lean ====
section
/-! DEFINITION. SPDM: attestation and secured sessions (R77, R104, R106, R148, R149). Response and error codes, and the
order of the first three requests, are those of the SPDM standard (PRESUMED, log 23). -/

namespace Sys2Proof.Machine

/-- A request is heard: not acknowledged before early service, ResponseNotReady until full service (R77). -/
def spdmGate (s : State) (k : State → Result) : Result :=
  if !mctpAnswers s then .next s
  else if !fullService s then .next (sendMctp (.spdmError 0x42) s)
  else k s

/-- A request that needs the negotiation done: UnexpectedRequest before it. -/
def spdmReady (s : State) (k : State → Result) : Result :=
  spdmGate s fun s => if s.brd.spdmAlgs then k s else .next (sendMctp (.spdmError 0x04) s)

/-- A request that needs the Alias key or its certificate: ResponseNotReady until this boot's is derived (R129). -/
def spdmAlias (s : State) (k : State → Result) : Result :=
  spdmReady s fun s => if s.brd.aliasReady then k s else .next (sendMctp (.spdmError 0x42) s)

/-- A response: whole up to DataTransferSize, else kept for CHUNK_GET behind a LargeResponse error (Table 05-11). -/
def spdmRespond (code : Nat) (bytes : List Byte) (s : State) : State :=
  if bytes.length ≤ 4096 then sendMctp (.spdm code bytes) s
  else
    let h := s.brd.chunks.foldl (fun m c => max m (c.1 + 1)) 0
    sendMctp (.spdmError 0x0F) { s with brd.chunks := s.brd.chunks ++ [(h, bytes.take 16384)] }

/-- GET_VERSION: 1.2 and 1.3. -/
def execGetVersion (s : State) : Result :=
  spdmGate s fun s => .next (spdmRespond 0x04 [0x12, 0x13] { s with brd.spdmVersion := true })

/-- GET_CAPABILITIES: CTExponent 16, DataTransferSize 4,096, MaxSPDMmsgSize 16,384. -/
def execGetCapabilities (s : State) : Result :=
  spdmGate s fun s =>
    if s.brd.spdmVersion then
      .next (spdmRespond 0x61 ([16] ++ leBytes 4 4096 ++ leBytes 4 16384) { s with brd.spdmCaps := true })
    else .next (sendMctp (.spdmError 0x04) s)

/-- The algorithms of Table 05-11, as ALGORITHMS names them: DMTF measurements of SHA-384, ECDSA P-384, SHA-384, DHE secp384r1 and
AES-256-GCM. -/
def spdmAlgorithms : List Byte :=
  [0x01] ++ leBytes 4 0x04 ++ leBytes 4 0x80 ++ leBytes 4 0x02 ++ [0x02, 0x20, 0x10, 0x00] ++ [0x03, 0x20, 0x02, 0x00]

/-- NEGOTIATE_ALGORITHMS: the one supported set, or InvalidRequest when the requester offers none of it. -/
def execNegotiateAlgorithms (algsOk : Bool) (s : State) : Result :=
  spdmGate s fun s =>
    if !s.brd.spdmCaps then .next (sendMctp (.spdmError 0x04) s)
    else if algsOk then .next (spdmRespond 0x63 spdmAlgorithms { s with brd.spdmAlgs := true })
    else .next (sendMctp (.spdmError 0x01) s)

/-- GET_DIGESTS: the digest of slot 0's chain. -/
def execGetDigests (s : State) : Result :=
  spdmAlias s fun s => .next (spdmRespond 0x01 (Config.sha384 (certChain s)) s)

/-- GET_CERTIFICATE: slot 0's chain, a part of it. -/
def execGetCertificate (slot offset length : Nat) (s : State) : Result :=
  spdmAlias s fun s =>
    if slot ≠ 0 ∨ (certChain s).length ≤ offset then .next (sendMctp (.spdmError 0x01) s)
    else .next (spdmRespond 0x02 (((certChain s).drop offset).take length) s)

/-- CHALLENGE: an Alias-key signature. -/
def execChallenge (slot : Nat) (nonce : List Byte) (s : State) : Result :=
  spdmAlias s fun s =>
    if slot ≠ 0 then .next (sendMctp (.spdmError 0x01) s)
    else
      let own := freeBytes 32 s
      let sig := Config.signEcdsa (aliasKey s) (Config.sha384 (certChain s) ++ own ++ nonce)
      .next (spdmRespond 0x03 (Config.sha384 (certChain s) ++ own ++ sig) { s with free := s.free + 32 })

/-- The measurement behind an index of Table 05-12; none when nothing is behind it (R149). -/
def measurementAt (s : State) (i : Nat) : Option (List Byte) :=
  if 1 ≤ i ∧ i ≤ 5 then (measOf s i).map (·.hash)
  else if i = 6 then
    (if s.boot.recSealed then (recordOf s s.nv.bootCounter).map (fun r => Config.sha384 (recordBytes r)) else none)
  else if i = 7 then (if s.boot.cfgSealed then some s.brd.cfgDigest else none)
  else if 0x10 ≤ i ∧ i < 0x50 then
    match measOf s (0x40 + (i - 0x10)) with
    | some m => if m.absent then none else some m.hash
    | none => none
  else if i = 0x50 then ((measOf s 6).filter fun m => !m.absent).map (·.hash)
  else none

/-- GET_MEASUREMENTS: one index, or all with 0xFF (R149). -/
def execGetMeasurements (index : Nat) (s : State) : Result :=
  spdmReady s fun s =>
    if index = 0xFF then
      let all := ((List.range 0x51).filterMap fun i => (measurementAt s i).map fun h => [BitVec.ofNat 8 i] ++ padTo 48 h)
      .next (spdmRespond 0x60 all.flatten s)
    else match measurementAt s index with
      | some h => .next (spdmRespond 0x60 ([BitVec.ofNat 8 index] ++ padTo 48 h) s)
      | none => .next (sendMctp (.spdmError 0x01) s)

/-- KEY_EXCHANGE_RSP: the session, a random number, this head's secp384r1 share and an Alias-key signature over the transcript. The
share's private key and the random number are free values; so is the requester's part of the transcript, which the row does not give
(log 149). -/
def keyExchangeRsp (s : State) : List Byte :=
  let body := leBytes 4 s.brd.nextSpdm ++ freeBytes 32 s ++ Config.ecPublic (freeBytes 48 { s with free := s.free + 32 })
  body ++ padTo 96 (Config.signEcdsa (aliasKey s)
    (Config.sha384 (Config.sha384 (certChain s) ++ freeBytes 48 { s with free := s.free + 80 } ++ body)))

/-- KEY_EXCHANGE: a secured session begins, up to 4 at once (Table 05-11). -/
def execKeyExchange (slot : Nat) (s : State) : Result :=
  spdmAlias s fun s =>
    if slot ≠ 0 then .next (sendMctp (.spdmError 0x01) s)
    else if 4 ≤ s.brd.spdm.length then .next (sendMctp (.spdmError 0x0A) s)
    else .next (spdmRespond 0x64 (keyExchangeRsp s)
      { s with free := s.free + 128, brd.spdm := s.brd.spdm ++ [(s.brd.nextSpdm, false, 0)], brd.nextSpdm := s.brd.nextSpdm + 1 })

/-- A secured session ends; the PLEM session on its ring ends with it (R106). -/
def dropSpdm (k : Nat) (s : State) : State :=
  let s := [60, 61].foldl (fun s n =>
    if (ringOf s n).spdm = some k then
      updRing n (fun r => { r with spdm := none }) (discardCmds n (endSession n s)) else s) s
  { s with brd.spdm := s.brd.spdm.filter (fun x => x.1 != k) }

/-- FINISH: the session is established; a MAC that fails ends it. -/
def execFinish (session : Nat) (macOk : Bool) (s : State) : Result :=
  spdmReady s fun s =>
    if !s.brd.spdm.any (fun x => x.1 == session && !x.2.1) then .next (sendMctp (.spdmError 0x02) s)
    else if macOk then
      .next (spdmRespond 0x65 [] { s with brd.spdm := updWhere (fun x => x.1 == session) (fun x => (x.1, true, x.2.2)) s.brd.spdm })
    else .next (sendMctp (.spdmError 0x06) (dropSpdm session s))

/-- The secured session is established. -/
def spdmUp (s : State) (k : Nat) : Bool := s.brd.spdm.any (fun x => x.1 == k && x.2.1)

/-- HEARTBEAT. -/
def execHeartbeat (session : Nat) (s : State) : Result :=
  spdmGate s fun s => .next (if spdmUp s session then spdmRespond 0x68 [] s else sendMctp (.spdmError 0x02) s)

/-- KEY_UPDATE: the session's keys change. -/
def execKeyUpdate (session : Nat) (s : State) : Result :=
  spdmGate s fun s =>
    if spdmUp s session then
      .next (spdmRespond 0x69 []
        { s with brd.spdm := updWhere (fun x => x.1 == session) (fun x => (x.1, x.2.1, x.2.2 + 1)) s.brd.spdm })
    else .next (sendMctp (.spdmError 0x02) s)

/-- END_SESSION (R106). -/
def execEndSession (session : Nat) (s : State) : Result :=
  spdmGate s fun s =>
    if spdmUp s session then .next (spdmRespond 0x6C [] (dropSpdm session s)) else .next (sendMctp (.spdmError 0x02) s)

/-- CHUNK_GET: the next 4,096 bytes of a kept response; the last chunk drops it. -/
def execChunkGet (handle chunk : Nat) (s : State) : Result :=
  spdmGate s fun s =>
    match s.brd.chunks.find? (fun c => c.1 == handle) with
    | none => .next (sendMctp (.spdmError 0x01) s)
    | some c =>
      let part := (c.2.drop (4096 * chunk)).take 4096
      if part = [] then .next (sendMctp (.spdmError 0x01) s)
      else
        let last := decide (c.2.length ≤ 4096 * (chunk + 1))
        .next (sendMctp (.spdm 0x06 part)
          (if last then { s with brd.chunks := s.brd.chunks.filter (fun x => x.1 != handle) } else s))

/-- SPDM_UNSUPPORTED_REQUEST: ERROR with UnsupportedRequest (R148). -/
def execSpdmUnsupportedRequest (_code : Nat) (s : State) : Result :=
  spdmGate s fun s => .next (sendMctp (.spdmError 0x07) s)

end Sys2Proof.Machine
end

