-- ==== Sys2Proof/Machine/Dispatch.lean ====
section
/-! DEFINITION. The dispatch: one arm per row of the table of steps, each a direct call of the row's meaning. -/

namespace Sys2Proof.Machine

def exec (i : Instr) (s : State) : Host.Outcome State Fault Refusal :=
  match i with
  | .pwrokRise sideB pwrfailLow => Sys2Proof.Machine.execPwrokRise sideB pwrfailLow s
  | .pwrokFall => Sys2Proof.Machine.execPwrokFall s
  | .aonRailsUp => Sys2Proof.Machine.execAonRailsUp s
  | .aonResponderReady => Sys2Proof.Machine.execAonResponderReady s
  | .aonRailsDown => Sys2Proof.Machine.execAonRailsDown s
  | .pwrfailRecognised lowNs => Sys2Proof.Machine.execPwrfailRecognised lowNs s
  | .frontEndsStop => Sys2Proof.Machine.execFrontEndsStop s
  | .coilRetentionEnter => Sys2Proof.Machine.execCoilRetentionEnter s
  | .perstC0Assert => Sys2Proof.Machine.execPerstC0Assert s
  | .perstC1Assert => Sys2Proof.Machine.execPerstC1Assert s
  | .pcieLinkTrainStart port => Sys2Proof.Machine.execPcieLinkTrainStart port s
  | .pcieConfigRequest port => Sys2Proof.Machine.execPcieConfigRequest port s
  | .refclkLost => Sys2Proof.Machine.execRefclkLost s
  | .refclkGood => Sys2Proof.Machine.execRefclkGood s
  | .pllLocked pll => Sys2Proof.Machine.execPllLocked pll s
  | .pllLockLost pll => Sys2Proof.Machine.execPllLockLost pll s
  | .ospiResetRelease => Sys2Proof.Machine.execOspiResetRelease s
  | .sidebandEarlyService => Sys2Proof.Machine.execSidebandEarlyService s
  | .fusesLoaded => Sys2Proof.Machine.execFusesLoaded s
  | .mgtFirmwareRunning => Sys2Proof.Machine.execMgtFirmwareRunning s
  | .firmwareBootCheck comp => Sys2Proof.Machine.execFirmwareBootCheck comp s
  | .sidebandFullService => Sys2Proof.Machine.execSidebandFullService s
  | .hamperTrained => Sys2Proof.Machine.execHamperTrained s
  | .coilReady => Sys2Proof.Machine.execCoilReady s
  | .bootCounterIncrement => Sys2Proof.Machine.execBootCounterIncrement s
  | .plemFunctionReady => Sys2Proof.Machine.execPlemFunctionReady s
  | .stakeWaveStart wave => Sys2Proof.Machine.execStakeWaveStart wave s
  | .stakeWaveEnd wave receivers => Sys2Proof.Machine.execStakeWaveEnd wave receivers s
  | .stakeCatchupWave => Sys2Proof.Machine.execStakeCatchupWave s
  | .peerLinkTrainAttempt => Sys2Proof.Machine.execPeerLinkTrainAttempt s
  | .monitorSelfTest notFired => Sys2Proof.Machine.execMonitorSelfTest notFired s
  | .bootRecordSeal => Sys2Proof.Machine.execBootRecordSeal s
  | .warmResetRelease => Sys2Proof.Machine.execWarmResetRelease s
  | .tileGate tile => Sys2Proof.Machine.execTileGate tile s
  | .tileWake tile => Sys2Proof.Machine.execTileWake tile s
  | .groupAutoOff group => Sys2Proof.Machine.execGroupAutoOff group s
  | .groupPowerOn => Sys2Proof.Machine.execGroupPowerOn s
  | .groupRestoreComplete group => Sys2Proof.Machine.execGroupRestoreComplete group s
  | .dozeWake => Sys2Proof.Machine.execDozeWake s
  | .dozeExitComplete => Sys2Proof.Machine.execDozeExitComplete s
  | .smbusReadIdentity => Sys2Proof.Machine.execSmbusReadIdentity s
  | .smbusReadTemperature => Sys2Proof.Machine.execSmbusReadTemperature s
  | .smbusReadBootStatus => Sys2Proof.Machine.execSmbusReadBootStatus s
  | .smbusReadCause => Sys2Proof.Machine.execSmbusReadCause s
  | .smbusOtherCommand cmd => Sys2Proof.Machine.execSmbusOtherCommand cmd s
  | .smbusClockLowTimeout lowMs => Sys2Proof.Machine.execSmbusClockLowTimeout lowMs s
  | .i3cFirstBroadcast => Sys2Proof.Machine.execI3cFirstBroadcast s
  | .entdaa addr => Sys2Proof.Machine.execEntdaa addr s
  | .setdasa static addr => Sys2Proof.Machine.execSetdasa static addr s
  | .rstdaa => Sys2Proof.Machine.execRstdaa s
  | .setEndpointId eid => Sys2Proof.Machine.execSetEndpointId eid s
  | .getEndpointId => Sys2Proof.Machine.execGetEndpointId s
  | .getMctpVersionSupport msgType => Sys2Proof.Machine.execGetMctpVersionSupport msgType s
  | .getMessageTypeSupport => Sys2Proof.Machine.execGetMessageTypeSupport s
  | .mctpOtherControl cmd => Sys2Proof.Machine.execMctpOtherControl cmd s
  | .plemOverMctp onC0 secured eid packet block => Sys2Proof.Machine.execPlemOverMctp onC0 secured eid packet block s
  | .getVersion => Sys2Proof.Machine.execGetVersion s
  | .getCapabilities => Sys2Proof.Machine.execGetCapabilities s
  | .negotiateAlgorithms algsOk => Sys2Proof.Machine.execNegotiateAlgorithms algsOk s
  | .getDigests => Sys2Proof.Machine.execGetDigests s
  | .getCertificate slot offset length => Sys2Proof.Machine.execGetCertificate slot offset length s
  | .challenge slot nonce => Sys2Proof.Machine.execChallenge slot nonce s
  | .getMeasurements index => Sys2Proof.Machine.execGetMeasurements index s
  | .keyExchange slot => Sys2Proof.Machine.execKeyExchange slot s
  | .finish session macOk => Sys2Proof.Machine.execFinish session macOk s
  | .heartbeat session => Sys2Proof.Machine.execHeartbeat session s
  | .keyUpdate session => Sys2Proof.Machine.execKeyUpdate session s
  | .endSession session => Sys2Proof.Machine.execEndSession session s
  | .chunkGet handle chunk => Sys2Proof.Machine.execChunkGet handle chunk s
  | .spdmUnsupportedRequest code => Sys2Proof.Machine.execSpdmUnsupportedRequest code s
  | .plmRingCfgWrite ring value => Sys2Proof.Machine.execPlmRingCfgWrite ring value s
  | .plmRsqTailDoorbell ring value => Sys2Proof.Machine.execPlmRsqTailDoorbell ring value s
  | .plmRcqHeadDoorbell ring value => Sys2Proof.Machine.execPlmRcqHeadDoorbell ring value s
  | .plemPacketFetch ring packet block => Sys2Proof.Machine.execPlemPacketFetch ring packet block s
  | .plemCommandStart ring => Sys2Proof.Machine.execPlemCommandStart ring s
  | .c0FetchFailure ring => Sys2Proof.Machine.execC0FetchFailure ring s
  | .c0FetchTimeout ring => Sys2Proof.Machine.execC0FetchTimeout ring s
  | .nonceExpiry ring => Sys2Proof.Machine.execNonceExpiry ring s
  | .sessionIdleTimeout ring => Sys2Proof.Machine.execSessionIdleTimeout ring s
  | .sysIdentify ring seq => Sys2Proof.Machine.execSysIdentify ring seq s
  | .getNonce ring seq => Sys2Proof.Machine.execGetNonce ring seq s
  | .sessionOpen ring seq => Sys2Proof.Machine.execSessionOpen ring seq s
  | .sessionClose ring seq => Sys2Proof.Machine.execSessionClose ring seq s
  | .sysStatus ring seq => Sys2Proof.Machine.execSysStatus ring seq s
  | .serviceStart ring seq => Sys2Proof.Machine.execServiceStart ring seq s
  | .serviceStop ring seq => Sys2Proof.Machine.execServiceStop ring seq s
  | .portEnable ring seq => Sys2Proof.Machine.execPortEnable ring seq s
  | .deviceDoze ring seq => Sys2Proof.Machine.execDeviceDoze ring seq s
  | .resetDevice ring seq => Sys2Proof.Machine.execResetDevice ring seq s
  | .handleEligible ring seq => Sys2Proof.Machine.execHandleEligible ring seq s
  | .handleTransfer ring seq => Sys2Proof.Machine.execHandleTransfer ring seq s
  | .ownerEnroll ring seq => Sys2Proof.Machine.execOwnerEnroll ring seq s
  | .setParam ring seq => Sys2Proof.Machine.execSetParam ring seq s
  | .getParam ring seq => Sys2Proof.Machine.execGetParam ring seq s
  | .setParams ring seq => Sys2Proof.Machine.execSetParams ring seq s
  | .configSeal ring seq => Sys2Proof.Machine.execConfigSeal ring seq s
  | .regWrite ring seq => Sys2Proof.Machine.execRegWrite ring seq s
  | .regRead ring seq => Sys2Proof.Machine.execRegRead ring seq s
  | .volCreate ring seq => Sys2Proof.Machine.execVolCreate ring seq s
  | .volDelete ring seq => Sys2Proof.Machine.execVolDelete ring seq s
  | .volResize ring seq => Sys2Proof.Machine.execVolResize ring seq s
  | .volSetAccess ring seq => Sys2Proof.Machine.execVolSetAccess ring seq s
  | .volQuery ring seq => Sys2Proof.Machine.execVolQuery ring seq s
  | .snapCreate ring seq => Sys2Proof.Machine.execSnapCreate ring seq s
  | .snapDelete ring seq => Sys2Proof.Machine.execSnapDelete ring seq s
  | .volClone ring seq => Sys2Proof.Machine.execVolClone ring seq s
  | .secureDiscard ring seq => Sys2Proof.Machine.execSecureDiscard ring seq s
  | .domainCreate ring seq => Sys2Proof.Machine.execDomainCreate ring seq s
  | .packAdmit ring seq => Sys2Proof.Machine.execPackAdmit ring seq s
  | .packRetire ring seq => Sys2Proof.Machine.execPackRetire ring seq s
  | .layoutChange ring seq => Sys2Proof.Machine.execLayoutChange ring seq s
  | .rebuildCtrl ring seq => Sys2Proof.Machine.execRebuildCtrl ring seq s
  | .mediaHealth ring seq => Sys2Proof.Machine.execMediaHealth ring seq s
  | .lostListRead ring seq => Sys2Proof.Machine.execLostListRead ring seq s
  | .lostListClear ring seq => Sys2Proof.Machine.execLostListClear ring seq s
  | .keyGenerate ring seq => Sys2Proof.Machine.execKeyGenerate ring seq s
  | .keyLoad ring seq => Sys2Proof.Machine.execKeyLoad ring seq s
  | .keyExport ring seq => Sys2Proof.Machine.execKeyExport ring seq s
  | .keyDestroy ring seq => Sys2Proof.Machine.execKeyDestroy ring seq s
  | .keyInstallSa ring seq => Sys2Proof.Machine.execKeyInstallSa ring seq s
  | .keyQuery ring seq => Sys2Proof.Machine.execKeyQuery ring seq s
  | .cipherOp ring seq input => Sys2Proof.Machine.execCipherOp ring seq input s
  | .auditRead ring seq => Sys2Proof.Machine.execAuditRead ring seq s
  | .auditDrain ring seq => Sys2Proof.Machine.execAuditDrain ring seq s
  | .auditSeal ring seq => Sys2Proof.Machine.execAuditSeal ring seq s
  | .bootRecordRead ring seq => Sys2Proof.Machine.execBootRecordRead ring seq s
  | .bootRecordDrain ring seq => Sys2Proof.Machine.execBootRecordDrain ring seq s
  | .attestQuote ring seq => Sys2Proof.Machine.execAttestQuote ring seq s
  | .setTime ring seq => Sys2Proof.Machine.execSetTime ring seq s
  | .replPair ring seq => Sys2Proof.Machine.execReplPair ring seq s
  | .replStart ring seq remote => Sys2Proof.Machine.execReplStart ring seq remote s
  | .replStop ring seq => Sys2Proof.Machine.execReplStop ring seq s
  | .replStatus ring seq => Sys2Proof.Machine.execReplStatus ring seq s
  | .regionRegister ring seq => Sys2Proof.Machine.execRegionRegister ring seq s
  | .regionRevoke ring seq => Sys2Proof.Machine.execRegionRevoke ring seq s
  | .connTeardown ring seq => Sys2Proof.Machine.execConnTeardown ring seq s
  | .evrRead ring seq => Sys2Proof.Machine.execEvrRead ring seq s
  | .evrClear ring seq => Sys2Proof.Machine.execEvrClear ring seq s
  | .wvrInject ring seq => Sys2Proof.Machine.execWvrInject ring seq s
  | .wvrCapture ring seq => Sys2Proof.Machine.execWvrCapture ring seq s
  | .selftest ring seq => Sys2Proof.Machine.execSelftest ring seq s
  | .thermStatus ring seq => Sys2Proof.Machine.execThermStatus ring seq s
  | .stageImage ring seq => Sys2Proof.Machine.execStageImage ring seq s
  | .activateImage ring seq => Sys2Proof.Machine.execActivateImage ring seq s
  | .fwQuery ring seq => Sys2Proof.Machine.execFwQuery ring seq s
  | .packFwLoad ring seq => Sys2Proof.Machine.execPackFwLoad ring seq s
  | .migrateStatus ring seq => Sys2Proof.Machine.execMigrateStatus ring seq s
  | .stageImageChunkDone => Sys2Proof.Machine.execStageImageChunkDone s
  | .packFwMeasureTimeout port => Sys2Proof.Machine.execPackFwMeasureTimeout port s
  | .formatRaise peerFmtWrite => Sys2Proof.Machine.execFormatRaise peerFmtWrite s
  | .formatMigrationEnd => Sys2Proof.Machine.execFormatMigrationEnd s
  | .auditEntryDurable => Sys2Proof.Machine.execAuditEntryDurable s
  | .waitingEntryAppend => Sys2Proof.Machine.execWaitingEntryAppend s
  | .ptpSyncReceived port domain transport wall offset => Sys2Proof.Machine.execPtpSyncReceived port domain transport wall offset s
  | .ptpHoldoverExpiry => Sys2Proof.Machine.execPtpHoldoverExpiry s
  | .nvmeSqDoorbell ctrl sq tail => Sys2Proof.Machine.execNvmeSqDoorbell ctrl sq tail s
  | .nvmeDeleteIoSq ctrl cid sq => Sys2Proof.Machine.execNvmeDeleteIoSq ctrl cid sq s
  | .nvmeDeleteIoCq ctrl cid cq => Sys2Proof.Machine.execNvmeDeleteIoCq ctrl cid cq s
  | .nvmeCreateIoSq ctrl cid sq cq size contiguous => Sys2Proof.Machine.execNvmeCreateIoSq ctrl cid sq cq size contiguous s
  | .nvmeCreateIoCq ctrl cid cq size contiguous => Sys2Proof.Machine.execNvmeCreateIoCq ctrl cid cq size contiguous s
  | .nvmeGetLogPage ctrl cid page => Sys2Proof.Machine.execNvmeGetLogPage ctrl cid page s
  | .nvmeIdentify ctrl cid what nsid => Sys2Proof.Machine.execNvmeIdentify ctrl cid what nsid s
  | .nvmeAbort ctrl cid sq target => Sys2Proof.Machine.execNvmeAbort ctrl cid sq target s
  | .abortArbitration ctrl cid => Sys2Proof.Machine.execAbortArbitration ctrl cid s
  | .nvmeSetFeaturesPower ctrl cid ps => Sys2Proof.Machine.execNvmeSetFeaturesPower ctrl cid ps s
  | .nvmeSetFeaturesQueues ctrl cid count => Sys2Proof.Machine.execNvmeSetFeaturesQueues ctrl cid count s
  | .nvmeSetFeatures ctrl cid fid value => Sys2Proof.Machine.execNvmeSetFeatures ctrl cid fid value s
  | .nvmeGetFeatures ctrl cid fid => Sys2Proof.Machine.execNvmeGetFeatures ctrl cid fid s
  | .nvmeAsyncEventRequest ctrl cid => Sys2Proof.Machine.execNvmeAsyncEventRequest ctrl cid s
  | .nvmeKeepAlive ctrl cid => Sys2Proof.Machine.execNvmeKeepAlive ctrl cid s
  | .keepAliveExpiry ctrl => Sys2Proof.Machine.execKeepAliveExpiry ctrl s
  | .fabricsConnect conn cid ctrl qid sqsize discovery hostNqn => Sys2Proof.Machine.execFabricsConnect conn cid ctrl qid sqsize discovery hostNqn s
  | .fabricsPropertyGet ctrl cid offset => Sys2Proof.Machine.execFabricsPropertyGet ctrl cid offset s
  | .fabricsPropertySet ctrl cid offset value => Sys2Proof.Machine.execFabricsPropertySet ctrl cid offset value s
  | .fabricsDisconnect ctrl cid => Sys2Proof.Machine.execFabricsDisconnect ctrl cid s
  | .fabricsConnectionLoss ctrl => Sys2Proof.Machine.execFabricsConnectionLoss ctrl s
  | .ccEnClear ctrl => Sys2Proof.Machine.execCcEnClear ctrl s
  | .ccEnSet ctrl css => Sys2Proof.Machine.execCcEnSet ctrl css s
  | .functionLevelReset ctrl => Sys2Proof.Machine.execFunctionLevelReset ctrl s
  | .nvmeFlush ctrl sq cid nsid => Sys2Proof.Machine.execNvmeFlush ctrl sq cid nsid s
  | .nvmeWrite ctrl sq cid nsid slba nlb pi sglLen => Sys2Proof.Machine.execNvmeWrite ctrl sq cid nsid slba nlb pi sglLen s
  | .nvmeRead ctrl sq cid nsid slba nlb pi sglLen => Sys2Proof.Machine.execNvmeRead ctrl sq cid nsid slba nlb pi sglLen s
  | .nvmeCompare ctrl sq cid nsid slba nlb pi sglLen => Sys2Proof.Machine.execNvmeCompare ctrl sq cid nsid slba nlb pi sglLen s
  | .nvmeWriteZeroes ctrl sq cid nsid slba nlb deac => Sys2Proof.Machine.execNvmeWriteZeroes ctrl sq cid nsid slba nlb deac s
  | .nvmeDatasetManagement ctrl sq cid nsid ad data => Sys2Proof.Machine.execNvmeDatasetManagement ctrl sq cid nsid ad data s
  | .nvmeVerify ctrl sq cid nsid slba nlb pi => Sys2Proof.Machine.execNvmeVerify ctrl sq cid nsid slba nlb pi s
  | .nvmeInvalidOpcode ctrl entry opcode => Sys2Proof.Machine.execNvmeInvalidOpcode ctrl entry opcode s
  | .tagAssign => Sys2Proof.Machine.execTagAssign s
  | .writePayloadData tag blocks last verifyOk => Sys2Proof.Machine.execWritePayloadData tag blocks last verifyOk s
  | .readDataReady tag => Sys2Proof.Machine.execReadDataReady tag s
  | .lockWaitWarning who => Sys2Proof.Machine.execLockWaitWarning who s
  | .ownershipMovePass vol lastArrival => Sys2Proof.Machine.execOwnershipMovePass vol lastArrival s
  | .powerEntryWindowEnd => Sys2Proof.Machine.execPowerEntryWindowEnd s
  | .powerEntryDone => Sys2Proof.Machine.execPowerEntryDone s
  | .ethLinkChange sub up speed fec pfc => Sys2Proof.Machine.execEthLinkChange sub up speed fec pfc s
  | .arpRequest sub target => Sys2Proof.Machine.execArpRequest sub target s
  | .neighborSolicitation sub target => Sys2Proof.Machine.execNeighborSolicitation sub target s
  | .icmpEchoRequest sub target payload => Sys2Proof.Machine.execIcmpEchoRequest sub target payload s
  | .tcpSyn sub dstPort spiIn => Sys2Proof.Machine.execTcpSyn sub dstPort spiIn s
  | .nvmeTcpIcreq conn tls hdgst ddgst => Sys2Proof.Machine.execNvmeTcpIcreq conn tls hdgst ddgst s
  | .espInboundPacket spi seqLo icvOk => Sys2Proof.Machine.execEspInboundPacket spi seqLo icvOk s
  | .send conn bth length first last bytes => Sys2Proof.Machine.execSend conn bth length first last bytes s
  | .rdmaWrite conn bth rkey va dmaLen first last mpeth bytes => Sys2Proof.Machine.execRdmaWrite conn bth rkey va dmaLen first last mpeth bytes s
  | .rdmaReadRequest conn bth rkey va dmaLen => Sys2Proof.Machine.execRdmaReadRequest conn bth rkey va dmaLen s
  | .rdmaReadResponse conn bth last bytes => Sys2Proof.Machine.execRdmaReadResponse conn bth last bytes s
  | .acknowledge conn bth credits => Sys2Proof.Machine.execAcknowledge conn bth credits s
  | .atomicAcknowledge conn bth value => Sys2Proof.Machine.execAtomicAcknowledge conn bth value s
  | .compareSwap conn bth rkey va compare swap => Sys2Proof.Machine.execCompareSwap conn bth rkey va compare swap s
  | .fetchAdd conn bth rkey va add => Sys2Proof.Machine.execFetchAdd conn bth rkey va add s
  | .cnp conn => Sys2Proof.Machine.execCnp conn s
  | .roceUnsupportedPacket conn psn service icrcBad => Sys2Proof.Machine.execRoceUnsupportedPacket conn psn service icrcBad s
  | .cmReq sub cls mtu spiIn => Sys2Proof.Machine.execCmReq sub cls mtu spiIn s
  | .cmRep conn => Sys2Proof.Machine.execCmRep conn s
  | .cmRtu conn => Sys2Proof.Machine.execCmRtu conn s
  | .cmRej conn reason => Sys2Proof.Machine.execCmRej conn reason s
  | .cmDreq conn => Sys2Proof.Machine.execCmDreq conn s
  | .cmDrep conn => Sys2Proof.Machine.execCmDrep conn s
  | .cmMra conn => Sys2Proof.Machine.execCmMra conn s
  | .contextFetchDone conn => Sys2Proof.Machine.execContextFetchDone conn s
  | .retransmitTimeout conn => Sys2Proof.Machine.execRetransmitTimeout conn s
  | .pendingSaExpiry handle => Sys2Proof.Machine.execPendingSaExpiry handle s
  | .oldSaExpiry conn => Sys2Proof.Machine.execOldSaExpiry conn s
  | .revokeDrainTimeout conn => Sys2Proof.Machine.execRevokeDrainTimeout conn s
  | .regionRevokeEnd => Sys2Proof.Machine.execRegionRevokeEnd s
  | .teardownDrainEnd conn => Sys2Proof.Machine.execTeardownDrainEnd conn s
  | .asyncCycleStart vol => Sys2Proof.Machine.execAsyncCycleStart vol s
  | .asyncCycleEnd vol => Sys2Proof.Machine.execAsyncCycleEnd vol s
  | .remoteRecordAck vol arrival => Sys2Proof.Machine.execRemoteRecordAck vol arrival s
  | .syncRemoteLoss vol => Sys2Proof.Machine.execSyncRemoteLoss vol s
  | .bundleGatherTimeout verifyOk => Sys2Proof.Machine.execBundleGatherTimeout verifyOk s
  | .coldLookupDone tag found => Sys2Proof.Machine.execColdLookupDone tag found s
  | .lookasideRequest queue slot mode flags length aadLen iv srcTotal dstTotal data aad mismatch => Sys2Proof.Machine.execLookasideRequest queue slot mode flags length aadLen iv srcTotal dstTotal data aad mismatch s
  | .drbgReseed => Sys2Proof.Machine.execDrbgReseed s
  | .entropyHealthFail => Sys2Proof.Machine.execEntropyHealthFail s
  | .coilLinesPersisted lines => Sys2Proof.Machine.execCoilLinesPersisted lines s
  | .mirror line records => Sys2Proof.Machine.execMirror line records s
  | .mirrorAck persisted released => Sys2Proof.Machine.execMirrorAck persisted released s
  | .mirrorAckTimeout => Sys2Proof.Machine.execMirrorAckTimeout s
  | .journalHeaderWrite => Sys2Proof.Machine.execJournalHeaderWrite s
  | .waitingRecordAppend => Sys2Proof.Machine.execWaitingRecordAppend s
  | .replayStart => Sys2Proof.Machine.execReplayStart s
  | .replayResume => Sys2Proof.Machine.execReplayResume s
  | .replayEnd => Sys2Proof.Machine.execReplayEnd s
  | .coilFailure => Sys2Proof.Machine.execCoilFailure s
  | .stripAdd seg bundles mismatch => Sys2Proof.Machine.execStripAdd seg bundles mismatch s
  | .segmentSeal seg early crcOk => Sys2Proof.Machine.execSegmentSeal seg early crcOk s
  | .sealAgeTimeout seg => Sys2Proof.Machine.execSealAgeTimeout seg s
  | .layoutChangeEnd => Sys2Proof.Machine.execLayoutChangeEnd s
  | .layoutReverseEnd => Sys2Proof.Machine.execLayoutReverseEnd s
  | .absenceDeclareTimeout port => Sys2Proof.Machine.execAbsenceDeclareTimeout port s
  | .queueReorder => Sys2Proof.Machine.execQueueReorder s
  | .segmentReconstructDone seg mismatch => Sys2Proof.Machine.execSegmentReconstructDone seg mismatch s
  | .rebuildBatchCommit => Sys2Proof.Machine.execRebuildBatchCommit s
  | .rebuildEnd port => Sys2Proof.Machine.execRebuildEnd port s
  | .checkpointTimer => Sys2Proof.Machine.execCheckpointTimer s
  | .checkpointLoad valid => Sys2Proof.Machine.execCheckpointLoad valid s
  | .gcBatchStart victims => Sys2Proof.Machine.execGcBatchStart victims s
  | .gcCopyDone => Sys2Proof.Machine.execGcCopyDone s
  | .gcMapCommit => Sys2Proof.Machine.execGcMapCommit s
  | .gcErasePending => Sys2Proof.Machine.execGcErasePending s
  | .bandFree band => Sys2Proof.Machine.execBandFree band s
  | .patrolRead => Sys2Proof.Machine.execPatrolRead s
  | .patrolOverrun => Sys2Proof.Machine.execPatrolOverrun s
  | .patrolProgressSave => Sys2Proof.Machine.execPatrolProgressSave s
  | .readDisturbVerify port block => Sys2Proof.Machine.execReadDisturbVerify port block s
  | .wearSpreadTimeout => Sys2Proof.Machine.execWearSpreadTimeout s
  | .packTempSample => Sys2Proof.Machine.execPackTempSample s
  | .stakeLinkTrained port => Sys2Proof.Machine.execStakeLinkTrained port s
  | .stakeTrainingFailed port => Sys2Proof.Machine.execStakeTrainingFailed port s
  | .stakeTransactionFrame port bytes => Sys2Proof.Machine.execStakeTransactionFrame port bytes s
  | .stakeAck port seq => Sys2Proof.Machine.execStakeAck port seq s
  | .stakeNak port seq => Sys2Proof.Machine.execStakeNak port seq s
  | .stakeCredit port vc frames units => Sys2Proof.Machine.execStakeCredit port vc frames units s
  | .stakeKeepAlive port => Sys2Proof.Machine.execStakeKeepAlive port s
  | .stakeKeepAliveDue port => Sys2Proof.Machine.execStakeKeepAliveDue port s
  | .stakeRxIdleTimeout port => Sys2Proof.Machine.execStakeRxIdleTimeout port s
  | .stakeRecoveryTimeout port => Sys2Proof.Machine.execStakeRecoveryTimeout port s
  | .stakeReplayTimeout port => Sys2Proof.Machine.execStakeReplayTimeout port s
  | .stakeResponseTimeout port tag => Sys2Proof.Machine.execStakeResponseTimeout port tag s
  | .identResponse port tag status ident => Sys2Proof.Machine.execIdentResponse port tag status ident s
  | .geomResponse port tag status geom => Sys2Proof.Machine.execGeomResponse port tag status geom s
  | .readResponse port tag status value checkOk => Sys2Proof.Machine.execReadResponse port tag status value checkOk s
  | .programResponse port tag status value => Sys2Proof.Machine.execProgramResponse port tag status value s
  | .eraseResponse port tag status value => Sys2Proof.Machine.execEraseResponse port tag status value s
  | .healthResponse port tag status failed => Sys2Proof.Machine.execHealthResponse port tag status failed s
  | .tempResponse port tag status temp => Sys2Proof.Machine.execTempResponse port tag status temp s
  | .fwMeasureResponse port tag status hash version svn slot => Sys2Proof.Machine.execFwMeasureResponse port tag status hash version svn slot s
  | .fwLoadResponse port tag status => Sys2Proof.Machine.execFwLoadResponse port tag status s
  | .fencePortResponse port tag status value => Sys2Proof.Machine.execFencePortResponse port tag status value s
  | .setEpochResponse port tag status value => Sys2Proof.Machine.execSetEpochResponse port tag status value s
  | .hello hello => Sys2Proof.Machine.execHello hello s
  | .confirm sigOk => Sys2Proof.Machine.execConfirm sigOk s
  | .unpair reason => Sys2Proof.Machine.execUnpair reason s
  | .peerPlem packet block => Sys2Proof.Machine.execPeerPlem packet block s
  | .carry packet block => Sys2Proof.Machine.execCarry packet block s
  | .keyXfer kcv => Sys2Proof.Machine.execKeyXfer kcv s
  | .fwdCmd tag gen cmd => Sys2Proof.Machine.execFwdCmd tag gen cmd s
  | .packRelay port block offset length slc => Sys2Proof.Machine.execPackRelay port block offset length slc s
  | .refTake bundle position => Sys2Proof.Machine.execRefTake bundle position s
  | .authState asn decision => Sys2Proof.Machine.execAuthState asn decision s
  | .peerHealth health => Sys2Proof.Machine.execPeerHealth health s
  | .handoff asn digest => Sys2Proof.Machine.execHandoff asn digest s
  | .takeoverT t => Sys2Proof.Machine.execTakeoverT t s
  | .peerProtocolError => Sys2Proof.Machine.execPeerProtocolError s
  | .pairingRetry => Sys2Proof.Machine.execPairingRetry s
  | .healthSend => Sys2Proof.Machine.execHealthSend s
  | .healthAbsent => Sys2Proof.Machine.execHealthAbsent s
  | .digestBoundary => Sys2Proof.Machine.execDigestBoundary s
  | .tileKnownAnswerTest tile pass => Sys2Proof.Machine.execTileKnownAnswerTest tile pass s
  | .peerKeyPhaseChange => Sys2Proof.Machine.execPeerKeyPhaseChange s
  | .peerPathLoss => Sys2Proof.Machine.execPeerPathLoss s
  | .holdInFall => Sys2Proof.Machine.execHoldInFall s
  | .holdInRise => Sys2Proof.Machine.execHoldInRise s
  | .handleTake => Sys2Proof.Machine.execHandleTake s
  | .holderStuck => Sys2Proof.Machine.execHolderStuck s
  | .peerSilent => Sys2Proof.Machine.execPeerSilent s
  | .peerSevered => Sys2Proof.Machine.execPeerSevered s
  | .peerStuckClear => Sys2Proof.Machine.execPeerStuckClear s
  | .outputReadbackMismatch => Sys2Proof.Machine.execOutputReadbackMismatch s
  | .peerReplayEnd => Sys2Proof.Machine.execPeerReplayEnd s
  | .handleTransferEnd => Sys2Proof.Machine.execHandleTransferEnd s
  | .copy lane desc srcs => Sys2Proof.Machine.execCopy lane desc srcs s
  | .fill lane desc => Sys2Proof.Machine.execFill lane desc s
  | .fence lane desc => Sys2Proof.Machine.execFence lane desc s
  | .flush lane desc => Sys2Proof.Machine.execFlush lane desc s
  | .burstGrant requests age => Sys2Proof.Machine.execBurstGrant requests age s
  | .writesArrived lane count => Sys2Proof.Machine.execWritesArrived lane count s
  | .paceRequestResume lane => Sys2Proof.Machine.execPaceRequestResume lane s
  | .paceTimeout lane => Sys2Proof.Machine.execPaceTimeout lane s
  | .dmvSvcCfgWrite lane value => Sys2Proof.Machine.execDmvSvcCfgWrite lane value s
  | .dmvSvcTailDoorbell lane value => Sys2Proof.Machine.execDmvSvcTailDoorbell lane value s
  | .dmvSvcHeadDoorbell lane value => Sys2Proof.Machine.execDmvSvcHeadDoorbell lane value s
  | .mapCacheRead addr => Sys2Proof.Machine.execMapCacheRead addr s
  | .mapCacheFillDone addr => Sys2Proof.Machine.execMapCacheFillDone addr s
  | .mapCacheWrite addr bytes => Sys2Proof.Machine.execMapCacheWrite addr bytes s
  | .mchPreloadCtrlWrite addr value => Sys2Proof.Machine.execMchPreloadCtrlWrite addr value s
  | .mchWayLockWrite mask => Sys2Proof.Machine.execMchWayLockWrite mask s
  | .invAll => Sys2Proof.Machine.execInvAll s
  | .mapLookasideInsert kind object page frame pinned => Sys2Proof.Machine.execMapLookasideInsert kind object page frame pinned s
  | .mapLookasideRemove kind object page => Sys2Proof.Machine.execMapLookasideRemove kind object page s
  | .mapLookasideLookup kind object page => Sys2Proof.Machine.execMapLookasideLookup kind object page s
  | .wvmStart => Sys2Proof.Machine.execWvmStart s
  | .loopTick => Sys2Proof.Machine.execLoopTick s
  | .sensorSampleArrival code inst value => Sys2Proof.Machine.execSensorSampleArrival code inst value s
  | .sensorStale loop => Sys2Proof.Machine.execSensorStale loop s
  | .injectionEnd loop => Sys2Proof.Machine.execInjectionEnd loop s
  | .captureTrigger => Sys2Proof.Machine.execCaptureTrigger s
  | .thermalSensorSample readings => Sys2Proof.Machine.execThermalSensorSample readings s
  | .fastSamplingExit => Sys2Proof.Machine.execFastSamplingExit s
  | .watchdogKick core => Sys2Proof.Machine.execWatchdogKick core s
  | .watchdogExpiry core => Sys2Proof.Machine.execWatchdogExpiry core s
  | .watchdogParkWrite core park => Sys2Proof.Machine.execWatchdogParkWrite core park s
  | .parkedCoreExecutes core => Sys2Proof.Machine.execParkedCoreExecutes core s
  | .configScrubPass mismatch => Sys2Proof.Machine.execConfigScrubPass mismatch s
  | .hamperScrubRead line symbols => Sys2Proof.Machine.execHamperScrubRead line symbols s
  | .failSilentDecision cls code => Sys2Proof.Machine.execFailSilentDecision cls code s
  | .failSilentCauseRecord => Sys2Proof.Machine.execFailSilentCauseRecord s
  | .eventNotice code value => Sys2Proof.Machine.execEventNotice code value s
  | .epochEnd => Sys2Proof.Machine.execEpochEnd s
  | .startMarker => Sys2Proof.Machine.execStartMarker s
  | .hamperAccess src write addr bytes => Sys2Proof.Machine.execHamperAccess src write addr bytes s
  | .rimPost ring core entry => Sys2Proof.Machine.execRimPost ring core entry s
  | .rimTake ring => Sys2Proof.Machine.execRimTake ring s
  | .registerWrite offset value => Sys2Proof.Machine.execRegisterWrite offset value s
  | .bar0MalformedRequest write => Sys2Proof.Machine.execBar0MalformedRequest write s
  | .rcRegisterRead offset => Sys2Proof.Machine.execRcRegisterRead offset s
  | .loRegisterRead offset => Sys2Proof.Machine.execLoRegisterRead offset s
  | .hamWinBaseWrite n value requester => Sys2Proof.Machine.execHamWinBaseWrite n value requester s
  | .hamWinSizeWrite n value requester => Sys2Proof.Machine.execHamWinSizeWrite n value requester s
  | .hamWinAccWrite n value requester => Sys2Proof.Machine.execHamWinAccWrite n value requester s
  | .hamViolSrcWrite value => Sys2Proof.Machine.execHamViolSrcWrite value s
  | .colViolAddrWrite value => Sys2Proof.Machine.execColViolAddrWrite value s
  | .rlkSelWrite value => Sys2Proof.Machine.execRlkSelWrite value s
  | .rlkEntryStsRead => Sys2Proof.Machine.execRlkEntryStsRead s
  | .rmaConnSelWrite value => Sys2Proof.Machine.execRmaConnSelWrite value s
  | .rmaConnStsRead => Sys2Proof.Machine.execRmaConnStsRead s
  | .cipSlotSelWrite value => Sys2Proof.Machine.execCipSlotSelWrite value s
  | .cipSlotStsRead => Sys2Proof.Machine.execCipSlotStsRead s
  | .peerLinkTrained lanes => Sys2Proof.Machine.execPeerLinkTrained lanes s
  | .peerLinkDown lanes => Sys2Proof.Machine.execPeerLinkDown lanes s
  | .peerResponse tag status detail value bytes => Sys2Proof.Machine.execPeerResponse tag status detail value bytes s
  | .beatInEdge => Sys2Proof.Machine.execBeatInEdge s
  | .beatOutEdge => Sys2Proof.Machine.execBeatOutEdge s
  | .refclkNotGood => Sys2Proof.Machine.execRefclkNotGood s
  | .c0WriteArrivalTimeout lane => Sys2Proof.Machine.execC0WriteArrivalTimeout lane s
  | .selftestComplete tiles monitors sensors => Sys2Proof.Machine.execSelftestComplete tiles monitors sensors s
  | .tapInstructionUpdate ir => Sys2Proof.Machine.execTapInstructionUpdate ir s

end Sys2Proof.Machine
end

