-- ==== Sys2Proof/Safety.lean ====
section
/-! DEFINITION. What counts as a safe run, in the terms the statements use: the audit chain is linked, memory is in its
canonical form, and the latches that only a falling PWROK may clear. -/

namespace Sys2Proof.Machine

/-- The previous hash of entry `i` of the audit chain (Table 05-6): zero before entry 0, else the SHA-384 of the 128 bytes
of the entry before it. -/
def prevHashOf (l : List AuditEntry) (i : Nat) : List Byte :=
  match i with
  | 0 => zeros 48
  | k + 1 => match l[k]? with
    | none => zeros 48
    | some d => Config.sha384 (entryBytes d k)

/-- Every entry of the chain holds the hash of the entry before it (R132). -/
def chainLinked (l : List AuditEntry) : Prop := ∀ (i : Nat) (e : AuditEntry), l[i]? = some e → e.prevHash = prevHashOf l i

/-- What every step of the device keeps: the Hamper's contents are in canonical form, the audit chain is linked. -/
structure State.Inv (s : State) : Prop where
  mem : Memory.wf s.ham.mem = true
  chain : chainLinked s.nv.chain

/-- A later state that has burned no fuse back: the identity stands, a floor has not fallen, an owner root once burned
stands (R84, R102, R142). -/
structure FusesOnlyBurn (s t : State) : Prop where
  serial : t.nv.fuses.dieSerial = s.nv.fuses.dieSerial
  uds : t.nv.fuses.uds = s.nv.fuses.uds
  owner : owned s = true → t.nv.fuses.ownerRoot = s.nv.fuses.ownerRoot
  floors : ∀ k, svnFloor s k ≤ svnFloor t k

/-- The commands that reset the device or move its always-on rails (Table 03-2); every other command keeps the latches
and the audit chain's boot. -/
def isReset : Instr → Bool
  | .aonRailsUp => true
  | .aonRailsDown => true
  | .pwrokRise _ _ => true
  | .pwrokFall => true
  | .warmResetRelease => true
  | _ => false

/-- The entries a ring of the Rim holds for its consumer, the oldest first: those in the ring, then those whose producer
waits for a place (R30). -/
def rimQueue (s : State) (n : Nat) : List (List Byte) := (rimOf s n).entries ++ (rimOf s n).held.map (·.2)

end Sys2Proof.Machine
end

