-- ==== Sys2Proof/WellFormed.lean ====
section
/-! DEFINITION. Which commands are well formed: every operand lies in the range that its field, its wire or its
register number has in the rules (R8 and the rule that each constructor cites). A meaning
does not depend on it: it bounds what a partner can send. -/

namespace Sys2Proof

/-- The bound of a field of 16 bits. -/
abbrev u16 : Nat := 2 ^ 16

/-- The bound of a field of 32 bits. -/
abbrev u32 : Nat := 2 ^ 32

/-- The bound of a field of 64 bits. -/
abbrev u64 : Nat := 2 ^ 64

/-- The number of 64-byte lines of the Hamper (R22). -/
abbrev hamLines : Nat := 24576 * 131072

/-- Every operand lies in its range. -/
def Instr.wf : Instr → Bool
  | .pwrokRise _ _ => true
  | .pwrokFall => true
  | .aonRailsUp => true
  | .aonResponderReady => true
  | .aonRailsDown => true
  | .pwrfailRecognised lowNs => decide (lowNs < u64)
  | .frontEndsStop => true
  | .coilRetentionEnter => true
  | .perstC0Assert => true
  | .perstC1Assert => true
  | .pcieLinkTrainStart port => decide (port < 2)
  | .pcieConfigRequest port => decide (port < 2)
  | .refclkLost => true
  | .refclkGood => true
  | .pllLocked pll => decide (pll < 8)
  | .pllLockLost pll => decide (pll < 8)
  | .ospiResetRelease => true
  | .sidebandEarlyService => true
  | .fusesLoaded => true
  | .mgtFirmwareRunning => true
  | .firmwareBootCheck comp => decide (1 ≤ comp ∧ comp ≤ 5)
  | .sidebandFullService => true
  | .hamperTrained => true
  | .coilReady => true
  | .bootCounterIncrement => true
  | .plemFunctionReady => true
  | .stakeWaveStart wave => decide (wave < 8)
  | .stakeWaveEnd wave receivers => decide (wave < 8) && decide (receivers < u64)
  | .stakeCatchupWave => true
  | .peerLinkTrainAttempt => true
  | .monitorSelfTest notFired => decide (notFired < u16)
  | .bootRecordSeal => true
  | .warmResetRelease => true
  | .tileGate tile => decide (tile < 256)
  | .tileWake tile => decide (tile < 256)
  | .groupAutoOff group => decide (group < 24)
  | .groupPowerOn => true
  | .groupRestoreComplete group => decide (group < 24)
  | .dozeWake => true
  | .dozeExitComplete => true
  | .smbusReadIdentity => true
  | .smbusReadTemperature => true
  | .smbusReadBootStatus => true
  | .smbusReadCause => true
  | .smbusOtherCommand cmd => decide (cmd < 256)
  | .smbusClockLowTimeout lowMs => decide (lowMs < u64)
  | .i3cFirstBroadcast => true
  | .entdaa addr => decide (addr < 128)
  | .setdasa static addr => decide (static < 128) && decide (addr < 128)
  | .rstdaa => true
  | .setEndpointId eid => decide (eid < 256)
  | .getEndpointId => true
  | .getMctpVersionSupport msgType => decide (msgType < 256)
  | .getMessageTypeSupport => true
  | .mctpOtherControl cmd => decide (cmd < 256)
  | .plemOverMctp _ _ eid packet _ => decide (eid < 256) && packet.length == 64
  | .getVersion => true
  | .getCapabilities => true
  | .negotiateAlgorithms _ => true
  | .getDigests => true
  | .getCertificate slot offset length => decide (slot < 256) && decide (offset < u16) && decide (length < u16)
  | .challenge slot nonce => decide (slot < 256) && nonce.length == 32
  | .getMeasurements index => decide (index < 256)
  | .keyExchange slot => decide (slot < 256)
  | .finish session _ => decide (session < u32)
  | .heartbeat session => decide (session < u32)
  | .keyUpdate session => decide (session < u32)
  | .endSession session => decide (session < u32)
  | .chunkGet handle chunk => decide (handle < u32) && decide (chunk < u16)
  | .spdmUnsupportedRequest code => decide (code < 256)
  | .plmRingCfgWrite ring _ => decide (ring < 60)
  | .plmRsqTailDoorbell ring _ => decide (ring < 60)
  | .plmRcqHeadDoorbell ring _ => decide (ring < 60)
  | .plemPacketFetch ring packet _ => decide (ring < 64) && packet.length == 64
  | .plemCommandStart ring => decide (ring < 64)
  | .c0FetchFailure ring => decide (ring < 64)
  | .c0FetchTimeout ring => decide (ring < 64)
  | .nonceExpiry ring => decide (ring < 64)
  | .sessionIdleTimeout ring => decide (ring < 64)
  | .sysIdentify ring seq => decide (ring < 64) && decide (seq < u32)
  | .getNonce ring seq => decide (ring < 64) && decide (seq < u32)
  | .sessionOpen ring seq => decide (ring < 64) && decide (seq < u32)
  | .sessionClose ring seq => decide (ring < 64) && decide (seq < u32)
  | .sysStatus ring seq => decide (ring < 64) && decide (seq < u32)
  | .serviceStart ring seq => decide (ring < 64) && decide (seq < u32)
  | .serviceStop ring seq => decide (ring < 64) && decide (seq < u32)
  | .portEnable ring seq => decide (ring < 64) && decide (seq < u32)
  | .deviceDoze ring seq => decide (ring < 64) && decide (seq < u32)
  | .resetDevice ring seq => decide (ring < 64) && decide (seq < u32)
  | .handleEligible ring seq => decide (ring < 64) && decide (seq < u32)
  | .handleTransfer ring seq => decide (ring < 64) && decide (seq < u32)
  | .ownerEnroll ring seq => decide (ring < 64) && decide (seq < u32)
  | .setParam ring seq => decide (ring < 64) && decide (seq < u32)
  | .getParam ring seq => decide (ring < 64) && decide (seq < u32)
  | .setParams ring seq => decide (ring < 64) && decide (seq < u32)
  | .configSeal ring seq => decide (ring < 64) && decide (seq < u32)
  | .regWrite ring seq => decide (ring < 64) && decide (seq < u32)
  | .regRead ring seq => decide (ring < 64) && decide (seq < u32)
  | .volCreate ring seq => decide (ring < 64) && decide (seq < u32)
  | .volDelete ring seq => decide (ring < 64) && decide (seq < u32)
  | .volResize ring seq => decide (ring < 64) && decide (seq < u32)
  | .volSetAccess ring seq => decide (ring < 64) && decide (seq < u32)
  | .volQuery ring seq => decide (ring < 64) && decide (seq < u32)
  | .snapCreate ring seq => decide (ring < 64) && decide (seq < u32)
  | .snapDelete ring seq => decide (ring < 64) && decide (seq < u32)
  | .volClone ring seq => decide (ring < 64) && decide (seq < u32)
  | .secureDiscard ring seq => decide (ring < 64) && decide (seq < u32)
  | .domainCreate ring seq => decide (ring < 64) && decide (seq < u32)
  | .packAdmit ring seq => decide (ring < 64) && decide (seq < u32)
  | .packRetire ring seq => decide (ring < 64) && decide (seq < u32)
  | .layoutChange ring seq => decide (ring < 64) && decide (seq < u32)
  | .rebuildCtrl ring seq => decide (ring < 64) && decide (seq < u32)
  | .mediaHealth ring seq => decide (ring < 64) && decide (seq < u32)
  | .lostListRead ring seq => decide (ring < 64) && decide (seq < u32)
  | .lostListClear ring seq => decide (ring < 64) && decide (seq < u32)
  | .keyGenerate ring seq => decide (ring < 64) && decide (seq < u32)
  | .keyLoad ring seq => decide (ring < 64) && decide (seq < u32)
  | .keyExport ring seq => decide (ring < 64) && decide (seq < u32)
  | .keyDestroy ring seq => decide (ring < 64) && decide (seq < u32)
  | .keyInstallSa ring seq => decide (ring < 64) && decide (seq < u32)
  | .keyQuery ring seq => decide (ring < 64) && decide (seq < u32)
  | .cipherOp ring seq _ => decide (ring < 64) && decide (seq < u32)
  | .auditRead ring seq => decide (ring < 64) && decide (seq < u32)
  | .auditDrain ring seq => decide (ring < 64) && decide (seq < u32)
  | .auditSeal ring seq => decide (ring < 64) && decide (seq < u32)
  | .bootRecordRead ring seq => decide (ring < 64) && decide (seq < u32)
  | .bootRecordDrain ring seq => decide (ring < 64) && decide (seq < u32)
  | .attestQuote ring seq => decide (ring < 64) && decide (seq < u32)
  | .setTime ring seq => decide (ring < 64) && decide (seq < u32)
  | .replPair ring seq => decide (ring < 64) && decide (seq < u32)
  | .replStart ring seq remote => decide (ring < 64) && decide (seq < u32) && decide (remote < u16)
  | .replStop ring seq => decide (ring < 64) && decide (seq < u32)
  | .replStatus ring seq => decide (ring < 64) && decide (seq < u32)
  | .regionRegister ring seq => decide (ring < 64) && decide (seq < u32)
  | .regionRevoke ring seq => decide (ring < 64) && decide (seq < u32)
  | .connTeardown ring seq => decide (ring < 64) && decide (seq < u32)
  | .evrRead ring seq => decide (ring < 64) && decide (seq < u32)
  | .evrClear ring seq => decide (ring < 64) && decide (seq < u32)
  | .wvrInject ring seq => decide (ring < 64) && decide (seq < u32)
  | .wvrCapture ring seq => decide (ring < 64) && decide (seq < u32)
  | .selftest ring seq => decide (ring < 64) && decide (seq < u32)
  | .thermStatus ring seq => decide (ring < 64) && decide (seq < u32)
  | .stageImage ring seq => decide (ring < 64) && decide (seq < u32)
  | .activateImage ring seq => decide (ring < 64) && decide (seq < u32)
  | .fwQuery ring seq => decide (ring < 64) && decide (seq < u32)
  | .packFwLoad ring seq => decide (ring < 64) && decide (seq < u32)
  | .migrateStatus ring seq => decide (ring < 64) && decide (seq < u32)
  | .stageImageChunkDone => true
  | .packFwMeasureTimeout port => decide (port < 64)
  | .formatRaise peerFmtWrite => decide (peerFmtWrite < u16)
  | .formatMigrationEnd => true
  | .auditEntryDurable => true
  | .waitingEntryAppend => true
  | .ptpSyncReceived port domain transport wall _ => decide (port < u16) && decide (domain < 256) && decide (transport < 256) && decide (wall < u64)
  | .ptpHoldoverExpiry => true
  | .nvmeSqDoorbell ctrl sq tail => decide (ctrl < u16) && decide (sq < u16) && decide (tail < u16)
  | .nvmeDeleteIoSq ctrl cid sq => decide (ctrl < u16) && decide (cid < u16) && decide (sq < u16)
  | .nvmeDeleteIoCq ctrl cid cq => decide (ctrl < u16) && decide (cid < u16) && decide (cq < u16)
  | .nvmeCreateIoSq ctrl cid sq cq size _ => decide (ctrl < u16) && decide (cid < u16) && decide (sq < u16) && decide (cq < u16) && decide (size < 65536)
  | .nvmeCreateIoCq ctrl cid cq size _ => decide (ctrl < u16) && decide (cid < u16) && decide (cq < u16) && decide (size < 65536)
  | .nvmeGetLogPage ctrl cid page => decide (ctrl < u16) && decide (cid < u16) && decide (page.lid < 256) && decide (page.numd < u32) && decide (page.sglLen < u32)
  | .nvmeIdentify ctrl cid what nsid => decide (ctrl < u16) && decide (cid < u16) && decide (what.cns < 256) && decide (nsid < u32) && decide (what.csi < 256)
  | .nvmeAbort ctrl cid sq target => decide (ctrl < u16) && decide (cid < u16) && decide (sq < u16) && decide (target < u16)
  | .abortArbitration ctrl cid => decide (ctrl < u16) && decide (cid < u16)
  | .nvmeSetFeaturesPower ctrl cid ps => decide (ctrl < u16) && decide (cid < u16) && decide (ps < 32)
  | .nvmeSetFeaturesQueues ctrl cid count => decide (ctrl < u16) && decide (cid < u16) && decide (count < u32)
  | .nvmeSetFeatures ctrl cid fid value => decide (ctrl < u16) && decide (cid < u16) && decide (fid < 256) && decide (value < u64)
  | .nvmeGetFeatures ctrl cid fid => decide (ctrl < u16) && decide (cid < u16) && decide (fid < 256)
  | .nvmeAsyncEventRequest ctrl cid => decide (ctrl < u16) && decide (cid < u16)
  | .nvmeKeepAlive ctrl cid => decide (ctrl < u16) && decide (cid < u16)
  | .keepAliveExpiry ctrl => decide (ctrl < u16)
  | .fabricsConnect conn cid _ qid sqsize _ _ => decide (conn < 2 ^ 20) && decide (cid < u16) && decide (qid < u16) && decide (sqsize < 65536)
  | .fabricsPropertyGet ctrl cid offset => decide (ctrl < u16) && decide (cid < u16) && decide (offset < u32)
  | .fabricsPropertySet ctrl cid offset value => decide (ctrl < u16) && decide (cid < u16) && decide (offset < u32) && decide (value < u64)
  | .fabricsDisconnect ctrl cid => decide (ctrl < u16) && decide (cid < u16)
  | .fabricsConnectionLoss ctrl => decide (ctrl < u16)
  | .ccEnClear ctrl => decide (ctrl < u16)
  | .ccEnSet ctrl css => decide (ctrl < u16) && decide (css < 8)
  | .functionLevelReset ctrl => decide (ctrl < u16)
  | .nvmeFlush ctrl sq cid nsid => decide (ctrl < u16) && decide (sq < u16) && decide (cid < u16) && decide (nsid < u32)
  | .nvmeWrite ctrl sq cid nsid slba nlb _ sglLen => decide (ctrl < u16) && decide (sq < u16) && decide (cid < u16) && decide (nsid < u32) && decide (slba < u64) && decide (nlb < 65536) && decide (sglLen < u32)
  | .nvmeRead ctrl sq cid nsid slba nlb _ sglLen => decide (ctrl < u16) && decide (sq < u16) && decide (cid < u16) && decide (nsid < u32) && decide (slba < u64) && decide (nlb < 65536) && decide (sglLen < u32)
  | .nvmeCompare ctrl sq cid nsid slba nlb _ sglLen => decide (ctrl < u16) && decide (sq < u16) && decide (cid < u16) && decide (nsid < u32) && decide (slba < u64) && decide (nlb < 65536) && decide (sglLen < u32)
  | .nvmeWriteZeroes ctrl sq cid nsid slba nlb _ => decide (ctrl < u16) && decide (sq < u16) && decide (cid < u16) && decide (nsid < u32) && decide (slba < u64) && decide (nlb < 65536)
  | .nvmeDatasetManagement ctrl sq cid nsid _ data => decide (ctrl < u16) && decide (sq < u16) && decide (cid < u16) && decide (nsid < u32) && decide (data.nr < 256) && decide (data.sglLen < u32)
  | .nvmeVerify ctrl sq cid nsid slba nlb _ => decide (ctrl < u16) && decide (sq < u16) && decide (cid < u16) && decide (nsid < u32) && decide (slba < u64) && decide (nlb < 65536)
  | .nvmeInvalidOpcode ctrl entry opcode => decide (ctrl < u16) && decide (entry.sq < u16) && decide (entry.cid < u16) && decide (opcode < 256)
  | .tagAssign => true
  | .writePayloadData tag _ _ _ => decide (tag < u16)
  | .readDataReady tag => decide (tag < u16)
  | .lockWaitWarning (.tag n) => decide (n < u16)
  | .lockWaitWarning (.plem ring seq) => decide (ring < 64) && decide (seq < u32)
  | .ownershipMovePass vol lastArrival => decide (vol < u32) && decide (lastArrival < u64)
  | .powerEntryWindowEnd => true
  | .powerEntryDone => true
  | .ethLinkChange sub _ speed fec _ => decide (sub < 32) && decide (speed < u16) && decide (fec < 256)
  | .arpRequest sub _ => decide (sub < 32)
  | .neighborSolicitation sub _ => decide (sub < 32)
  | .icmpEchoRequest sub _ _ => decide (sub < 32)
  | .tcpSyn sub dstPort _ => decide (sub < 32) && decide (dstPort < u16)
  | .nvmeTcpIcreq conn _ _ _ => decide (conn < 2 ^ 20)
  | .espInboundPacket spi seqLo _ => decide (spi < u32) && decide (seqLo < u32)
  | .send conn bth length _ _ _ => decide (conn < 2 ^ 20) && decide (bth.psn < 2 ^ 24) && decide (length < u32)
  | .rdmaWrite conn bth rkey va dmaLen _ _ _ _ => decide (conn < 2 ^ 20) && decide (bth.psn < 2 ^ 24) && decide (rkey < u32) && decide (va < u64) && decide (dmaLen < u32)
  | .rdmaReadRequest conn bth rkey va dmaLen => decide (conn < 2 ^ 20) && decide (bth.psn < 2 ^ 24) && decide (rkey < u32) && decide (va < u64) && decide (dmaLen < u32)
  | .rdmaReadResponse conn bth _ _ => decide (conn < 2 ^ 20) && decide (bth.psn < 2 ^ 24)
  | .acknowledge conn bth credits => decide (conn < 2 ^ 20) && decide (bth.psn < 2 ^ 24) && decide (credits < 256)
  | .atomicAcknowledge conn bth value => decide (conn < 2 ^ 20) && decide (bth.psn < 2 ^ 24) && decide (value < u64)
  | .compareSwap conn bth rkey va compare swap => decide (conn < 2 ^ 20) && decide (bth.psn < 2 ^ 24) && decide (rkey < u32) && decide (va < u64) && decide (compare < u64) && decide (swap < u64)
  | .fetchAdd conn bth rkey va add => decide (conn < 2 ^ 20) && decide (bth.psn < 2 ^ 24) && decide (rkey < u32) && decide (va < u64) && decide (add < u64)
  | .cnp conn => decide (conn < 2 ^ 20)
  | .roceUnsupportedPacket conn psn _ _ => decide (conn < 2 ^ 20) && decide (psn < 2 ^ 24)
  | .cmReq sub cls mtu _ => decide (sub < 32) && decide (cls < 4) && decide (mtu < u16)
  | .cmRep conn => decide (conn < 2 ^ 20)
  | .cmRtu conn => decide (conn < 2 ^ 20)
  | .cmRej conn reason => decide (conn < 2 ^ 20) && decide (reason < u16)
  | .cmDreq conn => decide (conn < 2 ^ 20)
  | .cmDrep conn => decide (conn < 2 ^ 20)
  | .cmMra conn => decide (conn < 2 ^ 20)
  | .contextFetchDone conn => decide (conn < 2 ^ 20)
  | .retransmitTimeout conn => decide (conn < 2 ^ 20)
  | .pendingSaExpiry handle => decide (handle < u32)
  | .oldSaExpiry conn => decide (conn < 2 ^ 20)
  | .revokeDrainTimeout conn => decide (conn < 2 ^ 20)
  | .regionRevokeEnd => true
  | .teardownDrainEnd conn => decide (conn < 2 ^ 20)
  | .asyncCycleStart vol => decide (vol < u32)
  | .asyncCycleEnd vol => decide (vol < u32)
  | .remoteRecordAck vol arrival => decide (vol < u32) && decide (arrival < u64)
  | .syncRemoteLoss vol => decide (vol < u32)
  | .bundleGatherTimeout _ => true
  | .coldLookupDone tag _ => decide (tag < u16)
  | .lookasideRequest queue slot mode flags length aadLen _ srcTotal dstTotal _ _ _ => decide (queue < 256) && decide (slot < 4096) && decide (mode < 256) && decide (flags < 256) && decide (length < u32) && decide (aadLen < u32) && decide (srcTotal < u64) && decide (dstTotal < u64)
  | .drbgReseed => true
  | .entropyHealthFail => true
  | .coilLinesPersisted lines => decide (lines < u64)
  | .mirror line _ => decide (line < u64)
  | .mirrorAck persisted released => decide (persisted < u64) && decide (released < u64)
  | .mirrorAckTimeout => true
  | .journalHeaderWrite => true
  | .waitingRecordAppend => true
  | .replayStart => true
  | .replayResume => true
  | .replayEnd => true
  | .coilFailure => true
  | .stripAdd seg _ _ => decide (seg < u64)
  | .segmentSeal seg _ _ => decide (seg < u64)
  | .sealAgeTimeout seg => decide (seg < u64)
  | .layoutChangeEnd => true
  | .layoutReverseEnd => true
  | .absenceDeclareTimeout port => decide (port < 64)
  | .queueReorder => true
  | .segmentReconstructDone seg _ => decide (seg < u64)
  | .rebuildBatchCommit => true
  | .rebuildEnd port => decide (port < 64)
  | .checkpointTimer => true
  | .checkpointLoad valid => valid.all (· < 64)
  | .gcBatchStart _ => true
  | .gcCopyDone => true
  | .gcMapCommit => true
  | .gcErasePending => true
  | .bandFree band => decide (band < u64)
  | .patrolRead => true
  | .patrolOverrun => true
  | .patrolProgressSave => true
  | .readDisturbVerify port block => decide (port < 64) && decide (block < u32)
  | .wearSpreadTimeout => true
  | .packTempSample => true
  | .stakeLinkTrained port => decide (port < 64)
  | .stakeTrainingFailed port => decide (port < 64)
  | .stakeTransactionFrame port _ => decide (port < 64)
  | .stakeAck port seq => decide (port < 64) && decide (seq < u16)
  | .stakeNak port seq => decide (port < 64) && decide (seq < u16)
  | .stakeCredit port vc frames units => decide (port < 64) && decide (vc < 8) && decide (frames < u16) && decide (units < u16)
  | .stakeKeepAlive port => decide (port < 64)
  | .stakeKeepAliveDue port => decide (port < 64)
  | .stakeRxIdleTimeout port => decide (port < 64)
  | .stakeRecoveryTimeout port => decide (port < 64)
  | .stakeReplayTimeout port => decide (port < 64)
  | .stakeResponseTimeout port tag => decide (port < 64) && decide (tag < u16)
  | .identResponse port tag status _ => decide (port < 64) && decide (tag < u16) && decide (status < u16)
  | .geomResponse port tag status _ => decide (port < 64) && decide (tag < u16) && decide (status < u16)
  | .readResponse port tag status value _ => decide (port < 64) && decide (tag < u16) && decide (status < u16) && decide (value < u64)
  | .programResponse port tag status value => decide (port < 64) && decide (tag < u16) && decide (status < u16) && decide (value < u64)
  | .eraseResponse port tag status value => decide (port < 64) && decide (tag < u16) && decide (status < u16) && decide (value < u64)
  | .healthResponse port tag status _ => decide (port < 64) && decide (tag < u16) && decide (status < u16)
  | .tempResponse port tag status _ => decide (port < 64) && decide (tag < u16) && decide (status < u16)
  | .fwMeasureResponse port tag status hash version svn slot => decide (port < 64) && decide (tag < u16) && decide (status < u16) && hash.length == 48 && decide (version < u64) && decide (svn < u16) && decide (slot < 256)
  | .fwLoadResponse port tag status => decide (port < 64) && decide (tag < u16) && decide (status < u16)
  | .fencePortResponse port tag status value => decide (port < 64) && decide (tag < u16) && decide (status < u16) && decide (value < u64)
  | .setEpochResponse port tag status value => decide (port < 64) && decide (tag < u16) && decide (status < u16) && decide (value < u64)
  | .hello _ => true
  | .confirm _ => true
  | .unpair reason => decide (reason < u16)
  | .peerPlem packet _ => packet.length == 64
  | .carry packet _ => packet.length == 64
  | .keyXfer kcv => kcv.length == 16
  | .fwdCmd tag gen _ => decide (tag < u16) && decide (gen < 256)
  | .packRelay port block offset length _ => decide (port < 64) && decide (block < u32) && decide (offset < u32) && decide (length < u32)
  | .refTake bundle position => decide (bundle < u64) && decide (position < 4096)
  | .authState asn _ => decide (asn < u64)
  | .peerHealth _ => true
  | .handoff asn digest => decide (asn < u64) && digest.length == 48
  | .takeoverT t => decide (t < u64)
  | .peerProtocolError => true
  | .pairingRetry => true
  | .healthSend => true
  | .healthAbsent => true
  | .digestBoundary => true
  | .tileKnownAnswerTest tile _ => decide (tile < 256)
  | .peerKeyPhaseChange => true
  | .peerPathLoss => true
  | .holdInFall => true
  | .holdInRise => true
  | .handleTake => true
  | .holderStuck => true
  | .peerSilent => true
  | .peerSevered => true
  | .peerStuckClear => true
  | .outputReadbackMismatch => true
  | .peerReplayEnd => true
  | .handleTransferEnd => true
  | .copy lane _ _ => decide (lane < 16)
  | .fill lane _ => decide (lane < 16)
  | .fence lane _ => decide (lane < 16)
  | .flush lane _ => decide (lane < 16)
  | .burstGrant requests age => decide (requests < 2 ^ 16) && age.all (· < 16)
  | .writesArrived lane count => decide (lane < 16) && decide (count < 65536)
  | .paceRequestResume lane => decide (lane < 16)
  | .paceTimeout lane => decide (lane < 16)
  | .dmvSvcCfgWrite lane _ => decide (lane = 14 ∨ lane = 15)
  | .dmvSvcTailDoorbell lane _ => decide (lane = 14 ∨ lane = 15)
  | .dmvSvcHeadDoorbell lane _ => decide (lane = 14 ∨ lane = 15)
  | .mapCacheRead addr => decide (addr < u64)
  | .mapCacheFillDone addr => decide (addr < u64)
  | .mapCacheWrite addr _ => decide (addr < u64)
  | .mchPreloadCtrlWrite addr _ => decide (addr < u64)
  | .mchWayLockWrite mask => decide (mask < u32)
  | .invAll => true
  | .mapLookasideInsert kind object page frame _ => decide (kind < u16) && decide (object < u32) && decide (page < u64) && decide (frame < u32)
  | .mapLookasideRemove kind object page => decide (kind < u16) && decide (object < u32) && decide (page < u64)
  | .mapLookasideLookup kind object page => decide (kind < u16) && decide (object < u32) && decide (page < u64)
  | .wvmStart => true
  | .loopTick => true
  | .sensorSampleArrival code inst _ => decide (code < u16) && decide (inst < 64)
  | .sensorStale loop => decide (loop < 64)
  | .injectionEnd loop => decide (loop < 64)
  | .captureTrigger => true
  | .thermalSensorSample readings => readings.length == 37
  | .fastSamplingExit => true
  | .watchdogKick core => decide (core < 37)
  | .watchdogExpiry core => decide (core < 37)
  | .watchdogParkWrite core _ => decide (core < 37)
  | .parkedCoreExecutes core => decide (core < 37)
  | .configScrubPass _ => true
  | .hamperScrubRead line symbols => decide (line < hamLines) && decide (symbols < u16)
  | .failSilentDecision cls code => decide (cls < 256) && decide (code < u16)
  | .failSilentCauseRecord => true
  | .eventNotice code value => decide (code < u16) && decide (value < u64)
  | .epochEnd => true
  | .startMarker => true
  | .hamperAccess _ _ addr _ => decide (addr < u64)
  | .rimPost ring _ _ => decide (ring < 64)
  | .rimTake ring => decide (ring < 64)
  | .registerWrite offset _ => decide (offset < u32)
  | .bar0MalformedRequest _ => true
  | .rcRegisterRead offset => decide (offset < u32)
  | .loRegisterRead offset => decide (offset < u32)
  | .hamWinBaseWrite n _ requester => decide (n < 32) && decide (requester < u16)
  | .hamWinSizeWrite n _ requester => decide (n < 32) && decide (requester < u16)
  | .hamWinAccWrite n _ requester => decide (n < 32) && decide (requester < u16)
  | .hamViolSrcWrite _ => true
  | .colViolAddrWrite _ => true
  | .rlkSelWrite _ => true
  | .rlkEntryStsRead => true
  | .rmaConnSelWrite _ => true
  | .rmaConnStsRead => true
  | .cipSlotSelWrite _ => true
  | .cipSlotStsRead => true
  | .peerLinkTrained lanes => decide (lanes < 2 ^ 16)
  | .peerLinkDown lanes => decide (lanes < 2 ^ 16)
  | .peerResponse tag status detail value _ => decide (tag < u16) && decide (status < u16) && decide (detail < u16) && decide (value < u64)
  | .beatInEdge => true
  | .beatOutEdge => true
  | .refclkNotGood => true
  | .c0WriteArrivalTimeout lane => decide (lane < 16)
  | .selftestComplete tiles monitors sensors => tiles.all (· < 256) && decide (monitors < u16) && decide (sensors < 2 ^ 37)
  | .tapInstructionUpdate _ => true

end Sys2Proof
end

