-- ==== Sys2Proof/Certificates/Slice0/Obligations.lean ====
section
/-! DEFINITION. The statements for the provers: one command or family of commands a clause, what each answers and what
it leaves, then what every step keeps. -/

open Sys2Proof Sys2Proof.Machine

/-- A rising PWROK with the rails in range starts a power-on reset with the strap sampled; a falling one holds the
device in reset and clears the PWRFAIL_N, FAULT_N and fail-silence latches; the always-on rails rising drive the
Handle outputs low and, 1 ms later, the responder is ready; the rails falling clear the trip latch and the cause; a
warm reset's release runs the first second again, keeping the side and the sideband's mode; a 1 us low on PWRFAIL_N
latches and stops, a shorter than 200 ns one is ignored; the front ends stop and Coil enters retention with its
accepted lines persisted and all fast activity stopped. Each clause gives the whole next state. -/
def Obligations.PowerOnResetAndRailsCommands : Prop :=
  (∀ (s : State) (sideB low : Bool), s.pins.pwrok = false → s.pins.aonInRange = true → 
    exec (.pwrokRise sideB low) s = .next { State.reset with
      pending := s.pending, out := s.out, free := s.free
      pins := { s.pins with ospiReset := true, pwrok := true, tap := .bypass }
      aon := { s.aon with cause := { s.aon.cause with thisBoot := false }, side := sideB, responder := true }
      boot := { pwrfailLatched := low, bootStopped := low || s.aon.trip, fastStopped := low || s.aon.trip }
      nv := survive s.nv, hdl := { epoch := s.nv.epoch } }) ∧
  (∀ (s : State), s.pins.pwrok = true → 
    exec .pwrokFall s = .next { State.reset with
      pending := s.pending, out := s.out, free := s.free
      pins := { s.pins with ospiReset := true, pwrok := false, faultN := false, tap := .bypass }
      aon := { s.aon with cause := { s.aon.cause with thisBoot := false }, faultLatch := false }
      boot := { bootStopped := true, fastStopped := true, serviceEver := s.boot.serviceEver }, brd := { State.reset.brd with udsOpen := false }
      nv := survive s.nv, hdl := { epoch := s.nv.epoch } }) ∧
  (∀ (s : State), s.pins.aonInRange = false → 
    exec .aonRailsUp s = .next { s with
      pins.aonInRange := true, pins.thermtrip := s.aon.trip, pins.faultN := s.aon.faultLatch, pins.alertN := false
      hdl.holdOut := false, hdl.beatOut := false }) ∧
  (∀ (s : State), s.pins.aonInRange = true → 
    exec .aonResponderReady s = .next { s with aon.responder := true }) ∧
  (∀ (s : State), 
    exec .aonRailsDown s = .next { State.reset with
      pending := s.pending, out := s.out, free := s.free
      pins := { aonInRange := false, pwrok := false, ospiReset := true, holdIn := s.pins.holdIn }
      aon := { side := s.aon.side, responder := false }
      boot := { bootStopped := true, fastStopped := true, serviceEver := s.boot.serviceEver }, brd := { State.reset.brd with udsOpen := false }
      nv := survive s.nv, hdl := { epoch := s.nv.epoch } }) ∧
  (∀ (s : State), s.boot.warmPending = true → s.saf.failSilent = false → s.boot.pwrfailLatched = false → 
    exec .warmResetRelease s = .next { State.reset with
      pending := s.pending, out := s.out, free := s.free
      pins := { s.pins with ospiReset := true, pwrok := true, tap := .bypass }
      aon := { s.aon with cause := { s.aon.cause with thisBoot := false } }
      boot := { warm := true, serviceEver := s.boot.serviceEver, i3c := s.boot.i3c, i3cAddr := s.boot.i3cAddr, bmcEid := s.boot.bmcEid }
      nv := survive s.nv, hdl := { epoch := s.nv.epoch } }) ∧
  (∀ (s : State) (ns : Nat), s.pins.pwrok = true → s.boot.pwrfailLatched = false → 1000 ≤ ns → 
    exec (.pwrfailRecognised ns) s = .next { s with boot.pwrfailLatched := true, boot.stopping := true, boot.bootStopped := true }) ∧
  (∀ (s : State) (ns : Nat), ns < 200 → 
    exec (.pwrfailRecognised ns) s = .next s) ∧
  (∀ (s : State), s.boot.stopping = true → 
    exec .frontEndsStop s = .next { s with boot.frontEndsStopped := true, col.accepting := false }) ∧
  (∀ (s : State), s.boot.stopping = true → s.boot.frontEndsStopped = true → 
    exec .coilRetentionEnter s = .next { s with
      nv.persisted := s.nv.nextJseq - 1, nv.mirrorPersisted := lastMirror s, nv.accept := []
      hdl.linkUp := false
      hfe.subs := s.hfe.subs.map fun p => { p with linkUp := false }
      stk.ports := s.stk.ports.map fun p => if p.link = 3 ∨ p.link = 4 then { p with link := 5 } else p
      boot.retention := true, boot.fastStopped := true, boot.service := false, wvr.running := false })

/-- With PWROK high: a lost reference moves the tick to the always-on clock and, before data service has started in this
boot, halts a start-up; once it has started it is a fail-silent decision of class 3, code 0. A reference that is not
good moves the tick to the always-on clock; a good one brings it back and resumes a halted start-up. While start-up
goes on, a PLL that runs and locks sets its bit of CLK_PLL_STS; one that loses lock clears it, and once data service
has started in this boot the loss is class 3. -/
def Obligations.ClockAndPllCommands : Prop :=
  (∀ (s : State), s.pins.pwrok = true → s.boot.served = false → 
    exec .refclkLost s = .next { s with boot.refOk := false, boot.aonTick := true, boot.halted := true }) ∧
  (∀ (s : State), s.pins.pwrok = true → s.boot.served = true → 
    exec .refclkLost s = .next (failSilent 3 0 { s with boot.refOk := false, boot.aonTick := true })) ∧
  (∀ (s : State), s.pins.pwrok = true → 
    exec .refclkNotGood s = .next { s with boot.refOk := false, boot.aonTick := true }) ∧
  (∀ (s : State), s.pins.pwrok = true → 
    exec .refclkGood s = .next { s with boot.refOk := true, boot.aonTick := false, boot.halted := false }) ∧
  (∀ (s : State) (k : Nat), s.boot.fastStopped = false → starting s = true → k < 8 → (s.pwr.doze = false ∨ s.pwr.waking = true ∨ 4 ≤ k) → 
    exec (.pllLocked k) s = .next { s with boot.pll := setBit s.boot.pll k }) ∧
  (∀ (s : State) (k : Nat), s.boot.fastStopped = false → k < 8 → (s.pwr.doze = false ∨ 4 ≤ k) → s.boot.served = false → 
    exec (.pllLockLost k) s = .next { s with boot.pll := clearBit s.boot.pll k }) ∧
  (∀ (s : State) (k : Nat), s.boot.fastStopped = false → k < 8 → (s.pwr.doze = false ∨ 4 ≤ k) → s.boot.served = true → 
    exec (.pllLockLost k) s = .next (failSilent 3 0 { s with boot.pll := clearBit s.boot.pll k }))

/-- While start-up goes on (PWROK high, not held by a latched fall or trip, not halted, no warm reset pending):
OSPI_RESET_N is released, ROM reads and takes the valid directory copy; the sideband answers early; fuses load once,
deriving from the UDS the device root wrapping key and Coil's key and drawing the wrapping key of the connection
contexts; once AOC and MGT run, the management firmware runs, ROM's layer ends, the UDS read paths close and the
DeviceID certificate is kept only if its hash is the fused one; full sideband service follows; the Hamper is
trained; the PLEM function becomes ready; C0 and C1 train; a configuration request on a linked port is answered with
retry status until the PLEM function is ready, then with the port's functions. -/
def Obligations.StartUpMilestones : Prop :=
  (∀ (s : State), starting s = true → 
    exec .ospiResetRelease s = .next { s with pins.ospiReset := false, boot.romReading := true, nv.flash := loadDir s.nv.flash }) ∧
  (∀ (s : State), s.pins.pwrok = true → s.boot.sbEarly = false → 
    exec .sidebandEarlyService s = .next { s with boot.sbEarly := true }) ∧
  (∀ (s : State), starting s = true → s.boot.romReading = true → s.boot.fusesLoaded = false → s.brd.udsOpen = true → 
    exec .fusesLoaded s = .next (hamLifeCheck { s with
      boot.fusesLoaded := true, boot.borderId := true
      cip.drwk := (Config.hmac384 (udsOf s) [0x43, 0x56, 0x44, 0x52, 0x57, 0x4B]).take 32
      col.key := coilKey (udsOf s), col.xtsOk := true
      rma.wrapKey := freeBytes 32 s, free := s.free + 32 })) ∧
  (∀ (s : State) (a m : Nat), starting s = true → s.boot.fusesLoaded = true → s.fw.running[0]? = some (some a) → s.fw.running[1]? = some (some m) → s.brd.udsOpen = true → 
    exec .mgtFirmwareRunning s = .next { s with
      boot.mgtRunning := true, boot.flashOctal := true, saf.cfgScrub := true
      brd.cdi1 := cdi1 s, brd.fwIdCert := newFwIdCert s, brd.udsOpen := false
      brd.devIdCert := if Config.sha384 (flashDevIdCert s) = s.nv.fuses.devidCertHash then flashDevIdCert s else [] }) ∧
  (∀ (s : State), starting s = true → s.boot.mgtRunning = true → 
    exec .sidebandFullService s = .next { s with boot.sbFull := true, boot.sbEarly := true }) ∧
  (∀ (s : State), starting s = true → 
    exec .hamperTrained s = .next { s with boot.hamperReady := true, saf.hamScrub := true }) ∧
  (∀ (s : State), starting s = true → s.boot.mgtRunning = true → s.boot.hamperReady = true → s.brd.counterDone = true → 
    exec .plemFunctionReady s = .next { s with boot.plemReady := true }) ∧
  (∀ (s : State), starting s = true → 
    exec (.pcieLinkTrainStart 0) s = .next { s with boot.linkUpC0 := true, pins.perstC0 := false } ∧
      exec (.pcieLinkTrainStart 1) s = .next { s with boot.linkUpC1 := true, pins.perstC1 := false }) ∧
  (∀ (s : State), s.boot.fastStopped = false → s.boot.linkUpC0 = true → s.boot.plemReady = false → 
    exec (.pcieConfigRequest 0) s = .next (emit (.cfgAnswer 0 true) s)) ∧
  (∀ (s : State), s.boot.fastStopped = false → s.boot.linkUpC1 = true → s.boot.plemReady = false → 
    exec (.pcieConfigRequest 1) s = .next (emit (.cfgAnswer 1 true) s)) ∧
  (∀ (s : State), s.boot.fastStopped = false → s.boot.linkUpC0 = true → s.boot.plemReady = true → 
    exec (.pcieConfigRequest 0) s = .next (emit (.cfgFunction 0 1 0x010802 16384 2048 false)
      (emit (.cfgFunction 0 0 0x088000 2097152 64 false) (emit (.cfgAnswer 0 false) s)))) ∧
  (∀ (s : State), s.boot.fastStopped = false → s.boot.linkUpC1 = true → s.boot.plemReady = true → 
    exec (.pcieConfigRequest 1) s = .next (emit (.cfgFunction 1 0 0x010802 16384 2048 false)
      (emit (.cfgAnswer 1 false) s)))

/-- The next wave takes exactly ports 8w to 8w + 7 to training; its end marks ports with no receiver absent and detected
ones for retry; the catch-up wave trains again the first 8 idle retry ports; the peer link trains while it is down;
a monitor test in which every monitor fires sets monitor_ok, and one in which a monitor does not fire is class 0x0D. -/
def Obligations.WavesAndMonitorTest : Prop :=
  (∀ (s : State) (w : Nat), starting s = true → s.saf.failSilent = false → w = s.boot.wavesBegun → w < 8 → 
    exec (.stakeWaveStart w) s = .next { s with
      boot.wavesBegun := w + 1, stk.ports := s.stk.ports.map fun p => if p.num / 8 = w then { p with link := 2, wave := w } else p }) ∧
  (∀ (s : State) (w rx : Nat), s.boot.fastStopped = false → s.saf.failSilent = false → starting s = true → w < s.boot.wavesBegun → bit s.boot.wavesDone w = false → 
    exec (.stakeWaveEnd w rx) s = .next { s with
      boot.wavesDone := setBit s.boot.wavesDone w
      stk.ports := s.stk.ports.map fun p => if p.num / 8 = w ∧ p.link = 2 then
        (if bit rx p.num then { p with link := 0, retry := true } else { p with link := 0, absent := true }) else p }) ∧
  (∀ (s : State), starting s = true → s.saf.failSilent = false → 
    exec .stakeCatchupWave s = .next { s with stk.ports := s.stk.ports.map fun p =>
      if (((s.stk.ports.filter fun p => p.retry && p.link == 0).map (·.num)).take 8).contains p.num then { p with link := 2 } else p }) ∧
  (∀ (s : State), s.boot.fastStopped = false → s.saf.failSilent = false → starting s = true → s.hdl.linkUp = false → pidVal s 0x0D11 = 0 → 
    exec .peerLinkTrainAttempt s = .next { s with hdl.training := true }) ∧
  (∀ (s : State), s.boot.fastStopped = false → s.boot.recSealed = false → starting s = true → 
    exec (.monitorSelfTest 0) s = .next { s with saf.monitorTested := true, saf.monitorOk := true }) ∧
  (∀ (s : State) (m : Nat), s.boot.fastStopped = false → s.boot.recSealed = false → starting s = true → m ≠ 0 → 
    exec (.monitorSelfTest m) s = .next (failSilent 0x0D 0 { s with saf.monitorTested := true, saf.monitorOk := false }))

/-- An awake tile gates; a gated one wakes on a post; a post to a powered-off tile queues its group at the rouser; a
group whose tiles are all gated powers off when auto-off is set; the rouser powers on the earliest waiting group;
its restoration wakes its tiles; a doorbell in Doze starts restoration, whose end posts DEVICE_DOZE's status and
leaves every tile awake, the four fast PLLs running and Coil accepting again. Of the tiles and groups, nothing
happens once fast activity has stopped, in fail-silence or in Doze. Nothing but the named fields changes. -/
def Obligations.TilesGroupsAndDoze : Prop :=
  (∀ (s : State) (k : Nat), s.boot.fastStopped = false → s.saf.failSilent = false → s.pwr.doze = false → k < 256 → tileState s k = 0 → 
    exec (.tileGate k) s = .next { s with pwr.tiles := updAt k (fun _ => 1) s.pwr.tiles }) ∧
  (∀ (s : State) (k : Nat), s.boot.fastStopped = false → s.saf.failSilent = false → s.pwr.doze = false → k < 256 → tileState s k = 1 → 
    exec (.tileWake k) s = .next { s with pwr.tiles := updAt k (fun _ => 0) s.pwr.tiles }) ∧
  (∀ (s : State) (k : Nat), s.boot.fastStopped = false → s.saf.failSilent = false → s.pwr.doze = false → k < 256 → tileState s k = 2 → s.pwr.wakeQueue = [] → s.pwr.restoring = [] → 
    exec (.tileWake k) s = .next { s with pwr.wakeQueue := [(s.now, Config.groupOf k)] }) ∧
  (∀ (s : State) (g : Nat), s.boot.fastStopped = false → s.saf.failSilent = false → s.pwr.doze = false → g < 24 → pidVal s 0x0211 ≠ 0 → bit s.pwr.groupOff g = false → (s.pwr.tiles.zipIdx.all fun e => e.1 == 1) = true → 
    exec (.groupAutoOff g) s = .next { s with
      pwr.groupOff := setBit s.pwr.groupOff g, pwr.saved := insertNat g s.pwr.saved
      pwr.tiles := s.pwr.tiles.zipIdx.map fun e => if Config.groupOf e.2 = g then 2 else e.1 }) ∧
  (∀ (s : State) (e : Nat × Nat), s.boot.fastStopped = false → s.saf.failSilent = false → s.pwr.doze = false → nextGroup s.pwr.wakeQueue = some e → 
    exec .groupPowerOn s = .next { s with
      pwr.wakeQueue := s.pwr.wakeQueue.erase e, pwr.restoring := s.pwr.restoring ++ [e.2]
      pwr.groupOff := clearBit s.pwr.groupOff e.2, pwr.lastPowerOn := some s.now }) ∧
  (∀ (s : State) (g : Nat), s.boot.fastStopped = false → s.saf.failSilent = false → s.pwr.doze = false → s.pwr.restoring.contains g = true → 
    exec (.groupRestoreComplete g) s = .next { s with
      pwr.restoring := s.pwr.restoring.erase g, pwr.saved := s.pwr.saved.erase g
      pwr.tiles := s.pwr.tiles.zipIdx.map fun e => if Config.groupOf e.2 = g ∧ e.1 = 2 then 0 else e.1 }) ∧
  (∀ (s : State), s.boot.fastStopped = false → s.pwr.doze = true → 
    exec .dozeWake s = .next { s with pwr.waking := true }) ∧
  (∀ (s : State), s.boot.fastStopped = false → s.pwr.doze = true → s.pwr.waking = true → 
    exec .dozeExitComplete s = .next (finishDeferred opDeviceDoze 0 false (evrFlush (resumeLoops { s with
      boot.pll := s.boot.pll / 16 * 16 + 15, col.accepting := !s.saf.failSilent && !s.boot.frontEndsStopped
      pwr.doze := false, pwr.waking := false, pwr.tiles := s.pwr.tiles.map (fun _ => 0), pwr.groupOff := 0
      pwr.restoring := [], pwr.wakeQueue := [], pwr.saved := [] }))))

/-- While the target answers (over SMBus outside I3C mode; MCTP in I3C mode once it has a dynamic address): block reads
0x00 to 0x03 send the identity, the hottest reading, AON_BOOT_STS and the cause, and change no register; another
command is answered 0x04 before full service; 35 ms of a low clock end a transaction and less than 25 ms do not; the
first broadcast enters I3C mode, ENTDAA and SETDASA from 0x4D assign the dynamic address, RSTDAA leaves I3C mode;
Set and Get Endpoint ID, the version and type messages are answered, another control message ERROR_NOT_READY before
full service. The identity text is the model's layout (log 18), the MCTP code values the model's (log 19). Loading
EXTEST, EXTEST_PULSE, EXTEST_TRAIN or SAMPLE/PRELOAD is accepted until data service has started for the first time
since PWROK and is treated as BYPASS after; IDCODE and BYPASS are always accepted; any other value is BYPASS. Only
the port's instruction changes. -/
def Obligations.SidebandEarlyAnswers : Prop :=
  (∀ (s : State), smbusAnswers s = true → s.boot.fusesLoaded = true → 
    exec .smbusReadIdentity s = .next (emit (.smbus (identityText ++ leBytes 8 s.nv.fuses.dieSerial)) s)) ∧
  (∀ (s : State) (h : Int × Nat), smbusAnswers s = true → hottest s = some h → 
    exec .smbusReadTemperature s = .next (emit (.smbus (leBytes 2 (signed 16 h.1))) s)) ∧
  (∀ (s : State), smbusAnswers s = true → mctpAnswers s = true → 
    exec .smbusReadBootStatus s = .next (emit (.smbus (leBytes 4 (aonBootSts s))) s) ∧
      exec .smbusReadCause s = .next (emit (.smbus (leBytes 4 (safCause s) ++ leBytes 8 s.aon.cause.ns)) s) ∧
      exec .getEndpointId s = .next (sendMctp (.mctp 2 0 [BitVec.ofNat 8 s.boot.bmcEid]) s) ∧
      exec .getMessageTypeSupport s = .next (sendMctp (.mctp 5 0 [0x05, 0x06, 0x7E]) s)) ∧
  (∀ (s : State) (v : Nat), mctpAnswers s = true → 
    exec (.setEndpointId v) s = .next (sendMctp (.mctp 1 0 [BitVec.ofNat 8 v]) { s with boot.bmcEid := v }) ∧
      exec (.getMctpVersionSupport v) s = .next (drewFree (sendMctp (.mctp 4 0 (freeBytes 1 s)) s))) ∧
  (∀ (s : State) (c : Nat), smbusAnswers s = true → mctpAnswers s = true → fullService s = false → 
    exec (.smbusOtherCommand c) s = .next (emit (.smbus [0x04]) s) ∧
      exec (.mctpOtherControl c) s = .next (sendMctp (.mctp c 0x04 []) s)) ∧
  (∀ (s : State) (ms : Nat), s.boot.i3c = false → 35 ≤ ms → 
    exec (.smbusClockLowTimeout ms) s = .next (emit .smbusTimeout s)) ∧
  (∀ (s : State), s.pins.pwrok = true → 
    exec .i3cFirstBroadcast s = .next { s with boot.i3c := true }) ∧
  (∀ (s : State) (a : Nat), s.boot.i3c = true → s.boot.i3cAddr = 0 → 
    exec (.entdaa a) s = .next { s with boot.i3cAddr := a } ∧ exec (.setdasa 0x4D a) s = .next { s with boot.i3cAddr := a }) ∧
  (∀ (s : State), 
    exec .rstdaa s = .next { s with boot.i3c := false, boot.i3cAddr := 0 }) ∧
  (∀ (s : State), 
    exec (.tapInstructionUpdate .idcode) s = .next (emit (.tap .idcode) { s with pins.tap := .idcode })) ∧
  (∀ (s : State), 
    exec (.tapInstructionUpdate .bypass) s = .next (emit (.tap .bypass) { s with pins.tap := .bypass })) ∧
  (∀ (s : State) (k : Nat), 
    exec (.tapInstructionUpdate (.other k)) s = .next (emit (.tap .bypass) { s with pins.tap := .bypass })) ∧
  (∀ (s : State) (i : TapInstr), (i = .extest ∨ i = .extestPulse ∨ i = .extestTrain ∨ i = .samplePreload) → s.boot.serviceEver = false → 
    exec (.tapInstructionUpdate i) s = .next (emit (.tap i) { s with pins.tap := i })) ∧
  (∀ (s : State) (i : TapInstr), (i = .extest ∨ i = .extestPulse ∨ i = .extestTrain ∨ i = .samplePreload) → s.boot.serviceEver = true → 
    exec (.tapInstructionUpdate i) s = .next (emit (.tap .bypass) { s with pins.tap := .bypass }))

/-- A started unaudited command of these opcodes completes with OK.DONE, its output at its buffer and its result, and
changes nothing else but what is named: SYS_IDENTIFY gives the die serial number (log 22), GET_NONCE writes 48 free
bytes and binds them to the ring with the time, replacing an earlier nonce, SYS_STATUS gives a free value (log 20),
AUDIT_READ the entries from the first asked for on and their count, BOOT_RECORD_READ the 8,192 bytes of the record,
ATTEST_QUOTE of kind 1, once the Alias key is derived and before the record is sealed, the signed quote of the boot
counter, a zero record hash (the model's choice, log 150), the configuration digest and the nonce. -/
def Obligations.SystemReadsAnswer : Prop :=
  (∀ (s : State) (ring seq : Nat) (c : Cmd), s.boot.fastStopped = false → opCmd s ring seq opSysIdentify = some c → 
    exec (.sysIdentify ring seq) s = .next (deliver c (statusOf c 0 0 (s.nv.fuses.dieSerial) (([] : List Byte) != []) (s)) (pk c 24 8) ([]) (s))) ∧
  (∀ (s : State) (ring seq : Nat) (c : Cmd), s.boot.fastStopped = false → opCmd s ring seq opGetNonce = some c → 
    exec (.getNonce ring seq) s = .next (completePlain c { bytes := freeBytes 48 s } (pk c 24 8)
      (updRing c.ring (fun r => { r with nonce := some (freeBytes 48 s, s.now) }) { s with free := s.free + 48, cip.generates := s.cip.generates + 1 }))) ∧
  (∀ (s : State) (ring seq : Nat) (c : Cmd), s.boot.fastStopped = false → opCmd s ring seq opSysStatus = some c → 
    exec (.sysStatus ring seq) s = .next (completePlain c { result := (Config.freeValue s.free).toNat } (pk c 24 8) { s with free := s.free + 1 })) ∧
  (∀ (s : State) (ring seq : Nat) (c : Cmd), s.boot.fastStopped = false → opCmd s ring seq opAuditRead = some c → pk c 24 8 < s.nv.chain.length → s.nv.chain.length ≤ pk c 24 8 + auditCap → 
    exec (.auditRead ring seq) s = .next (completePlain c
      { result := ((s.nv.chain.zipIdx.drop (pk c 24 8)).take (pk c 32 4)).length
        bytes := (((s.nv.chain.zipIdx.drop (pk c 24 8)).take (pk c 32 4)).map fun e => entryBytes e.1 e.2).flatten } (pk c 36 8) s)) ∧
  (∀ (s : State) (ring seq : Nat) (c : Cmd) (r : BootRecord), s.boot.fastStopped = false → opCmd s ring seq opBootRecordRead = some c → recordOf s (pk c 24 8) = some r → 
    exec (.bootRecordRead ring seq) s = .next (completePlain c { bytes := recordBytes r } (pk c 32 8) s)) ∧
  (∀ (s : State) (ring seq : Nat) (c : Cmd), s.boot.fastStopped = false → opCmd s ring seq opAttestQuote = some c → pk c 24 1 = 1 → s.boot.recSealed = false → s.brd.aliasReady = true → 
    exec (.attestQuote ring seq) s = .next (completePlain c { bytes :=
      (let body := [0x02] ++ zeros 7 ++ leBytes 8 s.nv.bootCounter ++ zeros 48 ++ padTo 48 s.brd.cfgDigest ++ padTo 32 c.block;
      body ++ padTo 96 (Config.signEcdsa (aliasKey s) body)) } (pk c 32 8) s))

/-- Each of AUDIT_DRAIN, AUDIT_SEAL, BOOT_RECORD_DRAIN, OWNER_ENROLL, CONFIG_SEAL and SET_TIME, once started and with
the audit port empty, is decided and taken by the port. The effects after the entry: a drain moves the drain mark
past the entry, an enrolment burns the hash of the key given, a seal sets cfg_sealed and the digest, each of them
nothing else. -/
def Obligations.BorderRecordCommands : Prop :=
  (∀ (s : State) (ring seq : Nat) (c : Cmd) (e : AuditEntry), s.boot.fastStopped = false → opCmd s ring seq opAuditDrain = some c → s.brd.port = [] → s.nv.chain[pk c 24 8]? = some e → s.nv.drain ≤ pk c 24 8 → Config.sha384 (entryBytes e (pk c 24 8)) = c.block.take 48 → 
    exec (.auditDrain ring seq) s = .next (markTaken c { s with brd.port := [.command c { nums := [pk c 24 8] }] })) ∧
  (∀ (s : State) (ring seq : Nat) (c : Cmd), s.boot.fastStopped = false → opCmd s ring seq opAuditSeal = some c → s.brd.port = [] → 
    exec (.auditSeal ring seq) s = .next (markTaken c { s with brd.port := [.command c { }] })) ∧
  (∀ (s : State) (ring seq : Nat) (c : Cmd) (r : BootRecord), s.boot.fastStopped = false → opCmd s ring seq opBootRecordDrain = some c → s.brd.port = [] → s.nv.recDrained < pk c 24 8 → recordOf s (pk c 24 8) = some r → Config.sha384 (recordBytes r) = c.block.take 48 → 
    exec (.bootRecordDrain ring seq) s = .next (markTaken c { s with brd.port := [.command c { nums := [pk c 24 8] }] })) ∧
  (∀ (s : State) (ring seq : Nat) (c : Cmd), s.boot.fastStopped = false → opCmd s ring seq opOwnerEnroll = some c → s.brd.port = [] → owned s = false → 
    exec (.ownerEnroll ring seq) s = .next (markTaken c { s with brd.port := [.command c { bytes := Config.sha384 c.block }] })) ∧
  (∀ (s : State) (ring seq : Nat) (c : Cmd), s.boot.fastStopped = false → opCmd s ring seq opConfigSeal = some c → s.brd.port = [] → 
    exec (.configSeal ring seq) s = .next (markTaken c { s with brd.port := [.command c { result := leNat ((configDigest s).take 8) }] })) ∧
  (∀ (s : State) (ring seq : Nat) (c : Cmd), s.boot.fastStopped = false → opCmd s ring seq opSetTime = some c → s.brd.port = [] → pidVal s 0x0102 ≠ 1 → 
    exec (.setTime ring seq) s = .next (markTaken c { s with brd.port := [.command c { result := wallNow s }] })) ∧
  (∀ (s : State) (c : Cmd) (d : Decision) (q : Nat), c.opcode = opAuditDrain → d.nums = [q] → aboveNear { s with nv.drain := q + 1 } (undrained { s with nv.drain := q + 1 }) = true → 
    applyCommand c d s = { s with nv.drain := q + 1 }) ∧
  (∀ (s : State) (c : Cmd) (d : Decision), c.opcode = opOwnerEnroll → owned s = false → 
    applyCommand c d s = { s with nv.fuses.ownerRoot := padTo 48 d.bytes }) ∧
  (∀ (s : State) (c : Cmd) (d : Decision), c.opcode = opConfigSeal → 
    applyCommand c d s = { s with boot.cfgSealed := true, brd.cfgDigest := configDigest s })

/-- Enabling a closed ring with a legal size_log2 of 4 to 12 starts it empty at phase 1 with its session gone and its
nonce left as it was; C0's link must be up; an illegal size or a size changed while enabled sets only cfg_err;
clearing enable closes the ring. A tail or head value inside the ring is taken, one outside it sets only db_err; a
doorbell in Doze also wakes the device; with nothing held a head value posts nothing. While the fast domains run: a
failed or overdue fetch over C0 of an enabled ring closes it, sets fetch_err and counts code 0x020; a nonce expires;
an idle session ends where a timeout is set; a PLEM message over C0 or outside a secured session is answered
AUTH.ORIGIN, before full service ORD.NOTREADY; inside one it is taken on its ring, behind those that wait there.
Closing a ring ends its session, disables it, empties what it held and discards the statuses of the commands taken
from it. -/
def Obligations.RingRegistersAndDoorbells : Prop :=
  (∀ (s : State) (n : Nat) (v : Word), s.boot.fastStopped = false → n < 60 → s.boot.linkUpC0 = true → (ringOf s n).enable = false → bit v.toNat 31 = true → 4 ≤ field v.toNat 0 4 → field v.toNat 0 4 ≤ 12 → 
    exec (.plmRingCfgWrite n v) s = .next (updRing n (fun r => { r with
      enable := true, sqHead := 0, sqTail := 0, cqTail := 0, cqHead := 0, phase := true, held := [], seq := 0, session := 0 })
      (updRing n (fun r => { r with irqEn := bit v.toNat 30, sizeLog2 := field v.toNat 0 4 }) s))) ∧
  (∀ (s : State) (n : Nat) (v : Word), s.boot.fastStopped = false → n < 60 → s.boot.linkUpC0 = true → (ringOf s n).enable = false → bit v.toNat 31 = true → 12 < field v.toNat 0 4 → 
    exec (.plmRingCfgWrite n v) s = .next (updRing n (fun r => { r with cfgErr := true })
      (updRing n (fun r => { r with irqEn := bit v.toNat 30, sizeLog2 := field v.toNat 0 4 }) s))) ∧
  (∀ (s : State) (n : Nat) (v : Word), s.boot.fastStopped = false → n < 60 → s.boot.linkUpC0 = true → (ringOf s n).enable = true → field v.toNat 0 4 ≠ (ringOf s n).sizeLog2 → 
    exec (.plmRingCfgWrite n v) s = .next (updRing n (fun r => { r with cfgErr := true }) s)) ∧
  (∀ (s : State) (n : Nat) (v : Word), s.boot.fastStopped = false → n < 60 → s.boot.linkUpC0 = true → (ringOf s n).enable = true → field v.toNat 0 4 = (ringOf s n).sizeLog2 → bit v.toNat 31 = false → 
    exec (.plmRingCfgWrite n v) s = .next (closeRing n (updRing n (fun r => { r with irqEn := bit v.toNat 30 }) s))) ∧
  (∀ (s : State) (n : Nat) (v : Word), s.boot.fastStopped = false → n < 60 → s.boot.linkUpC0 = true → s.pwr.doze = false → field v.toNat 0 12 < 2 ^ (ringOf s n).sizeLog2 → 
    exec (.plmRsqTailDoorbell n v) s = .next (updRing n (fun r => { r with sqTail := field v.toNat 0 12 }) s)) ∧
  (∀ (s : State) (n : Nat) (v : Word), s.boot.fastStopped = false → n < 60 → s.boot.linkUpC0 = true → s.pwr.doze = false → 2 ^ (ringOf s n).sizeLog2 ≤ field v.toNat 0 12 → 
    exec (.plmRsqTailDoorbell n v) s = .next (updRing n (fun r => { r with dbErr := true }) s) ∧
      exec (.plmRcqHeadDoorbell n v) s = .next (updRing n (fun r => { r with dbErr := true }) s)) ∧
  (∀ (s : State) (n : Nat) (v : Word), s.boot.fastStopped = false → n < 60 → s.boot.linkUpC0 = true → s.pwr.doze = true → field v.toNat 0 12 < 2 ^ (ringOf s n).sizeLog2 → 
    exec (.plmRsqTailDoorbell n v) s = .next (updRing n (fun r => { r with sqTail := field v.toNat 0 12 }) { s with pwr.waking := true })) ∧
  (∀ (s : State) (n : Nat) (v : Word), s.boot.fastStopped = false → n < 60 → s.boot.linkUpC0 = true → n < s.plem.rings.length → s.pwr.doze = false → field v.toNat 0 12 < 2 ^ (ringOf s n).sizeLog2 → (ringOf s n).held = [] → 
    exec (.plmRcqHeadDoorbell n v) s = .next (updRing n (fun r => { r with cqHead := field v.toNat 0 12 }) s)) ∧
  (∀ (s : State) (n : Nat), s.boot.fastStopped = false → n < 60 → (ringOf s n).enable = true → 
    exec (.c0FetchFailure n) s = .next (countEvent 0x020 0 (updRing n (fun r => { r with fetchErr := true }) (closeRing n s))) ∧
      exec (.c0FetchTimeout n) s = .next (countEvent 0x020 0 (updRing n (fun r => { r with fetchErr := true }) (closeRing n s)))) ∧
  (∀ (s : State) (n : Nat), s.boot.fastStopped = false → 
    exec (.nonceExpiry n) s = .next (updRing n (fun r => { r with nonce := none }) s)) ∧
  (∀ (s : State) (n : Nat), s.boot.fastStopped = false → n < 63 → pidVal s 0x0011 ≠ 0 → (ringOf s n).session ≠ 0 → 
    exec (.sessionIdleTimeout n) s = .next (endSession n s)) ∧
  (∀ (s : State) (k : Option Nat) (e : Nat) (p b : List Byte), 
    exec (.plemOverMctp true k e p b) s = .next (sendMctp (.mctpPlem stAuthOrigin 2) s)) ∧
  (∀ (s : State) (k : Option Nat) (e : Nat) (p b : List Byte), mctpAnswers s = true → fullService s = false → 
    exec (.plemOverMctp false k e p b) s = .next (sendMctp (.mctpPlem stOrdNotready (notReadyBits s)) s)) ∧
  (∀ (s : State) (e : Nat) (p b : List Byte), mctpAnswers s = true → fullService s = true → 
    exec (.plemOverMctp false none e p b) s = .next (sendMctp (.mctpPlem stAuthOrigin 2) s)) ∧
  (∀ (s : State) (k n e : Nat) (p b : List Byte), mctpAnswers s = true → fullService s = true → s.brd.spdm.any (fun x => x.1 == k && x.2.1) = true → mctpRing s k = some n → 
    exec (.plemOverMctp false (some k) e p b) s = .next (internalArrive n p b none (updRing n (fun r => { r with spdm := some k, eid := e }) s))) ∧
  (∀ (s : State) (n : Nat) (p b : List Byte) (t : Option Nat), (ringOf s n).queue = [] → internalTakes s n = true → 
    internalArrive n p b t s = takePacket n p b t s) ∧
  (∀ (s : State) (n : Nat) (p b : List Byte) (t : Option Nat), internalTakes s n = false → (ringOf s n).queue.length + 1 < ringSize n (ringOf s n) → 
    internalArrive n p b t s = updRing n (fun r => { r with queue := r.queue ++ [(p, b)] }) s) ∧
  (∀ (s : State) (n : Nat), 
    closeRing n s = (let t := dropStaging (ringOf s n).session s;
      { t with
        plem.rings := updAt n (fun r => { r with session := 0, enable := false, held := [] }) t.plem.rings
        plem.sessions := t.plem.sessions.filter (fun x => x.ring != n)
        plem.cmds := updWhere (fun c => c.ring == n) (fun c => { c with discard := true }) t.plem.cmds }))

/-- The next packet of an enabled ring with one in its submission part, below its limit in progress, is fetched over a
C0 link that is up and taken, its bytes staged in Hamper region 2; rings 60 to 62 take the oldest that waits. A
packet that no stage refuses advances the expected sequence and waits to start, its session's idle time set back,
with the session and role of its ring; one refused whose opcode is not audited posts its status (or, when audited
and the chain has room, takes an entry first). The first waiting command of a ring starts when its fence and the
ring allow, a CIPHER_OP only while fewer than PID 0x0801 of them are in progress. -/
def Obligations.PacketFetchChecksAndStart : Prop :=
  (∀ (s : State) (n : Nat) (p b : List Byte), s.boot.fastStopped = false → n < 60 → (ringOf s n).enable = true → (ringOf s n).sqHead ≠ (ringOf s n).sqTail → s.boot.linkUpC0 = true → takesNone s = false → rimStalls s (18 + n) = false → plemRuns s n = true → ringRunning s n < pidVal s 0x0010 → 
    exec (.plemPacketFetch n p b) s = .next (takePacket n p b none (stagePacket n (p ++ b)
      (updRing n (fun r => { r with sqHead := (r.sqHead + 1) % 2 ^ r.sizeLog2 }) s)))) ∧
  (∀ (s : State) (n : Nat) (e : List Byte × List Byte) (t : List (List Byte × List Byte)), s.boot.fastStopped = false → 60 ≤ n → n < 63 → (ringOf s n).queue = e :: t → internalTakes s n = true → 
    exec (.plemPacketFetch n [] []) s = .next (takePacket n e.1 e.2 (if n = 62 then some 0 else none) (updRing n (fun r => { r with queue := t }) s))) ∧
  (∀ (s : State) (n : Nat) (p b : List Byte), n < 60 → earlyStages s n (padTo 64 p) (blockCopy n (padTo 64 p) b) = none → lateStages s n (padTo 64 p) (blockCopy n (padTo 64 p) b) = none → numAt (padTo 64 p) 4 4 = (ringOf s n).seq → numAt (padTo 64 p) 0 2 ≠ opSessionOpen → 
    takePacket n p b none s = { (updRing n (fun r => { r with seq := (r.seq + 1) % 2 ^ 32 }) s) with
      plem.nextUid := s.plem.nextUid + 1
      plem.sessions := updWhere (fun x => x.ring == n && x.id == numAt (padTo 64 p) 8 4) (fun x => { x with lastUse := s.now }) s.plem.sessions
      plem.cmds := s.plem.cmds ++ [{ ring := n, seq := (ringOf s n).seq, opcode := numAt (padTo 64 p) 0 2, packet := padTo 64 p
                                     block := blockCopy n (padTo 64 p) b, session := (ringOf s n).session, role := ringRole s n
                                     uid := s.plem.nextUid, dualOk := needsDual s (numAt (padTo 64 p) 0 2) (padTo 64 p) (blockCopy n (padTo 64 p) b) }] }) ∧
  (∀ (s : State) (n : Nat) (p b : List Byte) (f : Nat × Nat × Nat) (o : OpSpec), n < 60 → earlyStages s n (padTo 64 p) (blockCopy n (padTo 64 p) b) = some f → opSpec (numAt (padTo 64 p) 0 2) = some o → o.audited = false → 
    takePacket n p b none s =
      (let c : Cmd := { ring := n, seq := numAt (padTo 64 p) 4 4, opcode := numAt (padTo 64 p) 0 2, packet := padTo 64 p, block := blockCopy n (padTo 64 p) b, session := (ringOf s n).session, role := ringRole s n, uid := s.plem.nextUid };
      let t : State := { (updRing n (fun r => { r with seq := if numAt (padTo 64 p) 4 4 == (ringOf s n).seq then (r.seq + 1) % 2 ^ 32 else r.seq }) s) with plem.nextUid := s.plem.nextUid + 1, plem.sessions := updWhere (fun x => x.ring == n && x.id == numAt (padTo 64 p) 8 4) (fun x => { x with lastUse := s.now }) s.plem.sessions };
      finishCmd c (statusOf c f.1 f.2.1 f.2.2 false t) t)) ∧
  (∀ (s : State) (n : Nat) (c : Cmd), s.boot.fastStopped = false → startable s n = some c → plemRuns s n = true → ringRunning s n < pidVal s 0x0010 → (s.plem.cmds.filter (·.running)).length < 256 → cipherRoom s c = true → cplFull n (ringOf s n) = false → (ringOf s n).held = [] → 
    exec (.plemCommandStart n) s = .next { s with plem.cmds := updWhere (fun x => x.uid == c.uid) (fun x => { x with running := true }) s.plem.cmds })

/-- In full service each request has its response: the versions 1.2 and 1.3, CTExponent 16 with the two sizes, the one
set of algorithms after the capabilities; once the Alias key is derived, slot 0's chain digest and parts, a
challenge signed by the Alias key over the chain, 32 free bytes and the nonce, the measurement of an index, chunks
of a kept response; a request with no row is UnsupportedRequest, one before full service ResponseNotReady. A
response over 4,096 bytes is kept for CHUNK_GET behind LargeResponse. Codes and order are the model's (log 23).
KEY_EXCHANGE, once the Alias key is derived, begins one of up to 4 sessions with the next identifier and answers
with its share and signature; FINISH with a good MAC establishes it; HEARTBEAT answers and KEY_UPDATE counts the
session's keys on; END_SESSION ends it, and with it the PLEM session of a ring mapped to it; a fifth session is
refused. Nothing else changes. -/
def Obligations.SpdmNegotiationAndAttestation : Prop :=
  (∀ (s : State), mctpAnswers s = true → fullService s = true → 
    exec .getVersion s = .next (sendMctp (.spdm 0x04 [0x12, 0x13]) { s with brd.spdmVersion := true })) ∧
  (∀ (s : State), mctpAnswers s = true → fullService s = true → s.brd.spdmVersion = true → 
    exec .getCapabilities s = .next (sendMctp (.spdm 0x61 ([16] ++ leBytes 4 4096 ++ leBytes 4 16384)) { s with brd.spdmCaps := true })) ∧
  (∀ (s : State), mctpAnswers s = true → fullService s = true → s.brd.spdmCaps = true → 
    exec (.negotiateAlgorithms true) s = .next (spdmRespond 0x63 spdmAlgorithms { s with brd.spdmAlgs := true }) ∧
      exec (.negotiateAlgorithms false) s = .next (sendMctp (.spdmError 0x01) s)) ∧
  (∀ (s : State), mctpAnswers s = true → fullService s = true → s.brd.spdmAlgs = true → s.brd.aliasReady = true → 
    exec .getDigests s = .next (sendMctp (.spdm 0x01 (Config.sha384 (certChain s))) s)) ∧
  (∀ (s : State) (off n : Nat), mctpAnswers s = true → fullService s = true → s.brd.spdmAlgs = true → s.brd.aliasReady = true → 
    exec (.getCertificate 0 off n) s = .next (if off < (certChain s).length then spdmRespond 0x02 (((certChain s).drop off).take n) s
      else sendMctp (.spdmError 0x01) s)) ∧
  (∀ (s : State) (nonce : List Byte), mctpAnswers s = true → fullService s = true → s.brd.spdmAlgs = true → s.brd.aliasReady = true → 
    exec (.challenge 0 nonce) s = .next (spdmRespond 0x03 (Config.sha384 (certChain s) ++ freeBytes 32 s ++
      Config.signEcdsa (aliasKey s) (Config.sha384 (certChain s) ++ freeBytes 32 s ++ nonce)) { s with free := s.free + 32 })) ∧
  (∀ (s : State) (i : Nat) (h : List Byte), mctpAnswers s = true → fullService s = true → s.brd.spdmAlgs = true → i ≠ 0xFF → measurementAt s i = some h → 
    exec (.getMeasurements i) s = .next (spdmRespond 0x60 ([BitVec.ofNat 8 i] ++ padTo 48 h) s)) ∧
  (∀ (s : State) (i : Nat), mctpAnswers s = true → fullService s = true → s.brd.spdmAlgs = true → i ≠ 0xFF → measurementAt s i = none → 
    exec (.getMeasurements i) s = .next (sendMctp (.spdmError 0x01) s)) ∧
  (∀ (s : State) (h k : Nat) (b : List Byte), mctpAnswers s = true → fullService s = true → s.brd.chunks.find? (fun c => c.1 == h) = some (h, b) → 4096 * (k + 1) < b.length → 
    exec (.chunkGet h k) s = .next (sendMctp (.spdm 0x06 ((b.drop (4096 * k)).take 4096)) s)) ∧
  (∀ (s : State) (k : Nat), mctpAnswers s = true → fullService s = true → 
    exec (.spdmUnsupportedRequest k) s = .next (sendMctp (.spdmError 0x07) s)) ∧
  (∀ (s : State) (k : Nat), mctpAnswers s = true → fullService s = false → 
    exec (.spdmUnsupportedRequest k) s = .next (sendMctp (.spdmError 0x42) s) ∧ exec .getVersion s = .next (sendMctp (.spdmError 0x42) s)) ∧
  (∀ (s : State) (code : Nat) (b : List Byte), 
    spdmRespond code b s = if b.length ≤ 4096 then sendMctp (.spdm code b) s else
      sendMctp (.spdmError 0x0F) { s with brd.chunks := s.brd.chunks ++ [(s.brd.chunks.foldl (fun m c => max m (c.1 + 1)) 0, b.take 16384)] }) ∧
  (∀ (s : State), mctpAnswers s = true → fullService s = true → s.brd.spdmAlgs = true → s.brd.aliasReady = true → s.brd.spdm.length < 4 → 
    exec (.keyExchange 0) s = .next (spdmRespond 0x64 (keyExchangeRsp s)
      { s with free := s.free + 128, brd.spdm := s.brd.spdm ++ [(s.brd.nextSpdm, false, 0)], brd.nextSpdm := s.brd.nextSpdm + 1 })) ∧
  (∀ (s : State), mctpAnswers s = true → fullService s = true → s.brd.spdmAlgs = true → s.brd.aliasReady = true → 4 ≤ s.brd.spdm.length → 
    exec (.keyExchange 0) s = .next (sendMctp (.spdmError 0x0A) s)) ∧
  (∀ (s : State) (k : Nat), mctpAnswers s = true → fullService s = true → s.brd.spdmAlgs = true → s.brd.spdm.any (fun x => x.1 == k && !x.2.1) = true → 
    exec (.finish k true) s = .next (sendMctp (.spdm 0x65 []) { s with
      brd.spdm := updWhere (fun x => x.1 == k) (fun x => (x.1, true, x.2.2)) s.brd.spdm }) ∧
      exec (.finish k false) s = .next (sendMctp (.spdmError 0x06) (dropSpdm k s))) ∧
  (∀ (s : State) (k : Nat), mctpAnswers s = true → fullService s = true → spdmUp s k = true → 
    exec (.heartbeat k) s = .next (sendMctp (.spdm 0x68 []) s) ∧
      exec (.keyUpdate k) s = .next (sendMctp (.spdm 0x69 []) { s with brd.spdm := updWhere (fun x => x.1 == k) (fun x => (x.1, x.2.1, x.2.2 + 1)) s.brd.spdm }) ∧
      exec (.endSession k) s = .next (sendMctp (.spdm 0x6C []) (dropSpdm k s))) ∧
  (∀ (s : State) (k : Nat), (ringOf s 60).spdm = none → (ringOf s 61).spdm = none → 
    dropSpdm k s = { s with brd.spdm := s.brd.spdm.filter (fun x => x.1 != k) }) ∧
  (∀ (s : State) (k : Nat), (ringOf s 60).spdm = some k → (ringOf (updRing 60 (fun r => { r with spdm := none }) (discardCmds 60 (endSession 60 s))) 61).spdm = none → 
    dropSpdm k s = { updRing 60 (fun r => { r with spdm := none }) (discardCmds 60 (endSession 60 s)) with brd.spdm := (updRing 60 (fun r => { r with spdm := none }) (discardCmds 60 (endSession 60 s))).brd.spdm.filter (fun x => x.1 != k) })

/-- With the audit port empty each started command of these opcodes is decided and the port holds it with its outcome: a
session's identifier made of its origin, ring and the next serial, which is used from then on, RES.EXHAUSTED after
the last serial, ORD.NOTREADY with the unmet conditions, OK.NOCHANGE while service runs, the mask after the change.
While the port holds an item the command waits. -/
def Obligations.SystemCommandDecisions : Prop :=
  (∀ (s : State) (ring seq : Nat) (c : Cmd), s.boot.fastStopped = false → opCmd s ring seq opSessionOpen = some c → s.brd.port = [] → s.plem.nextSerial < 2 ^ 22 → 
    exec (.sessionOpen ring seq) s = .next (markTaken c { s with
      brd.port := [.command c { result := sessionId c.ring s.plem.nextSerial }], plem.nextSerial := s.plem.nextSerial + 1 })) ∧
  (∀ (s : State) (ring seq : Nat) (c : Cmd), s.boot.fastStopped = false → opCmd s ring seq opSessionOpen = some c → s.brd.port = [] → 2 ^ 22 ≤ s.plem.nextSerial → 
    exec (.sessionOpen ring seq) s = .next (markTaken c { s with brd.port := [.command c { status := stResExhausted }] })) ∧
  (∀ (s : State) (ring seq : Nat) (c : Cmd), s.boot.fastStopped = false → opCmd s ring seq opSessionClose = some c → s.brd.port = [] → 
    exec (.sessionClose ring seq) s = .next (markTaken c { s with brd.port := [.command c {}] })) ∧
  (∀ (s : State) (ring seq : Nat) (c : Cmd), s.boot.fastStopped = false → opCmd s ring seq opServiceStart = some c → s.brd.port = [] → s.boot.service = false → notReadyBits s = 0 → starting s = true → 
    exec (.serviceStart ring seq) s = .next (markTaken c { s with brd.port := [.command c {}] })) ∧
  (∀ (s : State) (ring seq : Nat) (c : Cmd), s.boot.fastStopped = false → opCmd s ring seq opServiceStart = some c → s.brd.port = [] → s.boot.service = false → notReadyBits s ≠ 0 → 
    exec (.serviceStart ring seq) s = .next (markTaken c { s with brd.port := [.command c { status := stOrdNotready, detail := notReadyBits s }] })) ∧
  (∀ (s : State) (ring seq : Nat) (c : Cmd), s.boot.fastStopped = false → opCmd s ring seq opServiceStart = some c → s.brd.port = [] → s.boot.service = true → 
    exec (.serviceStart ring seq) s = .next (markTaken c { s with brd.port := [.command c { status := stOkNochange }] })) ∧
  (∀ (s : State) (ring seq : Nat) (c : Cmd), s.boot.fastStopped = false → opCmd s ring seq opServiceStop = some c → s.brd.port = [] → 
    exec (.serviceStop ring seq) s = .next (markTaken c { s with brd.port := [.command c {}] })) ∧
  (∀ (s : State) (ring seq : Nat) (c : Cmd), s.boot.fastStopped = false → opCmd s ring seq opPortEnable = some c → s.brd.port = [] → maskAfter s (pk c 24 4) (pk c 28 4) ≠ enabledMask s → 
    exec (.portEnable ring seq) s = .next (markTaken c { s with brd.port := [.command c { result := maskAfter s (pk c 24 4) (pk c 28 4) }] })) ∧
  (∀ (s : State) (ring seq : Nat) (c : Cmd), s.boot.fastStopped = false → opCmd s ring seq opDeviceDoze = some c → s.brd.port = [] → 
    exec (.deviceDoze ring seq) s = .next (markTaken c { s with brd.port := [.command c {}] })) ∧
  (∀ (s : State) (ring seq : Nat) (c : Cmd), s.boot.fastStopped = false → opCmd s ring seq opResetDevice = some c → s.brd.port = [] → 
    exec (.resetDevice ring seq) s = .next (markTaken c { s with brd.port := [.command c {}] })) ∧
  (∀ (s : State) (ring seq : Nat) (c : Cmd), s.boot.fastStopped = false → opCmd s ring seq opServiceStop = some c → s.brd.port ≠ [] → 
    exec (.serviceStop ring seq) s = .next s)

/-- SESSION_OPEN binds a session with the role and leaf key asked for to an unbound ring; SESSION_CLOSE ends the session
that carried it; SERVICE_START, unless start-up was stopped or the device is fail-silent, starts data service (the
peer's absence means the mirror is lost), SERVICE_STOP stops it and seals the open segments early; PORT_ENABLE
enables and idles sub-ports and drives the lanes that serve an enabled one; DEVICE_DOZE enters Doze: every tile off
with its state saved, the four fast PLLs stopped, Coil in retention; the warm reset of RESET_DEVICE takes the links
down and asserts the reset. -/
def Obligations.SystemCommandEffects : Prop :=
  (∀ (s : State) (c : Cmd) (d : Decision), c.opcode = opSessionOpen → discarded c s = false → (ringOf s c.ring).session = 0 → 
    applyCommand c d s = updRing c.ring (fun r => { r with session := d.result }) { s with
      plem.sessions := s.plem.sessions ++ [{ id := d.result, ring := c.ring, origin := ringOrigin c.ring, role := pk c 24 1
                                             leafKey := Config.leafKey (c.block.take (c.block.length - 96)), lastUse := s.now }] }) ∧
  (∀ (s : State) (c : Cmd) (d : Decision), c.opcode = opSessionClose → (ringOf s c.ring).session = c.session → 
    applyCommand c d s = endSession c.ring s) ∧
  (∀ (s : State) (c : Cmd) (d : Decision), c.opcode = opServiceStart → starting s = true → s.saf.failSilent = false → s.boot.served = true → s.hdl.paired = true → 
    applyCommand c d s = { s with boot.service := true, boot.serviceEver := true, boot.served := true }) ∧
  (∀ (s : State) (c : Cmd) (d : Decision), c.opcode = opServiceStart → starting s = true → s.saf.failSilent = false → s.boot.served = false → (raiseRequested s).hdl.paired = false → 
    applyCommand c d s = mirrorLoss { raiseRequested s with boot.service := true, boot.serviceEver := true, boot.served := true }) ∧
  (∀ (s : State) (c : Cmd) (d : Decision), c.opcode = opServiceStop → 
    applyCommand c d s = sealEarlyWhere (fun _ => true) { s with boot.service := false }) ∧
  (∀ (s : State) (c : Cmd) (d : Decision), c.opcode = opPortEnable → 
    applyCommand c d s = (let t : State := { s with hfe.subs := s.hfe.subs.zipIdx.map fun e => if bit (pk c 24 4) e.2 then (if e.1.enabled then e.1 else { enabled := true }) else if bit (pk c 28 4) e.2 then { linkDowns := satAdd 65535 e.1.linkDowns (flagAt e.1.linkUp 0) } else e.1 };
      emit (.ethLanes (ethLaneMask t)) t)) ∧
  (∀ (s : State) (c : Cmd) (d : Decision), c.opcode = opDeviceDoze → 
    applyCommand c d s = { s with
      pwr.doze := true, pwr.waking := false, pwr.tiles := s.pwr.tiles.map (fun _ => 2), pwr.groupOff := 2 ^ 24 - 1
      pwr.wakeQueue := [], pwr.restoring := [], pwr.saved := List.range 24
      boot.pll := s.boot.pll / 16 * 16, col.accepting := false })

/-- Once Coil is ready and the management firmware runs the boot counter rises by exactly one, and the Alias key follows
once CTL, WVM and SDS are measured; with the seal's conditions met and a place free the record of this boot is
sealed into its ring slot (or waits for a drain); a valid unrecorded cause takes entry 0xFF17 and recorded; a PTP
synchronisation of the set domain, transport and port sets wall time; the end of holdover loses it, counts 0x033 and
takes entry 0xFF03. -/
def Obligations.BootCounterRecordAndTime : Prop :=
  (∀ (s : State), s.boot.fastStopped = false → s.boot.coilReady = true → s.boot.mgtRunning = true → s.brd.counterDone = false → s.brd.early = [] → (measOf s 3).isSome = true → (measOf s 4).isSome = true → (measOf s 5).isSome = true → 
    exec .bootCounterIncrement s = .next { s with
      nv.bootCounter := s.nv.bootCounter + 1, brd.counterDone := true, brd.aliasReady := true, brd.early := [] }) ∧
  (∀ (s : State), s.boot.fastStopped = false → s.boot.coilReady = true → s.boot.mgtRunning = true → s.brd.counterDone = false → s.brd.early = [] → measOf s 3 = none → 
    exec .bootCounterIncrement s = .next { s with
      nv.bootCounter := s.nv.bootCounter + 1, brd.counterDone := true, brd.early := [] }) ∧
  (∀ (s : State), s.boot.fastStopped = false → sealReady s = true → slotUndrained s s.nv.bootCounter = false → 
    exec .bootRecordSeal s = .next { s with
      nv.records := s.nv.records.filter (fun x => x.counter % 65536 != s.nv.bootCounter % 65536) ++ [newRecord s], boot.recSealed := true }) ∧
  (∀ (s : State), s.boot.fastStopped = false → sealReady s = true → slotUndrained s s.nv.bootCounter = true → s.nv.pendingRec = none → 
    exec .bootRecordSeal s = .next { s with nv.pendingRec := some (newRecord s), boot.recSealed := true }) ∧
  (∀ (s : State) (r : BootRecord), s.boot.fastStopped = false → sealReady s = true → slotUndrained s s.nv.bootCounter = true → s.nv.pendingRec = some r → 
    exec .bootRecordSeal s = .next { s with brd.sealDue := true }) ∧
  (∀ (s : State), s.boot.fastStopped = false → s.aon.cause.valid = true → s.aon.cause.recorded = false → s.boot.coilReady = true → s.saf.failSilent = false → 
    exec .failSilentCauseRecord s = .next (let t := borderEvent 0xFF17 ([BitVec.ofNat 8 s.aon.cause.cls, 0] ++ leBytes 2 s.aon.cause.code ++ leBytes 8 s.aon.cause.ns ++ leBytes 8 s.aon.cause.boot ++ zeros 4) s;
      { t with aon.cause := { s.aon.cause with recorded := true } })) ∧
  (∀ (s : State) (p d t w : Nat) (o : Int), s.boot.fastStopped = false → pidVal s 0x0102 = 1 → bit (pidVal s 0x0105) p = true → d = pidVal s 0x0104 → t = pidVal s 0x0106 → 
    exec (.ptpSyncReceived p d t w o) s = .next { s with
      brd.wallValid := true, brd.wallPtp := true, brd.wallBase := w, brd.wallAt := s.now, brd.ptpOffset := o, brd.lastSync := s.now }) ∧
  (∀ (s : State), s.boot.fastStopped = false → s.brd.wallValid = true → pidVal s 0x0102 = 1 → 
    exec .ptpHoldoverExpiry s = .next (let t := countEvent 0x033 0 { s with brd.wallValid := false };
      borderEvent 0xFF03 (leBytes 8 ((t.brd.ptpOffset % (2 ^ 64 : Int)).toNat)) t))

/-- The oldest item of the port is taken alone. A refused command gets its entry and then its status; a successful one
that ends in this step gets its entry, linked to the entry before, then its effect on the chain as it then stands,
then its status carrying the entry's sequence; a command the tier does not allow is AUD.FULL with no entry;
SET_TIME's new time already holds in its entry; a park or window register write gets its kind 0x02 entry before it
takes effect, and is discarded and counted when the free count is 4,096 or less; a waiting entry is appended once
space permits, with the time of that moment if it is of this boot. -/
def Obligations.AuditPortEntryThenEffect : Prop :=
  (∀ (s : State) (c : Cmd) (d : Decision) (rest : List Held), s.boot.fastStopped = false → portRuns s = true → s.saf.mgmtHalted = false → s.brd.port = .command c d :: rest → carriedHere c = false → cmdTier { s with brd.port := rest } c = true → isSuccess d.status = false → d.started = false → 
    exec .auditEntryDurable s = .next (let t := { s with brd.port := rest };
      let t1 := appendEntry (commandEntry t c d.status d.detail (entrySession c) false) t;
      deliver c { statusOf c d.status d.detail d.result false t1 with audited := true, auditSeq := t.nv.chain.length % 2 ^ 32 } ((outputAt c).getD 0) [] t1)) ∧
  (∀ (s : State) (c : Cmd) (d : Decision) (rest : List Held), s.boot.fastStopped = false → portRuns s = true → s.saf.mgmtHalted = false → s.brd.port = .command c d :: rest → carriedHere c = false → cmdTier { s with brd.port := rest } c = true → isSuccess d.status = true → d.status ≠ stOkNochange → d.started = false → d.carried = false → commitsInCoil c.opcode = false → endsLater c d = false → c.opcode ≠ opSessionOpen → c.opcode ≠ opSetTime → c.opcode ≠ opResetDevice → crossesNear { s with brd.port := rest } = false → s.saf.failSilent = false → 
    exec .auditEntryDurable s = .next (let t : State := { s with brd.port := rest };
      let t1 := { t with nv.chain := t.nv.chain ++ [{ commandEntry t c d.status d.detail (entrySession c) false with prevHash := lastHash t }] };
      let out := outputOf c d t1;
      deliver c { statusOf c d.status d.detail d.result (out != []) t1 with audited := true, auditSeq := t.nv.chain.length % 2 ^ 32 } ((outputAt c).getD 0) out (applyCommand c d t1))) ∧
  (∀ (s : State) (c : Cmd) (d : Decision) (rest : List Held), s.boot.fastStopped = false → portRuns s = true → s.saf.mgmtHalted = false → s.brd.port = .command c d :: rest → carriedHere c = false → cmdTier { s with brd.port := rest } c = false → commitsInCoil c.opcode = false → 
    exec .auditEntryDurable s = .next (finishCmd c (statusOf c stAudFull 0 0 false { s with brd.port := rest }) { s with brd.port := rest })) ∧
  (∀ (s : State) (core : Nat) (park : Bool) (rest : List Held), s.boot.fastStopped = false → portRuns s = true → s.brd.port = .park core park :: rest → 4096 < auditFree { s with brd.port := rest } → 
    exec .auditEntryDurable s = .next (let t := { s with brd.port := rest };
      applyPark core park (appendEntry (registerEntry t (Config.parkOffset core) (flagAt (bit t.saf.parked core) 0) (flagAt park 0) 0xFFFF) t))) ∧
  (∀ (s : State) (core : Nat) (park : Bool) (rest : List Held), s.boot.fastStopped = false → portRuns s = true → s.brd.port = .park core park :: rest → auditFree { s with brd.port := rest } ≤ 4096 → 
    exec .auditEntryDurable s = .next { s with brd.port := rest, brd.regRefused := true, brd.refused := satAdd (2 ^ 32 - 1) s.brd.refused 1 }) ∧
  (∀ (s : State) (off v req n k : Nat) (rest : List Held), s.boot.fastStopped = false → portRuns s = true → s.brd.port = .register off v req :: rest → winOffset off = some (n, k) → s.boot.cfgSealed = false → winFixed { s with brd.port := rest } n = false → winBreach s.ham.win n k v = (false, false) → 4096 < auditFree { s with brd.port := rest } → 
    exec .auditEntryDurable s = .next (let t := { s with brd.port := rest };
      let t1 := appendEntry (registerEntry t off (regValue t off) v req) t; { t1 with ham.win := updAt n (winPut k v) t1.ham.win })) ∧
  (∀ (s : State) (c : Cmd) (d : Decision) (rest : List Held), s.boot.fastStopped = false → portRuns s = true → s.saf.mgmtHalted = false → s.brd.port = .command c d :: rest → carriedHere c = false → cmdTier { s with brd.port := rest } c = true → c.opcode = opSetTime → isSuccess d.status = true → d.carried = false → d.started = false → s.saf.failSilent = false → d.status ≠ stOkNochange → crossesNear { s with brd.port := rest } = false → 
    exec .auditEntryDurable s = .next (let t : State := { s with brd.port := rest, brd.wallValid := true, brd.wallPtp := false, brd.wallBase := pk c 24 8, brd.wallAt := s.now };
      let t1 := { t with nv.chain := t.nv.chain ++ [{ commandEntry t c d.status d.detail (entrySession c) false with prevHash := lastHash t }] };
      deliver c { statusOf c d.status d.detail d.result false t1 with audited := true, auditSeq := t.nv.chain.length % 2 ^ 32 } 0 [] t1)) ∧
  (∀ (s : State) (e : AuditEntry) (rest : List (AuditEntry × Option StatusPkt)), s.boot.fastStopped = false → s.nv.waitingEntries = (e, none) :: rest → 16 < auditFree s → portRuns s = true → 
    exec .waitingEntryAppend s = .next (waitedMeasurement e (waitedDeclaration e (appendEntry (restamp s e) { s with nv.waitingEntries := rest }))))

/-- Appending leaves every earlier entry, adds the entry with the SHA-384 of the entry before it (zeros for the first),
and nothing else of the chain; when the undrained count does not cross the near-full threshold no other field
changes. -/
def Obligations.AppendEntryLinksTheChain : Prop :=
  (∀ (s : State) (e : AuditEntry), crossesNear s = false → 
    appendEntry e s = { s with nv.chain := s.nv.chain ++ [{ e with prevHash := lastHash s }] }) ∧
  (∀ (s : State) (e : AuditEntry), chainLinked s.nv.chain → 
    chainLinked (s.nv.chain ++ [{ e with prevHash := lastHash s }]))

/-- GET_PARAM gives a plain PID's value, or a block PID's bytes; SET_PARAM of a value differing from the current one is
decided with the previous value, of an equal value OK.NOCHANGE, of a locked PID ORD.LOCKED; SET_PARAMS is decided
whole; their effect stores the value of a plain PID with no side effect and nothing else. -/
def Obligations.ParameterCommands : Prop :=
  (∀ (s : State) (ring seq : Nat) (c : Cmd), s.boot.fastStopped = false → opCmd s ring seq opGetParam = some c → pidWidth (pk c 24 2) ≠ some 0 → 
    exec (.getParam ring seq) s = .next (completePlain c { result := pidRead s (pk c 24 2) } (pk c 36 8) s)) ∧
  (∀ (s : State) (ring seq : Nat) (c : Cmd), s.boot.fastStopped = false → opCmd s ring seq opGetParam = some c → pidWidth (pk c 24 2) = some 0 → 
    exec (.getParam ring seq) s = .next (completePlain c { bytes := blockRead s (pk c 24 2) } (pk c 36 8) s)) ∧
  (∀ (s : State) (ring seq : Nat) (c : Cmd), s.boot.fastStopped = false → opCmd s ring seq opSetParam = some c → s.brd.port = [] → pidWidth (pk c 24 2) ≠ some 0 → pidRefusal s (pk c 24 2) (pk c 28 (pk c 26 1)) = none → pidRead s (pk c 24 2) ≠ pk c 28 (pk c 26 1) → 
    exec (.setParam ring seq) s = .next (markTaken c { s with brd.port := [.command c { result := pidRead s (pk c 24 2), nums := [pk c 24 2, pk c 28 (pk c 26 1)] }] })) ∧
  (∀ (s : State) (ring seq : Nat) (c : Cmd), s.boot.fastStopped = false → opCmd s ring seq opSetParam = some c → s.brd.port = [] → pidWidth (pk c 24 2) ≠ some 0 → pk c 24 2 ≠ 0x0420 → pidRefusal s (pk c 24 2) (pk c 28 (pk c 26 1)) = none → pidRead s (pk c 24 2) = pk c 28 (pk c 26 1) → 
    exec (.setParam ring seq) s = .next (markTaken c { s with brd.port := [.command c { status := stOkNochange, result := pidRead s (pk c 24 2) }] })) ∧
  (∀ (s : State) (ring seq : Nat) (c : Cmd), s.boot.fastStopped = false → opCmd s ring seq opSetParam = some c → s.brd.port = [] → pidWidth (pk c 24 2) ≠ some 0 → pidLocked s (pk c 24 2) = true → 
    exec (.setParam ring seq) s = .next (markTaken c { s with brd.port := [.command c { status := stOrdLocked }] })) ∧
  (∀ (s : State) (ring seq : Nat) (c : Cmd), s.boot.fastStopped = false → opCmd s ring seq opSetParams = some c → s.brd.port = [] → entriesRefusal (paramEntries c) 0 s = none → ((paramEntries c).all fun e => pidRead s e.1 == e.2 && !(e.1 == 0x0420 && s.hfe.pwrEntry.isSome)) = false → 
    exec (.setParams ring seq) s = .next (markTaken c { s with brd.port := [.command c {}] })) ∧
  (∀ (s : State) (c : Cmd) (d : Decision) (p v : Nat), c.opcode = opSetParam → powerAsked c d = none → d.nums = [p, v] → (p < 0x0300 ∨ 0x0320 ≤ p) → loopPid p = none → p ≠ 0x0210 → p ≠ 0x0900 → p ≠ 0x0B09 → p ≠ 0x0E11 → p ≠ 0x0D11 → 
    applyCommand c d s = setPid p v s) ∧
  (∀ (s : State) (c : Cmd) (d : Decision), c.opcode = opSetParams → 
    applyCommand c d s = (paramEntries c).foldl (fun s e => if e.1 = 0x0420 then s else applyPid e.1 e.2 s) s)

/-- A read answers the register's value, of a window register behind the writes the audit port has taken; an RC register
then reads zero or as it stands, a _LO read captures its _HI half, a status read takes its snapshot; a selector
write empties it. A write to an RO or RC register or to none changes nothing, a violation capture is cleared by any
write, and a malformed request is an unsupported read or nothing. Offsets are the model's transcription of the
register tables. -/
def Obligations.RegisterReadsAndWrites : Prop :=
  (∀ (s : State) (off : Nat), s.boot.fastStopped = false → off % 4 = 0 → winOffset off = none → 
    exec (.rcRegisterRead off) s = .next (readEffect off (emit (.regRead off (BitVec.ofNat 32 (readValue s off))) s)) ∧
      exec (.loRegisterRead off) s = .next (readEffect off (emit (.regRead off (BitVec.ofNat 32 (readValue s off))) s))) ∧
  (∀ (s : State) (off n k : Nat), s.boot.fastStopped = false → off % 4 = 0 → winOffset off = some (n, k) → 
    exec (.rcRegisterRead off) s = .next (readEffect off (emit (.regRead off (BitVec.ofNat 32 (readValue { s with ham.win := (portDrained s).ham.win } off))) s)) ∧
      exec (.loRegisterRead off) s = .next (readEffect off (emit (.regRead off (BitVec.ofNat 32 (readValue { s with ham.win := (portDrained s).ham.win } off))) s))) ∧
  (∀ (s : State), s.boot.fastStopped = false → s.regs.hi.find? (fun h => h.1 == 0x40004) = none → 
    exec (.rcRegisterRead 0x40004) s = .next { (emit (.regRead 0x40004 (BitVec.ofNat 32 s.brd.refused)) s) with brd.refused := 0 }) ∧
  (∀ (s : State), s.boot.fastStopped = false → s.regs.hi.find? (fun h => h.1 == 0x40018) = none → 
    exec (.loRegisterRead 0x40018) s = .next { (emit (.regRead 0x40018 (BitVec.ofNat 32 (s.nv.bootCounter % 2 ^ 32))) s) with
      regs.hi := (0x4001C, BitVec.ofNat 32 (s.nv.bootCounter / 2 ^ 32 % 2 ^ 32)) :: s.regs.hi.filter fun h => h.1 != 0x4001C }) ∧
  (∀ (s : State), s.boot.fastStopped = false → 
    exec .rlkEntryStsRead s = .next (readEffect 0x70024 (emit (.regRead 0x70024 (BitVec.ofNat 32 (readValue s 0x70024))) s)) ∧
      exec .rmaConnStsRead s = .next (readEffect 0x80034 (emit (.regRead 0x80034 (BitVec.ofNat 32 (readValue s 0x80034))) s)) ∧
      exec .cipSlotStsRead s = .next (readEffect 0xA0024 (emit (.regRead 0xA0024 (BitVec.ofNat 32 (readValue s 0xA0024))) s))) ∧
  (∀ (s : State), 
    readEffect 0x70024 s = takeRlkSnap s ∧ readEffect 0x80034 s = takeRmaSnap s ∧ readEffect 0xA0024 s = takeCipSnap s) ∧
  (∀ (s : State) (v : Word), s.boot.fastStopped = false → 
    exec (.rlkSelWrite v) s = .next { s with rlk.sel := v.toNat % 2 ^ 16, rlk.snap := {} } ∧
      exec (.rmaConnSelWrite v) s = .next { s with rma.connSel := v.toNat % 2 ^ 20, rma.snap := {} } ∧
      exec (.cipSlotSelWrite v) s = .next { s with cip.slotSel := v.toNat % 2 ^ 12, cip.countSnap := 0 }) ∧
  (∀ (s : State) (v : Word), s.boot.fastStopped = false → 
    exec (.hamViolSrcWrite v) s = .next { s with ham.viol := {} } ∧ exec (.colViolAddrWrite v) s = .next { s with col.viol := {} }) ∧
  (∀ (s : State) (off : Nat) (v : Word), s.boot.fastStopped = false → (regKind off = none ∨ regKind off = some .ro ∨ regKind off = some .rc) → 
    exec (.registerWrite off v) s = .next s) ∧
  (∀ (s : State) (v : Word), s.boot.fastStopped = false → 
    exec (.registerWrite 0x60020 v) s = .next { s with hfe.tagSel := v.toNat % 2 ^ 16 } ∧
      exec (.registerWrite 0xC0000 v) s = .next { s with ham.stsRange := s.ham.stsRange && !bit v.toNat 0, ham.stsOverlap := s.ham.stsOverlap && !bit v.toNat 1 }) ∧
  (∀ (s : State), s.boot.fastStopped = false → 
    exec (.bar0MalformedRequest true) s = .next s ∧ exec (.bar0MalformedRequest false) s = .next (emit .regUnsupported s))

/-- REG_READ completes with the register's value and the effect of a read; REG_WRITE is decided with the value before
the write, refused ORD.LOCKED for a read-only register, a sealed or fixed window entry, LEN.OVER for a window that
would breach R22; its effect writes the window or the register and nothing else. A direct write to HAM_WIN_BASE,
SIZE or ACC of an open entry joins the audit port with its requester, behind the writes already taken, and changes
nothing else; when the configuration is sealed or the entry fixed it does nothing. At the head of the port a write
that would breach R22 is discarded with no entry and sets exactly its bits of HAM_WIN_STS. -/
def Obligations.RegReadAndRegWriteCommands : Prop :=
  (∀ (s : State) (ring seq : Nat) (c : Cmd), s.boot.fastStopped = false → opCmd s ring seq opRegRead = some c → 
    exec (.regRead ring seq) s = .next (completePlain c { result := readValue s (pk c 24 4) } (pk c 24 8) (readEffect (pk c 24 4) s))) ∧
  (∀ (s : State) (ring seq : Nat) (c : Cmd), s.boot.fastStopped = false → opCmd s ring seq opRegWrite = some c → s.brd.port = [] → regKind (pk c 24 4) = some .rw → winOffset (pk c 24 4) = none → 
    exec (.regWrite ring seq) s = .next (markTaken c { s with brd.port := [.command c { result := regValue s (pk c 24 4), nums := [pk c 24 4, pk c 28 4] }] })) ∧
  (∀ (s : State) (ring seq : Nat) (c : Cmd), s.boot.fastStopped = false → opCmd s ring seq opRegWrite = some c → s.brd.port = [] → (regKind (pk c 24 4) = some .ro ∨ regKind (pk c 24 4) = some .rc) → 
    exec (.regWrite ring seq) s = .next (markTaken c { s with brd.port := [.command c { status := stOrdLocked }] })) ∧
  (∀ (s : State) (ring seq : Nat) (c : Cmd) (n r : Nat), s.boot.fastStopped = false → opCmd s ring seq opRegWrite = some c → s.brd.port = [] → regKind (pk c 24 4) = some .rwl → winOffset (pk c 24 4) = some (n, r) → s.boot.cfgSealed = true → 
    exec (.regWrite ring seq) s = .next (markTaken c { s with brd.port := [.command c { status := stOrdLocked }] })) ∧
  (∀ (s : State) (c : Cmd) (d : Decision) (off v n k : Nat), c.opcode = opRegWrite → d.nums = [off, v] → winOffset off = some (n, k) → 
    applyCommand c d s = { s with ham.win := updAt n (winPut k v) s.ham.win }) ∧
  (∀ (s : State) (c : Cmd) (d : Decision) (off v : Nat), c.opcode = opRegWrite → d.nums = [off, v] → winOffset off = none → 
    applyCommand c d s = writePlain off v s) ∧
  (∀ (s : State) (n req : Nat) (v : Word), s.boot.fastStopped = false → s.boot.cfgSealed = false → winFixed s n = false → n < 32 → 
    exec (.hamWinBaseWrite n v req) s = .next { s with brd.port := s.brd.port ++ [.register (0xC0400 + 16 * n + 0) v.toNat req] }) ∧
  (∀ (s : State) (n req : Nat) (v : Word), s.boot.fastStopped = false → s.boot.cfgSealed = false → winFixed s n = false → n < 32 → 
    exec (.hamWinSizeWrite n v req) s = .next { s with brd.port := s.brd.port ++ [.register (0xC0400 + 16 * n + 4) v.toNat req] }) ∧
  (∀ (s : State) (n req : Nat) (v : Word), s.boot.fastStopped = false → s.boot.cfgSealed = false → winFixed s n = false → n < 32 → 
    exec (.hamWinAccWrite n v req) s = .next { s with brd.port := s.brd.port ++ [.register (0xC0400 + 16 * n + 8) v.toNat req] }) ∧
  (∀ (s : State) (off v req n k : Nat) (rest : List Held), s.boot.fastStopped = false → portRuns s = true → s.brd.port = .register off v req :: rest → winOffset off = some (n, k) → s.boot.cfgSealed = false → winFixed { s with brd.port := rest } n = false → ((winBreach s.ham.win n k v).1 || (winBreach s.ham.win n k v).2) = true → 
    exec .auditEntryDurable s = .next { s with
      brd.port := rest, ham.stsRange := s.ham.stsRange || (winBreach s.ham.win n k v).1
      ham.stsOverlap := s.ham.stsOverlap || (winBreach s.ham.win n k v).2 }) ∧
  (∀ (s : State) (n req : Nat) (v : Word), s.boot.fastStopped = false → (s.boot.cfgSealed = true ∨ winFixed s n = true) → 
    exec (.hamWinBaseWrite n v req) s = .next s ∧ exec (.hamWinSizeWrite n v req) s = .next s ∧
      exec (.hamWinAccWrite n v req) s = .next s)

/-- An access that its plane's windows allow reads its bytes or writes exactly them, every other byte of the Hamper
unchanged; a denied one is captured and counted, is an error to a core, a refused descriptor to a service lane, and
fail-silence of class 0x02 to a data engine. Engines and cores act so outside fail-silence and Doze. Only a ring's
own kind of producer posts to it: with room the entry is appended, once a control core's earlier writes are
accepted; a full ring holds an engine's, and a core is told so and posts nothing; a take gives the oldest entry to
the consumer's plane and lets a held one in. C0's PLEM function writes a packet into region 2 and posts where it
stands (place and ring free values, log 140). -/
def Obligations.HamperAccessesUnderWindows : Prop :=
  (∀ (s : State) (a : Nat) (b : List Byte), s.boot.fastStopped = false → s.saf.failSilent = false → s.pwr.doze = false → winAllowsRange s.ham.win 2 true a b.length = true → 
    exec (.hamperAccess .controlCore true a b) s = .next { s with ham.mem := memWrite s.ham.mem a b }) ∧
  (∀ (s : State) (a : Nat) (b : List Byte), s.boot.fastStopped = false → winAllowsRange s.ham.win 3 false a b.length = true → 
    exec (.hamperAccess .mgmtCore false a b) s = .next (emit (.memRead (memRead s.ham.mem a b.length)) s)) ∧
  (∀ (s : State) (a : Nat) (w : Bool) (b : List Byte), s.boot.fastStopped = false → s.saf.failSilent = false → s.pwr.doze = false → winAllowsRange s.ham.win 1 w a b.length = false → 
    exec (.hamperAccess .dataEngine w a b) s = .next (failSilent 2 0x012
      (countEvent 0x012 0 { s with ham.viol := captureViol s.ham.viol 1 (a % 2 ^ 48) w }))) ∧
  (∀ (s : State) (a : Nat) (w : Bool) (b : List Byte), s.boot.fastStopped = false → s.saf.failSilent = false → s.pwr.doze = false → winAllowsRange s.ham.win 2 w a b.length = false → 
    exec (.hamperAccess .controlCore w a b) s = .next (emit .accessError
      (countEvent 0x012 0 { s with ham.viol := captureViol s.ham.viol 2 (a % 2 ^ 48) w }))) ∧
  (∀ (s : State) (n a : Nat) (w : Bool) (b : List Byte), s.boot.fastStopped = false → s.saf.failSilent = false → s.pwr.doze = false → 14 ≤ n → laneAllows s n w a b.length = false → 
    exec (.hamperAccess (.lane n) w a b) s = .next
      (countEvent 0x012 0 { s with ham.viol := captureViol s.ham.viol 3 (a % 2 ^ 48) w })) ∧
  (∀ (s : State) (a x : Nat) (b : List Byte), (x < a ∨ a + b.length ≤ x) → 
    memGet (memWrite s.ham.mem a b) x = memGet s.ham.mem x) ∧
  (∀ (s : State) (n : Nat) (b : List Byte), n < 64 → rimByCore n = false → (s.boot.fastStopped = false ∧ ((rimPlanes n).1 = 3 ∨ (s.saf.failSilent = false ∧ s.pwr.doze = false))) → (rimOf s n).entries.length < rimCap → 
    exec (.rimPost n false b) s = .next { s with
      ham.rim := updAt n (fun r => if r.entries.length < rimCap ∧ r.held = [] then { r with entries := r.entries ++ [padTo 64 b] } else { r with held := r.held ++ [(17, padTo 64 b)] }) s.ham.rim }) ∧
  (∀ (s : State) (n : Nat) (b : List Byte), n < 64 → rimByCore n = false → (s.boot.fastStopped = false ∧ ((rimPlanes n).1 = 3 ∨ (s.saf.failSilent = false ∧ s.pwr.doze = false))) → rimCap ≤ (rimOf s n).entries.length → 
    exec (.rimPost n false b) s = .next { s with
      ham.rim := updAt n (fun r => if r.entries.length < rimCap ∧ r.held = [] then { r with entries := r.entries ++ [padTo 64 b] } else { r with held := r.held ++ [(17, padTo 64 b)] }) s.ham.rim }) ∧
  (∀ (s : State) (n : Nat) (b : List Byte), n < 64 → rimByCore n = true → (rimPlanes n).1 = 2 → s.boot.fastStopped = false → s.saf.failSilent = false → s.pwr.doze = false → (rimOf s n).entries.length < rimCap → 
    exec (.rimPost n true b) s = .next (rimPost n 17 b (drainAll s))) ∧
  (∀ (s : State) (n : Nat) (b : List Byte), n < 64 → rimByCore n = true → (rimPlanes n).1 = 3 → s.boot.fastStopped = false → (rimOf s n).entries.length < rimCap → 
    exec (.rimPost n true b) s = .next (rimPost n 17 b s)) ∧
  (∀ (s : State) (n : Nat) (b : List Byte), n < 64 → rimByCore n = true → (s.boot.fastStopped = false ∧ ((rimPlanes n).1 = 3 ∨ (s.saf.failSilent = false ∧ s.pwr.doze = false))) → rimCap ≤ (rimOf s n).entries.length → 
    exec (.rimPost n true b) s = .next (emit (.rimFull n) s)) ∧
  (∀ (s : State) (n : Nat) (c : Bool) (b : List Byte), (64 ≤ n ∨ c ≠ rimByCore n) → 
    exec (.rimPost n c b) s = .next s) ∧
  (∀ (s : State) (n : Nat) (e : List Byte) (t : List (List Byte)), (s.boot.fastStopped = false ∧ ((rimPlanes n).2 = 3 ∨ (s.saf.failSilent = false ∧ s.pwr.doze = false))) → (rimOf s n).entries = e :: t → 
    exec (.rimTake n) s = .next (emit (.rimNotice n (rimPlanes n).2 e) { s with
      ham.rim := updAt n (fun r => { r with entries := r.entries.drop 1 ++ (r.held.take 1).map (·.2), held := r.held.drop 1 }) s.ham.rim })) ∧
  (∀ (s : State) (k : Nat) (b : List Byte), b.length ≤ winSize s 2 → ((s.ham.win[2]?).getD ({ base := 0 } : Win)).enable = true → winCode ((s.ham.win[2]?).getD ({ base := 0 } : Win)) 1 / 2 = 1 → 
    stagePacket k b s =
      (let a := winBase s 2 + freeBelow (winSize s 2 - b.length + 1) s; let t : State := { s with free := s.free + 1 };
      rimPost (48 + freeBelow 8 t) (18 + k) (leBytes 8 a ++ leBytes 4 b.length) { t with free := t.free + 1, ham.mem := memWrite s.ham.mem a b }))

/-- A notice of a defined code is counted, of another code ignored; an epoch's end empties the epoch's counters, writes
its summaries and begins the next epoch at the boundary; the start marker comes once Coil is ready; EVR_READ gives
records, live counters or the status; EVR_CLEAR of more records than held is LEN.OVER, and its effect drops the
oldest records, steps the generation and zeroes the overflow. -/
def Obligations.EventRecorderCommands : Prop :=
  (∀ (s : State) (c v : Nat), s.boot.fastStopped = false → definedCodes.contains c = true → 
    exec (.eventNotice c v) s = .next (countEvent c (if valueCode c then v else 0) s)) ∧
  (∀ (s : State) (c v : Nat), s.boot.fastStopped = false → definedCodes.contains c = false → 
    exec (.eventNotice c v) s = .next s) ∧
  (∀ (s : State), s.boot.fastStopped = false → pidVal s 0x0F00 = s.evr.lenS → (s.evr.epoch.filter fun c => decide (0 < c.count)) = [] → 
    exec .epochEnd s = .next { s with
      evr.epoch := [], evr.epochNum := s.evr.epochNum + 1, evr.epochStart := s.evr.epochStart + s.evr.lenS * 1000000000, evr.lossy := false }) ∧
  (∀ (s : State), s.boot.fastStopped = false → s.boot.coilReady = true → s.evr.coilWait = true → s.nv.evrRecs = [] → s.evr.heldRecs = [] → 
    exec .startMarker s = .next (let t := { s with evr.coilWait := false, evr.recording := true, evr.heldRecs := [] };
      evrRecord (evrNew 0x10 0 [pidVal s 0x0F00, pidVal s 0x0F01] { s with evr.coilWait := false }) t)) ∧
  (∀ (s : State) (ring seq : Nat) (c : Cmd), s.boot.fastStopped = false → opCmd s ring seq opEvrRead = some c → pk c 24 1 = 0 → 
    exec (.evrRead ring seq) s = .next (let rs := (s.nv.evrRecs.drop (pk c 28 4)).take (pk c 32 4);
      completePlain c { result := rs.length + s.nv.evrRecs.length * 2 ^ 32, bytes := (rs.map evrBytes).flatten } (pk c 36 8) s)) ∧
  (∀ (s : State) (ring seq : Nat) (c : Cmd), s.boot.fastStopped = false → opCmd s ring seq opEvrClear = some c → s.brd.port = [] → pk c 28 4 ≤ s.nv.evrRecs.length → 0 < pk c 28 4 → 
    exec (.evrClear ring seq) s = .next (markTaken c { s with brd.port := [.command c { nums := [pk c 28 4, pk c 24 1 % 2] }] })) ∧
  (∀ (s : State) (ring seq : Nat) (c : Cmd), s.boot.fastStopped = false → opCmd s ring seq opEvrClear = some c → s.brd.port = [] → s.nv.evrRecs.length < pk c 28 4 → 
    exec (.evrClear ring seq) s = .next (markTaken c { s with brd.port := [.command c { status := stLenOver, detail := 28 }] })) ∧
  (∀ (s : State) (c : Cmd) (d : Decision) (n : Nat), c.opcode = opEvrClear → d.nums = [n, 0] → 
    applyCommand c d s = (let t := { s with nv.evrRecs := s.nv.evrRecs.drop n, nv.evrGen := s.nv.evrGen + 1, evr.overflow := 0, evr.full := decide (evrCap ≤ (s.nv.evrRecs.drop n).length), evr.recording := !s.evr.coilWait && !(s.saf.failSilent && s.aon.cause.cls == 8) && decide ((s.nv.evrRecs.drop n).length < evrCap) };
      evrFlush (countEvent 0x003 0 t)))

/-- A request to a slot of fitting usage, below its limit and of fitting lengths charges the key and answers the output,
the count before it for a GCM encryption; one to an empty slot or of the wrong usage is KEY.SLOT with nothing
changed, one over the limit KEY.EXHAUSTED and counted, a tag that does not verify gives no output. CIPHER_OP puts
its input into Hamper region 5 (where, is a free value, log 168) and completes alike with OK.WARN at the warning
point. The cipher is opaque (log 2). -/
def Obligations.CipherRequestsAndOperations : Prop :=
  (∀ (s : State) (qn sl m fl len al src dst : Nat) (ivb data aad : List Byte) (x : Slot) (out : List Byte), s.boot.fastStopped = false → s.pwr.doze = false → s.saf.failSilent = false → slotOf s sl = some x → m ≠ 1 → modeAllowed x.usage m = true → overLimit x (cipherCount { mode := m, decrypt := bit fl 0, unit := if bit fl 1 then 4096 else 512, len := len, aadLen := al, iv := ivb.take 16 }) = false → cipherLength { mode := m, decrypt := bit fl 0, unit := if bit fl 1 then 4096 else 512, len := len, aadLen := al, iv := ivb.take 16 } = none → src = len → len ≤ dst → out = (if len = 0 then [] else Config.cipher m (bit fl 0) x.key (ivb.take 16) aad data) → 
    exec (.lookasideRequest qn sl m fl len al ivb src dst data aad false) s = .next (emit (.lookaside qn stOkDone 0 out) (chargeKey x (cipherCount { mode := m, decrypt := bit fl 0, unit := if bit fl 1 then 4096 else 512, len := len, aadLen := al, iv := ivb.take 16 }) s))) ∧
  (∀ (s : State) (qn sl m fl len al src dst : Nat) (ivb data aad : List Byte), s.boot.fastStopped = false → s.pwr.doze = false → s.saf.failSilent = false → slotOf s sl = none → 
    exec (.lookasideRequest qn sl m fl len al ivb src dst data aad false) s = .next (emit (.lookaside qn stKeySlot 0 []) s)) ∧
  (∀ (s : State) (qn sl m fl len al src dst : Nat) (ivb data aad : List Byte) (x : Slot), s.boot.fastStopped = false → s.pwr.doze = false → s.saf.failSilent = false → slotOf s sl = some x → modeAllowed x.usage m = false → 
    exec (.lookasideRequest qn sl m fl len al ivb src dst data aad false) s = .next (emit (.lookaside qn stKeySlot 0 []) s)) ∧
  (∀ (s : State) (ring seq : Nat) (c : Cmd) (inp : List Byte) (x : Slot), s.boot.fastStopped = false → opCmd s ring seq opCipherOp = some c → cipherOpRefusal s c (cipherOpReq c (padTo (pk c 28 4) inp)) = none → slotOf s (pk c 24 2) = some x → usageLimit x.usage = 0 → pk c 26 1 ≠ 1 → 
    exec (.cipherOp ring seq inp) s = .next (let q := cipherOpReq c (padTo (pk c 28 4) inp);
      completePlain c { bytes := if q.len = 0 then [] else Config.cipher q.mode q.decrypt x.key q.iv (c.block.drop 16) (padTo (pk c 28 4) inp) } (pk c 40 8) (chargeKey x (cipherCount q) (stageInput (padTo (pk c 28 4) inp) s)))) ∧
  (∀ (s : State) (ring seq : Nat) (c : Cmd) (inp : List Byte), s.boot.fastStopped = false → opCmd s ring seq opCipherOp = some c → pk c 26 1 ≠ 1 → slotOf s (pk c 24 2) = none → 
    exec (.cipherOp ring seq inp) s = .next (completePlain c { status := stKeySlot, detail := pk c 24 2 } (pk c 40 8) (stageInput (padTo (pk c 28 4) inp) s))) ∧
  (∀ (s : State), s.boot.fastStopped = false → 
    exec .drbgReseed s = .next { s with cip.generates := 0 } ∧ exec .entropyHealthFail s = .next (failSilent 0x0A 0 { s with cip.entropyOk := false }))

/-- KEY_GENERATE into an empty slot draws the key and its salt from the generator and is decided with its blob
(RES.EXISTS for an occupied slot); KEY_LOAD into the AWK's place of a DRWK blob that the usage table marks destroyed
is KEY.SLOT; KEY_EXPORT of an empty slot is KEY.SLOT, of one allowed to leave a blob under its key-encryption key;
KEY_DESTROY names the slot's kcv and domain; KEY_QUERY answers the slot's record; KEY_XFER answers the peer with a
blob, or RES.EXISTS for another key. Effects: a generated or loaded key takes its slot or becomes the AWK. A key
generated or loaded takes its slot, its count beginning at the recorded bound, or, for the array wrapping key,
becomes it and nothing else changes; a key destroyed has its slots emptied and is marked for both head sides, a
domain it served keyless with its salt erased. -/
def Obligations.KeyCommands : Prop :=
  (∀ (s : State) (ring seq : Nat) (c : Cmd), s.boot.fastStopped = false → opCmd s ring seq opKeyGenerate = some c → s.brd.port = [] → awaitsKey s c = false → pk c 26 1 ≠ 8 → slotOf s (pk c 24 2) = none → pk c 28 1 = 0 → tableFull s (pk c 26 1) (kcvOf (drawnKey s (pk c 26 1)).1) = false → 
    exec (.keyGenerate ring seq) s = .next (let k := drawnKey s (pk c 26 1);
      let t := markTaken c { s with brd.port := [.command c { nums := [pk c 24 2, pk c 26 1, pk c 27 1, k.2], bytes := keyBlob s.cip.drwk 0 (pk c 26 1) (pk c 27 1) k.2 0 k.1, secret := k.1 }] };
      { t with free := t.free + 68, cip.generates := t.cip.generates + 1 })) ∧
  (∀ (s : State) (ring seq : Nat) (c : Cmd), s.boot.fastStopped = false → opCmd s ring seq opKeyGenerate = some c → s.brd.port = [] → awaitsKey s c = false → pk c 26 1 ≠ 8 → (slotOf s (pk c 24 2)).isSome = true → 
    exec (.keyGenerate ring seq) s = .next (let t := markTaken c { s with brd.port := s.brd.port ++ [.command c { status := stResExists }] };
      { t with free := t.free + 68, cip.generates := t.cip.generates + 1 })) ∧
  (∀ (s : State) (ring seq : Nat) (c : Cmd), s.boot.fastStopped = false → opCmd s ring seq opKeyLoad = some c → s.brd.port = [] → (pk c 24 2 == 0xFFFF) = true → (numAt c.block 2 1 == 8) = false → 
    exec (.keyLoad ring seq) s = .next (markTaken c { s with brd.port := [.command c { status := stFmtParam, detail := 24 }] })) ∧
  (∀ (s : State) (ring seq : Nat) (c : Cmd), s.boot.fastStopped = false → opCmd s ring seq opKeyLoad = some c → s.brd.port = [] → 
    exec (.keyLoad ring seq) s = .next (markTaken c { s with brd.port := [.command c (keyLoad s c)] })) ∧
  (∀ (s : State) (c : Cmd) (b kcv : List Byte), c.block = b → b.length = 72 + keyBytes (numAt b 2 1) → ((pk c 24 2 == 0xFFFF) != (numAt b 2 1 == 8)) = false → numAt b 0 1 = 1 → numAt b 1 1 = 0 → 1 ≤ numAt b 2 1 → numAt b 2 1 ≤ 8 → numAt b 3 1 < 8 → allZero (bytesAt b 10 6) = true → kcv = bytesAt b 16 16 → usageEntry s kcv s.aon.side = none → 
    keyLoad s c = match openBlob s.cip.drwk b with
      | none => { status := stKeyUnwrap }
      | some key => match (if numAt b 2 1 = 8 then s.cip.awk.map kcvOf else (slotOf s (pk c 24 2)).map (·.kcv)) with
        | some h => if h = kcv then { status := stOkNochange } else { status := stResExists }
        | none => if tableFull s (numAt b 2 1) kcv then { status := stResExhausted } else
            { nums := [pk c 24 2, numAt b 2 1, if pk c 26 1 = 1 then clearBit (numAt b 3 1 % 4) 0 else numAt b 3 1 % 4, numAt b 4 4], secret := key }) ∧
  (∀ (s : State) (ring seq : Nat) (c : Cmd), s.boot.fastStopped = false → opCmd s ring seq opKeyExport = some c → s.brd.port = [] → awaitsKey s c = false → pk c 26 1 = 0 → 
    exec (.keyExport ring seq) s = .next (markTaken c { s with brd.port := s.brd.port ++ [.command c (keyExport s c)] })) ∧
  (∀ (s : State) (c : Cmd) (x k : Slot), slotOf s (pk c 24 2) = some x → bit x.attrs 0 = true → x.usage ≠ 7 → slotOf s (pk c 28 2) = some k → k.usage = 7 → 72 + x.key.length ≤ pk c 40 4 → 
    keyExport s c = { bytes := keyBlob k.key 2 x.usage x.attrs x.salt (pk c 28 2) x.key }) ∧
  (∀ (s : State) (c : Cmd), slotOf s (pk c 24 2) = none → 
    keyExport s c = { status := stKeySlot, detail := pk c 24 2 } ∧ keyDestroy s c = { status := stKeySlot, detail := pk c 24 2 }) ∧
  (∀ (s : State) (ring seq : Nat) (c : Cmd) (x : Slot), s.boot.fastStopped = false → opCmd s ring seq opKeyDestroy = some c → s.brd.port = [] → slotOf s (pk c 24 2) = some x → 
    exec (.keyDestroy ring seq) s = .next (markTaken c { s with brd.port := [.command c { nums := [if bit x.attrs 2 then x.domain + 1 else 0], secret := x.kcv }] })) ∧
  (∀ (s : State) (ring seq : Nat) (c : Cmd), s.boot.fastStopped = false → opCmd s ring seq opKeyQuery = some c → pk c 24 1 = 1 → 
    exec (.keyQuery ring seq) s = .next (completePlain c { bytes := padTo 48 s.nv.fuses.ownerRoot } (pk c 32 8) s)) ∧
  (∀ (s : State) (kcv k : List Byte), s.boot.fastStopped = false → s.hdl.paired = true → s.hdl.bridge = false → s.cip.awk = some k → 
    exec (.keyXfer kcv) s = .next (if kcvOf k = kcv then respondPeer 0 0 0 0 (keyBlob s.cip.drwk 0 8 0 0 0 k) s else respondPeer 0 stResExists 0 0 [] s)) ∧
  (∀ (s : State) (c : Cmd) (d : Decision) (n a z : Nat), c.opcode = opKeyGenerate → d.nums = [n, 8, a, z] → 
    applyCommand c d s = { s with cip.awk := some d.secret }) ∧
  (∀ (s : State) (c : Cmd) (d : Decision) (n u a z : Nat), c.opcode = opKeyLoad → d.nums = [n, u, a, z] → u ≠ 8 → 
    applyCommand c d s = installKey n u a z d.secret s) ∧
  (∀ (s : State) (n u a z : Nat) (k : List Byte), (s.nv.domains.find? fun d => !d.keyless && (d.cur == n || d.prev == some n)) = none → usageLimit u = 0 → 
    installKey n u a z k s = { s with cip.slots := s.cip.slots ++ [{ num := n, usage := u, attrs := a, salt := z, key := k, kcv := kcvOf k,
                                                                                count := ((usageEntry s (kcvOf k) s.aon.side).map (·.1)).getD 0 }] }) ∧
  (∀ (s : State) (kcv : List Byte), 
    (destroyKey kcv none s).cip.slots = s.cip.slots.filter (fun x => x.kcv != kcv) ∧ (destroyKey kcv none s).nv.domains = s.nv.domains ∧
      (destroyKey kcv none s).nv.volumes = s.nv.volumes ∧ (destroyKey kcv none s).ham = s.ham) ∧
  (∀ (s : State) (c : Cmd) (d : Decision), c.opcode = opKeyDestroy → d.nums = [0] → 
    applyCommand c d s = (let t := withAccess (destroyKey d.secret none) s; appendOp t.hfe.arrival 65535 opKeyDestroy [0] d.secret t))

/-- On the holder, with nothing else in the port or at the end of Coil, each operation whose checks pass takes an
arrival number (of a volume that the peer owns a free value, log 108; else its range locks where Table 08-1 gives it
some, waiting while one is not granted) and its outcome goes to the port; a name that exists already, is missing or
keyless is refused and what it holds released. SNAP_CREATE of volumes that exist, are distinct, of one owner and
keyed takes shared locks on each and gives the next identifier; SNAP_DELETE of a snapshot not in use by replication
and VOL_CLONE of a source that exists under a free number are decided; a missing source is RES.NOTFOUND; VOL_QUERY
answers a volume's record and changes nothing. -/
def Obligations.VolumeCommandDecisions : Prop :=
  (∀ (s : State) (ring seq : Nat) (c : Cmd), s.boot.fastStopped = false → opCmd s ring seq opVolCreate = some c → s.hdl.holder = true → s.brd.port = [] → s.col.ends = [] → policyRefuses s = false → volumeOf s (pk c 24 2) = none → domainKeyed s (pk c 26 2) = true → (domainOf s (pk c 26 2)).map (·.format) = some (pk c 28 1) → piAllowed (pk c 28 1) (pk c 29 1) = true → s.nv.volumes.length < 65536 → 
    exec (.volCreate ring seq) s = .next (markTaken c { numberVolumes [] s with
      brd.port := [.command c { nums := [pk c 24 2, pk c 26 2, pk c 28 1, pk c 29 1, pk c 30 1, pk c 32 8], arrival := s.hfe.arrival }] })) ∧
  (∀ (s : State) (ring seq : Nat) (c : Cmd), s.boot.fastStopped = false → opCmd s ring seq opVolCreate = some c → s.hdl.holder = true → s.brd.port = [] → s.col.ends = [] → (volumeOf s (pk c 24 2)).isSome = true → 
    exec (.volCreate ring seq) s = .next (settle true (releaseLock (.plem c.ring c.seq) (markTaken c { s with brd.port := [.command c { status := stResExists }] })))) ∧
  (∀ (s : State) (ring seq : Nat) (c : Cmd), s.boot.fastStopped = false → opCmd s ring seq opVolCreate = some c → s.hdl.holder = true → s.brd.port = [] → s.col.ends = [] → volumeOf s (pk c 24 2) = none → domainKeyed s (pk c 26 2) = false → 
    exec (.volCreate ring seq) s = .next (settle true (releaseLock (.plem c.ring c.seq) (markTaken c { s with brd.port := [.command c { status := stKeyDomain, detail := pk c 26 2 }] })))) ∧
  (∀ (s : State) (ring seq : Nat) (c : Cmd), s.boot.fastStopped = false → opCmd s ring seq opVolDelete = some c → s.hdl.holder = true → s.brd.port = [] → s.col.ends = [] → policyRefuses s = false → (volumeOf s (pk c 24 2)).isSome = true → ((pk c 26 1 == 0 && s.nv.snaps.any (fun x => x.vol == pk c 24 2)) || s.rma.repls.any (fun r => r.vol == pk c 24 2)) = false → peerNumbers s ([pk c 24 2]) = false → locksOf s (.plem c.ring c.seq) = [] → plemLocks s + ([(pk c 24 2, 0, lastBlock, true)]).length ≤ 256 → s.rlk.locks.length + ([(pk c 24 2, 0, lastBlock, true)]).length ≤ 65536 → 
    exec (.volDelete ring seq) s = .next (let t := settle true (addNeeds (.plem c.ring c.seq) ([(pk c 24 2, 0, lastBlock, true)]) s);
      if (locksOf t (.plem c.ring c.seq)).all (·.granted) then
        markTaken c { t with brd.port := t.brd.port ++ [.command c { nums := [pk c 24 2, pk c 26 1], arrival := ((locksOf t (.plem c.ring c.seq)).head?.map (·.arrival)).getD 0 }] }
      else t)) ∧
  (∀ (s : State) (ring seq : Nat) (c : Cmd), s.boot.fastStopped = false → opCmd s ring seq opVolDelete = some c → s.hdl.holder = true → s.brd.port = [] → s.col.ends = [] → volumeOf s (pk c 24 2) = none → 
    exec (.volDelete ring seq) s = .next (settle true (releaseLock (.plem c.ring c.seq) (markTaken c { s with brd.port := [.command c { status := stResNotfound }] })))) ∧
  (∀ (s : State) (ring seq : Nat) (c : Cmd) (v : Volume), s.boot.fastStopped = false → opCmd s ring seq opVolResize = some c → s.hdl.holder = true → s.brd.port = [] → s.col.ends = [] → policyRefuses s = false → volumeOf s (pk c 24 2) = some v → keylessVolume s v = false → pk c 32 8 ≤ maxBlocks v.format → v.size < pk c 32 8 → peerNumbers s [v.num] = false → 
    exec (.volResize ring seq) s = .next (markTaken c { numberVolumes [v.num] s with
      brd.port := [.command c { nums := [v.num, pk c 32 8], arrival := s.hfe.arrival }] })) ∧
  (∀ (s : State) (ring seq : Nat) (c : Cmd) (v : Volume), s.boot.fastStopped = false → opCmd s ring seq opVolResize = some c → s.hdl.holder = true → s.brd.port = [] → s.col.ends = [] → policyRefuses s = false → volumeOf s (pk c 24 2) = some v → keylessVolume s v = false → v.size ≤ maxBlocks v.format → pk c 32 8 < v.size → peerNumbers s ([v.num]) = false → locksOf s (.plem c.ring c.seq) = [] → plemLocks s + ([(v.num, pk c 32 8, v.size - 1, true)]).length ≤ 256 → s.rlk.locks.length + ([(v.num, pk c 32 8, v.size - 1, true)]).length ≤ 65536 → 
    exec (.volResize ring seq) s = .next (let t := settle true (addNeeds (.plem c.ring c.seq) ([(v.num, pk c 32 8, v.size - 1, true)]) s);
      if (locksOf t (.plem c.ring c.seq)).all (·.granted) then
        markTaken c { t with brd.port := t.brd.port ++ [.command c { nums := [v.num, pk c 32 8], arrival := ((locksOf t (.plem c.ring c.seq)).head?.map (·.arrival)).getD 0 }] }
      else t)) ∧
  (∀ (s : State) (ring seq : Nat) (c : Cmd) (v : Volume), s.boot.fastStopped = false → opCmd s ring seq opVolSetAccess = some c → s.hdl.holder = true → s.brd.port = [] → s.col.ends = [] → policyRefuses s = false → volumeOf s (pk c 24 2) = some v → v.moving = false → keylessVolume s v = false → pk c 26 1 = 1 → peerNumbers s [v.num] = false → 
    exec (.volSetAccess ring seq) s = .next (markTaken c { numberVolumes [v.num] s with
      brd.port := [.command c { nums := [v.num, pk c 26 1, pk c 27 1, pk c 28 1], arrival := s.hfe.arrival }] })) ∧
  (∀ (s : State) (ring seq : Nat) (c : Cmd) (v : Volume), s.boot.fastStopped = false → opCmd s ring seq opVolSetAccess = some c → s.hdl.holder = true → s.brd.port = [] → s.col.ends = [] → policyRefuses s = false → volumeOf s (pk c 24 2) = some v → v.moving = false → keylessVolume s v = false → pk c 26 1 = 1 → peerNumbers s [v.num] = true → 
    exec (.volSetAccess ring seq) s = .next (markTaken c { s with
      free := s.free + 1, brd.port := [.command c { nums := [v.num, pk c 26 1, pk c 27 1, pk c 28 1], arrival := (Config.freeValue s.free).toNat }] })) ∧
  (∀ (s : State) (ring seq : Nat) (c : Cmd), s.boot.fastStopped = false → opCmd s ring seq opDomainCreate = some c → s.hdl.holder = true → s.brd.port = [] → s.col.ends = [] → policyRefuses s = false → domainOf s (pk c 24 2) = none → pk c 29 1 = 0 → slotFits s (pk c 26 2) (pk c 24 2) = true → 
    exec (.domainCreate ring seq) s = .next (markTaken c { numberVolumes [] s with
      brd.port := [.command c { nums := [pk c 24 2, pk c 26 2, pk c 28 1, 0], arrival := s.hfe.arrival }] })) ∧
  (∀ (s : State) (ring seq : Nat) (c : Cmd), s.boot.fastStopped = false → opCmd s ring seq opDomainCreate = some c → s.hdl.holder = true → s.brd.port = [] → s.col.ends = [] → domainOf s (pk c 24 2) = none → pk c 29 1 = 0 → slotFits s (pk c 26 2) (pk c 24 2) = false → 
    exec (.domainCreate ring seq) s = .next (settle true (releaseLock (.plem c.ring c.seq) (markTaken c { s with brd.port := [.command c { status := stKeySlot, detail := pk c 26 2 }] })))) ∧
  (∀ (s : State) (ring seq : Nat) (c : Cmd), s.boot.fastStopped = false → opCmd s ring seq opVolCreate = some c → s.hdl.holder = false → isCarried s c = false → s.hdl.paired = false → s.brd.port = [] → 
    exec (.volCreate ring seq) s = .next (markTaken c { s with brd.port := [.command c { status := stNetPeer }] })) ∧
  (∀ (s : State) (ring seq : Nat) (c : Cmd), s.boot.fastStopped = false → opCmd s ring seq opVolCreate = some c → s.hdl.holder = false → isCarried s c = false → s.hdl.paired = true → s.hdl.bridge = false → c.peerTag = none → (peerTagFree s).isSome = true → 
    exec (.volCreate ring seq) s = .next (requestPeer { tag := 0, code := 0x05, cmd := some c } [] (c.packet ++ c.block) c.block.length s)) ∧
  (∀ (s : State) (ring seq : Nat) (c : Cmd), s.boot.fastStopped = false → opCmd s ring seq opSnapCreate = some c → s.hdl.holder = true → s.brd.port = [] → s.col.ends = [] → policyRefuses s = false → snapEntryFail s [] (snapVols c) 0 = none → snapVols c ≠ [] → s.nv.snaps.length + (snapVols c).length ≤ 1048576 → s.nv.nextSnap + (snapVols c).length < 2 ^ 32 → peerNumbers s (snapVols c) = false → locksOf s (.plem c.ring c.seq) = [] → plemLocks s + ((snapVols c).map fun v => (v, 0, lastBlock, false)).length ≤ 256 → s.rlk.locks.length + ((snapVols c).map fun v => (v, 0, lastBlock, false)).length ≤ 65536 → 
    exec (.snapCreate ring seq) s = .next (let t := settle true (addNeeds (.plem c.ring c.seq) ((snapVols c).map fun v => (v, 0, lastBlock, false)) s);
      if (locksOf t (.plem c.ring c.seq)).all (·.granted) then
        markTaken c { t with brd.port := t.brd.port ++ [.command c { result := s.nv.nextSnap, nums := s.nv.nextSnap :: snapVols c, arrival := ((locksOf t (.plem c.ring c.seq)).head?.map (·.arrival)).getD 0 }] }
      else t)) ∧
  (∀ (s : State) (ring seq : Nat) (c : Cmd) (v : Nat) (vs : List Nat), s.boot.fastStopped = false → opCmd s ring seq opSnapCreate = some c → s.hdl.holder = true → s.brd.port = [] → s.col.ends = [] → snapVols c = v :: vs → volumeOf s v = none → 
    exec (.snapCreate ring seq) s = .next (settle true (releaseLock (.plem c.ring c.seq) (markTaken c { s with brd.port := [.command c { status := stResNotfound }] })))) ∧
  (∀ (s : State) (ring seq : Nat) (c : Cmd) (x : Snapshot), s.boot.fastStopped = false → opCmd s ring seq opSnapDelete = some c → s.hdl.holder = true → s.brd.port = [] → s.col.ends = [] → policyRefuses s = false → snapOf s (pk c 24 4) = some x → x.replication = false → 
    exec (.snapDelete ring seq) s = .next (markTaken c { numberVolumes [] s with
      brd.port := [.command c { nums := [x.id], arrival := s.hfe.arrival }] })) ∧
  (∀ (s : State) (ring seq : Nat) (c : Cmd), s.boot.fastStopped = false → opCmd s ring seq opSnapDelete = some c → s.hdl.holder = true → s.brd.port = [] → s.col.ends = [] → snapOf s (pk c 24 4) = none → 
    exec (.snapDelete ring seq) s = .next (settle true (releaseLock (.plem c.ring c.seq) (markTaken c { s with brd.port := [.command c { status := stResNotfound }] })))) ∧
  (∀ (s : State) (ring seq : Nat) (c : Cmd) (v : Volume), s.boot.fastStopped = false → opCmd s ring seq opVolClone = some c → s.hdl.holder = true → s.brd.port = [] → s.col.ends = [] → policyRefuses s = false → volumeOf s (pk c 24 2) = none → pk c 26 1 = 1 → cloneVol s c = some v → keylessVolume s v = false → s.nv.volumes.length < 65536 → 
    exec (.volClone ring seq) s = .next (markTaken c { numberVolumes [] s with
      brd.port := [.command c { nums := [pk c 24 2, 1, pk c 27 1, pk c 28 4], arrival := s.hfe.arrival }] })) ∧
  (∀ (s : State) (ring seq : Nat) (c : Cmd) (v : Volume), s.boot.fastStopped = false → opCmd s ring seq opVolClone = some c → s.hdl.holder = true → s.brd.port = [] → s.col.ends = [] → policyRefuses s = false → volumeOf s (pk c 24 2) = none → pk c 26 1 = 0 → cloneVol s c = some v → keylessVolume s v = false → s.nv.volumes.length < 65536 → peerNumbers s ([pk c 28 4]) = false → locksOf s (.plem c.ring c.seq) = [] → plemLocks s + ([(pk c 28 4, 0, lastBlock, false)]).length ≤ 256 → s.rlk.locks.length + ([(pk c 28 4, 0, lastBlock, false)]).length ≤ 65536 → 
    exec (.volClone ring seq) s = .next (let t := settle true (addNeeds (.plem c.ring c.seq) ([(pk c 28 4, 0, lastBlock, false)]) s);
      if (locksOf t (.plem c.ring c.seq)).all (·.granted) then
        markTaken c { t with brd.port := t.brd.port ++ [.command c { nums := [pk c 24 2, 0, pk c 27 1, pk c 28 4], arrival := ((locksOf t (.plem c.ring c.seq)).head?.map (·.arrival)).getD 0 }] }
      else t)) ∧
  (∀ (s : State) (ring seq : Nat) (c : Cmd) (v : Volume), s.boot.fastStopped = false → opCmd s ring seq opVolQuery = some c → s.hdl.holder = true → pk c 24 1 = 0 → pk c 28 4 < 65536 → volumeOf s (pk c 28 4) = some v → 
    exec (.volQuery ring seq) s = .next (completePlain c { bytes := volRecord s v } (pk c 32 8) s))

/-- A volume made is open to no host; one resized larger takes its size alone; access settings change that volume alone;
a snapshot deleted leaves the list; a new domain records its slot, format and salt; snapshots take the map and size
of their volume. No other kind of state changes. -/
def Obligations.VolumeOperationEffects : Prop :=
  (∀ (s : State) (v dm f p fl sz : Nat) (b : List Byte), 
    applyOp opVolCreate [v, dm, f, p, fl, sz] b s = { s with nv.volumes := s.nv.volumes ++ [{ num := v, domain := dm, format := f, pi := p, size := sz, ownerB := bit fl 0, dedup := bit fl 1, compression := field fl 2 2 }] }) ∧
  (∀ (s : State) (v sz : Nat) (b : List Byte) (x : Volume), volumeOf s v = some x → x.size ≤ sz → 
    applyOp opVolResize [v, sz] b s = updVolume v (fun x => { x with size := sz }) s) ∧
  (∀ (s : State) (v a h : Nat) (b : List Byte), 
    applyOp opVolSetAccess [v, 0, a, h] b s = withAccess (updVolume v (fun x => { x with moving := true })) s ∧
      applyOp opVolSetAccess [v, 1, a, h] b s = withAccess (updVolume v (fun x => { x with inaccessible := a == 1 })) s ∧
      applyOp opVolSetAccess [v, 2, a, h] b s = withAccess (updVolume v (fun x => { x with hosts := h, nqns := nqnEntries b })) s) ∧
  (∀ (s : State) (a i v : Nat) (b : List Byte) (x : Volume), volumeOf s v = some x → 
    applyOp opSnapCreate [a, i, v] b s = listFullCheck (setMap true i (copiedMap s false v) { s with
      nv.nextSnap := max s.nv.nextSnap (i + 1), nv.snaps := s.nv.snaps ++ [{ id := i, vol := v, arrival := a, size := x.size, created := s.now }] })) ∧
  (∀ (s : State) (i : Nat) (b : List Byte), 
    applyOp opSnapDelete [i] b s = { replaceMap true i [] s with nv.snaps := (replaceMap true i [] s).nv.snaps.filter fun x => x.id != i }) ∧
  (∀ (s : State) (n k f : Nat) (b : List Byte), domainOf (slotServes k n true s) n = none → 
    makeDomain n k f 0 b s = { slotServes k n true s with nv.domains := (slotServes k n true s).nv.domains ++ [{ num := n, format := f, cur := k, salt := b }] }) ∧
  (∀ (s : State) (c : Cmd) (d : Decision) (rest : List Held), s.boot.fastStopped = false → portRuns s = true → s.saf.mgmtHalted = false → s.brd.port = .command c d :: rest → carriedHere c = false → cmdTier { s with brd.port := rest } c = true → isSuccess d.status = true → d.status ≠ stOkNochange → d.started = false → d.carried = false → commitsInCoil c.opcode = true → c.opcode ≠ opDomainCreate → crossesNear { s with brd.port := rest } = false → s.saf.failSilent = false → 
    exec .auditEntryDurable s = .next (let t : State := { s with brd.port := rest };
      let t1 := { t with nv.chain := t.nv.chain ++ [{ commandEntry t c d.status d.detail (entrySession c) false with prevHash := lastHash t }] };
      let out := outputOf c d t1;
      appendCommand c d { t1 with col.ends := t1.col.ends ++ [{ body := opBody c d, cmd := c, pkt := { statusOf c d.status d.detail d.result (out != []) t1 with audited := true, auditSeq := t.nv.chain.length % 2 ^ 32 }, addr := (outputAt c).getD 0, output := out }] }))

/-- REPL_PAIR unprotected of no path is LEN.UNDER, of more than 8 LEN.OVER, of a handle with no SA RES.NOTFOUND, and
otherwise gives the new connection's number, taken from the decision on; REPL_START of a volume that exists, is not
replicated and names a connection of class 2 is decided with its operands; REPL_STOP of a volume not replicated is
RES.NOTFOUND; REPL_STATUS answers the record. Effects: a connection is made and asked for, a replication is added or
removed. -/
def Obligations.ReplicationCommands : Prop :=
  (∀ (s : State) (ring seq : Nat) (c : Cmd), s.boot.fastStopped = false → opCmd s ring seq opReplPair = some c → s.brd.port = [] → 
    exec (.replPair ring seq) s = .next (markTaken c { s with
      brd.port := [.command c (replPair s c)]
      rma.reserved := if isSuccess (replPair s c).status then s.rma.reserved ++ [((replPair s c).result, nth (replPair s c).nums 1)] else s.rma.reserved })) ∧
  (∀ (s : State) (c : Cmd), numAt c.block 20 1 = 0 → bit (numAt c.block 21 1) 0 = true → numAt c.block 16 4 = 0 → 
    replPair s c = { status := stLenUnder, detail := blockDetail 20 }) ∧
  (∀ (s : State) (c : Cmd), bit (numAt c.block 21 1) 0 = false → s.rma.pendingSa = [] → 
    replPair s c = { status := stResNotfound }) ∧
  (∀ (s : State) (c : Cmd), 8 < numAt c.block 20 1 → bit (numAt c.block 21 1) 0 = true → numAt c.block 16 4 = 0 → 
    replPair s c = { status := stLenOver, detail := blockDetail 20 }) ∧
  (∀ (s : State) (c : Cmd) (n : Nat), numAt c.block 20 1 = 1 → numAt c.block 21 1 = 1 → numAt c.block 16 4 = 0 → c.block.length = 48 → allZero (bytesAt c.block 22 2) = true → pathFail s c.block false = none → pinnedTaken s < 4096 → freeConnNum s = some n → 
    replPair s c = { result := n, nums := [n, 2, 0, 1], bytes := c.block }) ∧
  (∀ (s : State) (ring seq : Nat) (c : Cmd) (x : Conn), s.boot.fastStopped = false → opCmd s ring seq opReplStart = some c → s.brd.port = [] → (volumeOf s (pk c 24 2)).isSome = true → replOf s (pk c 24 2) = none → connOf s (pk c 28 4) = some x → x.cls = 2 → 
    exec (.replStart ring seq 0) s = .next (markTaken c { s with brd.port := [.command c { nums := [pk c 24 2, pk c 26 1, pk c 27 1, pk c 28 4, pk c 32 4, pk c 36 2] }] })) ∧
  (∀ (s : State) (ring seq k : Nat) (c : Cmd) (x : Conn), s.boot.fastStopped = false → opCmd s ring seq opReplStart = some c → s.brd.port = [] → (volumeOf s (pk c 24 2)).isSome = true → replOf s (pk c 24 2) = none → connOf s (pk c 28 4) = some x → x.cls = 2 → k ≠ 0 → 
    exec (.replStart ring seq k) s = .next (markTaken c { s with brd.port := [.command c { status := stNetRemote }] })) ∧
  (∀ (s : State) (ring seq : Nat) (c : Cmd), s.boot.fastStopped = false → opCmd s ring seq opReplStop = some c → s.brd.port = [] → (replOf s (pk c 24 2)).isSome = true → 
    exec (.replStop ring seq) s = .next (markTaken c { s with brd.port := [.command c { nums := [pk c 24 2] }] })) ∧
  (∀ (s : State) (ring seq : Nat) (c : Cmd), s.boot.fastStopped = false → opCmd s ring seq opReplStop = some c → s.brd.port = [] → replOf s (pk c 24 2) = none → 
    exec (.replStop ring seq) s = .next (markTaken c { s with brd.port := [.command c { status := stResNotfound }] })) ∧
  (∀ (s : State) (ring seq : Nat) (c : Cmd), s.boot.fastStopped = false → opCmd s ring seq opReplStatus = some c → replOf s (pk c 24 2) = none → 
    exec (.replStatus ring seq) s = .next (completePlain c { status := stResNotfound } (pk c 32 8) s)) ∧
  (∀ (s : State) (ring seq : Nat) (c : Cmd) (r : Repl), s.boot.fastStopped = false → opCmd s ring seq opReplStatus = some c → replOf s (pk c 24 2) = some r → 
    exec (.replStatus ring seq) s = .next (completePlain c { bytes := leBytes 1 r.state ++ leBytes 1 r.mode ++ leBytes 1 (flagAt r.outOfSync 0) ++ [0] ++ leBytes 4 (freeBelow (2 ^ 32) s) ++ leBytes 8 r.pendingBytes ++ leBytes 8 (r.lastAck.getD 0) ++ leBytes 8 r.lastSnap ++ padTo 16 (((connOf s r.conn).map (·.remoteId)).getD []) ++ zeros 16 } (pk c 32 8) { s with free := s.free + 1 })) ∧
  (∀ (s : State) (c : Cmd) (d : Decision) (v m l n i r : Nat), c.opcode = opReplStart → d.nums = [v, m, l, n, i, r] → 
    applyCommand c d s = { s with rma.repls := s.rma.repls ++ [{ vol := v, mode := m, onLoss := l, conn := n, interval := i, remoteVol := r, state := if m = 0 then 0 else if mapOf s false v = [] ∧ !writePending s v then 2 else 4, lastAckAt := s.now, nextDue := s.now + i * 1000000000 }] }) ∧
  (∀ (s : State) (c : Cmd) (d : Decision) (v : Nat), c.opcode = opReplStop → d.nums = [v] → 
    applyCommand c d s = settle true (releaseSynced v (fun _ => true) { s with rma.repls := s.rma.repls.filter fun r => r.vol != v }))

/-- A ready cycle takes a snapshot identifier and an arrival number and appends its record; the end of one makes its
snapshot the last; an acknowledgement of a synchronous volume records the arrival number and posts what waited for
it; a lost remote is out of sync, counted 0x06B, and refuses writes when on_loss says so; the oldest open bundle
closes; a cold lookup's chunk is used or stored. -/
def Obligations.ReplicationCyclesAndReduction : Prop :=
  (∀ (s : State) (n : Nat) (r : Repl) (v : Volume), s.boot.fastStopped = false → s.saf.failSilent = false → replOf s n = some r → volumeOf s n = some v → cycleReady r = true → ownsVolume s v = true → keylessVolume s v = false → s.boot.service = true → s.brd.port = [] → s.col.ends = [] → s.nv.snaps.length < snapCap → s.nv.nextSnap + 1 < 2 ^ 32 → 
    exec (.asyncCycleStart n) s = .next (appendOp s.hfe.arrival n opxReplSnap [s.hfe.arrival, s.nv.nextSnap, n] [] { s with
      nv.nextSnap := s.nv.nextSnap + 1, hfe.arrival := s.hfe.arrival + 1
      rma.repls := updWhere (fun r => r.vol == n) (fun r => { r with state := if r.mode = 0 then 1 else 4, curSnap := s.nv.nextSnap, nextDue := s.now + r.interval * 1000000000 }) s.rma.repls })) ∧
  (∀ (s : State) (n : Nat) (q : Repl), s.boot.fastStopped = false → s.saf.failSilent = false → replOf s n = some q → q.curSnap ≠ 0 → (snapOf s q.curSnap).isSome = true → q.lastSnap = 0 → 
    exec (.asyncCycleEnd n) s = .next (let same := mapDiff (mapOf s true q.curSnap) (mapOf s false n) == [] && !writePending s n;
      updRepl n (fun r => { r with state := if r.mode = 0 then 0 else if same then 2 else 4, refusing := r.refusing && !(r.mode == 1 && same), lastSnap := r.curSnap, curSnap := 0, pendingBytes := 0 }) s)) ∧
  (∀ (s : State) (n a : Nat) (q : Repl), s.boot.fastStopped = false → s.saf.failSilent = false → replOf s n = some q → q.mode = 1 → 
    exec (.remoteRecordAck n a) s = .next (settle true (releaseSynced n (fun t => decide (t.arrival ≤ a)) (updRepl n (fun r => { r with
      lastAck := some (max a (r.lastAck.getD 0)), lastAckAt := s.now, state := if r.state = 3 then 4 else r.state }) s)))) ∧
  (∀ (s : State) (n : Nat) (q : Repl), s.boot.fastStopped = false → s.saf.failSilent = false → replOf s n = some q → q.mode = 1 → q.state = 2 → 
    exec (.syncRemoteLoss n) s = .next (settle true (releaseSynced n (fun _ => true) (countEvent 0x06B 0 (updRepl n (fun r => { r with
      state := 3, outOfSync := true, refusing := r.onLoss == 1 }) s))))) ∧
  (∀ (s : State) (v : Bool) (o : OpenBundle), s.boot.fastStopped = false → s.saf.failSilent = false → s.pwr.doze = false → oldestOpen s = some o → 
    exec (.bundleGatherTimeout v) s = .next (settle v (closeBundle o v s))) ∧
  (∀ (s : State) (t k : Nat) (b : List Byte) (f : Option Nat), s.boot.fastStopped = false → s.saf.failSilent = false → s.pwr.doze = false → (s.red.coldInFlight.find? fun e => e.1 == t) = some (t, k, b) → 
    exec (.coldLookupDone t f) s = .next (settle true (coldDone t k b f { s with
      red.coldInFlight := s.red.coldInFlight.filter fun x => x != (t, k, b) })))

/-- A component that is due is checked in its preferred slot, then in the other; the slot that passes runs and is
measured, both failures are kept with their reasons. STAGE_IMAGE without a first chunk is FMT.PARAM, a first chunk
at offset 0 starts the long operation; its chunk's end goes on or gives the verdict. ACTIVATE_IMAGE of a slot
neither staged nor good is FW.SLOT, its effect prefers the inactive slots in one directory write. The format rises
on the holder with a paired peer, behind entry 0xFF10, and migration ends with the headers in it. -/
def Obligations.FirmwareBootStagingActivation : Prop :=
  (∀ (s : State) (k : Nat), s.boot.fastStopped = false → bootCheckDue s k = true → 
    exec (.firmwareBootCheck k) s = .next (let t := if bootCheck s k (prefSlot s k) = 0 then recordMeas (imageMeas s k (prefSlot s k) false) { s with fw.running := updAt (k - 1) (fun _ => some (prefSlot s k)) s.fw.running } else if bootCheck s k (1 - prefSlot s k) = 0 then recordMeas (imageMeas s k (1 - prefSlot s k) true) { s with fw.running := updAt (k - 1) (fun _ => some (1 - prefSlot s k)) s.fw.running, fw.failed := s.fw.failed ++ [(k, prefSlot s k, bootCheck s k (prefSlot s k))] } else { s with fw.failed := s.fw.failed ++ [(k, prefSlot s k, bootCheck s k (prefSlot s k)), (k, 1 - prefSlot s k, bootCheck s k (1 - prefSlot s k))] };
      if k = 5 then rewriteDirectory (deriveAlias t) else t)) ∧
  (∀ (s : State) (ring seq : Nat) (c : Cmd), s.boot.fastStopped = false → opCmd s ring seq opStageImage = some c → s.brd.port = [] → longOpOf s opStageImage = none → s.fw.staging = none → bit (pk c 25 1) 0 = true → 
    exec (.stageImage ring seq) s = .next (markTaken c { s with brd.port := [.command c { started := true }] })) ∧
  (∀ (s : State) (ring seq : Nat) (c : Cmd), s.boot.fastStopped = false → opCmd s ring seq opStageImage = some c → s.brd.port = [] → longOpOf s opStageImage = none → s.fw.staging = none → bit (pk c 25 1) 0 = false → 
    exec (.stageImage ring seq) s = .next (markTaken c { s with brd.port := [.command c { status := stFmtParam, detail := 28 }] })) ∧
  (∀ (s : State) (l : LongOp) (g : Staging), s.boot.fastStopped = false → longOpOf s opStageImage = some l → s.fw.staging = some g → bit (pk l.cmd 25 1) 1 = false → 
    exec .stageImageChunkDone s = .next (let data := g.data ++ l.cmd.block.take (unsignedLen l.cmd);
      let t := endLongOp opStageImage stOkDone 0 0 { s with fw.staging := some { g with data := data, done := data.length } };
      if t.plem.sessions.any (fun x => x.id == g.session) then t else { t with fw.staging := none })) ∧
  (∀ (s : State) (l : LongOp) (g : Staging), s.boot.fastStopped = false → longOpOf s opStageImage = some l → s.fw.staging = some g → bit (pk l.cmd 25 1) 1 = true → 
    exec .stageImageChunkDone s = .next (let data := g.data ++ l.cmd.block.take (unsignedLen l.cmd);
      let t := if (stagedVerdict s g data).1 = stOkDone ∧ s.plem.sessions.any (fun x => x.id == g.session) then placeImage g.comp data s else s;
      endLongOp opStageImage (stagedVerdict s g data).1 (stagedVerdict s g data).2 0 { t with fw.staging := none })) ∧
  (∀ (s : State) (ring seq : Nat) (c : Cmd), s.boot.fastStopped = false → opCmd s ring seq opActivateImage = some c → s.brd.port = [] → ((maskComps (pk c 24 1)).find? (fun k => let v := slotState s k (inactiveSlot s k); v != 1 && v != 2)) = none → ((maskComps (pk c 24 1)).all fun k => prefSlot s k == inactiveSlot s k && (bit s.nv.flash.raiseBits (k - 1) == bit (pk c 25 1) (k - 1))) = false → 
    exec (.activateImage ring seq) s = .next (markTaken c { s with brd.port := [.command c { nums := [pk c 24 1, pk c 25 1] }] })) ∧
  (∀ (s : State) (ring seq : Nat) (c : Cmd) (bad : Nat), s.boot.fastStopped = false → opCmd s ring seq opActivateImage = some c → s.brd.port = [] → ((maskComps (pk c 24 1)).find? (fun k => let v := slotState s k (inactiveSlot s k); v != 1 && v != 2)) = some bad → 
    exec (.activateImage ring seq) s = .next (markTaken c { s with brd.port := [.command c { status := stFwSlot, detail := bad }] })) ∧
  (∀ (s : State) (c : Cmd) (d : Decision), c.opcode = opActivateImage → d.nums = [1, 0] → 
    applyCommand c d s = writeDir { s with
      nv.flash.pref := updAt 0 (fun _ => inactiveSlot s 1) s.nv.flash.pref, nv.flash.raiseBits := clearBit s.nv.flash.raiseBits 0 }) ∧
  (∀ (s : State) (ring seq : Nat) (c : Cmd), s.boot.fastStopped = false → opCmd s ring seq opFwQuery = some c → 
    exec (.fwQuery ring seq) s = .next (completePlain c { bytes := ((List.range 5).map fun k => fwRecord s (k + 1)).flatten ++ fwPackRecord s } (pk c 24 8) s)) ∧
  (∀ (s : State) (ring seq : Nat) (c : Cmd), s.boot.fastStopped = false → opCmd s ring seq opMigrateStatus = some c → 
    exec (.migrateStatus ring seq) s = .next (completePlain c { bytes := leBytes 2 s.nv.format ++ leBytes 2 (nextFormat s s.fw.peerFmt) ++ [BitVec.ofNat 8 (migState s)] ++ zeros 3 ++ leBytes 8 (oldPages s) ++ leBytes 8 (s.nv.lastRaise.getD (2 ^ 64 - 1)) ++ leBytes 8 s.fw.migEnd } (pk c 24 8) s)) ∧
  (∀ (s : State) (f : Nat), s.boot.fastStopped = false → s.nv.format < nextFormat s f → 16 < auditFree s → s.nv.waitingEntries = [] → migrating s = false → 
    exec (.formatRaise f) s = .next (let t := borderEvent 0xFF10 (leBytes 2 s.nv.format ++ leBytes 2 (nextFormat s f)) { s with fw.peerFmt := f };
      appendOp t.hfe.arrival 65535 opxFormat [nextFormat s f] [] { t with nv.format := nextFormat s f, nv.lastRaise := some s.nv.chain.length })) ∧
  (∀ (s : State), s.boot.fastStopped = false → migrating s = true → s.nv.rootFormat = s.nv.format → 
    exec .formatMigrationEnd s = .next (let t := putHeader true { s.nv.header3 with format := s.nv.format } (putHeader false { s.nv.header2 with format := s.nv.format } s);
      { t with nv.superFormat := t.nv.format, fw.migEnd := t.now }))

/-- Coil is ready once its Border region is replayed; lines persist in the order accepted, wear the die and make whole
records commit up to the commit target and no further; the peer's records join region 3 once each and are
acknowledged; an acknowledgement never falls and never passes what was sent; without one in time the mirror is lost:
policy 1 goes on in single copy and latches, policy 0 refuses; a header write clears what it owed; replay goes
through its steps in order; a failure is class 0x08. -/
def Obligations.CoilRowsAndReplay : Prop :=
  (∀ (s : State), s.boot.fastStopped = false → starting s = true → s.boot.fusesLoaded = true → s.boot.coilReady = false → 
    exec .coilReady s = .next { s with boot.coilReady := true, col.replayStep := 1 }) ∧
  (∀ (s : State) (n : Nat), s.boot.fastStopped = false → 
    exec (.coilLinesPersisted n) s = .next (let r := persistLines n s.nv.accept;
      let t := wearCoil (min n (s.nv.accept.foldl (fun n a => n + a.lines) 0)) { s with nv.accept := r.2 };
      fillSeals (commitAdvance (recordsPersisted r.1 t)))) ∧
  (∀ (s : State), commitTarget s ≤ s.col.commitPoint → 
    commitAdvance s = s) ∧
  (∀ (s : State) (l : Nat) (rs : List CoilRec), s.boot.fastStopped = false → s.saf.failSilent = false → s.hdl.paired = true → s.hdl.bridge = false → s.col.accepting = true → (rs.all fun r => decide (r.jseq ≤ lastMirror s)) = false → 
    exec (.mirror l rs) s = .next (let new := rs.filter fun r => decide (lastMirror s < r.jseq); let t := new.foldl (fun s r => storeLines true r.line r.lines r.bytes s) s;
      { t with nv.mirror := t.nv.mirror ++ new, nv.accept := t.nv.accept ++ new.map fun r => { mirror := true, jseq := r.jseq, lines := r.lines } })) ∧
  (∀ (s : State) (l : Nat) (rs : List CoilRec), s.boot.fastStopped = false → s.saf.failSilent = false → s.hdl.paired = true → s.hdl.bridge = false → s.col.accepting = true → (rs.all fun r => decide (r.jseq ≤ lastMirror s)) = true → 
    exec (.mirror l rs) s = .next (sendPeer 0x11 [s.nv.mirrorPersisted, headJseq s] [] 0 s)) ∧
  (∀ (s : State) (p r : Nat), s.boot.fastStopped = false → s.saf.failSilent = false → s.hdl.paired = true → s.hdl.bridge = false → 
    exec (.mirrorAck p r) s = .next (let a := max s.col.peerAck (min p (s.nv.nextJseq - 1));
      commitAdvance (reopenPeer r (releaseMirror r (catchUpEnds { s with col.peerAck := a, col.ackSince := if a < s.col.sent then (if s.col.ackSince.isSome then some s.now else none) else none }))))) ∧
  (∀ (s : State), s.boot.fastStopped = false → s.saf.failSilent = false → s.col.ackSince.isSome = true → 
    exec .mirrorAckTimeout s = .next (commitAdvance (loseMirror s))) ∧
  (∀ (s : State), (s.col.mirrorOn || s.col.catchUp.isSome) = true → 
    loseMirror s = (let t := countEvent 0x091 0 { s with col.mirrorOn := false, col.catchUp := none, col.ackSince := none, col.singleCopy := false, col.refusing := false, col.counted := false };
      if (t.hdl.severed = false ∨ t.hdl.holder = true) ∧ pidVal t 0x0900 = 1 then
        countEvent 0x090 0 { t with col.singleCopy := true, col.latched := true, col.refusing := false, col.counted := true }
      else { t with col.singleCopy := false, col.refusing := true })) ∧
  (∀ (s : State), s.boot.fastStopped = false → s.saf.failSilent = false → s.col.accepting = true → (releaseDeltas s).col.headMoved ≠ 0 → 
    exec .journalHeaderWrite s = .next (let t := releaseDeltas s;
      let h : JHeader := { t.nv.header2 with format := t.nv.format, headJseq := headJseq t, headLine := headLine t, tookOver := false, gen := t.nv.header2.gen + 1, boot := t.nv.bootCounter };
      let u := wearCoil 1 { storeLines false (h.gen % 2) 1 (headerBytes false (t.aon.side != false) h) { t with col.headMoved := 0 } with nv.header2 := h }; u)) ∧
  (∀ (s : State), s.boot.fastStopped = false → s.saf.failSilent = false → s.col.accepting = true → 
    exec .waitingRecordAppend s = .next (placeWaiting s.col.waiting.length s)) ∧
  (∀ (s : State) (b : CoilBody) (bs : List CoilBody) (n : Nat), s.col.waiting = b :: bs → coilFits s (recLines s b) = true → 
    placeWaiting (n + 1) s = placeWaiting n (placeRecord b { s with col.waiting := bs, col.fullWait := bs != [] })) ∧
  (∀ (s : State), s.boot.fastStopped = false → s.saf.failSilent = false → s.col.replayStep = 1 → s.nv.torn = false → 
    exec .replayStart s = .next { s with col.replayStep := 2, nv.torn := false, nv.tailLine := s.nv.tailLine }) ∧
  (∀ (s : State), s.boot.fastStopped = false → s.saf.failSilent = false → s.col.replayStep = 1 → s.nv.torn = true → 
    exec .replayStart s = .next (countEvent 0x092 0 { s with col.replayStep := 2, nv.torn := false, nv.tailLine := s.nv.tailLine })) ∧
  (∀ (s : State), s.boot.fastStopped = false → s.saf.failSilent = false → s.col.replayStep = 2 → s.boot.wavesDone % 256 = 255 → fencedAtStart s = true → 
    exec .replayResume s = .next { s with col.replayStep := 7, col.takenOver := true }) ∧
  (∀ (s : State), s.boot.fastStopped = false → s.saf.failSilent = false → s.col.replayStep = 2 → s.boot.wavesDone % 256 = 255 → fencedAtStart s = false → 
    exec .replayResume s = .next (replayApply s)) ∧
  (∀ (s : State), s.boot.fastStopped = false → s.saf.failSilent = false → s.col.replayStep = 5 → 
    exec .replayEnd s = .next ((s.nv.bands.filter fun b => b.sideB == s.aon.side).foldl (fun s b => sealBand b.num s)
      { s with col.replayStep := 6, med.patrolPos := s.nv.patrolSaved, med.patrolBegin := s.now })) ∧
  (∀ (s : State), s.boot.fastStopped = false → 
    exec .coilFailure s = .next (failSilent 8 0x096 (countEvent 0x096 0 s)))

/-- A record accepted stands at the tail with the next jseq, as the lines of its tables, and waits to be persisted
behind the ones before it; persisting lines takes whole records from the front in order and loses none; the commit
target never passes what is persisted here, nor, with the mirror on, what the peer has persisted. -/
def Obligations.CoilStreamOrder : Prop :=
  (∀ (s : State) (b : CoilBody) (n : Nat), s.col.mirrorOn = false → s.col.catchUp = none → 
    acceptRecord b n s = storeLines false s.nv.tailLine n (recordLines s b s.nv.nextJseq n) { s with
      nv.journal := s.nv.journal ++ [{ jseq := s.nv.nextJseq, line := s.nv.tailLine, lines := n, body := b, bytes := recordLines s b s.nv.nextJseq n }], nv.nextJseq := s.nv.nextJseq + 1, nv.tailLine := s.nv.tailLine + n
      nv.accept := s.nv.accept ++ [{ mirror := false, jseq := s.nv.nextJseq, lines := n }] }) ∧
  (∀ (n : Nat) (l : List Accept), 
    ((persistLines n l).1 ++ (persistLines n l).2).map (·.jseq) = l.map (·.jseq)) ∧
  (∀ (s : State), 
    commitTarget s ≤ s.nv.persisted ∧ (s.col.mirrorOn = true → commitTarget s ≤ s.col.peerAck))

/-- A strip that fits takes the next data position of its open segment with its bundles and their extents as its bytes,
and its intent of state 1 is appended; a mismatch of the parity units writes nothing and is class 0x01; a full
segment (or any, early) is sealed by the intent of its stripe, whose accumulator CRC failing is a Coil failure; a
segment past its age limit is sealed early. -/
def Obligations.SegmentsStripsAndSeals : Prop :=
  (∀ (s : State) (n i : Nat) (k : List Nat) (x : Segment) (g : Gen), s.boot.fastStopped = false → s.saf.failSilent = false → s.pwr.doze = false → s.col.accepting = true → s.col.replayStep = 6 → segOf s n = some x → segGen s n = some g → x.state = 0 → x.sealing = false → x.sideB = s.aon.side → intentWaits s n = false → x.positions.any (fun p => p.state == 1) = false → stripFits s (bit (segBand n) 31) k = true → nextPos x g.d = some i → 
    exec (.stripAdd n k false) s = .next (let t := updSeg n (putPos { posOf x i with bundles := k, data := some (stripOf s k) }) s;
      appendRecord (.intent n i 1 (posMember t n i) (targetBuffer x)) t)) ∧
  (∀ (s : State) (n : Nat) (k : List Nat) (t : State), s.boot.fastStopped = false → s.saf.failSilent = false → s.pwr.doze = false → s.col.accepting = true → s.col.replayStep = 6 → (readySegment n s).bind (addStrip n k) = some t → 
    exec (.stripAdd n k true) s = .next (failSilent 1 0x0A0 (countEvent 0x0A0 0 { s with lay.verifyFail := satAdd (2 ^ 32 - 1) s.lay.verifyFail 1 }))) ∧
  (∀ (s : State) (n : Nat) (x : Segment) (e : Bool), s.boot.fastStopped = false → s.saf.failSilent = false → s.pwr.doze = false → segOf s n = some x → sealable s x = true → x.sideB = s.aon.side → (e || segFull s x) = true → s.col.accepting = true → 
    exec (.segmentSeal n e true) s = .next (sealSegment (!segFull s x) x s)) ∧
  (∀ (s : State) (n : Nat) (x : Segment) (e : Bool), s.boot.fastStopped = false → s.saf.failSilent = false → s.pwr.doze = false → segOf s n = some x → sealable s x = true → x.sideB = s.aon.side → (e || segFull s x) = true → s.col.accepting = true → 
    exec (.segmentSeal n e false) s = .next (failSilent 8 0x096 (countEvent 0x096 0 s))) ∧
  (∀ (s : State) (n : Nat) (x : Segment), s.boot.fastStopped = false → s.saf.failSilent = false → s.pwr.doze = false → segOf s n = some x → sealable s x = true → x.sideB = s.aon.side → pidVal s 0x0A02 ≠ 0 → 
    exec (.sealAgeTimeout n) s = .next (sealSegment (!segFull s x) x s)) ∧
  (∀ (s : State) (e : Bool) (x : Segment) (g : Gen), segGen s x.num = some g → 
    sealSegment e x s = (let t := updSeg x.num (fun x => { x with early := e, sealing := true }) s;
      appendRecord (.intent x.num g.d 3 (posMember t x.num g.d) x.buffer) t))

/-- PACK_ADMIT of an admittable port names its pack, MED.ABSENT otherwise; PACK_RETIRE of a pack in the pool names its
port, RES.NOTFOUND without one; LAYOUT_CHANGE op 0 with admitted members starts, op 1 cancels a running change and
is OK.NOCHANGE without one. Once the emptied generation holds no band the holder commits the switch, or the
reversal. Their effects change the pool and the generations alone. -/
def Obligations.PackAndLayoutCommands : Prop :=
  (∀ (s : State) (ring seq : Nat) (c : Cmd), s.boot.fastStopped = false → opCmd s ring seq opPackAdmit = some c → s.hdl.holder = true → s.brd.port = [] → s.col.ends = [] → policyRefuses s = false → s.hdl.transfer = none → s.hdl.severed = false → admittable s (pk c 24 1) = true → packNow s (pk c 24 1) = none → 
    exec (.packAdmit ring seq) s = .next (markTaken c { numberVolumes [] s with
      brd.port := [.command c { nums := [pk c 24 1, (portOf s (pk c 24 1)).identity], arrival := s.hfe.arrival }] })) ∧
  (∀ (s : State) (ring seq : Nat) (c : Cmd), s.boot.fastStopped = false → opCmd s ring seq opPackAdmit = some c → s.hdl.holder = true → s.brd.port = [] → s.col.ends = [] → s.hdl.transfer = none → s.hdl.severed = false → admittable s (pk c 24 1) = false → 
    exec (.packAdmit ring seq) s = .next (settle true (releaseLock (.plem c.ring c.seq) (markTaken c { s with brd.port := [.command c { status := stMedAbsent, detail := pk c 24 1 }] })))) ∧
  (∀ (s : State) (ring seq : Nat) (c : Cmd) (p : Pack), s.boot.fastStopped = false → opCmd s ring seq opPackRetire = some c → s.hdl.holder = true → s.brd.port = [] → s.col.ends = [] → policyRefuses s = false → s.hdl.transfer = none → s.hdl.severed = false → packNow s (pk c 24 1) = some p → p.retiring = false → p.cond ≠ 4 → packBelowFloor s (pk c 24 1) = false → memberOf s.nv.genNew (pk c 24 1) = false → 
    exec (.packRetire ring seq) s = .next (markTaken c { numberVolumes [] s with
      brd.port := [.command c { nums := [pk c 24 1], arrival := s.hfe.arrival }] })) ∧
  (∀ (s : State) (ring seq : Nat) (c : Cmd), s.boot.fastStopped = false → opCmd s ring seq opPackRetire = some c → s.hdl.holder = true → s.brd.port = [] → s.col.ends = [] → s.hdl.transfer = none → s.hdl.severed = false → packNow s (pk c 24 1) = none → 
    exec (.packRetire ring seq) s = .next (settle true (releaseLock (.plem c.ring c.seq) (markTaken c { s with brd.port := [.command c { status := stResNotfound }] })))) ∧
  (∀ (s : State) (ring seq : Nat) (c : Cmd), s.boot.fastStopped = false → opCmd s ring seq opLayoutChange = some c → s.hdl.holder = true → s.brd.port = [] → s.col.ends = [] → policyRefuses s = false → s.hdl.transfer = none → s.hdl.severed = false → pk c 24 1 = 1 → s.nv.change = 1 → 
    exec (.layoutChange ring seq) s = .next (markTaken c { numberVolumes [] s with
      brd.port := [.command c { result := curGen s, nums := [1], arrival := s.hfe.arrival }] })) ∧
  (∀ (s : State) (ring seq : Nat) (c : Cmd), s.boot.fastStopped = false → opCmd s ring seq opLayoutChange = some c → s.hdl.holder = true → s.brd.port = [] → s.col.ends = [] → s.hdl.transfer = none → s.hdl.severed = false → pk c 24 1 = 1 → s.nv.change ≠ 1 → 
    exec (.layoutChange ring seq) s = .next (settle true (releaseLock (.plem c.ring c.seq) (markTaken c { s with brd.port := [.command c { status := stOkNochange, result := curGen s }] })))) ∧
  (∀ (s : State) (c : Cmd), pk c 24 1 = 0 → badMember s (pk c 32 8) = none → s.nv.nextGen ≤ 65535 → s.nv.genCur = none → s.nv.change = 0 → longOpOf s opLayoutChange = none → 
    layoutChange s c = (let g : Gen := { num := s.nv.nextGen, d := pk c 25 1, p := pk c 26 1, s := pk c 27 1, r := pk c 28 2, members := pk c 32 8 };
      if dataCapacity { s with nv.genNew := some g } g * (100 - pidVal s 0x0A00) < 100 * storedBytes s (fun _ => true) then { status := stMedSpace }
      else { nums := [0, g.d, g.p, g.s, g.r, g.members], started := true })) ∧
  (∀ (s : State) (g h : Gen), s.boot.fastStopped = false → s.saf.failSilent = false → s.pwr.doze = false → s.nv.genCur = some g → s.nv.genNew = some h → s.hdl.holder = true → s.nv.change = 1 → migrating s = false → bandsOf s (some g) = 0 → openInGen s g.num = false → s.hdl.severed = false → 
    exec .layoutChangeEnd s = .next (authority (.switch h.num) opxSwitch [g.num, h.num] { s with nv.change := 3 })) ∧
  (∀ (s : State) (h : Gen), s.boot.fastStopped = false → s.saf.failSilent = false → s.pwr.doze = false → s.nv.genNew = some h → s.hdl.holder = true → s.nv.change = 2 → migrating s = false → bandsOf s (some h) = 0 → openInGen s h.num = false → s.hdl.severed = false → opPending s opxReverse = false → 
    exec .layoutReverseEnd s = .next (authority (.cancelGeneration h.num) opxReverse [h.num] s)) ∧
  (∀ (s : State) (n : Nat) (b : List Byte), isMember s n = false → 
    applyOp opPackRetire [n] b s = updPackNow n (fun p => { p with cond := 4 }) s) ∧
  (∀ (s : State) (n : Nat) (b : List Byte), isMember s n = true → 
    applyOp opPackRetire [n] b s = updPackNow n (fun p => { p with retiring := true }) s) ∧
  (∀ (s : State) (i n : Nat) (b : List Byte), packNow s i = none → 
    applyOp opPackAdmit [i, n] b s = { s with nv.packs := s.nv.packs ++ [{ port := i, identity := n, geom := (portOf s i).geom, cond := 5 }] }) ∧
  (∀ (s : State) (b : List Byte) (n : List Nat) (g : Gen), s.nv.genNew = some g → 
    (applyOp opxSwitch n b s).nv.genCur = some g ∧ (applyOp opxSwitch n b s).nv.genNew = none ∧ (applyOp opxSwitch n b s).nv.change = 0 ∧ (applyOp opxSwitch n b s).nv.bands = s.nv.bands)

/-- An absent member is declared by the holder behind its entry; a recomputed queue marks segments now lost and orders
the rest; a queued segment's missing strips are written into spare space; rebuilt strips commit in one batch at a
time; a member with nothing left to rebuild ends its rebuild; checkpoints are written once replay has ended and a
missing one starts a rescan. REBUILD_CTRL pauses and resumes; the lost lists are read and a stripe entry cleared
once no range names it. -/
def Obligations.RebuildAndLossCommands : Prop :=
  (∀ (s : State) (n : Nat) (p : Pack), s.boot.fastStopped = false → s.saf.failSilent = false → s.hdl.holder = true → s.col.replayStep = 6 → isMember s n = true → packOf s n = some p → p.cond = 1 → 
    exec (.absenceDeclareTimeout n) s = .next (declareFailed n (absenceCause s n) s)) ∧
  (∀ (s : State) (n k : Nat), s.hdl.severed = false → s.lay.declaredWait.any (fun e => e.1 == n) = false → entryWaits s = false → 
    declareFailed n k s = authority (.declareFailed n k) opxDeclare [n, k] (borderEvent 0xFF13 (declareParam s n 0 k) { s with lay.declaredWait := s.lay.declaredWait ++ [(n, k)] })) ∧
  (∀ (s : State), s.boot.fastStopped = false → s.saf.failSilent = false → s.pwr.doze = false → (s.nv.segs.filter (isLost s)) = [] → 
    exec .queueReorder s = .next (reorderQueue s)) ∧
  (∀ (s : State) (n : Nat) (x : Segment), s.boot.fastStopped = false → s.saf.failSilent = false → s.pwr.doze = false → segOf s n = some x → s.lay.queue.contains n = true → worksSide s x.sideB = true → (s.lay.paused && marginOf s x != 0) = false → s.col.accepting = true → isLost s x = false → 
    exec (.segmentReconstructDone n false) s = .next (let t := (rebuildDue s x).foldl (fun s i => rebuildStrip n i s) s;
      if waitsSpare t n then holdBack n t else t)) ∧
  (∀ (s : State), s.boot.fastStopped = false → s.saf.failSilent = false → s.pwr.doze = false → ((s.lay.rebuilt.filter fun t => !stripWriting s t).take 256) ≠ [] → opPending s opxRebuild = false → 
    exec .rebuildBatchCommit s = .next (appendOp s.hfe.arrival 65535 opxRebuild ((((s.lay.rebuilt.filter fun t => !stripWriting s t).take 256).map fun t => [t.1, t.2.1, t.2.2]).flatten) [] s)) ∧
  (∀ (s : State) (n : Nat) (pp : Pack), s.boot.fastStopped = false → s.saf.failSilent = false → s.pwr.doze = false → (s.nv.packs.find? fun p => p.port == n && p.cond == 3 && !p.rebuildEnded) = some pp → s.hdl.holder = true → stillMissing s n = [] → longOpOf (borderEvent 0xFF13 (declareParam (updPack n pp.identity (fun p => { p with rebuildEnded := true }) s) n 1 0) (updPack n pp.identity (fun p => { p with rebuildEnded := true }) s)) opRebuildCtrl = none → 
    exec (.rebuildEnd n) s = .next (let t := updPack n pp.identity (fun p => { p with rebuildEnded := true }) s;
      borderEvent 0xFF13 (declareParam t n 1 0) t)) ∧
  (∀ (s : State), s.boot.fastStopped = false → s.saf.failSilent = false → s.pwr.doze = false → s.col.replayStep = 6 → 
    exec .checkpointTimer s = .next (writeCheckpoint s)) ∧
  (∀ (s : State) (v : List Nat), s.boot.fastStopped = false → s.saf.failSilent = false → s.col.replayStep = 6 → s.nv.ckptSeq = 0 → 
    exec (.checkpointLoad v) s = .next (reorderQueue s)) ∧
  (∀ (s : State), s.boot.fastStopped = false → s.saf.failSilent = false → s.col.replayStep = 6 → s.nv.ckptSeq ≠ 0 → 
    exec (.checkpointLoad []) s = .next (countEvent 0x0AC 0 (reorderQueue { s with lay.rescan := true }))) ∧
  (∀ (s : State) (ring seq : Nat) (c : Cmd), s.boot.fastStopped = false → opCmd s ring seq opRebuildCtrl = some c → s.brd.port = [] → pk c 24 1 = 1 → s.lay.paused = false → 
    exec (.rebuildCtrl ring seq) s = .next (markTaken c { s with brd.port := [.command c { nums := [1] }] })) ∧
  (∀ (s : State) (ring seq : Nat) (c : Cmd), s.boot.fastStopped = false → opCmd s ring seq opRebuildCtrl = some c → s.brd.port = [] → pk c 24 1 = 3 → 
    exec (.rebuildCtrl ring seq) s = .next (markTaken c { s with brd.port := [.command c { nums := [3], bytes := rebuildStatusBytes s }] })) ∧
  (∀ (s : State) (c : Cmd) (d : Decision), c.opcode = opRebuildCtrl → d.nums = [1] → 
    applyCommand c d s = { s with lay.paused := true }) ∧
  (∀ (s : State) (c : Cmd) (d : Decision), c.opcode = opRebuildCtrl → d.nums = [2] → 
    applyCommand c d s = { s with lay.paused := false }) ∧
  (∀ (s : State) (ring seq : Nat) (c : Cmd), s.boot.fastStopped = false → opCmd s ring seq opLostListRead = some c → pk c 24 1 = 0 → 
    exec (.lostListRead ring seq) s = .next (completePlain c
      { result := (((s.nv.lostStripes.map stripeBytes).drop (pk c 28 4)).take (pk c 32 4)).length + s.nv.lostStripes.length * 2 ^ 32, bytes := (((s.nv.lostStripes.map stripeBytes).drop (pk c 28 4)).take (pk c 32 4)).flatten } (pk c 36 8) s)) ∧
  (∀ (s : State) (ring seq : Nat) (c : Cmd), s.boot.fastStopped = false → opCmd s ring seq opLostListClear = some c → s.brd.port = [] → s.nv.lostStripes.any (fun e => e.seg == pk c 24 8) = true → ((lostRanges s).filter fun r => r.seg == pk c 24 8) = [] → 
    exec (.lostListClear ring seq) s = .next (markTaken c { s with brd.port := [.command c { nums := [pk c 24 8] }] })) ∧
  (∀ (s : State) (ring seq : Nat) (c : Cmd), s.boot.fastStopped = false → opCmd s ring seq opLostListClear = some c → s.brd.port = [] → s.nv.lostStripes.any (fun e => e.seg == pk c 24 8) = false → 
    exec (.lostListClear ring seq) s = .next (markTaken c { s with brd.port := [.command c { status := stResNotfound }] })) ∧
  (∀ (s : State) (c : Cmd) (d : Decision) (n : Nat), c.opcode = opLostListClear → d.nums = [n] → 
    applyCommand c d s = { s with nv.lostStripes := s.nv.lostStripes.filter fun e => e.seg != n })

/-- With collectable victims in class order GC_BATCH_START takes the next batch number and seals an open victim;
GC_COPY_DONE goes to the erases with nothing to copy and otherwise seals the destinations early; GC_MAP_COMMIT
appends the map deltas once every copy stands in a sealed segment; GC_ERASE_PENDING appends the erased records and
ends the batch; BAND_FREE appends the free record of an erased band. PATROL_READ reads the next strip and ends the
pass with the last; read disturb reads the block and leaves a quarter of the threshold; a wear spread and an overrun
are counted once; TEMP goes to every reached pack. SECURE_DISCARD is decided and its effect takes the exclusive lock
over the range; MEDIA_HEALTH answers the records. -/
def Obligations.MediaManagementCommands : Prop :=
  (∀ (s : State) (v : List Nat), s.boot.fastStopped = false → s.saf.failSilent = false → s.pwr.doze = false → s.med.batch = none → s.col.replayStep = 6 → s.col.accepting = true → v ≠ [] → v.length ≤ 64 → (v.filterMap (bandOf s)).length = v.length → v.eraseDups.length = v.length → (v.filterMap (bandOf s)).all (collectable s) = true → victimOrder s (v.filterMap (bandOf s)) = true → 
    exec (.gcBatchStart v) s = .next ((v.filterMap (bandOf s)).foldl (fun s b => sealVictim b s) { s with
      med.batch := some { num := (if s.aon.side then 2 ^ 63 else 0) + s.nv.nextBatch, victims := v }, nv.nextBatch := s.nv.nextBatch + 1 })) ∧
  (∀ (b : Band) (s : State), b.state = 1 → 
    sealVictim b s = appendRecord (.band b.num 2 1 b.row b.gen 0) (updBand b.num (fun b => { b with noNew := true }) s)) ∧
  (∀ (s : State) (t : Batch), s.boot.fastStopped = false → s.saf.failSilent = false → s.pwr.doze = false → s.med.batch = some t → t.step = 0 → victimBundles s t = [] → t.victims.any (bandWaits s) = false → 
    exec .gcCopyDone s = .next { s with med.batch := some { t with step := 2 } }) ∧
  (∀ (s : State) (t : Batch), s.boot.fastStopped = false → s.saf.failSilent = false → s.pwr.doze = false → s.med.batch = some t → t.step = 0 → victimBundles s t ≠ [] → batchCopied s t = true → 
    exec .gcCopyDone s = .next (sealEarlyWhere (fun x => t.moves.any fun m => m.2.1 == x.num) (t.moves.foldl chargeMove { s with med.batch := some { t with step := 1 } }))) ∧
  (∀ (s : State) (t : Batch), s.boot.fastStopped = false → s.saf.failSilent = false → s.pwr.doze = false → s.med.batch = some t → t.step = 1 → batchCopied s t = true → t.moves.all (fun m => match segOf s m.2.1 with | some x => x.state == 2 | none => false) = true → opPending s opxGc = false → migrating s = false → 
    exec .gcMapCommit s = .next (appendOp s.hfe.arrival 65535 opxGc
      ([t.num, t.victims.length] ++ t.victims ++ [(batchPairs s t).length] ++ ((batchPairs s t).map fun p => [p.1, p.2]).flatten ++ (t.moves.map fun m => [m.1, m.2.1, m.2.2]).flatten) [] s)) ∧
  (∀ (s : State) (t : Batch), s.boot.fastStopped = false → s.saf.failSilent = false → s.pwr.doze = false → s.med.batch = some t → t.step = 2 → t.victims.any (bandReads s) = false → t.victims.any (bandWaits s) = false → 
    exec .gcErasePending s = .next { (t.victims.filterMap (bandOf s)).foldl (fun s b => appendRecord (.band b.num 3 2 b.row b.gen t.num) s) s with med.batch := none }) ∧
  (∀ (s : State) (n : Nat) (b : Band), s.boot.fastStopped = false → s.saf.failSilent = false → s.pwr.doze = false → bandOf s n = some b → b.state = 4 ∨ b.state = 5 → worksSide s b.sideB = true → bandWaits s n = false → b.discard = false → 
    exec (.bandFree n) s = .next (let t := b.blocks.foldl newCycle s;
      discardEnd (appendRecord (.band n 0 b.state b.row b.gen b.batch)
        (updBand n (fun b => { b with discard := false }) { t with med.bandsFreed := satAdd (2 ^ 32 - 1) t.med.bandsFreed 1 })))) ∧
  (∀ (s : State) (x : Nat × Nat), s.boot.fastStopped = false → s.saf.failSilent = false → s.pwr.doze = false → s.col.replayStep = 6 → s.med.patrolOwed = [] → (patrolStrips s)[s.med.patrolPos]? = some x → 
    exec .patrolRead s = .next (let t := if patrolReads s x then readStrip x.1 x.2 2 0 s else if patrolSkips s x then { s with med.patrolOwed := [x] } else s;
      if (patrolStrips s).length ≤ t.med.patrolPos + 1 then
        { t with med.patrolPos := 0, med.patrolBegin := t.now, med.patrolLate := false, med.patrolOwed := t.med.patrolOwed.filter (patrolStrips s).contains, med.patrolPasses := satAdd (2 ^ 32 - 1) t.med.patrolPasses 1 }
      else { t with med.patrolPos := t.med.patrolPos + 1 })) ∧
  (∀ (s : State) (x : Nat × Nat), s.boot.fastStopped = false → s.saf.failSilent = false → s.pwr.doze = false → s.col.replayStep = 6 → s.med.patrolOwed = [x] → (patrolStrips s).contains x = true → patrolReads s x = true → 
    exec .patrolRead s = .next (readStrip x.1 x.2 2 0 { s with med.patrolOwed := [] })) ∧
  (∀ (s : State), s.boot.fastStopped = false → s.saf.failSilent = false → s.med.patrolLate = false → s.col.replayStep = 6 → 
    exec .patrolOverrun s = .next (countEvent 0x0B9 0 { s with med.patrolLate := true })) ∧
  (∀ (s : State), s.boot.fastStopped = false → s.saf.failSilent = false → s.med.patrolLate = true → 
    exec .patrolOverrun s = .next s) ∧
  (∀ (s : State), s.boot.fastStopped = false → s.saf.failSilent = false → s.pwr.doze = false → s.col.accepting = true → 
    exec .patrolProgressSave s = .next (wearCoil 1 { s with nv.patrolSaved := s.med.patrolPos })) ∧
  (∀ (s : State) (n k : Nat) (p : Pack), s.boot.fastStopped = false → s.saf.failSilent = false → s.pwr.doze = false → packOf s n = some p → reached s n = true → disturbThreshold s p ≠ 0 → disturbThreshold s p / 2 ≤ readCount s n k → 
    exec (.readDisturbVerify n k) s = .next (let t := (blockStripsOn s n k).foldl (fun s e => readStrip e.1 e.2 6 0 s) s;
      countEvent 0x0B4 0 (setReads n k (disturbThreshold s p / 4) { t with med.disturb := satAdd (2 ^ 32 - 1) t.med.disturb 1 }))) ∧
  (∀ (s : State), s.boot.fastStopped = false → s.saf.failSilent = false → wearApart s = true → s.med.wearSpread = false → 
    exec .wearSpreadTimeout s = .next (countEvent 0x0B6 0 { s with med.wearSpread := true })) ∧
  (∀ (s : State), s.boot.fastStopped = false → s.saf.failSilent = false → wearApart s = false → 
    exec .wearSpreadTimeout s = .next { s with med.wearSpread := false }) ∧
  (∀ (s : State), s.boot.fastStopped = false → s.saf.failSilent = false → 
    exec .packTempSample s = .next ((s.stk.ports.filter fun p => started s p.num).foldl (fun s p => sendReq p.num { tag := 0, cmd := 0x21 } s) s)) ∧
  (∀ (s : State) (ring seq : Nat) (c : Cmd) (v : Volume) (dm : Domain), s.boot.fastStopped = false → opCmd s ring seq opSecureDiscard = some c → s.hdl.holder = true → s.brd.port = [] → s.col.ends = [] → policyRefuses s = false → volumeOf s (pk c 24 2) = some v → domainOf s v.domain = some dm → dm.keyless = false → pk c 32 8 + pk c 40 8 ≤ v.size → longOpOf s opSecureDiscard = none → pk c 40 8 ≠ 0 → cutsLost s v (pk c 32 8) (pk c 40 8) = false → peerNumbers s ([v.num, pk c 24 2]) = false → locksOf s (.plem c.ring c.seq) = [] → plemLocks s + ([(pk c 24 2, pk c 32 8, pk c 32 8 + pk c 40 8 - 1, true)]).length ≤ 256 → s.rlk.locks.length + ([(pk c 24 2, pk c 32 8, pk c 32 8 + pk c 40 8 - 1, true)]).length ≤ 65536 → 
    exec (.secureDiscard ring seq) s = .next (let t := settle true (addNeeds (.plem c.ring c.seq) ([(pk c 24 2, pk c 32 8, pk c 32 8 + pk c 40 8 - 1, true)]) s);
      if (locksOf t (.plem c.ring c.seq)).all (·.granted) then
        markTaken c { t with brd.port := t.brd.port ++ [.command c { nums := [v.num, pk c 32 8, pk c 40 8, pk c 48 8], started := true, arrival := ((locksOf t (.plem c.ring c.seq)).head?.map (·.arrival)).getD 0 }] }
      else t)) ∧
  (∀ (s : State) (ring seq : Nat) (c : Cmd), s.boot.fastStopped = false → opCmd s ring seq opSecureDiscard = some c → s.hdl.holder = true → s.brd.port = [] → s.col.ends = [] → volumeOf s (pk c 24 2) = none → 
    exec (.secureDiscard ring seq) s = .next (settle true (releaseLock (.plem c.ring c.seq) (markTaken c { s with brd.port := [.command c { status := stResNotfound }] })))) ∧
  (∀ (s : State) (c : Cmd) (d : Decision) (vol first n addr : Nat), d.nums = [vol, first, n, addr] → 
    applySecureDiscard c d s = settle true { s with
      med.discard := some { vol := vol, first := first, blocks := n, addr := addr },
      hfe.tags := s.hfe.tags ++ [{ idx := discardTag, kind := 4, state := 3, begun := true, vol := vol, ranges := [(first, n)], arrival := d.arrival, at_ := s.now, discardCpl := true }]
      rlk.locks := updWhere (fun l => l.holder == .plem c.ring c.seq) (fun l => { l with holder := .tag discardTag }) s.rlk.locks }) ∧
  (∀ (s : State) (ring seq : Nat) (c : Cmd), s.boot.fastStopped = false → opCmd s ring seq opMediaHealth = some c → 
    exec (.mediaHealth ring seq) s = .next (completePlain c
      (if pk c 24 1 = 0 then answer (packRecord s (pk c 25 1)) else if pk c 24 1 = 1 then answer ((List.range 64).map (packRecord s)).flatten else answer (deviceRecord s)) (pk c 32 8) s))

/-- A trained port grants its credits and starts with IDENT, one that comes back from Recovery resends; failed training
is counted. A corrupt frame is counted and answered by one NAK, a reserved bit or an unexpected type is a protocol
error, the expected frame with credits is accepted and acknowledged, an earlier one only acknowledged, a later one
answered by a NAK. ACK, NAK and credit frames move the replay buffer and the sender; keep-alives are heard and sent;
an idle receiver or spent replays enter Recovery, whose time-out takes the link down. -/
def Obligations.StakeLinkLayer : Prop :=
  (∀ (s : State) (n : Nat), s.boot.fastStopped = false → n < 64 → s.saf.failSilent = false → s.hdl.bridge = false → (portOf s n).link = 4 → 
    exec (.stakeLinkTrained n) s = .next (pumpPort n (updPort n (fun p => { p with link := 3, dl := resendAll s.now { p.dl with lastRx := s.now } }) s))) ∧
  (∀ (s : State) (n : Nat), s.boot.fastStopped = false → n < 64 → s.saf.failSilent = false → s.hdl.bridge = false → (portOf s n).link = 2 → 
    exec (.stakeLinkTrained n) s = .next (sendReq n { tag := 0, cmd := 0x01 } (creditFrame n 3 (creditFrame n 2 (updPort n (fun p => { p with
      link := 3, absent := false, everTrained := true, wave := if p.retry then 8 else p.wave, retry := false, fenced := false,
      sideErr := false, protoErr := false, verErr := false, geomErr := false, startStep := 0, reqs := [], queued := [], fenceOk := false,
      dl := { granted := firstGrants, lastTx := s.now, lastRx := s.now } }) s))))) ∧
  (∀ (s : State) (n : Nat), s.boot.fastStopped = false → s.saf.failSilent = false → (portOf s n).link = 2 → n < 64 → 
    exec (.stakeTrainingFailed n) s = .next (countEvent 0x0C7 0 (updPort n (fun p => { p with link := 0, retry := true }) s))) ∧
  (∀ (s : State) (n : Nat) (b : List Byte) (f : Frame), s.boot.fastStopped = false → s.saf.failSilent = false → frameOf b = f → (portOf s n).link = 3 → n < 64 → frameCorrupt 4096 f = true → (portOf s n).dl.nakOut = false → 
    exec (.stakeTransactionFrame n b) s = .next (linkFrame n 0x11 (portOf s n).dl.rxSeq
      (updPort n (fun p => { p with dl.nakOut := true }) (countEvent 0x0C0 0 (updPort n (fun p => { p with crc := satAdd (2 ^ 32 - 1) p.crc 1 }) s))))) ∧
  (∀ (s : State) (n : Nat) (b : List Byte) (f : Frame), s.boot.fastStopped = false → s.saf.failSilent = false → frameOf b = f → (portOf s n).link = 3 → n < 64 → frameCorrupt 4096 f = false → f.rsvdZero = false ∨ vcCarries f = false → 
    exec (.stakeTransactionFrame n b) s = .next (protocolError n s)) ∧
  (∀ (s : State) (n : Nat) (b : List Byte) (f : Frame), s.boot.fastStopped = false → s.saf.failSilent = false → frameOf b = f → (portOf s n).link = 3 → n < 64 → frameCorrupt 4096 f = false → f.rsvdZero = true → vcCarries f = true → f.seq = (portOf s n).dl.rxSeq → f.seq < 65536 → covered (creditOf (portOf s n).dl.granted f.vc) f.len = true → 
    exec (.stakeTransactionFrame n b) s = .next (creditFrame n f.vc (linkFrame n 0x10 f.seq (updPort n (fun p => { p with dl := acceptFrame s.now f p.dl }) s)))) ∧
  (∀ (s : State) (n : Nat) (b : List Byte) (f : Frame), s.boot.fastStopped = false → s.saf.failSilent = false → frameOf b = f → (portOf s n).link = 3 → n < 64 → frameCorrupt 4096 f = false → f.rsvdZero = true → vcCarries f = true → 32768 ≤ (f.seq + 65536 - (portOf s n).dl.rxSeq) % 65536 → 
    exec (.stakeTransactionFrame n b) s = .next (linkFrame n 0x10 (((portOf s n).dl.rxSeq + 65535) % 65536) (updPort n (fun p => { p with dl.lastRx := s.now }) s))) ∧
  (∀ (s : State) (n : Nat) (b : List Byte) (f : Frame), s.boot.fastStopped = false → s.saf.failSilent = false → frameOf b = f → (portOf s n).link = 3 → n < 64 → frameCorrupt 4096 f = false → f.rsvdZero = true → vcCarries f = true → 0 < (f.seq + 65536 - (portOf s n).dl.rxSeq) % 65536 → (f.seq + 65536 - (portOf s n).dl.rxSeq) % 65536 < 32768 → 
    exec (.stakeTransactionFrame n b) s = .next (linkFrame n 0x11 (portOf s n).dl.rxSeq (updPort n (fun p => { p with dl.nakOut := true, dl.lastRx := s.now }) s))) ∧
  (∀ (s : State) (n k : Nat), s.boot.fastStopped = false → s.saf.failSilent = false → (portOf s n).link = 3 → 
    exec (.stakeAck n k) s = .next (pumpPort n (updPort n (fun p => { p with dl := ackFrames s.now k p.dl }) (heard n s)))) ∧
  (∀ (s : State) (n k : Nat), s.boot.fastStopped = false → s.saf.failSilent = false → (portOf s n).link = 3 → (portOf s n).dl.replay.any (fun f => f.seq == k) = true → 
    exec (.stakeNak n k) s = .next (replayed n (pumpPort n (updPort n (fun p => { p with dl := nakFrames s.now k p.dl }) (heard n s))))) ∧
  (∀ (s : State) (n k : Nat), s.boot.fastStopped = false → s.saf.failSilent = false → (portOf s n).link = 3 → (portOf s n).dl.replay.any (fun f => f.seq == k) = false → 
    exec (.stakeNak n k) s = .next (pumpPort n (updPort n (fun p => { p with dl := nakFrames s.now k p.dl }) (heard n s)))) ∧
  (∀ (s : State) (n vc f u : Nat), s.boot.fastStopped = false → s.saf.failSilent = false → (portOf s n).link = 3 → vc ≤ 3 → 
    exec (.stakeCredit n vc f u) s = .next (pumpPort n (updPort n (fun p => { p with
      dl.credits := putCredit vc (f % 65536, u % 65536, (creditOf p.dl.credits vc).2.2.1, (creditOf p.dl.credits vc).2.2.2) p.dl.credits }) (heard n s)))) ∧
  (∀ (s : State) (n : Nat), s.boot.fastStopped = false → s.saf.failSilent = false → (portOf s n).link = 3 → 
    exec (.stakeKeepAlive n) s = .next (heard n s)) ∧
  (∀ (s : State) (n : Nat), s.boot.fastStopped = false → s.saf.failSilent = false → (portOf s n).link = 3 → 
    exec (.stakeKeepAliveDue n) s = .next (linkFrame n 0x13 0 s)) ∧
  (∀ (s : State) (n : Nat), s.boot.fastStopped = false → s.saf.failSilent = false → (portOf s n).link = 3 → 
    exec (.stakeRxIdleTimeout n) s = .next (enterRecovery n s)) ∧
  (∀ (s : State) (n : Nat), s.boot.fastStopped = false → s.saf.failSilent = false → (portOf s n).link = 4 → 
    exec (.stakeRecoveryTimeout n) s = .next (linkDown n s)) ∧
  (∀ (s : State) (n : Nat), s.boot.fastStopped = false → s.saf.failSilent = false → (portOf s n).link = 3 → (portOf s n).dl.replay ≠ [] → 
    exec (.stakeReplayTimeout n) s = .next (replayed n (updPort n (fun p => { p with dl := resendAll s.now p.dl }) s)))

/-- The response to an outstanding request of its command frees the tag and does what the command says: IDENT goes on to
GEOM or finds the port closed, GEOM with an accepted geometry to FW_MEASURE, that to HEALTH; a READ, PROGRAM or
ERASE outcome reaches the strip, the block counts and the temperature histograms. A late response only frees a held
tag. A time-out counts 0x0C4 and holds the tag. PACK_FW_LOAD is decided, sets the pack aside and sends FW_LOAD; no
measurement in time declares a member failed. -/
def Obligations.StakeResponsesAndPackFirmware : Prop :=
  (∀ (s : State) (n tag : Nat) (r : Req) (st : Nat) (i : Ident), s.boot.fastStopped = false → s.saf.failSilent = false → reqOf s n tag 1 = some r → 
    exec (.identResponse n tag st i) s = .next (identReply n st i r (dropReq n tag s))) ∧
  (∀ (s : State) (n tag : Nat) (r : Req) (st : Nat) (g : Geom), s.boot.fastStopped = false → s.saf.failSilent = false → reqOf s n tag 2 = some r → 
    exec (.geomResponse n tag st g) s = .next (geomReply n st g r (dropReq n tag s))) ∧
  (∀ (s : State) (n tag : Nat) (r : Req) (st : Nat) (h : List Byte) (v w k : Nat), s.boot.fastStopped = false → s.saf.failSilent = false → reqOf s n tag 48 = some r → 
    exec (.fwMeasureResponse n tag st h v w k) s = .next (measureReply n st h v w k r (dropReq n tag s))) ∧
  (∀ (s : State) (n tag : Nat) (r : Req) (st : Nat) (f : Bool), s.boot.fastStopped = false → s.saf.failSilent = false → reqOf s n tag 32 = some r → 
    exec (.healthResponse n tag st f) s = .next (healthReply n st f r (dropReq n tag s))) ∧
  (∀ (s : State) (n tag : Nat) (r : Req) (st v : Nat) (k : Bool), s.boot.fastStopped = false → s.saf.failSilent = false → reqOf s n tag 16 = some r → 
    exec (.readResponse n tag st v k) s = .next (readReply n st v k r (dropReq n tag s))) ∧
  (∀ (s : State) (n tag : Nat) (r : Req) (st v : Nat), s.boot.fastStopped = false → s.saf.failSilent = false → reqOf s n tag 17 = some r → 
    exec (.programResponse n tag st v) s = .next (programReply n st r (dropReq n tag s))) ∧
  (∀ (s : State) (n tag : Nat) (r : Req) (st v : Nat), s.boot.fastStopped = false → s.saf.failSilent = false → reqOf s n tag 18 = some r → 
    exec (.eraseResponse n tag st v) s = .next (eraseReply n st r (dropReq n tag s))) ∧
  (∀ (s : State) (n tag : Nat) (r : Req) (st : Nat) (v : Int), s.boot.fastStopped = false → s.saf.failSilent = false → reqOf s n tag 33 = some r → 
    exec (.tempResponse n tag st v) s = .next (tempReply n st v r (dropReq n tag s))) ∧
  (∀ (s : State) (n tag : Nat) (r : Req) (st : Nat), s.boot.fastStopped = false → s.saf.failSilent = false → reqOf s n tag 49 = some r → 
    exec (.fwLoadResponse n tag st) s = .next (loadReply n st r (dropReq n tag s))) ∧
  (∀ (n : Nat) (i : Ident) (r : Req) (s : State), (portOf s n).link = 3 → (portOf s n).startStep = 0 → i.arrival = (if s.aon.side then 1 else 0) → i.protoMajor = 1 → i.closed = false → 
    identReply n 0 i r s = sendReq n { tag := 0, cmd := 0x02 } (updPort n (fun p => { p with
      identity := i.identity, maxTag := i.maxTags, epoch := i.epoch, otherClosed := i.otherClosed, fenced := false, startStep := 1,
      sideErr := false, protoErr := p.protoErr, verErr := false }) s)) ∧
  (∀ (n v : Nat) (r : Req) (s : State), r.why ≠ 5 → 
    readReply n 0 v true r s = stagingBegins r (pageRead n (v % 1024) r s)) ∧
  (∀ (n v : Nat) (k : Bool) (r : Req) (s : State), r.why ≠ 5 → 
    readReply n 0x0101 v k r s = reconstructRead r (strikeUnreadable r.seg r.pos (updPackNow n (fun p => { p with uncorrectable := p.uncorrectable + 1 }) (markBad n r.block s)))) ∧
  (∀ (n : Nat) (r : Req) (s : State) (x : Segment) (g : Gen), r.why = 0 → segOf s r.seg = some x → segGen s r.seg = some g → r.pos < g.d → (posOf x r.pos).state = 1 → 
    programReply n 0 r s = appendRecord (.intent r.seg r.pos 2 n (targetBuffer x)) s) ∧
  (∀ (n : Nat) (r : Req) (s : State), 
    programReply n 0x0102 r s = programFailed n r true s) ∧
  (∀ (n : Nat) (r : Req) (s : State), 
    eraseReply n 0 r s = eraseDone n r s) ∧
  (∀ (n : Nat) (r : Req) (s : State), r.why ≠ 7 → 
    eraseReply n 0x0103 r s = (let t := markBad n r.block (updPackNow n (fun p => { p with eraseFail := p.eraseFail + 1 }) s);
      eraseReturned n r (countEvent 0x0B2 0 { t with nv.owedErases := t.nv.owedErases.filter fun e => e != (n, r.block) }))) ∧
  (∀ (n : Nat) (v : Int) (r : Req) (s : State), 
    tempReply n 0 v r s = updPackNow n (fun p => { p with
      tempMin := some (match p.tempMin with | some m => min m v | none => v),
      tempMax := some (match p.tempMax with | some m => max m v | none => v), tempHist := updAt (tempBin v) (· + 1) p.tempHist }) s) ∧
  (∀ (s : State) (n tag st : Nat), s.boot.fastStopped = false → s.saf.failSilent = false → reqOf s n tag 0x31 = none → (portOf s n).reqs.any (fun q => q.tag == tag && q.cmd == 0x31 && q.held) = true → 
    exec (.fwLoadResponse n tag st) s = .next (dropReq n tag s)) ∧
  (∀ (s : State) (n tag : Nat) (r : Req), s.boot.fastStopped = false → s.saf.failSilent = false → ((portOf s n).reqs.find? fun q => q.tag == tag && !q.held) = some r → r.cmd = 0x11 → 
    exec (.stakeResponseTimeout n tag) s = .next (let t := outcomeLost n r true (countEvent 0x0C4 0 (updPort n (fun p => { p with timeouts := satAdd (2 ^ 32 - 1) p.timeouts 1, reqs := updWhere (fun r => r.tag == tag) (fun r => { r with held := true }) p.reqs }) s));
      if pidVal t 0x0C03 < ((portOf t n).reqs.filter (·.held)).length then linkDown n t else t)) ∧
  (∀ (s : State) (ring seq : Nat) (c : Cmd), s.boot.fastStopped = false → opCmd s ring seq opPackFwLoad = some c → s.brd.port = [] → s.hdl.holder = true → longOpOf s opPackFwLoad = none → s.nv.flash.packState ≠ 0 → started s (pk c 24 1) = true → otherPackBusy s (pk c 24 1) = none → 
    exec (.packFwLoad ring seq) s = .next (markTaken c { s with brd.port := [.command c (if staticCheck s s.nv.flash.packImage 7 5 = 0 then { nums := [pk c 24 1], started := true } else { status := stFwSlot, detail := 0x07 })] })) ∧
  (∀ (s : State) (ring seq : Nat) (c : Cmd), s.boot.fastStopped = false → opCmd s ring seq opPackFwLoad = some c → s.brd.port = [] → s.hdl.holder = false → 
    exec (.packFwLoad ring seq) s = .next (markTaken c { s with brd.port := [.command c { status := stOrdState, detail := devState s }] })) ∧
  (∀ (s : State) (d : Decision) (n : Nat), d.nums = [n] → 
    applyPackFwLoad d s = (let t := appendOp s.hfe.arrival 65535 opxTempAbsent [n, 1] [] (updPackNow n (fun p => if isMember s n && p.cond == 0 then { p with cond := 2 } else p) s);
      sendReq n { tag := 0, cmd := 0x31 } (sealRowsOf n { t with fw.packLoadPort := some n }))) ∧
  (∀ (s : State) (n : Nat), s.boot.fastStopped = false → s.saf.failSilent = false → s.fw.packLoadPort = some n → 
    exec (.packFwMeasureTimeout n) s = .next (let t := endLongOp opPackFwLoad stMedAbsent n 0 { s with fw.packLoadPort := none };
      if isMember t n then declareFailed n 3 t else t))

/-- A HELLO over a ready path ends a pairing and is answered by CONFIRM or, failing a check of Table 17-4, by UNPAIR
with that reason, which before the seal records the peer absent; before the Alias key exists either waits (log 146);
CONFIRM with a good signature pairs the heads, with a bad one is reason 3; UNPAIR and a lost path end the pairing; a
refusal is tried again. A trained link with an aligned half sends HELLO; a downed link keeps its lanes; every 2^31
frames the key phase changes. A protocol error is counted as 0x0D0. -/
def Obligations.PeerPairingAndLink : Prop :=
  (∀ (s : State) (h : Hello), s.boot.fastStopped = false → s.saf.failSilent = false → (if h.viaLegacy then class3Ready s else s.hdl.linkUp) = true → 
    exec (.hello h) s = .next (answerHello h (endPairing id { s with hdl.peerMajor := h.protoMajor, hdl.peerMinor := h.protoMinor }))) ∧
  (∀ (s : State) (h : Hello) (n : Nat), s.brd.aliasReady = true → helloFails s h = some n → 
    answerHello h s = refusePairing n s) ∧
  (∀ (s : State) (h : Hello), s.brd.aliasReady = true → helloFails s h = none → 
    answerHello h s = sendPeer 0x02 [] (freeBytes 96 s) 0 { s with hdl.peerHello := some h, hdl.confirmSent := true, free := s.free + 96 }) ∧
  (∀ (s : State) (h : Hello), s.brd.aliasReady = false → 
    answerHello h s = { s with hdl.peerHello := some h, hdl.confirmSent := false } ∧ sendHello s = { s with hdl.helloDue := true }) ∧
  (∀ (s : State) (h : Hello), h.format ≠ 1 → 
    helloFails s h = some 1) ∧
  (∀ (s : State) (h : Hello), h.format = 1 → h.chip = 1 → h.side = s.aon.side → 
    helloFails s h = some 2) ∧
  (∀ (s : State) (h : Hello), h.format = 1 → h.chip = 1 → h.side ≠ s.aon.side → h.chainOk = false → 
    helloFails s h = some 3) ∧
  (∀ (s : State) (h : Hello), h.format = 1 → h.chip = 1 → h.side ≠ s.aon.side → h.chainOk = true → h.ownerRoot ≠ s.nv.fuses.ownerRoot → 
    helloFails s h = some 4) ∧
  (∀ (n : Nat) (s : State), 
    refusePairing n s = (let t := sendPeer 0x03 [n] [] 0 s; let u := if t.boot.recSealed then t else recordMeas { comp := 6, slot := 0xFF, absent := true } t;
      countEvent 0x0D1 0 { u with hdl.pairReason := n, hdl.peerHello := none, hdl.confirmSent := false })) ∧
  (∀ (s : State) (h : Hello), s.boot.fastStopped = false → s.hdl.peerHello = some h → s.hdl.paired = false → s.hdl.confirmSent = true → s.saf.failSilent = false → 
    exec (.confirm true) s = .next (pairUp h s)) ∧
  (∀ (s : State) (h : Hello), s.boot.fastStopped = false → s.hdl.peerHello = some h → s.hdl.paired = false → s.hdl.confirmSent = true → s.saf.failSilent = false → 
    exec (.confirm false) s = .next (refusePairing 3 s)) ∧
  (∀ (s : State) (n : Nat), s.boot.fastStopped = false → s.saf.failSilent = false → peerPath s = true → 
    exec (.unpair n) s = .next (endPairing (fun s => { s with hdl.peerHello := none, hdl.confirmSent := false }) s)) ∧
  (∀ (s : State), s.boot.fastStopped = false → s.hdl.paired = false → s.saf.failSilent = false → peerPath s = true → s.hdl.pairReason ≠ 0 ∨ s.hdl.helloDue = true → s.hdl.peerHello = none → 
    exec .pairingRetry s = .next (sendHello s)) ∧
  (∀ (s : State) (l : Nat), s.boot.fastStopped = false → s.hdl.training = true → s.saf.failSilent = false → pidVal s 0x0D11 ≠ 1 → halfAligned l = true → s.hdl.paired = false → 
    exec (.peerLinkTrained l) s = .next (sendHello { s with hdl.training := false, hdl.lanes := l % 65536, hdl.linkUp := true })) ∧
  (∀ (s : State) (l : Nat), s.boot.fastStopped = false → s.saf.failSilent = false → 
    exec (.peerLinkDown l) s = .next { s with hdl.linkUp := false, hdl.lanes := l % 65536 }) ∧
  (∀ (s : State), s.boot.fastStopped = false → s.saf.failSilent = false → s.hdl.linkUp = false → viaConn s = false → 
    exec .peerPathLoss s = .next (endPairing id s)) ∧
  (∀ (s : State), s.boot.fastStopped = false → s.saf.failSilent = false → peerPath s = true → 
    exec .peerProtocolError s = .next (countEvent 0x0D0 0 { s with hdl.linkCrc := satAdd (2 ^ 32 - 1) s.hdl.linkCrc 1 })) ∧
  (∀ (s : State), s.boot.fastStopped = false → s.saf.failSilent = false → s.hdl.paired = true → s.hdl.bridge = false → (s.hdl.keyGen + 1) * 2 ^ 31 ≤ s.hdl.framesSent → 
    exec .peerKeyPhaseChange s = .next { s with hdl.keyPhase := !s.hdl.keyPhase, hdl.keyGen := s.hdl.keyGen + 1 })

/-- Between paired heads PEER_PLEM takes the packet on ring 62, CARRY only runs the command, PACK_RELAY reads a reached
pack and is MED.ABSENT otherwise, REF_TAKE takes the reference or answers 1, AUTH_STATE applies a decision above the
latest asn on the standby, TAKEOVER_T replays up to T. Health is sent, received and missed; the digest is taken at
its boundary; a failed known-answer test takes the tile out of service. A response ends the request with its tag; an
unpaired head discards messages, a bridged one counts a protocol error. -/
def Obligations.PeerMessages : Prop :=
  (∀ (s : State) (p b : List Byte), s.boot.fastStopped = false → s.saf.failSilent = false → s.hdl.paired = true → s.hdl.bridge = false → 
    exec (.peerPlem p b) s = .next (internalArrive 62 p b (some 0) s)) ∧
  (∀ (s : State) (p b : List Byte), s.boot.fastStopped = false → s.saf.failSilent = false → s.hdl.paired = true → s.hdl.bridge = false → 
    exec (.carry p b) s = .next { s with
      plem.nextUid := s.plem.nextUid + 1,
      plem.cmds := s.plem.cmds ++ [{ ring := 62, seq := numAt (padTo 64 p) 4 4, opcode := numAt (padTo 64 p) 0 2, packet := padTo 64 p, block := b, session := 0, role := 0, uid := s.plem.nextUid, running := true, peerTag := some 0 }] }) ∧
  (∀ (s : State) (p b : List Byte), s.boot.fastStopped = false → s.saf.failSilent = false → s.hdl.paired = false → 
    exec (.carry p b) s = .next s) ∧
  (∀ (s : State) (p b : List Byte), s.boot.fastStopped = false → s.saf.failSilent = false → s.hdl.paired = true → s.hdl.bridge = true → 
    exec (.carry p b) s = .next (peerProtocolError s)) ∧
  (∀ (s : State) (n k o l : Nat) (f : Bool), s.boot.fastStopped = false → s.saf.failSilent = false → s.hdl.paired = true → s.hdl.bridge = false → reached s n = true → 
    exec (.packRelay n k o l f) s = .next (sendReq n { tag := 0, cmd := 0x10, seg := flagAt f 47, pos := o, block := k, why := 5, aux := l } (setReads n k (readCount s n k + stripPages s n) s))) ∧
  (∀ (s : State) (n k o l : Nat) (f : Bool), s.boot.fastStopped = false → s.saf.failSilent = false → s.hdl.paired = true → s.hdl.bridge = false → reached s n = false → 
    exec (.packRelay n k o l f) s = .next (respondPeer 0 stMedAbsent n 0 [] s)) ∧
  (∀ (s : State) (b p : Nat) (x : Stored), s.boot.fastStopped = false → s.saf.failSilent = false → s.hdl.paired = true → s.hdl.bridge = false → refTarget s b p = some x → dedupCount s x < pidVal s 0x0703 → 
    exec (.refTake b p) s = .next (respondPeer 0 0 0 0 [] (updStored x.id (fun x => { x with taken := x.taken + 1 }) s))) ∧
  (∀ (s : State) (b p : Nat), s.boot.fastStopped = false → s.saf.failSilent = false → s.hdl.paired = true → s.hdl.bridge = false → refTarget s b p = none → 
    exec (.refTake b p) s = .next (respondPeer 0 0 0 1 [] s)) ∧
  (∀ (s : State) (a : Nat) (d : AuthDecision), s.boot.fastStopped = false → s.saf.failSilent = false → s.hdl.paired = true → s.hdl.bridge = false → s.hdl.holder = false → asnOf s < a → 
    exec (.authState a d) s = .next (updateMembers (applyDecision d { s with nv.decisions := s.nv.decisions ++ [(a, d)] }))) ∧
  (∀ (s : State) (t : Nat), s.boot.fastStopped = false → s.saf.failSilent = false → s.hdl.paired = true → s.hdl.bridge = false → s.col.replayStep = 7 → 
    exec (.takeoverT t) s = .next (let u := closeOwnSegments ((s.nv.journal.filter fun r => decide (r.jseq ≤ t)).foldl (fun s r => replayCommit r s) (replayBands s));
      let v := withAccess (fun s => { s with nv.volumes := updWhere (fun v => v.ownerB == s.aon.side) (fun v => { v with ownerB := !s.aon.side }) s.nv.volumes }) { u with nv.journal := [], nv.applied := u.nv.nextJseq - 1, nv.persisted := u.nv.nextJseq - 1, col.commitPoint := u.nv.nextJseq - 1 };
      sendMirrorAck (endReplay (writeHeader2 v)))) ∧
  (∀ (s : State), s.boot.fastStopped = false → s.hdl.paired = true → s.saf.failSilent = false → 
    exec .healthSend s = .next (askFenced (sendPeer 0x31 [] (healthBytes s) 0 { s with hdl.healthSeq := (s.hdl.healthSeq + 1) % 2 ^ 32 }))) ∧
  (∀ (s : State) (h : Health), s.boot.fastStopped = false → s.saf.failSilent = false → s.hdl.paired = true → h.crcOk = false → 
    exec (.peerHealth h) s = .next (countEvent 0x0D0 0 s)) ∧
  (∀ (s : State) (h : Health), s.boot.fastStopped = false → s.saf.failSilent = false → s.hdl.paired = true → s.hdl.bridge = true → h.crcOk = true → (withAccess (fun x => { x with hdl.peerHealth := some h, hdl.healthAbsent := false, hdl.silent := x.hdl.silent && !x.hdl.bridge }) s).hdl.bridge = true → 
    exec (.peerHealth h) s = .next (withAccess (fun s => { s with hdl.peerHealth := some h, hdl.healthAbsent := false, hdl.silent := s.hdl.silent && !s.hdl.bridge }) s)) ∧
  (∀ (h : Health) (s : State), h.asn = s.hdl.digestAsn → s.hdl.digest ≠ [] → h.digest.take 8 = s.hdl.digest.take 8 → 
    compareDigest h s = { s with hdl.mismatchRun := 0 }) ∧
  (∀ (h : Health) (s : State), h.asn = s.hdl.digestAsn → s.hdl.digest ≠ [] → h.digest.take 8 ≠ s.hdl.digest.take 8 → 
    compareDigest h s = countEvent 0x0D8 0 { s with
      hdl.mismatches := satAdd (2 ^ 32 - 1) s.hdl.mismatches 1, hdl.mismatchRun := s.hdl.mismatchRun + 1,
      hdl.mismatchFlag := s.hdl.mismatchFlag || decide (2 ≤ s.hdl.mismatchRun + 1) }) ∧
  (∀ (s : State), s.boot.fastStopped = false → s.saf.failSilent = false → s.hdl.paired = true → s.hdl.healthAbsent = false → 
    exec .healthAbsent s = .next (countEvent 0x0DA 0 { s with hdl.healthAbsent := true })) ∧
  (∀ (s : State), s.boot.fastStopped = false → s.saf.failSilent = false → 
    exec .digestBoundary s = .next { s with hdl.digest := Config.sha384 (authorityBytes s), hdl.digestAsn := asnOf s }) ∧
  (∀ (s : State) (k : Nat), s.boot.fastStopped = false → s.saf.failSilent = false → s.hdl.holder = false → s.boot.coilReady = true → k < 256 → ¬ k ∈ s.saf.tileOut → tileState s k = 0 → 
    exec (.tileKnownAnswerTest k false) s = .next (countEvent 0x0D9 0 { s with saf.tileOut := insertNat k s.saf.tileOut, hdl.selfTestFails := min 65535 (s.hdl.selfTestFails + 1) })) ∧
  (∀ (s : State) (k : Nat), s.boot.fastStopped = false → s.saf.failSilent = false → 
    exec (.tileKnownAnswerTest k true) s = .next s) ∧
  (∀ (s : State) (tag st d v : Nat) (b : List Byte) (r : PeerReq), s.boot.fastStopped = false → s.saf.failSilent = false → (s.hdl.reqs.find? fun q => q.tag == tag) = some r → r.code = 5 → 
    exec (.peerResponse tag st d v b) s = .next (carryAnswered r st d b { s with hdl.reqs := s.hdl.reqs.filter fun x => x.tag != tag })) ∧
  (∀ (s : State) (tag st d v : Nat) (b : List Byte) (r : PeerReq), s.boot.fastStopped = false → s.saf.failSilent = false → (s.hdl.reqs.find? fun q => q.tag == tag) = some r → r.code = 6 → 
    exec (.peerResponse tag st d v b) s = .next (keyAnswered r st b { s with hdl.reqs := s.hdl.reqs.filter fun x => x.tag != tag })) ∧
  (∀ (s : State) (tag st d v : Nat) (b : List Byte) (r : PeerReq), s.boot.fastStopped = false → s.saf.failSilent = false → (s.hdl.reqs.find? fun q => q.tag == tag) = some r → r.code = 32 → 
    exec (.peerResponse tag st d v b) s = .next (settle true (forwardAnswered r v b { s with hdl.reqs := s.hdl.reqs.filter fun x => x.tag != tag }))) ∧
  (∀ (s : State) (tag st d v : Nat) (b : List Byte) (r : PeerReq), s.boot.fastStopped = false → s.saf.failSilent = false → (s.hdl.reqs.find? fun q => q.tag == tag) = some r → r.code = 33 → 
    exec (.peerResponse tag st d v b) s = .next (relayAnswered r st { s with hdl.reqs := s.hdl.reqs.filter fun x => x.tag != tag })) ∧
  (∀ (s : State) (tag st d v : Nat) (b : List Byte) (r : PeerReq), s.boot.fastStopped = false → s.saf.failSilent = false → (s.hdl.reqs.find? fun q => q.tag == tag) = some r → r.code = 34 → 
    exec (.peerResponse tag st d v b) s = .next (refAnswered r v { s with hdl.reqs := s.hdl.reqs.filter fun x => x.tag != tag })) ∧
  (∀ (s : State) (tag st d v : Nat) (b : List Byte) (r : PeerReq), s.boot.fastStopped = false → s.saf.failSilent = false → (s.hdl.reqs.find? fun q => q.tag == tag) = some r → r.code = 50 → 
    exec (.peerResponse tag st d v b) s = .next (handoffAnswered st { s with hdl.reqs := s.hdl.reqs.filter fun x => x.tag != tag }))

/-- A fallen HDL_HOLD_IN of a paired standby silences the peer; a rise outside the tie window, or in it on side B, costs
authority or the Handle; a low hold and eligibility let a head take it, at once while paired; a stuck or silent
holder starts a takeover, a severed one only ends pairing. Fence and epoch responses confirm the port; the end of
replay closes the peer's segments and takes its volumes. HANDLE_ELIGIBLE and HANDLE_TRANSFER are decided, HANDOFF
confirms an equal digest, and the transfer ends with the new epoch. -/
def Obligations.HandleSignalsAndTransfer : Prop :=
  (∀ (s : State), s.pins.holdIn = true → s.hdl.paired = true → s.hdl.bridge = false → s.hdl.transferIn = false → s.hdl.holdOut = false → s.saf.failSilent = false → s.boot.fastStopped = false → 
    exec .holdInFall s = .next { peerSilent { s with pins.holdIn := false } with hdl.released := true }) ∧
  (∀ (s : State), s.pins.holdIn = true → s.hdl.paired = false → 
    exec .holdInFall s = .next { s with pins.holdIn := false }) ∧
  (∀ (s : State), s.hdl.holdOut = false → 
    exec .holdInRise s = .next { s with pins.holdIn := true }) ∧
  (∀ (s : State), s.hdl.holdOut = true → s.hdl.peerStuck = false → s.saf.failSilent = false → s.boot.fastStopped = false → s.hdl.tieUntil = none → 
    exec .holdInRise s = .next (lostAuthority { s with pins.holdIn := true })) ∧
  (∀ (s : State) (t : Nat), s.hdl.holdOut = true → s.hdl.peerStuck = false → s.saf.failSilent = false → s.boot.fastStopped = false → s.hdl.tieUntil = some t → s.now ≤ t → s.aon.side = true → 
    exec .holdInRise s = .next (countEvent 0x0D7 0 { s with pins.holdIn := true, hdl.holdOut := false, hdl.holder := false, hdl.takingOver := false, hdl.tieLost := true })) ∧
  (∀ (s : State), s.boot.fastStopped = false → s.pins.holdIn = false → s.hdl.holder = false → s.boot.handleElig = true → s.saf.failSilent = false → s.hdl.bridge = false → allSideErr s = false → s.hdl.takingOver = false → s.hdl.paired = true → 
    exec .handleTake s = .next (tellPacks 0x41 0 (commitEpoch (adoptEpoch { s with
      hdl.holder := true, hdl.holdOut := true, hdl.tieLost := false, hdl.tieUntil := some (s.now + 100000), hdl.transferIn := false })))) ∧
  (∀ (s : State), s.boot.fastStopped = false → s.pins.holdIn = false → s.hdl.holder = false → s.boot.handleElig = true → s.saf.failSilent = false → s.hdl.bridge = false → allSideErr s = false → s.hdl.takingOver = true → s.hdl.fenceDone = true → s.hdl.takeReq = true → 
    exec .handleTake s = .next (takeEnds s)) ∧
  (∀ (s : State), s.boot.fastStopped = false → s.pins.holdIn = true → s.hdl.peerStuck = false → s.hdl.holdOut = false → s.saf.failSilent = false → s.hdl.takingOver = false → s.hdl.silent = false → 
    exec .holderStuck s = .next (beginTake (peerSilent s))) ∧
  (∀ (s : State), s.boot.fastStopped = false → s.hdl.silent = false → s.saf.failSilent = false → 
    exec .peerSilent s = .next (if (peerSilent s).hdl.holder then beginTake (peerSilent s) else peerSilent s)) ∧
  (∀ (s : State), s.boot.fastStopped = false → s.hdl.severed = false → s.hdl.silent = false → s.hdl.bridge = false → s.saf.failSilent = false → 
    exec .peerSevered s = .next (mirrorLoss (updateMembers (endPairing (fun s => { s with hdl.severed := true }) (countEvent 0x0D4 0 s))))) ∧
  (∀ (s : State), s.boot.fastStopped = false → s.saf.failSilent = false → s.pins.holdIn = false → 
    exec .peerStuckClear s = .next { s with hdl.peerStuck := false }) ∧
  (∀ (s : State), s.boot.fastStopped = false → s.pins.pwrok = true → 
    exec .outputReadbackMismatch s = .next (failSilent 6 0x0DB (countEvent 0x0DB 0 { s with hdl.readbackErr := true }))) ∧
  (∀ (s : State), s.boot.fastStopped = false → s.saf.failSilent = false → 
    exec .beatInEdge s = .next { s with hdl.beatInAt := some s.now, hdl.silent := s.hdl.silent && (s.hdl.peerStuck || s.hdl.released || s.hdl.bridge) }) ∧
  (∀ (s : State), s.boot.fastStopped = false → holdsClash s = true → s.saf.failSilent = false → s.pins.pwrok = true → 
    exec .beatOutEdge s = .next (lostAuthority s)) ∧
  (∀ (s : State), s.boot.fastStopped = false → holdsClash s = false → s.boot.handleElig = true → s.saf.failSilent = false → s.pins.pwrok = true → 
    exec .beatOutEdge s = .next { s with hdl.beatOut := !s.hdl.beatOut }) ∧
  (∀ (s : State) (n tag : Nat) (r : Req) (st v : Nat), s.boot.fastStopped = false → s.saf.failSilent = false → reqOf s n tag 64 = some r → 
    exec (.fencePortResponse n tag st v) s = .next (fenceReply n st v r (dropReq n tag s))) ∧
  (∀ (s : State) (n tag : Nat) (r : Req) (st v : Nat), s.boot.fastStopped = false → s.saf.failSilent = false → reqOf s n tag 65 = some r → 
    exec (.setEpochResponse n tag st v) s = .next (setEpochReply n st r (dropReq n tag s))) ∧
  (∀ (n v : Nat) (r : Req) (s : State), r.aux = 0 → r.epoch = s.hdl.epoch → 
    fenceReply n 0 v r s = checkFence (updPort n (fun p => { p with fenceOk := true, epoch := max p.epoch r.epoch, otherClosed := bit v 0 }) s)) ∧
  (∀ (n : Nat) (r : Req) (s : State), 
    setEpochReply n 0 r s = updPort n (fun p => { p with epoch := max p.epoch r.epoch }) s) ∧
  (∀ (s : State), s.boot.fastStopped = false → s.saf.failSilent = false → s.hdl.takingOver = true → s.hdl.fenceDone = true → s.hdl.holder = true → 
    exec .peerReplayEnd s = .next (let t := (s.nv.segs.filter fun x => x.sideB != s.aon.side && (x.state == 0 || x.state == 1)).foldl (fun s x => closePeerSegment x s) s;
      let u := (t.nv.bands.filter fun b => b.state == 3 && b.sideB != s.aon.side).foldl (fun s b => eraseBand b.num s) t;
      withAccess (fun v => { v with
        hdl.takingOver := false,
        hfe.arrival := max v.hfe.arrival (u.nv.mirror.foldl (fun m r => match r.body with | .commit a _ _ _ _ _ _ => max m (a + 1) | .commitOp a _ _ => max m (a + 1) | _ => m) 0),
        nv.volumes := updWhere (fun w => w.ownerB != s.aon.side) (fun w => { w with ownerB := s.aon.side, moving := false }) v.nv.volumes }) u)) ∧
  (∀ (s : State) (ring seq : Nat) (c : Cmd), s.boot.fastStopped = false → opCmd s ring seq opHandleEligible = some c → s.brd.port = [] → ¬ (s.hdl.bridge = true ∧ pk c 24 1 = 1) → ¬ (s.hdl.holder = true ∧ pk c 24 1 = 0) → s.boot.handleElig ≠ (pk c 24 1 == 1) → 
    exec (.handleEligible ring seq) s = .next (markTaken c { s with brd.port := [.command c { nums := [pk c 24 1] }] })) ∧
  (∀ (s : State) (ring seq : Nat) (c : Cmd), s.boot.fastStopped = false → opCmd s ring seq opHandleEligible = some c → s.brd.port = [] → s.hdl.holder = true → pk c 24 1 = 0 → 
    exec (.handleEligible ring seq) s = .next (markTaken c { s with brd.port := [.command c { status := stOrdState, detail := devState s }] })) ∧
  (∀ (s : State) (c : Cmd) (d : Decision) (v : Nat), c.opcode = opHandleEligible → d.nums = [v] → 
    applyCommand c d s = { s with boot.handleElig := v == 1, hdl.beatOut := s.hdl.beatOut && v == 1 }) ∧
  (∀ (s : State) (ring seq : Nat) (c : Cmd) (h : Health), s.boot.fastStopped = false → opCmd s ring seq opHandleTransfer = some c → s.hdl.holder = true → s.brd.port = [] → s.hdl.paired = true → s.hdl.bridge = false → s.hdl.transfer = none → s.hdl.peerHealth = some h → h.eligible = true → handoffBar s = none → 
    exec (.handleTransfer ring seq) s = .next (takeDecision c { started := true } s)) ∧
  (∀ (s : State) (ring seq : Nat) (c : Cmd), s.boot.fastStopped = false → opCmd s ring seq opHandleTransfer = some c → s.hdl.holder = true → s.brd.port = [] → s.hdl.paired = false → s.hdl.transfer = none → 
    exec (.handleTransfer ring seq) s = .next (takeDecision c { status := stNetPeer } s)) ∧
  (∀ (c : Cmd) (s : State), 
    applyHandleTransfer c s = requestPeer { tag := 0, code := 0x32 } [asnOf s] ((Config.sha384 (authorityBytes s)).take 8) 0 { s with hdl.transfer := some c, hdl.oldEpoch := s.hdl.epoch }) ∧
  (∀ (s : State) (a : Nat) (b : List Byte), s.boot.fastStopped = false → s.saf.failSilent = false → s.hdl.paired = true → s.hdl.bridge = false → a = asnOf s → (Config.sha384 (authorityBytes s)).take 8 = b.take 8 → 
    exec (.handoff a b) s = .next (respondPeer 0 0 0 0 [] { s with hdl.transferIn := true })) ∧
  (∀ (s : State) (a : Nat) (b : List Byte), s.boot.fastStopped = false → s.saf.failSilent = false → s.hdl.paired = true → s.hdl.bridge = false → a ≠ asnOf s → 
    exec (.handoff a b) s = .next (respondPeer 0 stDevFault 0x0D8 0 [] s)) ∧
  (∀ (s : State), s.hdl.transfer ≠ none → 
    handoffAnswered 0 s = { s with hdl.holdOut := false, hdl.holder := false }) ∧
  (∀ (s : State) (c : Cmd), s.boot.fastStopped = false → s.saf.failSilent = false → s.hdl.transfer = some c → s.hdl.holder = false → s.hdl.oldEpoch < s.hdl.epoch → 
    exec .handleTransferEnd s = .next (endTwoPart c stOkDone 0 s.hdl.epoch false { s with hdl.transfer := none }))

/-- An enabled, ready controller creates and deletes I/O queues as Table 07-5 allows and refuses the rest by its status;
deleting a submission queue aborts its commands; a doorbell moves the tail of a PCIe queue within its size. Set and
Get Features hold the features of the table, the queue count and the power state; of Keep Alive the timer restarts;
up to 16 event requests wait. A controller that is not ready fetches nothing. -/
def Obligations.NvmeQueuesAndFeatures : Prop :=
  (∀ (s : State) (k cid : Nat) (a : Ctrl) (q z : Nat), s.boot.fastStopped = false → s.saf.failSilent = false → ctrlOf s k = some a → ctrlReady s a = true → a.id < 2 → q ≠ 0 → a.cqs.any (fun e => e.1 == q) = false → a.cqs.length < pcieQueues s a.id → queueSizeOk z = true → 
    exec (.nvmeCreateIoCq k cid q z true) s = .next (adminDone a.id cid .success (updCtrl a.id (fun c => { c with cqs := c.cqs ++ [(q, z)] }) s))) ∧
  (∀ (s : State) (k cid : Nat) (a : Ctrl) (q z : Nat) (f : Bool), s.boot.fastStopped = false → s.saf.failSilent = false → ctrlOf s k = some a → ctrlReady s a = true → a.id < 2 → f = true → q = 0 ∨ a.cqs.any (fun e => e.1 == q) = true ∨ pcieQueues s a.id ≤ a.cqs.length → 
    exec (.nvmeCreateIoCq k cid q z f) s = .next (adminDone a.id cid .invalidQueue s)) ∧
  (∀ (s : State) (k cid : Nat) (a : Ctrl) (q p z : Nat), s.boot.fastStopped = false → s.saf.failSilent = false → ctrlOf s k = some a → ctrlReady s a = true → a.id < 2 → q ≠ 0 → a.sqs.any (fun e => e.1 == q) = false → a.sqs.length < pcieQueues s a.id → a.cqs.any (fun e => e.1 == p) = true → queueSizeOk z = true → 
    exec (.nvmeCreateIoSq k cid q p z true) s = .next (adminDone a.id cid .success (updCtrl a.id (fun c => { c with sqs := c.sqs ++ [(q, p, z, 0)] }) s))) ∧
  (∀ (s : State) (k cid : Nat) (a : Ctrl) (q p z : Nat), s.boot.fastStopped = false → s.saf.failSilent = false → ctrlOf s k = some a → ctrlReady s a = true → a.id < 2 → q ≠ 0 → a.sqs.any (fun e => e.1 == q) = false → a.sqs.length < pcieQueues s a.id → a.cqs.any (fun e => e.1 == p) = false → 
    exec (.nvmeCreateIoSq k cid q p z true) s = .next (adminDone a.id cid .completionQueueInvalid s)) ∧
  (∀ (s : State) (k cid : Nat) (a : Ctrl) (q : Nat), s.boot.fastStopped = false → s.saf.failSilent = false → ctrlOf s k = some a → ctrlReady s a = true → a.id < 2 → a.cqs.any (fun e => e.1 == q) = true → a.sqs.any (fun e => e.2.1 == q) = false → 
    exec (.nvmeDeleteIoCq k cid q) s = .next (adminDone a.id cid .success (updCtrl a.id (fun c => { c with cqs := c.cqs.filter fun e => e.1 != q }) s))) ∧
  (∀ (s : State) (k cid : Nat) (a : Ctrl) (q : Nat), s.boot.fastStopped = false → s.saf.failSilent = false → ctrlOf s k = some a → ctrlReady s a = true → a.id < 2 → a.cqs.any (fun e => e.1 == q) = true → a.sqs.any (fun e => e.2.1 == q) = true → 
    exec (.nvmeDeleteIoCq k cid q) s = .next (adminDone a.id cid .invalidQueueDeletion s)) ∧
  (∀ (s : State) (k cid : Nat) (a : Ctrl) (q : Nat), s.boot.fastStopped = false → s.saf.failSilent = false → ctrlOf s k = some a → ctrlReady s a = true → a.id < 2 → a.sqs.any (fun e => e.1 == q) = true → a.deletes.any (fun e => e.2 == q) = false → 
    exec (.nvmeDeleteIoSq k cid q) s = .next (settle true (queueChecks (abortTags (some .abortedSqDeletion) (fun t => t.ctrl == a.id && t.sq == q)
      (updCtrl a.id (fun c => { c with deletes := c.deletes ++ [(cid, q)] }) (dropWaiting (some .abortedSqDeletion) (fun w => w.ctrl == a.id && w.sq == q) s)))))) ∧
  (∀ (s : State) (k q n : Nat), s.boot.fastStopped = false → s.saf.failSilent = false → k < 2 → fetches s k q = true → 
    exec (.nvmeSqDoorbell k q n) s = .next (updCtrl k (fun c => { c with sqs := c.sqs.map fun e => if e.1 == q && decide (n ≤ e.2.2.1) then (e.1, e.2.1, e.2.2.1, n) else e }) s)) ∧
  (∀ (s : State) (k cid : Nat) (a : Ctrl) (n : Nat), s.boot.fastStopped = false → s.saf.failSilent = false → ctrlOf s k = some a → ctrlReady s a = true → a.id = 0 → n ≤ 2 → 
    exec (.nvmeSetFeaturesPower k cid n) s = .next (requestPower { target := n, cid := some cid } s)) ∧
  (∀ (s : State) (k cid : Nat) (a : Ctrl) (n : Nat), s.boot.fastStopped = false → s.saf.failSilent = false → ctrlOf s k = some a → ctrlReady s a = true → a.id ≠ 0 → 
    exec (.nvmeSetFeaturesPower k cid n) s = .next (adminDone a.id cid .featureNotChangeable s)) ∧
  (∀ (e : PowerEntry) (s : State), s.hfe.pwrEntry = none → s.hfe.pwrCur < e.target → 
    requestPower e s = { s with hfe.pwrEntry := some e }) ∧
  (∀ (e : PowerEntry) (s : State), s.hfe.pwrEntry = none → e.target ≤ s.hfe.pwrCur → 
    requestPower e s = powerAnswered e { s with hfe.pwrCur := e.target }) ∧
  (∀ (s : State) (e : PowerEntry), s.boot.fastStopped = false → s.hfe.pwrEntry = some e → e.windowOpen = true → 
    exec .powerEntryWindowEnd s = .next { s with hfe.pwrEntry := some { e with windowOpen := false, lastSeq := s.hfe.arrival } }) ∧
  (∀ (s : State) (e : PowerEntry), s.boot.fastStopped = false → s.hfe.pwrEntry = some e → e.windowOpen = false → s.hfe.tags.any (fun t => decide (t.idx < 65536) && decide (t.arrival < e.lastSeq)) = false → 
    exec .powerEntryDone s = .next (let t := powerAnswered e { s with hfe.pwrCur := e.target, hfe.pwrEntry := none };
      beginQueued t.hfe.pwrQueue.length t)) ∧
  (∀ (s : State) (k cid : Nat) (a : Ctrl) (n : Nat), s.boot.fastStopped = false → s.saf.failSilent = false → ctrlOf s k = some a → ctrlReady s a = true → min n (queuesLeft s a.id) ≠ 0 → 
    exec (.nvmeSetFeaturesQueues k cid n) s = .next (adminValue a.id cid ((min n (queuesLeft s a.id) - 1) * 65537) (updCtrl a.id (fun c => { c with grantedQ := min n (queuesLeft s a.id) }) s))) ∧
  (∀ (s : State) (k cid : Nat) (a : Ctrl) (f v : Nat), s.boot.fastStopped = false → s.saf.failSilent = false → ctrlOf s k = some a → ctrlReady s a = true → f ≠ 0x02 → f ≠ 0x07 → plainFeature a f = true → 
    exec (.nvmeSetFeatures k cid f v) s = .next (adminDone a.id cid .success (updCtrl a.id (fun c => { c with kaAt := if f = 0x0F then s.now else c.kaAt, feats := (f, v) :: c.feats.filter fun e => e.1 != f }) s))) ∧
  (∀ (s : State) (k cid : Nat) (a : Ctrl) (f v : Nat), s.boot.fastStopped = false → s.saf.failSilent = false → ctrlOf s k = some a → ctrlReady s a = true → f ≠ 0x02 → f ≠ 0x07 → plainFeature a f = false → 
    exec (.nvmeSetFeatures k cid f v) s = .next (adminDone a.id cid .invalidField s)) ∧
  (∀ (s : State) (k cid : Nat) (a : Ctrl) (f : Nat), s.boot.fastStopped = false → s.saf.failSilent = false → ctrlOf s k = some a → ctrlReady s a = true → f ≠ 0x02 → f ≠ 0x07 → plainFeature a f = true → 
    exec (.nvmeGetFeatures k cid f) s = .next (adminValue a.id cid (featureOf a f) s)) ∧
  (∀ (s : State) (k cid : Nat) (a : Ctrl), s.boot.fastStopped = false → s.saf.failSilent = false → ctrlOf s k = some a → ctrlReady s a = true → 
    exec (.nvmeGetFeatures k cid 0x02) s = .next (adminValue a.id cid s.hfe.pwrCur s)) ∧
  (∀ (s : State) (k cid : Nat) (a : Ctrl), s.boot.fastStopped = false → s.saf.failSilent = false → ctrlOf s k = some a → ctrlReady s a = true → a.aers.length < 16 → 
    exec (.nvmeAsyncEventRequest k cid) s = .next (updCtrl a.id (fun c => { c with aers := c.aers ++ [cid] }) s)) ∧
  (∀ (s : State) (k cid : Nat) (a : Ctrl), s.boot.fastStopped = false → s.saf.failSilent = false → ctrlOf s k = some a → ctrlReady s a = true → 16 ≤ a.aers.length → 
    exec (.nvmeAsyncEventRequest k cid) s = .next (adminDone a.id cid .aerLimit s)) ∧
  (∀ (s : State) (k cid : Nat) (a : Ctrl), s.boot.fastStopped = false → s.saf.failSilent = false → ctrlOf s k = some a → ctrlReady s a = true → 
    exec (.nvmeKeepAlive k cid) s = .next (adminDone a.id cid .success (updCtrl a.id (fun c => { c with kaAt := s.now }) s))) ∧
  (∀ (s : State) (k cid n : Nat) (a : Ctrl), s.boot.fastStopped = false → s.saf.failSilent = false → ctrlOf s k = some a → ctrlReady s a = true → 
    exec (.nvmeInvalidOpcode k ⟨0, cid⟩ n) s = .next (adminDone a.id cid .invalidOpcode s)) ∧
  (∀ (s : State) (k q cid n : Nat), s.boot.fastStopped = false → s.saf.failSilent = false → q ≠ 0 → fetches s k q = true → 
    exec (.nvmeInvalidOpcode k ⟨q, cid⟩ n) s = .next (emit (.nvmeCpl k q cid .invalidOpcode 0 []) s)) ∧
  (∀ (s : State) (k cid n : Nat), s.boot.fastStopped = false → s.saf.failSilent = false → ctrlOf s k = none → 
    exec (.nvmeInvalidOpcode k ⟨0, cid⟩ n) s = .next s)

/-- A ready controller answers Get Log Page and Identify with the data of its page; an Abort is resolved to the tag of
its command and arbitrated: not found, won or lost, each counted; more than 256 are refused. Clearing CC.EN, a
function-level reset and PERST reset the controller; setting CC.EN enables it. A Fabrics Connect makes a dynamic
controller, properties are read and written, and a disconnect, an expired timer or a lost connection ends the
association. -/
def Obligations.NvmeControllersAndAssociations : Prop :=
  (∀ (s : State) (k cid : Nat) (a : Ctrl) (l n g : Nat), s.boot.fastStopped = false → s.saf.failSilent = false → ctrlOf s k = some a → ctrlReady s a = true → 4 * (n + 1) ≤ mdts → 4 * (n + 1) ≤ g → 
    exec (.nvmeGetLogPage k cid ⟨l, n, g⟩) s = .next (getLogPage a cid l s)) ∧
  (∀ (s : State) (k cid : Nat) (a : Ctrl) (l n g : Nat), s.boot.fastStopped = false → s.saf.failSilent = false → ctrlOf s k = some a → ctrlReady s a = true → 4 * (n + 1) ≤ mdts → g < 4 * (n + 1) → 
    exec (.nvmeGetLogPage k cid ⟨l, n, g⟩) s = .next (adminDone a.id cid .sglLengthInvalid s)) ∧
  (∀ (s : State) (k cid : Nat) (a : Ctrl) (l n g : Nat), s.boot.fastStopped = false → s.saf.failSilent = false → ctrlOf s k = some a → ctrlReady s a = true → mdts < 4 * (n + 1) → 
    exec (.nvmeGetLogPage k cid ⟨l, n, g⟩) s = .next (adminDone a.id cid .invalidField s)) ∧
  (∀ (a : Ctrl) (cid : Nat) (s : State), 
    getLogPage a cid 0x04 s = adminData a.id cid a.changed (updCtrl a.id (fun c => { c with changed := [] }) s)) ∧
  (∀ (a : Ctrl) (cid : Nat) (s : State), 
    getLogPage a cid 0x0C s = adminData a.id cid (((s.nv.volumes.filter (attached a)).map fun v => [v.num + 1, anaState s v]).flatten) s) ∧
  (∀ (s : State) (k cid : Nat) (a : Ctrl) (n m i : Nat), s.boot.fastStopped = false → s.saf.failSilent = false → ctrlOf s k = some a → ctrlReady s a = true → 
    exec (.nvmeIdentify k cid ⟨n, i⟩ m) s = .next (identify a cid n m i s)) ∧
  (∀ (a : Ctrl) (cid n m i : Nat) (s : State), 5 ≤ n → n ≤ 8 → i ≠ 0 → 
    identify a cid n m i s = adminDone a.id cid .invalidField s) ∧
  (∀ (a : Ctrl) (cid m i : Nat) (s : State) (v : Volume), m ≠ 0 → volumeOf s (m - 1) = some v → attached a v = true → 
    identify a cid 0x00 m i s = adminData a.id cid (identifyNs v) s) ∧
  (∀ (a : Ctrl) (cid m i : Nat) (s : State), m = 0 ∨ volumeOf s (m - 1) = none → 
    identify a cid 0x00 m i s = adminDone a.id cid .invalidNamespace s) ∧
  (∀ (s : State) (k cid : Nat) (a : Ctrl) (q t : Nat), s.boot.fastStopped = false → s.saf.failSilent = false → ctrlOf s k = some a → ctrlReady s a = true → abortsOf s a.id < 256 → 
    exec (.nvmeAbort k cid q t) s = .next ({ s with
      hfe.aborts := s.hfe.aborts ++ [{ ctrl := a.id, cid := cid, target := (s.hfe.tags.find? fun t' => t'.ctrl == a.id && t'.sq == q && t'.cid == t && t'.peerTag.isNone && decide (t'.idx < 65536)).map fun t' => (t'.idx, t'.gen) }] })) ∧
  (∀ (s : State) (k cid : Nat) (b : AbortCmd), s.boot.fastStopped = false → s.saf.failSilent = false → (s.hfe.aborts.find? fun e => e.ctrl == k && e.cid == cid && !e.remote) = some b → 
    exec (.abortArbitration k cid) s = .next (arbitrate b s)) ∧
  (∀ (b : AbortCmd) (s : State), abortTarget s b = none → 
    arbitrate b s = abortDone b 1 2 (countEvent 0x051 0 { s with hfe.abortNotFound := satAdd (2 ^ 32 - 1) s.hfe.abortNotFound 1 })) ∧
  (∀ (b : AbortCmd) (s : State) (t : Tag), abortTarget s b = some t → leftForPeer s t.idx = false → abortWins s t = true → 
    arbitrate b s = settle true (abortDone b 0 0 (endTag t.idx .abortRequested [] { s with hfe.abortWon := satAdd (2 ^ 32 - 1) s.hfe.abortWon 1 }))) ∧
  (∀ (b : AbortCmd) (s : State) (t : Tag), abortTarget s b = some t → leftForPeer s t.idx = false → abortWins s t = false → 
    arbitrate b s = abortDone b 1 1 { s with hfe.abortLost := satAdd (2 ^ 32 - 1) s.hfe.abortLost 1 }) ∧
  (∀ (s : State) (k : Nat), s.boot.fastStopped = false → 
    exec (.ccEnClear k) s = .next (resetCtrl k s)) ∧
  (∀ (s : State) (k : Nat), s.boot.fastStopped = false → k < 2 → 
    exec (.functionLevelReset k) s = .next (resetCtrl k s)) ∧
  (∀ (s : State) (k c : Nat), s.boot.fastStopped = false → 
    exec (.ccEnSet k c) s = .next (updCtrl k (fun a => if a.en then a else { a with en := true, css := c, cfs := a.cfs || !(c == 0 || c == 6) }) s)) ∧
  (∀ (s : State) (k : Nat), s.boot.fastStopped = false → s.saf.failSilent = false → 2 ≤ k → (ctrlOf s k).isSome = true → 
    exec (.keepAliveExpiry k) s = .next (endAssociation k (countEvent 0x052 0 s))) ∧
  (∀ (s : State) (k cid : Nat), s.boot.fastStopped = false → s.saf.failSilent = false → s.pwr.doze = false → 2 ≤ k → (ctrlOf s k).isSome = true → 
    exec (.fabricsDisconnect k cid) s = .next (endAssociation k (adminDone k cid .success s))) ∧
  (∀ (s : State) (k : Nat), s.boot.fastStopped = false → s.saf.failSilent = false → 
    exec (.fabricsConnectionLoss k) s = .next (endAssociation k s)) ∧
  (∀ (s : State) (n cid z : Nat) (f : Bool) (h : List Byte), s.boot.fastStopped = false → s.saf.failSilent = false → s.pwr.doze = false → s.rma.conns.any (fun x => x.num == n && decide (x.cls < 2) && x.state == 2 && x.ctrlId.isNone) = true → (s.hfe.ctrls.filter fun c => decide (2 ≤ c.id)).length < 4096 → 
    exec (.fabricsConnect n cid none 0 z f h) s = .next (adminValue s.hfe.nextCtrl cid s.hfe.nextCtrl { s with
      hfe.ctrls := s.hfe.ctrls ++ [{ id := s.hfe.nextCtrl, conn := n, discovery := f, hostNqn := h, kaAt := s.now }],
      hfe.nextCtrl := s.hfe.nextCtrl + 1,
      rma.conns := updWhere (fun x => x.num == n) (fun x => { x with ctrlId := some s.hfe.nextCtrl, qid := 0 }) s.rma.conns })) ∧
  (∀ (s : State) (k cid o v : Nat) (a : Ctrl), s.boot.fastStopped = false → s.saf.failSilent = false → s.pwr.doze = false → ctrlOf s k = some a → 2 ≤ a.id → propertyOf s a o = some v → 
    exec (.fabricsPropertyGet k cid o) s = .next (adminValue k cid v s)) ∧
  (∀ (s : State) (k cid v : Nat) (a : Ctrl), s.boot.fastStopped = false → s.saf.failSilent = false → s.pwr.doze = false → ctrlOf s k = some a → 2 ≤ a.id → bit v 0 = true → 
    exec (.fabricsPropertySet k cid 0x14 v) s = .next (adminDone k cid .success (enableCtrl k (field v 4 3) s))) ∧
  (∀ (s : State) (k cid v : Nat) (a : Ctrl), s.boot.fastStopped = false → s.saf.failSilent = false → s.pwr.doze = false → ctrlOf s k = some a → 2 ≤ a.id → bit v 0 = false → a.en = true → 
    exec (.fabricsPropertySet k cid 0x14 v) s = .next (adminDone k cid .success (resetCtrl k s))) ∧
  (∀ (s : State), 
    exec .perstC0Assert s = .next (let t := resetCtrl 0 ((List.range 60).foldl (fun s n => closeRing n s) s);
      { t with pins.perstC0 := true, boot.linkUpC0 := false, dmv.lanes := updWhere (fun l => decide (14 ≤ l.num) && l.enable) (fun l => { l with enable := false, held := [], run := none, paceWait := none, fenceWait := false, stopped := true }) t.dmv.lanes })) ∧
  (∀ (s : State), 
    exec .perstC1Assert s = .next { resetCtrl 1 s with pins.perstC1 := true, boot.linkUpC1 := false })

/-- For each I/O command that an enabled controller fetches: when the checks at fetch give no refusal it joins the end
of the waiting list, and otherwise it completes at once with that status. The refusals are those of the namespace,
the state of access, write protection and the lengths, in that order. FWD_CMD does the same for the peer's command,
answering on its tag. -/
def Obligations.IoCommandsAtFetch : Prop :=
  (∀ (s : State) (k q cid : Nat) (n : Nat), s.boot.fastStopped = false → s.saf.failSilent = false → fetches s k q = true → k < 2 → s.hfe.waiting.length < freeTags s → ioRefusal s (ctrlOf s k) { opcode := 0x00, nsid := n } = none → 
    exec (.nvmeFlush k q cid n) s = .next { s with hfe.waiting := s.hfe.waiting ++ [{ ctrl := k, sq := q, cid := cid, cmd := { opcode := 0x00, nsid := n } }] }) ∧
  (∀ (s : State) (k q cid : Nat) (n : Nat) (e : NvmeStatus), s.boot.fastStopped = false → s.saf.failSilent = false → fetches s k q = true → k < 2 → s.hfe.waiting.length < freeTags s → ioRefusal s (ctrlOf s k) { opcode := 0x00, nsid := n } = some e → 
    exec (.nvmeFlush k q cid n) s = .next (emit (.nvmeCpl k q cid e 0 []) s)) ∧
  (∀ (s : State) (k q cid : Nat) (n l b : Nat) (p : PiCtl) (g : Nat), s.boot.fastStopped = false → s.saf.failSilent = false → fetches s k q = true → k < 2 → s.hfe.waiting.length < freeTags s → ioRefusal s (ctrlOf s k) { opcode := 0x01, nsid := n, slba := l, nlb := b, pi := p, sglLen := g } = none → 
    exec (.nvmeWrite k q cid n l b p g) s = .next { s with hfe.waiting := s.hfe.waiting ++ [{ ctrl := k, sq := q, cid := cid, cmd := { opcode := 0x01, nsid := n, slba := l, nlb := b, pi := p, sglLen := g } }] }) ∧
  (∀ (s : State) (k q cid : Nat) (n l b : Nat) (p : PiCtl) (g : Nat) (e : NvmeStatus), s.boot.fastStopped = false → s.saf.failSilent = false → fetches s k q = true → k < 2 → s.hfe.waiting.length < freeTags s → ioRefusal s (ctrlOf s k) { opcode := 0x01, nsid := n, slba := l, nlb := b, pi := p, sglLen := g } = some e → 
    exec (.nvmeWrite k q cid n l b p g) s = .next (emit (.nvmeCpl k q cid e 0 []) s)) ∧
  (∀ (s : State) (k q cid : Nat) (n l b : Nat) (p : PiCtl) (g : Nat), s.boot.fastStopped = false → s.saf.failSilent = false → fetches s k q = true → k < 2 → s.hfe.waiting.length < freeTags s → ioRefusal s (ctrlOf s k) { opcode := 0x02, nsid := n, slba := l, nlb := b, pi := p, sglLen := g } = none → 
    exec (.nvmeRead k q cid n l b p g) s = .next { s with hfe.waiting := s.hfe.waiting ++ [{ ctrl := k, sq := q, cid := cid, cmd := { opcode := 0x02, nsid := n, slba := l, nlb := b, pi := p, sglLen := g } }] }) ∧
  (∀ (s : State) (k q cid : Nat) (n l b : Nat) (p : PiCtl) (g : Nat) (e : NvmeStatus), s.boot.fastStopped = false → s.saf.failSilent = false → fetches s k q = true → k < 2 → s.hfe.waiting.length < freeTags s → ioRefusal s (ctrlOf s k) { opcode := 0x02, nsid := n, slba := l, nlb := b, pi := p, sglLen := g } = some e → 
    exec (.nvmeRead k q cid n l b p g) s = .next (emit (.nvmeCpl k q cid e 0 []) s)) ∧
  (∀ (s : State) (k q cid : Nat) (n l b : Nat) (p : PiCtl) (g : Nat), s.boot.fastStopped = false → s.saf.failSilent = false → fetches s k q = true → k < 2 → s.hfe.waiting.length < freeTags s → ioRefusal s (ctrlOf s k) { opcode := 0x05, nsid := n, slba := l, nlb := b, pi := p, sglLen := g } = none → 
    exec (.nvmeCompare k q cid n l b p g) s = .next { s with hfe.waiting := s.hfe.waiting ++ [{ ctrl := k, sq := q, cid := cid, cmd := { opcode := 0x05, nsid := n, slba := l, nlb := b, pi := p, sglLen := g } }] }) ∧
  (∀ (s : State) (k q cid : Nat) (n l b : Nat) (p : PiCtl) (g : Nat) (e : NvmeStatus), s.boot.fastStopped = false → s.saf.failSilent = false → fetches s k q = true → k < 2 → s.hfe.waiting.length < freeTags s → ioRefusal s (ctrlOf s k) { opcode := 0x05, nsid := n, slba := l, nlb := b, pi := p, sglLen := g } = some e → 
    exec (.nvmeCompare k q cid n l b p g) s = .next (emit (.nvmeCpl k q cid e 0 []) s)) ∧
  (∀ (s : State) (k q cid : Nat) (n l b : Nat) (z : Bool), s.boot.fastStopped = false → s.saf.failSilent = false → fetches s k q = true → k < 2 → s.hfe.waiting.length < freeTags s → ioRefusal s (ctrlOf s k) { opcode := 0x08, nsid := n, slba := l, nlb := b, deac := z } = none → 
    exec (.nvmeWriteZeroes k q cid n l b z) s = .next { s with hfe.waiting := s.hfe.waiting ++ [{ ctrl := k, sq := q, cid := cid, cmd := { opcode := 0x08, nsid := n, slba := l, nlb := b, deac := z } }] }) ∧
  (∀ (s : State) (k q cid : Nat) (n l b : Nat) (z : Bool) (e : NvmeStatus), s.boot.fastStopped = false → s.saf.failSilent = false → fetches s k q = true → k < 2 → s.hfe.waiting.length < freeTags s → ioRefusal s (ctrlOf s k) { opcode := 0x08, nsid := n, slba := l, nlb := b, deac := z } = some e → 
    exec (.nvmeWriteZeroes k q cid n l b z) s = .next (emit (.nvmeCpl k q cid e 0 []) s)) ∧
  (∀ (s : State) (k q cid : Nat) (n : Nat) (z : Bool) (m : Nat) (r : List (Nat × Nat)) (g : Nat), s.boot.fastStopped = false → s.saf.failSilent = false → fetches s k q = true → k < 2 → s.hfe.waiting.length < freeTags s → ioRefusal s (ctrlOf s k) { opcode := 0x09, nsid := n, nlb := m, ad := z, ranges := r.take (m + 1), sglLen := g } = none → 
    exec (.nvmeDatasetManagement k q cid n z ⟨m, r, g⟩) s = .next { s with hfe.waiting := s.hfe.waiting ++ [{ ctrl := k, sq := q, cid := cid, cmd := { opcode := 0x09, nsid := n, nlb := m, ad := z, ranges := r.take (m + 1), sglLen := g } }] }) ∧
  (∀ (s : State) (k q cid : Nat) (n : Nat) (z : Bool) (m : Nat) (r : List (Nat × Nat)) (g : Nat) (e : NvmeStatus), s.boot.fastStopped = false → s.saf.failSilent = false → fetches s k q = true → k < 2 → s.hfe.waiting.length < freeTags s → ioRefusal s (ctrlOf s k) { opcode := 0x09, nsid := n, nlb := m, ad := z, ranges := r.take (m + 1), sglLen := g } = some e → 
    exec (.nvmeDatasetManagement k q cid n z ⟨m, r, g⟩) s = .next (emit (.nvmeCpl k q cid e 0 []) s)) ∧
  (∀ (s : State) (k q cid : Nat) (n l b : Nat) (p : PiCtl), s.boot.fastStopped = false → s.saf.failSilent = false → fetches s k q = true → k < 2 → s.hfe.waiting.length < freeTags s → ioRefusal s (ctrlOf s k) { opcode := 0x0C, nsid := n, slba := l, nlb := b, pi := p } = none → 
    exec (.nvmeVerify k q cid n l b p) s = .next { s with hfe.waiting := s.hfe.waiting ++ [{ ctrl := k, sq := q, cid := cid, cmd := { opcode := 0x0C, nsid := n, slba := l, nlb := b, pi := p } }] }) ∧
  (∀ (s : State) (k q cid : Nat) (n l b : Nat) (p : PiCtl) (e : NvmeStatus), s.boot.fastStopped = false → s.saf.failSilent = false → fetches s k q = true → k < 2 → s.hfe.waiting.length < freeTags s → ioRefusal s (ctrlOf s k) { opcode := 0x0C, nsid := n, slba := l, nlb := b, pi := p } = some e → 
    exec (.nvmeVerify k q cid n l b p) s = .next (emit (.nvmeCpl k q cid e 0 []) s)) ∧
  (∀ (s : State) (a : Ctrl) (c : IoCmd), s.hdl.bridge = false → c.nsid = 0 → ioKind c.opcode ≠ 2 → 
    ioRefusal s (some a) c = some .invalidNamespace) ∧
  (∀ (s : State) (a : Ctrl) (c : IoCmd) (v : Volume), s.hdl.bridge = false → c.nsid ≠ 0 → ioKind c.opcode ≠ 2 → volumeOf s (c.nsid - 1) = some v → attached a v = true → anaState s v = 1 → (ioKind c.opcode = 1 ∨ ioKind c.opcode = 3) ∧ (domainOf s v.domain).map (·.writeProtected) = some true → 
    ioRefusal s (some a) c = some .writeProtected) ∧
  (∀ (v : Volume) (here : Bool) (c : IoCmd), ioKind c.opcode = 0 ∨ ioKind c.opcode = 1 ∨ ioKind c.opcode = 5 → mdts < ioTransfer v c → 
    lengthRefusal v here c = some .invalidField) ∧
  (∀ (v : Volume) (here : Bool) (c : IoCmd), ioKind c.opcode = 0 ∨ ioKind c.opcode = 1 ∨ ioKind c.opcode = 5 → ioTransfer v c ≤ mdts → v.size < c.slba + ioBlocks c → 
    lengthRefusal v here c = some .lbaOutOfRange) ∧
  (∀ (v : Volume) (here : Bool) (c : IoCmd), ioKind c.opcode = 0 ∨ ioKind c.opcode = 1 ∨ ioKind c.opcode = 5 → ioTransfer v c ≤ mdts → c.slba + ioBlocks c ≤ v.size → here = true → c.sglLen < ioTransfer v c → 
    lengthRefusal v here c = some .sglLengthInvalid) ∧
  (∀ (v : Volume) (here : Bool) (c : IoCmd), ioKind c.opcode = 0 ∨ ioKind c.opcode = 1 ∨ ioKind c.opcode = 5 → ioTransfer v c ≤ mdts → c.slba + ioBlocks c ≤ v.size → ioTransfer v c ≤ c.sglLen → 
    lengthRefusal v here c = none) ∧
  (∀ (s : State) (t g : Nat) (c : IoCmd), s.boot.fastStopped = false → s.saf.failSilent = false → s.hdl.paired = true → s.hdl.bridge = false → c.opcode ≠ 0x108 → ioRefusal s none c = none → 
    exec (.fwdCmd t g c) s = .next { s with hfe.waiting := s.hfe.waiting ++ [{ ctrl := 0, sq := 0, cid := 0, cmd := c, peerTag := some (t, g) }] }) ∧
  (∀ (s : State) (t g : Nat) (c : IoCmd) (e : NvmeStatus), s.boot.fastStopped = false → s.saf.failSilent = false → s.hdl.paired = true → s.hdl.bridge = false → c.opcode ≠ 0x108 → ioRefusal s none c = some e → 
    exec (.fwdCmd t g c) s = .next (respondPeer t 0 0 (nvmeCode e) [] s))

/-- The first waiting command takes the next free tag, an arrival number and its lock; a write whose payload is whole is
checked and STAGED, or stores nothing and counts code 0x050; a read whose data is ready completes with its outcome;
a lock waited for too long is warned of once; a volume with no command left changes its owner and raises the arrival
counter. A running sub-port keeps its link's speed and counts its falls, and answers ARP, neighbour solicitation and
ICMP echo for its own address. -/
def Obligations.TagsPayloadsReadsAndSubports : Prop :=
  (∀ (s : State) (w : Waiting) (l : List Waiting) (i g : Nat), s.boot.fastStopped = false → s.saf.failSilent = false → s.pwr.doze = false → s.hfe.waiting = w :: l → nextTag s = some (i, g) → w.peerTag = none → ioRefusal s (ctrlOf s w.ctrl) w.cmd = none → s.rlk.locks.length < 65536 → forwards s w.cmd = false → 
    exec .tagAssign s = .next (startTag
      { idx := i, gen := g, kind := ioKind w.cmd.opcode, state := 1, ctrl := w.ctrl, sq := w.sq, cid := w.cid, vol := w.cmd.nsid - 1,
        slba := w.cmd.slba, nblocks := ioBlocks w.cmd, pi := w.cmd.pi, arrival := s.hfe.arrival, at_ := s.now, ranges := w.cmd.ranges,
        deac := w.cmd.deac, peerTag := none } w.cmd
      (numberVolumes [w.cmd.nsid - 1] (takeTag { s with hfe.waiting := l, hfe.tagHwm := max s.hfe.tagHwm (tagUse s + 1) })))) ∧
  (∀ (s : State) (w : Waiting) (l : List Waiting) (i g : Nat) (e : NvmeStatus), s.boot.fastStopped = false → s.saf.failSilent = false → s.pwr.doze = false → s.hfe.waiting = w :: l → nextTag s = some (i, g) → w.peerTag = none → ioRefusal s (ctrlOf s w.ctrl) w.cmd = some e → 
    exec .tagAssign s = .next (emit (.nvmeCpl w.ctrl w.sq w.cid e 0 []) { s with hfe.waiting := l })) ∧
  (∀ (s : State), s.hfe.freeNext < 65536 → 
    nextTag s = some (s.hfe.freeNext, 0)) ∧
  (∀ (s : State) (i g t : Nat) (l : List (Nat × Nat × Nat)), 65536 ≤ s.hfe.freeNext → s.hfe.freed = (i, g, t) :: l → 
    nextTag s = (if t + 1000 ≤ s.now then some (i, g) else none)) ∧
  (∀ (s : State) (n : Nat) (t : Tag) (b : List Block) (k : Bool), s.boot.fastStopped = false → s.saf.failSilent = false → s.pwr.doze = false → tagOf s n = some t → t.kind = 1 → t.forwarded = false → t.state = 2 → t.payload.length + b.length = t.nblocks → 
    exec (.writePayloadData n b true k) s = .next (payloadWhole { t with payload := t.payload ++ b, begun := true } k (askHost n (updTag n (fun _ => { t with payload := t.payload ++ b, begun := true }) s)))) ∧
  (∀ (t : Tag) (k : Bool) (s : State) (v : Volume), volumeOf s t.vol = some v → v.pi = 0 → 
    payloadWhole t k s = settle k (updTag t.idx (fun x => { x with state := 3, payload := t.payload }) s)) ∧
  (∀ (t : Tag) (k : Bool) (s : State) (v : Volume) (e : NvmeStatus), volumeOf s t.vol = some v → v.pi ≠ 0 → metaBytes v.format ≠ 0 → t.pi.pract = false → firstBad (fun x j => piCheck v.format v.pi t.pi x (t.slba + j) j) t.payload 0 = e → e ≠ .success → 
    payloadWhole t k s = settle k (failTag t.idx e (countEvent 0x050 0 { s with hfe.piErr := satAdd (2 ^ 32 - 1) s.hfe.piErr 1 }))) ∧
  (∀ (s : State) (n : Nat) (t : Tag) (v : Volume), s.boot.fastStopped = false → s.saf.failSilent = false → s.pwr.doze = false → tagOf s n = some t → t.state = 2 → t.forwarded = false → t.kind = 0 ∨ t.kind = 6 → volumeOf s t.vol = some v → keylessVolume s v = false → t.hit = false → guardsAgree s v t.slba t.nblocks = true → firstLost s v t.slba t.nblocks = none → 
    exec (.readDataReady n) s = .next (settle true (endTag n (readOutcome s v t).1 (readOutcome s v t).2 (updTag n (fun t => { t with begun := true, state := 3 }) s)))) ∧
  (∀ (s : State) (n : Nat) (t : Tag) (v : Volume), s.boot.fastStopped = false → s.saf.failSilent = false → s.pwr.doze = false → tagOf s n = some t → t.state = 2 → t.forwarded = false → t.kind = 0 ∨ t.kind = 6 → volumeOf s t.vol = some v → keylessVolume s v = false → t.hit = false → guardsAgree s v t.slba t.nblocks = false → 
    exec (.readDataReady n) s = .next (failSilent 1 0 s)) ∧
  (∀ (s : State) (n : Nat) (t : Tag) (l : Lock), s.boot.fastStopped = false → s.saf.failSilent = false → pidVal s 0x0501 ≠ 0 → tagOf s n = some t → lockOf s (.tag n) = some l → l.granted = false → t.warned = false → 
    exec (.lockWaitWarning (.tag n)) s = .next (countEvent 0x054 ((s.now - l.since) / 1000) (updTag n (fun t => { t with warned := true }) s))) ∧
  (∀ (s : State) (r q : Nat) (l : Lock), s.boot.fastStopped = false → s.saf.failSilent = false → pidVal s 0x0501 ≠ 0 → (s.rlk.locks.find? fun x => x.holder == .plem r q && !x.granted) = some l → l.warned = false → 
    exec (.lockWaitWarning (.plem r q)) s = .next (countEvent 0x054 ((s.now - l.since) / 1000) { s with rlk.locks := updWhere (fun l => l.holder == .plem r q) (fun l => { l with warned := true }) s.rlk.locks })) ∧
  (∀ (s : State) (w : LockWaiter), s.boot.fastStopped = false → s.saf.failSilent = false → pidVal s 0x0501 = 0 → 
    exec (.lockWaitWarning w) s = .next s) ∧
  (∀ (s : State) (n a : Nat) (v : Volume), s.boot.fastStopped = false → s.saf.failSilent = false → volumeOf s n = some v → v.moving = true → s.hfe.tags.any (fun t => t.vol == n) = false → ownsVolume s v = false → 
    exec (.ownershipMovePass n a) s = .next (withAccess (fun s => updVolume n (fun v => { v with ownerB := !v.ownerB, moving := false }) s) { s with hfe.arrival := max s.hfe.arrival (a + 1) })) ∧
  (∀ (s : State) (n a : Nat) (v : Volume), s.boot.fastStopped = false → s.saf.failSilent = false → volumeOf s n = some v → v.moving = true → s.hfe.tags.any (fun t => t.vol == n) = false → ownsVolume s v = true → 
    exec (.ownershipMovePass n a) s = .next (withAccess (fun s => updVolume n (fun v => { v with ownerB := !v.ownerB, moving := false }) s) (sendLastArrival n s))) ∧
  (∀ (s : State) (n v f : Nat) (p : Bool), s.boot.fastStopped = false → s.saf.failSilent = false → subRuns s n = true → 
    exec (.ethLinkChange n true v f p) s = .next { s with
      hfe.subs := updAt n (fun x => { x with linkUp := true, speed := subSpeed s n, fec := subFec s n, pfc := p }) s.hfe.subs }) ∧
  (∀ (s : State) (n v f : Nat) (p : Bool), s.boot.fastStopped = false → s.saf.failSilent = false → subRuns s n = true → 
    exec (.ethLinkChange n false v f p) s = .next { s with
      hfe.subs := updAt n (fun x => { x with linkUp := false, speed := 0, fec := 0, pfc := false, linkDowns := satAdd 65535 x.linkDowns (flagAt x.linkUp 0) }) s.hfe.subs }) ∧
  (∀ (s : State) (n : Nat) (a : List Byte), s.boot.fastStopped = false → s.saf.failSilent = false → s.pwr.doze = false → subUp s n = true → subV6 s n = false → a = bytesAt (subBlock s n) 16 4 → 
    exec (.arpRequest n a) s = .next (emit (.ethReply n 1 (bytesAt (subBlock s n) 0 6)) s)) ∧
  (∀ (s : State) (n : Nat) (a : List Byte), s.boot.fastStopped = false → s.saf.failSilent = false → s.pwr.doze = false → subUp s n = true → a ≠ bytesAt (subBlock s n) 16 4 → 
    exec (.arpRequest n a) s = .next s) ∧
  (∀ (s : State) (n : Nat) (a : List Byte), s.boot.fastStopped = false → s.saf.failSilent = false → s.pwr.doze = false → subUp s n = true → subV6 s n = true → a = bytesAt (subBlock s n) 16 16 → 
    exec (.neighborSolicitation n a) s = .next (emit (.ethReply n 2 (bytesAt (subBlock s n) 0 6)) s)) ∧
  (∀ (s : State) (n : Nat) (a p : List Byte), s.boot.fastStopped = false → s.saf.failSilent = false → s.pwr.doze = false → subUp s n = true → a = bytesAt (subBlock s n) 16 (if subV6 s n then 16 else 4) → 
    exec (.icmpEchoRequest n a p) s = .next (emit (.ethReply n 3 p) s))

/-- On a ready connection whose context is on-die a request with the expected PSN runs: a SEND takes a buffer, a WRITE
is placed where its target lies, a READ answers with the bytes, an atomic with the former value; acknowledgements
release what was sent. A packet behind the expected PSN is acknowledged again, one ahead is a sequence error; an
unknown connection, a context not on-die, an unsupported packet and a retransmission time-out do what the rules say. -/
def Obligations.RemoteMemoryPackets : Prop :=
  (∀ (s : State) (n p : Nat) (c : Conn) (l : Nat) (f e : Bool) (b : List Byte), s.boot.fastStopped = false → s.saf.failSilent = false → s.pwr.doze = false → connOf s n = some c → plainConn s c = false → c.onDie = true → c.cls ≠ 1 → c.state = 2 → s.hdl.bridge = false → multipath c = false → p % 2 ^ 24 = c.expPsn → 
    exec (.send n ⟨p, false⟩ l f e b) s = .next (recvSend c p l f e (updConn n (fun c => { c with lastUse := s.now }) s))) ∧
  (∀ (s : State) (n p : Nat) (c : Conn) (k v l : Nat) (f e : Bool) (b : List Byte), s.boot.fastStopped = false → s.saf.failSilent = false → s.pwr.doze = false → connOf s n = some c → plainConn s c = false → c.onDie = true → c.cls ≠ 1 → c.state = 2 → s.hdl.bridge = false → multipath c = false → p % 2 ^ 24 = c.expPsn → 
    exec (.rdmaWrite n ⟨p, false⟩ k v l f e none b) s = .next (recvWrite c p k v l f e b (updConn n (fun c => { c with lastUse := s.now }) s))) ∧
  (∀ (s : State) (n p : Nat) (c : Conn) (k v l : Nat) (m : Mpeth) (b : List Byte), s.boot.fastStopped = false → s.saf.failSilent = false → s.pwr.doze = false → connOf s n = some c → plainConn s c = false → c.onDie = true → c.cls ≠ 1 → c.state = 2 → s.hdl.bridge = false → multipath c = true → psnBehind c.expPsn p = false → c.rcvd.contains (p % 2 ^ 24) = false → 
    exec (.rdmaWrite n ⟨p, false⟩ k v l true true (some m) b) s = .next (recvMulti c (p % 2 ^ 24) k v l m b (updConn n (fun c => { c with lastUse := s.now }) s))) ∧
  (∀ (s : State) (n p : Nat) (c : Conn) (k v l : Nat), s.boot.fastStopped = false → s.saf.failSilent = false → s.pwr.doze = false → connOf s n = some c → plainConn s c = false → c.onDie = true → c.cls ≠ 1 → c.state = 2 → s.hdl.bridge = false → multipath c = false → p % 2 ^ 24 = c.expPsn → 
    exec (.rdmaReadRequest n ⟨p, false⟩ k v l) s = .next (recvRead c p k v l (updConn n (fun c => { c with lastUse := s.now }) s))) ∧
  (∀ (s : State) (n p : Nat) (c : Conn) (k v x w : Nat), s.boot.fastStopped = false → s.saf.failSilent = false → s.pwr.doze = false → connOf s n = some c → plainConn s c = false → c.onDie = true → c.cls ≠ 1 → c.state = 2 → s.hdl.bridge = false → multipath c = false → p % 2 ^ 24 = c.expPsn → 
    exec (.compareSwap n ⟨p, false⟩ k v x w) s = .next (recvAtomic c p k v (fun old => if old = x % 2 ^ 64 then w else old) (updConn n (fun c => { c with lastUse := s.now }) s))) ∧
  (∀ (s : State) (n p : Nat) (c : Conn) (k v x : Nat), s.boot.fastStopped = false → s.saf.failSilent = false → s.pwr.doze = false → connOf s n = some c → plainConn s c = false → c.onDie = true → c.cls ≠ 1 → c.state = 2 → s.hdl.bridge = false → multipath c = false → p % 2 ^ 24 = c.expPsn → 
    exec (.fetchAdd n ⟨p, false⟩ k v x) s = .next (recvAtomic c p k v (fun old => old + x) (updConn n (fun c => { c with lastUse := s.now }) s))) ∧
  (∀ (s : State) (n p l : Nat) (f e : Bool) (b : List Byte), s.boot.fastStopped = false → s.saf.failSilent = false → s.pwr.doze = false → 
    exec (.send n ⟨p, true⟩ l f e b) s = .next (arrive n p (.send l f e b) (noteCe n s))) ∧
  (∀ (s : State) (n : Nat) (c : Conn), connOf s n = some c → c.cnpAt = none → multipath c = false → 
    noteCe n s = txPacket n 0x181 0 [] (updConn n (fun c => { c with cnpAt := some s.now }) s)) ∧
  (∀ (s : State) (n t : Nat) (c : Conn), connOf s n = some c → c.cnpAt = some t → s.now < t + 1000 * pidVal s 0x0608 → 
    noteCe n s = s) ∧
  (∀ (s : State) (n p : Nat) (c : Conn) (k : Nat), s.boot.fastStopped = false → s.saf.failSilent = false → s.pwr.doze = false → connOf s n = some c → plainConn s c = false → c.onDie = true → c.cls ≠ 1 → c.state = 2 → s.hdl.bridge = false → 
    exec (.acknowledge n ⟨p, false⟩ k) s = .next (recvAck n p k (updConn n (fun c => { c with lastUse := s.now }) s))) ∧
  (∀ (s : State) (n p : Nat) (c : Conn) (e : Bool) (b : List Byte), s.boot.fastStopped = false → s.saf.failSilent = false → s.pwr.doze = false → connOf s n = some c → plainConn s c = false → c.onDie = true → c.cls ≠ 1 → c.state = 2 → s.hdl.bridge = false → 
    exec (.rdmaReadResponse n ⟨p, false⟩ e b) s = .next (releaseSent n p (updConn n (fun c => { c with lastUse := s.now }) s))) ∧
  (∀ (s : State) (n p : Nat) (c : Conn) (v : Nat), s.boot.fastStopped = false → s.saf.failSilent = false → s.pwr.doze = false → connOf s n = some c → plainConn s c = false → c.onDie = true → c.cls ≠ 1 → c.state = 2 → s.hdl.bridge = false → 
    exec (.atomicAcknowledge n ⟨p, false⟩ v) s = .next (releaseSent n p (updConn n (fun c => { c with atomicVal := v % 2 ^ 64 }) (updConn n (fun c => { c with lastUse := s.now }) s)))) ∧
  (∀ (s : State) (n : Nat) (c : Conn), s.boot.fastStopped = false → s.saf.failSilent = false → s.pwr.doze = false → connOf s n = some c → plainConn s c = false → c.onDie = true → c.cls ≠ 1 → c.state = 2 → s.hdl.bridge = false → 
    exec (.cnp n ) s = .next (updConn n (fun c => { c with cnps := c.cnps + 1 }) (updConn n (fun c => { c with lastUse := s.now }) s))) ∧
  (∀ (s : State) (n p : Nat) (c : Conn), s.boot.fastStopped = false → s.saf.failSilent = false → s.pwr.doze = false → connOf s n = some c → plainConn s c = false → c.onDie = true → c.cls ≠ 1 → c.state = 2 → s.hdl.bridge = false → multipath c = false → p % 2 ^ 24 = c.expPsn → c.num = n → 
    exec (.roceUnsupportedPacket n p false false) s = .next (nakError n nakInvalid p (updConn n (fun c => { c with lastUse := s.now }) s))) ∧
  (∀ (s : State) (n p : Nat) (f : Bool), s.boot.fastStopped = false → s.saf.failSilent = false → s.pwr.doze = false → 
    exec (.roceUnsupportedPacket n p f true) s = .next (countEvent 0x06D 0 s)) ∧
  (∀ (s : State) (n p : Nat), s.boot.fastStopped = false → s.saf.failSilent = false → s.pwr.doze = false → 
    exec (.roceUnsupportedPacket n p true false) s = .next (countEvent 0x060 0 s)) ∧
  (∀ (c : Conn) (p : Nat) (q : RocePkt) (s : State), p % 2 ^ 24 ≠ c.expPsn → psnBehind c.expPsn p = true → 
    recvSingle c p q s = sendAck c.num s) ∧
  (∀ (c : Conn) (p : Nat) (q : RocePkt) (s : State), p % 2 ^ 24 ≠ c.expPsn → psnBehind c.expPsn p = false → multipath c = false → 
    recvSingle c p q s = nak c.num 0x60 c.expPsn s) ∧
  (∀ (s : State) (n p : Nat) (q : RocePkt), connOf s n = none → 
    arrive n p q s = countEvent 0x061 0 s) ∧
  (∀ (s : State) (n p : Nat) (q : RocePkt) (c : Conn), connOf s n = some c → plainConn s c = false → c.onDie = false → c.missQ.length < 256 → missDepth s < 65536 → 
    arrive n p q s = updConn n (fun c => { c with missQ := c.missQ ++ [(p, q)] }) s) ∧
  (∀ (c : Conn) (p l : Nat) (e : Bool) (s : State), l ≤ dmaMax → c.recvFree = 0 → 
    recvSend c p l true e s = nak c.num nakRnr p s) ∧
  (∀ (c : Conn) (p k v l a : Nat) (r : Option Nat) (b : List Byte) (s : State), l ≤ dmaMax → checkTarget s c k v l 1 = some (a, r) → 
    recvWrite c p k v l true true b s = sendAck c.num (hamWrite a (b.take l) (advancePsn c.num 1 s))) ∧
  (∀ (c : Conn) (p k v l : Nat) (e : Bool) (b : List Byte) (s : State), l ≤ dmaMax → checkTarget s c k v l 1 = none → 
    recvWrite c p k v l true e b s = targetRefused c p s) ∧
  (∀ (c : Conn) (p k v l a : Nat) (r : Option Nat) (s : State), l ≤ dmaMax → checkTarget s c k v l 0 = some (a, r) → engineReads a l s = none → 
    recvRead c p k v l s = readResponse c p (memRead s.ham.mem a l) (advancePsn c.num (max 1 (ceilDiv l (max 1 c.mtu))) s)) ∧
  (∀ (c : Conn) (p k v a : Nat) (r : Option Nat) (f : Nat → Nat) (s : State), checkTarget s c k v 8 2 = some (a, r) → a % 8 = 0 → engineReads a 8 s = none → 
    recvAtomic c p k v f s = txAeth c.num 0x112 p (beBytes 8 (leNat (memRead s.ham.mem a 8)))
      (advancePsn c.num 1 (hamWrite a (leBytes 8 (f (leNat (memRead s.ham.mem a 8)))) s))) ∧
  (∀ (c : Conn) (k v l i : Nat) (s : State), c.cls = 2 ∨ c.cls = 3 → c.prot = 2 → (regionOf s (k / 16384)).tag = k % 16384 → (regionOf s (k / 16384)).state = 1 → (regionOf s (k / 16384)).conn = c.num → bit (regionOf s (k / 16384)).rights i = true → v + l ≤ (regionOf s (k / 16384)).len → 
    checkTarget s c k v l i = some ((regionOf s (k / 16384)).base + v, some (regionOf s (k / 16384)).idx)) ∧
  (∀ (s : State) (n : Nat) (c : Conn) (t : State), s.boot.fastStopped = false → s.saf.failSilent = false → connOf s n = some c → c.onDie = false → makeRoom s = some t → c.missQ = [] → c.timerDue = false → s.hdl.bridge = false → t.hdl.bridge = false → 
    exec (.contextFetchDone n) s = .next (let u := updConn n (fun c => { c with onDie := true, missQ := [], timerDue := false }) t; pumpConn (pumpFuel u n) n u)) ∧
  (∀ (s : State) (n : Nat) (c : Conn), s.boot.fastStopped = false → s.saf.failSilent = false → connOf s n = some c → c.num = n → c.sent ≠ [] → c.onDie = true → c.state = 2 ∨ c.state = 3 → c.retries < pidVal s 0x0602 → 
    exec (.retransmitTimeout n) s = .next (resendSent n (updConn n (fun c => { c with retries := c.retries + 1, oldestAt := s.now }) s)))

/-- CM and TCP requests on a running sub-port make a connection or are refused with the reason of the rules; replies and
confirmations make it ready; a DREQ frees it. ESP packets pass the window and its check or are counted; pending and
old pairs expire. KEY_INSTALL_SA, REGION_REGISTER, REGION_REVOKE and CONN_TEARDOWN are decided and take effect;
drains end or time out with code 0x06A. -/
def Obligations.ConnectionsSasAndRegions : Prop :=
  (∀ (s : State) (k l m : Nat) (i : Option Nat), s.boot.fastStopped = false → s.saf.failSilent = false → s.pwr.doze = false → subUp s k = true → 
    exec (.cmReq k l m i) s = .next (cmReq k l m i s)) ∧
  (∀ (s : State) (k m n : Nat), m = 1024 ∨ m = 2048 ∨ m = 4096 → pinnedTaken s < 4096 → freeConnNum s = some n → 
    cmReq k 2 m none s = cmSend n 1 0 (addConn { num := n, cls := 2, prot := 2, sub := k, mtu := m } s)) ∧
  (∀ (s : State) (k m : Nat), m ≠ 1024 → m ≠ 2048 → m ≠ 4096 → 
    cmReq k 2 m none s = cmReject 26 s) ∧
  (∀ (s : State) (k l m : Nat), l < 2 → bit (pidVal s 0x0600) k = true → 
    cmReq k l m none s = countEvent 0x06C 0 s) ∧
  (∀ (s : State) (k d : Nat) (i : Option Nat), s.boot.fastStopped = false → s.saf.failSilent = false → s.pwr.doze = false → subUp s k = true → 
    exec (.tcpSyn k d i) s = .next (tcpSyn k d i s)) ∧
  (∀ (s : State) (k d n : Nat), bit (pidVal s 0x0600) k = false → bit (numAt (subBlock s k) 11 1) 0 = true → numAt (subBlock s k) 48 2 = d → freeConnNum s = some n → 
    tcpSyn k d none s = (let t := tcpSend n 0 (addConn { num := n, cls := 1, prot := 0, sub := k } s);
      emit (.nvmeTcp n 0 [((connOf t n).map (tcpWindow t)).getD 0]) t)) ∧
  (∀ (s : State) (n : Nat) (c : Conn) (h d : Bool), s.boot.fastStopped = false → s.saf.failSilent = false → s.pwr.doze = false → connOf s n = some c → c.cls = 1 → c.state = 1 → plainConn s c = false → 
    exec (.nvmeTcpIcreq n false h d) s = .next (sealPacket n 0 6 [1] (.nvmeTcp n 1 [maxH2cData, flagAt h 0, flagAt d 0]) (updConn n (fun c => { c with state := 2, hdgst := h, ddgst := d }) s))) ∧
  (∀ (s : State) (n : Nat) (c : Conn) (h d : Bool), s.boot.fastStopped = false → s.saf.failSilent = false → s.pwr.doze = false → connOf s n = some c → c.cls = 1 → c.state = 1 → plainConn s c = false → 
    exec (.nvmeTcpIcreq n true h d) s = .next (freeConn c (tcpSend n 4 s))) ∧
  (∀ (s : State) (n : Nat) (c : Conn), s.boot.fastStopped = false → s.saf.failSilent = false → s.pwr.doze = false → connOf s n = some c → plainConn s c = false → c.state = 1 → c.cls ≠ 1 → c.ours = true → 
    exec (.cmRep n) s = .next (sendAck n (cmSend n 2 0 (updConn n (fun c => { c with state := 2 }) s)))) ∧
  (∀ (s : State) (n : Nat) (c : Conn), s.boot.fastStopped = false → s.saf.failSilent = false → s.pwr.doze = false → connOf s n = some c → plainConn s c = false → c.state = 1 → c.cls ≠ 1 → c.ours = false → 
    exec (.cmRtu n) s = .next (sendAck n (updConn n (fun c => { c with state := 2 }) s))) ∧
  (∀ (s : State) (n r : Nat) (c : Conn), s.boot.fastStopped = false → s.saf.failSilent = false → s.pwr.doze = false → connOf s n = some c → plainConn s c = false → c.state = 1 → c.cls ≠ 1 → c.ours = true → 
    exec (.cmRej n r) s = .next (errorConn n s)) ∧
  (∀ (s : State) (n : Nat) (c : Conn), s.boot.fastStopped = false → s.saf.failSilent = false → s.pwr.doze = false → connOf s n = some c → plainConn s c = false → c.cls ≠ 1 → 
    exec (.cmDreq n) s = .next (withBridge (freeConn c) (cmSend n 5 0 s))) ∧
  (∀ (s : State) (n : Nat), s.boot.fastStopped = false → s.saf.failSilent = false → s.pwr.doze = false → 
    exec (.cmDrep n) s = .next s) ∧
  (∀ (s : State) (n : Nat), s.boot.fastStopped = false → s.saf.failSilent = false → s.pwr.doze = false → 
    exec (.cmMra n) s = .next s) ∧
  (∀ (s : State) (i q : Nat) (k : Bool), s.boot.fastStopped = false → s.pwr.doze = false → s.saf.failSilent = false → saOf s i = none → 
    exec (.espInboundPacket i q k) s = .next (countEvent 0x064 0 s)) ∧
  (∀ (s : State) (i q : Nat) (a : SaPair), s.boot.fastStopped = false → s.pwr.doze = false → s.saf.failSilent = false → saOf s i = some a → windowEdge a ≤ inferSeq a.inHigh (q % 2 ^ 32) → 0 ≤ inferSeq a.inHigh (q % 2 ^ 32) → a.inSeen.contains (inferSeq a.inHigh (q % 2 ^ 32)).toNat = false → 
    exec (.espInboundPacket i q true) s = .next (espAccept i (inferSeq a.inHigh (q % 2 ^ 32)).toNat s)) ∧
  (∀ (s : State) (i q : Nat) (a : SaPair), s.boot.fastStopped = false → s.pwr.doze = false → s.saf.failSilent = false → saOf s i = some a → windowEdge a ≤ inferSeq a.inHigh (q % 2 ^ 32) → 0 ≤ inferSeq a.inHigh (q % 2 ^ 32) → a.inSeen.contains (inferSeq a.inHigh (q % 2 ^ 32)).toNat = false → 
    exec (.espInboundPacket i q false) s = .next (countEvent 0x066 0 { s with rma.icvFail := satAdd (2 ^ 32 - 1) s.rma.icvFail 1 })) ∧
  (∀ (s : State) (i q : Nat) (k : Bool) (a : SaPair), s.boot.fastStopped = false → s.pwr.doze = false → s.saf.failSilent = false → saOf s i = some a → windowEdge a ≤ inferSeq a.inHigh (q % 2 ^ 32) → 0 ≤ inferSeq a.inHigh (q % 2 ^ 32) → a.inSeen.contains (inferSeq a.inHigh (q % 2 ^ 32)).toNat = true → 
    exec (.espInboundPacket i q k) s = .next (countEvent 0x065 0 { s with rma.replayDrop := satAdd (2 ^ 32 - 1) s.rma.replayDrop 1 })) ∧
  (∀ (s : State) (k : Nat), s.boot.fastStopped = false → s.saf.failSilent = false → 
    exec (.pendingSaExpiry k) s = .next { s with rma.pendingSa := s.rma.pendingSa.filter fun p => p.handle != k }) ∧
  (∀ (s : State) (n : Nat), s.boot.fastStopped = false → s.saf.failSilent = false → 
    exec (.oldSaExpiry n) s = .next (updConn n (fun c => if c.oldSaAt.isSome then { c with oldSa := none, oldSaAt := none } else c) s)) ∧
  (∀ (s : State) (ring seq : Nat) (c : Cmd), s.boot.fastStopped = false → opCmd s ring seq opKeyInstallSa = some c → s.brd.port = [] → 
    exec (.keyInstallSa ring seq) s = .next (markTaken c { s with brd.port := [.command c (keyInstallSa s c)] })) ∧
  (∀ (d : Decision) (s : State) (n i o : Nat), d.nums = [0xFFFFFFFF, 0, n, i, o] → 
    applyKeyInstallSa d s = { s with
      rma.nextHandle := s.rma.nextHandle + 1,
      rma.pendingSa := s.rma.pendingSa ++ [{ handle := d.result, cls := n, spiIn := i, spiOut := o, remote := d.bytes, keys := d.secret, ipv6 := false, installed := s.now }] }) ∧
  (∀ (s : State) (ring seq : Nat) (c : Cmd) (w i : Nat) (x : Conn), s.boot.fastStopped = false → opCmd s ring seq opRegionRegister = some c → s.brd.port = [] → bufferRegion s (pk c 24 8) = some w → pk c 24 8 + pk c 32 4 ≤ winBase s w + winSize s w → connOf s (pk c 40 4) = some x → x.prot = 2 → freeRegion s = some i → 
    exec (.regionRegister ring seq) s = .next (markTaken c { s with brd.port := [.command c { result := i * 16384 + ((regionOf s i).tag + 1) % 16384, nums := [i, ((regionOf s i).tag + 1) % 16384, pk c 24 8, pk c 32 4, pk c 36 1, pk c 40 4] }] })) ∧
  (∀ (s : State) (ring seq : Nat) (c : Cmd), s.boot.fastStopped = false → opCmd s ring seq opRegionRegister = some c → s.brd.port = [] → bufferRegion s (pk c 24 8) = none → 
    exec (.regionRegister ring seq) s = .next (markTaken c { s with brd.port := [.command c { status := stFmtParam, detail := 24 }] })) ∧
  (∀ (s : State) (c : Cmd) (d : Decision) (i t b l r n : Nat), c.opcode = opRegionRegister → d.nums = [i, t, b, l, r, n] → 
    applyCommand c d s = setRegion { idx := i, base := b, len := l, tag := t, state := 1, rights := r, conn := n } s) ∧
  (∀ (s : State) (ring seq : Nat) (c : Cmd), s.boot.fastStopped = false → opCmd s ring seq opRegionRevoke = some c → s.brd.port = [] → longOpOf s opRegionRevoke = none → (regionOf s (pk c 24 4 / 16384)).state = 1 → (regionOf s (pk c 24 4 / 16384)).tag = pk c 24 4 % 16384 → 
    exec (.regionRevoke ring seq) s = .next (markTaken c { s with brd.port := [.command c { nums := [(regionOf s (pk c 24 4 / 16384)).idx], started := true }] })) ∧
  (∀ (s : State) (ring seq : Nat) (c : Cmd), s.boot.fastStopped = false → opCmd s ring seq opRegionRevoke = some c → s.brd.port = [] → longOpOf s opRegionRevoke = none → (regionOf s (pk c 24 4 / 16384)).state ≠ 1 → 
    exec (.regionRevoke ring seq) s = .next (markTaken c { s with brd.port := [.command c { status := stResNotfound }] })) ∧
  (∀ (s : State) (i : Nat), s.boot.fastStopped = false → s.saf.failSilent = false → s.rma.revoking = some i → (regionOf s i).inFlight = 0 → s.rma.revokeWarn = false → 
    exec .regionRevokeEnd s = .next (endLongOp opRegionRevoke stOkDone 0 0 (setRegion { regionOf s i with state := 0 } { s with rma.revoking := none, rma.revokeWarn := false }))) ∧
  (∀ (s : State) (ring seq : Nat) (c : Cmd) (x : Conn), s.boot.fastStopped = false → opCmd s ring seq opConnTeardown = some c → s.brd.port = [] → connOf s (pk c 24 4) = some x → x.draining = false → 
    exec (.connTeardown ring seq) s = .next (markTaken c { s with brd.port := [.command c { nums := [x.num] }] })) ∧
  (∀ (s : State) (ring seq : Nat) (c : Cmd), s.boot.fastStopped = false → opCmd s ring seq opConnTeardown = some c → s.brd.port = [] → connOf s (pk c 24 4) = none → 
    exec (.connTeardown ring seq) s = .next (markTaken c { s with brd.port := [.command c { status := stResNotfound }] })) ∧
  (∀ (s : State) (n : Nat) (c : Conn), s.boot.fastStopped = false → s.saf.failSilent = false → connOf s n = some c → c.draining = false → s.rma.revoking = none → 
    exec (.revokeDrainTimeout n) s = .next s) ∧
  (∀ (s : State) (n : Nat) (c : Conn), s.boot.fastStopped = false → s.saf.failSilent = false → connOf s n = some c → c.draining = true → c.msgs ≠ [] → s.rma.revoking = none → 
    exec (.revokeDrainTimeout n) s = .next (let t := updConn n (fun x => { x with trackers := if x.draining then [] else x.trackers, sent := if x.draining then [] else x.sent }) (endMsgs n (fun _ => true) (withBridge (errorConn n) s));
      countEvent 0x06A 0 t)) ∧
  (∀ (s : State) (n : Nat) (c : Conn), s.boot.fastStopped = false → s.saf.failSilent = false → connOf s n = some c → c.draining = true → c.msgs = [] → c.trackers = [] → c.sent = [] → 
    exec (.teardownDrainEnd n) s = .next (withBridge (freeConn c) (if c.cls = 1 then tcpSend n 2 s else cmSend n 4 0 s)))

/-- A descriptor leaves its queue; one that passes the checks runs on its lane with its total, a FLUSH of an entry that
is disabled or empty is complete at once; one that fails is refused with the first failure, counted as 0x0E0. A
granted burst leaves the lane chosen by age and priority, is denied by the windows, or makes the device fail-silent
when it reads a poisoned line. A withdrawn request waits and times out with DEV.TIMEOUT; arrived writes reach the
Hamper and let fences pass; writes to head-processor memory that do not arrive stop the lane. The service lanes are
configured and their doorbells move the tail and the head. -/
def Obligations.DataMoverCommands : Prop :=
  (∀ (s : State) (n : Nat) (d : DmvDesc) (g : List SgEntry), s.boot.fastStopped = false → s.saf.failSilent = false → s.pwr.doze = false → takes s n = true → descFail (nextDescriptor n s) n 1 d (g.take d.srcCount) = none → totalOf (g.take d.srcCount) ≠ 0 → 
    exec (.copy n d g) s = .next (let t := nextDescriptor n s; passFences (updLane n (fun l => { l with run := some { op := 1, desc := d, srcs := g.take d.srcCount, total := totalOf (g.take d.srcCount), id := t.dmv.nextId }, fenceWait := false }) { t with dmv.nextId := t.dmv.nextId + 1 }))) ∧
  (∀ (s : State) (n : Nat) (d : DmvDesc) (g : List SgEntry) (f : DmvFail), s.boot.fastStopped = false → s.saf.failSilent = false → s.pwr.doze = false → takes s n = true → descFail (nextDescriptor n s) n 1 d (g.take d.srcCount) = some f → 
    exec (.copy n d g) s = .next (refuseDesc n 1 d f (nextDescriptor n s))) ∧
  (∀ (s : State) (n : Nat) (d : DmvDesc), s.boot.fastStopped = false → s.saf.failSilent = false → s.pwr.doze = false → takes s n = true → descFail (nextDescriptor n s) n 2 d (([] : List SgEntry).take d.srcCount) = none → d.dstLen ≠ 0 → 
    exec (.fill n d) s = .next (let t := nextDescriptor n s; passFences (updLane n (fun l => { l with run := some { op := 2, desc := d, srcs := ([] : List SgEntry).take d.srcCount, total := d.dstLen, id := t.dmv.nextId }, fenceWait := false }) { t with dmv.nextId := t.dmv.nextId + 1 }))) ∧
  (∀ (s : State) (n : Nat) (d : DmvDesc) (f : DmvFail), s.boot.fastStopped = false → s.saf.failSilent = false → s.pwr.doze = false → takes s n = true → descFail (nextDescriptor n s) n 2 d (([] : List SgEntry).take d.srcCount) = some f → 
    exec (.fill n d) s = .next (refuseDesc n 2 d f (nextDescriptor n s))) ∧
  (∀ (s : State) (n : Nat) (d : DmvDesc), s.boot.fastStopped = false → s.saf.failSilent = false → s.pwr.doze = false → takes s n = true → descFail (nextDescriptor n s) n 3 d (([] : List SgEntry).take d.srcCount) = none → 
    exec (.fence n d) s = .next (let t := nextDescriptor n s; passFences (updLane n (fun l => { l with run := some { op := 3, desc := d, srcs := ([] : List SgEntry).take d.srcCount, total := 0, id := t.dmv.nextId }, fenceWait := true }) { t with dmv.nextId := t.dmv.nextId + 1 }))) ∧
  (∀ (s : State) (n : Nat) (d : DmvDesc) (f : DmvFail), s.boot.fastStopped = false → s.saf.failSilent = false → s.pwr.doze = false → takes s n = true → descFail (nextDescriptor n s) n 3 d (([] : List SgEntry).take d.srcCount) = some f → 
    exec (.fence n d) s = .next (refuseDesc n 3 d f (nextDescriptor n s))) ∧
  (∀ (s : State) (n : Nat) (d : DmvDesc), s.boot.fastStopped = false → s.saf.failSilent = false → s.pwr.doze = false → takes s n = true → descFail (nextDescriptor n s) n 4 d (([] : List SgEntry).take d.srcCount) = none → flushesNothing (nextDescriptor n s) 4 d = false → 
    exec (.flush n d) s = .next (let t := nextDescriptor n s; passFences (updLane n (fun l => { l with run := some { op := 4, desc := d, srcs := ([] : List SgEntry).take d.srcCount, total := 0, id := t.dmv.nextId }, fenceWait := true }) { t with dmv.nextId := t.dmv.nextId + 1 }))) ∧
  (∀ (s : State) (n : Nat) (d : DmvDesc) (f : DmvFail), s.boot.fastStopped = false → s.saf.failSilent = false → s.pwr.doze = false → takes s n = true → descFail (nextDescriptor n s) n 4 d (([] : List SgEntry).take d.srcCount) = some f → 
    exec (.flush n d) s = .next (refuseDesc n 4 d f (nextDescriptor n s))) ∧
  (∀ (s : State) (n : Nat) (d : DmvDesc), s.boot.fastStopped = false → s.saf.failSilent = false → s.pwr.doze = false → takes s n = true → descFail (nextDescriptor n s) n 4 d [] = none → flushesNothing (nextDescriptor n s) 4 d = true → 
    exec (.flush n d) s = .next (let t := nextDescriptor n s; completeRun n (updLane n (fun l => { l with run := some { op := 4, desc := d, srcs := [], total := 0, id := t.dmv.nextId }, fenceWait := true }) { t with dmv.nextId := t.dmv.nextId + 1 }))) ∧
  (∀ (s : State) (n : Nat) (d : DmvDesc), s.boot.fastStopped = false → s.saf.failSilent = false → s.pwr.doze = false → takes s n = true → descFail (nextDescriptor n s) n 2 d [] = none → d.dstLen = 0 → 
    exec (.fill n d) s = .next (let t := nextDescriptor n s; completeRun n (updLane n (fun l => { l with run := some { op := 2, desc := d, srcs := [], total := 0, id := t.dmv.nextId }, fenceWait := false }) { t with dmv.nextId := t.dmv.nextId + 1 }))) ∧
  (∀ (n op : Nat) (d : DmvDesc) (f : DmvFail) (s : State), f.denied = none → 
    refuseDesc n op d f s = endRecord n { op := op, desc := d } f.status f.detail (countEvent 0x0E0 0 { s with dmv.refused := satAdd (2 ^ 32 - 1) s.dmv.refused 1 })) ∧
  (∀ (s : State) (q n : Nat) (a : List Nat) (r : Running), s.boot.fastStopped = false → s.pwr.doze = false → s.saf.failSilent = false → grantLane q a (paceChecks q s) = some n → (laneOf (paceChecks q s) n).run = some r → (let t := paceChecks q s; burstDenied { t with dmv.lastServed := updAt (r.desc.flags % 4) (fun _ => n) t.dmv.lastServed } n r (burstLen r)) = none → (let t := paceChecks q s; burstPoisoned { t with dmv.lastServed := updAt (r.desc.flags % 4) (fun _ => n) t.dmv.lastServed } r (burstLen r)) = false → 
    exec (.burstGrant q a) s = .next (let t := paceChecks q s;
      issueBurst n r { t with dmv.lastServed := updAt (r.desc.flags % 4) (fun _ => n) t.dmv.lastServed })) ∧
  (∀ (s : State) (q : Nat) (a : List Nat), s.boot.fastStopped = false → s.pwr.doze = false → s.saf.failSilent = false → grantLane q a (paceChecks q s) = none → 
    exec (.burstGrant q a) s = .next (paceChecks q s)) ∧
  (∀ (q n : Nat) (a : List Nat) (s : State), (a.find? fun x => burstReady q (laneOf s x)) = some n → 
    grantLane q a s = some n) ∧
  (∀ (s : State) (n : Nat), s.boot.fastStopped = false → s.saf.failSilent = false → s.pwr.doze = false → 
    exec (.paceRequestResume n) s = .next (updLane n (fun l => { l with paceWait := none }) s)) ∧
  (∀ (s : State) (n : Nat) (r : Running) (t : Nat), s.boot.fastStopped = false → s.saf.failSilent = false → s.pwr.doze = false → (laneOf s n).run = some r → (laneOf s n).paceWait = some t → 
    exec (.paceTimeout n) s = .next (endRun n stDevTimeout 0 (countEvent 0x0E1 r.moved { s with dmv.paceTimeout := satAdd (2 ^ 32 - 1) s.dmv.paceTimeout 1 }))) ∧
  (∀ (s : State) (n k : Nat), s.boot.fastStopped = false → s.saf.failSilent = false → s.pwr.doze = false → 
    exec (.writesArrived n k) s = .next (let t := ((laneOf s n).writes.take k).foldl (fun s w => arriveWrite w s) (updLane n (fun l => { l with writes := l.writes.drop k }) s);
      passFences (postNotices n { t with mch.ranges := t.mch.ranges.filter fun r => descLive t r.1 }))) ∧
  (∀ (w : DmvWrite) (s : State), w.space = 0 → cacheable { s with ham.mem := memWrite s.ham.mem w.addr w.bytes } w.addr = false → 
    arriveWrite w s = { s with ham.mem := memWrite s.ham.mem w.addr w.bytes }) ∧
  (∀ (w : DmvWrite) (s : State), w.space ≠ 0 → 
    arriveWrite w s = s) ∧
  (∀ (s : State) (n : Nat) (r : Running), s.boot.fastStopped = false → s.saf.failSilent = false → s.pwr.doze = false → (laneOf s n).run = some r → r.op = 3 → (laneOf s n).writes.any (fun w => w.space == 2) = true → 
    exec (.c0WriteArrivalTimeout n) s = .next (countEvent 0x020 0 (updLane n (fun l => { l with run := none, fenceWait := false, paceWait := none, stopped := true, enable := false, held := [] }) s))) ∧
  (∀ (s : State) (n : Nat) (v : Word), s.boot.fastStopped = false → 14 ≤ n → n < 16 → 
    exec (.dmvSvcCfgWrite n v) s = .next (svcCfgWrite n v.toNat s)) ∧
  (∀ (n v : Nat) (s : State), (laneOf s n).enable = false → bit v 31 = true → 4 ≤ field v 0 4 → field v 0 4 ≤ 12 → 
    svcCfgWrite n v s = updLane n (fun l => { l with enable := true, stopped := false, sqHead := 0, sqTail := 0, cqTail := 0, cqHead := 0, phase := true, held := [] })
      (updLane n (fun l => { l with sizeLog2 := field v 0 4 }) s)) ∧
  (∀ (s : State) (n : Nat) (v : Word), s.boot.fastStopped = false → 14 ≤ n → field v.toNat 0 12 < 2 ^ (laneOf s n).sizeLog2 → 
    exec (.dmvSvcTailDoorbell n v) s = .next (doorbellWakes (updLane n (fun l => { l with sqTail := field v.toNat 0 12 }) s))) ∧
  (∀ (s : State) (n : Nat) (v : Word), s.boot.fastStopped = false → 14 ≤ n → 2 ^ (laneOf s n).sizeLog2 ≤ field v.toNat 0 12 → 
    exec (.dmvSvcTailDoorbell n v) s = .next (doorbellWakes s)) ∧
  (∀ (s : State) (n : Nat) (v : Word), s.boot.fastStopped = false → 14 ≤ n → field v.toNat 0 12 < 2 ^ (laneOf s n).sizeLog2 → (laneOf (updLane n (fun l => { l with cqHead := field v.toNat 0 12 }) (doorbellWakes s)) n).held = [] → 
    exec (.dmvSvcHeadDoorbell n v) s = .next (updLane n (fun l => { l with cqHead := field v.toNat 0 12 }) (doorbellWakes s)))

/-- A core's access that its plane's code denies is an access error and HAM_VIOL. A cacheable read hits its line or
starts or joins a fill; one that is not cacheable is delivered from the Hamper. A completed fill delivers its words
and is allocated in its way, a preload's only where its way is not locked, or is counted as skipped or not
allocated. A write updates the line and enters the buffer. A preload, a lock and inv_all do what their registers
say, a wrong one sets lock_err. A lookaside entry is inserted, removed and looked up; a miss posts a notice and
waits; an entry of kind 3 or more is refused by name. -/
def Obligations.MapCacheAndLookaside : Prop :=
  (∀ (s : State) (a : Nat), s.boot.fastStopped = false → s.saf.failSilent = false → s.pwr.doze = false → winAllowsRange s.ham.win 2 false a 1 = true → cacheable s a = false → 
    exec (.mapCacheRead a) s = .next (deliverWord a (memRead s.ham.mem (lineAddr a) 128) { s with mch.clock := s.mch.clock + 1 })) ∧
  (∀ (s : State) (a : Nat) (l : Line), s.boot.fastStopped = false → s.saf.failSilent = false → s.pwr.doze = false → winAllowsRange s.ham.win 2 false a 1 = true → cacheable s a = true → (s.mch.lines.find? fun x => x.addr == lineAddr a) = some l → 
    exec (.mapCacheRead a) s = .next (deliverWord a l.data { s with
      mch.clock := s.mch.clock + 1, mch.hits := satAdd (2 ^ 32 - 1) s.mch.hits 1,
      mch.lines := updWhere (fun x => x.addr == lineAddr a) (fun x => { x with used := s.mch.clock + 1 }) s.mch.lines })) ∧
  (∀ (s : State) (a : Nat), s.boot.fastStopped = false → s.saf.failSilent = false → s.pwr.doze = false → winAllowsRange s.ham.win 2 false a 1 = true → cacheable s a = true → (s.mch.lines.find? fun x => x.addr == lineAddr a) = none → s.mch.fills.any (fun f => f.addr == lineAddr a) = false → 
    exec (.mapCacheRead a) s = .next { s with
      mch.clock := s.mch.clock + 1, mch.misses := satAdd (2 ^ 32 - 1) s.mch.misses 1,
      mch.fills := s.mch.fills ++ [{ addr := lineAddr a, data := memRead s.ham.mem (lineAddr a) 128, wants := [a] }] }) ∧
  (∀ (s : State) (a : Nat), s.boot.fastStopped = false → s.saf.failSilent = false → s.pwr.doze = false → (s.mch.fills.find? fun f => f.addr == lineAddr a) = none → 
    exec (.mapCacheFillDone a) s = .next s) ∧
  (∀ (s : State) (a : Nat) (f : Fill), s.boot.fastStopped = false → s.saf.failSilent = false → s.pwr.doze = false → (s.mch.fills.find? fun x => x.addr == lineAddr a) = some f → f.wants = [] → f.alloc = false → 
    exec (.mapCacheFillDone a) s = .next (let t := { s with mch.fills := s.mch.fills.filter fun x => x.addr != lineAddr a, mch.clock := s.mch.clock + 1 };
      if f.way.isSome then { t with mch.skip := satAdd (2 ^ 32 - 1) t.mch.skip 1 } else { t with mch.noAlloc := satAdd (2 ^ 32 - 1) t.mch.noAlloc 1 })) ∧
  (∀ (s : State) (a : Nat) (f : Fill) (w : Nat), s.boot.fastStopped = false → s.saf.failSilent = false → s.pwr.doze = false → (s.mch.fills.find? fun x => x.addr == lineAddr a) = some f → f.wants = [] → f.alloc = true → f.way = some w → s.mch.ranges = [] → wayDown s w = false → bit s.mch.lock w = false → 
    exec (.mapCacheFillDone a) s = .next (let t := { s with mch.fills := s.mch.fills.filter fun x => x.addr != lineAddr a, mch.clock := s.mch.clock + 1 };
      placeLine (lineAddr a) w (withPending t (lineAddr a) f.data) t)) ∧
  (∀ (s : State) (a : Nat), s.boot.fastStopped = false → s.saf.failSilent = false → s.pwr.doze = false → winAllowsRange s.ham.win 2 false a 1 = false → 
    exec (.mapCacheRead a) s = .next (emit .accessError (deniedHam 2 a false s))) ∧
  (∀ (s : State) (a : Nat) (b : List Byte), s.boot.fastStopped = false → s.saf.failSilent = false → s.pwr.doze = false → winAllowsRange s.ham.win 2 true a b.length = false → 
    exec (.mapCacheWrite a b) s = .next (emit .accessError (deniedHam 2 a true s))) ∧
  (∀ (s : State) (a : Nat) (b : List Byte), s.boot.fastStopped = false → s.saf.failSilent = false → s.pwr.doze = false → winAllowsRange s.ham.win 2 true a b.length = true → s.mch.wt.length < 64 → 
    exec (.mapCacheWrite a b) s = .next { s with
      mch.lines := updWhere (fun l => l.addr == lineAddr a) (fun l => { l with data := overlay (lineAddr a) (a, b) l.data }) s.mch.lines,
      mch.fills := updWhere (fun f => f.addr == lineAddr a) (fun f => { f with data := overlay (lineAddr a) (a, b) f.data }) s.mch.fills,
      mch.wt := s.mch.wt ++ [(a, b)] }) ∧
  (∀ (s : State) (a : Nat) (v : Word), s.boot.fastStopped = false → preloadBusy s = true → 
    exec (.mchPreloadCtrlWrite a v) s = .next s) ∧
  (∀ (s : State) (a : Nat) (v : Word), s.boot.fastStopped = false → preloadBusy s = false → bit v.toNat 31 = false → 
    exec (.mchPreloadCtrlWrite a v) s = .next { s with mch.preloadAddr := a % 2 ^ 48, mch.preloadCtrl := v.toNat }) ∧
  (∀ (s : State) (m : Nat), s.boot.fastStopped = false → (waysOf (m % 65536)).length ≤ 15 → (waysOf (m % 65536)).any (wayDown s) = false → 
    exec (.mchWayLockWrite m) s = .next { s with mch.lock := m % 65536 }) ∧
  (∀ (s : State) (m : Nat), s.boot.fastStopped = false → 15 < (waysOf (m % 65536)).length → 
    exec (.mchWayLockWrite m) s = .next { s with mch.lockErr := true }) ∧
  (∀ (s : State), s.boot.fastStopped = false → 
    exec .invAll s = .next (let t := drainAll s;
      { t with mch.lockLost := ((t.mch.lines.map (·.way)).filter (bit t.mch.lock)).foldl setBit t.mch.lockLost, mch.lines := [], mch.fills := t.mch.fills.map fun f => { f with alloc := false } })) ∧
  (∀ (s : State) (k o p f : Nat) (b : Bool), s.boot.fastStopped = false → s.saf.failSilent = false → s.pwr.doze = false → k < 3 → f < mlaFrames s → 
    exec (.mapLookasideInsert k o p f b) s = .next (mlaInsert { kind := k, object := o, page := p, frame := f, pinned := b, used := s.mch.clock + 1 } { s with mch.clock := s.mch.clock + 1 })) ∧
  (∀ (s : State) (k o p f : Nat) (b : Bool), s.boot.fastStopped = false → s.saf.failSilent = false → s.pwr.doze = false → 3 ≤ k ∨ mlaFrames s ≤ f → 
    exec (.mapLookasideInsert k o p f b) s = .refused (.obligationBroken 488)) ∧
  (∀ (s : State) (k o p : Nat), s.boot.fastStopped = false → s.saf.failSilent = false → s.pwr.doze = false → 
    exec (.mapLookasideRemove k o p) s = .next { s with mch.mla := s.mch.mla.filter fun e => !mlaKey k o p e }) ∧
  (∀ (s : State) (k o p : Nat) (e : MlaEntry), s.boot.fastStopped = false → s.saf.failSilent = false → s.pwr.doze = false → s.mch.mla.find? (mlaKey k o p) = some e → 
    exec (.mapLookasideLookup k o p) s = .next (emit (.mapFrame k o p e.frame) { s with mch.clock := s.mch.clock + 1, mch.mla := updWhere (mlaKey k o p) (fun e => { e with used := s.mch.clock + 1 }) s.mch.mla })) ∧
  (∀ (s : State) (k o p : Nat), s.boot.fastStopped = false → s.saf.failSilent = false → s.pwr.doze = false → s.mch.mla.find? (mlaKey k o p) = none → 
    exec (.mapLookasideLookup k o p) s = .next (let t := { s with mch.clock := s.mch.clock + 1 };
      rimPost (freeBelow 16 t) 16 (leBytes 1 k ++ leBytes 4 o ++ leBytes 8 p) (drewFree { t with mch.mlaMiss := satAdd (2 ^ 32 - 1) t.mch.mlaMiss 1, mch.mlaWaiting := t.mch.mlaWaiting ++ [(k, o, p)] })))

/-- A sample of the 37 sensors is judged for failures, fast sampling, coverage and the trip, in that order; the exit of
fast sampling needs the time below 113 °C; THERM_STATUS answers the records. A watchdog fires class 0x04, a park
write waits for its entry, a parked core that executes fires at once. A configuration mismatch is class 0x05; a
scrubbed line is corrected and counted, poisoned, or class 0x09 inside a window. Failures are decided with their
class; SELFTEST waits for its outcome, which goes to the audit port. -/
def Obligations.ThermalSafetyAndSelfTest : Prop :=
  (∀ (s : State) (r : List Int), s.pins.aonInRange = true → r.length = 37 → 
    exec (.thermalSensorSample r) s = .next (tripCheck r (coverageCheck (fastSampling r (takeSamples r s))))) ∧
  (∀ (r : List Int) (s : State), s.aon.trip = false → allBelow r 2160 = false → 
    tripCheck r s = { failSilent 0x0C 0 { s with aon.trip := true, pins.thermtrip := true } with boot.fastStopped := true }) ∧
  (∀ (r : List Int) (s : State), allBelow r 2160 = true → 
    tripCheck r s = s) ∧
  (∀ (s : State), s.thm.coverageLost = false → coverageGone s.thm.sensors = true → 
    coverageCheck s = failSilent 0x0B 0x102 { s with thm.coverageLost := true }) ∧
  (∀ (s : State), s.thm.fast = true → s.thm.coolSince ≠ none → 
    exec .fastSamplingExit s = .next { s with thm.fast := false }) ∧
  (∀ (s : State) (ring seq : Nat) (c : Cmd), s.boot.fastStopped = false → opCmd s ring seq opThermStatus = some c → 
    exec (.thermStatus ring seq) s = .next (completePlain c (thermStatus s c) (pk c 24 8) (drewFree s))) ∧
  (∀ (s : State) (n : Nat), s.boot.fastStopped = false → 
    exec (.watchdogKick n) s = .next { s with saf.kicks := updAt n (fun _ => s.now) s.saf.kicks }) ∧
  (∀ (s : State) (n : Nat), s.boot.fastStopped = false → s.pins.pwrok = true → watched s n = true → 
    exec (.watchdogExpiry n) s = .next (if 32 ≤ n ∧ n < 36 then { failSilent 0x04 0 s with saf.mgmtHalted := true } else failSilent 0x04 0 s)) ∧
  (∀ (s : State) (n : Nat) (f : Bool), s.boot.fastStopped = false → n < 32 → 
    exec (.watchdogParkWrite n f) s = .next { s with brd.port := s.brd.port ++ [.park n f] }) ∧
  (∀ (s : State) (n : Nat), s.boot.fastStopped = false → s.pins.pwrok = true → n < 37 → bit s.saf.parked n = true → 
    exec (.parkedCoreExecutes n) s = .next (if 32 ≤ n ∧ n < 36 then { failSilent 0x04 0 s with saf.mgmtHalted := true } else failSilent 0x04 0 s)) ∧
  (∀ (s : State), s.boot.fastStopped = false → s.saf.cfgScrub = true → 
    exec (.configScrubPass true) s = .next (failSilent 0x05 0 s)) ∧
  (∀ (s : State), s.boot.fastStopped = false → s.saf.cfgScrub = true → 
    exec (.configScrubPass false) s = .next { s with saf.cfgPasses := satAdd (2 ^ 32 - 1) s.saf.cfgPasses 1 }) ∧
  (∀ (s : State) (n : Nat), s.boot.fastStopped = false → s.saf.hamScrub = true → n ≠ 0 → n * 64 < hamUnits * winUnit → 
    exec (.hamperScrubRead n 1) s = .next (countEvent 0x105 0 { s with saf.hamCorr := satAdd (2 ^ 32 - 1) s.saf.hamCorr 1 })) ∧
  (∀ (s : State) (n : Nat), s.boot.fastStopped = false → s.saf.hamScrub = true → n ≠ 0 → n * 64 < hamUnits * winUnit → winOf s.ham.win (n * 64) = none → 
    exec (.hamperScrubRead n 2) s = .next (countEvent 0x106 0 { s with ham.poisoned := insertNat n s.ham.poisoned })) ∧
  (∀ (s : State) (n w : Nat), s.boot.fastStopped = false → s.saf.hamScrub = true → n ≠ 0 → n * 64 < hamUnits * winUnit → winOf s.ham.win (n * 64) = some w → 
    exec (.hamperScrubRead n 2) s = .next (failSilent 0x09 0 s)) ∧
  (∀ (s : State) (k c : Nat), s.boot.fastStopped = false → 1 ≤ k → k ≤ 0x0D → s.pins.pwrok = true → 
    exec (.failSilentDecision k c) s = .next (failSilent k c s)) ∧
  (∀ (s : State) (ring seq : Nat) (c : Cmd), s.boot.fastStopped = false → opCmd s ring seq opSelftest = some c → pk c 24 1 ≠ 0 → 
    exec (.selftest ring seq) s = .next (markTaken c { s with plem.deferred := s.plem.deferred ++ [(c, 0)] })) ∧
  (∀ (s : State) (l : List Nat) (m q : Nat) (c : Cmd) (n : Nat), s.boot.fastStopped = false → (s.plem.deferred.find? fun d => d.1.opcode == opSelftest) = some (c, n) → 
    exec (.selftestComplete l m q) s = .next { s with plem.deferred := s.plem.deferred.filter (fun x => x.1.uid != c.uid), brd.port := s.brd.port ++ [.command c (selftestOutcome c l m q)] })

/-- A sample of a sensor is kept with its time and ends its stale episodes; a stale sensor is counted once. Each tick
counts and, while the Weaver runs, evaluates the due loops, applies their outputs and samples the capture. WVM_START
prepares every loop for a bumpless first sample. WVR_INJECT and WVR_CAPTURE are decided and take effect; an
injection that ends early counts 0x0F2; a trigger starts an armed capture. -/
def Obligations.WeaverCommands : Prop :=
  (∀ (s : State) (n : Nat), s.boot.fastStopped = false → s.saf.failSilent = false → n < 64 → (loopAt s n).stale = false → (loopAt s n).sensor ≠ 0 → 
    exec (.sensorStale n) s = .next (countEvent 0x0F0 0 { s with wvr.loops := updAt n (fun l => { l with stale := true }) s.wvr.loops, wvr.staleCount := satAdd (2 ^ 32 - 1) s.wvr.staleCount 1 })) ∧
  (∀ (s : State) (n : Nat), s.boot.fastStopped = false → s.saf.failSilent = false → (loopAt s n).stale = true → 
    exec (.sensorStale n) s = .next s) ∧
  (∀ (s : State) (k i : Nat) (v : Int), s.boot.fastStopped = false → s.saf.failSilent = false → k ≠ 0 → sensorOk k i = true → 
    exec (.sensorSampleArrival k i v) s = .next { s with
      wvr.samples := (k, i, sat16 v, s.now) :: s.wvr.samples.filter fun e => !(e.1 == k && e.2.1 == i),
      wvr.loops := updWhere (fun l => l.stale && l.sensor == k && l.sInst == i) (fun l => { l with stale := false, bumpless := true }) s.wvr.loops }) ∧
  (∀ (s : State), s.boot.fastStopped = false → s.saf.failSilent = false → weaverRuns s = true → 
    exec .loopTick s = .next { throttleTick (runLoops s) with wvr.tick := (throttleTick (runLoops s)).wvr.tick + 1 }) ∧
  (∀ (s : State), s.boot.fastStopped = false → s.saf.failSilent = false → weaverRuns s = false → 
    exec .loopTick s = .next { throttleTick s with wvr.tick := (throttleTick s).wvr.tick + 1 }) ∧
  (∀ (s : State), 
    runLoops s = captureTick s (applyActs ((dueOrder s).foldl evalLoop s))) ∧
  (∀ (s : State), s.boot.fastStopped = false → s.wvr.running = false → s.boot.mgtRunning = true → wvmFound s = true → s.saf.failSilent = false → 
    exec .wvmStart s = .next { s with wvr.running := true, wvr.loops := s.wvr.loops.map fun l => { l with held := if l.act = 6 then 0 else 32767, bumpless := true } }) ∧
  (∀ (s : State) (n : Nat) (x : Inject), s.boot.fastStopped = false → s.saf.failSilent = false → (loopAt s n).inj = some x → 
    exec (.injectionEnd n) s = .next (injectBegun (some x) (countEvent 0x0F2 0 { s with wvr.loops := updAt n (fun l => { l with inj := none }) s.wvr.loops }))) ∧
  (∀ (s : State), s.boot.fastStopped = false → s.saf.failSilent = false → 
    exec .captureTrigger s = .next { s with wvr.capture := s.wvr.capture.map fun c => if c.state = 1 then { c with state := 2 } else c }) ∧
  (∀ (s : State) (ring seq : Nat) (c : Cmd) (x : Inject), s.boot.fastStopped = false → opCmd s ring seq opWvrInject = some c → s.brd.port = [] → pk c 25 1 = 0 → pk c 26 1 = 0 → (loopAt s (pk c 24 1)).inj = some x → 
    exec (.wvrInject ring seq) s = .next (markTaken c { s with brd.port := [.command c { status := stResExists }] })) ∧
  (∀ (s : State) (ring seq : Nat) (c : Cmd), s.boot.fastStopped = false → opCmd s ring seq opWvrInject = some c → s.brd.port = [] → pk c 25 1 = 0 → pk c 26 1 = 0 → (loopAt s (pk c 24 1)).inj = none → injections s < 8 → 
    exec (.wvrInject ring seq) s = .next (markTaken c { s with brd.port := [.command c { status := stOkDone }] })) ∧
  (∀ (c : Cmd) (st de : Nat) (s : State), pk c 25 1 = 0 → pk c 32 4 ≠ 0 → 
    applyWvrInject c st de s = { s with wvr.loops := updAt (pk c 24 1) (fun l => { l with inj := some { point := pk c 26 1, wave := pk c 27 1, amp := unsigned 16 (pk c 28 2), dur := pk c 32 4, period := max 1 (pk c 36 2), f0 := pk c 38 2, f1 := pk c 40 2, cmd := some (c.uid, st, de) } }) s.wvr.loops }) ∧
  (∀ (s : State) (ring seq : Nat) (c : Cmd), s.boot.fastStopped = false → opCmd s ring seq opWvrCapture = some c → s.brd.port = [] → pk c 24 1 = 0 → captureBusy s = true → 
    exec (.wvrCapture ring seq) s = .next (markTaken c { s with brd.port := [.command c { status := stResExists }] })) ∧
  (∀ (s : State) (ring seq : Nat) (c : Cmd), s.boot.fastStopped = false → opCmd s ring seq opWvrCapture = some c → s.brd.port = [] → pk c 24 1 = 0 → captureBusy s = false → 
    exec (.wvrCapture ring seq) s = .next (markTaken c { s with brd.port := [.command c { status := stOkDone }] })) ∧
  (∀ (c : Cmd) (s : State), pk c 24 1 = 0 → pk c 28 4 ≠ 0 → 
    applyWvrCapture c s = { s with wvr.capture := some { trigger := pk c 25 1, clock := pk c 26 1, d := pk c 27 1 + 1, count := pk c 28 4, sel := (List.range 4).map (fun k => pk c (32 + 2 * k) 2), level := unsigned 16 (pk c 40 2) } })

/-- Whatever the coefficients and the inputs, the output of a CLOSED sample lies between umin and umax when those are
Q1.15 values in order; the integrator either stays or takes its new term, saturated to Q9.31; it stays exactly where
the clamped output would be driven further; the flags say which clamp held; and the loop's number, bindings,
coefficients and limits are those it had. -/
def Obligations.WeaverSampleArithmetic : Prop :=
  (∀ (l : Loop) (y r f j : Int), -32768 ≤ l.umin → l.umin ≤ l.umax → l.umax ≤ 32767 → 
    l.umin ≤ (closedSample y r f j l).u ∧ (closedSample y r f j l).u ≤ l.umax) ∧
  (∀ (l : Loop) (y r f j : Int), l.bumpless = false → 
    (closedSample y r f j l).i = (let t := termsOf l l.v l.yPrev y r f;
      if windupHeld l (rawOut l t l.i j) t.e then l.i else sat40 (l.i + mul15 l.ki (r - y)))) ∧
  (∀ (l : Loop) (y r f j : Int), 
    (closedSample y r f j l).num = l.num ∧ (closedSample y r f j l).kp = l.kp ∧ (closedSample y r f j l).ki = l.ki ∧ (closedSample y r f j l).kd = l.kd ∧ (closedSample y r f j l).kff = l.kff ∧ (closedSample y r f j l).umin = l.umin ∧ (closedSample y r f j l).umax = l.umax ∧ (closedSample y r f j l).state = l.state ∧ (closedSample y r f j l).count = l.count + 1) ∧
  (∀ (l : Loop) (y r f j : Int), l.bumpless = false → 
    let t := termsOf l l.v l.yPrev y r f;
    (closedSample y r f j l).clampHi = decide (l.umax * 65536 < rawOut l t l.i j) ∧ (closedSample y r f j l).clampLo = decide (rawOut l t l.i j < l.umin * 65536) ∧ (closedSample y r f j l).windup = windupHeld l (rawOut l t l.i j) (r - y))

/-- With command c at the front of its queue the device answers what c answers on the state with the rest of the queue.
With an empty queue one reference step of monotonic time passes and the write-through buffer drains its oldest entry
(the model's choice, log 11). -/
def Obligations.AStepRunsTheFrontCommand : Prop :=
  (∀ (c : Instr) (rest : List Instr) (s : State), 
    step { s with pending := c :: rest } = exec c { s with pending := rest }) ∧
  (∀ (s : State), s.pending = [] → 
    step s = .next (drainOne { s with now := s.now + if s.boot.aonTick then 100 else 40 }))

/-- Entries 0 to 16 are enabled with the base, size, owner and access codes of Table 01-3, the owner's own code 0b00.
Entries 17 to 31 are zero. Every address of the 192 GiB lies in exactly one enabled entry, and no plane may access
what entry 16 holds. The owner's code is ignored for access, kept by a write, read back and part of the digest's
input; an entry with no owner gives every plane its code. -/
def Obligations.ResetHoldsTheDefaultPartition : Prop :=
  (∀ (n : Nat), n < 17 → 
    (State.reset.ham.win[n]?).map (fun w => (winBase State.reset n, winSize State.reset n / 1048576, w.owner, w.d, w.c, w.m)) =
      ([ (0x000000000000, 1024, 3, 0, 1, 0), (0x000040000000, 16384, 2, 1, 0, 1), (0x000440000000, 256, 3, 3, 1, 0),
        (0x000450000000, 32768, 1, 0, 1, 0), (0x000C50000000, 8192, 1, 0, 0, 0), (0x000E50000000, 4096, 1, 0, 0, 0),
        (0x000F50000000, 65536, 2, 3, 0, 0), (0x001F50000000, 40960, 2, 1, 0, 0), (0x002950000000, 256, 1, 0, 1, 0),
        (0x002960000000, 8, 1, 0, 3, 0), (0x002960800000, 16384, 1, 0, 1, 0), (0x002D60800000, 4096, 1, 0, 1, 0),
        (0x002E60800000, 256, 3, 3, 0, 0), (0x002E70800000, 64, 2, 0, 0, 1), (0x002E74800000, 64, 3, 0, 0, 0),
        (0x002E78800000, 64, 3, 2, 2, 0), (0x002E7C800000, 6200, 0, 0, 0, 0) ] : List (Nat × Nat × Nat × Nat × Nat × Nat))[n]? ∧
    (State.reset.ham.win[n]?).map (·.enable) = some true) ∧
  (∀ (n : Nat), 17 ≤ n → n < 32 → 
    State.reset.ham.win[n]? = some { base := 0, size := 0, enable := false, fixed := false, owner := 0, m := 0, c := 0, d := 0 }) ∧
  (∀ (a : Nat), a < 192 * 2 ^ 30 → 
    ∃ n, n < 17 ∧ ∀ k w, State.reset.ham.win[k]? = some w → (winCovers w a = true ↔ k = n)) ∧
  (∀ (a p : Nat) (write : Bool), winOf State.reset.ham.win a = some 16 → p = 1 ∨ p = 2 ∨ p = 3 → 
    winAllows State.reset.ham.win p write a = false) ∧
  (∀ (w : Win) (p x : Nat), p = 1 ∨ p = 2 ∨ p = 3 → 
    winCode { w with owner := 1, d := x } p = winCode { w with owner := 1 } p ∧ winCode { w with owner := 2, c := x } p = winCode { w with owner := 2 } p ∧ winCode { w with owner := 3, m := x } p = winCode { w with owner := 3 } p) ∧
  (∀ (w : Win), w.owner = 0 → 
    winCode w 1 = w.d ∧ winCode w 2 = w.c ∧ winCode w 3 = w.m) ∧
  (∀ (w : Win) (v : Nat), 
    winReg (winPut 8 v w) 8 % 4 = v % 4 ∧ winReg (winPut 8 v w) 8 / 4 % 4 = v / 4 % 4 ∧ winReg (winPut 8 v w) 8 / 16 % 4 = v / 16 % 4) ∧
  (∀ (s : State) (n : Nat) (w : Win), s.ham.win[n]? = some w → 
    ((rwlBytes s).drop (24 * n + 20)).take 4 = leBytes 4 (winReg w 8))

/-- A post that a ring takes puts the entry, as 64 bytes, behind every entry the ring holds or holds back; a take hands
the consumer the oldest of them and leaves the others in their order; a take of an empty ring changes nothing;
neither touches another ring. -/
def Obligations.RimRingsKeepTheirOrder : Prop :=
  (∀ (s : State) (n : Nat) (c : Bool) (b : List Byte), s.boot.fastStopped = false ∧ ((rimPlanes n).1 = 3 ∨ (s.saf.failSilent = false ∧ s.pwr.doze = false)) → n < 64 → n < s.ham.rim.length → c = rimByCore n → c = false ∨ (rimOf s n).entries.length < rimCap → 
    ∃ t, exec (.rimPost n c b) s = .next t ∧ rimQueue t n = rimQueue s n ++ [padTo 64 b] ∧ (∀ m, m ≠ n → rimQueue t m = rimQueue s m) ∧
      t = { (if c = true ∧ (rimPlanes n).1 = 2 then drainAll s else s) with ham.rim := t.ham.rim }) ∧
  (∀ (s : State) (n : Nat) (e : List Byte) (l : List (List Byte)), s.boot.fastStopped = false ∧ ((rimPlanes n).2 = 3 ∨ (s.saf.failSilent = false ∧ s.pwr.doze = false)) → (rimOf s n).entries = e :: l → 
    ∃ t, exec (.rimTake n) s = .next t ∧ t.out = s.out ++ [.rimNotice n (rimPlanes n).2 e] ∧ e :: rimQueue t n = rimQueue s n ∧ (∀ m, m ≠ n → rimQueue t m = rimQueue s m) ∧ t = { s with out := t.out, ham.rim := t.ham.rim }) ∧
  (∀ (s : State) (n : Nat), (rimOf s n).entries = [] → 
    exec (.rimTake n) s = .next s)

/-- Monotonic time is zero, no cipher slot, session or waiting command exists, no window status or captured violation is
set, every parameter is at its default, the configuration is open, neither sealed nor eligible nor in service, the
Handle outputs are low, nothing is fail-silent, and the invariant of the statements holds. -/
def Obligations.ResetValues : Prop :=
  (
    State.reset.now = 0 ∧ State.reset.cip.slots = [] ∧ State.reset.plem.sessions = [] ∧ State.reset.pending = []) ∧
  (
    State.reset.plem.pids = [] ∧ State.reset.plem.blocks = [] ∧ State.reset.plem.cmds = [] ∧ State.reset.plem.longOps = []) ∧
  (
    State.reset.boot.cfgSealed = false ∧ State.reset.boot.recSealed = false ∧ State.reset.boot.handleElig = false ∧ State.reset.boot.service = false) ∧
  (
    State.reset.hdl.holdOut = false ∧ State.reset.hdl.beatOut = false ∧ State.reset.hdl.holder = false ∧ State.reset.saf.failSilent = false) ∧
  (
    State.reset.ham.viol.valid = false ∧ State.reset.ham.stsRange = false ∧ State.reset.ham.stsOverlap = false ∧ State.reset.nv.chain = []) ∧
  (∀ (l : Loop), l ∈ State.reset.wvr.loops → 10 ≤ l.num → 
    l.sensor = 0 ∧ l.act = 0) ∧
  (
    State.reset.Inv)

/-- From any state in which the Hamper's contents are in canonical form and every audit entry holds the SHA-384 of the
entry before it, whatever command stands in front, the next state has both again. -/
def Obligations.EveryStepKeepsTheInvariant : Prop :=
  (∀ (s t : State), s.Inv → step s = .next t → 
    t.Inv)

/-- Over every step, resets among them, the audit chain of the state before is a prefix of the chain after, the boot
counter and the epoch of the layout roots do not fall, and the fuses only burn: the die serial and the unique device
secret stand, a burned owner root stands, no security-version floor falls. -/
def Obligations.WhatIsRecordedAndBurnedStays : Prop :=
  (∀ (s t : State), step s = .next t → 
    s.nv.chain <+: t.nv.chain ∧ s.nv.bootCounter ≤ t.nv.bootCounter ∧ s.nv.epoch ≤ t.nv.epoch ∧ FusesOnlyBurn s t)

/-- While PWROK is high and the always-on rails are in range, only a fall of PWROK or of the rails ends fail-silence,
releases FAULT_N or clears the PWRFAIL_N latch. Only the fall of the always-on rails clears the trip latch and the
recorded cause. The paths to the unique device secret, once shut, stay shut until a reset. -/
def Obligations.LatchesClearOnlyAsStated : Prop :=
  (∀ (s t : State), step s = .next t → s.pins.pwrok = true → s.pins.aonInRange = true → s.pending.head? ≠ some .pwrokFall → s.pending.head? ≠ some .aonRailsDown → 
    (s.saf.failSilent = true → t.saf.failSilent = true) ∧ (s.pins.faultN = true → t.pins.faultN = true) ∧ (s.boot.pwrfailLatched = true → t.boot.pwrfailLatched = true)) ∧
  (∀ (s t : State), step s = .next t → s.pending.head? ≠ some .aonRailsDown → 
    (s.aon.trip = true → t.aon.trip = true) ∧ (s.aon.cause.valid = true → t.aon.cause.valid = true)) ∧
  (∀ (s t : State) (c : Instr), s.pending.head? = some c → isReset c = false → step s = .next t → s.brd.udsOpen = false → 
    t.brd.udsOpen = false)

/-- Whatever a command does, the queue after it is the queue it found, so a step leaves exactly the commands behind the
front one, in their order. -/
def Obligations.NoCommandChangesTheQueue : Prop :=
  (∀ (c : Instr) (s t : State), exec c s = .next t → 
    t.pending = s.pending) ∧
  (∀ (s t : State), step s = .next t → 
    t.pending = s.pending.tail)

/-- Byte k of parity strip D + j is the sum over the data positions of their byte k times α^(j × i); the strip at
position D + j of a segment is that parity strip of the segment's data strips; a void or unfilled data strip is all
zero; an extent holds 512 bytes for each unit, and a Coil record 64 bytes for each line. -/
def Obligations.ParityStripsHoldTheWeightedSums : Prop :=
  (∀ (j k : Nat) (strips : List (List Byte)), (∀ t ∈ strips, t.length = 65536) → k < 65536 → 
    (parityStrip j strips)[k]? = some (parityByte j (strips.map fun t => t.getD k 0))) ∧
  (∀ (s : State) (n j : Nat) (x : Segment) (g : Gen), segOf s n = some x → segGen s n = some g → 
    stripBytes s n (g.d + j) = parityStrip j ((List.range g.d).map (dataStrip s x))) ∧
  (∀ (s : State) (x : Segment) (i : Nat), (posOf x i).state = 0 ∨ (posOf x i).state = 3 → 
    dataStrip s x i = zeros 65536) ∧
  (∀ (s : State) (x : Segment) (i : Nat) (l : List Byte), (posOf x i).state = 2 → (posOf x i).data = some l → 
    dataStrip s x i = padTo 65536 l) ∧
  (∀ (d : Bool) (k b : List Byte) (i u : Nat), 
    (xtsExtent d k i u b).length = 512 * u) ∧
  (∀ (s : State) (b : CoilBody) (j n : Nat), 
    (recordLines s b j n).length = 64 * n)

/-- At one byte offset of a segment with D from 6 to 28 data strips and P of 2 or 3 parity strips, two contents that
agree on the bytes of any D positions, data or parity, agree on every data byte: the code is maximum distance
separable. -/
def Obligations.AnyDStripsDetermineTheStripe : Prop :=
  (∀ (d p : Nat) (ds es : List Byte) (at_ : List Nat), 6 ≤ d → d ≤ 28 → p = 2 ∨ p = 3 → ds.length = d → es.length = d → at_.Nodup → at_.length = d → (∀ i ∈ at_, i < d + p) → (∀ i ∈ at_, (if i < d then ds.getD i 0 else parityByte (i - d) ds) = (if i < d then es.getD i 0 else parityByte (i - d) es)) → 
    ds = es)
end

