-- ==== Sys2Proof/Laws/Memory.lean ====
section
/-! SUPPORT. The Hamper's contents: every write keeps the canonical form, a byte written reads back, every other byte reads
as before. -/

namespace Sys2Proof.Machine

/-- A canonical form from a bound is one from every lower bound. -/
theorem memWfFrom_mono {m : List Host.Cell} {a b : Nat} (h : memWfFrom b m = true) (hab : a ≤ b) : memWfFrom a m = true := by
  cases m with
  | nil => rfl
  | cons c t =>
    simp only [memWfFrom, Bool.and_eq_true, decide_eq_true_eq] at h ⊢
    exact ⟨⟨Nat.le_trans hab h.1.1, h.1.2⟩, h.2⟩

/-- The canonical form of a listing with a head. -/
theorem memWfFrom_cons {lo k : Nat} {v : Byte} {t : List Host.Cell} :
    memWfFrom lo ((k, v) :: t) = true ↔ lo ≤ k ∧ v ≠ 0 ∧ memWfFrom (k + 1) t = true := by
  simp [memWfFrom, and_assoc]

/-- A byte below the bound of a canonical listing is not listed. -/
theorem memGet_below {m : List Host.Cell} {lo a : Nat} (h : memWfFrom lo m = true) (ha : a < lo) : memGet m a = 0 := by
  induction m generalizing lo with
  | nil => rfl
  | cons c t ih =>
    obtain ⟨k, v⟩ := c
    obtain ⟨h1, -, h3⟩ := memWfFrom_cons.1 h
    unfold memGet
    rw [if_neg (by omega)]
    exact ih h3 (by omega)

/-- One byte written keeps the canonical form. -/
theorem memSet_wfFrom {m : List Host.Cell} {lo a : Nat} (b : Byte) (h : memWfFrom lo m = true) (ha : lo ≤ a) :
    memWfFrom lo (memSet m a b) = true := by
  induction m generalizing lo with
  | nil =>
    unfold memSet
    split
    · rfl
    · exact memWfFrom_cons.2 ⟨ha, ‹_›, rfl⟩
  | cons c t ih =>
    obtain ⟨k, v⟩ := c
    obtain ⟨h1, h2, h3⟩ := memWfFrom_cons.1 h
    unfold memSet
    split
    · split
      · exact h
      · exact memWfFrom_cons.2 ⟨ha, ‹_›, memWfFrom_cons.2 ⟨‹_›, h2, h3⟩⟩
    · split
      · split
        · exact memWfFrom_mono h3 (by omega)
        · exact memWfFrom_cons.2 ⟨ha, ‹_›, by simp [*]⟩
      · exact memWfFrom_cons.2 ⟨h1, h2, ih h3 (by omega)⟩

/-- A range written keeps the canonical form. -/
theorem memWrite_wf {m : List Host.Cell} (a : Nat) (bs : List Byte) (h : Memory.wf m = true) : Memory.wf (memWrite m a bs) = true := by
  induction bs generalizing m a with
  | nil => exact h
  | cons b t ih => exact ih (a + 1) (memSet_wfFrom b h (Nat.zero_le a))

/-- A byte written reads back. -/
theorem memGet_memSet_same {m : List Host.Cell} {lo : Nat} (a : Nat) (b : Byte) (h : memWfFrom lo m = true) :
    memGet (memSet m a b) a = b := by
  induction m generalizing lo with
  | nil => unfold memSet; split <;> simp_all [memGet]
  | cons c t ih =>
    obtain ⟨k, v⟩ := c
    obtain ⟨-, -, h3⟩ := memWfFrom_cons.1 h
    unfold memSet
    split
    · split
      · rename_i hb
        simp only [memGet]
        rw [if_neg (by omega), hb]
        exact memGet_below h3 (by omega)
      · simp [memGet]
    · split
      · split
        · rename_i hk hb
          rw [hb]
          exact memGet_below h3 (by omega)
        · simp [memGet]
      · simp only [memGet]
        rw [if_neg (by omega)]
        exact ih h3

/-- A byte written leaves every other byte alone. -/
theorem memGet_memSet_other (m : List Host.Cell) {a x : Nat} (b : Byte) (h : x ≠ a) : memGet (memSet m a b) x = memGet m x := by
  induction m with
  | nil =>
    unfold memSet
    split
    · rfl
    · simp [memGet, Ne.symm h]
  | cons c t ih =>
    obtain ⟨k, v⟩ := c
    unfold memSet
    split
    · split
      · rfl
      · simp [memGet, Ne.symm h]
    · split
      · rename_i hk
        subst hk
        split <;> simp [memGet, Ne.symm h]
      · simp only [memGet, ih]

/-- A range written leaves every byte below it alone. -/
theorem memGet_memWrite_below (m : List Host.Cell) {a x : Nat} (bs : List Byte) (h : x < a) :
    memGet (memWrite m a bs) x = memGet m x := by
  induction bs generalizing m a with
  | nil => rfl
  | cons b t ih =>
    unfold memWrite
    rw [ih _ (by omega), memGet_memSet_other _ _ (by omega)]

/-- A range written leaves every byte above it alone. -/
theorem memGet_memWrite_above (m : List Host.Cell) {a x : Nat} (bs : List Byte) (h : a + bs.length ≤ x) :
    memGet (memWrite m a bs) x = memGet m x := by
  induction bs generalizing m a with
  | nil => rfl
  | cons b t ih =>
    simp only [List.length_cons] at h
    unfold memWrite
    rw [ih _ (by omega), memGet_memSet_other _ _ (by omega)]

/-- The bytes of a range written read back. -/
theorem memGet_memWrite_in {m : List Host.Cell} (a : Nat) (bs : List Byte) (k : Nat) (hk : k < bs.length) (h : Memory.wf m = true) :
    memGet (memWrite m a bs) (a + k) = bs[k] := by
  induction bs generalizing m a k with
  | nil => simp at hk
  | cons b t ih =>
    have hw : Memory.wf (memSet m a b) = true := memSet_wfFrom b h (Nat.zero_le a)
    unfold memWrite
    cases k with
    | zero => simpa [memGet_memWrite_below _ t (Nat.lt_succ_self a)] using memGet_memSet_same a b h
    | succ k =>
      have := ih (a + 1) k (by simpa using hk) hw
      rw [show a + (k + 1) = a + 1 + k by omega]
      simpa using this

end Sys2Proof.Machine
end

