-- ==== Sys2Proof/Laws/Keeps.lean ====
section
/-! SUPPORT. What every command but the resets keeps of a state, and the shared operations that keep it. -/

namespace Sys2Proof.Machine

set_option linter.unusedVariables false

/-! ### Base -/

/-- What a command that is no reset keeps: the queue stands, memory keeps its form, the audit chain only grows and stays
linked, counters and fuses only rise, the latches stay. -/
structure Keeps (s t : State) : Prop where
  pending : t.pending = s.pending
  mem : Memory.wf s.ham.mem = true → Memory.wf t.ham.mem = true
  chain : s.nv.chain <+: t.nv.chain
  linked : chainLinked s.nv.chain → chainLinked t.nv.chain
  counter : s.nv.bootCounter ≤ t.nv.bootCounter
  epoch : s.nv.epoch ≤ t.nv.epoch
  silent : s.saf.failSilent = true → t.saf.failSilent = true
  trip : s.aon.trip = true → t.aon.trip = true
  cause : s.aon.cause.valid = true → t.aon.cause.valid = true
  serial : t.nv.fuses.dieSerial = s.nv.fuses.dieSerial
  uds : t.nv.fuses.uds = s.nv.fuses.uds
  owner : owned s = true → t.nv.fuses.ownerRoot = s.nv.fuses.ownerRoot
  floors : ∀ k, svnFloor s k ≤ svnFloor t k
  udsShut : s.brd.udsOpen = false → t.brd.udsOpen = false
  latch : s.boot.pwrfailLatched = true → t.boot.pwrfailLatched = true
  fault : s.pins.faultN = true → t.pins.faultN = true
theorem chainLinked_append {l : List AuditEntry} {e : AuditEntry} (h : chainLinked l)
    (he : e.prevHash = match l.getLast? with
      | none => zeros 48
      | some d => Config.sha384 (entryBytes d (l.length - 1))) : chainLinked (l ++ [e]) := by
  unfold chainLinked prevHashOf at *
  intro i x hx
  rcases Nat.lt_trichotomy i l.length with hi | hi | hi
  · rw [List.getElem?_append_left hi] at hx
    have := h i x hx
    cases i with
    | zero => exact this
    | succ k => simpa [List.getElem?_append_left (Nat.lt_of_succ_lt hi)] using this
  · subst hi
    simp at hx
    subst hx
    rw [he]
    cases hl : l with
    | nil => simp
    | cons a t =>
      have h1 : (a :: t ++ [e])[t.length]? = (a :: t)[t.length]? := List.getElem?_append_left (by simp)
      simp only [List.length_cons, h1, List.getLast?_eq_getElem?, Nat.add_sub_cancel] <;>
        cases (a :: t)[t.length]? <;> rfl
  · simp [List.getElem?_append_right (Nat.le_of_lt hi), List.getElem?_eq_none (l := [e]) (i := i - l.length) (by simp; omega)] at hx
theorem updAt_floor (l : List Nat) (k j v : Nat) (h : (l[k]?).getD 0 ≤ v) :
    (l[j]?).getD 0 ≤ ((updAt k (fun _ => v) l)[j]?).getD 0 := by
  induction l generalizing k j with
  | nil => simp [updAt]
  | cons a t ih =>
    cases k with
    | zero => cases j <;> simp_all [updAt]
    | succ k => cases j with
      | zero => simp [updAt]
      | succ j => simpa [updAt] using ih k j (by simpa using h)
theorem Keeps.refl (s : State) : Keeps s s := ⟨rfl, id, List.prefix_rfl, id, Nat.le_refl _, Nat.le_refl _, id, id, id, rfl, rfl, fun _ => rfl, fun _ => Nat.le_refl _, id, id, id⟩
theorem Keeps.upd {s0 x t : State} (h : Keeps s0 x) (h1 : t.pending = x.pending) (h2 : t.ham.mem = x.ham.mem)
    (h3 : t.nv.chain = x.nv.chain) (h4 : t.nv.bootCounter = x.nv.bootCounter) (h5 : t.nv.epoch = x.nv.epoch)
    (h6 : t.saf.failSilent = x.saf.failSilent) (h7 : t.aon.trip = x.aon.trip) (h8 : t.aon.cause.valid = x.aon.cause.valid)
    (h9 : t.nv.fuses = x.nv.fuses) (h10 : t.brd.udsOpen = x.brd.udsOpen) (h11 : t.boot.pwrfailLatched = x.boot.pwrfailLatched)
    (h12 : t.pins.faultN = x.pins.faultN) : Keeps s0 t :=
  ⟨h1.trans h.1, fun w => by rw [h2]; exact h.2 w, h3 ▸ h.3, fun w => by rw [h3]; exact h.4 w, h4 ▸ h.5, h5 ▸ h.6,
    fun w => by rw [h6]; exact h.7 w, fun w => by rw [h7]; exact h.8 w, fun w => by rw [h8]; exact h.9 w,
    by rw [h9]; exact h.serial, by rw [h9]; exact h.uds, fun w => by rw [h9]; exact h.owner w,
    fun k => by unfold svnFloor; rw [h9]; exact h.floors k, fun w => by rw [h10]; exact h.udsShut w,
    fun w => by rw [h11]; exact h.latch w, fun w => by rw [h12]; exact h.fault w⟩

theorem Keeps.lit {s0 x : State} {out' now' free' pins' aon' boot' pwr' ham' plem' brd' fw' hfe' rlk' rma' red' cip' col' lay' med' stk' hdl' dmv' mch' wvr' thm' saf' evr' regs' nv'} (h : Keeps s0 x) (h2 : ham'.mem = x.ham.mem)
    (h3 : nv'.chain = x.nv.chain) (h4 : nv'.bootCounter = x.nv.bootCounter) (h5 : nv'.epoch = x.nv.epoch)
    (h6 : saf'.failSilent = x.saf.failSilent) (h7 : aon'.trip = x.aon.trip) (h8 : aon'.cause.valid = x.aon.cause.valid)
    (h9 : nv'.fuses = x.nv.fuses) (h10 : brd'.udsOpen = x.brd.udsOpen) (h11 : boot'.pwrfailLatched = x.boot.pwrfailLatched)
    (h12 : pins'.faultN = x.pins.faultN) :
    Keeps s0 ⟨x.pending, out', now', free', pins', aon', boot', pwr', ham', plem', brd', fw', hfe', rlk', rma', red', cip', col', lay', med', stk', hdl', dmv', mch', wvr', thm', saf', evr', regs', nv'⟩ := Keeps.upd h rfl h2 h3 h4 h5 h6 h7 h8 h9 h10 h11 h12
theorem Keeps.ite {s0 a b : State} {c : Prop} [Decidable c] (ha : c → Keeps s0 a) (hb : ¬c → Keeps s0 b) : Keeps s0 (if c then a else b) := by
  split
  · exact ha ‹_›
  · exact hb ‹_›
theorem Keeps.lits {s0 x : State} {out' now' free' pins' aon' boot' pwr' ham' plem' brd' fw' hfe' rlk' rma' red' cip' col' lay' med' stk' hdl' dmv' mch' wvr' thm' saf' evr' regs' nv'} (h : Keeps s0 x) (h2 : ham'.mem = x.ham.mem)
    (h3 : nv'.chain = x.nv.chain) (h4 : x.nv.bootCounter ≤ nv'.bootCounter) (h5 : x.nv.epoch ≤ nv'.epoch)
    (h6 : x.saf.failSilent = true → saf'.failSilent = true) (h7 : x.aon.trip = true → aon'.trip = true)
    (h8 : x.aon.cause.valid = true → aon'.cause.valid = true) (h9 : nv'.fuses = x.nv.fuses)
    (h10 : x.brd.udsOpen = false → brd'.udsOpen = false) (h11 : x.boot.pwrfailLatched = true → boot'.pwrfailLatched = true)
    (h12 : x.pins.faultN = true → pins'.faultN = true) :
    Keeps s0 ⟨x.pending, out', now', free', pins', aon', boot', pwr', ham', plem', brd', fw', hfe', rlk', rma', red', cip', col', lay', med', stk', hdl', dmv', mch', wvr', thm', saf', evr', regs', nv'⟩ :=
  ⟨h.pending, fun w => by show Memory.wf ham'.mem = true; rw [h2]; exact h.mem w, by show _ <+: nv'.chain; rw [h3]; exact h.chain,
   fun w => by show chainLinked nv'.chain; rw [h3]; exact h.linked w, Nat.le_trans h.counter h4,
   Nat.le_trans h.epoch h5, fun w => h6 (h.silent w), fun w => h7 (h.trip w), fun w => h8 (h.cause w),
   by show nv'.fuses.dieSerial = _; rw [h9]; exact h.serial, by show nv'.fuses.uds = _; rw [h9]; exact h.uds,
   fun w => by show nv'.fuses.ownerRoot = _; rw [h9]; exact h.owner w,
   fun k => by show _ ≤ (nv'.fuses.floors[k]?).getD 0; rw [h9]; exact h.floors k,
   fun w => h10 (h.udsShut w), fun w => h11 (h.latch w), fun w => h12 (h.fault w)⟩
theorem Keeps.writeMem {s0 s : State} (h : Keeps s0 s) (a : Nat) (bs : List Byte) :
    Keeps s0 { s with ham.mem := memWrite s.ham.mem a bs } :=
  ⟨h.pending, fun w => memWrite_wf a bs (h.mem w), h.chain, h.linked, h.counter, h.epoch, h.silent, h.trip, h.cause, h.serial, h.uds, h.owner, h.floors, h.udsShut, h.latch, h.fault⟩
theorem Keeps.getD {s0 s : State} {o : Option State} (h : Keeps s0 s) (ho : ∀ t, o = some t → Keeps s0 t) : Keeps s0 (o.getD s) := by
  cases o with
  | none => exact h
  | some t => exact ho t rfl
theorem Keeps.foldl {α : Type} {s0 : State} {f : State → α → State} {s : State} (l : List α)
    (hf : ∀ s a, Keeps s0 s → Keeps s0 (f s a)) (h : Keeps s0 s) : Keeps s0 (l.foldl f s) := by
  induction l generalizing s with
  | nil => exact h
  | cons a t ih => exact ih (hf s a h)
theorem Keeps.foldr {α : Type} {s0 : State} {f : α → State → State} {s : State} (l : List α)
    (hf : ∀ a s, Keeps s0 s → Keeps s0 (f a s)) (h : Keeps s0 s) : Keeps s0 (l.foldr f s) := by
  induction l with
  | nil => exact h
  | cons a t ih => exact hf a _ ih

/-! ### Pids -/

theorem setPid_keeps {s0 s : State} (p : Nat) (v : Nat) (hk : Keeps s0 s) : Keeps s0 (setPid p v s) := by
  unfold setPid
  repeat' first
    | (with_reducible refine Keeps.lit hk ?_ ?_ ?_ ?_ ?_ ?_ ?_ ?_ ?_ ?_ ?_ <;> rfl)
theorem setPidBlock_keeps {s0 s : State} (p : Nat) (v : List Byte) (hk : Keeps s0 s) : Keeps s0 (setPidBlock p v s) := by
  unfold setPidBlock
  repeat' first
    | (with_reducible refine Keeps.lit hk ?_ ?_ ?_ ?_ ?_ ?_ ?_ ?_ ?_ ?_ ?_ <;> rfl)

/-! ### Link -/

theorem emit_keeps {s0 s : State} (o : Out) (hk : Keeps s0 s) : Keeps s0 (emit o s) := by
  unfold emit
  repeat' first
    | (with_reducible refine Keeps.lit hk ?_ ?_ ?_ ?_ ?_ ?_ ?_ ?_ ?_ ?_ ?_ <;> rfl)
theorem sendMctp_keeps {s0 s : State} (o : Out) (hk : Keeps s0 s) : Keeps s0 (sendMctp o s) := by
  unfold sendMctp
  repeat' first
    | with_reducible assumption
    | with_reducible apply emit_keeps
    | with_reducible refine Keeps.ite (fun _ => ?_) (fun _ => ?_)
theorem countFrames_keeps {s0 s : State} (n : Nat) (hk : Keeps s0 s) : Keeps s0 (countFrames n s) := by
  unfold countFrames
  repeat' first
    | with_reducible refine Keeps.ite (fun _ => ?_) (fun _ => ?_)
    | (with_reducible refine Keeps.lit hk ?_ ?_ ?_ ?_ ?_ ?_ ?_ ?_ ?_ ?_ ?_ <;> rfl)

/-! ### Ops -/

theorem refStep_keeps {s0 s : State}  (hk : Keeps s0 s) : Keeps s0 (refStep s) := by
  unfold refStep
  repeat' first
    | (with_reducible refine Keeps.lit hk ?_ ?_ ?_ ?_ ?_ ?_ ?_ ?_ ?_ ?_ ?_ <;> rfl)
theorem drewFree_keeps {s0 s : State}  (hk : Keeps s0 s) : Keeps s0 (drewFree s) := by
  unfold drewFree
  repeat' first
    | (with_reducible refine Keeps.lit hk ?_ ?_ ?_ ?_ ?_ ?_ ?_ ?_ ?_ ?_ ?_ <;> rfl)
theorem countFigures_keeps {s0 s : State} (code : Nat) (value : Nat) (time : Nat) (hk : Keeps s0 s) : Keeps s0 (countFigures code value time s) := by
  unfold countFigures
  repeat' first
    | (with_reducible refine Keeps.lit hk ?_ ?_ ?_ ?_ ?_ ?_ ?_ ?_ ?_ ?_ ?_ <;> rfl)
theorem evrRecord_keeps {s0 s : State} (r : EvrRec) (hk : Keeps s0 s) : Keeps s0 (evrRecord r s) := by
  unfold evrRecord
  repeat' first
    | with_reducible apply countFigures_keeps
    | with_reducible refine Keeps.ite (fun _ => ?_) (fun _ => ?_)
    | (with_reducible refine Keeps.lit hk ?_ ?_ ?_ ?_ ?_ ?_ ?_ ?_ ?_ ?_ ?_ <;> rfl)
    | (dsimp only)
theorem evrExtreme_keeps {s0 s : State} (code : Nat) (r : EvrRec) (hk : Keeps s0 s) : Keeps s0 (evrExtreme code r s) := by
  unfold evrExtreme
  repeat' first
    | with_reducible apply evrRecord_keeps
    | with_reducible refine Keeps.ite (fun _ => ?_) (fun _ => ?_)
    | (with_reducible refine Keeps.lit hk ?_ ?_ ?_ ?_ ?_ ?_ ?_ ?_ ?_ ?_ ?_ <;> rfl)
theorem takeNotice_keeps {s0 s : State} (code : Nat) (value : Nat) (time : Nat) (hk : Keeps s0 s) : Keeps s0 (takeNotice code value time s) := by
  unfold takeNotice
  repeat' first
    | with_reducible assumption
    | with_reducible apply countFigures_keeps
    | with_reducible apply evrExtreme_keeps
    | (dsimp only)
    | split
theorem countEvent_keeps {s0 s : State} (code : Nat) (value : Nat) (hk : Keeps s0 s) : Keeps s0 (countEvent code value s) := by
  unfold countEvent
  repeat' first
    | with_reducible assumption
    | with_reducible apply takeNotice_keeps
    | with_reducible refine Keeps.foldl _ (fun s a h => ?_) ?_
    | (with_reducible refine Keeps.lit hk ?_ ?_ ?_ ?_ ?_ ?_ ?_ ?_ ?_ ?_ ?_ <;> rfl)
    | (with_reducible refine Keeps.lit (Keeps.ite (fun _ => ?_) (fun _ => ?_)) ?_ ?_ ?_ ?_ ?_ ?_ ?_ ?_ ?_ ?_ ?_ <;> try rfl)
theorem evrFlush_keeps {s0 s : State}  (hk : Keeps s0 s) : Keeps s0 (evrFlush s) := by
  unfold evrFlush
  repeat' first
    | with_reducible assumption
    | with_reducible apply evrRecord_keeps
    | with_reducible refine Keeps.foldl _ (fun s a h => ?_) ?_
    | with_reducible refine Keeps.ite (fun _ => ?_) (fun _ => ?_)
    | (with_reducible refine Keeps.lit hk ?_ ?_ ?_ ?_ ?_ ?_ ?_ ?_ ?_ ?_ ?_ <;> rfl)
theorem countIf_keeps {s0 s : State} (c : Bool) (code : Nat) (hk : Keeps s0 s) : Keeps s0 (countIf c code s) := by
  unfold countIf
  repeat' first
    | with_reducible assumption
    | with_reducible apply countEvent_keeps
    | with_reducible refine Keeps.ite (fun _ => ?_) (fun _ => ?_)
theorem updConn_keeps {s0 s : State} (n : Nat) (f : Conn → Conn) (hk : Keeps s0 s) : Keeps s0 (updConn n f s) := by
  unfold updConn
  repeat' first
    | (with_reducible refine Keeps.lit hk ?_ ?_ ?_ ?_ ?_ ?_ ?_ ?_ ?_ ?_ ?_ <;> rfl)
theorem errorConn_keeps {s0 s : State} (n : Nat) (hk : Keeps s0 s) : Keeps s0 (errorConn n s) := by
  unfold errorConn
  repeat' first
    | with_reducible assumption
    | with_reducible apply updConn_keeps
theorem sealPacket_keeps {s0 s : State} (n : Nat) (path : Nat) (next : Nat) (inner : List Byte) (plain : Out) (hk : Keeps s0 s) : Keeps s0 (sealPacket n path next inner plain s) := by
  unfold sealPacket
  repeat' first
    | with_reducible assumption
    | with_reducible apply emit_keeps
    | with_reducible apply countIf_keeps
    | with_reducible apply updConn_keeps
    | with_reducible apply errorConn_keeps
    | with_reducible refine Keeps.ite (fun _ => ?_) (fun _ => ?_)
    | (dsimp only)
    | split
theorem txPacket_keeps {s0 s : State} (n : Nat) (kind : Nat) (psn : Nat) (bytes : List Byte) (hk : Keeps s0 s) : Keeps s0 (txPacket n kind psn bytes s) := by
  unfold txPacket
  repeat' first
    | with_reducible assumption
    | with_reducible apply updConn_keeps
    | with_reducible apply sealPacket_keeps
    | (dsimp only)
    | split
theorem cmSend_keeps {s0 s : State} (n : Nat) (kind : Nat) (reason : Nat) (hk : Keeps s0 s) : Keeps s0 (cmSend n kind reason s) := by
  unfold cmSend
  repeat' first
    | with_reducible assumption
    | with_reducible apply sealPacket_keeps
theorem tcpSend_keeps {s0 s : State} (n : Nat) (kind : Nat) (hk : Keeps s0 s) : Keeps s0 (tcpSend n kind s) := by
  unfold tcpSend
  repeat' first
    | with_reducible assumption
    | with_reducible apply sealPacket_keeps
theorem sendParts_keeps {s0 s : State} (n : Nat) (kind : Nat) (bytes : List Byte) (c : Conn) (hk : Keeps s0 s) : Keeps s0 (sendParts n kind bytes c s) := by
  unfold sendParts
  repeat' first
    | with_reducible assumption
    | with_reducible apply updConn_keeps
    | with_reducible apply txPacket_keeps
    | with_reducible refine Keeps.foldl _ (fun s a h => ?_) ?_
theorem pumpConn_keeps {s0 s : State}  (a0 a1 : Nat) (hk : Keeps s0 s) : Keeps s0 (pumpConn  a0 a1 s) := by
  induction a0 generalizing s with
  | zero => unfold pumpConn; exact hk
  | succ k ih =>
    unfold pumpConn
    repeat' first
      | with_reducible assumption
      | with_reducible apply ih
      | with_reducible apply updConn_keeps
      | with_reducible apply sendParts_keeps
      | with_reducible refine Keeps.ite (fun _ => ?_) (fun _ => ?_)
      | (dsimp only)
      | split
theorem sendMessage_keeps {s0 s : State} (n : Nat) (kind : Nat) (bytes : List Byte) (hk : Keeps s0 s) : Keeps s0 (sendMessage n kind bytes s) := by
  unfold sendMessage
  repeat' first
    | with_reducible assumption
    | with_reducible apply updConn_keeps
    | with_reducible apply pumpConn_keeps
theorem overConn_keeps {s0 s : State} (frames : List (List Byte)) (hk : Keeps s0 s) : Keeps s0 (overConn frames s) := by
  unfold overConn
  repeat' first
    | with_reducible assumption
    | with_reducible apply sendMessage_keeps
    | with_reducible refine Keeps.foldl _ (fun s a h => ?_) ?_
    | split
theorem sendPeer_keeps {s0 s : State} (code : Nat) (args : List Nat) (bytes : List Byte) (dataLen : Nat) (hk : Keeps s0 s) : Keeps s0 (sendPeer code args bytes dataLen s) := by
  unfold sendPeer
  repeat' first
    | with_reducible assumption
    | with_reducible apply emit_keeps
    | with_reducible apply countFrames_keeps
    | with_reducible apply overConn_keeps
    | with_reducible refine Keeps.ite (fun _ => ?_) (fun _ => ?_)
theorem respondPeer_keeps {s0 s : State} (tag : Nat) (status : Nat) (detail : Nat) (value : Nat) (bytes : List Byte) (hk : Keeps s0 s) : Keeps s0 (respondPeer tag status detail value bytes s) := by
  unfold respondPeer
  repeat' first
    | with_reducible assumption
    | with_reducible apply emit_keeps
    | with_reducible apply countFrames_keeps
    | with_reducible apply overConn_keeps
    | with_reducible refine Keeps.ite (fun _ => ?_) (fun _ => ?_)
theorem appendEntry_keeps {s0 s : State} (e : AuditEntry) (hk : Keeps s0 s) : Keeps s0 (appendEntry e s) := by
  have h : Keeps s0 { s with nv.chain := s.nv.chain ++ [{ e with prevHash := lastHash s }] } :=
    ⟨hk.pending, hk.mem, hk.chain.trans (List.prefix_append _ _),
      fun w => chainLinked_append (hk.linked w) (by
        unfold lastHash
        rcases List.eq_nil_or_concat s.nv.chain with hn | ⟨l, d, hn⟩
        · simp [hn]
        · simp [hn, List.concat_eq_append]),
      hk.counter, hk.epoch, hk.silent, hk.trip, hk.cause, hk.serial, hk.uds, hk.owner, hk.floors, hk.udsShut, hk.latch, hk.fault⟩
  unfold appendEntry
  dsimp only
  split
  · apply countEvent_keeps
    exact h.upd rfl rfl rfl rfl rfl rfl rfl rfl rfl rfl rfl rfl
  · exact h
theorem borderEvent_keeps {s0 s : State} (code : Nat) (param : List Byte) (hk : Keeps s0 s) : Keeps s0 (borderEvent code param s) := by
  unfold borderEvent
  repeat' first
    | with_reducible apply appendEntry_keeps
    | with_reducible refine Keeps.ite (fun _ => ?_) (fun _ => ?_)
    | (with_reducible refine Keeps.lit hk ?_ ?_ ?_ ?_ ?_ ?_ ?_ ?_ ?_ ?_ ?_ <;> rfl)
theorem updRing_keeps {s0 s : State} (n : Nat) (f : Ring → Ring) (hk : Keeps s0 s) : Keeps s0 (updRing n f s) := by
  unfold updRing
  repeat' first
    | (with_reducible refine Keeps.lit hk ?_ ?_ ?_ ?_ ?_ ?_ ?_ ?_ ?_ ?_ ?_ <;> rfl)
theorem placeStatus_keeps {s0 s : State} (n : Nat) (pkt : StatusPkt) (noIrq : Bool) (hk : Keeps s0 s) : Keeps s0 (placeStatus n pkt noIrq s) := by
  unfold placeStatus
  repeat' first
    | with_reducible assumption
    | with_reducible apply emit_keeps
    | with_reducible apply sendMctp_keeps
    | with_reducible apply updRing_keeps
    | with_reducible refine Keeps.ite (fun _ => ?_) (fun _ => ?_)
theorem postStatus_keeps {s0 s : State} (n : Nat) (pkt : StatusPkt) (noIrq : Bool) (hk : Keeps s0 s) : Keeps s0 (postStatus n pkt noIrq s) := by
  unfold postStatus
  repeat' first
    | with_reducible assumption
    | with_reducible apply updRing_keeps
    | with_reducible apply placeStatus_keeps
    | with_reducible refine Keeps.ite (fun _ => ?_) (fun _ => ?_)
theorem dropCmd_keeps {s0 s : State} (c : Cmd) (hk : Keeps s0 s) : Keeps s0 (dropCmd c s) := by
  unfold dropCmd
  repeat' first
    | (with_reducible refine Keeps.lit hk ?_ ?_ ?_ ?_ ?_ ?_ ?_ ?_ ?_ ?_ ?_ <;> rfl)
theorem writeOutput_keeps {s0 s : State} (addr : Nat) (bytes : List Byte) (hk : Keeps s0 s) : Keeps s0 (writeOutput addr bytes s) := by
  unfold writeOutput
  repeat' first
    | with_reducible assumption
    | with_reducible apply emit_keeps
    | with_reducible refine Keeps.ite (fun _ => ?_) (fun _ => ?_)
theorem deliver_keeps {s0 s : State} (c : Cmd) (pkt : StatusPkt) (addr : Nat) (bytes : List Byte) (hk : Keeps s0 s) : Keeps s0 (deliver c pkt addr bytes s) := by
  unfold deliver
  repeat' first
    | with_reducible assumption
    | with_reducible apply respondPeer_keeps
    | with_reducible apply updRing_keeps
    | with_reducible apply postStatus_keeps
    | with_reducible apply dropCmd_keeps
    | with_reducible apply writeOutput_keeps
    | with_reducible refine Keeps.ite (fun _ => ?_) (fun _ => ?_)
    | (dsimp only)
    | split
theorem finishCmd_keeps {s0 s : State} (c : Cmd) (pkt : StatusPkt) (hk : Keeps s0 s) : Keeps s0 (finishCmd c pkt s) := by
  unfold finishCmd
  repeat' first
    | with_reducible assumption
    | with_reducible apply deliver_keeps
theorem dropStaging_keeps {s0 s : State} (session : Nat) (hk : Keeps s0 s) : Keeps s0 (dropStaging session s) := by
  unfold dropStaging
  repeat' first
    | (with_reducible refine Keeps.lit hk ?_ ?_ ?_ ?_ ?_ ?_ ?_ ?_ ?_ ?_ ?_ <;> rfl)
    | split
theorem endSession_keeps {s0 s : State} (n : Nat) (hk : Keeps s0 s) : Keeps s0 (endSession n s) := by
  unfold endSession
  repeat' first
    | with_reducible assumption
    | with_reducible apply dropStaging_keeps
    | (with_reducible refine Keeps.lit (updRing_keeps _ _ ?_) ?_ ?_ ?_ ?_ ?_ ?_ ?_ ?_ ?_ ?_ ?_ <;> try rfl)
theorem discardCmds_keeps {s0 s : State} (n : Nat) (hk : Keeps s0 s) : Keeps s0 (discardCmds n s) := by
  unfold discardCmds
  repeat' first
    | (with_reducible refine Keeps.lit hk ?_ ?_ ?_ ?_ ?_ ?_ ?_ ?_ ?_ ?_ ?_ <;> rfl)
theorem latchCause_keeps {s0 s : State} (cls code : Nat) (hk : Keeps s0 s) : Keeps s0 (latchCause cls code s) := by
  unfold latchCause
  dsimp only
  split
  · exact ⟨hk.pending, hk.mem, hk.chain, hk.linked, hk.counter, hk.epoch, hk.silent, hk.trip, fun _ => rfl, hk.serial, hk.uds, hk.owner, hk.floors, hk.udsShut, hk.latch, hk.fault⟩
  · split
    · exact ⟨hk.pending, hk.mem, hk.chain, hk.linked, hk.counter, hk.epoch, hk.silent, hk.trip, fun _ => rfl, hk.serial, hk.uds, hk.owner, hk.floors, hk.udsShut, hk.latch, hk.fault⟩
    · exact hk.upd rfl rfl rfl rfl rfl rfl rfl rfl rfl rfl rfl rfl
theorem idleLinks_keeps {s0 s : State}  (hk : Keeps s0 s) : Keeps s0 (idleLinks s) := by
  unfold idleLinks
  repeat' first
    | (with_reducible refine Keeps.lit hk ?_ ?_ ?_ ?_ ?_ ?_ ?_ ?_ ?_ ?_ ?_ <;> rfl)
theorem failSilentReaction_keeps {s0 s : State} (cls : Nat) (hk : Keeps s0 s) : Keeps s0 (failSilentReaction cls s) := by
  have h := endSession_keeps (s0 := s0) 62 (idleLinks_keeps (s0 := s0) hk)
  unfold failSilentReaction
  exact ⟨h.pending, h.mem, h.chain, h.linked, h.counter, h.epoch, fun _ => rfl, h.trip, h.cause, h.serial, h.uds, h.owner, h.floors, h.udsShut, h.latch, fun _ => rfl⟩
theorem failSilent_keeps {s0 s : State} (cls : Nat) (code : Nat) (hk : Keeps s0 s) : Keeps s0 (failSilent cls code s) := by
  unfold failSilent
  repeat' first
    | with_reducible assumption
    | with_reducible apply countEvent_keeps
    | with_reducible apply latchCause_keeps
    | with_reducible apply failSilentReaction_keeps
    | with_reducible refine Keeps.ite (fun _ => ?_) (fun _ => ?_)

/-! ### PlemOps -/

theorem completePlain_keeps {s0 s : State} (c : Cmd) (d : Decision) (addr : Nat) (hk : Keeps s0 s) : Keeps s0 (completePlain c d addr s) := by
  unfold completePlain
  repeat' first
    | with_reducible assumption
    | with_reducible apply deliver_keeps
theorem markTaken_keeps {s0 s : State} (c : Cmd) (hk : Keeps s0 s) : Keeps s0 (markTaken c s) := by
  unfold markTaken
  repeat' first
    | (with_reducible refine Keeps.lit hk ?_ ?_ ?_ ?_ ?_ ?_ ?_ ?_ ?_ ?_ ?_ <;> rfl)
theorem holdCommand_keeps {s0 s : State} (c : Cmd) (d : Decision) (hk : Keeps s0 s) : Keeps s0 (holdCommand c d s) := by
  unfold holdCommand
  repeat' first
    | (with_reducible refine Keeps.lit hk ?_ ?_ ?_ ?_ ?_ ?_ ?_ ?_ ?_ ?_ ?_ <;> rfl)
theorem endTwoPart_keeps {s0 s : State} (c : Cmd) (status : Nat) (detail : Nat) (result : Nat) (output : Bool) (hk : Keeps s0 s) : Keeps s0 (endTwoPart c status detail result output s) := by
  unfold endTwoPart
  repeat' first
    | with_reducible apply appendEntry_keeps
    | with_reducible apply finishCmd_keeps
    | with_reducible refine Keeps.ite (fun _ => ?_) (fun _ => ?_)
    | (with_reducible refine Keeps.lit hk ?_ ?_ ?_ ?_ ?_ ?_ ?_ ?_ ?_ ?_ ?_ <;> rfl)
theorem startLongOp_keeps {s0 s : State} (c : Cmd) (arg : Nat) (hk : Keeps s0 s) : Keeps s0 (startLongOp c arg s) := by
  unfold startLongOp
  repeat' first
    | (with_reducible refine Keeps.lit hk ?_ ?_ ?_ ?_ ?_ ?_ ?_ ?_ ?_ ?_ ?_ <;> rfl)
theorem endLongOpOut_keeps {s0 s : State} (op : Nat) (status : Nat) (detail : Nat) (result : Nat) (addr : Nat) (bytes : List Byte) (hk : Keeps s0 s) : Keeps s0 (endLongOpOut op status detail result addr bytes s) := by
  unfold endLongOpOut
  repeat' first
    | with_reducible apply writeOutput_keeps
    | with_reducible apply endTwoPart_keeps
    | (with_reducible refine Keeps.lit hk ?_ ?_ ?_ ?_ ?_ ?_ ?_ ?_ ?_ ?_ ?_ <;> rfl)
    | split
theorem endLongOp_keeps {s0 s : State} (op : Nat) (status : Nat) (detail : Nat) (result : Nat) (hk : Keeps s0 s) : Keeps s0 (endLongOp op status detail result s) := by
  unfold endLongOp
  repeat' first
    | with_reducible assumption
    | with_reducible apply endLongOpOut_keeps
theorem finishDeferred_keeps {s0 s : State} (op : Nat) (result : Nat) (output : Bool) (hk : Keeps s0 s) : Keeps s0 (finishDeferred op result output s) := by
  unfold finishDeferred
  repeat' first
    | with_reducible assumption
    | with_reducible apply finishCmd_keeps
    | (with_reducible refine Keeps.lit hk ?_ ?_ ?_ ?_ ?_ ?_ ?_ ?_ ?_ ?_ ?_ <;> rfl)
    | (dsimp only)
    | split
theorem finishUid_keeps {s0 s : State} (uid : Nat) (p : Nat × Nat × Nat) (hk : Keeps s0 s) : Keeps s0 (finishUid uid p s) := by
  unfold finishUid
  repeat' first
    | with_reducible apply finishCmd_keeps
    | (with_reducible refine Keeps.lit hk ?_ ?_ ?_ ?_ ?_ ?_ ?_ ?_ ?_ ?_ ?_ <;> rfl)
    | split

/-! ### Border -/

theorem recordMeas_keeps {s0 s : State} (m : Meas) (hk : Keeps s0 s) : Keeps s0 (recordMeas m s) := by
  unfold recordMeas
  repeat' first
    | (with_reducible refine Keeps.lit hk ?_ ?_ ?_ ?_ ?_ ?_ ?_ ?_ ?_ ?_ ?_ <;> rfl)
theorem romLayerEnds_keeps {s0 s : State} (hk : Keeps s0 s) : Keeps s0 (romLayerEnds s) := by
  unfold romLayerEnds
  split
  · exact Keeps.lits hk rfl rfl (Nat.le_refl _) (Nat.le_refl _) id id id rfl (fun _ => rfl) id id
  · exact hk
theorem deriveAlias_keeps {s0 s : State}  (hk : Keeps s0 s) : Keeps s0 (deriveAlias s) := by
  unfold deriveAlias
  repeat' first
    | with_reducible assumption
    | with_reducible refine Keeps.ite (fun _ => ?_) (fun _ => ?_)
    | (with_reducible refine Keeps.lit hk ?_ ?_ ?_ ?_ ?_ ?_ ?_ ?_ ?_ ?_ ?_ <;> rfl)
theorem ringRecord_keeps {s0 s : State} (r : BootRecord) (hk : Keeps s0 s) : Keeps s0 (ringRecord r s) := by
  unfold ringRecord
  repeat' first
    | (with_reducible refine Keeps.lit hk ?_ ?_ ?_ ?_ ?_ ?_ ?_ ?_ ?_ ?_ ?_ <;> rfl)
theorem sealRecord_keeps {s0 s : State}  (hk : Keeps s0 s) : Keeps s0 (sealRecord s) := by
  unfold sealRecord
  repeat' first
    | with_reducible apply ringRecord_keeps
    | (with_reducible refine Keeps.lit hk ?_ ?_ ?_ ?_ ?_ ?_ ?_ ?_ ?_ ?_ ?_ <;> rfl)
    | (with_reducible refine Keeps.lit (Keeps.ite (fun _ => ?_) (fun _ => ?_)) ?_ ?_ ?_ ?_ ?_ ?_ ?_ ?_ ?_ ?_ ?_ <;> try rfl)
theorem releaseEarly_keeps {s0 s : State}  (hk : Keeps s0 s) : Keeps s0 (releaseEarly s) := by
  unfold releaseEarly
  repeat' first
    | with_reducible apply appendEntry_keeps
    | with_reducible refine Keeps.foldl _ (fun s a h => ?_) ?_
    | with_reducible refine Keeps.ite (fun _ => ?_) (fun _ => ?_)
    | (with_reducible refine Keeps.lit hk ?_ ?_ ?_ ?_ ?_ ?_ ?_ ?_ ?_ ?_ ?_ <;> rfl)
    | (with_reducible refine Keeps.lit h ?_ ?_ ?_ ?_ ?_ ?_ ?_ ?_ ?_ ?_ ?_ <;> rfl)
theorem applyAuditDrain_keeps {s0 s : State} (d : Decision) (hk : Keeps s0 s) : Keeps s0 (applyAuditDrain d s) := by
  unfold applyAuditDrain
  repeat' first
    | (with_reducible refine Keeps.lit hk ?_ ?_ ?_ ?_ ?_ ?_ ?_ ?_ ?_ ?_ ?_ <;> rfl)
    | (dsimp only)
    | split
theorem applyBootRecordDrain_keeps {s0 s : State} (d : Decision) (hk : Keeps s0 s) : Keeps s0 (applyBootRecordDrain d s) := by
  unfold applyBootRecordDrain
  repeat' first
    | with_reducible apply sealRecord_keeps
    | (with_reducible refine Keeps.lit hk ?_ ?_ ?_ ?_ ?_ ?_ ?_ ?_ ?_ ?_ ?_ <;> rfl)
    | (with_reducible refine Keeps.lit (ringRecord_keeps _ ?_) ?_ ?_ ?_ ?_ ?_ ?_ ?_ ?_ ?_ ?_ ?_ <;> try rfl)
    | (dsimp only)
    | split
theorem applyOwnerEnroll_keeps {s0 s : State} (d : Decision) (hk : Keeps s0 s) : Keeps s0 (applyOwnerEnroll d s) := by
  unfold applyOwnerEnroll
  split
  · exact hk
  · rename_i hn
    refine ⟨hk.pending, hk.mem, hk.chain, hk.linked, hk.counter, hk.epoch, hk.silent, hk.trip, hk.cause, hk.serial, hk.uds,
      fun w => absurd ?_ hn, hk.floors, hk.udsShut, hk.latch, hk.fault⟩
    have := hk.owner w
    simpa [owned, this] using w
theorem applyConfigSeal_keeps {s0 s : State}  (hk : Keeps s0 s) : Keeps s0 (applyConfigSeal s) := by
  unfold applyConfigSeal
  repeat' first
    | (with_reducible refine Keeps.lit hk ?_ ?_ ?_ ?_ ?_ ?_ ?_ ?_ ?_ ?_ ?_ <;> rfl)
theorem setWall_keeps {s0 s : State} (v : Nat) (ptp : Bool) (hk : Keeps s0 s) : Keeps s0 (setWall v ptp s) := by
  unfold setWall
  repeat' first
    | (with_reducible refine Keeps.lit hk ?_ ?_ ?_ ?_ ?_ ?_ ?_ ?_ ?_ ?_ ?_ <;> rfl)
theorem putSlot_keeps {s0 s : State} (comp : Nat) (slot : Nat) (data : List Byte) (hk : Keeps s0 s) : Keeps s0 (putSlot comp slot data s) := by
  unfold putSlot
  repeat' first
    | (with_reducible refine Keeps.lit hk ?_ ?_ ?_ ?_ ?_ ?_ ?_ ?_ ?_ ?_ ?_ <;> rfl)
theorem writeDir_keeps {s0 s : State}  (hk : Keeps s0 s) : Keeps s0 (writeDir s) := by
  unfold writeDir
  repeat' first
    | (with_reducible refine Keeps.lit hk ?_ ?_ ?_ ?_ ?_ ?_ ?_ ?_ ?_ ?_ ?_ <;> rfl)
theorem raiseFloor_keeps {s0 s : State} (k v : Nat) (hk : Keeps s0 s) : Keeps s0 (raiseFloor k v s) := by
  unfold raiseFloor
  dsimp only
  split
  · exact hk
  · rename_i hv
    refine borderEvent_keeps _ _ ⟨hk.pending, hk.mem, hk.chain, hk.linked, hk.counter, hk.epoch, hk.silent, hk.trip, hk.cause,
      hk.serial, hk.uds, hk.owner, fun j => Nat.le_trans (hk.floors j) ?_, hk.udsShut, hk.latch, hk.fault⟩
    show (s.nv.fuses.floors[j]?).getD 0 ≤ ((updAt k (fun _ => v) s.nv.fuses.floors)[j]?).getD 0
    have hv' : (s.nv.fuses.floors[k]?).getD 0 ≤ v := Nat.le_of_lt (Nat.lt_of_not_le hv)
    exact updAt_floor _ _ _ _ hv'
theorem raiseRequested_keeps {s0 s : State}  (hk : Keeps s0 s) : Keeps s0 (raiseRequested s) := by
  unfold raiseRequested
  repeat' first
    | with_reducible assumption
    | with_reducible apply writeDir_keeps
    | with_reducible apply raiseFloor_keeps
    | with_reducible refine Keeps.foldl _ (fun s a h => ?_) ?_
    | with_reducible refine Keeps.ite (fun _ => ?_) (fun _ => ?_)
    | (with_reducible refine Keeps.lit (Keeps.foldl _ (fun s a h => ?_) ?_) ?_ ?_ ?_ ?_ ?_ ?_ ?_ ?_ ?_ ?_ ?_ <;> try rfl)
    | split
theorem lateMeasurement_keeps {s0 s : State} (m : Meas) (hk : Keeps s0 s) : Keeps s0 (lateMeasurement m s) := by
  unfold lateMeasurement
  repeat' first
    | with_reducible assumption
    | with_reducible apply borderEvent_keeps
    | with_reducible refine Keeps.ite (fun _ => ?_) (fun _ => ?_)

/-! ### LinkOps -/

theorem requestPeer_keeps {s0 s : State} (r : PeerReq) (args : List Nat) (bytes : List Byte) (dataLen : Nat) (hk : Keeps s0 s) : Keeps s0 (requestPeer r args bytes dataLen s) := by
  unfold requestPeer
  repeat' first
    | with_reducible apply sendPeer_keeps
    | split
    | (with_reducible refine Keeps.lit hk ?_ ?_ ?_ ?_ ?_ ?_ ?_ ?_ ?_ ?_ ?_ <;> rfl)
theorem updPort_keeps {s0 s : State} (n : Nat) (f : Port → Port) (hk : Keeps s0 s) : Keeps s0 (updPort n f s) := by
  unfold updPort
  repeat' first
    | (with_reducible refine Keeps.lit hk ?_ ?_ ?_ ?_ ?_ ?_ ?_ ?_ ?_ ?_ ?_ <;> rfl)
theorem pumpPort_keeps {s0 s : State} (n : Nat) (hk : Keeps s0 s) : Keeps s0 (pumpPort n s) := by
  unfold pumpPort
  repeat' first
    | with_reducible assumption
    | with_reducible refine Keeps.ite (fun _ => ?_) (fun _ => ?_)
    | (with_reducible refine Keeps.lit (updPort_keeps _ _ ?_) ?_ ?_ ?_ ?_ ?_ ?_ ?_ ?_ ?_ ?_ ?_ <;> try rfl)
theorem sendReq_keeps {s0 s : State} (n : Nat) (r : Req) (hk : Keeps s0 s) : Keeps s0 (sendReq n r s) := by
  unfold sendReq
  repeat' first
    | with_reducible assumption
    | with_reducible apply updPort_keeps
    | with_reducible apply pumpPort_keeps
    | split
theorem sendQueued_keeps {s0 s : State} (n : Nat) (hk : Keeps s0 s) : Keeps s0 (sendQueued n s) := by
  unfold sendQueued
  repeat' first
    | with_reducible assumption
    | with_reducible apply updPort_keeps
    | with_reducible apply sendReq_keeps
    | with_reducible refine Keeps.foldl _ (fun s a h => ?_) ?_
theorem dropReq_keeps {s0 s : State} (n : Nat) (tag : Nat) (hk : Keeps s0 s) : Keeps s0 (dropReq n tag s) := by
  unfold dropReq
  repeat' first
    | with_reducible assumption
    | with_reducible apply updPort_keeps
    | with_reducible apply sendQueued_keeps

/-! ### CoilOps -/

theorem storeLines_keeps {s0 s : State} (mirror : Bool) (first : Nat) (lines : Nat) (bytes : List Byte) (hk : Keeps s0 s) : Keeps s0 (storeLines mirror first lines bytes s) := by
  unfold storeLines
  repeat' first
    | (with_reducible refine Keeps.lit hk ?_ ?_ ?_ ?_ ?_ ?_ ?_ ?_ ?_ ?_ ?_ <;> rfl)
theorem sendRecord_keeps {s0 s : State} (r : CoilRec) (hk : Keeps s0 s) : Keeps s0 (sendRecord r s) := by
  unfold sendRecord
  repeat' first
    | with_reducible apply sendPeer_keeps
    | (with_reducible refine Keeps.lit hk ?_ ?_ ?_ ?_ ?_ ?_ ?_ ?_ ?_ ?_ ?_ <;> rfl)
theorem acceptRecord_keeps {s0 s : State} (body : CoilBody) (lines : Nat) (hk : Keeps s0 s) : Keeps s0 (acceptRecord body lines s) := by
  unfold acceptRecord
  repeat' first
    | with_reducible apply storeLines_keeps
    | with_reducible apply sendRecord_keeps
    | with_reducible refine Keeps.ite (fun _ => ?_) (fun _ => ?_)
    | (with_reducible refine Keeps.lit hk ?_ ?_ ?_ ?_ ?_ ?_ ?_ ?_ ?_ ?_ ?_ <;> rfl)
theorem placeRecord_keeps {s0 s : State} (body : CoilBody) (hk : Keeps s0 s) : Keeps s0 (placeRecord body s) := by
  unfold placeRecord
  repeat' first
    | with_reducible assumption
    | with_reducible apply acceptRecord_keeps
    | (with_reducible refine Keeps.lit (Keeps.ite (fun _ => ?_) (fun _ => ?_)) ?_ ?_ ?_ ?_ ?_ ?_ ?_ ?_ ?_ ?_ ?_ <;> try rfl)
theorem appendRecord_keeps {s0 s : State} (body : CoilBody) (hk : Keeps s0 s) : Keeps s0 (appendRecord body s) := by
  unfold appendRecord
  repeat' first
    | with_reducible apply countIf_keeps
    | with_reducible apply placeRecord_keeps
    | with_reducible refine Keeps.ite (fun _ => ?_) (fun _ => ?_)
    | (with_reducible refine Keeps.lit hk ?_ ?_ ?_ ?_ ?_ ?_ ?_ ?_ ?_ ?_ ?_ <;> rfl)
theorem applyPolicy_keeps {s0 s : State}  (hk : Keeps s0 s) : Keeps s0 (applyPolicy s) := by
  unfold applyPolicy
  repeat' first
    | with_reducible assumption
    | with_reducible apply countIf_keeps
    | with_reducible refine Keeps.ite (fun _ => ?_) (fun _ => ?_)
    | (with_reducible refine Keeps.lit hk ?_ ?_ ?_ ?_ ?_ ?_ ?_ ?_ ?_ ?_ ?_ <;> rfl)
theorem loseMirror_keeps {s0 s : State}  (hk : Keeps s0 s) : Keeps s0 (loseMirror s) := by
  unfold loseMirror
  repeat' first
    | with_reducible assumption
    | with_reducible apply applyPolicy_keeps
    | with_reducible apply countEvent_keeps
    | with_reducible refine Keeps.ite (fun _ => ?_) (fun _ => ?_)
    | (with_reducible refine Keeps.lit hk ?_ ?_ ?_ ?_ ?_ ?_ ?_ ?_ ?_ ?_ ?_ <;> rfl)
theorem policyChanged_keeps {s0 s : State}  (hk : Keeps s0 s) : Keeps s0 (policyChanged s) := by
  unfold policyChanged
  repeat' first
    | with_reducible assumption
    | with_reducible apply applyPolicy_keeps
    | with_reducible refine Keeps.ite (fun _ => ?_) (fun _ => ?_)
theorem sendMirrorAck_keeps {s0 s : State}  (hk : Keeps s0 s) : Keeps s0 (sendMirrorAck s) := by
  unfold sendMirrorAck
  repeat' first
    | with_reducible assumption
    | with_reducible apply sendPeer_keeps
theorem advanceHead_keeps {s0 s : State}  (hk : Keeps s0 s) : Keeps s0 (advanceHead s) := by
  unfold advanceHead
  repeat' first
    | with_reducible apply sendMirrorAck_keeps
    | with_reducible refine Keeps.ite (fun _ => ?_) (fun _ => ?_)
    | (with_reducible refine Keeps.lit hk ?_ ?_ ?_ ?_ ?_ ?_ ?_ ?_ ?_ ?_ ?_ <;> rfl)
theorem releaseWhere_keeps {s0 s : State} (t : CoilRec → Bool) (hk : Keeps s0 s) : Keeps s0 (releaseWhere t s) := by
  unfold releaseWhere
  repeat' first
    | with_reducible apply advanceHead_keeps
    | (with_reducible refine Keeps.lit hk ?_ ?_ ?_ ?_ ?_ ?_ ?_ ?_ ?_ ?_ ?_ <;> rfl)
theorem wearCoil_keeps {s0 s : State} (lines : Nat) (hk : Keeps s0 s) : Keeps s0 (wearCoil lines s) := by
  unfold wearCoil
  repeat' first
    | with_reducible apply countIf_keeps
    | (with_reducible refine Keeps.lit hk ?_ ?_ ?_ ?_ ?_ ?_ ?_ ?_ ?_ ?_ ?_ <;> rfl)
theorem putHeader_keeps {s0 s : State} (mirror : Bool) (h : JHeader) (hk : Keeps s0 s) : Keeps s0 (putHeader mirror h s) := by
  unfold putHeader
  repeat' first
    | with_reducible assumption
    | with_reducible apply wearCoil_keeps
    | with_reducible refine Keeps.ite (fun _ => ?_) (fun _ => ?_)
    | (with_reducible refine Keeps.lit (storeLines_keeps _ _ _ _ ?_) ?_ ?_ ?_ ?_ ?_ ?_ ?_ ?_ ?_ ?_ ?_ <;> try rfl)
theorem writeHeader2_keeps {s0 s : State}  (hk : Keeps s0 s) : Keeps s0 (writeHeader2 s) := by
  unfold writeHeader2
  repeat' first
    | with_reducible apply putHeader_keeps
    | (with_reducible refine Keeps.lit hk ?_ ?_ ?_ ?_ ?_ ?_ ?_ ?_ ?_ ?_ ?_ <;> rfl)
theorem writeHeader3_keeps {s0 s : State} (t : Nat) (hk : Keeps s0 s) : Keeps s0 (writeHeader3 t s) := by
  unfold writeHeader3
  repeat' first
    | with_reducible assumption
    | with_reducible apply putHeader_keeps
theorem appendOp_keeps {s0 s : State} (arrival : Nat) (vol : Nat) (op : Nat) (nums : List Nat) (bytes : List Byte) (hk : Keeps s0 s) : Keeps s0 (appendOp arrival vol op nums bytes s) := by
  unfold appendOp
  repeat' first
    | with_reducible assumption
    | with_reducible apply appendRecord_keeps

/-! ### MapOps -/

theorem updDomain_keeps {s0 s : State} (n : Nat) (f : Domain → Domain) (hk : Keeps s0 s) : Keeps s0 (updDomain n f s) := by
  unfold updDomain
  repeat' first
    | (with_reducible refine Keeps.lit hk ?_ ?_ ?_ ?_ ?_ ?_ ?_ ?_ ?_ ?_ ?_ <;> rfl)
theorem updVolume_keeps {s0 s : State} (n : Nat) (f : Volume → Volume) (hk : Keeps s0 s) : Keeps s0 (updVolume n f s) := by
  unfold updVolume
  repeat' first
    | (with_reducible refine Keeps.lit hk ?_ ?_ ?_ ?_ ?_ ?_ ?_ ?_ ?_ ?_ ?_ <;> rfl)
theorem updStored_keeps {s0 s : State} (id : Nat) (f : Stored → Stored) (hk : Keeps s0 s) : Keeps s0 (updStored id f s) := by
  unfold updStored
  repeat' first
    | (with_reducible refine Keeps.lit hk ?_ ?_ ?_ ?_ ?_ ?_ ?_ ?_ ?_ ?_ ?_ <;> rfl)
theorem updBundle_keeps {s0 s : State} (domain : Nat) (id : Nat) (f : Bundle → Bundle) (hk : Keeps s0 s) : Keeps s0 (updBundle domain id f s) := by
  unfold updBundle
  repeat' first
    | (with_reducible refine Keeps.lit hk ?_ ?_ ?_ ?_ ?_ ?_ ?_ ?_ ?_ ?_ ?_ <;> rfl)
theorem setMap_keeps {s0 s : State} (snap : Bool) (num : Nat) (l : List MapEntry) (hk : Keeps s0 s) : Keeps s0 (setMap snap num l s) := by
  unfold setMap
  repeat' first
    | (with_reducible refine Keeps.lit hk ?_ ?_ ?_ ?_ ?_ ?_ ?_ ?_ ?_ ?_ ?_ <;> rfl)
theorem freeIfUnused_keeps {s0 s : State} (id : Nat) (hk : Keeps s0 s) : Keeps s0 (freeIfUnused id s) := by
  unfold freeIfUnused
  repeat' first
    | (with_reducible refine Keeps.lit hk ?_ ?_ ?_ ?_ ?_ ?_ ?_ ?_ ?_ ?_ ?_ <;> rfl)
    | split
theorem replaceMap_keeps {s0 s : State} (snap : Bool) (num : Nat) (l : List MapEntry) (hk : Keeps s0 s) : Keeps s0 (replaceMap snap num l s) := by
  unfold replaceMap
  repeat' first
    | with_reducible assumption
    | with_reducible apply setMap_keeps
    | with_reducible apply freeIfUnused_keeps
    | with_reducible refine Keeps.foldl _ (fun s a h => ?_) ?_
theorem applyDelta_keeps {s0 s : State} (vol : Nat) (es : List DeltaEntry) (hk : Keeps s0 s) : Keeps s0 (applyDelta vol es s) := by
  unfold applyDelta
  repeat' first
    | with_reducible assumption
    | with_reducible apply setMap_keeps
    | with_reducible apply freeIfUnused_keeps
    | with_reducible refine Keeps.foldl _ (fun s a h => ?_) ?_

/-! ### CipherOps -/

theorem updSlot_keeps {s0 s : State} (n : Nat) (f : Slot → Slot) (hk : Keeps s0 s) : Keeps s0 (updSlot n f s) := by
  unfold updSlot
  repeat' first
    | (with_reducible refine Keeps.lit hk ?_ ?_ ?_ ?_ ?_ ?_ ?_ ?_ ?_ ?_ ?_ <;> rfl)
theorem putUsage_keeps {s0 s : State} (kcv : List Byte) (sideB : Bool) (bound : Nat) (destroyed : Bool) (hk : Keeps s0 s) : Keeps s0 (putUsage kcv sideB bound destroyed s) := by
  unfold putUsage
  repeat' first
    | (with_reducible refine Keeps.lit hk ?_ ?_ ?_ ?_ ?_ ?_ ?_ ?_ ?_ ?_ ?_ <;> rfl)
theorem keyExhausted_keeps {s0 s : State} (x : Slot) (hk : Keeps s0 s) : Keeps s0 (keyExhausted x s) := by
  unfold keyExhausted
  repeat' first
    | with_reducible apply countEvent_keeps
    | with_reducible apply updDomain_keeps
    | with_reducible refine Keeps.ite (fun _ => ?_) (fun _ => ?_)
    | (with_reducible refine Keeps.lit hk ?_ ?_ ?_ ?_ ?_ ?_ ?_ ?_ ?_ ?_ ?_ <;> rfl)
theorem chargeKey_keeps {s0 s : State} (x : Slot) (n : Nat) (hk : Keeps s0 s) : Keeps s0 (chargeKey x n s) := by
  unfold chargeKey
  repeat' first
    | with_reducible assumption
    | with_reducible apply countIf_keeps
    | with_reducible apply updSlot_keeps
    | with_reducible apply putUsage_keeps
    | split

end Sys2Proof.Machine
end

