-- ==== Sys2Proof/Laws/KeepsOps.lean ====
section
/-! SUPPORT. The shared operations of media, tags, access, remote memory and writes keep what Keeps says. -/

namespace Sys2Proof.Machine

set_option linter.unusedVariables false

/-! ### MediaOps -/

theorem updPack_keeps {s0 s : State} (port : Nat) (identity : Nat) (f : Pack → Pack) (hk : Keeps s0 s) : Keeps s0 (updPack port identity f s) := by
  unfold updPack
  repeat' first
    | (with_reducible refine Keeps.lit hk ?_ ?_ ?_ ?_ ?_ ?_ ?_ ?_ ?_ ?_ ?_ <;> rfl)
theorem updPackNow_keeps {s0 s : State} (port : Nat) (f : Pack → Pack) (hk : Keeps s0 s) : Keeps s0 (updPackNow port f s) := by
  unfold updPackNow
  repeat' first
    | with_reducible assumption
    | with_reducible apply updPack_keeps
    | split
theorem updBand_keeps {s0 s : State} (n : Nat) (f : Band → Band) (hk : Keeps s0 s) : Keeps s0 (updBand n f s) := by
  unfold updBand
  repeat' first
    | (with_reducible refine Keeps.lit hk ?_ ?_ ?_ ?_ ?_ ?_ ?_ ?_ ?_ ?_ ?_ <;> rfl)
theorem updSeg_keeps {s0 s : State} (n : Nat) (f : Segment → Segment) (hk : Keeps s0 s) : Keeps s0 (updSeg n f s) := by
  unfold updSeg
  repeat' first
    | (with_reducible refine Keeps.lit hk ?_ ?_ ?_ ?_ ?_ ?_ ?_ ?_ ?_ ?_ ?_ <;> rfl)
theorem reorderQueue_keeps {s0 s : State}  (hk : Keeps s0 s) : Keeps s0 (reorderQueue s) := by
  unfold reorderQueue
  repeat' first
    | (with_reducible refine Keeps.lit hk ?_ ?_ ?_ ?_ ?_ ?_ ?_ ?_ ?_ ?_ ?_ <;> rfl)
theorem spareCheck_keeps {s0 s : State}  (hk : Keeps s0 s) : Keeps s0 (spareCheck s) := by
  unfold spareCheck
  exact hk.upd rfl rfl rfl rfl rfl rfl rfl rfl rfl rfl rfl rfl
theorem placeBundle_keeps {s0 s : State} (seg : Nat) (pos : Nat) (k : Nat) (hk : Keeps s0 s) : Keeps s0 (placeBundle seg pos k s) := by
  unfold placeBundle
  repeat' first
    | with_reducible apply appendOp_keeps
    | with_reducible apply updBundle_keeps
    | (with_reducible refine Keeps.lit hk ?_ ?_ ?_ ?_ ?_ ?_ ?_ ?_ ?_ ?_ ?_ <;> rfl)
    | split
theorem releaseFlash_keeps {s0 s : State}  (hk : Keeps s0 s) : Keeps s0 (releaseFlash s) := by
  unfold releaseFlash
  repeat' first
    | with_reducible assumption
    | with_reducible apply releaseWhere_keeps
theorem writePage_keeps {s0 s : State} (k : Nat × Nat × Nat) (hk : Keeps s0 s) : Keeps s0 (writePage k s) := by
  unfold writePage
  repeat' first
    | (with_reducible refine Keeps.lit hk ?_ ?_ ?_ ?_ ?_ ?_ ?_ ?_ ?_ ?_ ?_ <;> rfl)
theorem writeChunkPage_keeps {s0 s : State} (id : Nat) (hk : Keeps s0 s) : Keeps s0 (writeChunkPage id s) := by
  unfold writeChunkPage
  repeat' first
    | with_reducible assumption
    | with_reducible apply writePage_keeps
    | split
theorem writeBundlePages_keeps {s0 s : State} (k : Nat) (hk : Keeps s0 s) : Keeps s0 (writeBundlePages k s) := by
  unfold writeBundlePages
  repeat' first
    | with_reducible assumption
    | with_reducible apply writeChunkPage_keeps
    | with_reducible refine Keeps.foldl _ (fun s a h => ?_) ?_
    | split
theorem writeDeltaPages_keeps {s0 s : State} (vol : Nat) (es : List DeltaEntry) (hk : Keeps s0 s) : Keeps s0 (writeDeltaPages vol es s) := by
  unfold writeDeltaPages
  repeat' first
    | with_reducible assumption
    | with_reducible apply writePage_keeps
    | with_reducible apply writeChunkPage_keeps
    | with_reducible refine Keeps.foldl _ (fun s a h => ?_) ?_
    | with_reducible refine Keeps.ite (fun _ => ?_) (fun _ => ?_)
theorem releaseDeltas_keeps {s0 s : State}  (hk : Keeps s0 s) : Keeps s0 (releaseDeltas s) := by
  unfold releaseDeltas
  repeat' first
    | with_reducible assumption
    | with_reducible apply releaseWhere_keeps
    | with_reducible apply writeDeltaPages_keeps
    | with_reducible refine Keeps.foldl _ (fun s a h => ?_) ?_
    | with_reducible refine Keeps.ite (fun _ => ?_) (fun _ => ?_)
    | split
theorem voidPos_keeps {s0 s : State} (seg : Nat) (i : Nat) (hk : Keeps s0 s) : Keeps s0 (voidPos seg i s) := by
  unfold voidPos
  repeat' first
    | with_reducible assumption
    | with_reducible apply updBundle_keeps
    | with_reducible apply updSeg_keeps
    | with_reducible refine Keeps.foldl _ (fun s a h => ?_) ?_
    | split
theorem voidStrip_keeps {s0 s : State} (seg : Nat) (i : Nat) (hk : Keeps s0 s) : Keeps s0 (voidStrip seg i s) := by
  unfold voidStrip
  exact countEvent_keeps _ _ (voidPos_keeps _ _ (hk.upd rfl rfl rfl rfl rfl rfl rfl rfl rfl rfl rfl rfl))
theorem sealComplete_keeps {s0 s : State} (seg : Nat) (hk : Keeps s0 s) : Keeps s0 (sealComplete seg s) := by
  unfold sealComplete
  repeat' first
    | with_reducible assumption
    | with_reducible apply appendRecord_keeps
    | split
theorem sealBand_keeps {s0 s : State} (band : Nat) (hk : Keeps s0 s) : Keeps s0 (sealBand band s) := by
  unfold sealBand
  repeat' first
    | with_reducible assumption
    | with_reducible apply appendRecord_keeps
    | with_reducible refine Keeps.ite (fun _ => ?_) (fun _ => ?_)
    | split
theorem closeBand_keeps {s0 s : State} (band : Nat) (hk : Keeps s0 s) : Keeps s0 (closeBand band s) := by
  unfold closeBand
  repeat' first
    | with_reducible assumption
    | with_reducible apply updBand_keeps
    | with_reducible apply sealBand_keeps
theorem strikeUnreadable_keeps {s0 s : State} (seg : Nat) (i : Nat) (hk : Keeps s0 s) : Keeps s0 (strikeUnreadable seg i s) := by
  unfold strikeUnreadable
  repeat' first
    | with_reducible apply countEvent_keeps
    | with_reducible apply updSeg_keeps
    | (with_reducible refine Keeps.lit hk ?_ ?_ ?_ ?_ ?_ ?_ ?_ ?_ ?_ ?_ ?_ <;> rfl)
    | split
theorem setReads_keeps {s0 s : State} (port : Nat) (block : Nat) (n : Nat) (hk : Keeps s0 s) : Keeps s0 (setReads port block n s) := by
  unfold setReads
  repeat' first
    | (with_reducible refine Keeps.lit hk ?_ ?_ ?_ ?_ ?_ ?_ ?_ ?_ ?_ ?_ ?_ <;> rfl)
theorem readStrip_keeps {s0 s : State} (seg : Nat) (i : Nat) (why : Nat) (aux : Nat) (hk : Keeps s0 s) : Keeps s0 (readStrip seg i why aux s) := by
  unfold readStrip
  repeat' first
    | with_reducible assumption
    | with_reducible apply requestPeer_keeps
    | with_reducible apply sendReq_keeps
    | with_reducible apply setReads_keeps
    | with_reducible refine Keeps.ite (fun _ => ?_) (fun _ => ?_)
theorem readExtent_keeps {s0 s : State} (seg : Nat) (i : Nat) (why : Nat) (aux : Nat) (hk : Keeps s0 s) : Keeps s0 (readExtent seg i why aux s) := by
  unfold readExtent
  repeat' first
    | with_reducible assumption
    | with_reducible apply readStrip_keeps
    | with_reducible refine Keeps.foldl _ (fun s a h => ?_) ?_
    | split
theorem intentDurable_keeps {s0 s : State} (seg : Nat) (pos : Nat) (state : Nat) (pack : Nat) (buffer : Nat) (hk : Keeps s0 s) : Keeps s0 (intentDurable seg pos state pack buffer s) := by
  unfold intentDurable
  repeat' first
    | with_reducible apply voidStrip_keeps
    | with_reducible assumption
    | with_reducible apply countEvent_keeps
    | with_reducible apply sendReq_keeps
    | with_reducible apply placeBundle_keeps
    | with_reducible apply releaseFlash_keeps
    | with_reducible apply sealComplete_keeps
    | with_reducible apply sealBand_keeps
    | with_reducible refine Keeps.foldl _ (fun s a h => ?_) ?_
    | (with_reducible refine Keeps.lit (updSeg_keeps _ _ ?_) ?_ ?_ ?_ ?_ ?_ ?_ ?_ ?_ ?_ ?_ ?_ <;> try rfl)
    | (dsimp only)
    | split
theorem leaveQueue_keeps {s0 s : State} (band : Nat) (hk : Keeps s0 s) : Keeps s0 (leaveQueue band s) := by
  unfold leaveQueue
  exact spareCheck_keeps (hk.upd rfl rfl rfl rfl rfl rfl rfl rfl rfl rfl rfl rfl)
theorem bandDurable_keeps {s0 s : State} (band : Nat) (state : Nat) (row : Nat) (gen : Nat) (batch : Nat) (hk : Keeps s0 s) : Keeps s0 (bandDurable band state row gen batch s) := by
  unfold bandDurable
  repeat' first
    | with_reducible apply updBand_keeps
    | (with_reducible refine Keeps.lit hk ?_ ?_ ?_ ?_ ?_ ?_ ?_ ?_ ?_ ?_ ?_ <;> rfl)
    | (with_reducible refine Keeps.lit (leaveQueue_keeps _ ?_) ?_ ?_ ?_ ?_ ?_ ?_ ?_ ?_ ?_ ?_ ?_ <;> try rfl)
    | (dsimp only)
    | split
theorem sealSegment_keeps {s0 s : State} (early : Bool) (x : Segment) (hk : Keeps s0 s) : Keeps s0 (sealSegment early x s) := by
  unfold sealSegment
  repeat' first
    | with_reducible assumption
    | with_reducible apply appendRecord_keeps
    | with_reducible apply updSeg_keeps
    | split
theorem sealEarlyWhere_keeps {s0 s : State} (t : Segment → Bool) (hk : Keeps s0 s) : Keeps s0 (sealEarlyWhere t s) := by
  unfold sealEarlyWhere
  repeat' first
    | with_reducible assumption
    | with_reducible apply sealSegment_keeps
    | with_reducible refine Keeps.foldl _ (fun s a h => ?_) ?_

/-! ### TagOps -/

theorem updTag_keeps {s0 s : State} (i : Nat) (f : Tag → Tag) (hk : Keeps s0 s) : Keeps s0 (updTag i f s) := by
  unfold updTag
  repeat' first
    | (with_reducible refine Keeps.lit hk ?_ ?_ ?_ ?_ ?_ ?_ ?_ ?_ ?_ ?_ ?_ <;> rfl)
theorem addLock_keeps {s0 s : State} (l : Lock) (hk : Keeps s0 s) : Keeps s0 (addLock l s) := by
  unfold addLock
  repeat' first
    | (with_reducible refine Keeps.lit hk ?_ ?_ ?_ ?_ ?_ ?_ ?_ ?_ ?_ ?_ ?_ <;> rfl)
theorem releaseLock_keeps {s0 s : State} (h : Holder) (hk : Keeps s0 s) : Keeps s0 (releaseLock h s) := by
  unfold releaseLock
  repeat' first
    | (with_reducible refine Keeps.lit hk ?_ ?_ ?_ ?_ ?_ ?_ ?_ ?_ ?_ ?_ ?_ <;> rfl)
theorem takeArrival_keeps {s0 s : State}  (hk : Keeps s0 s) : Keeps s0 (takeArrival s) := by
  unfold takeArrival
  repeat' first
    | (with_reducible refine Keeps.lit hk ?_ ?_ ?_ ?_ ?_ ?_ ?_ ?_ ?_ ?_ ?_ <;> rfl)
theorem numberVolumes_keeps {s0 s : State} (vols : List Nat) (hk : Keeps s0 s) : Keeps s0 (numberVolumes vols s) := by
  unfold numberVolumes
  repeat' first
    | with_reducible assumption
    | (with_reducible refine Keeps.lit (takeArrival_keeps ?_) ?_ ?_ ?_ ?_ ?_ ?_ ?_ ?_ ?_ ?_ ?_ <;> try rfl)
theorem writeHost_keeps {s0 s : State} (t : Tag) (data : List Block) (hk : Keeps s0 s) : Keeps s0 (writeHost t data s) := by
  unfold writeHost
  repeat' first
    | with_reducible assumption
    | with_reducible apply sendMessage_keeps
    | with_reducible refine Keeps.ite (fun _ => ?_) (fun _ => ?_)
    | (dsimp only)
    | split
theorem postCompletion_keeps {s0 s : State} (t : Tag) (st : NvmeStatus) (data : List Block) (hk : Keeps s0 s) : Keeps s0 (postCompletion t st data s) := by
  unfold postCompletion
  repeat' first
    | with_reducible assumption
    | with_reducible apply emit_keeps
    | with_reducible apply respondPeer_keeps
    | with_reducible apply writeHost_keeps
    | with_reducible refine Keeps.ite (fun _ => ?_) (fun _ => ?_)
    | (dsimp only)
    | split
theorem queueChecks_keeps {s0 s : State}  (hk : Keeps s0 s) : Keeps s0 (queueChecks s) := by
  unfold queueChecks
  repeat' first
    | with_reducible assumption
    | with_reducible apply emit_keeps
    | (with_reducible refine Keeps.lit (Keeps.foldl _ (fun s a h => ?_) ?_) ?_ ?_ ?_ ?_ ?_ ?_ ?_ ?_ ?_ ?_ ?_ <;> try rfl)
theorem freeTagNow_keeps {s0 s : State} (t : Tag) (hk : Keeps s0 s) : Keeps s0 (freeTagNow t s) := by
  unfold freeTagNow
  repeat' first
    | with_reducible apply queueChecks_keeps
    | (with_reducible refine Keeps.lit hk ?_ ?_ ?_ ?_ ?_ ?_ ?_ ?_ ?_ ?_ ?_ <;> rfl)
theorem endTag_keeps {s0 s : State} (i : Nat) (st : NvmeStatus) (data : List Block) (hk : Keeps s0 s) : Keeps s0 (endTag i st data s) := by
  unfold endTag
  repeat' first
    | with_reducible assumption
    | with_reducible apply releaseLock_keeps
    | with_reducible apply postCompletion_keeps
    | with_reducible apply freeTagNow_keeps
    | split
theorem internalAbort_keeps {s0 s : State} (cpl : Option NvmeStatus) (t : Tag) (hk : Keeps s0 s) : Keeps s0 (internalAbort cpl t s) := by
  unfold internalAbort
  repeat' first
    | with_reducible assumption
    | with_reducible apply updTag_keeps
    | with_reducible apply endTag_keeps
    | split
theorem abortTags_keeps {s0 s : State} (cpl : Option NvmeStatus) (f : Tag → Bool) (hk : Keeps s0 s) : Keeps s0 (abortTags cpl f s) := by
  unfold abortTags
  repeat' first
    | with_reducible assumption
    | with_reducible apply internalAbort_keeps
    | with_reducible refine Keeps.foldl _ (fun s a h => ?_) ?_

/-! ### AccessOps -/

theorem updCtrl_keeps {s0 s : State} (id : Nat) (f : Ctrl → Ctrl) (hk : Keeps s0 s) : Keeps s0 (updCtrl id f s) := by
  unfold updCtrl
  repeat' first
    | (with_reducible refine Keeps.lit hk ?_ ?_ ?_ ?_ ?_ ?_ ?_ ?_ ?_ ?_ ?_ <;> rfl)
theorem postAer_keeps {s0 s : State} (id : Nat) (info : Nat) (log : Nat) (hk : Keeps s0 s) : Keeps s0 (postAer id info log s) := by
  unfold postAer
  repeat' first
    | with_reducible assumption
    | with_reducible apply emit_keeps
    | with_reducible apply updCtrl_keeps
    | split
theorem withAccess_keeps {s0 s : State} (f : State → State) (hk : Keeps s0 s) (hf : ∀ s, Keeps s0 s → Keeps s0 (f s)) :
    Keeps s0 (withAccess f s) := by
  have h := hf s hk
  unfold withAccess
  dsimp only
  generalize f s = t at h
  repeat' first
    | with_reducible assumption
    | with_reducible apply postAer_keeps
    | with_reducible apply updCtrl_keeps
    | with_reducible refine Keeps.foldl _ (fun s a h => ?_) ?_
    | with_reducible refine Keeps.ite (fun _ => ?_) (fun _ => ?_)
    | split

/-! ### Operands -/

theorem previewPid_keeps {s0 s : State} (p : Nat) (v : Nat) (hk : Keeps s0 s) : Keeps s0 (previewPid p v s) := by
  unfold previewPid
  repeat' first
    | with_reducible apply setPid_keeps
    | (with_reducible refine Keeps.lit hk ?_ ?_ ?_ ?_ ?_ ?_ ?_ ?_ ?_ ?_ ?_ <;> rfl)
    | split

/-! ### RmaOps -/

theorem sendAck_keeps {s0 s : State} (n : Nat) (hk : Keeps s0 s) : Keeps s0 (sendAck n s) := by
  unfold sendAck
  repeat' first
    | with_reducible assumption
    | with_reducible apply updConn_keeps
    | with_reducible apply txPacket_keeps
    | split
theorem txAeth_keeps {s0 s : State} (n : Nat) (kind : Nat) (psn : Nat) (bytes : List Byte) (hk : Keeps s0 s) : Keeps s0 (txAeth n kind psn bytes s) := by
  unfold txAeth
  repeat' first
    | with_reducible assumption
    | with_reducible apply updConn_keeps
    | with_reducible apply txPacket_keeps
    | (dsimp only)
    | split
theorem noteCe_keeps {s0 s : State} (n : Nat) (hk : Keeps s0 s) : Keeps s0 (noteCe n s) := by
  unfold noteCe
  repeat' first
    | with_reducible assumption
    | with_reducible apply updConn_keeps
    | with_reducible apply txPacket_keeps
    | with_reducible refine Keeps.ite (fun _ => ?_) (fun _ => ?_)
    | split
theorem marked_keeps {s0 s : State} (ce : Bool) (n : Nat) (hk : Keeps s0 s) : Keeps s0 (marked ce n s) := by
  unfold marked
  repeat' first
    | with_reducible assumption
    | with_reducible apply noteCe_keeps
    | with_reducible refine Keeps.ite (fun _ => ?_) (fun _ => ?_)
theorem sendSync_keeps {s0 s : State} (t : Tag) (hk : Keeps s0 s) : Keeps s0 (sendSync t s) := by
  unfold sendSync
  repeat' first
    | with_reducible assumption
    | with_reducible apply sendMessage_keeps
    | split

/-! ### WriteOps -/

theorem setEntry_keeps {s0 s : State} (i : Nat) (k : Nat) (f : DeltaEntry → DeltaEntry) (hk : Keeps s0 s) : Keeps s0 (setEntry i k f s) := by
  unfold setEntry
  repeat' first
    | with_reducible assumption
    | with_reducible apply updTag_keeps
theorem failTag_keeps {s0 s : State} (i : Nat) (st : NvmeStatus) (hk : Keeps s0 s) : Keeps s0 (failTag i st s) := by
  unfold failTag
  repeat' first
    | with_reducible assumption
    | with_reducible apply endLongOp_keeps
    | with_reducible apply endTag_keeps
    | with_reducible refine Keeps.ite (fun _ => ?_) (fun _ => ?_)
    | (with_reducible refine Keeps.lit (releaseLock_keeps _ ?_) ?_ ?_ ?_ ?_ ?_ ?_ ?_ ?_ ?_ ?_ ?_ <;> try rfl)
theorem countForm_keeps {s0 s : State} (form : Nat) (hk : Keeps s0 s) : Keeps s0 (countForm form s) := by
  unfold countForm
  repeat' first
    | with_reducible refine Keeps.ite (fun _ => ?_) (fun _ => ?_)
    | (with_reducible refine Keeps.lit hk ?_ ?_ ?_ ?_ ?_ ?_ ?_ ?_ ?_ ?_ ?_ <;> rfl)
theorem verifyFailed_keeps {s0 s : State}  (hk : Keeps s0 s) : Keeps s0 (verifyFailed s) := by
  unfold verifyFailed
  repeat' first
    | with_reducible apply drewFree_keeps
    | with_reducible apply countEvent_keeps
    | (with_reducible refine Keeps.lit hk ?_ ?_ ?_ ?_ ?_ ?_ ?_ ?_ ?_ ?_ ?_ <;> rfl)
theorem makeBundle_keeps {s0 s : State} (d : Domain) (compression : Nat) (ids : List Nat) (vok : Bool) (hk : Keeps s0 s) : Keeps s0 (makeBundle d compression ids vok s) := by
  unfold makeBundle
  repeat' first
    | with_reducible assumption
    | with_reducible apply appendRecord_keeps
    | with_reducible apply updDomain_keeps
    | with_reducible apply updStored_keeps
    | with_reducible apply keyExhausted_keeps
    | with_reducible apply failTag_keeps
    | with_reducible apply countForm_keeps
    | with_reducible apply verifyFailed_keeps
    | (with_reducible refine Keeps.lit (chargeKey_keeps _ _ ?_) ?_ ?_ ?_ ?_ ?_ ?_ ?_ ?_ ?_ ?_ ?_ <;> try rfl)
    | (with_reducible refine Keeps.lit (Keeps.foldl _ (fun s a h => ?_) ?_) ?_ ?_ ?_ ?_ ?_ ?_ ?_ ?_ ?_ ?_ ?_ <;> try rfl)
    | (dsimp only)
    | split
theorem closeBundle_keeps {s0 s : State} (o : OpenBundle) (vok : Bool) (hk : Keeps s0 s) : Keeps s0 (closeBundle o vok s) := by
  unfold closeBundle
  repeat' first
    | (with_reducible refine Keeps.lit hk ?_ ?_ ?_ ?_ ?_ ?_ ?_ ?_ ?_ ?_ ?_ <;> rfl)
    | (with_reducible refine Keeps.lit (makeBundle_keeps _ _ _ _ ?_) ?_ ?_ ?_ ?_ ?_ ?_ ?_ ?_ ?_ ?_ ?_ <;> try rfl)
    | (dsimp only)
    | split
theorem gather_keeps {s0 s : State} (v : Volume) (id : Nat) (tag : Nat) (vok : Bool) (hk : Keeps s0 s) : Keeps s0 (gather v id tag vok s) := by
  unfold gather
  repeat' first
    | with_reducible apply closeBundle_keeps
    | with_reducible refine Keeps.ite (fun _ => ?_) (fun _ => ?_)
    | (with_reducible refine Keeps.lit hk ?_ ?_ ?_ ?_ ?_ ?_ ?_ ?_ ?_ ?_ ?_ <;> rfl)
theorem storeUnique_keeps {s0 s : State} (v : Volume) (d : Domain) (i : Nat) (k : Nat) (data : List Byte) (vok : Bool) (hk : Keeps s0 s) : Keeps s0 (storeUnique v d i k data vok s) := by
  unfold storeUnique
  repeat' first
    | with_reducible apply countIf_keeps
    | with_reducible apply setEntry_keeps
    | with_reducible apply failTag_keeps
    | with_reducible apply gather_keeps
    | with_reducible refine Keeps.ite (fun _ => ?_) (fun _ => ?_)
    | (with_reducible refine Keeps.lit hk ?_ ?_ ?_ ?_ ?_ ?_ ?_ ?_ ?_ ?_ ?_ <;> rfl)
theorem takeMatch_keeps {s0 s : State} (i : Nat) (k : Nat) (id : Nat) (hk : Keeps s0 s) : Keeps s0 (takeMatch i k id s) := by
  unfold takeMatch
  repeat' first
    | with_reducible assumption
    | with_reducible apply updStored_keeps
    | with_reducible apply setEntry_keeps
theorem countDup_keeps {s0 s : State} (cold : Bool) (hk : Keeps s0 s) : Keeps s0 (countDup cold s) := by
  unfold countDup
  repeat' first
    | with_reducible refine Keeps.ite (fun _ => ?_) (fun _ => ?_)
    | (with_reducible refine Keeps.lit hk ?_ ?_ ?_ ?_ ?_ ?_ ?_ ?_ ?_ ?_ ?_ <;> rfl)
theorem askPeer_keeps {s0 s : State} (i : Nat) (k : Nat) (id : Nat) (x : Stored) (data : List Byte) (cold : Bool) (hk : Keeps s0 s) : Keeps s0 (askPeer i k id x data cold s) := by
  unfold askPeer
  repeat' first
    | with_reducible assumption
    | with_reducible apply requestPeer_keeps
theorem useCandidate_keeps {s0 s : State} (v : Volume) (d : Domain) (i : Nat) (k : Nat) (id : Nat) (data : List Byte) (cold : Bool) (vok : Bool) (hk : Keeps s0 s) : Keeps s0 (useCandidate v d i k id data cold vok s) := by
  unfold useCandidate
  repeat' first
    | with_reducible apply countEvent_keeps
    | with_reducible apply setEntry_keeps
    | with_reducible apply storeUnique_keeps
    | with_reducible apply takeMatch_keeps
    | with_reducible apply countDup_keeps
    | with_reducible apply askPeer_keeps
    | split
    | with_reducible refine Keeps.ite (fun _ => ?_) (fun _ => ?_)
    | (with_reducible refine Keeps.lit hk ?_ ?_ ?_ ?_ ?_ ?_ ?_ ?_ ?_ ?_ ?_ <;> rfl)
theorem reduceChunk_keeps {s0 s : State} (v : Volume) (d : Domain) (i : Nat) (vok : Bool) (c : NewChunk) (hk : Keeps s0 s) : Keeps s0 (reduceChunk v d i vok s c) := by
  unfold reduceChunk
  repeat' first
    | with_reducible apply countEvent_keeps
    | with_reducible apply setEntry_keeps
    | with_reducible apply storeUnique_keeps
    | with_reducible apply useCandidate_keeps
    | (with_reducible refine Keeps.lit hk ?_ ?_ ?_ ?_ ?_ ?_ ?_ ?_ ?_ ?_ ?_ <;> rfl)
    | (dsimp only)
    | split
theorem logLost_keeps {s0 s : State} (v : Volume) (lba : Nat) (hk : Keeps s0 s) : Keeps s0 (logLost v lba s) := by
  unfold logLost
  repeat' first
    | (with_reducible refine Keeps.lit hk ?_ ?_ ?_ ?_ ?_ ?_ ?_ ?_ ?_ ?_ ?_ <;> rfl)
theorem readStored_keeps {s0 s : State} (xs : List Stored) (i : Nat) (hk : Keeps s0 s) : Keeps s0 (readStored xs i s) := by
  unfold readStored
  repeat' first
    | with_reducible assumption
    | with_reducible apply readExtent_keeps
    | with_reducible refine Keeps.foldl _ (fun s a h => ?_) ?_
    | (dsimp only)
theorem reduceTag_keeps {s0 s : State} (vok : Bool) (t : Tag) (hk : Keeps s0 s) : Keeps s0 (reduceTag vok t s) := by
  unfold reduceTag
  repeat' first
    | with_reducible assumption
    | with_reducible apply updTag_keeps
    | with_reducible apply failTag_keeps
    | with_reducible apply reduceChunk_keeps
    | with_reducible apply logLost_keeps
    | with_reducible apply readStored_keeps
    | with_reducible refine Keeps.foldl _ (fun s a h => ?_) ?_
    | (dsimp only)
    | split
theorem logTag_keeps {s0 s : State} (t : Tag) (hk : Keeps s0 s) : Keeps s0 (logTag t s) := by
  unfold logTag
  repeat' first
    | with_reducible assumption
    | with_reducible apply appendRecord_keeps
    | with_reducible apply updTag_keeps
    | with_reducible apply sendSync_keeps
    | with_reducible refine Keeps.foldl _ (fun s a h => ?_) ?_
theorem readTag_keeps {s0 s : State} (t : Tag) (hk : Keeps s0 s) : Keeps s0 (readTag t s) := by
  unfold readTag
  repeat' first
    | with_reducible assumption
    | with_reducible apply readStored_keeps
    | split
    | (dsimp only)
theorem askHost_keeps {s0 s : State} (i : Nat) (hk : Keeps s0 s) : Keeps s0 (askHost i s) := by
  unfold askHost
  repeat' first
    | with_reducible assumption
    | with_reducible apply emit_keeps
    | with_reducible apply sendMessage_keeps
    | with_reducible apply updTag_keeps
    | with_reducible refine Keeps.foldl _ (fun s a h => ?_) ?_
    | with_reducible refine Keeps.ite (fun _ => ?_) (fun _ => ?_)
    | (dsimp only)
    | split
theorem grantTag_keeps {s0 s : State} (l : Lock) (i : Nat) (hk : Keeps s0 s) : Keeps s0 (grantTag l i s) := by
  unfold grantTag
  repeat' first
    | with_reducible assumption
    | with_reducible apply updTag_keeps
    | with_reducible apply endTag_keeps
    | with_reducible apply readTag_keeps
    | with_reducible apply askHost_keeps
    | with_reducible refine Keeps.ite (fun _ => ?_) (fun _ => ?_)
    | (with_reducible refine Keeps.lit hk ?_ ?_ ?_ ?_ ?_ ?_ ?_ ?_ ?_ ?_ ?_ <;> rfl)
    | (dsimp only)
    | split
theorem grantLock_keeps {s0 s : State} (l : Lock) (hk : Keeps s0 s) : Keeps s0 (grantLock l s) := by
  unfold grantLock
  repeat' first
    | with_reducible apply grantTag_keeps
    | (with_reducible refine Keeps.lit hk ?_ ?_ ?_ ?_ ?_ ?_ ?_ ?_ ?_ ?_ ?_ <;> rfl)
    | split
theorem settleLoop_keeps {s0 s : State} (vok : Bool) (a0 : Nat) (hk : Keeps s0 s) : Keeps s0 (settleLoop vok a0 s) := by
  induction a0 generalizing s with
  | zero => unfold settleLoop; exact hk
  | succ k ih =>
    unfold settleLoop
    repeat' first
      | with_reducible assumption
      | with_reducible apply ih
      | with_reducible apply reduceTag_keeps
      | with_reducible apply logTag_keeps
      | with_reducible apply grantLock_keeps
      | split
theorem settle_keeps {s0 s : State} (vok : Bool) (hk : Keeps s0 s) : Keeps s0 (settle vok s) := by
  unfold settle
  repeat' first
    | with_reducible assumption
    | with_reducible apply settleLoop_keeps

end Sys2Proof.Machine
end

