-- ==== Sys2Proof/Laws/KeepsEffects.lean ====
section
/-! SUPPORT. The effects of PLEM commands and the commit path keep what Keeps says. -/

namespace Sys2Proof.Machine

set_option linter.unusedVariables false

/-! ### Effects -/

theorem createVolume_keeps {s0 s : State} (vol : Nat) (dom : Nat) (fmt : Nat) (pi : Nat) (flags : Nat) (size : Nat) (hk : Keeps s0 s) : Keeps s0 (createVolume vol dom fmt pi flags size s) := by
  unfold createVolume
  repeat' first
    | (with_reducible refine Keeps.lit hk ?_ ?_ ?_ ?_ ?_ ?_ ?_ ?_ ?_ ?_ ?_ <;> rfl)
theorem deleteSnapshot_keeps {s0 s : State} (id : Nat) (hk : Keeps s0 s) : Keeps s0 (deleteSnapshot id s) := by
  unfold deleteSnapshot
  repeat' first
    | with_reducible assumption
    | (with_reducible refine Keeps.lit (replaceMap_keeps _ _ _ ?_) ?_ ?_ ?_ ?_ ?_ ?_ ?_ ?_ ?_ ?_ ?_ <;> try rfl)
theorem deleteVolume_keeps {s0 s : State} (vol : Nat) (flag : Nat) (hk : Keeps s0 s) : Keeps s0 (deleteVolume vol flag s) := by
  unfold deleteVolume
  repeat' first
    | with_reducible assumption
    | with_reducible apply deleteSnapshot_keeps
    | with_reducible refine Keeps.foldl _ (fun s a h => ?_) ?_
    | with_reducible refine Keeps.ite (fun _ => ?_) (fun _ => ?_)
    | (with_reducible refine Keeps.lit (replaceMap_keeps _ _ _ ?_) ?_ ?_ ?_ ?_ ?_ ?_ ?_ ?_ ?_ ?_ ?_ <;> try rfl)
theorem resizeVolume_keeps {s0 s : State} (vol : Nat) (size : Nat) (hk : Keeps s0 s) : Keeps s0 (resizeVolume vol size s) := by
  unfold resizeVolume
  repeat' first
    | with_reducible assumption
    | with_reducible apply updVolume_keeps
    | with_reducible apply replaceMap_keeps
    | split
theorem setAccess_keeps {s0 s : State} (vol : Nat) (op : Nat) (arg : Nat) (hosts : Nat) (block : List Byte) (hk : Keeps s0 s) : Keeps s0 (setAccess vol op arg hosts block s) := by
  unfold setAccess
  repeat' first
    | with_reducible assumption
    | with_reducible apply updVolume_keeps
    | with_reducible refine Keeps.ite (fun _ => ?_) (fun _ => ?_)
theorem createSnaps_keeps {s0 s : State} (arrival : Nat) (first : Nat) (replication : Bool) (vols : List Nat) (hk : Keeps s0 s) : Keeps s0 (createSnaps arrival first replication vols s) := by
  unfold createSnaps
  repeat' first
    | with_reducible apply setMap_keeps
    | with_reducible refine Keeps.foldl _ (fun s a h => ?_) ?_
    | (with_reducible refine Keeps.lit hk ?_ ?_ ?_ ?_ ?_ ?_ ?_ ?_ ?_ ?_ ?_ <;> rfl)
    | (with_reducible refine Keeps.lit h ?_ ?_ ?_ ?_ ?_ ?_ ?_ ?_ ?_ ?_ ?_ <;> rfl)
theorem cloneVolume_keeps {s0 s : State} (new : Nat) (kind : Nat) (flags : Nat) (source : Nat) (hk : Keeps s0 s) : Keeps s0 (cloneVolume new kind flags source s) := by
  unfold cloneVolume
  repeat' first
    | with_reducible apply setMap_keeps
    | (with_reducible refine Keeps.lit hk ?_ ?_ ?_ ?_ ?_ ?_ ?_ ?_ ?_ ?_ ?_ <;> rfl)
    | (dsimp only)
    | split
theorem slotServes_keeps {s0 s : State} (slot : Nat) (dom : Nat) (on : Bool) (hk : Keeps s0 s) : Keeps s0 (slotServes slot dom on s) := by
  unfold slotServes
  repeat' first
    | with_reducible assumption
    | with_reducible apply updSlot_keeps
theorem releasePrev_keeps {s0 s : State} (dom : Nat) (hk : Keeps s0 s) : Keeps s0 (releasePrev dom s) := by
  unfold releasePrev
  repeat' first
    | with_reducible assumption
    | with_reducible apply updDomain_keeps
    | with_reducible apply slotServes_keeps
    | split
theorem releasePrevs_keeps {s0 s : State}  (hk : Keeps s0 s) : Keeps s0 (releasePrevs s) := by
  unfold releasePrevs
  repeat' first
    | with_reducible assumption
    | with_reducible apply releasePrev_keeps
    | with_reducible refine Keeps.foldl _ (fun s a h => ?_) ?_
theorem makeDomain_keeps {s0 s : State} (dom : Nat) (slot : Nat) (fmt : Nat) (rekey : Nat) (salt : List Byte) (hk : Keeps s0 s) : Keeps s0 (makeDomain dom slot fmt rekey salt s) := by
  unfold makeDomain
  repeat' first
    | with_reducible assumption
    | with_reducible apply updDomain_keeps
    | with_reducible apply releasePrev_keeps
    | (with_reducible refine Keeps.lit (slotServes_keeps _ _ _ ?_) ?_ ?_ ?_ ?_ ?_ ?_ ?_ ?_ ?_ ?_ ?_ <;> try rfl)
    | (dsimp only)
    | split
theorem admitPack_keeps {s0 s : State} (port : Nat) (identity : Nat) (hk : Keeps s0 s) : Keeps s0 (admitPack port identity s) := by
  unfold admitPack
  repeat' first
    | with_reducible apply updPack_keeps
    | (with_reducible refine Keeps.lit hk ?_ ?_ ?_ ?_ ?_ ?_ ?_ ?_ ?_ ?_ ?_ <;> rfl)
    | split
theorem retirePack_keeps {s0 s : State} (port : Nat) (hk : Keeps s0 s) : Keeps s0 (retirePack port s) := by
  unfold retirePack
  repeat' first
    | with_reducible assumption
    | with_reducible apply updPackNow_keeps
    | with_reducible refine Keeps.ite (fun _ => ?_) (fun _ => ?_)
theorem joinMembers_keeps {s0 s : State} (mask : Nat) (hk : Keeps s0 s) : Keeps s0 (joinMembers mask s) := by
  unfold joinMembers
  repeat' first
    | with_reducible assumption
    | with_reducible apply updPackNow_keeps
    | with_reducible refine Keeps.foldl _ (fun s a h => ?_) ?_
theorem startLayout_keeps {s0 s : State} (d : Nat) (p : Nat) (sp : Nat) (r : Nat) (mask : Nat) (hk : Keeps s0 s) : Keeps s0 (startLayout d p sp r mask s) := by
  unfold startLayout
  repeat' first
    | with_reducible refine Keeps.ite (fun _ => ?_) (fun _ => ?_)
    | (with_reducible refine Keeps.lit hk ?_ ?_ ?_ ?_ ?_ ?_ ?_ ?_ ?_ ?_ ?_ <;> rfl)
    | (with_reducible refine Keeps.lit (joinMembers_keeps _ ?_) ?_ ?_ ?_ ?_ ?_ ?_ ?_ ?_ ?_ ?_ ?_ <;> try rfl)
theorem reverseLayout_keeps {s0 s : State} (why : Nat) (hk : Keeps s0 s) : Keeps s0 (reverseLayout why s) := by
  unfold reverseLayout
  repeat' first
    | with_reducible refine Keeps.ite (fun _ => ?_) (fun _ => ?_)
    | (with_reducible refine Keeps.lit hk ?_ ?_ ?_ ?_ ?_ ?_ ?_ ?_ ?_ ?_ ?_ <;> rfl)
theorem switchGens_keeps {s0 s : State}  (hk : Keeps s0 s) : Keeps s0 (switchGens s) := by
  unfold switchGens
  repeat' first
    | (with_reducible refine Keeps.lit hk ?_ ?_ ?_ ?_ ?_ ?_ ?_ ?_ ?_ ?_ ?_ <;> rfl)
    | split
theorem endReverse_keeps {s0 s : State}  (hk : Keeps s0 s) : Keeps s0 (endReverse s) := by
  unfold endReverse
  repeat' first
    | with_reducible assumption
    | with_reducible apply updPackNow_keeps
    | (with_reducible refine Keeps.lit (Keeps.foldl _ (fun s a h => ?_) ?_) ?_ ?_ ?_ ?_ ?_ ?_ ?_ ?_ ?_ ?_ ?_ <;> try rfl)
theorem memberFailed_keeps {s0 s : State} (port : Nat) (cause : Nat) (hk : Keeps s0 s) : Keeps s0 (memberFailed port cause s) := by
  unfold memberFailed
  repeat' first
    | with_reducible assumption
    | with_reducible apply countEvent_keeps
    | with_reducible apply sealEarlyWhere_keeps
    | with_reducible apply reverseLayout_keeps
    | (with_reducible refine Keeps.lit (updPack_keeps _ _ _ ?_) ?_ ?_ ?_ ?_ ?_ ?_ ?_ ?_ ?_ ?_ ?_ <;> try rfl)
    | (dsimp only)
    | split
theorem retireBlock_keeps {s0 s : State} (port : Nat) (block : Nat) (hk : Keeps s0 s) : Keeps s0 (retireBlock port block s) := by
  unfold retireBlock
  repeat' first
    | with_reducible assumption
    | with_reducible apply updPack_keeps
    | split
theorem moveBundle_keeps {s0 s : State} (victims : List Nat) (m : Nat × Nat × Nat) (hk : Keeps s0 s) : Keeps s0 (moveBundle victims m s) := by
  unfold moveBundle
  repeat' first
    | with_reducible apply updBundle_keeps
    | (with_reducible refine Keeps.lit hk ?_ ?_ ?_ ?_ ?_ ?_ ?_ ?_ ?_ ?_ ?_ <;> rfl)
    | split
theorem replaceChunk_keeps {s0 s : State} (old : Nat) (new : Nat) (hk : Keeps s0 s) : Keeps s0 (replaceChunk old new s) := by
  unfold replaceChunk
  repeat' first
    | with_reducible apply updStored_keeps
    | with_reducible apply freeIfUnused_keeps
    | (with_reducible refine Keeps.lit hk ?_ ?_ ?_ ?_ ?_ ?_ ?_ ?_ ?_ ?_ ?_ <;> rfl)
theorem commitMoves_keeps {s0 s : State} (nums : List Nat) (hk : Keeps s0 s) : Keeps s0 (commitMoves nums s) := by
  unfold commitMoves
  repeat' first
    | with_reducible assumption
    | with_reducible apply writeBundlePages_keeps
    | with_reducible apply releasePrevs_keeps
    | with_reducible apply moveBundle_keeps
    | with_reducible apply replaceChunk_keeps
    | with_reducible refine Keeps.foldl _ (fun s a h => ?_) ?_
    | (dsimp only)
    | split
theorem commitRebuilt_keeps {s0 s : State} (nums : List Nat) (hk : Keeps s0 s) : Keeps s0 (commitRebuilt nums s) := by
  unfold commitRebuilt
  repeat' first
    | with_reducible apply spareCheck_keeps
    | with_reducible assumption
    | with_reducible apply updSeg_keeps
    | (with_reducible refine Keeps.lit (Keeps.foldl _ (fun s a h => ?_) ?_) ?_ ?_ ?_ ?_ ?_ ?_ ?_ ?_ ?_ ?_ ?_ <;> try rfl)
    | (dsimp only)
theorem listFullCheck_keeps {s0 s : State}  (hk : Keeps s0 s) : Keeps s0 (listFullCheck s) := by
  unfold listFullCheck
  repeat' first
    | with_reducible apply countEvent_keeps
    | with_reducible refine Keeps.ite (fun _ => ?_) (fun _ => ?_)
    | (with_reducible refine Keeps.lit hk ?_ ?_ ?_ ?_ ?_ ?_ ?_ ?_ ?_ ?_ ?_ <;> rfl)
theorem destroyKey_keeps {s0 s : State} (kcv : List Byte) (dom : Option Nat) (hk : Keeps s0 s) : Keeps s0 (destroyKey kcv dom s) := by
  unfold destroyKey
  repeat' first
    | with_reducible assumption
    | with_reducible apply updDomain_keeps
    | (with_reducible refine Keeps.lit (putUsage_keeps _ _ _ _ ?_) ?_ ?_ ?_ ?_ ?_ ?_ ?_ ?_ ?_ ?_ ?_ <;> try rfl)
    | split
theorem followLoad_keeps {s0 s : State} (port away : Nat) (hk : Keeps s0 s) : Keeps s0 (followLoad port away s) :=
  updPackNow_keeps _ _ hk
theorem applyOp_keeps {s0 s : State} (op : Nat) (nums : List Nat) (bytes : List Byte) (hk : Keeps s0 s) : Keeps s0 (applyOp op nums bytes s) := by
  unfold applyOp
  repeat' first
    | with_reducible assumption
    | with_reducible apply followLoad_keeps
    | with_reducible apply withAccess_keeps
    | with_reducible apply createVolume_keeps
    | with_reducible apply deleteSnapshot_keeps
    | with_reducible apply deleteVolume_keeps
    | with_reducible apply resizeVolume_keeps
    | with_reducible apply setAccess_keeps
    | with_reducible apply createSnaps_keeps
    | with_reducible apply cloneVolume_keeps
    | with_reducible apply makeDomain_keeps
    | with_reducible apply admitPack_keeps
    | with_reducible apply retirePack_keeps
    | with_reducible apply startLayout_keeps
    | with_reducible apply reverseLayout_keeps
    | with_reducible apply switchGens_keeps
    | with_reducible apply endReverse_keeps
    | with_reducible apply memberFailed_keeps
    | with_reducible apply retireBlock_keeps
    | with_reducible apply commitMoves_keeps
    | with_reducible apply commitRebuilt_keeps
    | with_reducible apply listFullCheck_keeps
    | with_reducible apply destroyKey_keeps
    | (intro s h)
    | with_reducible refine Keeps.ite (fun _ => ?_) (fun _ => ?_)
    | (with_reducible refine Keeps.lit hk ?_ ?_ ?_ ?_ ?_ ?_ ?_ ?_ ?_ ?_ ?_ <;> rfl)
    | exact Keeps.lits hk rfl rfl (Nat.le_refl _) (Nat.le_max_left _ _) id id id rfl id id id

/-! ### Commit -/

theorem announce_keeps {s0 s : State} (d : AuthDecision) (hk : Keeps s0 s) : Keeps s0 (announce d s) := by
  unfold announce
  repeat' first
    | with_reducible apply sendPeer_keeps
    | with_reducible refine Keeps.ite (fun _ => ?_) (fun _ => ?_)
    | (with_reducible refine Keeps.lit hk ?_ ?_ ?_ ?_ ?_ ?_ ?_ ?_ ?_ ?_ ?_ <;> rfl)
theorem authority_keeps {s0 s : State} (d : AuthDecision) (op : Nat) (nums : List Nat) (hk : Keeps s0 s) : Keeps s0 (authority d op nums s) := by
  unfold authority
  repeat' first
    | with_reducible assumption
    | with_reducible apply appendOp_keeps
    | with_reducible apply announce_keeps
theorem sendCheckpoint_keeps {s0 s : State} (g : Gen) (slot : Nat) (port : Nat) (hk : Keeps s0 s) : Keeps s0 (sendCheckpoint g slot port s) := by
  unfold sendCheckpoint
  repeat' first
    | with_reducible assumption
    | with_reducible apply sendReq_keeps
    | with_reducible refine Keeps.foldl _ (fun s a h => ?_) ?_
    | split
theorem writeCheckpoint_keeps {s0 s : State}  (hk : Keeps s0 s) : Keeps s0 (writeCheckpoint s) := by
  unfold writeCheckpoint
  repeat' first
    | with_reducible assumption
    | with_reducible apply sendCheckpoint_keeps
    | with_reducible refine Keeps.foldl _ (fun s a h => ?_) ?_
    | (with_reducible refine Keeps.lit hk ?_ ?_ ?_ ?_ ?_ ?_ ?_ ?_ ?_ ?_ ?_ <;> rfl)
    | split
theorem recordCkpt_keeps {s0 s : State}  (hk : Keeps s0 s) : Keeps s0 (recordCkpt s) := by
  unfold recordCkpt
  repeat' first
    | with_reducible assumption
    | with_reducible refine Keeps.ite (fun _ => ?_) (fun _ => ?_)
    | (with_reducible refine Keeps.lit hk ?_ ?_ ?_ ?_ ?_ ?_ ?_ ?_ ?_ ?_ ?_ <;> rfl)
theorem ckptDone_keeps {s0 s : State} (port : Nat) (attempt : Nat) (hk : Keeps s0 s) : Keeps s0 (ckptDone port attempt s) := by
  unfold ckptDone
  exact Keeps.ite (fun _ => recordCkpt_keeps (hk.upd rfl rfl rfl rfl rfl rfl rfl rfl rfl rfl rfl rfl)) (fun _ => hk)
theorem updDiscard_keeps {s0 s : State} (f : Discard → Discard) (hk : Keeps s0 s) : Keeps s0 (updDiscard f s) := by
  unfold updDiscard
  repeat' first
    | (with_reducible refine Keeps.lit hk ?_ ?_ ?_ ?_ ?_ ?_ ?_ ?_ ?_ ?_ ?_ <;> rfl)
theorem destroyBundle_keeps {s0 s : State} (b : Bundle) (hk : Keeps s0 s) : Keeps s0 (destroyBundle b s) := by
  unfold destroyBundle
  dsimp only
  split
  · exact updDiscard_keeps _ hk
  · rename_i t ht
    have h : Keeps s0 t := by
      split at ht
      · cases ht; exact hk
      · split at ht
        · split at ht
          · cases ht; exact makeBundle_keeps _ _ _ _ hk
          · cases ht
        · cases ht
    with_reducible refine Keeps.lit (updDiscard_keeps _ (updBundle_keeps _ _ _ h)) ?_ ?_ ?_ ?_ ?_ ?_ ?_ ?_ ?_ ?_ ?_ <;> rfl
theorem discardPart_keeps {s0 s : State} (before : List Nat) (hk : Keeps s0 s) : Keeps s0 (discardPart before s) := by
  unfold discardPart
  repeat' first
    | with_reducible assumption
    | with_reducible apply updDiscard_keeps
    | with_reducible apply destroyBundle_keeps
    | with_reducible refine Keeps.foldl _ (fun s a h => ?_) ?_
theorem discardEnd_keeps {s0 s : State}  (hk : Keeps s0 s) : Keeps s0 (discardEnd s) := by
  unfold discardEnd
  repeat' first
    | with_reducible apply endLongOpOut_keeps
    | (with_reducible refine Keeps.lit hk ?_ ?_ ?_ ?_ ?_ ?_ ?_ ?_ ?_ ?_ ?_ <;> rfl)
    | split
theorem tagCommitted_keeps {s0 s : State} (t : Tag) (hk : Keeps s0 s) : Keeps s0 (tagCommitted t s) := by
  unfold tagCommitted
  repeat' first
    | with_reducible assumption
    | with_reducible apply updTag_keeps
    | with_reducible apply endTag_keeps
    | with_reducible refine Keeps.ite (fun _ => ?_) (fun _ => ?_)
    | (with_reducible refine Keeps.lit (releaseLock_keeps _ ?_) ?_ ?_ ?_ ?_ ?_ ?_ ?_ ?_ ?_ ?_ ?_ <;> try rfl)
theorem hotInsert_keeps {s0 s : State} (id : Nat) (hk : Keeps s0 s) : Keeps s0 (hotInsert id s) := by
  unfold hotInsert
  repeat' first
    | with_reducible refine Keeps.ite (fun _ => ?_) (fun _ => ?_)
    | (with_reducible refine Keeps.lit hk ?_ ?_ ?_ ?_ ?_ ?_ ?_ ?_ ?_ ?_ ?_ <;> rfl)
theorem markCommitted_keeps {s0 s : State} (vol : Nat) (es : List DeltaEntry) (hk : Keeps s0 s) : Keeps s0 (markCommitted vol es s) := by
  unfold markCommitted
  repeat' first
    | with_reducible assumption
    | with_reducible apply updStored_keeps
    | with_reducible apply hotInsert_keeps
    | with_reducible refine Keeps.foldl _ (fun s a h => ?_) ?_
    | with_reducible refine Keeps.ite (fun _ => ?_) (fun _ => ?_)
theorem commitPart_keeps {s0 s : State} (arrival : Nat) (delta : Nat) (vol : Nat) (hk : Keeps s0 s) : Keeps s0 (commitPart arrival delta vol s) := by
  unfold commitPart
  repeat' first
    | with_reducible assumption
    | with_reducible apply applyDelta_keeps
    | with_reducible apply updTag_keeps
    | with_reducible apply discardPart_keeps
    | with_reducible apply discardEnd_keeps
    | with_reducible apply tagCommitted_keeps
    | with_reducible apply markCommitted_keeps
    | (dsimp only)
    | split
theorem endOp_keeps {s0 s : State} (body : CoilBody) (hk : Keeps s0 s) : Keeps s0 (endOp body s) := by
  unfold endOp
  repeat' first
    | with_reducible apply deliver_keeps
    | with_reducible apply releaseLock_keeps
    | (with_reducible refine Keeps.lit hk ?_ ?_ ?_ ?_ ?_ ?_ ?_ ?_ ?_ ?_ ?_ <;> rfl)
    | split
theorem sendCycle_keeps {s0 s : State} (snap : Nat) (vol : Nat) (hk : Keeps s0 s) : Keeps s0 (sendCycle snap vol s) := by
  unfold sendCycle
  repeat' first
    | with_reducible apply sendMessage_keeps
    | (with_reducible refine Keeps.lit hk ?_ ?_ ?_ ?_ ?_ ?_ ?_ ?_ ?_ ?_ ?_ <;> rfl)
    | split
theorem afterOp_keeps {s0 s : State} (before : State) (op : Nat) (nums : List Nat) (hk : Keeps s0 s) : Keeps s0 (afterOp before op nums s) := by
  unfold afterOp
  repeat' first
    | with_reducible apply countEvent_keeps
    | with_reducible apply countIf_keeps
    | with_reducible apply borderEvent_keeps
    | with_reducible apply endLongOp_keeps
    | with_reducible apply writeCheckpoint_keeps
    | with_reducible apply sendCycle_keeps
    | with_reducible refine Keeps.ite (fun _ => ?_) (fun _ => ?_)
    | (with_reducible refine Keeps.lit hk ?_ ?_ ?_ ?_ ?_ ?_ ?_ ?_ ?_ ?_ ?_ <;> rfl)
    | split
theorem commitOpRecord_keeps {s0 s : State} (delta : Nat) (hk : Keeps s0 s) : Keeps s0 (commitOpRecord delta s) := by
  unfold commitOpRecord
  repeat' first
    | with_reducible assumption
    | with_reducible apply applyOp_keeps
    | with_reducible apply endOp_keeps
    | with_reducible apply afterOp_keeps
    | split
theorem eraseBlock_keeps {s0 s : State} (band : Band) (g : Gen) (e : Nat × Nat) (hk : Keeps s0 s) : Keeps s0 (eraseBlock band g e s) := by
  unfold eraseBlock
  repeat' first
    | with_reducible apply sendReq_keeps
    | with_reducible apply updBand_keeps
    | with_reducible refine Keeps.ite (fun _ => ?_) (fun _ => ?_)
    | (with_reducible refine Keeps.lit hk ?_ ?_ ?_ ?_ ?_ ?_ ?_ ?_ ?_ ?_ ?_ <;> rfl)
theorem erasesDone_keeps {s0 s : State} (band : Nat) (hk : Keeps s0 s) : Keeps s0 (erasesDone band s) := by
  unfold erasesDone
  repeat' first
    | with_reducible assumption
    | with_reducible apply appendRecord_keeps
    | with_reducible apply appendOp_keeps
    | with_reducible refine Keeps.foldl _ (fun s a h => ?_) ?_
    | split
theorem eraseBand_keeps {s0 s : State} (band : Nat) (hk : Keeps s0 s) : Keeps s0 (eraseBand band s) := by
  unfold eraseBand
  repeat' first
    | with_reducible assumption
    | with_reducible apply updBand_keeps
    | with_reducible apply eraseBlock_keeps
    | with_reducible apply erasesDone_keeps
    | with_reducible refine Keeps.foldl _ (fun s a h => ?_) ?_
    | split
theorem commitRecord_keeps {s0 s : State} (r : CoilRec) (hk : Keeps s0 s) : Keeps s0 (commitRecord r s) := by
  unfold commitRecord
  repeat' first
    | with_reducible assumption
    | with_reducible apply bandDurable_keeps
    | with_reducible apply eraseBand_keeps
    | (with_reducible refine Keeps.lit (commitPart_keeps _ _ _ ?_) ?_ ?_ ?_ ?_ ?_ ?_ ?_ ?_ ?_ ?_ ?_ <;> try rfl)
    | (with_reducible refine Keeps.lit (commitOpRecord_keeps _ ?_) ?_ ?_ ?_ ?_ ?_ ?_ ?_ ?_ ?_ ?_ ?_ <;> try rfl)
    | (with_reducible refine Keeps.lit (Keeps.ite (fun _ => ?_) (fun _ => ?_)) ?_ ?_ ?_ ?_ ?_ ?_ ?_ ?_ ?_ ?_ ?_ <;> try rfl)
    | split
theorem commitAdvance_keeps {s0 s : State}  (hk : Keeps s0 s) : Keeps s0 (commitAdvance s) := by
  unfold commitAdvance
  repeat' first
    | with_reducible assumption
    | with_reducible apply settle_keeps
    | with_reducible apply commitRecord_keeps
    | with_reducible refine Keeps.foldl _ (fun s a h => ?_) ?_
    | with_reducible refine Keeps.ite (fun _ => ?_) (fun _ => ?_)
    | (with_reducible refine Keeps.lit hk ?_ ?_ ?_ ?_ ?_ ?_ ?_ ?_ ?_ ?_ ?_ <;> rfl)
theorem recordPersisted_keeps {s0 s : State} (jseq : Nat) (hk : Keeps s0 s) : Keeps s0 (recordPersisted jseq s) := by
  unfold recordPersisted
  repeat' first
    | with_reducible apply intentDurable_keeps
    | with_reducible apply bandDurable_keeps
    | (with_reducible refine Keeps.lit hk ?_ ?_ ?_ ?_ ?_ ?_ ?_ ?_ ?_ ?_ ?_ <;> rfl)
    | (dsimp only)
    | split
theorem peerBundle_keeps {s0 s : State} (id : Nat) (domain : Nat) (lines : Nat) (content : List ChunkData) (hk : Keeps s0 s) : Keeps s0 (peerBundle id domain lines content s) := by
  unfold peerBundle
  repeat' first
    | with_reducible refine Keeps.ite (fun _ => ?_) (fun _ => ?_)
    | (with_reducible refine Keeps.lit hk ?_ ?_ ?_ ?_ ?_ ?_ ?_ ?_ ?_ ?_ ?_ <;> rfl)
theorem dropTaken_keeps {s0 s : State} (es : List DeltaEntry) (hk : Keeps s0 s) : Keeps s0 (dropTaken es s) := by
  unfold dropTaken
  repeat' first
    | with_reducible assumption
    | with_reducible apply updStored_keeps
    | with_reducible refine Keeps.foldl _ (fun s a h => ?_) ?_
theorem mirrorRecord_keeps {s0 s : State} (r : CoilRec) (hk : Keeps s0 s) : Keeps s0 (mirrorRecord r s) := by
  unfold mirrorRecord
  repeat' first
    | with_reducible apply applyDelta_keeps
    | with_reducible apply updSeg_keeps
    | with_reducible apply bandDurable_keeps
    | with_reducible apply applyOp_keeps
    | with_reducible apply markCommitted_keeps
    | with_reducible apply peerBundle_keeps
    | with_reducible apply dropTaken_keeps
    | (with_reducible refine Keeps.lit hk ?_ ?_ ?_ ?_ ?_ ?_ ?_ ?_ ?_ ?_ ?_ <;> rfl)
    | split
theorem mirrorPersist_keeps {s0 s : State} (jseq : Nat) (hk : Keeps s0 s) : Keeps s0 (mirrorPersist jseq s) := by
  unfold mirrorPersist
  repeat' first
    | with_reducible apply mirrorRecord_keeps
    | (with_reducible refine Keeps.lit hk ?_ ?_ ?_ ?_ ?_ ?_ ?_ ?_ ?_ ?_ ?_ <;> rfl)
    | (dsimp only)
    | split
theorem recordsPersisted_keeps {s0 s : State} (l : List Accept) (hk : Keeps s0 s) : Keeps s0 (recordsPersisted l s) := by
  unfold recordsPersisted
  repeat' first
    | with_reducible assumption
    | with_reducible apply sendMirrorAck_keeps
    | with_reducible apply recordPersisted_keeps
    | with_reducible apply mirrorPersist_keeps
    | with_reducible refine Keeps.foldl _ (fun s a h => ?_) ?_
    | with_reducible refine Keeps.ite (fun _ => ?_) (fun _ => ?_)
theorem mirrorLoss_keeps {s0 s : State}  (hk : Keeps s0 s) : Keeps s0 (mirrorLoss s) := by
  unfold mirrorLoss
  repeat' first
    | with_reducible assumption
    | with_reducible apply loseMirror_keeps
    | with_reducible apply commitAdvance_keeps

/-! ### Carry -/

theorem carryCmd_keeps {s0 s : State} (c : Cmd) (hk : Keeps s0 s) : Keeps s0 (carryCmd c s) := by
  unfold carryCmd
  repeat' first
    | with_reducible assumption
    | with_reducible apply requestPeer_keeps
theorem takeDecision_keeps {s0 s : State} (c : Cmd) (d : Decision) (hk : Keeps s0 s) : Keeps s0 (takeDecision c d s) := by
  unfold takeDecision
  repeat' first
    | with_reducible apply markTaken_keeps
    | (with_reducible refine Keeps.lit hk ?_ ?_ ?_ ?_ ?_ ?_ ?_ ?_ ?_ ?_ ?_ <;> rfl)
theorem addNeeds_keeps {s0 s : State} (h : Holder) (l : List LockNeed) (hk : Keeps s0 s) : Keeps s0 (addNeeds h l s) := by
  unfold addNeeds
  repeat' first
    | with_reducible assumption
    | with_reducible apply addLock_keeps
    | with_reducible apply numberVolumes_keeps
    | with_reducible refine Keeps.foldl _ (fun s a h => ?_) ?_
theorem dropLocks_keeps {s0 s : State} (h : Holder) (hk : Keeps s0 s) : Keeps s0 (dropLocks h s) := by
  unfold dropLocks
  repeat' first
    | with_reducible assumption
    | with_reducible apply releaseLock_keeps
    | with_reducible apply settle_keeps
    | with_reducible refine Keeps.ite (fun _ => ?_) (fun _ => ?_)

/-! ### Rebuild -/

theorem declareMember_keeps {s0 s : State} (port : Nat) (cause : Nat) (hk : Keeps s0 s) : Keeps s0 (declareMember port cause s) := by
  unfold declareMember
  repeat' first
    | with_reducible assumption
    | with_reducible apply authority_keeps
theorem declareFailed_keeps {s0 s : State} (port : Nat) (cause : Nat) (hk : Keeps s0 s) : Keeps s0 (declareFailed port cause s) := by
  unfold declareFailed
  repeat' first
    | with_reducible apply borderEvent_keeps
    | with_reducible apply declareMember_keeps
    | with_reducible refine Keeps.ite (fun _ => ?_) (fun _ => ?_)
    | (with_reducible refine Keeps.lit hk ?_ ?_ ?_ ?_ ?_ ?_ ?_ ?_ ?_ ?_ ?_ <;> rfl)
theorem waitedDeclaration_keeps {s0 s : State} (e : AuditEntry) (hk : Keeps s0 s) : Keeps s0 (waitedDeclaration e s) := by
  unfold waitedDeclaration
  repeat' first
    | with_reducible assumption
    | with_reducible apply declareMember_keeps
    | with_reducible refine Keeps.ite (fun _ => ?_) (fun _ => ?_)
theorem recordStripe_keeps {s0 s : State} (e : LostStripe) (hk : Keeps s0 s) : Keeps s0 (recordStripe e s) := by
  unfold recordStripe
  repeat' first
    | with_reducible apply countEvent_keeps
    | with_reducible refine Keeps.ite (fun _ => ?_) (fun _ => ?_)
    | (with_reducible refine Keeps.lit hk ?_ ?_ ?_ ?_ ?_ ?_ ?_ ?_ ?_ ?_ ?_ <;> rfl)
theorem loseSegment_keeps {s0 s : State} (x : Segment) (hk : Keeps s0 s) : Keeps s0 (loseSegment x s) := by
  unfold loseSegment
  repeat' first
    | with_reducible assumption
    | with_reducible apply countEvent_keeps
    | with_reducible apply borderEvent_keeps
    | with_reducible apply listFullCheck_keeps
    | with_reducible apply recordStripe_keeps
    | (with_reducible refine Keeps.lit (updSeg_keeps _ _ ?_) ?_ ?_ ?_ ?_ ?_ ?_ ?_ ?_ ?_ ?_ ?_ <;> try rfl)
theorem rebuildStrip_keeps {s0 s : State} (seg : Nat) (i : Nat) (hk : Keeps s0 s) : Keeps s0 (rebuildStrip seg i s) := by
  unfold rebuildStrip
  repeat' first
    | with_reducible apply countIf_keeps
    | with_reducible apply sendReq_keeps
    | (with_reducible refine Keeps.lit hk ?_ ?_ ?_ ?_ ?_ ?_ ?_ ?_ ?_ ?_ ?_ <;> rfl)
    | split
theorem holdBack_keeps {s0 s : State} (seg : Nat) (hk : Keeps s0 s) : Keeps s0 (holdBack seg s) := by
  unfold holdBack
  repeat' first
    | (with_reducible refine Keeps.lit hk ?_ ?_ ?_ ?_ ?_ ?_ ?_ ?_ ?_ ?_ ?_ <;> rfl)
theorem applyRebuildCtrl_keeps {s0 s : State} (d : Decision) (hk : Keeps s0 s) : Keeps s0 (applyRebuildCtrl d s) := by
  unfold applyRebuildCtrl
  repeat' first
    | with_reducible apply declareFailed_keeps
    | (with_reducible refine Keeps.lit hk ?_ ?_ ?_ ?_ ?_ ?_ ?_ ?_ ?_ ?_ ?_ <;> rfl)
    | split
theorem applyLostListClear_keeps {s0 s : State} (d : Decision) (hk : Keeps s0 s) : Keeps s0 (applyLostListClear d s) := by
  unfold applyLostListClear
  repeat' first
    | (with_reducible refine Keeps.lit hk ?_ ?_ ?_ ?_ ?_ ?_ ?_ ?_ ?_ ?_ ?_ <;> rfl)
    | split

/-! ### Authority -/

theorem adoptEpoch_keeps {s0 s : State}  (hk : Keeps s0 s) : Keeps s0 (adoptEpoch s) := by
  unfold adoptEpoch
  repeat' first
    | (with_reducible refine Keeps.lit hk ?_ ?_ ?_ ?_ ?_ ?_ ?_ ?_ ?_ ?_ ?_ <;> rfl)
theorem commitEpoch_keeps {s0 s : State}  (hk : Keeps s0 s) : Keeps s0 (commitEpoch s) := by
  unfold commitEpoch
  repeat' first
    | with_reducible assumption
    | with_reducible apply authority_keeps
theorem tellPacks_keeps {s0 s : State} (cmd : Nat) (op : Nat) (hk : Keeps s0 s) : Keeps s0 (tellPacks cmd op s) := by
  unfold tellPacks
  repeat' first
    | with_reducible assumption
    | with_reducible apply sendReq_keeps
    | with_reducible refine Keeps.foldl _ (fun s a h => ?_) ?_
theorem takeEnds_keeps {s0 s : State}  (hk : Keeps s0 s) : Keeps s0 (takeEnds s) := by
  unfold takeEnds
  repeat' first
    | with_reducible apply countEvent_keeps
    | with_reducible apply countIf_keeps
    | with_reducible apply borderEvent_keeps
    | with_reducible apply writeHeader3_keeps
    | with_reducible apply commitEpoch_keeps
    | (with_reducible refine Keeps.lit hk ?_ ?_ ?_ ?_ ?_ ?_ ?_ ?_ ?_ ?_ ?_ <;> rfl)
theorem checkFence_keeps {s0 s : State}  (hk : Keeps s0 s) : Keeps s0 (checkFence s) := by
  unfold checkFence
  repeat' first
    | with_reducible apply takeEnds_keeps
    | with_reducible refine Keeps.ite (fun _ => ?_) (fun _ => ?_)
    | (with_reducible refine Keeps.lit hk ?_ ?_ ?_ ?_ ?_ ?_ ?_ ?_ ?_ ?_ ?_ <;> rfl)
theorem beginTake_keeps {s0 s : State}  (hk : Keeps s0 s) : Keeps s0 (beginTake s) := by
  unfold beginTake
  repeat' first
    | with_reducible apply adoptEpoch_keeps
    | with_reducible apply tellPacks_keeps
    | with_reducible apply checkFence_keeps
    | with_reducible refine Keeps.ite (fun _ => ?_) (fun _ => ?_)
    | (with_reducible refine Keeps.lit hk ?_ ?_ ?_ ?_ ?_ ?_ ?_ ?_ ?_ ?_ ?_ <;> rfl)
theorem fenceLate_keeps {s0 s : State} (n : Nat) (hk : Keeps s0 s) : Keeps s0 (fenceLate n s) := by
  unfold fenceLate
  repeat' first
    | with_reducible assumption
    | with_reducible apply sendReq_keeps
    | with_reducible refine Keeps.ite (fun _ => ?_) (fun _ => ?_)

/-! ### Firmware -/

theorem setSlot_keeps {s0 s : State} (comp : Nat) (slot : Nat) (v : Nat) (hk : Keeps s0 s) : Keeps s0 (setSlot comp slot v s) := by
  unfold setSlot
  repeat' first
    | (with_reducible refine Keeps.lit hk ?_ ?_ ?_ ?_ ?_ ?_ ?_ ?_ ?_ ?_ ?_ <;> rfl)
theorem rewriteDirectory_keeps {s0 s : State}  (hk : Keeps s0 s) : Keeps s0 (rewriteDirectory s) := by
  unfold rewriteDirectory
  repeat' first
    | with_reducible assumption
    | with_reducible apply writeDir_keeps
    | with_reducible refine Keeps.foldl _ (fun s a h => ?_) ?_
    | (with_reducible refine Keeps.lit (setSlot_keeps _ _ _ ?_) ?_ ?_ ?_ ?_ ?_ ?_ ?_ ?_ ?_ ?_ ?_ <;> try rfl)
    | (dsimp only)
    | split
theorem applyStageImage_keeps {s0 s : State} (c : Cmd) (hk : Keeps s0 s) : Keeps s0 (applyStageImage c s) := by
  unfold applyStageImage
  repeat' first
    | with_reducible assumption
    | with_reducible apply startLongOp_keeps
    | with_reducible apply putSlot_keeps
    | with_reducible apply writeDir_keeps
    | with_reducible refine Keeps.ite (fun _ => ?_) (fun _ => ?_)
    | (with_reducible refine Keeps.lit hk ?_ ?_ ?_ ?_ ?_ ?_ ?_ ?_ ?_ ?_ ?_ <;> rfl)
    | (with_reducible refine Keeps.lit (writeDir_keeps ?_) ?_ ?_ ?_ ?_ ?_ ?_ ?_ ?_ ?_ ?_ ?_ <;> try rfl)
    | (with_reducible refine Keeps.lit (setSlot_keeps _ _ _ ?_) ?_ ?_ ?_ ?_ ?_ ?_ ?_ ?_ ?_ ?_ ?_ <;> try rfl)
    | (dsimp only)
theorem placeImage_keeps {s0 s : State} (comp : Nat) (data : List Byte) (hk : Keeps s0 s) : Keeps s0 (placeImage comp data s) := by
  unfold placeImage
  repeat' first
    | with_reducible assumption
    | with_reducible apply putSlot_keeps
    | with_reducible apply writeDir_keeps
    | with_reducible apply setSlot_keeps
    | with_reducible refine Keeps.ite (fun _ => ?_) (fun _ => ?_)
    | (with_reducible refine Keeps.lit hk ?_ ?_ ?_ ?_ ?_ ?_ ?_ ?_ ?_ ?_ ?_ <;> rfl)
theorem applyActivateImage_keeps {s0 s : State} (d : Decision) (hk : Keeps s0 s) : Keeps s0 (applyActivateImage d s) := by
  unfold applyActivateImage
  repeat' first
    | with_reducible assumption
    | with_reducible apply writeDir_keeps
    | with_reducible refine Keeps.foldl _ (fun s a h => ?_) ?_
    | (with_reducible refine Keeps.lit h ?_ ?_ ?_ ?_ ?_ ?_ ?_ ?_ ?_ ?_ ?_ <;> rfl)
    | (dsimp only)
    | split
theorem settleFormat_keeps {s0 s : State}  (hk : Keeps s0 s) : Keeps s0 (settleFormat s) := by
  unfold settleFormat
  repeat' first
    | (with_reducible refine Keeps.lit hk ?_ ?_ ?_ ?_ ?_ ?_ ?_ ?_ ?_ ?_ ?_ <;> rfl)

/-! ### Power -/

theorem latchPwrfail_keeps {s0 s : State} (hk : Keeps s0 s) : Keeps s0 (latchPwrfail s) :=
  Keeps.lits hk rfl rfl (Nat.le_refl _) (Nat.le_refl _) id id id rfl id (fun _ => rfl) id
theorem persistAccepted_keeps {s0 s : State}  (hk : Keeps s0 s) : Keeps s0 (persistAccepted s) := by
  unfold persistAccepted
  repeat' first
    | (with_reducible refine Keeps.lit hk ?_ ?_ ?_ ?_ ?_ ?_ ?_ ?_ ?_ ?_ ?_ <;> rfl)
theorem beginWarmReset_keeps {s0 s : State}  (hk : Keeps s0 s) : Keeps s0 (beginWarmReset s) := by
  unfold beginWarmReset
  repeat' first
    | with_reducible assumption
    | with_reducible apply persistAccepted_keeps
    | (with_reducible refine Keeps.lit (idleLinks_keeps ?_) ?_ ?_ ?_ ?_ ?_ ?_ ?_ ?_ ?_ ?_ ?_ <;> try rfl)
theorem hamLifeCheck_keeps {s0 s : State}  (hk : Keeps s0 s) : Keeps s0 (hamLifeCheck s) := by
  unfold hamLifeCheck
  repeat' first
    | with_reducible apply countEvent_keeps
    | with_reducible refine Keeps.ite (fun _ => ?_) (fun _ => ?_)
    | (with_reducible refine Keeps.lit hk ?_ ?_ ?_ ?_ ?_ ?_ ?_ ?_ ?_ ?_ ?_ <;> rfl)
theorem configAnswer_keeps {s0 s : State} (port : Nat) (hk : Keeps s0 s) : Keeps s0 (configAnswer port s) := by
  unfold configAnswer
  repeat' first
    | with_reducible assumption
    | with_reducible apply emit_keeps
    | with_reducible refine Keeps.foldl _ (fun s a h => ?_) ?_
    | with_reducible refine Keeps.ite (fun _ => ?_) (fun _ => ?_)
theorem queueGroup_keeps {s0 s : State} (g : Nat) (hk : Keeps s0 s) : Keeps s0 (queueGroup g s) := by
  unfold queueGroup
  repeat' first
    | with_reducible refine Keeps.ite (fun _ => ?_) (fun _ => ?_)
    | (with_reducible refine Keeps.lit hk ?_ ?_ ?_ ?_ ?_ ?_ ?_ ?_ ?_ ?_ ?_ <;> rfl)
theorem groupOff_keeps {s0 s : State} (g : Nat) (hk : Keeps s0 s) : Keeps s0 (groupOff g s) := by
  unfold groupOff
  repeat' first
    | (with_reducible refine Keeps.lit hk ?_ ?_ ?_ ?_ ?_ ?_ ?_ ?_ ?_ ?_ ?_ <;> rfl)
theorem resumeLoops_keeps {s0 s : State}  (hk : Keeps s0 s) : Keeps s0 (resumeLoops s) := by
  unfold resumeLoops
  repeat' first
    | (with_reducible refine Keeps.lit hk ?_ ?_ ?_ ?_ ?_ ?_ ?_ ?_ ?_ ?_ ?_ <;> rfl)

end Sys2Proof.Machine
end

