-- ==== Sys2Proof/Laws/KeepsCoil.lean ====
section
/-! SUPPORT. The operations of Coil, the Hamper, PLEM and the Stake links keep what Keeps says. -/

namespace Sys2Proof.Machine

set_option linter.unusedVariables false

/-! ### Coil -/

theorem fillSeals_keeps {s0 s : State}  (hk : Keeps s0 s) : Keeps s0 (fillSeals s) := by
  unfold fillSeals
  repeat' first
    | with_reducible assumption
    | with_reducible apply sealEarlyWhere_keeps
    | split
theorem acceptMirror_keeps {s0 s : State} (records : List CoilRec) (hk : Keeps s0 s) : Keeps s0 (acceptMirror records s) := by
  unfold acceptMirror
  repeat' first
    | with_reducible assumption
    | with_reducible apply storeLines_keeps
    | (with_reducible refine Keeps.lit (Keeps.foldl _ (fun s a h => ?_) ?_) ?_ ?_ ?_ ?_ ?_ ?_ ?_ ?_ ?_ ?_ ?_ <;> try rfl)
theorem catchUpEnds_keeps {s0 s : State}  (hk : Keeps s0 s) : Keeps s0 (catchUpEnds s) := by
  unfold catchUpEnds
  repeat' first
    | (with_reducible refine Keeps.lit hk ?_ ?_ ?_ ?_ ?_ ?_ ?_ ?_ ?_ ?_ ?_ <;> rfl)
    | split
theorem releaseMirror_keeps {s0 s : State} (head : Nat) (hk : Keeps s0 s) : Keeps s0 (releaseMirror head s) := by
  unfold releaseMirror
  repeat' first
    | (with_reducible refine Keeps.lit hk ?_ ?_ ?_ ?_ ?_ ?_ ?_ ?_ ?_ ?_ ?_ <;> rfl)
theorem reopenPeer_keeps {s0 s : State} (head : Nat) (hk : Keeps s0 s) : Keeps s0 (reopenPeer head s) := by
  unfold reopenPeer
  repeat' first
    | with_reducible assumption
    | with_reducible apply putHeader_keeps
    | with_reducible apply tellPacks_keeps
    | with_reducible refine Keeps.ite (fun _ => ?_) (fun _ => ?_)
theorem placeWaiting_keeps {s0 s : State}  (a0 : Nat) (hk : Keeps s0 s) : Keeps s0 (placeWaiting  a0 s) := by
  induction a0 generalizing s with
  | zero => unfold placeWaiting; exact hk
  | succ k ih =>
    unfold placeWaiting
    repeat' first
      | with_reducible apply ih
      | with_reducible apply placeRecord_keeps
      | (with_reducible refine Keeps.lit hk ?_ ?_ ?_ ?_ ?_ ?_ ?_ ?_ ?_ ?_ ?_ <;> rfl)
      | split
theorem replayBands_keeps {s0 s : State}  (hk : Keeps s0 s) : Keeps s0 (replayBands s) := by
  unfold replayBands
  repeat' first
    | with_reducible assumption
    | with_reducible apply bandDurable_keeps
    | (with_reducible refine Keeps.lit (Keeps.foldl _ (fun s a h => ?_) ?_) ?_ ?_ ?_ ?_ ?_ ?_ ?_ ?_ ?_ ?_ ?_ <;> try rfl)
    | split
theorem replayErases_keeps {s0 s : State}  (hk : Keeps s0 s) : Keeps s0 (replayErases s) := by
  unfold replayErases
  repeat' first
    | with_reducible assumption
    | with_reducible apply eraseBand_keeps
    | with_reducible refine Keeps.foldl _ (fun s a h => ?_) ?_
theorem replaySegment_keeps {s0 s : State} (x : Segment) (hk : Keeps s0 s) : Keeps s0 (replaySegment x s) := by
  unfold replaySegment
  repeat' first
    | with_reducible apply voidStrip_keeps
    | with_reducible assumption
    | with_reducible apply countEvent_keeps
    | with_reducible apply updSeg_keeps
    | with_reducible apply voidPos_keeps
    | with_reducible refine Keeps.ite (fun _ => ?_) (fun _ => ?_)
    | (with_reducible refine Keeps.lit h ?_ ?_ ?_ ?_ ?_ ?_ ?_ ?_ ?_ ?_ ?_ <;> rfl)
    | (with_reducible refine Keeps.lit (Keeps.foldl _ (fun s a h => ?_) ?_) ?_ ?_ ?_ ?_ ?_ ?_ ?_ ?_ ?_ ?_ ?_ <;> try rfl)
theorem replaySegments_keeps {s0 s : State}  (hk : Keeps s0 s) : Keeps s0 (replaySegments s) := by
  unfold replaySegments
  repeat' first
    | with_reducible assumption
    | with_reducible apply replaySegment_keeps
    | with_reducible refine Keeps.foldl _ (fun s a h => ?_) ?_
    | (with_reducible refine Keeps.lit hk ?_ ?_ ?_ ?_ ?_ ?_ ?_ ?_ ?_ ?_ ?_ <;> rfl)
    | (dsimp only)
theorem replayCommit_keeps {s0 s : State} (r : CoilRec) (hk : Keeps s0 s) : Keeps s0 (replayCommit r s) := by
  unfold replayCommit
  repeat' first
    | with_reducible apply markCommitted_keeps
    | (with_reducible refine Keeps.lit hk ?_ ?_ ?_ ?_ ?_ ?_ ?_ ?_ ?_ ?_ ?_ <;> rfl)
    | (with_reducible refine Keeps.lit (countEvent_keeps _ _ ?_) ?_ ?_ ?_ ?_ ?_ ?_ ?_ ?_ ?_ ?_ ?_ <;> try rfl)
    | (with_reducible refine Keeps.lit (applyDelta_keeps _ _ ?_) ?_ ?_ ?_ ?_ ?_ ?_ ?_ ?_ ?_ ?_ ?_ <;> try rfl)
    | (with_reducible refine Keeps.lit (commitOpRecord_keeps _ ?_) ?_ ?_ ?_ ?_ ?_ ?_ ?_ ?_ ?_ ?_ ?_ <;> try rfl)
    | split
theorem replayDiscard_keeps {s0 s : State}  (hk : Keeps s0 s) : Keeps s0 (replayDiscard s) := by
  unfold replayDiscard
  repeat' first
    | with_reducible apply releaseWhere_keeps
    | (with_reducible refine Keeps.lit hk ?_ ?_ ?_ ?_ ?_ ?_ ?_ ?_ ?_ ?_ ?_ <;> rfl)
theorem replayApply_keeps {s0 s : State} (hk : Keeps s0 s) : Keeps s0 (replayApply s) := by
  have h := replaySegments_keeps (replayBands_keeps hk)
  have h1 := Keeps.foldl (f := fun s r => replayCommit r s) (replaySegments (replayBands s)).nv.journal (fun s r h => replayCommit_keeps r h) h
  have h2 := replayDiscard_keeps (replayErases_keeps h1)
  unfold replayApply
  dsimp only
  generalize replayDiscard (replayErases (List.foldl (fun s r => replayCommit r s) (replaySegments (replayBands s))
    (replaySegments (replayBands s)).nv.journal)) = t at h2
  exact h2.upd rfl rfl rfl rfl rfl rfl rfl rfl rfl rfl rfl rfl
theorem endReplay_keeps {s0 s : State}  (hk : Keeps s0 s) : Keeps s0 (endReplay s) := by
  unfold endReplay
  repeat' first
    | with_reducible assumption
    | with_reducible apply sealBand_keeps
    | with_reducible refine Keeps.foldl _ (fun s a h => ?_) ?_
    | (with_reducible refine Keeps.lit hk ?_ ?_ ?_ ?_ ?_ ?_ ?_ ?_ ?_ ?_ ?_ <;> rfl)

/-! ### Hamper -/

theorem deniedHam_keeps {s0 s : State} (plane : Nat) (addr : Nat) (write : Bool) (hk : Keeps s0 s) : Keeps s0 (deniedHam plane addr write s) := by
  unfold deniedHam
  repeat' first
    | with_reducible apply countEvent_keeps
    | (with_reducible refine Keeps.lit hk ?_ ?_ ?_ ?_ ?_ ?_ ?_ ?_ ?_ ?_ ?_ <;> rfl)
theorem deniedCol_keeps {s0 s : State} (plane : Nat) (addr : Nat) (write : Bool) (hk : Keeps s0 s) : Keeps s0 (deniedCol plane addr write s) := by
  unfold deniedCol
  repeat' first
    | with_reducible apply countEvent_keeps
    | (with_reducible refine Keeps.lit hk ?_ ?_ ?_ ?_ ?_ ?_ ?_ ?_ ?_ ?_ ?_ <;> rfl)
theorem engineDenied_keeps {s0 s : State}  (hk : Keeps s0 s) : Keeps s0 (engineDenied s) := by
  unfold engineDenied
  repeat' first
    | with_reducible assumption
    | with_reducible apply failSilent_keeps
theorem engineWrite_keeps {s0 s : State} (a : Nat) (bytes : List Byte) (hk : Keeps s0 s) : Keeps s0 (engineWrite a bytes s) :=
  Keeps.ite (fun _ => hk.writeMem a bytes) (fun _ => engineDenied_keeps (deniedHam_keeps _ _ _ hk))
theorem engineReads_keeps {s0 s t : State} (a n : Nat) (hk : Keeps s0 s) (ht : engineReads a n s = some t) : Keeps s0 t := by
  unfold engineReads at ht
  split at ht
  · cases ht; exact engineDenied_keeps (deniedHam_keeps _ _ _ hk)
  · split at ht
    · cases ht; exact failSilent_keeps _ _ hk
    · cases ht
theorem accessDone_keeps {s0 s : State} (engine write : Bool) (addr : Nat) (bytes : List Byte) (hk : Keeps s0 s) :
    Keeps s0 (accessDone engine write addr bytes s) := by
  unfold accessDone
  split
  · exact hk.writeMem addr bytes
  · split
    · exact failSilent_keeps _ _ hk
    · exact emit_keeps _ hk
theorem rimPost_keeps {s0 s : State} (n : Nat) (who : Nat) (entry : List Byte) (hk : Keeps s0 s) : Keeps s0 (rimPost n who entry s) := by
  unfold rimPost
  repeat' first
    | (with_reducible refine Keeps.lit hk ?_ ?_ ?_ ?_ ?_ ?_ ?_ ?_ ?_ ?_ ?_ <;> rfl)
theorem rimShift_keeps {s0 s : State} (ring : Nat) (hk : Keeps s0 s) : Keeps s0 (rimShift ring s) := by
  unfold rimShift
  with_reducible refine Keeps.lit hk ?_ ?_ ?_ ?_ ?_ ?_ ?_ ?_ ?_ ?_ ?_ <;> rfl
theorem drainAll_keeps {s0 s : State} (hk : Keeps s0 s) : Keeps s0 (drainAll s) := by
  have h : ∀ (l : List (Nat × List Byte)) (m : List Host.Cell), Memory.wf m = true →
      Memory.wf (l.foldl (fun m w => memWrite m w.1 w.2) m) = true := by
    intro l
    induction l with
    | nil => exact fun _ h => h
    | cons w t ih => exact fun m h => ih _ (memWrite_wf w.1 w.2 h)
  exact ⟨hk.pending, fun w => h _ _ (hk.mem w), hk.chain, hk.linked, hk.counter, hk.epoch, hk.silent, hk.trip, hk.cause, hk.serial, hk.uds, hk.owner, hk.floors, hk.udsShut, hk.latch, hk.fault⟩
theorem stagePacket_keeps {s0 s : State} (ring : Nat) (bytes : List Byte) (hk : Keeps s0 s) : Keeps s0 (stagePacket ring bytes s) := by
  unfold stagePacket
  dsimp only
  split
  · exact hk
  · exact Keeps.ite (fun _ => rimPost_keeps _ _ _ (drewFree_keeps ((drewFree_keeps hk).writeMem _ _)))
      (fun _ => engineDenied_keeps (deniedHam_keeps _ _ _ (drewFree_keeps hk)))

/-! ### Plem -/

theorem closeRing_keeps {s0 s : State} (n : Nat) (hk : Keeps s0 s) : Keeps s0 (closeRing n s) := by
  unfold closeRing
  repeat' first
    | with_reducible assumption
    | with_reducible apply updRing_keeps
    | with_reducible apply endSession_keeps
    | with_reducible apply discardCmds_keeps
theorem ringCfgWrite_keeps {s0 s : State} (n : Nat) (v : Nat) (hk : Keeps s0 s) : Keeps s0 (ringCfgWrite n v s) := by
  unfold ringCfgWrite
  repeat' first
    | with_reducible assumption
    | with_reducible apply updRing_keeps
    | with_reducible apply closeRing_keeps
    | with_reducible refine Keeps.ite (fun _ => ?_) (fun _ => ?_)
theorem doorbellWakes_keeps {s0 s : State}  (hk : Keeps s0 s) : Keeps s0 (doorbellWakes s) := by
  unfold doorbellWakes
  repeat' first
    | with_reducible refine Keeps.ite (fun _ => ?_) (fun _ => ?_)
    | (with_reducible refine Keeps.lit hk ?_ ?_ ?_ ?_ ?_ ?_ ?_ ?_ ?_ ?_ ?_ <;> rfl)
theorem tailDoorbell_keeps {s0 s : State} (n : Nat) (v : Nat) (hk : Keeps s0 s) : Keeps s0 (tailDoorbell n v s) := by
  unfold tailDoorbell
  repeat' first
    | with_reducible assumption
    | with_reducible apply updRing_keeps
    | with_reducible apply doorbellWakes_keeps
    | with_reducible refine Keeps.ite (fun _ => ?_) (fun _ => ?_)
theorem releaseHeld_keeps {s0 s : State} (n : Nat) (a0 : Nat) (hk : Keeps s0 s) : Keeps s0 (releaseHeld n a0 s) := by
  induction a0 generalizing s with
  | zero => unfold releaseHeld; exact hk
  | succ k ih =>
    unfold releaseHeld
    repeat' first
      | with_reducible assumption
      | with_reducible apply ih
      | with_reducible apply updRing_keeps
      | with_reducible apply placeStatus_keeps
      | (dsimp only)
      | split
theorem headDoorbell_keeps {s0 s : State} (n : Nat) (v : Nat) (hk : Keeps s0 s) : Keeps s0 (headDoorbell n v s) := by
  unfold headDoorbell
  repeat' first
    | with_reducible assumption
    | with_reducible apply updRing_keeps
    | with_reducible apply doorbellWakes_keeps
    | with_reducible apply releaseHeld_keeps
    | with_reducible refine Keeps.ite (fun _ => ?_) (fun _ => ?_)
theorem takePacket_keeps {s0 s : State} (ring : Nat) (packet : List Byte) (block : List Byte) (peerTag : Option Nat) (hk : Keeps s0 s) : Keeps s0 (takePacket ring packet block peerTag s) := by
  unfold takePacket
  repeat' first
    | with_reducible assumption
    | with_reducible apply finishCmd_keeps
    | with_reducible apply holdCommand_keeps
    | (with_reducible refine Keeps.lit (updRing_keeps _ _ ?_) ?_ ?_ ?_ ?_ ?_ ?_ ?_ ?_ ?_ ?_ ?_ <;> try rfl)
    | (dsimp only)
    | split
theorem internalArrive_keeps {s0 s : State} (n : Nat) (packet : List Byte) (block : List Byte) (peerTag : Option Nat) (hk : Keeps s0 s) : Keeps s0 (internalArrive n packet block peerTag s) := by
  unfold internalArrive
  repeat' first
    | with_reducible assumption
    | with_reducible apply updRing_keeps
    | with_reducible apply takePacket_keeps
    | with_reducible refine Keeps.ite (fun _ => ?_) (fun _ => ?_)
theorem internalFetch_keeps {s0 s : State} (n : Nat) (hk : Keeps s0 s) : Keeps s0 (internalFetch n s) := by
  unfold internalFetch
  repeat' first
    | with_reducible assumption
    | with_reducible apply updRing_keeps
    | with_reducible apply takePacket_keeps
    | with_reducible refine Keeps.ite (fun _ => ?_) (fun _ => ?_)
    | split
theorem fetchFailed_keeps {s0 s : State} (ring : Nat) (hk : Keeps s0 s) : Keeps s0 (fetchFailed ring s) := by
  unfold fetchFailed
  repeat' first
    | with_reducible assumption
    | with_reducible apply countEvent_keeps
    | with_reducible apply updRing_keeps
    | with_reducible apply closeRing_keeps
    | with_reducible refine Keeps.ite (fun _ => ?_) (fun _ => ?_)

/-! ### Stake -/

theorem sealRowsOf_keeps {s0 s : State} (port : Nat) (hk : Keeps s0 s) : Keeps s0 (sealRowsOf port s) := by
  unfold sealRowsOf
  repeat' first
    | with_reducible assumption
    | with_reducible apply sealEarlyWhere_keeps
theorem sendOwed_keeps {s0 s : State} (port : Nat) (hk : Keeps s0 s) : Keeps s0 (sendOwed port s) := by
  unfold sendOwed
  repeat' first
    | with_reducible assumption
    | with_reducible apply sendReq_keeps
    | with_reducible refine Keeps.foldl _ (fun s a h => ?_) ?_
theorem oneHeadEpisode_keeps {s0 s : State} (port : Nat) (here : Bool) (there : Bool) (hk : Keeps s0 s) : Keeps s0 (oneHeadEpisode port here there s) := by
  unfold oneHeadEpisode
  repeat' first
    | with_reducible apply countEvent_keeps
    | with_reducible apply sealRowsOf_keeps
    | with_reducible refine Keeps.ite (fun _ => ?_) (fun _ => ?_)
    | (with_reducible refine Keeps.lit hk ?_ ?_ ?_ ?_ ?_ ?_ ?_ ?_ ?_ ?_ ?_ <;> rfl)
theorem updateMember_keeps {s0 s : State} (port : Nat) (hk : Keeps s0 s) : Keeps s0 (updateMember port s) := by
  unfold updateMember
  repeat' first
    | with_reducible assumption
    | with_reducible apply updPack_keeps
    | with_reducible apply sendOwed_keeps
    | with_reducible apply oneHeadEpisode_keeps
    | split
theorem updateMembers_keeps {s0 s : State}  (hk : Keeps s0 s) : Keeps s0 (updateMembers s) := by
  unfold updateMembers
  repeat' first
    | with_reducible assumption
    | with_reducible apply updateMember_keeps
    | with_reducible refine Keeps.foldl _ (fun s a h => ?_) ?_
theorem markBad_keeps {s0 s : State} (port : Nat) (block : Nat) (hk : Keeps s0 s) : Keeps s0 (markBad port block s) := by
  unfold markBad
  repeat' first
    | with_reducible assumption
    | with_reducible apply updPackNow_keeps
theorem markRetiring_keeps {s0 s : State} (band : Nat) (port : Nat) (hk : Keeps s0 s) : Keeps s0 (markRetiring band port s) := by
  unfold markRetiring
  repeat' first
    | with_reducible assumption
    | with_reducible apply updBand_keeps
    | with_reducible apply closeBand_keeps
    | with_reducible apply markBad_keeps
theorem recopyBlock_keeps {s0 s : State} (band : Nat) (port : Nat) (hk : Keeps s0 s) : Keeps s0 (recopyBlock band port s) := by
  unfold recopyBlock
  repeat' first
    | with_reducible apply sealEarlyWhere_keeps
    | (with_reducible refine Keeps.lit hk ?_ ?_ ?_ ?_ ?_ ?_ ?_ ?_ ?_ ?_ ?_ <;> rfl)
    | (with_reducible refine Keeps.lit (countIf_keeps _ _ ?_) ?_ ?_ ?_ ?_ ?_ ?_ ?_ ?_ ?_ ?_ ?_ <;> try rfl)
    | (dsimp only)
    | split
theorem ckptMove_keeps {s0 s : State} (g : Gen) (port : Nat) (hk : Keeps s0 s) : Keeps s0 (ckptMove g port s) := by
  unfold ckptMove
  split
  · exact hk
  · split
    · exact sendCheckpoint_keeps _ _ _ (recordCkpt_keeps (hk.upd rfl rfl rfl rfl rfl rfl rfl rfl rfl rfl rfl rfl))
    · exact recordCkpt_keeps (hk.upd rfl rfl rfl rfl rfl rfl rfl rfl rfl rfl rfl rfl)
theorem ckptFailed_keeps {s0 s : State} (port : Nat) (r : Req) (hk : Keeps s0 s) : Keeps s0 (ckptFailed port r s) := by
  unfold ckptFailed
  repeat' first
    | with_reducible apply ckptMove_keeps
    | with_reducible apply countEvent_keeps
    | with_reducible assumption
    | with_reducible apply sendReq_keeps
    | with_reducible apply updPack_keeps
    | (dsimp only)
    | split
theorem ckptWritten_keeps {s0 s : State} (port : Nat) (r : Req) (hk : Keeps s0 s) : Keeps s0 (ckptWritten port r s) := by
  unfold ckptWritten
  repeat' first
    | with_reducible assumption
    | with_reducible apply sendReq_keeps
    | with_reducible apply ckptDone_keeps
    | split
theorem stripLost_keeps {s0 s : State} (r : Req) (hk : Keeps s0 s) : Keeps s0 (stripLost r s) := by
  unfold stripLost
  repeat' first
    | with_reducible apply voidStrip_keeps
    | with_reducible assumption
    | with_reducible apply updSeg_keeps
    | with_reducible apply voidPos_keeps
    | with_reducible apply sealComplete_keeps
    | with_reducible apply sealBand_keeps
    | with_reducible apply strikeUnreadable_keeps
    | split
theorem programFailed_keeps {s0 s : State} (port : Nat) (r : Req) (blame : Bool) (hk : Keeps s0 s) : Keeps s0 (programFailed port r blame s) := by
  unfold programFailed
  repeat' first
    | with_reducible apply updPackNow_keeps
    | with_reducible apply markRetiring_keeps
    | with_reducible apply recopyBlock_keeps
    | with_reducible apply ckptFailed_keeps
    | with_reducible apply stripLost_keeps
    | with_reducible refine Keeps.ite (fun _ => ?_) (fun _ => ?_)
    | (with_reducible refine Keeps.lit hk ?_ ?_ ?_ ?_ ?_ ?_ ?_ ?_ ?_ ?_ ?_ <;> rfl)
theorem programDone_keeps {s0 s : State} (port : Nat) (r : Req) (hk : Keeps s0 s) : Keeps s0 (programDone port r s) := by
  unfold programDone
  repeat' first
    | with_reducible apply ckptWritten_keeps
    | with_reducible assumption
    | with_reducible apply appendRecord_keeps
    | with_reducible apply updSeg_keeps
    | with_reducible apply sealComplete_keeps
    | split
theorem eraseReturned_keeps {s0 s : State} (port : Nat) (r : Req) (hk : Keeps s0 s) : Keeps s0 (eraseReturned port r s) := by
  unfold eraseReturned
  repeat' first
    | with_reducible assumption
    | with_reducible apply updBand_keeps
    | with_reducible apply erasesDone_keeps
    | with_reducible refine Keeps.ite (fun _ => ?_) (fun _ => ?_)
theorem eraseOwed_keeps {s0 s : State} (port : Nat) (r : Req) (hk : Keeps s0 s) : Keeps s0 (eraseOwed port r s) := by
  unfold eraseOwed
  repeat' first
    | with_reducible apply eraseReturned_keeps
    | with_reducible refine Keeps.ite (fun _ => ?_) (fun _ => ?_)
    | (with_reducible refine Keeps.lit hk ?_ ?_ ?_ ?_ ?_ ?_ ?_ ?_ ?_ ?_ ?_ <;> rfl)
theorem wearWarning_keeps {s0 s : State} (port : Nat) (hk : Keeps s0 s) : Keeps s0 (wearWarning port s) := by
  unfold wearWarning
  repeat' first
    | with_reducible assumption
    | with_reducible apply countEvent_keeps
    | with_reducible apply updPack_keeps
    | with_reducible refine Keeps.ite (fun _ => ?_) (fun _ => ?_)
    | split
theorem eraseDone_keeps {s0 s : State} (port : Nat) (r : Req) (hk : Keeps s0 s) : Keeps s0 (eraseDone port r s) := by
  unfold eraseDone
  repeat' first
    | with_reducible assumption
    | with_reducible apply updPackNow_keeps
    | with_reducible apply eraseReturned_keeps
    | with_reducible apply wearWarning_keeps
    | (with_reducible refine Keeps.lit (setReads_keeps _ _ _ ?_) ?_ ?_ ?_ ?_ ?_ ?_ ?_ ?_ ?_ ?_ ?_ <;> try rfl)
theorem eraseFailed_keeps {s0 s : State} (port : Nat) (r : Req) (hk : Keeps s0 s) : Keeps s0 (eraseFailed port r s) := by
  unfold eraseFailed
  repeat' first
    | with_reducible assumption
    | with_reducible apply countEvent_keeps
    | with_reducible apply ckptFailed_keeps
    | with_reducible apply eraseReturned_keeps
    | with_reducible refine Keeps.ite (fun _ => ?_) (fun _ => ?_)
    | (with_reducible refine Keeps.lit (updPackNow_keeps _ _ ?_) ?_ ?_ ?_ ?_ ?_ ?_ ?_ ?_ ?_ ?_ ?_ <;> try rfl)
theorem reconstructRead_keeps {s0 s : State} (r : Req) (hk : Keeps s0 s) : Keeps s0 (reconstructRead r s) := by
  unfold reconstructRead
  repeat' first
    | with_reducible assumption
    | with_reducible apply readStrip_keeps
    | with_reducible refine Keeps.foldl _ (fun s a h => ?_) ?_
    | with_reducible refine Keeps.ite (fun _ => ?_) (fun _ => ?_)
    | split
theorem outcomeLost_keeps {s0 s : State} (port : Nat) (r : Req) (blame : Bool) (hk : Keeps s0 s) : Keeps s0 (outcomeLost port r blame s) := by
  unfold outcomeLost
  repeat' first
    | with_reducible assumption
    | with_reducible apply respondPeer_keeps
    | with_reducible apply programFailed_keeps
    | with_reducible apply eraseOwed_keeps
    | with_reducible apply reconstructRead_keeps
    | with_reducible refine Keeps.ite (fun _ => ?_) (fun _ => ?_)
theorem linkFrame_keeps {s0 s : State} (n : Nat) (kind : Nat) (seq : Nat) (hk : Keeps s0 s) : Keeps s0 (linkFrame n kind seq s) := by
  unfold linkFrame
  repeat' first
    | with_reducible assumption
    | with_reducible apply emit_keeps
    | with_reducible apply updPort_keeps
theorem creditFrame_keeps {s0 s : State} (n : Nat) (vc : Nat) (hk : Keeps s0 s) : Keeps s0 (creditFrame n vc s) := by
  unfold creditFrame
  repeat' first
    | with_reducible assumption
    | with_reducible apply emit_keeps
    | with_reducible apply updPort_keeps
theorem linkDown_keeps {s0 s : State} (n : Nat) (hk : Keeps s0 s) : Keeps s0 (linkDown n s) := by
  unfold linkDown
  repeat' first
    | with_reducible assumption
    | with_reducible apply countEvent_keeps
    | with_reducible apply updPort_keeps
    | with_reducible apply checkFence_keeps
    | with_reducible apply updateMember_keeps
    | with_reducible apply outcomeLost_keeps
    | with_reducible refine Keeps.foldl _ (fun s a h => ?_) ?_
    | with_reducible refine Keeps.ite (fun _ => ?_) (fun _ => ?_)
theorem enterRecovery_keeps {s0 s : State} (n : Nat) (hk : Keeps s0 s) : Keeps s0 (enterRecovery n s) := by
  unfold enterRecovery
  repeat' first
    | with_reducible assumption
    | with_reducible apply countEvent_keeps
    | with_reducible apply updPort_keeps
    | with_reducible apply linkDown_keeps
    | with_reducible refine Keeps.ite (fun _ => ?_) (fun _ => ?_)
theorem protocolError_keeps {s0 s : State} (n : Nat) (hk : Keeps s0 s) : Keeps s0 (protocolError n s) := by
  unfold protocolError
  repeat' first
    | with_reducible assumption
    | with_reducible apply countEvent_keeps
    | with_reducible apply updPort_keeps
    | with_reducible apply enterRecovery_keeps
theorem heard_keeps {s0 s : State} (n : Nat) (hk : Keeps s0 s) : Keeps s0 (heard n s) := by
  unfold heard
  repeat' first
    | with_reducible assumption
    | with_reducible apply updPort_keeps
theorem replayed_keeps {s0 s : State} (n : Nat) (hk : Keeps s0 s) : Keeps s0 (replayed n s) := by
  unfold replayed
  repeat' first
    | with_reducible assumption
    | with_reducible apply updPort_keeps
    | with_reducible apply enterRecovery_keeps
    | with_reducible refine Keeps.ite (fun _ => ?_) (fun _ => ?_)
theorem lostAuthority_keeps {s0 s : State}  (hk : Keeps s0 s) : Keeps s0 (lostAuthority s) := by
  unfold lostAuthority
  repeat' first
    | with_reducible assumption
    | with_reducible apply countEvent_keeps
    | with_reducible apply failSilent_keeps
theorem closedPort_keeps {s0 s : State} (n : Nat) (fresh : Bool) (hk : Keeps s0 s) : Keeps s0 (closedPort n fresh s) := by
  unfold closedPort
  repeat' first
    | with_reducible assumption
    | with_reducible apply updateMember_keeps
    | with_reducible apply lostAuthority_keeps
    | with_reducible refine Keeps.ite (fun _ => ?_) (fun _ => ?_)
theorem skFenced_keeps {s0 s : State} (n : Nat) (hk : Keeps s0 s) : Keeps s0 (skFenced n s) := by
  unfold skFenced
  repeat' first
    | with_reducible apply closedPort_keeps
    | with_reducible assumption
    | with_reducible apply countEvent_keeps
    | with_reducible apply updPort_keeps
    | with_reducible apply updateMember_keeps
    | with_reducible apply lostAuthority_keeps
    | with_reducible refine Keeps.ite (fun _ => ?_) (fun _ => ?_)
theorem commonStatus_keeps {s0 s t : State} (n st : Nat) (r : Req) (hk : Keeps s0 s) (ht : commonStatus n st r s = some t) :
    Keeps s0 t := by
  unfold commonStatus at ht
  repeat' (split at ht)
  · cases ht; exact outcomeLost_keeps _ _ _ (countEvent_keeps _ _ hk)
  · cases ht; exact sendReq_keeps _ _ hk
  · cases ht
    have h := outcomeLost_keeps n r false (countEvent_keeps 0x0C5 0 hk)
    dsimp only
    split
    · exact lostAuthority_keeps h
    · exact h
  · cases ht; exact outcomeLost_keeps _ _ _ (skFenced_keeps _ hk)
  · cases ht; exact outcomeLost_keeps _ _ _ (sendReq_keeps _ _ hk)
  · cases ht
theorem startNext_keeps {s0 s : State} (n step : Nat) (hk : Keeps s0 s) : Keeps s0 (startNext n step s) := by
  unfold startNext
  repeat' first
    | with_reducible assumption
    | with_reducible apply sendReq_keeps
    | with_reducible apply updPort_keeps
    | with_reducible apply updateMember_keeps
    | with_reducible apply fenceLate_keeps
    | with_reducible refine Keeps.ite (fun _ => ?_) (fun _ => ?_)
    | (dsimp only)
theorem startError_keeps {s0 s : State} (n step status : Nat) (hk : Keeps s0 s) : Keeps s0 (startError n step status s) := by
  unfold startError
  exact Keeps.ite (fun _ => startNext_keeps _ _ hk) (fun _ => hk)
theorem identReply_keeps {s0 s : State} (n : Nat) (status : Nat) (i : Ident) (r : Req) (hk : Keeps s0 s) : Keeps s0 (identReply n status i r s) := by
  unfold identReply
  repeat' first
    | with_reducible apply startError_keeps
    | with_reducible apply startNext_keeps
    | with_reducible assumption
    | with_reducible apply countIf_keeps
    | with_reducible apply updPort_keeps
    | with_reducible apply updateMember_keeps
    | with_reducible apply closedPort_keeps
    | exact commonStatus_keeps _ _ _ (by first | with_reducible assumption | exact hk) (by assumption)
    | with_reducible refine Keeps.ite (fun _ => ?_) (fun _ => ?_)
    | split
theorem geomReply_keeps {s0 s : State} (n : Nat) (status : Nat) (g : Geom) (r : Req) (hk : Keeps s0 s) : Keeps s0 (geomReply n status g r s) := by
  unfold geomReply
  repeat' first
    | with_reducible apply startError_keeps
    | with_reducible apply startNext_keeps
    | with_reducible assumption
    | with_reducible apply countIf_keeps
    | with_reducible apply updPort_keeps
    | exact commonStatus_keeps _ _ _ (by first | with_reducible assumption | exact hk) (by assumption)
    | split
theorem measurePack_keeps {s0 s : State} (n : Nat) (hash : List Byte) (version : Nat) (svn : Nat) (slot : Nat) (hk : Keeps s0 s) : Keeps s0 (measurePack n hash version svn slot s) := by
  unfold measurePack
  repeat' first
    | with_reducible assumption
    | with_reducible apply recordMeas_keeps
    | with_reducible apply lateMeasurement_keeps
theorem backToPlacement_keeps {s0 s : State} (n : Nat) (hk : Keeps s0 s) : Keeps s0 (backToPlacement n s) := by
  unfold backToPlacement
  repeat' first
    | with_reducible apply appendOp_keeps
    | with_reducible apply updPackNow_keeps
    | (with_reducible refine Keeps.lit hk ?_ ?_ ?_ ?_ ?_ ?_ ?_ ?_ ?_ ?_ ?_ <;> rfl)
theorem packLoadDone_keeps {s0 s : State} (n : Nat) (hk : Keeps s0 s) : Keeps s0 (packLoadDone n s) := by
  unfold packLoadDone
  repeat' first
    | with_reducible assumption
    | with_reducible apply endLongOp_keeps
    | with_reducible apply backToPlacement_keeps
    | with_reducible apply borderEvent_keeps
    | split
theorem raisePackFloor_keeps {s0 s : State} (hk : Keeps s0 s) : Keeps s0 (raisePackFloor s) := by
  unfold raisePackFloor
  split
  · split
    · exact raiseFloor_keeps _ _ hk
    · exact hk
  · exact hk
theorem measureReply_keeps {s0 s : State} (n : Nat) (status : Nat) (hash : List Byte) (version : Nat) (svn : Nat) (slot : Nat) (r : Req) (hk : Keeps s0 s) : Keeps s0 (measureReply n status hash version svn slot r s) := by
  unfold measureReply
  repeat' first
    | with_reducible apply startError_keeps
    | with_reducible apply startNext_keeps
    | with_reducible assumption
    | with_reducible apply measurePack_keeps
    | with_reducible apply packLoadDone_keeps
    | with_reducible apply raisePackFloor_keeps
    | exact commonStatus_keeps _ _ _ (by first | with_reducible assumption | exact hk) (by assumption)
    | split
theorem healthReply_keeps {s0 s : State} (n status : Nat) (failed : Bool) (r : Req) (hk : Keeps s0 s) :
    Keeps s0 (healthReply n status failed r s) := by
  have h1 : Keeps s0 (startNext n 3 s) := startNext_keeps _ _ hk
  unfold healthReply
  split
  · rename_i t ht
    refine startError_keeps _ _ _ ?_
    split at ht
    · cases ht
    · exact commonStatus_keeps _ _ _ hk ht
  · dsimp only
    generalize startNext n 3 s = t at h1
    split <;> split <;> first
      | exact declareFailed_keeps _ _ h1
      | exact h1
theorem pageRead_keeps {s0 s : State} (n : Nat) (count : Nat) (r : Req) (hk : Keeps s0 s) : Keeps s0 (pageRead n count r s) := by
  unfold pageRead
  repeat' first
    | with_reducible assumption
    | with_reducible apply countEvent_keeps
    | with_reducible apply updBand_keeps
    | with_reducible refine Keeps.ite (fun _ => ?_) (fun _ => ?_)
    | (with_reducible refine Keeps.lit (updPack_keeps _ _ _ ?_) ?_ ?_ ?_ ?_ ?_ ?_ ?_ ?_ ?_ ?_ ?_ <;> try rfl)
    | split
theorem relayReply_keeps {s0 s : State} (n : Nat) (status : Nat) (value : Nat) (len : Nat) (hk : Keeps s0 s) :
    Keeps s0 (relayReply n status value len s) := by
  unfold relayReply
  repeat' first
    | with_reducible assumption
    | (with_reducible refine Keeps.lit hk ?_ ?_ ?_ ?_ ?_ ?_ ?_ ?_ ?_ ?_ ?_ <;> rfl)
    | with_reducible apply respondPeer_keeps
    | with_reducible apply updPackNow_keeps
    | with_reducible refine Keeps.ite (fun _ => ?_) (fun _ => ?_)
theorem stagingBegins_keeps {s0 s : State} (r : Req) (hk : Keeps s0 s) : Keeps s0 (stagingBegins r s) := by
  unfold stagingBegins
  repeat' first
    | with_reducible assumption
    | with_reducible apply updTag_keeps
    | with_reducible refine Keeps.ite (fun _ => ?_) (fun _ => ?_)
theorem readReply_keeps {s0 s : State} (n : Nat) (status : Nat) (value : Nat) (checkOk : Bool) (r : Req) (hk : Keeps s0 s) : Keeps s0 (readReply n status value checkOk r s) := by
  unfold readReply
  repeat' first
    | with_reducible assumption
    | with_reducible apply updPackNow_keeps
    | with_reducible apply strikeUnreadable_keeps
    | with_reducible apply markBad_keeps
    | with_reducible apply reconstructRead_keeps
    | with_reducible apply pageRead_keeps
    | with_reducible apply relayReply_keeps
    | with_reducible apply stagingBegins_keeps
    | refine Keeps.getD ?_ (fun t ht => commonStatus_keeps _ _ _ hk ht)
    | with_reducible refine Keeps.ite (fun _ => ?_) (fun _ => ?_)
theorem programReply_keeps {s0 s : State} (n : Nat) (status : Nat) (r : Req) (hk : Keeps s0 s) : Keeps s0 (programReply n status r s) := by
  unfold programReply
  repeat' first
    | with_reducible assumption
    | with_reducible apply programFailed_keeps
    | with_reducible apply programDone_keeps
    | refine Keeps.getD ?_ (fun t ht => commonStatus_keeps _ _ _ hk ht)
    | with_reducible refine Keeps.ite (fun _ => ?_) (fun _ => ?_)
theorem eraseReply_keeps {s0 s : State} (n : Nat) (status : Nat) (r : Req) (hk : Keeps s0 s) : Keeps s0 (eraseReply n status r s) := by
  unfold eraseReply
  repeat' first
    | with_reducible assumption
    | with_reducible apply eraseDone_keeps
    | with_reducible apply eraseFailed_keeps
    | refine Keeps.getD ?_ (fun t ht => commonStatus_keeps _ _ _ hk ht)
    | with_reducible refine Keeps.ite (fun _ => ?_) (fun _ => ?_)
theorem tempReply_keeps {s0 s : State} (n : Nat) (status : Nat) (temp : Int) (r : Req) (hk : Keeps s0 s) : Keeps s0 (tempReply n status temp r s) := by
  unfold tempReply
  repeat' first
    | with_reducible assumption
    | with_reducible apply updPackNow_keeps
    | refine Keeps.getD ?_ (fun t ht => commonStatus_keeps _ _ _ hk ht)
    | with_reducible refine Keeps.ite (fun _ => ?_) (fun _ => ?_)
theorem applyPackFwLoad_keeps {s0 s : State} (d : Decision) (hk : Keeps s0 s) : Keeps s0 (applyPackFwLoad d s) := by
  unfold applyPackFwLoad
  repeat' first
    | with_reducible assumption
    | with_reducible apply sendReq_keeps
    | with_reducible apply sealRowsOf_keeps
    | (with_reducible refine Keeps.lit (appendOp_keeps _ _ _ _ _ (updPackNow_keeps _ _ ?_)) ?_ ?_ ?_ ?_ ?_ ?_ ?_ ?_ ?_ ?_ ?_ <;> try rfl)
    | split
theorem packLoadFails_keeps {s0 s : State} (n : Nat) (status : Nat) (detail : Nat) (hk : Keeps s0 s) : Keeps s0 (packLoadFails n status detail s) := by
  unfold packLoadFails
  repeat' first
    | with_reducible assumption
    | with_reducible apply endLongOp_keeps
    | with_reducible apply backToPlacement_keeps
theorem loadReply_keeps {s0 s : State} (n : Nat) (status : Nat) (r : Req) (hk : Keeps s0 s) : Keeps s0 (loadReply n status r s) := by
  unfold loadReply
  repeat' first
    | with_reducible assumption
    | with_reducible apply packLoadFails_keeps
    | refine Keeps.getD ?_ (fun t ht => commonStatus_keeps _ _ _ hk ht)
    | with_reducible refine Keeps.ite (fun _ => ?_) (fun _ => ?_)

end Sys2Proof.Machine
end

