-- ==== Sys2Proof/Laws/KeepsPeer.lean ====
section
/-! SUPPORT. The operations of the system, the peer link, the cipher engine and the Data Mover keep what Keeps says. -/

namespace Sys2Proof.Machine

set_option linter.unusedVariables false

/-! ### System -/

theorem applyGetNonce_keeps {s0 s : State} (c : Cmd) (d : Decision) (hk : Keeps s0 s) : Keeps s0 (applyGetNonce c d s) := by
  unfold applyGetNonce
  repeat' first
    | with_reducible apply updRing_keeps
    | (with_reducible refine Keeps.lit hk ?_ ?_ ?_ ?_ ?_ ?_ ?_ ?_ ?_ ?_ ?_ <;> rfl)
theorem applySessionOpen_keeps {s0 s : State} (c : Cmd) (d : Decision) (hk : Keeps s0 s) : Keeps s0 (applySessionOpen c d s) := by
  unfold applySessionOpen
  repeat' first
    | with_reducible apply updRing_keeps
    | with_reducible refine Keeps.ite (fun _ => ?_) (fun _ => ?_)
    | (with_reducible refine Keeps.lit hk ?_ ?_ ?_ ?_ ?_ ?_ ?_ ?_ ?_ ?_ ?_ <;> rfl)
    | (dsimp only)
theorem applySessionClose_keeps {s0 s : State} (c : Cmd) (hk : Keeps s0 s) : Keeps s0 (applySessionClose c s) := by
  unfold applySessionClose
  repeat' first
    | with_reducible assumption
    | with_reducible apply endSession_keeps
    | with_reducible refine Keeps.ite (fun _ => ?_) (fun _ => ?_)
theorem applyServiceStart_keeps {s0 s : State}  (hk : Keeps s0 s) : Keeps s0 (applyServiceStart s) := by
  unfold applyServiceStart
  repeat' first
    | with_reducible assumption
    | with_reducible apply raiseRequested_keeps
    | (with_reducible refine Keeps.lit (Keeps.ite (fun _ => ?_) (fun _ => ?_)) ?_ ?_ ?_ ?_ ?_ ?_ ?_ ?_ ?_ ?_ ?_ <;> try rfl)
theorem applyServiceStop_keeps {s0 s : State}  (hk : Keeps s0 s) : Keeps s0 (applyServiceStop s) := by
  unfold applyServiceStop
  repeat' first
    | (with_reducible refine Keeps.lit hk ?_ ?_ ?_ ?_ ?_ ?_ ?_ ?_ ?_ ?_ ?_ <;> rfl)
theorem driveLanes_keeps {s0 s : State}  (hk : Keeps s0 s) : Keeps s0 (driveLanes s) := by
  unfold driveLanes
  repeat' first
    | with_reducible assumption
    | with_reducible apply emit_keeps
theorem applyPortEnable_keeps {s0 s : State} (c : Cmd) (hk : Keeps s0 s) : Keeps s0 (applyPortEnable c s) := by
  unfold applyPortEnable
  repeat' first
    | with_reducible apply driveLanes_keeps
    | (with_reducible refine Keeps.lit hk ?_ ?_ ?_ ?_ ?_ ?_ ?_ ?_ ?_ ?_ ?_ <;> rfl)
theorem applyDeviceDoze_keeps {s0 s : State}  (hk : Keeps s0 s) : Keeps s0 (applyDeviceDoze s) := by
  unfold applyDeviceDoze
  repeat' first
    | (with_reducible refine Keeps.lit hk ?_ ?_ ?_ ?_ ?_ ?_ ?_ ?_ ?_ ?_ ?_ <;> rfl)

/-! ### Peer -/

theorem sendHello_keeps {s0 s : State}  (hk : Keeps s0 s) : Keeps s0 (sendHello s) := by
  unfold sendHello
  repeat' first
    | with_reducible apply sendPeer_keeps
    | with_reducible refine Keeps.ite (fun _ => ?_) (fun _ => ?_)
    | (with_reducible refine Keeps.lit hk ?_ ?_ ?_ ?_ ?_ ?_ ?_ ?_ ?_ ?_ ?_ <;> rfl)
theorem transferFails_keeps {s0 s : State} (detail : Nat) (hk : Keeps s0 s) : Keeps s0 (transferFails detail s) := by
  unfold transferFails
  repeat' first
    | with_reducible apply endTwoPart_keeps
    | (with_reducible refine Keeps.lit hk ?_ ?_ ?_ ?_ ?_ ?_ ?_ ?_ ?_ ?_ ?_ <;> rfl)
    | split
theorem requestLost_keeps {s0 s : State} (r : PeerReq) (hk : Keeps s0 s) : Keeps s0 (requestLost r s) := by
  unfold requestLost
  repeat' first
    | with_reducible assumption
    | with_reducible apply endTag_keeps
    | with_reducible apply storeUnique_keeps
    | with_reducible apply takeDecision_keeps
    | with_reducible apply dropLocks_keeps
    | with_reducible apply reconstructRead_keeps
    | with_reducible refine Keeps.ite (fun _ => ?_) (fun _ => ?_)
    | split
theorem endPairing_keeps {s0 s : State} (f : State → State) (hk : Keeps s0 s) (hf : ∀ s, Keeps s0 s → Keeps s0 (f s)) :
    Keeps s0 (endPairing f s) := by
  unfold endPairing
  split
  · exact withAccess_keeps f hk hf
  · dsimp only
    apply settle_keeps
    have h : Keeps s0 (withAccess (fun s =>
      updateMembers (List.foldl (fun s r => requestLost r s) (transferFails 0 (endSession 62 (f { s with
        hdl.paired := false, hdl.bridge := false, hdl.peerHello := none, hdl.confirmSent := false, hdl.peerHealth := none
        hdl.healthAbsent := false, hdl.transferIn := false, hdl.reqs := [] }))) s.hdl.reqs)) s) := by
      refine withAccess_keeps _ hk (fun s h => ?_)
      apply updateMembers_keeps
      refine Keeps.foldl _ (fun s a h => requestLost_keeps _ h) ?_
      apply transferFails_keeps
      apply endSession_keeps
      exact hf _ (h.upd rfl rfl rfl rfl rfl rfl rfl rfl rfl rfl rfl rfl)
    split
    · exact mirrorLoss_keeps h
    · exact h
theorem refusePairing_keeps {s0 s : State} (n : Nat) (hk : Keeps s0 s) : Keeps s0 (refusePairing n s) := by
  unfold refusePairing
  repeat' first
    | with_reducible assumption
    | with_reducible apply countEvent_keeps
    | with_reducible apply sendPeer_keeps
    | with_reducible apply recordMeas_keeps
    | (with_reducible refine Keeps.lit (Keeps.ite (fun _ => ?_) (fun _ => ?_)) ?_ ?_ ?_ ?_ ?_ ?_ ?_ ?_ ?_ ?_ ?_ <;> try rfl)
theorem answerHello_keeps {s0 s : State} (hello : Hello) (hk : Keeps s0 s) : Keeps s0 (answerHello hello s) := by
  unfold answerHello
  repeat' first
    | with_reducible assumption
    | with_reducible apply sendPeer_keeps
    | with_reducible apply refusePairing_keeps
    | with_reducible refine Keeps.ite (fun _ => ?_) (fun _ => ?_)
    | (with_reducible refine Keeps.lit hk ?_ ?_ ?_ ?_ ?_ ?_ ?_ ?_ ?_ ?_ ?_ <;> rfl)
    | (dsimp only)
    | split
theorem recordPeer_keeps {s0 s : State} (h : Hello) (hk : Keeps s0 s) : Keeps s0 (recordPeer h s) := by
  unfold recordPeer
  repeat' first
    | with_reducible apply setPidBlock_keeps
    | with_reducible apply borderEvent_keeps
    | (with_reducible refine Keeps.lit hk ?_ ?_ ?_ ?_ ?_ ?_ ?_ ?_ ?_ ?_ ?_ <;> rfl)
    | split
theorem bindPeerRing_keeps {s0 s : State}  (hk : Keeps s0 s) : Keeps s0 (bindPeerRing s) := by
  unfold bindPeerRing
  repeat' first
    | with_reducible assumption
    | with_reducible apply updRing_keeps
    | with_reducible refine Keeps.ite (fun _ => ?_) (fun _ => ?_)
    | (with_reducible refine Keeps.lit hk ?_ ?_ ?_ ?_ ?_ ?_ ?_ ?_ ?_ ?_ ?_ <;> rfl)
theorem startMirror_keeps {s0 s : State}  (hk : Keeps s0 s) : Keeps s0 (startMirror s) := by
  unfold startMirror
  repeat' first
    | with_reducible apply catchUpEnds_keeps
    | with_reducible assumption
    | with_reducible apply sendRecord_keeps
    | with_reducible refine Keeps.foldl _ (fun s a h => ?_) ?_
    | with_reducible refine Keeps.ite (fun _ => ?_) (fun _ => ?_)
    | (with_reducible refine Keeps.lit hk ?_ ?_ ?_ ?_ ?_ ?_ ?_ ?_ ?_ ?_ ?_ <;> rfl)
theorem sendAuthority_keeps {s0 s : State}  (hk : Keeps s0 s) : Keeps s0 (sendAuthority s) := by
  unfold sendAuthority
  repeat' first
    | with_reducible assumption
    | with_reducible apply sendPeer_keeps
    | with_reducible refine Keeps.foldl _ (fun s a h => ?_) ?_
    | with_reducible refine Keeps.ite (fun _ => ?_) (fun _ => ?_)
theorem idleStake_keeps {s0 s : State}  (hk : Keeps s0 s) : Keeps s0 (idleStake s) := by
  unfold idleStake
  repeat' first
    | (with_reducible refine Keeps.lit hk ?_ ?_ ?_ ?_ ?_ ?_ ?_ ?_ ?_ ?_ ?_ <;> rfl)
theorem pairUp_keeps {s0 s : State} (p : Hello) (hk : Keeps s0 s) : Keeps s0 (pairUp p s) := by
  unfold pairUp
  dsimp only
  refine withAccess_keeps _ hk (fun s h => ?_)
  repeat' first
    | with_reducible apply idleStake_keeps
    | with_reducible apply updateMembers_keeps
    | with_reducible apply sendAuthority_keeps
    | with_reducible apply startMirror_keeps
    | with_reducible apply policyChanged_keeps
    | with_reducible apply bindPeerRing_keeps
    | with_reducible apply recordPeer_keeps
    | with_reducible apply lateMeasurement_keeps
    | with_reducible apply recordMeas_keeps
    | with_reducible refine Keeps.ite (fun _ => ?_) (fun _ => ?_)
    | (with_reducible refine Keeps.lit h ?_ ?_ ?_ ?_ ?_ ?_ ?_ ?_ ?_ ?_ ?_ <;> rfl)
theorem peerProtocolError_keeps {s0 s : State}  (hk : Keeps s0 s) : Keeps s0 (peerProtocolError s) := by
  unfold peerProtocolError
  repeat' first
    | with_reducible apply countEvent_keeps
    | (with_reducible refine Keeps.lit hk ?_ ?_ ?_ ?_ ?_ ?_ ?_ ?_ ?_ ?_ ?_ <;> rfl)
theorem applyDecision_keeps {s0 s : State} (d : AuthDecision) (hk : Keeps s0 s) : Keeps s0 (applyDecision d s) := by
  unfold applyDecision
  repeat' first
    | with_reducible apply admitPack_keeps
    | with_reducible apply retirePack_keeps
    | with_reducible apply startLayout_keeps
    | with_reducible apply reverseLayout_keeps
    | with_reducible apply switchGens_keeps
    | with_reducible apply endReverse_keeps
    | with_reducible apply memberFailed_keeps
    | split
    | (with_reducible refine Keeps.lit hk ?_ ?_ ?_ ?_ ?_ ?_ ?_ ?_ ?_ ?_ ?_ <;> rfl)
    | exact Keeps.lits hk rfl rfl (Nat.le_refl _) (Nat.le_max_left _ _) id id id rfl id id id
theorem closeOwnSegments_keeps {s0 s : State}  (hk : Keeps s0 s) : Keeps s0 (closeOwnSegments s) := by
  unfold closeOwnSegments
  repeat' first
    | with_reducible assumption
    | (with_reducible refine Keeps.lit (replaySegments_keeps ?_) ?_ ?_ ?_ ?_ ?_ ?_ ?_ ?_ ?_ ?_ ?_ <;> try rfl)
theorem askFenced_keeps {s0 s : State}  (hk : Keeps s0 s) : Keeps s0 (askFenced s) := by
  unfold askFenced
  repeat' first
    | with_reducible assumption
    | with_reducible apply sendReq_keeps
    | with_reducible refine Keeps.foldl _ (fun s a h => ?_) ?_
    | with_reducible refine Keeps.ite (fun _ => ?_) (fun _ => ?_)
theorem compareDigest_keeps {s0 s : State} (h : Health) (hk : Keeps s0 s) : Keeps s0 (compareDigest h s) := by
  unfold compareDigest
  repeat' first
    | with_reducible apply countEvent_keeps
    | with_reducible refine Keeps.ite (fun _ => ?_) (fun _ => ?_)
    | (with_reducible refine Keeps.lit hk ?_ ?_ ?_ ?_ ?_ ?_ ?_ ?_ ?_ ?_ ?_ <;> rfl)

/-! ### Cipher -/

theorem installKey_keeps {s0 s : State} (slot : Nat) (usage : Nat) (attrs : Nat) (salt : Nat) (key : List Byte) (hk : Keeps s0 s) : Keeps s0 (installKey slot usage attrs salt key s) := by
  unfold installKey
  repeat' first
    | with_reducible apply putUsage_keeps
    | with_reducible refine Keeps.ite (fun _ => ?_) (fun _ => ?_)
    | (with_reducible refine Keeps.lit hk ?_ ?_ ?_ ?_ ?_ ?_ ?_ ?_ ?_ ?_ ?_ <;> rfl)
theorem drewKey_keeps {s0 s : State}  (hk : Keeps s0 s) : Keeps s0 (drewKey s) := by
  unfold drewKey
  repeat' first
    | (with_reducible refine Keeps.lit hk ?_ ?_ ?_ ?_ ?_ ?_ ?_ ?_ ?_ ?_ ?_ <;> rfl)
theorem sendKey_keeps {s0 s : State} (c : Cmd) (key : List Byte) (hk : Keeps s0 s) : Keeps s0 (sendKey c key s) := by
  unfold sendKey
  repeat' first
    | with_reducible assumption
    | with_reducible apply requestPeer_keeps
theorem applyKeyGenerate_keeps {s0 s : State} (d : Decision) (hk : Keeps s0 s) : Keeps s0 (applyKeyGenerate d s) := by
  unfold applyKeyGenerate
  repeat' first
    | with_reducible apply installKey_keeps
    | (with_reducible refine Keeps.lit hk ?_ ?_ ?_ ?_ ?_ ?_ ?_ ?_ ?_ ?_ ?_ <;> rfl)
    | split
theorem keyAnswered_keeps {s0 s : State} (r : PeerReq) (status : Nat) (blob : List Byte) (hk : Keeps s0 s) : Keeps s0 (keyAnswered r status blob s) := by
  unfold keyAnswered
  repeat' first
    | with_reducible assumption
    | with_reducible apply takeDecision_keeps
    | split
theorem applyKeyLoad_keeps {s0 s : State} (d : Decision) (hk : Keeps s0 s) : Keeps s0 (applyKeyLoad d s) := by
  unfold applyKeyLoad
  repeat' first
    | with_reducible assumption
    | with_reducible apply applyKeyGenerate_keeps
theorem applyKeyDestroy_keeps {s0 s : State} (d : Decision) (hk : Keeps s0 s) : Keeps s0 (applyKeyDestroy d s) := by
  unfold applyKeyDestroy
  repeat' first
    | with_reducible assumption
    | with_reducible apply appendOp_keeps
    | with_reducible apply withAccess_keeps
    | with_reducible apply destroyKey_keeps
    | (intro s h)
    | split
theorem tagFailed_keeps {s0 s : State}  (hk : Keeps s0 s) : Keeps s0 (tagFailed s) := by
  unfold tagFailed
  repeat' first
    | with_reducible apply countEvent_keeps
    | (with_reducible refine Keeps.lit hk ?_ ?_ ?_ ?_ ?_ ?_ ?_ ?_ ?_ ?_ ?_ <;> rfl)

/-! ### Dmv -/

theorem updLane_keeps {s0 s : State} (n : Nat) (f : Lane → Lane) (hk : Keeps s0 s) : Keeps s0 (updLane n f s) := by
  unfold updLane
  repeat' first
    | (with_reducible refine Keeps.lit hk ?_ ?_ ?_ ?_ ?_ ?_ ?_ ?_ ?_ ?_ ?_ <;> rfl)
theorem placeDmvRecord_keeps {s0 s : State} (n : Nat) (r : Nat × Nat × Nat × Nat) (hk : Keeps s0 s) : Keeps s0 (placeDmvRecord n r s) := by
  unfold placeDmvRecord
  repeat' first
    | with_reducible assumption
    | with_reducible apply emit_keeps
    | with_reducible apply updLane_keeps
theorem svcRecord_keeps {s0 s : State} (n : Nat) (r : Nat × Nat × Nat × Nat) (hk : Keeps s0 s) : Keeps s0 (svcRecord n r s) := by
  unfold svcRecord
  repeat' first
    | with_reducible assumption
    | with_reducible apply updLane_keeps
    | with_reducible apply placeDmvRecord_keeps
    | with_reducible refine Keeps.ite (fun _ => ?_) (fun _ => ?_)
theorem endRecord_keeps {s0 s : State} (n : Nat) (r : Running) (status : Nat) (detail : Nat) (hk : Keeps s0 s) : Keeps s0 (endRecord n r status detail s) := by
  unfold endRecord
  repeat' first
    | with_reducible assumption
    | with_reducible apply rimPost_keeps
    | with_reducible apply updLane_keeps
    | with_reducible apply svcRecord_keeps
    | with_reducible refine Keeps.ite (fun _ => ?_) (fun _ => ?_)
theorem endRun_keeps {s0 s : State} (n : Nat) (status : Nat) (detail : Nat) (hk : Keeps s0 s) : Keeps s0 (endRun n status detail s) := by
  unfold endRun
  repeat' first
    | with_reducible assumption
    | with_reducible apply updLane_keeps
    | with_reducible apply endRecord_keeps
    | split
theorem completeRun_keeps {s0 s : State} (n : Nat) (hk : Keeps s0 s) : Keeps s0 (completeRun n s) := by
  unfold completeRun
  repeat' first
    | with_reducible assumption
    | with_reducible apply updLane_keeps
    | with_reducible apply endRun_keeps
theorem passFences_keeps {s0 s : State}  (hk : Keeps s0 s) : Keeps s0 (passFences s) := by
  unfold passFences
  repeat' first
    | with_reducible assumption
    | with_reducible apply completeRun_keeps
    | with_reducible refine Keeps.foldl _ (fun s a h => ?_) ?_
    | with_reducible refine Keeps.ite (fun _ => ?_) (fun _ => ?_)
theorem nextDescriptor_keeps {s0 s : State} (n : Nat) (hk : Keeps s0 s) : Keeps s0 (nextDescriptor n s) := by
  unfold nextDescriptor
  repeat' first
    | with_reducible assumption
    | with_reducible apply updLane_keeps
    | with_reducible apply rimShift_keeps
    | with_reducible refine Keeps.ite (fun _ => ?_) (fun _ => ?_)
theorem refuseDesc_keeps {s0 s : State} (n : Nat) (op : Nat) (d : DmvDesc) (f : DmvFail) (hk : Keeps s0 s) : Keeps s0 (refuseDesc n op d f s) := by
  unfold refuseDesc
  repeat' first
    | with_reducible apply engineDenied_keeps
    | with_reducible apply endRecord_keeps
    | (with_reducible refine Keeps.lit hk ?_ ?_ ?_ ?_ ?_ ?_ ?_ ?_ ?_ ?_ ?_ <;> rfl)
    | (with_reducible refine Keeps.lit (countEvent_keeps _ _ ?_) ?_ ?_ ?_ ?_ ?_ ?_ ?_ ?_ ?_ ?_ ?_ <;> try rfl)
    | split
theorem issueBurst_keeps {s0 s : State} (lane : Nat) (r : Running) (hk : Keeps s0 s) : Keeps s0 (issueBurst lane r s) := by
  unfold issueBurst
  repeat' first
    | with_reducible apply emit_keeps
    | with_reducible apply updLane_keeps
    | with_reducible apply completeRun_keeps
    | with_reducible refine Keeps.ite (fun _ => ?_) (fun _ => ?_)
    | (with_reducible refine Keeps.lit hk ?_ ?_ ?_ ?_ ?_ ?_ ?_ ?_ ?_ ?_ ?_ <;> rfl)
theorem paceChecks_keeps {s0 s : State} (requests : Nat) (hk : Keeps s0 s) : Keeps s0 (paceChecks requests s) := by
  unfold paceChecks
  repeat' first
    | (with_reducible refine Keeps.lit hk ?_ ?_ ?_ ?_ ?_ ?_ ?_ ?_ ?_ ?_ ?_ <;> rfl)
theorem invalidateRange_keeps {s0 s : State} (a : Nat) (n : Nat) (hk : Keeps s0 s) : Keeps s0 (invalidateRange a n s) := by
  unfold invalidateRange
  repeat' first
    | with_reducible apply countEvent_keeps
    | with_reducible refine Keeps.foldl _ (fun s a h => ?_) ?_
    | with_reducible refine Keeps.ite (fun _ => ?_) (fun _ => ?_)
    | (with_reducible refine Keeps.lit hk ?_ ?_ ?_ ?_ ?_ ?_ ?_ ?_ ?_ ?_ ?_ <;> rfl)
    | (with_reducible refine Keeps.lit h ?_ ?_ ?_ ?_ ?_ ?_ ?_ ?_ ?_ ?_ ?_ <;> rfl)
theorem rangeInvalidate_keeps {s0 s : State} (w : DmvWrite) (hk : Keeps s0 s) : Keeps s0 (rangeInvalidate w s) := by
  unfold rangeInvalidate
  repeat' first
    | with_reducible apply invalidateRange_keeps
    | with_reducible refine Keeps.ite (fun _ => ?_) (fun _ => ?_)
    | (with_reducible refine Keeps.lit hk ?_ ?_ ?_ ?_ ?_ ?_ ?_ ?_ ?_ ?_ ?_ <;> rfl)
theorem arriveWrite_keeps {s0 s : State} (w : DmvWrite) (hk : Keeps s0 s) : Keeps s0 (arriveWrite w s) := by
  unfold arriveWrite
  split
  · exact hk
  · dsimp only
    have h := hk.writeMem w.addr w.bytes
    split
    · exact invalidateRange_keeps _ _ (rangeInvalidate_keeps _ h)
    · exact h
theorem postNotices_keeps {s0 s : State} (lane : Nat) (hk : Keeps s0 s) : Keeps s0 (postNotices lane s) := by
  unfold postNotices
  repeat' first
    | with_reducible assumption
    | with_reducible apply rimPost_keeps
    | with_reducible apply updLane_keeps
    | with_reducible refine Keeps.foldl _ (fun s a h => ?_) ?_
theorem stopLane_keeps {s0 s : State} (n : Nat) (hk : Keeps s0 s) : Keeps s0 (stopLane n s) := by
  unfold stopLane
  repeat' first
    | with_reducible assumption
    | with_reducible apply updLane_keeps
theorem svcCfgWrite_keeps {s0 s : State} (n : Nat) (v : Nat) (hk : Keeps s0 s) : Keeps s0 (svcCfgWrite n v s) := by
  unfold svcCfgWrite
  repeat' first
    | with_reducible assumption
    | with_reducible apply updLane_keeps
    | with_reducible apply stopLane_keeps
    | with_reducible refine Keeps.ite (fun _ => ?_) (fun _ => ?_)
theorem releaseRecords_keeps {s0 s : State} (n : Nat) (a0 : Nat) (hk : Keeps s0 s) : Keeps s0 (releaseRecords n a0 s) := by
  induction a0 generalizing s with
  | zero => unfold releaseRecords; exact hk
  | succ k ih =>
    unfold releaseRecords
    repeat' first
      | with_reducible assumption
      | with_reducible apply ih
      | with_reducible apply updLane_keeps
      | with_reducible apply placeDmvRecord_keeps
      | (dsimp only)
      | split

/-! ### Recorder -/

theorem applyEvrClear_keeps {s0 s : State} (d : Decision) (hk : Keeps s0 s) : Keeps s0 (applyEvrClear d s) := by
  unfold applyEvrClear
  repeat' first
    | with_reducible apply evrFlush_keeps
    | (with_reducible refine Keeps.lit hk ?_ ?_ ?_ ?_ ?_ ?_ ?_ ?_ ?_ ?_ ?_ <;> rfl)
    | (with_reducible refine Keeps.lit (countEvent_keeps _ _ ?_) ?_ ?_ ?_ ?_ ?_ ?_ ?_ ?_ ?_ ?_ ?_ <;> try rfl)
    | split

end Sys2Proof.Machine
end

