-- ==== Sys2Proof/Laws/KeepsHost.lean ====
section
/-! SUPPORT. The operations of the host front end, the Handle, the layout and the caches keep what Keeps says. -/

namespace Sys2Proof.Machine

set_option linter.unusedVariables false

/-! ### Io -/

theorem completeUntagged_keeps {s0 s : State} (w : Waiting) (st : NvmeStatus) (hk : Keeps s0 s) : Keeps s0 (completeUntagged w st s) := by
  unfold completeUntagged
  repeat' first
    | with_reducible assumption
    | with_reducible apply emit_keeps
    | with_reducible apply respondPeer_keeps
    | split
theorem peerAbort_keeps {s0 s : State} (tag : Nat) (gen : Nat) (hk : Keeps s0 s) : Keeps s0 (peerAbort tag gen s) := by
  unfold peerAbort
  repeat' first
    | with_reducible assumption
    | with_reducible apply endTag_keeps
    | with_reducible apply settle_keeps
    | with_reducible refine Keeps.ite (fun _ => ?_) (fun _ => ?_)
    | split
theorem takeTag_keeps {s0 s : State}  (hk : Keeps s0 s) : Keeps s0 (takeTag s) := by
  unfold takeTag
  repeat' first
    | with_reducible refine Keeps.ite (fun _ => ?_) (fun _ => ?_)
    | (with_reducible refine Keeps.lit hk ?_ ?_ ?_ ?_ ?_ ?_ ?_ ?_ ?_ ?_ ?_ <;> rfl)
theorem sendForward_keeps {s0 s : State} (t : Tag) (cmd : IoCmd) (hk : Keeps s0 s) : Keeps s0 (sendForward t cmd s) := by
  unfold sendForward
  repeat' first
    | with_reducible apply requestPeer_keeps
    | (with_reducible refine Keeps.lit hk ?_ ?_ ?_ ?_ ?_ ?_ ?_ ?_ ?_ ?_ ?_ <;> rfl)
theorem startTag_keeps {s0 s : State} (t : Tag) (cmd : IoCmd) (hk : Keeps s0 s) : Keeps s0 (startTag t cmd s) := by
  unfold startTag
  repeat' first
    | with_reducible apply addLock_keeps
    | with_reducible apply endTag_keeps
    | with_reducible apply askHost_keeps
    | with_reducible apply settle_keeps
    | with_reducible apply sendForward_keeps
    | split
    | with_reducible refine Keeps.ite (fun _ => ?_) (fun _ => ?_)
    | (with_reducible refine Keeps.lit hk ?_ ?_ ?_ ?_ ?_ ?_ ?_ ?_ ?_ ?_ ?_ <;> rfl)
theorem payloadWhole_keeps {s0 s : State} (t : Tag) (vok : Bool) (hk : Keeps s0 s) : Keeps s0 (payloadWhole t vok s) := by
  unfold payloadWhole
  repeat' first
    | with_reducible apply countEvent_keeps
    | with_reducible apply updTag_keeps
    | with_reducible apply failTag_keeps
    | with_reducible apply settle_keeps
    | with_reducible refine Keeps.ite (fun _ => ?_) (fun _ => ?_)
    | (with_reducible refine Keeps.lit hk ?_ ?_ ?_ ?_ ?_ ?_ ?_ ?_ ?_ ?_ ?_ <;> rfl)
    | split
theorem forwardAnswered_keeps {s0 s : State} (r : PeerReq) (code : Nat) (data : List Byte) (hk : Keeps s0 s) : Keeps s0 (forwardAnswered r code data s) := by
  unfold forwardAnswered
  repeat' first
    | with_reducible assumption
    | with_reducible apply emit_keeps
    | with_reducible apply endTag_keeps
    | with_reducible refine Keeps.foldl _ (fun s a h => ?_) ?_
    | (with_reducible refine Keeps.lit hk ?_ ?_ ?_ ?_ ?_ ?_ ?_ ?_ ?_ ?_ ?_ <;> rfl)
    | split
theorem sendLastArrival_keeps {s0 s : State} (vol : Nat) (hk : Keeps s0 s) : Keeps s0 (sendLastArrival vol s) := by
  unfold sendLastArrival
  repeat' first
    | with_reducible assumption
    | with_reducible apply emit_keeps
    | split

/-! ### Nvme -/

theorem adminDone_keeps {s0 s : State} (ctrl : Nat) (cid : Nat) (st : NvmeStatus) (hk : Keeps s0 s) : Keeps s0 (adminDone ctrl cid st s) := by
  unfold adminDone
  repeat' first
    | with_reducible assumption
    | with_reducible apply emit_keeps
theorem adminValue_keeps {s0 s : State} (ctrl : Nat) (cid : Nat) (dw0 : Nat) (hk : Keeps s0 s) : Keeps s0 (adminValue ctrl cid dw0 s) := by
  unfold adminValue
  repeat' first
    | with_reducible assumption
    | with_reducible apply emit_keeps
theorem adminData_keeps {s0 s : State} (ctrl : Nat) (cid : Nat) (words : List Nat) (hk : Keeps s0 s) : Keeps s0 (adminData ctrl cid words s) := by
  unfold adminData
  repeat' first
    | with_reducible assumption
    | with_reducible apply emit_keeps
    | with_reducible apply adminDone_keeps
theorem createIoCq_keeps {s0 s : State} (c : Ctrl) (cid : Nat) (cq : Nat) (size : Nat) (contiguous : Bool) (hk : Keeps s0 s) : Keeps s0 (createIoCq c cid cq size contiguous s) := by
  unfold createIoCq
  repeat' first
    | with_reducible assumption
    | with_reducible apply updCtrl_keeps
    | with_reducible apply adminDone_keeps
    | with_reducible refine Keeps.ite (fun _ => ?_) (fun _ => ?_)
theorem createIoSq_keeps {s0 s : State} (c : Ctrl) (cid : Nat) (sq : Nat) (cq : Nat) (size : Nat) (contiguous : Bool) (hk : Keeps s0 s) : Keeps s0 (createIoSq c cid sq cq size contiguous s) := by
  unfold createIoSq
  repeat' first
    | with_reducible assumption
    | with_reducible apply updCtrl_keeps
    | with_reducible apply adminDone_keeps
    | with_reducible refine Keeps.ite (fun _ => ?_) (fun _ => ?_)
theorem deleteIoCq_keeps {s0 s : State} (c : Ctrl) (cid : Nat) (cq : Nat) (hk : Keeps s0 s) : Keeps s0 (deleteIoCq c cid cq s) := by
  unfold deleteIoCq
  repeat' first
    | with_reducible assumption
    | with_reducible apply updCtrl_keeps
    | with_reducible apply adminDone_keeps
    | with_reducible refine Keeps.ite (fun _ => ?_) (fun _ => ?_)
theorem dropWaiting_keeps {s0 s : State} (cpl : Option NvmeStatus) (f : Waiting → Bool) (hk : Keeps s0 s) : Keeps s0 (dropWaiting cpl f s) := by
  unfold dropWaiting
  repeat' first
    | with_reducible assumption
    | with_reducible apply completeUntagged_keeps
    | with_reducible refine Keeps.foldl _ (fun s a h => ?_) ?_
    | (with_reducible refine Keeps.lit hk ?_ ?_ ?_ ?_ ?_ ?_ ?_ ?_ ?_ ?_ ?_ <;> rfl)
    | split
theorem deleteIoSq_keeps {s0 s : State} (c : Ctrl) (cid : Nat) (sq : Nat) (hk : Keeps s0 s) : Keeps s0 (deleteIoSq c cid sq s) := by
  unfold deleteIoSq
  repeat' first
    | with_reducible assumption
    | with_reducible apply queueChecks_keeps
    | with_reducible apply abortTags_keeps
    | with_reducible apply updCtrl_keeps
    | with_reducible apply settle_keeps
    | with_reducible apply adminDone_keeps
    | with_reducible apply dropWaiting_keeps
    | with_reducible refine Keeps.ite (fun _ => ?_) (fun _ => ?_)
theorem getLogPage_keeps {s0 s : State} (c : Ctrl) (cid : Nat) (lid : Nat) (hk : Keeps s0 s) : Keeps s0 (getLogPage c cid lid s) := by
  unfold getLogPage
  repeat' first
    | with_reducible assumption
    | with_reducible apply drewFree_keeps
    | with_reducible apply updCtrl_keeps
    | with_reducible apply adminDone_keeps
    | with_reducible apply adminData_keeps
    | with_reducible refine Keeps.ite (fun _ => ?_) (fun _ => ?_)
theorem identify_keeps {s0 s : State} (c : Ctrl) (cid : Nat) (cns : Nat) (nsid : Nat) (csi : Nat) (hk : Keeps s0 s) : Keeps s0 (identify c cid cns nsid csi s) := by
  unfold identify
  repeat' first
    | with_reducible assumption
    | with_reducible apply drewFree_keeps
    | with_reducible apply adminDone_keeps
    | with_reducible apply adminData_keeps
    | with_reducible refine Keeps.ite (fun _ => ?_) (fun _ => ?_)
    | split
theorem nvmeAbort_keeps {s0 s : State} (c : Ctrl) (cid : Nat) (sq : Nat) (target : Nat) (hk : Keeps s0 s) : Keeps s0 (nvmeAbort c cid sq target s) := by
  unfold nvmeAbort
  repeat' first
    | with_reducible apply adminDone_keeps
    | with_reducible refine Keeps.ite (fun _ => ?_) (fun _ => ?_)
    | (with_reducible refine Keeps.lit hk ?_ ?_ ?_ ?_ ?_ ?_ ?_ ?_ ?_ ?_ ?_ <;> rfl)
theorem abortDone_keeps {s0 s : State} (a : AbortCmd) (b0 : Nat) (reason : Nat) (hk : Keeps s0 s) : Keeps s0 (abortDone a b0 reason s) := by
  unfold abortDone
  repeat' first
    | with_reducible apply adminValue_keeps
    | (with_reducible refine Keeps.lit hk ?_ ?_ ?_ ?_ ?_ ?_ ?_ ?_ ?_ ?_ ?_ <;> rfl)
theorem arbitrate_keeps {s0 s : State} (a : AbortCmd) (hk : Keeps s0 s) : Keeps s0 (arbitrate a s) := by
  unfold arbitrate
  repeat' first
    | with_reducible apply sendPeer_keeps
    | with_reducible apply countEvent_keeps
    | with_reducible apply endTag_keeps
    | with_reducible apply settle_keeps
    | with_reducible apply abortDone_keeps
    | (with_reducible refine Keeps.lit hk ?_ ?_ ?_ ?_ ?_ ?_ ?_ ?_ ?_ ?_ ?_ <;> rfl)
    | split
theorem powerAnswered_keeps {s0 s : State} (e : PowerEntry) (hk : Keeps s0 s) : Keeps s0 (powerAnswered e s) := by
  unfold powerAnswered
  repeat' first
    | with_reducible assumption
    | with_reducible apply finishUid_keeps
    | with_reducible apply adminDone_keeps
    | split
theorem beginPower_keeps {s0 s : State} (e : PowerEntry) (hk : Keeps s0 s) : Keeps s0 (beginPower e s) := by
  unfold beginPower
  repeat' first
    | with_reducible apply powerAnswered_keeps
    | with_reducible refine Keeps.ite (fun _ => ?_) (fun _ => ?_)
    | (with_reducible refine Keeps.lit hk ?_ ?_ ?_ ?_ ?_ ?_ ?_ ?_ ?_ ?_ ?_ <;> rfl)
theorem beginQueued_keeps {s0 s : State}  (a0 : Nat) (hk : Keeps s0 s) : Keeps s0 (beginQueued  a0 s) := by
  induction a0 generalizing s with
  | zero => unfold beginQueued; exact hk
  | succ k ih =>
    unfold beginQueued
    repeat' first
      | with_reducible apply ih
      | with_reducible apply beginPower_keeps
      | (with_reducible refine Keeps.lit hk ?_ ?_ ?_ ?_ ?_ ?_ ?_ ?_ ?_ ?_ ?_ <;> rfl)
      | split
theorem requestPower_keeps {s0 s : State} (e : PowerEntry) (hk : Keeps s0 s) : Keeps s0 (requestPower e s) := by
  unfold requestPower
  repeat' first
    | with_reducible apply beginPower_keeps
    | with_reducible refine Keeps.ite (fun _ => ?_) (fun _ => ?_)
    | (with_reducible refine Keeps.lit hk ?_ ?_ ?_ ?_ ?_ ?_ ?_ ?_ ?_ ?_ ?_ <;> rfl)
theorem setPower_keeps {s0 s : State} (c : Ctrl) (cid : Nat) (ps : Nat) (hk : Keeps s0 s) : Keeps s0 (setPower c cid ps s) := by
  unfold setPower
  repeat' first
    | with_reducible assumption
    | with_reducible apply adminDone_keeps
    | with_reducible apply requestPower_keeps
    | with_reducible refine Keeps.ite (fun _ => ?_) (fun _ => ?_)
theorem setQueues_keeps {s0 s : State} (c : Ctrl) (cid : Nat) (count : Nat) (hk : Keeps s0 s) : Keeps s0 (setQueues c cid count s) := by
  unfold setQueues
  repeat' first
    | with_reducible assumption
    | with_reducible apply drewFree_keeps
    | with_reducible apply updCtrl_keeps
    | with_reducible apply adminValue_keeps
    | with_reducible refine Keeps.ite (fun _ => ?_) (fun _ => ?_)
theorem setFeatures_keeps {s0 s : State} (c : Ctrl) (cid : Nat) (fid : Nat) (value : Nat) (hk : Keeps s0 s) : Keeps s0 (setFeatures c cid fid value s) := by
  unfold setFeatures
  repeat' first
    | with_reducible assumption
    | with_reducible apply updCtrl_keeps
    | with_reducible apply adminDone_keeps
    | with_reducible apply setPower_keeps
    | with_reducible apply setQueues_keeps
    | with_reducible refine Keeps.ite (fun _ => ?_) (fun _ => ?_)
theorem getFeatures_keeps {s0 s : State} (c : Ctrl) (cid : Nat) (fid : Nat) (hk : Keeps s0 s) : Keeps s0 (getFeatures c cid fid s) := by
  unfold getFeatures
  repeat' first
    | with_reducible assumption
    | with_reducible apply adminDone_keeps
    | with_reducible apply adminValue_keeps
    | with_reducible refine Keeps.ite (fun _ => ?_) (fun _ => ?_)
theorem abortCtrl_keeps {s0 s : State} (ctrl : Nat) (hk : Keeps s0 s) : Keeps s0 (abortCtrl ctrl s) := by
  unfold abortCtrl
  repeat' first
    | with_reducible assumption
    | with_reducible apply abortTags_keeps
    | with_reducible apply settle_keeps
    | (with_reducible refine Keeps.lit (dropWaiting_keeps _ _ ?_) ?_ ?_ ?_ ?_ ?_ ?_ ?_ ?_ ?_ ?_ ?_ <;> try rfl)
theorem resetCtrl_keeps {s0 s : State} (ctrl : Nat) (hk : Keeps s0 s) : Keeps s0 (resetCtrl ctrl s) := by
  unfold resetCtrl
  repeat' first
    | with_reducible assumption
    | with_reducible apply queueChecks_keeps
    | with_reducible apply updCtrl_keeps
    | with_reducible apply abortCtrl_keeps
theorem enableCtrl_keeps {s0 s : State} (ctrl : Nat) (css : Nat) (hk : Keeps s0 s) : Keeps s0 (enableCtrl ctrl css s) := by
  unfold enableCtrl
  repeat' first
    | with_reducible assumption
    | with_reducible apply updCtrl_keeps
theorem endAssociation_keeps {s0 s : State} (ctrl : Nat) (hk : Keeps s0 s) : Keeps s0 (endAssociation ctrl s) := by
  unfold endAssociation
  repeat' first
    | with_reducible assumption
    | with_reducible refine Keeps.ite (fun _ => ?_) (fun _ => ?_)
    | (with_reducible refine Keeps.lit (abortCtrl_keeps _ ?_) ?_ ?_ ?_ ?_ ?_ ?_ ?_ ?_ ?_ ?_ ?_ <;> try rfl)
theorem connectAdmin_keeps {s0 s : State} (conn : Nat) (cid : Nat) (discovery : Bool) (hostNqn : List Byte) (hk : Keeps s0 s) : Keeps s0 (connectAdmin conn cid discovery hostNqn s) := by
  unfold connectAdmin
  repeat' first
    | with_reducible apply adminDone_keeps
    | with_reducible apply adminValue_keeps
    | with_reducible refine Keeps.ite (fun _ => ?_) (fun _ => ?_)
    | (with_reducible refine Keeps.lit hk ?_ ?_ ?_ ?_ ?_ ?_ ?_ ?_ ?_ ?_ ?_ <;> rfl)
theorem connectIo_keeps {s0 s : State} (conn : Nat) (cid : Nat) (qid : Nat) (sqsize : Nat) (c : Ctrl) (hk : Keeps s0 s) : Keeps s0 (connectIo conn cid qid sqsize c s) := by
  unfold connectIo
  repeat' first
    | with_reducible assumption
    | with_reducible apply emit_keeps
    | with_reducible refine Keeps.ite (fun _ => ?_) (fun _ => ?_)
    | (with_reducible refine Keeps.lit (updCtrl_keeps _ _ ?_) ?_ ?_ ?_ ?_ ?_ ?_ ?_ ?_ ?_ ?_ ?_ <;> try rfl)

/-! ### Handle -/

theorem peerSilent_keeps {s0 s : State} (hk : Keeps s0 s) : Keeps s0 (peerSilent s) := by
  unfold peerSilent
  have h := countEvent_keeps 0x0D5 0 hk
  split
  · exact withAccess_keeps _ h (fun s h => h.upd rfl rfl rfl rfl rfl rfl rfl rfl rfl rfl rfl rfl)
  · exact policyChanged_keeps (mirrorLoss_keeps (updateMembers_keeps (endPairing_keeps _ h (fun s h => h.upd rfl rfl rfl rfl rfl rfl rfl rfl rfl rfl rfl rfl))))
theorem fenceReply_keeps {s0 s : State} (n : Nat) (status : Nat) (value : Nat) (r : Req) (hk : Keeps s0 s) : Keeps s0 (fenceReply n status value r s) := by
  unfold fenceReply
  repeat' first
    | with_reducible assumption
    | with_reducible apply updPort_keeps
    | with_reducible apply checkFence_keeps
    | refine Keeps.getD ?_ (fun t ht => commonStatus_keeps _ _ _ hk ht)
    | with_reducible refine Keeps.ite (fun _ => ?_) (fun _ => ?_)
theorem setEpochReply_keeps {s0 s : State} (n : Nat) (status : Nat) (r : Req) (hk : Keeps s0 s) : Keeps s0 (setEpochReply n status r s) := by
  unfold setEpochReply
  repeat' first
    | with_reducible assumption
    | with_reducible apply updPort_keeps
    | refine Keeps.getD ?_ (fun t ht => commonStatus_keeps _ _ _ hk ht)
    | with_reducible refine Keeps.ite (fun _ => ?_) (fun _ => ?_)
theorem closePeerSegment_keeps {s0 s : State} (x : Segment) (hk : Keeps s0 s) : Keeps s0 (closePeerSegment x s) := by
  unfold closePeerSegment
  repeat' first
    | with_reducible assumption
    | with_reducible apply countEvent_keeps
    | with_reducible apply readStrip_keeps
    | with_reducible apply sealSegment_keeps
    | with_reducible refine Keeps.foldl _ (fun s a h => ?_) ?_
    | with_reducible refine Keeps.ite (fun _ => ?_) (fun _ => ?_)
    | (with_reducible refine Keeps.lit (replaySegment_keeps _ ?_) ?_ ?_ ?_ ?_ ?_ ?_ ?_ ?_ ?_ ?_ ?_ <;> try rfl)
    | split
theorem applyHandleEligible_keeps {s0 s : State} (d : Decision) (hk : Keeps s0 s) : Keeps s0 (applyHandleEligible d s) := by
  unfold applyHandleEligible
  repeat' first
    | (with_reducible refine Keeps.lit hk ?_ ?_ ?_ ?_ ?_ ?_ ?_ ?_ ?_ ?_ ?_ <;> rfl)
    | split
theorem applyHandleTransfer_keeps {s0 s : State} (c : Cmd) (hk : Keeps s0 s) : Keeps s0 (applyHandleTransfer c s) := by
  unfold applyHandleTransfer
  repeat' first
    | with_reducible apply requestPeer_keeps
    | (with_reducible refine Keeps.lit hk ?_ ?_ ?_ ?_ ?_ ?_ ?_ ?_ ?_ ?_ ?_ <;> rfl)
theorem handoffAnswered_keeps {s0 s : State} (status : Nat) (hk : Keeps s0 s) : Keeps s0 (handoffAnswered status s) := by
  unfold handoffAnswered
  repeat' first
    | with_reducible apply transferFails_keeps
    | with_reducible refine Keeps.ite (fun _ => ?_) (fun _ => ?_)
    | (with_reducible refine Keeps.lit hk ?_ ?_ ?_ ?_ ?_ ?_ ?_ ?_ ?_ ?_ ?_ <;> rfl)

/-! ### Layout -/

theorem openBand_keeps {s0 s t : State} (num : Nat) (hk : Keeps s0 s) (ht : openBand num s = some t) : Keeps s0 t := by
  unfold openBand at ht
  split at ht
  · cases ht
  · dsimp only at ht
    split at ht
    · cases ht
    · split at ht
      · cases ht
      · split at ht
        · cases ht
        · cases ht
          exact appendRecord_keeps _ (drewFree_keeps (hk.upd rfl rfl rfl rfl rfl rfl rfl rfl rfl rfl rfl rfl))
theorem openSegment_keeps {s0 s t : State} (seg : Nat) (hk : Keeps s0 s) (ht : openSegment seg s = some t) : Keeps s0 t := by
  unfold openSegment at ht
  split at ht
  · dsimp only at ht
    split at ht
    · cases ht; exact hk.upd rfl rfl rfl rfl rfl rfl rfl rfl rfl rfl rfl rfl
    · cases ht
  · cases ht
theorem readySegment_keeps {s0 s t : State} (seg : Nat) (hk : Keeps s0 s) (ht : readySegment seg s = some t) : Keeps s0 t := by
  unfold readySegment at ht
  split at ht
  · cases ht; exact hk
  · rw [Option.bind_eq_some_iff] at ht
    obtain ⟨x, hx, ht⟩ := ht
    split at hx
    · cases hx; exact openSegment_keeps seg hk ht
    · exact openSegment_keeps seg (openBand_keeps _ hk hx) ht
theorem addStrip_keeps {s0 s t : State} (seg : Nat) (keys : List Nat) (hk : Keeps s0 s) (ht : addStrip seg keys s = some t) :
    Keeps s0 t := by
  unfold addStrip at ht
  split at ht
  · split at ht
    · cases ht
    · rw [Option.map_eq_some_iff] at ht
      obtain ⟨i, -, rfl⟩ := ht
      exact appendRecord_keeps _ (updSeg_keeps _ _ hk)
  · cases ht

/-! ### MapCache -/

theorem deliverWord_keeps {s0 s : State} (a : Nat) (line : List Byte) (hk : Keeps s0 s) : Keeps s0 (deliverWord a line s) := by
  unfold deliverWord
  repeat' first
    | with_reducible assumption
    | with_reducible apply emit_keeps
theorem placeLine_keeps {s0 s : State} (la : Nat) (way : Nat) (data : List Byte) (hk : Keeps s0 s) : Keeps s0 (placeLine la way data s) := by
  unfold placeLine
  repeat' first
    | (with_reducible refine Keeps.lit hk ?_ ?_ ?_ ?_ ?_ ?_ ?_ ?_ ?_ ?_ ?_ <;> rfl)
theorem drainOne_keeps {s0 s : State} (hk : Keeps s0 s) : Keeps s0 (drainOne s) := by
  unfold drainOne
  split
  · exact hk
  · exact ⟨hk.pending, fun w => memWrite_wf _ _ (hk.mem w), hk.chain, hk.linked, hk.counter, hk.epoch, hk.silent, hk.trip, hk.cause, hk.serial, hk.uds, hk.owner, hk.floors, hk.udsShut, hk.latch, hk.fault⟩
theorem preloadLine_keeps {s0 s : State} (way : Nat) (la : Nat) (hk : Keeps s0 s) : Keeps s0 (preloadLine way la s) := by
  unfold preloadLine
  repeat' first
    | with_reducible refine Keeps.ite (fun _ => ?_) (fun _ => ?_)
    | (with_reducible refine Keeps.lit hk ?_ ?_ ?_ ?_ ?_ ?_ ?_ ?_ ?_ ?_ ?_ <;> rfl)
theorem invAll_keeps {s0 s : State}  (hk : Keeps s0 s) : Keeps s0 (invAll s) := by
  unfold invAll
  repeat' first
    | with_reducible assumption
    | (with_reducible refine Keeps.lit (drainAll_keeps ?_) ?_ ?_ ?_ ?_ ?_ ?_ ?_ ?_ ?_ ?_ ?_ <;> try rfl)
theorem waysPowered_keeps {s0 s : State} (down : Nat) (hk : Keeps s0 s) : Keeps s0 (waysPowered down s) := by
  unfold waysPowered
  repeat' first
    | with_reducible assumption
    | (with_reducible refine Keeps.lit (drainAll_keeps ?_) ?_ ?_ ?_ ?_ ?_ ?_ ?_ ?_ ?_ ?_ ?_ <;> try rfl)
theorem mlaAnswer_keeps {s0 s : State} (e : MlaEntry) (hk : Keeps s0 s) : Keeps s0 (mlaAnswer e s) := by
  unfold mlaAnswer
  repeat' first
    | with_reducible assumption
    | with_reducible apply emit_keeps
    | with_reducible refine Keeps.foldl _ (fun s a h => ?_) ?_
    | (with_reducible refine Keeps.lit hk ?_ ?_ ?_ ?_ ?_ ?_ ?_ ?_ ?_ ?_ ?_ <;> rfl)
theorem mlaInsert_keeps {s0 s : State} (e : MlaEntry) (hk : Keeps s0 s) : Keeps s0 (mlaInsert e s) := by
  unfold mlaInsert
  repeat' first
    | with_reducible apply countEvent_keeps
    | with_reducible apply mlaAnswer_keeps
    | with_reducible refine Keeps.ite (fun _ => ?_) (fun _ => ?_)
    | (with_reducible refine Keeps.lit hk ?_ ?_ ?_ ?_ ?_ ?_ ?_ ?_ ?_ ?_ ?_ <;> rfl)
    | split

/-! ### Media -/

theorem sealVictim_keeps {s0 s : State} (b : Band) (hk : Keeps s0 s) : Keeps s0 (sealVictim b s) := by
  unfold sealVictim
  repeat' first
    | with_reducible assumption
    | with_reducible apply appendRecord_keeps
    | with_reducible apply updBand_keeps
    | with_reducible refine Keeps.ite (fun _ => ?_) (fun _ => ?_)
theorem chargeMove_keeps {s0 s : State} (m : Nat × Nat × Nat) (hk : Keeps s0 s) : Keeps s0 (chargeMove s m) := by
  unfold chargeMove
  repeat' first
    | with_reducible assumption
    | with_reducible apply keyExhausted_keeps
    | with_reducible apply chargeKey_keeps
    | split
theorem countUnreachable_keeps {s0 s : State}  (a0 : Nat) (hk : Keeps s0 s) : Keeps s0 (countUnreachable  a0 s) := by
  induction a0 generalizing s with
  | zero => unfold countUnreachable; exact hk
  | succ k ih =>
    unfold countUnreachable
    repeat' first
      | with_reducible assumption
      | with_reducible apply ih
      | with_reducible apply countEvent_keeps
theorem newCycle_keeps {s0 s : State} (e : Nat × Nat) (hk : Keeps s0 s) : Keeps s0 (newCycle s e) := by
  unfold newCycle
  repeat' first
    | with_reducible assumption
    | with_reducible apply updPackNow_keeps
    | with_reducible apply setReads_keeps
theorem patrolNext_keeps {s0 s : State}  (hk : Keeps s0 s) : Keeps s0 (patrolNext s) := by
  have h : ∀ (o : Option (Nat × Nat)), Keeps s0 (match o with
      | some t =>
        let s := if patrolReads s t then readStrip t.1 t.2 2 0 s
          else if patrolSkips s t then { s with med.patrolOwed := s.med.patrolOwed ++ [t] } else s
        { s with med.patrolPos := s.med.patrolPos + 1 }
      | none => s) := by
    intro o
    cases o with
    | none => exact hk
    | some t =>
      dsimp only
      have h1 : Keeps s0 (if patrolReads s t then readStrip t.1 t.2 2 0 s
          else if patrolSkips s t then { s with med.patrolOwed := s.med.patrolOwed ++ [t] } else s) :=
        Keeps.ite (fun _ => readStrip_keeps _ _ _ _ hk) (fun _ => Keeps.ite (fun _ => hk.upd rfl rfl rfl rfl rfl rfl rfl rfl rfl rfl rfl rfl) (fun _ => hk))
      exact h1.upd rfl rfl rfl rfl rfl rfl rfl rfl rfl rfl rfl rfl
  unfold patrolNext
  have h2 := h (patrolStrips s)[s.med.patrolPos]?
  dsimp only at h2 ⊢
  refine Keeps.ite (fun _ => ?_) (fun _ => h2)
  exact h2.upd rfl rfl rfl rfl rfl rfl rfl rfl rfl rfl rfl rfl
theorem applySecureDiscard_keeps {s0 s : State} (c : Cmd) (d : Decision) (hk : Keeps s0 s) : Keeps s0 (applySecureDiscard c d s) := by
  unfold applySecureDiscard
  repeat' first
    | with_reducible assumption
    | with_reducible apply settle_keeps
    | (with_reducible refine Keeps.lit hk ?_ ?_ ?_ ?_ ?_ ?_ ?_ ?_ ?_ ?_ ?_ <;> rfl)
    | (dsimp only)
    | split

end Sys2Proof.Machine
end

