-- ==== Sys2Proof/Laws/KeepsRma.lean ====
section
/-! SUPPORT. The operations of the sensors, the Weaver, the parameters and remote memory keep what Keeps says. -/

namespace Sys2Proof.Machine

set_option linter.unusedVariables false

/-! ### Thermal -/

theorem takeSamples_keeps {s0 s : State} (readings : List Int) (hk : Keeps s0 s) : Keeps s0 (takeSamples readings s) := by
  unfold takeSamples
  repeat' first
    | with_reducible assumption
    | with_reducible apply countEvent_keeps
    | (with_reducible refine Keeps.lit hk ?_ ?_ ?_ ?_ ?_ ?_ ?_ ?_ ?_ ?_ ?_ <;> rfl)
    | (with_reducible refine Keeps.lit (Keeps.foldl _ (fun s a h => ?_) ?_) ?_ ?_ ?_ ?_ ?_ ?_ ?_ ?_ ?_ ?_ ?_ <;> try rfl)
    | (dsimp only)
    | split
theorem fastSampling_keeps {s0 s : State} (readings : List Int) (hk : Keeps s0 s) : Keeps s0 (fastSampling readings s) := by
  unfold fastSampling
  repeat' first
    | with_reducible apply countEvent_keeps
    | with_reducible refine Keeps.ite (fun _ => ?_) (fun _ => ?_)
    | (with_reducible refine Keeps.lit hk ?_ ?_ ?_ ?_ ?_ ?_ ?_ ?_ ?_ ?_ ?_ <;> rfl)
    | (dsimp only)
theorem tripCheck_keeps {s0 s : State} (readings : List Int) (hk : Keeps s0 s) : Keeps s0 (tripCheck readings s) := by
  unfold tripCheck
  split
  · exact hk
  · have h : Keeps s0 { s with aon.trip := true, pins.thermtrip := true } :=
      ⟨hk.pending, hk.mem, hk.chain, hk.linked, hk.counter, hk.epoch, hk.silent, fun _ => rfl, hk.cause, hk.serial, hk.uds, hk.owner, hk.floors, hk.udsShut, hk.latch, hk.fault⟩
    exact (failSilent_keeps 0x0C 0 h).upd rfl rfl rfl rfl rfl rfl rfl rfl rfl rfl rfl rfl
theorem coverageCheck_keeps {s0 s : State}  (hk : Keeps s0 s) : Keeps s0 (coverageCheck s) := by
  unfold coverageCheck
  repeat' first
    | with_reducible apply failSilent_keeps
    | with_reducible refine Keeps.ite (fun _ => ?_) (fun _ => ?_)
    | (with_reducible refine Keeps.lit hk ?_ ?_ ?_ ?_ ?_ ?_ ?_ ?_ ?_ ?_ ?_ <;> rfl)
theorem watchdogFires_keeps {s0 s : State} (core : Nat) (hk : Keeps s0 s) : Keeps s0 (watchdogFires core s) := by
  unfold watchdogFires
  repeat' first
    | with_reducible assumption
    | with_reducible refine Keeps.ite (fun _ => ?_) (fun _ => ?_)
    | (with_reducible refine Keeps.lit (failSilent_keeps _ _ ?_) ?_ ?_ ?_ ?_ ?_ ?_ ?_ ?_ ?_ ?_ ?_ <;> try rfl)
theorem applyPark_keeps {s0 s : State} (core : Nat) (park : Bool) (hk : Keeps s0 s) : Keeps s0 (applyPark core park s) := by
  unfold applyPark
  repeat' first
    | (with_reducible refine Keeps.lit hk ?_ ?_ ?_ ?_ ?_ ?_ ?_ ?_ ?_ ?_ ?_ <;> rfl)
theorem applySelftest_keeps {s0 s : State} (d : Decision) (hk : Keeps s0 s) : Keeps s0 (applySelftest d s) := by
  unfold applySelftest
  repeat' first
    | with_reducible apply countIf_keeps
    | with_reducible apply failSilent_keeps
    | (with_reducible refine Keeps.lit hk ?_ ?_ ?_ ?_ ?_ ?_ ?_ ?_ ?_ ?_ ?_ <;> rfl)
    | split

/-! ### Weaver -/

theorem injectBegun_keeps {s0 s : State} (x : Option Inject) (hk : Keeps s0 s) : Keeps s0 (injectBegun x s) := by
  unfold injectBegun
  repeat' first
    | with_reducible assumption
    | with_reducible apply finishUid_keeps
    | split
theorem injectCut_keeps {s0 s : State} (n : Nat) (hk : Keeps s0 s) : Keeps s0 (injectCut n s) := by
  unfold injectCut
  repeat' first
    | with_reducible apply countEvent_keeps
    | with_reducible apply injectBegun_keeps
    | (with_reducible refine Keeps.lit hk ?_ ?_ ?_ ?_ ?_ ?_ ?_ ?_ ?_ ?_ ?_ <;> rfl)
    | split
theorem writeLoop_keeps {s0 s : State} (n : Nat) (i : Nat) (v : Nat) (hk : Keeps s0 s) : Keeps s0 (writeLoop n i v s) := by
  unfold writeLoop
  repeat' first
    | with_reducible assumption
    | with_reducible apply injectCut_keeps
    | (with_reducible refine Keeps.lit (Keeps.ite (fun _ => ?_) (fun _ => ?_)) ?_ ?_ ?_ ?_ ?_ ?_ ?_ ?_ ?_ ?_ ?_ <;> try rfl)
theorem beginStale_keeps {s0 s : State} (n : Nat) (hk : Keeps s0 s) : Keeps s0 (beginStale n s) := by
  unfold beginStale
  repeat' first
    | with_reducible apply countEvent_keeps
    | with_reducible refine Keeps.ite (fun _ => ?_) (fun _ => ?_)
    | (with_reducible refine Keeps.lit hk ?_ ?_ ?_ ?_ ?_ ?_ ?_ ?_ ?_ ?_ ?_ <;> rfl)
theorem evalLoop_keeps {s0 s : State} (n : Nat) (hk : Keeps s0 s) : Keeps s0 (evalLoop s n) := by
  unfold evalLoop
  repeat' first
    | with_reducible assumption
    | with_reducible apply injectBegun_keeps
    | with_reducible apply beginStale_keeps
    | (with_reducible refine Keeps.lit (Keeps.ite (fun _ => ?_) (fun _ => ?_)) ?_ ?_ ?_ ?_ ?_ ?_ ?_ ?_ ?_ ?_ ?_ <;> try rfl)
theorem applyAct_keeps {s0 s : State} (x : Int) (a : Nat × Nat) (hk : Keeps s0 s) : Keeps s0 (applyAct x s a) := by
  unfold applyAct
  repeat' first
    | (with_reducible refine Keeps.lit hk ?_ ?_ ?_ ?_ ?_ ?_ ?_ ?_ ?_ ?_ ?_ <;> rfl)
    | split
theorem applyActs_keeps {s0 s : State} (hk : Keeps s0 s) : Keeps s0 (applyActs s) := by
  unfold applyActs
  dsimp only
  have h := applyAct_keeps 0 (6, 0) hk
  generalize applyAct 0 s (6, 0) = t at h
  have h1 : Keeps s0 (List.foldl (applyAct (actOf t 6 0)) t actInstances) := Keeps.foldl _ (fun s a h => applyAct_keeps _ a h) h
  generalize List.foldl (applyAct (actOf t 6 0)) t actInstances = r at h1
  have h2 := countIf_keeps (guardOn r && !r.wvr.guard) 0x0F3
    (h1.upd (t := { r with wvr.guard := guardOn r }) rfl rfl rfl rfl rfl rfl rfl rfl rfl rfl rfl rfl)
  exact countIf_keeps _ _ (h2.upd rfl rfl rfl rfl rfl rfl rfl rfl rfl rfl rfl rfl)
theorem throttleTick_keeps {s0 s : State}  (hk : Keeps s0 s) : Keeps s0 (throttleTick s) := by
  unfold throttleTick
  repeat' first
    | with_reducible refine Keeps.ite (fun _ => ?_) (fun _ => ?_)
    | (with_reducible refine Keeps.lit hk ?_ ?_ ?_ ?_ ?_ ?_ ?_ ?_ ?_ ?_ ?_ <;> rfl)
theorem startCapture_keeps {s0 s : State}  (hk : Keeps s0 s) : Keeps s0 (startCapture s) := by
  unfold startCapture
  repeat' first
    | (with_reducible refine Keeps.lit hk ?_ ?_ ?_ ?_ ?_ ?_ ?_ ?_ ?_ ?_ ?_ <;> rfl)
theorem captureSample_keeps {s0 s : State} (hk : Keeps s0 s) : Keeps s0 (captureSample s) := by
  have h (c : Option Capture) : Keeps s0 { s with wvr.capture := c } := hk.upd rfl rfl rfl rfl rfl rfl rfl rfl rfl rfl rfl rfl
  unfold captureSample
  split
  · exact hk
  · split
    · exact hk
    · split
      · exact h _
      · exact Keeps.ite (fun _ => (h _).writeMem _ _) (fun _ => deniedHam_keeps _ _ _ (h _))
theorem captureTick_keeps {s0 s : State} (before : State) (hk : Keeps s0 s) : Keeps s0 (captureTick before s) := by
  unfold captureTick
  repeat' first
    | with_reducible assumption
    | with_reducible apply startCapture_keeps
    | with_reducible apply captureSample_keeps
    | split
theorem runLoops_keeps {s0 s : State}  (hk : Keeps s0 s) : Keeps s0 (runLoops s) := by
  unfold runLoops
  repeat' first
    | with_reducible assumption
    | with_reducible apply evalLoop_keeps
    | with_reducible apply applyActs_keeps
    | with_reducible apply captureTick_keeps
    | with_reducible refine Keeps.foldl _ (fun s a h => ?_) ?_
theorem applyWvrInject_keeps {s0 s : State} (c : Cmd) (status : Nat) (detail : Nat) (hk : Keeps s0 s) : Keeps s0 (applyWvrInject c status detail s) := by
  unfold applyWvrInject
  repeat' first
    | with_reducible apply injectBegun_keeps
    | with_reducible refine Keeps.ite (fun _ => ?_) (fun _ => ?_)
    | (with_reducible refine Keeps.lit hk ?_ ?_ ?_ ?_ ?_ ?_ ?_ ?_ ?_ ?_ ?_ <;> rfl)
theorem applyWvrCapture_keeps {s0 s : State} (c : Cmd) (hk : Keeps s0 s) : Keeps s0 (applyWvrCapture c s) := by
  unfold applyWvrCapture
  repeat' first
    | (with_reducible refine Keeps.lit hk ?_ ?_ ?_ ?_ ?_ ?_ ?_ ?_ ?_ ?_ ?_ <;> rfl)
    | split

/-! ### Params -/

theorem groupsWritten_keeps {s0 s : State} (old : Nat) (new : Nat) (hk : Keeps s0 s) : Keeps s0 (groupsWritten old new s) := by
  unfold groupsWritten
  repeat' first
    | with_reducible assumption
    | with_reducible apply queueGroup_keeps
    | with_reducible apply groupOff_keeps
    | with_reducible refine Keeps.foldl _ (fun s a h => ?_) ?_
    | with_reducible refine Keeps.ite (fun _ => ?_) (fun _ => ?_)
    | (with_reducible refine Keeps.lit h ?_ ?_ ?_ ?_ ?_ ?_ ?_ ?_ ?_ ?_ ?_ <;> rfl)
theorem applyPid_keeps {s0 s : State} (p : Nat) (v : Nat) (hk : Keeps s0 s) : Keeps s0 (applyPid p v s) := by
  unfold applyPid
  repeat' first
    | with_reducible apply policyChanged_keeps
    | with_reducible apply hamLifeCheck_keeps
    | with_reducible apply waysPowered_keeps
    | with_reducible apply writeLoop_keeps
    | with_reducible apply groupsWritten_keeps
    | (with_reducible refine Keeps.lit hk ?_ ?_ ?_ ?_ ?_ ?_ ?_ ?_ ?_ ?_ ?_ <;> rfl)
    | (with_reducible refine Keeps.lit (setPid_keeps _ _ ?_) ?_ ?_ ?_ ?_ ?_ ?_ ?_ ?_ ?_ ?_ ?_ <;> try rfl)
    | split
theorem powerWritten_keeps {s0 s : State} (uid : Nat) (v : Nat) (post : Nat × Nat × Nat) (hk : Keeps s0 s) : Keeps s0 (powerWritten uid v post s) := by
  unfold powerWritten
  repeat' first
    | with_reducible assumption
    | with_reducible apply requestPower_keeps
theorem applySetParam_keeps {s0 s : State} (d : Decision) (hk : Keeps s0 s) : Keeps s0 (applySetParam d s) := by
  unfold applySetParam
  repeat' first
    | with_reducible assumption
    | with_reducible apply setPidBlock_keeps
    | with_reducible apply applyPid_keeps
    | split
theorem applySetParams_keeps {s0 s : State} (c : Cmd) (hk : Keeps s0 s) : Keeps s0 (applySetParams c s) := by
  unfold applySetParams
  repeat' first
    | with_reducible assumption
    | with_reducible apply applyPid_keeps
    | with_reducible refine Keeps.foldl _ (fun s a h => ?_) ?_
    | with_reducible refine Keeps.ite (fun _ => ?_) (fun _ => ?_)

/-! ### Rma -/

theorem withBridge_keeps {s0 s : State} (f : State → State) (hk : Keeps s0 s) (hf : ∀ s, Keeps s0 s → Keeps s0 (f s)) :
    Keeps s0 (withBridge f s) := by
  have h := hf s hk
  unfold withBridge
  dsimp only
  split
  · exact endPairing_keeps _ h (fun _ h => h)
  · exact h
theorem nak_keeps {s0 s : State} (n : Nat) (syndrome : Nat) (psn : Nat) (hk : Keeps s0 s) : Keeps s0 (nak n syndrome psn s) := by
  unfold nak
  repeat' first
    | with_reducible assumption
    | with_reducible apply txPacket_keeps
theorem nakError_keeps {s0 s : State} (n : Nat) (syndrome : Nat) (psn : Nat) (hk : Keeps s0 s) : Keeps s0 (nakError n syndrome psn s) := by
  unfold nakError
  repeat' first
    | with_reducible assumption
    | with_reducible apply errorConn_keeps
    | with_reducible apply nak_keeps
theorem hamWrite_keeps {s0 s : State} (a : Nat) (bytes : List Byte) (hk : Keeps s0 s) : Keeps s0 (hamWrite a bytes s) := by
  unfold hamWrite
  repeat' first
    | with_reducible assumption
    | with_reducible apply engineWrite_keeps
theorem setRegion_keeps {s0 s : State} (r : Region) (hk : Keeps s0 s) : Keeps s0 (setRegion r s) := by
  unfold setRegion
  repeat' first
    | with_reducible apply hamWrite_keeps
    | (with_reducible refine Keeps.lit hk ?_ ?_ ?_ ?_ ?_ ?_ ?_ ?_ ?_ ?_ ?_ <;> rfl)
theorem countRegion_keeps {s0 s : State} (up : Bool) (i : Nat) (hk : Keeps s0 s) : Keeps s0 (countRegion up i s) := by
  unfold countRegion
  repeat' first
    | with_reducible assumption
    | with_reducible apply setRegion_keeps
theorem targetRefused_keeps {s0 s : State} (c : Conn) (psn : Nat) (hk : Keeps s0 s) : Keeps s0 (targetRefused c psn s) := by
  unfold targetRefused
  repeat' first
    | with_reducible assumption
    | with_reducible apply countIf_keeps
    | with_reducible apply nakError_keeps
theorem beginMsg_keeps {s0 s : State} (n : Nat) (psn : Nat) (region : Option Nat) (hk : Keeps s0 s) : Keeps s0 (beginMsg n psn region s) := by
  unfold beginMsg
  repeat' first
    | with_reducible assumption
    | with_reducible apply updConn_keeps
    | with_reducible apply countRegion_keeps
    | split
theorem endMsgs_keeps {s0 s : State} (n : Nat) (f : Inflight → Bool) (hk : Keeps s0 s) : Keeps s0 (endMsgs n f s) := by
  unfold endMsgs
  repeat' first
    | with_reducible assumption
    | with_reducible apply updConn_keeps
    | with_reducible apply countRegion_keeps
    | split
    | with_reducible refine Keeps.foldl _ (fun s a h => ?_) ?_
theorem endLastMsg_keeps {s0 s : State} (c : Conn) (hk : Keeps s0 s) : Keeps s0 (endLastMsg c s) := by
  unfold endLastMsg
  repeat' first
    | with_reducible assumption
    | with_reducible apply endMsgs_keeps
    | split
theorem advancePsn_keeps {s0 s : State} (n : Nat) (k : Nat) (hk : Keeps s0 s) : Keeps s0 (advancePsn n k s) := by
  unfold advancePsn
  repeat' first
    | with_reducible assumption
    | with_reducible apply updConn_keeps
theorem recvSend_keeps {s0 s : State} (c : Conn) (psn : Nat) (length : Nat) (first : Bool) (last : Bool) (hk : Keeps s0 s) : Keeps s0 (recvSend c psn length first last s) := by
  unfold recvSend
  repeat' first
    | with_reducible assumption
    | with_reducible apply updConn_keeps
    | with_reducible apply sendAck_keeps
    | with_reducible apply nak_keeps
    | with_reducible apply nakError_keeps
    | with_reducible apply beginMsg_keeps
    | with_reducible apply endLastMsg_keeps
    | with_reducible apply advancePsn_keeps
    | with_reducible refine Keeps.ite (fun _ => ?_) (fun _ => ?_)
    | split
theorem recvWrite_keeps {s0 s : State} (c : Conn) (psn : Nat) (rkey : Nat) (va : Nat) (len : Nat) (first : Bool) (last : Bool) (bytes : List Byte) (hk : Keeps s0 s) : Keeps s0 (recvWrite c psn rkey va len first last bytes s) := by
  unfold recvWrite
  repeat' first
    | with_reducible assumption
    | with_reducible apply updConn_keeps
    | with_reducible apply sendAck_keeps
    | with_reducible apply nakError_keeps
    | with_reducible apply hamWrite_keeps
    | with_reducible apply targetRefused_keeps
    | with_reducible apply beginMsg_keeps
    | with_reducible apply endLastMsg_keeps
    | with_reducible apply advancePsn_keeps
    | split
theorem readResponse_keeps {s0 s : State} (c : Conn) (psn : Nat) (data : List Byte) (hk : Keeps s0 s) : Keeps s0 (readResponse c psn data s) := by
  unfold readResponse
  repeat' first
    | with_reducible assumption
    | with_reducible apply txPacket_keeps
    | with_reducible apply txAeth_keeps
    | with_reducible refine Keeps.foldl _ (fun s a h => ?_) ?_
    | with_reducible refine Keeps.ite (fun _ => ?_) (fun _ => ?_)
theorem recvRead_keeps {s0 s : State} (c : Conn) (psn rkey va len : Nat) (hk : Keeps s0 s) : Keeps s0 (recvRead c psn rkey va len s) := by
  unfold recvRead
  repeat' first
    | with_reducible assumption
    | with_reducible apply nakError_keeps
    | with_reducible apply targetRefused_keeps
    | with_reducible apply readResponse_keeps
    | with_reducible apply advancePsn_keeps
    | with_reducible exact engineReads_keeps _ _ hk (by assumption)
    | split
theorem recvAtomic_keeps {s0 s : State} (c : Conn) (psn rkey va : Nat) (new : Nat → Nat) (hk : Keeps s0 s) : Keeps s0 (recvAtomic c psn rkey va new s) := by
  unfold recvAtomic
  repeat' first
    | with_reducible assumption
    | with_reducible apply nakError_keeps
    | with_reducible apply targetRefused_keeps
    | with_reducible apply txAeth_keeps
    | with_reducible apply advancePsn_keeps
    | with_reducible apply hamWrite_keeps
    | with_reducible exact engineReads_keeps _ _ hk (by assumption)
    | split
theorem multiReceived_keeps {s0 s : State} (n : Nat) (psn : Nat) (hk : Keeps s0 s) : Keeps s0 (multiReceived n psn s) := by
  unfold multiReceived
  repeat' first
    | with_reducible assumption
    | with_reducible apply updConn_keeps
    | with_reducible apply sendAck_keeps
    | with_reducible refine Keeps.ite (fun _ => ?_) (fun _ => ?_)
    | split
theorem recvMulti_keeps {s0 s : State} (c : Conn) (psn : Nat) (rkey : Nat) (va : Nat) (len : Nat) (m : Mpeth) (bytes : List Byte) (hk : Keeps s0 s) : Keeps s0 (recvMulti c psn rkey va len m bytes s) := by
  unfold recvMulti
  repeat' first
    | with_reducible apply countEvent_keeps
    | with_reducible apply updConn_keeps
    | with_reducible apply nak_keeps
    | with_reducible apply nakError_keeps
    | with_reducible apply hamWrite_keeps
    | with_reducible apply targetRefused_keeps
    | with_reducible apply multiReceived_keeps
    | (with_reducible refine Keeps.lit hk ?_ ?_ ?_ ?_ ?_ ?_ ?_ ?_ ?_ ?_ ?_ <;> rfl)
    | (dsimp only)
    | split
theorem releaseSent_keeps {s0 s : State} (n : Nat) (psn : Nat) (hk : Keeps s0 s) : Keeps s0 (releaseSent n psn s) := by
  unfold releaseSent
  repeat' first
    | with_reducible assumption
    | with_reducible apply updConn_keeps
theorem resendSent_keeps {s0 s : State} (n : Nat) (hk : Keeps s0 s) : Keeps s0 (resendSent n s) := by
  unfold resendSent
  repeat' first
    | with_reducible assumption
    | with_reducible apply txPacket_keeps
    | with_reducible refine Keeps.foldl _ (fun s a h => ?_) ?_
    | split
theorem ackCredits_keeps {s0 s : State} (n : Nat) (psn : Nat) (code : Nat) (hk : Keeps s0 s) : Keeps s0 (ackCredits n psn code s) := by
  unfold ackCredits
  repeat' first
    | with_reducible assumption
    | with_reducible apply updConn_keeps
    | with_reducible apply pumpConn_keeps
    | with_reducible apply releaseSent_keeps
    | with_reducible refine Keeps.ite (fun _ => ?_) (fun _ => ?_)
theorem recvAck_keeps {s0 s : State} (n : Nat) (psn : Nat) (syndrome : Nat) (hk : Keeps s0 s) : Keeps s0 (recvAck n psn syndrome s) := by
  unfold recvAck
  repeat' first
    | with_reducible assumption
    | with_reducible apply errorConn_keeps
    | with_reducible apply releaseSent_keeps
    | with_reducible apply resendSent_keeps
    | with_reducible apply ackCredits_keeps
    | with_reducible refine Keeps.ite (fun _ => ?_) (fun _ => ?_)
theorem runRequest_keeps {s0 s : State} (c : Conn) (psn : Nat) (p : RocePkt) (hk : Keeps s0 s) : Keeps s0 (runRequest c psn p s) := by
  unfold runRequest
  repeat' first
    | with_reducible assumption
    | with_reducible apply nakError_keeps
    | with_reducible apply recvSend_keeps
    | with_reducible apply recvWrite_keeps
    | with_reducible apply recvRead_keeps
    | with_reducible apply recvAtomic_keeps
    | split
theorem recvSingle_keeps {s0 s : State} (c : Conn) (psn : Nat) (p : RocePkt) (hk : Keeps s0 s) : Keeps s0 (recvSingle c psn p s) := by
  unfold recvSingle
  repeat' first
    | with_reducible assumption
    | with_reducible apply sendAck_keeps
    | with_reducible apply nak_keeps
    | with_reducible apply runRequest_keeps
    | with_reducible refine Keeps.ite (fun _ => ?_) (fun _ => ?_)
theorem receive_keeps {s0 s : State} (n : Nat) (psn : Nat) (p : RocePkt) (hk : Keeps s0 s) : Keeps s0 (receive n psn p s) := by
  unfold receive
  repeat' first
    | with_reducible assumption
    | with_reducible apply updConn_keeps
    | with_reducible apply sendAck_keeps
    | with_reducible apply nak_keeps
    | with_reducible apply nakError_keeps
    | with_reducible apply recvMulti_keeps
    | with_reducible apply releaseSent_keeps
    | with_reducible apply recvAck_keeps
    | with_reducible apply recvSingle_keeps
    | split
theorem arrive_keeps {s0 s : State} (n : Nat) (psn : Nat) (p : RocePkt) (hk : Keeps s0 s) : Keeps s0 (arrive n psn p s) := by
  unfold arrive
  repeat' first
    | with_reducible assumption
    | with_reducible apply countEvent_keeps
    | with_reducible apply updConn_keeps
    | with_reducible apply withBridge_keeps
    | with_reducible apply receive_keeps
    | (intro s h)
    | (with_reducible refine Keeps.lit hk ?_ ?_ ?_ ?_ ?_ ?_ ?_ ?_ ?_ ?_ ?_ <;> rfl)
    | split
theorem writeBack_keeps {s0 s : State} (c : Conn) (hk : Keeps s0 s) : Keeps s0 (writeBack c s) := by
  unfold writeBack
  repeat' first
    | with_reducible assumption
    | with_reducible apply updConn_keeps
    | with_reducible apply hamWrite_keeps
theorem makeRoom_keeps {s0 s t : State} (hk : Keeps s0 s) (ht : makeRoom s = some t) : Keeps s0 t := by
  unfold makeRoom at ht
  split at ht
  · cases ht; exact hk
  · rw [Option.map_eq_some_iff] at ht
    obtain ⟨c, -, rfl⟩ := ht
    exact writeBack_keeps c hk
theorem retransmit_keeps {s0 s : State} (c : Conn) (hk : Keeps s0 s) : Keeps s0 (retransmit c s) := by
  unfold retransmit
  repeat' first
    | with_reducible assumption
    | with_reducible apply updConn_keeps
    | with_reducible apply errorConn_keeps
    | with_reducible apply withBridge_keeps
    | with_reducible apply resendSent_keeps
    | (intro s h)
    | with_reducible refine Keeps.ite (fun _ => ?_) (fun _ => ?_)
theorem contextReady_keeps {s0 s : State} (n : Nat) (q : List (Nat × RocePkt)) (due : Bool) (hk : Keeps s0 s) : Keeps s0 (contextReady n q due s) := by
  unfold contextReady
  repeat' first
    | with_reducible assumption
    | with_reducible apply pumpConn_keeps
    | with_reducible apply withBridge_keeps
    | with_reducible apply receive_keeps
    | with_reducible apply retransmit_keeps
    | (intro s h)
    | with_reducible refine Keeps.foldl _ (fun s a h => ?_) ?_
    | with_reducible refine Keeps.ite (fun _ => ?_) (fun _ => ?_)
    | split
theorem addConn_keeps {s0 s : State} (c : Conn) (hk : Keeps s0 s) : Keeps s0 (addConn c s) := by
  have h : Keeps s0 ((makeRoom s).getD s) := Keeps.getD hk (fun _ ht => makeRoom_keeps hk ht)
  unfold addConn
  exact h.upd rfl rfl rfl rfl rfl rfl rfl rfl rfl rfl rfl rfl
theorem cmReject_keeps {s0 s : State} (reason : Nat) (hk : Keeps s0 s) : Keeps s0 (cmReject reason s) := by
  unfold cmReject
  repeat' first
    | with_reducible assumption
    | with_reducible apply emit_keeps
theorem cmReq_keeps {s0 s : State} (sub : Nat) (cls : Nat) (mtu : Nat) (spi : Option Nat) (hk : Keeps s0 s) : Keeps s0 (cmReq sub cls mtu spi s) := by
  unfold cmReq
  repeat' first
    | with_reducible assumption
    | with_reducible apply countEvent_keeps
    | with_reducible apply cmSend_keeps
    | with_reducible apply addConn_keeps
    | with_reducible apply cmReject_keeps
    | with_reducible refine Keeps.ite (fun _ => ?_) (fun _ => ?_)
    | (dsimp only)
    | split
theorem tcpSyn_keeps {s0 s : State} (sub : Nat) (dstPort : Nat) (spi : Option Nat) (hk : Keeps s0 s) : Keeps s0 (tcpSyn sub dstPort spi s) := by
  unfold tcpSyn
  repeat' first
    | with_reducible assumption
    | with_reducible apply emit_keeps
    | with_reducible apply countEvent_keeps
    | with_reducible apply tcpSend_keeps
    | with_reducible apply addConn_keeps
    | with_reducible refine Keeps.ite (fun _ => ?_) (fun _ => ?_)
    | (dsimp only)
    | split
theorem freeConn_keeps {s0 s : State} (c : Conn) (hk : Keeps s0 s) : Keeps s0 (freeConn c s) := by
  unfold freeConn
  repeat' first
    | with_reducible assumption
    | with_reducible apply hamWrite_keeps
    | (with_reducible refine Keeps.lit (endAssociation_keeps _ ?_) ?_ ?_ ?_ ?_ ?_ ?_ ?_ ?_ ?_ ?_ ?_ <;> try rfl)
    | (with_reducible refine Keeps.lit (endMsgs_keeps _ _ ?_) ?_ ?_ ?_ ?_ ?_ ?_ ?_ ?_ ?_ ?_ ?_ <;> try rfl)
    | split
theorem espAccept_keeps {s0 s : State} (spi : Nat) (n : Nat) (hk : Keeps s0 s) : Keeps s0 (espAccept spi n s) := by
  unfold espAccept
  repeat' first
    | (with_reducible refine Keeps.lit hk ?_ ?_ ?_ ?_ ?_ ?_ ?_ ?_ ?_ ?_ ?_ <;> rfl)
theorem applyKeyInstallSa_keeps {s0 s : State} (d : Decision) (hk : Keeps s0 s) : Keeps s0 (applyKeyInstallSa d s) := by
  unfold applyKeyInstallSa
  repeat' first
    | with_reducible apply updConn_keeps
    | (with_reducible refine Keeps.lit hk ?_ ?_ ?_ ?_ ?_ ?_ ?_ ?_ ?_ ?_ ?_ <;> rfl)
    | (dsimp only)
    | split
theorem applyRegionRegister_keeps {s0 s : State} (d : Decision) (hk : Keeps s0 s) : Keeps s0 (applyRegionRegister d s) := by
  unfold applyRegionRegister
  repeat' first
    | with_reducible assumption
    | with_reducible apply setRegion_keeps
    | split
theorem applyRegionRevoke_keeps {s0 s : State} (d : Decision) (hk : Keeps s0 s) : Keeps s0 (applyRegionRevoke d s) := by
  unfold applyRegionRevoke
  repeat' first
    | with_reducible apply setRegion_keeps
    | split
    | (with_reducible refine Keeps.lit hk ?_ ?_ ?_ ?_ ?_ ?_ ?_ ?_ ?_ ?_ ?_ <;> rfl)
theorem applyConnTeardown_keeps {s0 s : State} (d : Decision) (hk : Keeps s0 s) : Keeps s0 (applyConnTeardown d s) := by
  unfold applyConnTeardown
  repeat' first
    | with_reducible assumption
    | with_reducible apply updConn_keeps
    | with_reducible apply withBridge_keeps
    | (intro s h)
    | split

end Sys2Proof.Machine
end

