-- ==== Sys2Proof/Laws/KeepsDurable.lean ====
section
/-! SUPPORT. The register writes, the volumes, replication and the effects of durable entries keep what Keeps says. -/

namespace Sys2Proof.Machine

set_option linter.unusedVariables false

/-! ### Registers -/

theorem takeRlkSnap_keeps {s0 s : State}  (hk : Keeps s0 s) : Keeps s0 (takeRlkSnap s) := by
  unfold takeRlkSnap
  repeat' first
    | (with_reducible refine Keeps.lit hk ?_ ?_ ?_ ?_ ?_ ?_ ?_ ?_ ?_ ?_ ?_ <;> rfl)
    | split
theorem takeRmaSnap_keeps {s0 s : State}  (hk : Keeps s0 s) : Keeps s0 (takeRmaSnap s) := by
  unfold takeRmaSnap
  repeat' first
    | (with_reducible refine Keeps.lit hk ?_ ?_ ?_ ?_ ?_ ?_ ?_ ?_ ?_ ?_ ?_ <;> rfl)
    | split
theorem takeCipSnap_keeps {s0 s : State}  (hk : Keeps s0 s) : Keeps s0 (takeCipSnap s) := by
  unfold takeCipSnap
  repeat' first
    | (with_reducible refine Keeps.lit hk ?_ ?_ ?_ ?_ ?_ ?_ ?_ ?_ ?_ ?_ ?_ <;> rfl)
theorem clearHost_keeps {s0 s : State} (off : Nat) (hk : Keeps s0 s) : Keeps s0 (clearHost off s) := by
  unfold clearHost
  repeat' first
    | with_reducible refine Keeps.ite (fun _ => ?_) (fun _ => ?_)
    | (with_reducible refine Keeps.lit hk ?_ ?_ ?_ ?_ ?_ ?_ ?_ ?_ ?_ ?_ ?_ <;> rfl)
theorem clearStore_keeps {s0 s : State} (off : Nat) (hk : Keeps s0 s) : Keeps s0 (clearStore off s) := by
  unfold clearStore
  repeat' first
    | with_reducible refine Keeps.ite (fun _ => ?_) (fun _ => ?_)
    | (with_reducible refine Keeps.lit hk ?_ ?_ ?_ ?_ ?_ ?_ ?_ ?_ ?_ ?_ ?_ <;> rfl)
theorem clearMedia_keeps {s0 s : State} (off : Nat) (hk : Keeps s0 s) : Keeps s0 (clearMedia off s) := by
  unfold clearMedia
  repeat' first
    | with_reducible refine Keeps.ite (fun _ => ?_) (fun _ => ?_)
    | (with_reducible refine Keeps.lit hk ?_ ?_ ?_ ?_ ?_ ?_ ?_ ?_ ?_ ?_ ?_ <;> rfl)
theorem clearPort_keeps {s0 s : State} (off : Nat) (hk : Keeps s0 s) : Keeps s0 (clearPort off s) := by
  unfold clearPort
  repeat' first
    | with_reducible assumption
    | with_reducible apply updPort_keeps
    | with_reducible refine Keeps.ite (fun _ => ?_) (fun _ => ?_)
theorem clearControl_keeps {s0 s : State} (off : Nat) (hk : Keeps s0 s) : Keeps s0 (clearControl off s) := by
  unfold clearControl
  repeat' first
    | with_reducible apply updLane_keeps
    | with_reducible refine Keeps.ite (fun _ => ?_) (fun _ => ?_)
    | (with_reducible refine Keeps.lit hk ?_ ?_ ?_ ?_ ?_ ?_ ?_ ?_ ?_ ?_ ?_ <;> rfl)
theorem clearRc_keeps {s0 s : State} (off : Nat) (hk : Keeps s0 s) : Keeps s0 (clearRc off s) := by
  unfold clearRc
  repeat' first
    | with_reducible assumption
    | with_reducible apply clearHost_keeps
    | with_reducible apply clearStore_keeps
    | with_reducible apply clearMedia_keeps
    | with_reducible apply clearPort_keeps
    | with_reducible apply clearControl_keeps
    | with_reducible refine Keeps.ite (fun _ => ?_) (fun _ => ?_)
theorem captureHi_keeps {s0 s : State} (off : Nat) (hk : Keeps s0 s) : Keeps s0 (captureHi off s) := by
  unfold captureHi
  repeat' first
    | (with_reducible refine Keeps.lit hk ?_ ?_ ?_ ?_ ?_ ?_ ?_ ?_ ?_ ?_ ?_ <;> rfl)
theorem readEffect_keeps {s0 s : State} (off : Nat) (hk : Keeps s0 s) : Keeps s0 (readEffect off s) := by
  unfold readEffect
  repeat' first
    | with_reducible assumption
    | with_reducible apply takeRlkSnap_keeps
    | with_reducible apply takeRmaSnap_keeps
    | with_reducible apply takeCipSnap_keeps
    | with_reducible apply clearRc_keeps
    | with_reducible apply captureHi_keeps
    | split
theorem winDirect_keeps {s0 s : State} (n : Nat) (k : Nat) (v : Nat) (requester : Nat) (hk : Keeps s0 s) : Keeps s0 (winDirect n k v requester s) := by
  unfold winDirect
  repeat' first
    | with_reducible refine Keeps.ite (fun _ => ?_) (fun _ => ?_)
    | (with_reducible refine Keeps.lit hk ?_ ?_ ?_ ?_ ?_ ?_ ?_ ?_ ?_ ?_ ?_ <;> rfl)
theorem writeBase_keeps {s0 s : State} (n : Nat) (f : Ring → Ring) (hk : Keeps s0 s) : Keeps s0 (writeBase n f s) := by
  unfold writeBase
  repeat' first
    | with_reducible assumption
    | with_reducible apply updRing_keeps
theorem writePlm_keeps {s0 s : State} (o : Nat) (v : Nat) (hk : Keeps s0 s) : Keeps s0 (writePlm o v s) := by
  unfold writePlm
  repeat' first
    | with_reducible assumption
    | with_reducible apply updRing_keeps
    | with_reducible apply ringCfgWrite_keeps
    | with_reducible apply tailDoorbell_keeps
    | with_reducible apply headDoorbell_keeps
    | with_reducible apply writeBase_keeps
    | with_reducible refine Keeps.ite (fun _ => ?_) (fun _ => ?_)
theorem writeSelector_keeps {s0 s : State} (off : Nat) (v : Nat) (hk : Keeps s0 s) : Keeps s0 (writeSelector off v s) := by
  unfold writeSelector
  repeat' first
    | with_reducible refine Keeps.ite (fun _ => ?_) (fun _ => ?_)
    | (with_reducible refine Keeps.lit hk ?_ ?_ ?_ ?_ ?_ ?_ ?_ ?_ ?_ ?_ ?_ <;> rfl)
theorem writePlain_keeps {s0 s : State} (off : Nat) (v : Nat) (hk : Keeps s0 s) : Keeps s0 (writePlain off v s) := by
  unfold writePlain
  repeat' first
    | with_reducible apply invAll_keeps
    | with_reducible apply writeSelector_keeps
    | with_reducible refine Keeps.ite (fun _ => ?_) (fun _ => ?_)
    | (with_reducible refine Keeps.lit hk ?_ ?_ ?_ ?_ ?_ ?_ ?_ ?_ ?_ ?_ ?_ <;> rfl)
theorem applyRegWrite_keeps {s0 s : State} (d : Decision) (hk : Keeps s0 s) : Keeps s0 (applyRegWrite d s) := by
  unfold applyRegWrite
  repeat' first
    | with_reducible apply writePlain_keeps
    | (with_reducible refine Keeps.lit hk ?_ ?_ ?_ ?_ ?_ ?_ ?_ ?_ ?_ ?_ ?_ <;> rfl)
    | split

/-! ### Volumes -/

theorem coldDone_keeps {s0 s : State} (tag : Nat) (k : Nat) (data : List Byte) (found : Option Nat) (hk : Keeps s0 s) : Keeps s0 (coldDone tag k data found s) := by
  unfold coldDone
  repeat' first
    | with_reducible assumption
    | with_reducible apply storeUnique_keeps
    | with_reducible apply useCandidate_keeps
    | split

/-! ### Repl -/

theorem updRepl_keeps {s0 s : State} (vol : Nat) (f : Repl → Repl) (hk : Keeps s0 s) : Keeps s0 (updRepl vol f s) := by
  unfold updRepl
  repeat' first
    | (with_reducible refine Keeps.lit hk ?_ ?_ ?_ ?_ ?_ ?_ ?_ ?_ ?_ ?_ ?_ <;> rfl)
theorem applyReplPair_keeps {s0 s : State} (d : Decision) (hk : Keeps s0 s) : Keeps s0 (applyReplPair d s) := by
  unfold applyReplPair
  repeat' first
    | with_reducible assumption
    | with_reducible apply cmSend_keeps
    | with_reducible apply addConn_keeps
    | (with_reducible refine Keeps.lit hk ?_ ?_ ?_ ?_ ?_ ?_ ?_ ?_ ?_ ?_ ?_ <;> rfl)
    | (dsimp only)
    | split
theorem applyReplStart_keeps {s0 s : State} (d : Decision) (hk : Keeps s0 s) : Keeps s0 (applyReplStart d s) := by
  unfold applyReplStart
  repeat' first
    | (with_reducible refine Keeps.lit hk ?_ ?_ ?_ ?_ ?_ ?_ ?_ ?_ ?_ ?_ ?_ <;> rfl)
    | split
theorem releaseSynced_keeps {s0 s : State} (vol : Nat) (f : Tag → Bool) (hk : Keeps s0 s) : Keeps s0 (releaseSynced vol f s) := by
  unfold releaseSynced
  repeat' first
    | with_reducible assumption
    | with_reducible apply endTag_keeps
    | with_reducible refine Keeps.foldl _ (fun s a h => ?_) ?_
theorem applyReplStop_keeps {s0 s : State} (d : Decision) (hk : Keeps s0 s) : Keeps s0 (applyReplStop d s) := by
  unfold applyReplStop
  repeat' first
    | with_reducible apply settle_keeps
    | with_reducible apply releaseSynced_keeps
    | (with_reducible refine Keeps.lit hk ?_ ?_ ?_ ?_ ?_ ?_ ?_ ?_ ?_ ?_ ?_ <;> rfl)
    | split

/-! ### Durable -/

theorem startService_keeps {s0 s : State}  (hk : Keeps s0 s) : Keeps s0 (startService s) := by
  unfold startService
  repeat' first
    | with_reducible assumption
    | with_reducible apply mirrorLoss_keeps
    | with_reducible apply applyServiceStart_keeps
    | with_reducible refine Keeps.ite (fun _ => ?_) (fun _ => ?_)
theorem stopService_keeps {s0 s : State}  (hk : Keeps s0 s) : Keeps s0 (stopService s) := by
  unfold stopService
  repeat' first
    | with_reducible assumption
    | with_reducible apply sealEarlyWhere_keeps
    | with_reducible apply applyServiceStop_keeps
theorem applyCommand_keeps {s0 s : State} (c : Cmd) (d : Decision) (hk : Keeps s0 s) : Keeps s0 (applyCommand c d s) := by
  unfold applyCommand
  repeat' first
    | with_reducible assumption
    | with_reducible apply applyAuditDrain_keeps
    | with_reducible apply applyBootRecordDrain_keeps
    | with_reducible apply applyOwnerEnroll_keeps
    | with_reducible apply applyConfigSeal_keeps
    | with_reducible apply applyRebuildCtrl_keeps
    | with_reducible apply applyLostListClear_keeps
    | with_reducible apply applyActivateImage_keeps
    | with_reducible apply applySessionOpen_keeps
    | with_reducible apply applySessionClose_keeps
    | with_reducible apply applyPortEnable_keeps
    | with_reducible apply applyDeviceDoze_keeps
    | with_reducible apply applyKeyGenerate_keeps
    | with_reducible apply applyKeyLoad_keeps
    | with_reducible apply applyKeyDestroy_keeps
    | with_reducible apply applyEvrClear_keeps
    | with_reducible apply applyHandleEligible_keeps
    | with_reducible apply applySelftest_keeps
    | with_reducible apply applyWvrInject_keeps
    | with_reducible apply applyWvrCapture_keeps
    | with_reducible apply applySetParam_keeps
    | with_reducible apply applySetParams_keeps
    | with_reducible apply applyKeyInstallSa_keeps
    | with_reducible apply applyRegionRegister_keeps
    | with_reducible apply applyConnTeardown_keeps
    | with_reducible apply applyRegWrite_keeps
    | with_reducible apply applyReplPair_keeps
    | with_reducible apply applyReplStart_keeps
    | with_reducible apply applyReplStop_keeps
    | with_reducible apply startService_keeps
    | with_reducible apply stopService_keeps
    | with_reducible refine Keeps.ite (fun _ => ?_) (fun _ => ?_)
theorem applyStart_keeps {s0 s : State} (c : Cmd) (d : Decision) (hk : Keeps s0 s) : Keeps s0 (applyStart c d s) := by
  unfold applyStart
  repeat' first
    | with_reducible assumption
    | with_reducible apply startLongOp_keeps
    | with_reducible apply applyRebuildCtrl_keeps
    | with_reducible apply applyStageImage_keeps
    | with_reducible apply applyPackFwLoad_keeps
    | with_reducible apply applyHandleTransfer_keeps
    | with_reducible apply applySecureDiscard_keeps
    | with_reducible apply applyRegionRevoke_keeps
    | with_reducible refine Keeps.ite (fun _ => ?_) (fun _ => ?_)
theorem opAnnounce_keeps {s0 s : State} (op : Nat) (nums : List Nat) (hk : Keeps s0 s) : Keeps s0 (opAnnounce op nums s) := by
  unfold opAnnounce
  repeat' first
    | with_reducible assumption
    | with_reducible apply announce_keeps
    | with_reducible refine Keeps.ite (fun _ => ?_) (fun _ => ?_)
theorem appendCommand_keeps {s0 s : State} (c : Cmd) (d : Decision) (hk : Keeps s0 s) : Keeps s0 (appendCommand c d s) := by
  unfold appendCommand
  repeat' first
    | with_reducible assumption
    | with_reducible apply appendOp_keeps
    | with_reducible apply settle_keeps
    | with_reducible apply opAnnounce_keeps
theorem drewSalt_keeps {s0 s : State} (c : Cmd) (hk : Keeps s0 s) : Keeps s0 (drewSalt c s) := by
  unfold drewSalt
  repeat' first
    | with_reducible refine Keeps.ite (fun _ => ?_) (fun _ => ?_)
    | (with_reducible refine Keeps.lit hk ?_ ?_ ?_ ?_ ?_ ?_ ?_ ?_ ?_ ?_ ?_ <;> rfl)
theorem afterEntry_keeps {s0 s : State} (c : Cmd) (d : Decision) (status : Nat) (detail : Nat) (seq : Option Nat) (hk : Keeps s0 s) : Keeps s0 (afterEntry c d status detail seq s) := by
  unfold afterEntry
  repeat' first
    | with_reducible apply deliver_keeps
    | with_reducible apply beginWarmReset_keeps
    | with_reducible apply powerWritten_keeps
    | with_reducible apply applyCommand_keeps
    | with_reducible apply applyStart_keeps
    | with_reducible apply appendCommand_keeps
    | with_reducible apply drewSalt_keeps
    | (with_reducible refine Keeps.lit hk ?_ ?_ ?_ ?_ ?_ ?_ ?_ ?_ ?_ ?_ ?_ <;> rfl)
    | split
theorem releaseHolds_keeps {s0 s : State} (c : Cmd) (hk : Keeps s0 s) : Keeps s0 (releaseHolds c s) := by
  unfold releaseHolds
  repeat' first
    | with_reducible assumption
    | with_reducible apply releaseLock_keeps
    | with_reducible apply settle_keeps
    | with_reducible refine Keeps.ite (fun _ => ?_) (fun _ => ?_)
theorem commandDurable_keeps {s0 s : State} (c : Cmd) (d : Decision) (hk : Keeps s0 s) : Keeps s0 (commandDurable c d s) := by
  unfold commandDurable
  repeat' first
    | with_reducible assumption
    | with_reducible apply appendEntry_keeps
    | with_reducible apply finishCmd_keeps
    | with_reducible apply setWall_keeps
    | with_reducible apply afterEntry_keeps
    | with_reducible apply releaseHolds_keeps
    | with_reducible refine Keeps.ite (fun _ => ?_) (fun _ => ?_)
theorem refuseDirect_keeps {s0 s : State}  (hk : Keeps s0 s) : Keeps s0 (refuseDirect s) := by
  unfold refuseDirect
  repeat' first
    | (with_reducible refine Keeps.lit hk ?_ ?_ ?_ ?_ ?_ ?_ ?_ ?_ ?_ ?_ ?_ <;> rfl)
theorem windowDurable_keeps {s0 s : State} (off : Nat) (v : Nat) (requester : Nat) (hk : Keeps s0 s) : Keeps s0 (windowDurable off v requester s) := by
  unfold windowDurable
  repeat' first
    | with_reducible apply refuseDirect_keeps
    | with_reducible refine Keeps.ite (fun _ => ?_) (fun _ => ?_)
    | (with_reducible refine Keeps.lit hk ?_ ?_ ?_ ?_ ?_ ?_ ?_ ?_ ?_ ?_ ?_ <;> rfl)
    | (with_reducible refine Keeps.lit (appendEntry_keeps _ ?_) ?_ ?_ ?_ ?_ ?_ ?_ ?_ ?_ ?_ ?_ ?_ <;> try rfl)
    | split
theorem parkDurable_keeps {s0 s : State} (core : Nat) (park : Bool) (hk : Keeps s0 s) : Keeps s0 (parkDurable core park s) := by
  unfold parkDurable
  repeat' first
    | with_reducible assumption
    | with_reducible apply appendEntry_keeps
    | with_reducible apply applyPark_keeps
    | with_reducible apply refuseDirect_keeps
    | with_reducible refine Keeps.ite (fun _ => ?_) (fun _ => ?_)
theorem waitedMeasurement_keeps {s0 s : State} (e : AuditEntry) (hk : Keeps s0 s) : Keeps s0 (waitedMeasurement e s) := by
  unfold waitedMeasurement
  repeat' first
    | with_reducible assumption
    | with_reducible apply startMirror_keeps
    | with_reducible apply updateMember_keeps
    | with_reducible refine Keeps.ite (fun _ => ?_) (fun _ => ?_)
theorem appendWaiting_keeps {s0 s : State} (e : AuditEntry) (pkt : Option StatusPkt) (hk : Keeps s0 s) : Keeps s0 (appendWaiting e pkt s) := by
  unfold appendWaiting
  repeat' first
    | with_reducible apply waitedMeasurement_keeps
    | with_reducible assumption
    | with_reducible apply finishCmd_keeps
    | with_reducible apply waitedDeclaration_keeps
    | (with_reducible refine Keeps.lit (appendEntry_keeps _ ?_) ?_ ?_ ?_ ?_ ?_ ?_ ?_ ?_ ?_ ?_ ?_ <;> try rfl)
    | (dsimp only)
    | split

/-! ### Reads -/

theorem portDrained_keeps {s0 s : State}  (hk : Keeps s0 s) : Keeps s0 (portDrained s) := by
  unfold portDrained
  repeat' first
    | with_reducible assumption
    | with_reducible apply commandDurable_keeps
    | with_reducible apply windowDurable_keeps
    | with_reducible apply parkDurable_keeps
    | with_reducible refine Keeps.foldl _ (fun s a h => ?_) ?_
    | split
theorem barRead_keeps {s0 s : State} (off : Nat) (hk : Keeps s0 s) : Keeps s0 (barRead off s) := by
  unfold barRead
  repeat' first
    | with_reducible assumption
    | with_reducible apply emit_keeps
    | with_reducible apply readEffect_keeps

/-! ### Respond -/

theorem carryAnswered_keeps {s0 s : State} (r : PeerReq) (status : Nat) (detail : Nat) (bytes : List Byte) (hk : Keeps s0 s) : Keeps s0 (carryAnswered r status detail bytes s) := by
  unfold carryAnswered
  repeat' first
    | with_reducible assumption
    | with_reducible apply completePlain_keeps
    | with_reducible apply takeDecision_keeps
    | with_reducible apply dropLocks_keeps
    | with_reducible refine Keeps.ite (fun _ => ?_) (fun _ => ?_)
    | (dsimp only)
    | split
theorem refAnswered_keeps {s0 s : State} (r : PeerReq) (value : Nat) (hk : Keeps s0 s) : Keeps s0 (refAnswered r value s) := by
  unfold refAnswered
  repeat' first
    | with_reducible assumption
    | with_reducible apply takeMatch_keeps
    | with_reducible apply countDup_keeps
    | with_reducible apply settle_keeps
    | with_reducible apply requestLost_keeps
    | with_reducible refine Keeps.ite (fun _ => ?_) (fun _ => ?_)
theorem relayAnswered_keeps {s0 s : State} (r : PeerReq) (status : Nat) (hk : Keeps s0 s) : Keeps s0 (relayAnswered r status s) := by
  unfold relayAnswered
  repeat' first
    | with_reducible assumption
    | with_reducible apply strikeUnreadable_keeps
    | with_reducible apply requestLost_keeps
    | with_reducible refine Keeps.ite (fun _ => ?_) (fun _ => ?_)

/-! ### Spdm -/

theorem spdmRespond_keeps {s0 s : State} (code : Nat) (bytes : List Byte) (hk : Keeps s0 s) : Keeps s0 (spdmRespond code bytes s) := by
  unfold spdmRespond
  repeat' first
    | with_reducible assumption
    | with_reducible apply sendMctp_keeps
    | with_reducible refine Keeps.ite (fun _ => ?_) (fun _ => ?_)
    | (with_reducible refine Keeps.lit hk ?_ ?_ ?_ ?_ ?_ ?_ ?_ ?_ ?_ ?_ ?_ <;> rfl)
theorem dropSpdm_keeps {s0 s : State} (k : Nat) (hk : Keeps s0 s) : Keeps s0 (dropSpdm k s) := by
  unfold dropSpdm
  repeat' first
    | with_reducible assumption
    | with_reducible apply updRing_keeps
    | with_reducible apply endSession_keeps
    | with_reducible apply discardCmds_keeps
    | with_reducible refine Keeps.ite (fun _ => ?_) (fun _ => ?_)
    | (with_reducible refine Keeps.lit (Keeps.foldl _ (fun s a h => ?_) ?_) ?_ ?_ ?_ ?_ ?_ ?_ ?_ ?_ ?_ ?_ ?_ <;> try rfl)

end Sys2Proof.Machine
end

