-- ==== Sys2Proof/Laws/KeepsExecA.lean ====
section
/-! SUPPORT. The commands keep what Keeps says: Base, PlemOps, Border, Carry, Rebuild, Firmware, Power. -/

namespace Sys2Proof.Machine

set_option linter.unusedVariables false

/-! ### Base -/

/-- A next state, if there is one, keeps what Keeps says. -/
structure ResKeeps (s0 : State) (r : Result) : Prop where
  keeps : ∀ t, r = .next t → Keeps s0 t
theorem ResKeeps.next {s0 t : State} (h : Keeps s0 t) : ResKeeps s0 (.next t) := ⟨fun _ e => by cases e; exact h⟩
theorem ResKeeps.refused {s0 : State} (r : Refusal) : ResKeeps s0 (.refused r) := ⟨fun _ e => by cases e⟩
theorem ResKeeps.ite {s0 : State} {a b : Result} {c : Prop} [Decidable c] (ha : c → ResKeeps s0 a) (hb : ¬c → ResKeeps s0 b) : ResKeeps s0 (if c then a else b) := by
  split
  · exact ha ‹_›
  · exact hb ‹_›


/-! A guarded step keeps what its inner step keeps. -/

theorem fast_keepsR {s0 s : State} {r : Result} (hk : Keeps s0 s) (hr : ResKeeps s0 r) : ResKeeps s0 (fast s r) :=
  ResKeeps.ite (fun _ => ResKeeps.next hk) (fun _ => hr)
theorem alive_keepsR {s0 s : State} {r : Result} (hk : Keeps s0 s) (hr : ResKeeps s0 r) : ResKeeps s0 (alive s r) :=
  ResKeeps.ite (fun _ => ResKeeps.next hk) (fun _ => hr)
theorem engine_keepsR {s0 s : State} {r : Result} (hk : Keeps s0 s) (hr : ResKeeps s0 r) : ResKeeps s0 (engine s r) :=
  ResKeeps.ite (fun _ => ResKeeps.next hk) (fun _ => hr)
theorem wire_keepsR {s0 s : State} {r : Result} (hk : Keeps s0 s) (hr : ResKeeps s0 r) : ResKeeps s0 (wire s r) :=
  alive_keepsR hk (ResKeeps.ite (fun _ => ResKeeps.next (hk.upd rfl rfl rfl rfl rfl rfl rfl rfl rfl rfl rfl rfl)) (fun _ => hr))
theorem planeStep_keepsR {s0 s : State} {r : Result} (plane : Nat) (hk : Keeps s0 s) (hr : ResKeeps s0 r) : ResKeeps s0 (planeStep plane s r) :=
  ResKeeps.ite (fun _ => fast_keepsR hk hr) (fun _ => engine_keepsR hk hr)

/-! ### PlemOps -/

theorem plainOp_keepsR {s0 s : State} (op bufOff : Nat) (decision : State → Cmd → Decision) (effect : Cmd → Decision → State → State)
    (ring seq : Nat) (hk : Keeps s0 s) (he : ∀ c d s, Keeps s0 s → Keeps s0 (effect c d s)) :
    ResKeeps s0 (plainOp op bufOff decision effect ring seq s) := by
  unfold plainOp
  split
  · exact ResKeeps.next hk
  · refine ResKeeps.next ?_
    apply completePlain_keeps
    exact Keeps.ite (fun _ => he _ _ _ hk) (fun _ => hk)
theorem auditedOp_keepsR {s0 s : State} (op : Nat) (decision : State → Cmd → Decision) (ring : Nat) (seq : Nat) (hk : Keeps s0 s) : ResKeeps s0 (auditedOp op decision ring seq s) := by
  unfold auditedOp
  repeat' first
    | with_reducible refine ResKeeps.next ?_
    | with_reducible apply markTaken_keeps
    | (with_reducible refine Keeps.lit hk ?_ ?_ ?_ ?_ ?_ ?_ ?_ ?_ ?_ ?_ ?_ <;> rfl)
    | split

/-! ### Border -/

theorem execBootRecordSeal_keepsR {s0 s : State}  (hk : Keeps s0 s) : ResKeeps s0 (execBootRecordSeal s) := by
  unfold execBootRecordSeal
  refine fast_keepsR hk ?_
  repeat' first
    | with_reducible refine ResKeeps.next ?_
    | with_reducible refine ResKeeps.ite (fun _ => ?_) (fun _ => ?_)
    | with_reducible apply sealRecord_keeps
    | (with_reducible refine Keeps.lit hk ?_ ?_ ?_ ?_ ?_ ?_ ?_ ?_ ?_ ?_ ?_ <;> rfl)
theorem execBootCounterIncrement_keepsR {s0 s : State} (hk : Keeps s0 s) : ResKeeps s0 (execBootCounterIncrement s) := by
  unfold execBootCounterIncrement
  refine fast_keepsR hk (ResKeeps.ite (fun _ => ResKeeps.next (releaseEarly_keeps (deriveAlias_keeps ?_))) (fun _ => ResKeeps.next hk))
  exact ⟨hk.pending, hk.mem, hk.chain, hk.linked, Nat.le_succ_of_le hk.counter, hk.epoch, hk.silent, hk.trip, hk.cause, hk.serial, hk.uds, hk.owner, hk.floors, hk.udsShut, hk.latch, hk.fault⟩
theorem execAuditRead_keepsR {s0 s : State} (ring : Nat) (seq : Nat) (hk : Keeps s0 s) : ResKeeps s0 (execAuditRead ring seq s) := by
  unfold execAuditRead
  refine fast_keepsR hk ?_
  repeat' first
    | with_reducible assumption
    | with_reducible apply plainOp_keepsR
    | (intro _)
theorem execAuditDrain_keepsR {s0 s : State} (ring : Nat) (seq : Nat) (hk : Keeps s0 s) : ResKeeps s0 (execAuditDrain ring seq s) := by
  unfold execAuditDrain
  refine fast_keepsR hk ?_
  repeat' first
    | with_reducible assumption
    | with_reducible apply auditedOp_keepsR
theorem execAuditSeal_keepsR {s0 s : State} (ring : Nat) (seq : Nat) (hk : Keeps s0 s) : ResKeeps s0 (execAuditSeal ring seq s) := by
  unfold execAuditSeal
  refine fast_keepsR hk ?_
  repeat' first
    | with_reducible assumption
    | with_reducible apply auditedOp_keepsR
theorem execBootRecordRead_keepsR {s0 s : State} (ring : Nat) (seq : Nat) (hk : Keeps s0 s) : ResKeeps s0 (execBootRecordRead ring seq s) := by
  unfold execBootRecordRead
  refine fast_keepsR hk ?_
  repeat' first
    | with_reducible assumption
    | with_reducible apply plainOp_keepsR
    | (intro _)
theorem execBootRecordDrain_keepsR {s0 s : State} (ring : Nat) (seq : Nat) (hk : Keeps s0 s) : ResKeeps s0 (execBootRecordDrain ring seq s) := by
  unfold execBootRecordDrain
  refine fast_keepsR hk ?_
  repeat' first
    | with_reducible assumption
    | with_reducible apply auditedOp_keepsR
theorem execAttestQuote_keepsR {s0 s : State} (ring : Nat) (seq : Nat) (hk : Keeps s0 s) : ResKeeps s0 (execAttestQuote ring seq s) := by
  unfold execAttestQuote
  repeat' first
    | with_reducible assumption
    | with_reducible refine ResKeeps.next ?_
    | with_reducible refine fast_keepsR hk ?_
    | with_reducible apply plainOp_keepsR
    | with_reducible refine ResKeeps.ite (fun _ => ?_) (fun _ => ?_)
    | (intro _)
theorem execOwnerEnroll_keepsR {s0 s : State} (ring : Nat) (seq : Nat) (hk : Keeps s0 s) : ResKeeps s0 (execOwnerEnroll ring seq s) := by
  unfold execOwnerEnroll
  refine fast_keepsR hk ?_
  repeat' first
    | with_reducible assumption
    | with_reducible apply auditedOp_keepsR
theorem execConfigSeal_keepsR {s0 s : State} (ring : Nat) (seq : Nat) (hk : Keeps s0 s) : ResKeeps s0 (execConfigSeal ring seq s) := by
  unfold execConfigSeal
  refine fast_keepsR hk ?_
  repeat' first
    | with_reducible assumption
    | with_reducible apply auditedOp_keepsR
theorem execSetTime_keepsR {s0 s : State} (ring : Nat) (seq : Nat) (hk : Keeps s0 s) : ResKeeps s0 (execSetTime ring seq s) := by
  unfold execSetTime
  refine fast_keepsR hk ?_
  repeat' first
    | with_reducible assumption
    | with_reducible apply auditedOp_keepsR
theorem execPtpSyncReceived_keepsR {s0 s : State} (port : Nat) (domain : Nat) (transport : Nat) (wall : Nat) (offset : Int) (hk : Keeps s0 s) : ResKeeps s0 (execPtpSyncReceived port domain transport wall offset s) := by
  unfold execPtpSyncReceived
  refine fast_keepsR hk ?_
  repeat' first
    | with_reducible assumption
    | with_reducible refine ResKeeps.next ?_
    | with_reducible refine ResKeeps.ite (fun _ => ?_) (fun _ => ?_)
    | (with_reducible refine Keeps.lit (setWall_keeps _ _ ?_) ?_ ?_ ?_ ?_ ?_ ?_ ?_ ?_ ?_ ?_ ?_ <;> try rfl)
theorem execPtpHoldoverExpiry_keepsR {s0 s : State}  (hk : Keeps s0 s) : ResKeeps s0 (execPtpHoldoverExpiry s) := by
  unfold execPtpHoldoverExpiry
  refine fast_keepsR hk ?_
  repeat' first
    | with_reducible refine ResKeeps.next ?_
    | with_reducible refine ResKeeps.ite (fun _ => ?_) (fun _ => ?_)
    | with_reducible apply countEvent_keeps
    | with_reducible apply borderEvent_keeps
    | (with_reducible refine Keeps.lit hk ?_ ?_ ?_ ?_ ?_ ?_ ?_ ?_ ?_ ?_ ?_ <;> rfl)
theorem execFailSilentCauseRecord_keepsR {s0 s : State} (hk : Keeps s0 s) : ResKeeps s0 (execFailSilentCauseRecord s) := by
  unfold execFailSilentCauseRecord
  refine fast_keepsR hk ?_
  split
  · rename_i hv
    simp only [Bool.and_eq_true] at hv
    refine ResKeeps.next ?_
    dsimp only
    have h := borderEvent_keeps 0xFF17 ([BitVec.ofNat 8 s.aon.cause.cls, 0] ++ leBytes 2 s.aon.cause.code ++ leBytes 8 s.aon.cause.ns ++
      leBytes 8 s.aon.cause.boot ++ zeros 4) hk
    exact ⟨h.pending, h.mem, h.chain, h.linked, h.counter, h.epoch, h.silent, h.trip, fun _ => hv.1.1.1, h.serial, h.uds, h.owner, h.floors, h.udsShut, h.latch, h.fault⟩
  · exact ResKeeps.next hk

/-! ### Carry -/

theorem carryOut_keepsR {s0 s : State} (c : Cmd) (needs : List LockNeed) (hk : Keeps s0 s) : ResKeeps s0 (carryOut c needs s) := by
  unfold carryOut
  repeat' first
    | with_reducible assumption
    | with_reducible refine ResKeeps.next ?_
    | with_reducible refine ResKeeps.ite (fun _ => ?_) (fun _ => ?_)
    | with_reducible apply settle_keeps
    | with_reducible apply carryCmd_keeps
    | with_reducible apply addNeeds_keeps
    | with_reducible refine Keeps.ite (fun _ => ?_) (fun _ => ?_)
theorem carryOr_keepsR {s0 s : State} (c : Cmd) (needs : List LockNeed) (here : State → Result) (hk : Keeps s0 s)
    (hh : ∀ s, Keeps s0 s → ResKeeps s0 (here s)) : ResKeeps s0 (carryOr c needs here s) := by
  unfold carryOr
  repeat' split
  · exact hh s hk
  · exact ResKeeps.next hk
  · exact ResKeeps.next hk
  · exact ResKeeps.next (takeDecision_keeps _ _ hk)
  · exact ResKeeps.next hk
  · exact carryOut_keepsR _ _ hk
theorem coilStage6_keepsR {s0 s : State} (c : Cmd) (decision : State → Cmd → Decision) (needs : State → Cmd → List LockNeed) (hk : Keeps s0 s) : ResKeeps s0 (coilStage6 c decision needs s) := by
  unfold coilStage6
  repeat' first
    | with_reducible assumption
    | with_reducible refine ResKeeps.next ?_
    | with_reducible refine ResKeeps.ite (fun _ => ?_) (fun _ => ?_)
    | with_reducible apply drewFree_keeps
    | with_reducible apply releaseLock_keeps
    | with_reducible apply numberVolumes_keeps
    | with_reducible apply settle_keeps
    | with_reducible apply takeDecision_keeps
    | with_reducible apply addNeeds_keeps
    | with_reducible refine Keeps.ite (fun _ => ?_) (fun _ => ?_)
theorem coilOp_keepsR {s0 s : State} (op : Nat) (decision : State → Cmd → Decision) (needs : State → Cmd → List LockNeed) (ring : Nat) (seq : Nat) (hk : Keeps s0 s) : ResKeeps s0 (coilOp op decision needs ring seq s) := by
  unfold coilOp
  repeat' first
    | with_reducible assumption
    | with_reducible refine ResKeeps.next ?_
    | with_reducible apply carryOr_keepsR
    | with_reducible apply coilStage6_keepsR
    | (intro _)
    | split

/-! ### Rebuild -/

theorem execAbsenceDeclareTimeout_keepsR {s0 s : State} (port : Nat) (hk : Keeps s0 s) : ResKeeps s0 (execAbsenceDeclareTimeout port s) := by
  unfold execAbsenceDeclareTimeout
  refine alive_keepsR hk ?_
  repeat' first
    | with_reducible assumption
    | with_reducible refine ResKeeps.next ?_
    | with_reducible refine ResKeeps.ite (fun _ => ?_) (fun _ => ?_)
    | with_reducible apply declareFailed_keeps
theorem execQueueReorder_keepsR {s0 s : State}  (hk : Keeps s0 s) : ResKeeps s0 (execQueueReorder s) := by
  unfold execQueueReorder
  refine engine_keepsR hk ?_
  repeat' first
    | with_reducible assumption
    | with_reducible refine ResKeeps.next ?_
    | with_reducible apply reorderQueue_keeps
    | with_reducible apply loseSegment_keeps
    | with_reducible refine Keeps.foldl _ (fun s a h => ?_) ?_
theorem execSegmentReconstructDone_keepsR {s0 s : State} (seg : Nat) (mismatch : Bool) (hk : Keeps s0 s) : ResKeeps s0 (execSegmentReconstructDone seg mismatch s) := by
  unfold execSegmentReconstructDone
  refine engine_keepsR hk ?_
  repeat' first
    | with_reducible assumption
    | with_reducible refine ResKeeps.next ?_
    | with_reducible apply countEvent_keeps
    | with_reducible apply failSilent_keeps
    | with_reducible apply loseSegment_keeps
    | with_reducible apply rebuildStrip_keeps
    | with_reducible apply holdBack_keeps
    | with_reducible refine Keeps.foldl _ (fun s a h => ?_) ?_
    | (with_reducible refine Keeps.lit hk ?_ ?_ ?_ ?_ ?_ ?_ ?_ ?_ ?_ ?_ ?_ <;> rfl)
    | split
theorem execRebuildBatchCommit_keepsR {s0 s : State}  (hk : Keeps s0 s) : ResKeeps s0 (execRebuildBatchCommit s) := by
  unfold execRebuildBatchCommit
  refine engine_keepsR hk ?_
  repeat' first
    | with_reducible assumption
    | with_reducible refine ResKeeps.next ?_
    | with_reducible refine ResKeeps.ite (fun _ => ?_) (fun _ => ?_)
    | with_reducible apply appendOp_keeps
theorem execRebuildEnd_keepsR {s0 s : State} (port : Nat) (hk : Keeps s0 s) : ResKeeps s0 (execRebuildEnd port s) := by
  unfold execRebuildEnd
  refine engine_keepsR hk ?_
  repeat' first
    | with_reducible assumption
    | with_reducible refine ResKeeps.next ?_
    | with_reducible refine ResKeeps.ite (fun _ => ?_) (fun _ => ?_)
    | with_reducible apply endLongOp_keeps
    | with_reducible apply updPack_keeps
    | (with_reducible refine Keeps.lit (borderEvent_keeps _ _ ?_) ?_ ?_ ?_ ?_ ?_ ?_ ?_ ?_ ?_ ?_ ?_ <;> try rfl)
    | split
theorem execCheckpointTimer_keepsR {s0 s : State}  (hk : Keeps s0 s) : ResKeeps s0 (execCheckpointTimer s) := by
  unfold execCheckpointTimer
  refine engine_keepsR hk ?_
  repeat' first
    | with_reducible assumption
    | with_reducible refine ResKeeps.next ?_
    | with_reducible refine ResKeeps.ite (fun _ => ?_) (fun _ => ?_)
    | with_reducible apply writeCheckpoint_keeps
theorem execCheckpointLoad_keepsR {s0 s : State} (valid : List Nat) (hk : Keeps s0 s) : ResKeeps s0 (execCheckpointLoad valid s) := by
  unfold execCheckpointLoad
  refine alive_keepsR hk ?_
  repeat' first
    | with_reducible refine ResKeeps.next ?_
    | with_reducible refine ResKeeps.ite (fun _ => ?_) (fun _ => ?_)
    | with_reducible apply countEvent_keeps
    | with_reducible apply reorderQueue_keeps
    | (with_reducible refine Keeps.lit hk ?_ ?_ ?_ ?_ ?_ ?_ ?_ ?_ ?_ ?_ ?_ <;> rfl)
theorem execRebuildCtrl_keepsR {s0 s : State} (ring : Nat) (seq : Nat) (hk : Keeps s0 s) : ResKeeps s0 (execRebuildCtrl ring seq s) := by
  unfold execRebuildCtrl
  refine fast_keepsR hk ?_
  repeat' first
    | with_reducible assumption
    | with_reducible refine ResKeeps.next ?_
    | with_reducible apply auditedOp_keepsR
    | with_reducible apply coilOp_keepsR
    | split
theorem execLostListRead_keepsR {s0 s : State} (ring : Nat) (seq : Nat) (hk : Keeps s0 s) : ResKeeps s0 (execLostListRead ring seq s) := by
  unfold execLostListRead
  refine fast_keepsR hk ?_
  repeat' first
    | with_reducible assumption
    | with_reducible apply plainOp_keepsR
    | (intro _)
theorem execLostListClear_keepsR {s0 s : State} (ring : Nat) (seq : Nat) (hk : Keeps s0 s) : ResKeeps s0 (execLostListClear ring seq s) := by
  unfold execLostListClear
  refine fast_keepsR hk ?_
  repeat' first
    | with_reducible assumption
    | with_reducible apply auditedOp_keepsR

/-! ### Firmware -/

theorem execFirmwareBootCheck_keepsR {s0 s : State} (comp : Nat) (hk : Keeps s0 s) : ResKeeps s0 (execFirmwareBootCheck comp s) := by
  unfold execFirmwareBootCheck
  repeat' first
    | with_reducible assumption
    | with_reducible refine ResKeeps.next ?_
    | with_reducible refine fast_keepsR hk ?_
    | with_reducible refine ResKeeps.ite (fun _ => ?_) (fun _ => ?_)
    | with_reducible apply recordMeas_keeps
    | with_reducible apply deriveAlias_keeps
    | with_reducible apply rewriteDirectory_keeps
    | with_reducible refine Keeps.ite (fun _ => ?_) (fun _ => ?_)
    | (with_reducible refine Keeps.lit hk ?_ ?_ ?_ ?_ ?_ ?_ ?_ ?_ ?_ ?_ ?_ <;> rfl)
theorem execStageImage_keepsR {s0 s : State} (ring : Nat) (seq : Nat) (hk : Keeps s0 s) : ResKeeps s0 (execStageImage ring seq s) := by
  unfold execStageImage
  refine fast_keepsR hk ?_
  repeat' first
    | with_reducible assumption
    | with_reducible apply auditedOp_keepsR
theorem execStageImageChunkDone_keepsR {s0 s : State}  (hk : Keeps s0 s) : ResKeeps s0 (execStageImageChunkDone s) := by
  unfold execStageImageChunkDone
  refine fast_keepsR hk ?_
  repeat' first
    | with_reducible refine ResKeeps.next ?_
    | with_reducible refine ResKeeps.ite (fun _ => ?_) (fun _ => ?_)
    | (with_reducible refine Keeps.lit hk ?_ ?_ ?_ ?_ ?_ ?_ ?_ ?_ ?_ ?_ ?_ <;> rfl)
    | (with_reducible refine Keeps.lit (endLongOp_keeps _ _ _ _ ?_) ?_ ?_ ?_ ?_ ?_ ?_ ?_ ?_ ?_ ?_ ?_ <;> try rfl)
    | (with_reducible refine Keeps.lit (placeImage_keeps _ _ ?_) ?_ ?_ ?_ ?_ ?_ ?_ ?_ ?_ ?_ ?_ ?_ <;> try rfl)
    | split
theorem execActivateImage_keepsR {s0 s : State} (ring : Nat) (seq : Nat) (hk : Keeps s0 s) : ResKeeps s0 (execActivateImage ring seq s) := by
  unfold execActivateImage
  refine fast_keepsR hk ?_
  repeat' first
    | with_reducible assumption
    | with_reducible apply auditedOp_keepsR
theorem execFwQuery_keepsR {s0 s : State} (ring : Nat) (seq : Nat) (hk : Keeps s0 s) : ResKeeps s0 (execFwQuery ring seq s) := by
  unfold execFwQuery
  refine fast_keepsR hk ?_
  repeat' first
    | with_reducible assumption
    | with_reducible apply plainOp_keepsR
    | (intro _)
theorem execMigrateStatus_keepsR {s0 s : State} (ring : Nat) (seq : Nat) (hk : Keeps s0 s) : ResKeeps s0 (execMigrateStatus ring seq s) := by
  unfold execMigrateStatus
  refine fast_keepsR hk ?_
  repeat' first
    | with_reducible assumption
    | with_reducible apply plainOp_keepsR
    | (intro _)
theorem execFormatRaise_keepsR {s0 s : State} (peerFmtWrite : Nat) (hk : Keeps s0 s) : ResKeeps s0 (execFormatRaise peerFmtWrite s) := by
  unfold execFormatRaise
  repeat' first
    | with_reducible refine ResKeeps.next ?_
    | with_reducible refine fast_keepsR hk ?_
    | with_reducible refine ResKeeps.ite (fun _ => ?_) (fun _ => ?_)
    | with_reducible apply appendOp_keeps
    | (with_reducible refine Keeps.lit hk ?_ ?_ ?_ ?_ ?_ ?_ ?_ ?_ ?_ ?_ ?_ <;> rfl)
    | (with_reducible refine Keeps.lit (borderEvent_keeps _ _ ?_) ?_ ?_ ?_ ?_ ?_ ?_ ?_ ?_ ?_ ?_ ?_ <;> try rfl)
theorem execFormatMigrationEnd_keepsR {s0 s : State} (hk : Keeps s0 s) : ResKeeps s0 (execFormatMigrationEnd s) := by
  unfold execFormatMigrationEnd
  exact fast_keepsR hk (ResKeeps.ite
    (fun _ => ResKeeps.next (settleFormat_keeps (putHeader_keeps _ _ (putHeader_keeps _ _ hk)))) (fun _ => ResKeeps.next hk))

/-! ### Power -/

theorem execAonResponderReady_keepsR {s0 s : State}  (hk : Keeps s0 s) : ResKeeps s0 (execAonResponderReady s) := by
  unfold execAonResponderReady
  repeat' first
    | with_reducible refine ResKeeps.next ?_
    | with_reducible refine ResKeeps.ite (fun _ => ?_) (fun _ => ?_)
    | (with_reducible refine Keeps.lit hk ?_ ?_ ?_ ?_ ?_ ?_ ?_ ?_ ?_ ?_ ?_ <;> rfl)
theorem execPwrfailRecognised_keepsR {s0 s : State} (lowNs : Nat) (hk : Keeps s0 s) : ResKeeps s0 (execPwrfailRecognised lowNs s) := by
  unfold execPwrfailRecognised
  repeat' first
    | with_reducible assumption
    | with_reducible refine ResKeeps.next ?_
    | with_reducible refine ResKeeps.ite (fun _ => ?_) (fun _ => ?_)
    | with_reducible apply drewFree_keeps
    | with_reducible apply latchPwrfail_keeps
    | with_reducible refine Keeps.ite (fun _ => ?_) (fun _ => ?_)
theorem execFrontEndsStop_keepsR {s0 s : State}  (hk : Keeps s0 s) : ResKeeps s0 (execFrontEndsStop s) := by
  unfold execFrontEndsStop
  repeat' first
    | with_reducible refine ResKeeps.next ?_
    | with_reducible refine ResKeeps.ite (fun _ => ?_) (fun _ => ?_)
    | (with_reducible refine Keeps.lit hk ?_ ?_ ?_ ?_ ?_ ?_ ?_ ?_ ?_ ?_ ?_ <;> rfl)
theorem execCoilRetentionEnter_keepsR {s0 s : State}  (hk : Keeps s0 s) : ResKeeps s0 (execCoilRetentionEnter s) := by
  unfold execCoilRetentionEnter
  repeat' first
    | with_reducible assumption
    | with_reducible refine ResKeeps.next ?_
    | with_reducible refine ResKeeps.ite (fun _ => ?_) (fun _ => ?_)
    | with_reducible apply persistAccepted_keeps
    | (with_reducible refine Keeps.lit (idleLinks_keeps ?_) ?_ ?_ ?_ ?_ ?_ ?_ ?_ ?_ ?_ ?_ ?_ <;> try rfl)
theorem execRefclkLost_keepsR {s0 s : State}  (hk : Keeps s0 s) : ResKeeps s0 (execRefclkLost s) := by
  unfold execRefclkLost
  repeat' first
    | with_reducible refine ResKeeps.next ?_
    | with_reducible refine ResKeeps.ite (fun _ => ?_) (fun _ => ?_)
    | with_reducible apply failSilent_keeps
    | (with_reducible refine Keeps.lit hk ?_ ?_ ?_ ?_ ?_ ?_ ?_ ?_ ?_ ?_ ?_ <;> rfl)
    | (dsimp only)
theorem execRefclkNotGood_keepsR {s0 s : State}  (hk : Keeps s0 s) : ResKeeps s0 (execRefclkNotGood s) := by
  unfold execRefclkNotGood
  repeat' first
    | with_reducible assumption
    | with_reducible refine ResKeeps.next ?_
    | with_reducible refine ResKeeps.ite (fun _ => ?_) (fun _ => ?_)
    | (with_reducible refine Keeps.lit hk ?_ ?_ ?_ ?_ ?_ ?_ ?_ ?_ ?_ ?_ ?_ <;> rfl)
theorem execRefclkGood_keepsR {s0 s : State}  (hk : Keeps s0 s) : ResKeeps s0 (execRefclkGood s) := by
  unfold execRefclkGood
  repeat' first
    | with_reducible assumption
    | with_reducible refine ResKeeps.next ?_
    | with_reducible refine ResKeeps.ite (fun _ => ?_) (fun _ => ?_)
    | (with_reducible refine Keeps.lit hk ?_ ?_ ?_ ?_ ?_ ?_ ?_ ?_ ?_ ?_ ?_ <;> rfl)
theorem execPllLocked_keepsR {s0 s : State} (pll : Nat) (hk : Keeps s0 s) : ResKeeps s0 (execPllLocked pll s) := by
  unfold execPllLocked
  refine fast_keepsR hk ?_
  repeat' first
    | with_reducible refine ResKeeps.next ?_
    | with_reducible refine ResKeeps.ite (fun _ => ?_) (fun _ => ?_)
    | (with_reducible refine Keeps.lit hk ?_ ?_ ?_ ?_ ?_ ?_ ?_ ?_ ?_ ?_ ?_ <;> rfl)
theorem execPllLockLost_keepsR {s0 s : State} (pll : Nat) (hk : Keeps s0 s) : ResKeeps s0 (execPllLockLost pll s) := by
  unfold execPllLockLost
  refine fast_keepsR hk ?_
  repeat' first
    | with_reducible refine ResKeeps.next ?_
    | with_reducible refine ResKeeps.ite (fun _ => ?_) (fun _ => ?_)
    | with_reducible apply failSilent_keeps
    | (with_reducible refine Keeps.lit hk ?_ ?_ ?_ ?_ ?_ ?_ ?_ ?_ ?_ ?_ ?_ <;> rfl)
theorem execOspiResetRelease_keepsR {s0 s : State}  (hk : Keeps s0 s) : ResKeeps s0 (execOspiResetRelease s) := by
  unfold execOspiResetRelease
  repeat' first
    | with_reducible refine ResKeeps.next ?_
    | with_reducible refine ResKeeps.ite (fun _ => ?_) (fun _ => ?_)
    | (with_reducible refine Keeps.lit hk ?_ ?_ ?_ ?_ ?_ ?_ ?_ ?_ ?_ ?_ ?_ <;> rfl)
theorem execSidebandEarlyService_keepsR {s0 s : State}  (hk : Keeps s0 s) : ResKeeps s0 (execSidebandEarlyService s) := by
  unfold execSidebandEarlyService
  repeat' first
    | with_reducible refine ResKeeps.next ?_
    | with_reducible refine ResKeeps.ite (fun _ => ?_) (fun _ => ?_)
    | (with_reducible refine Keeps.lit hk ?_ ?_ ?_ ?_ ?_ ?_ ?_ ?_ ?_ ?_ ?_ <;> rfl)
theorem execFusesLoaded_keepsR {s0 s : State}  (hk : Keeps s0 s) : ResKeeps s0 (execFusesLoaded s) := by
  unfold execFusesLoaded
  repeat' first
    | with_reducible assumption
    | with_reducible refine ResKeeps.next ?_
    | with_reducible refine ResKeeps.ite (fun _ => ?_) (fun _ => ?_)
    | with_reducible apply hamLifeCheck_keeps
    | (with_reducible refine Keeps.lit hk ?_ ?_ ?_ ?_ ?_ ?_ ?_ ?_ ?_ ?_ ?_ <;> rfl)
theorem execMgtFirmwareRunning_keepsR {s0 s : State}  (hk : Keeps s0 s) : ResKeeps s0 (execMgtFirmwareRunning s) := by
  unfold execMgtFirmwareRunning
  repeat' first
    | with_reducible assumption
    | with_reducible refine ResKeeps.next ?_
    | with_reducible refine ResKeeps.ite (fun _ => ?_) (fun _ => ?_)
    | (with_reducible refine Keeps.lit (romLayerEnds_keeps ?_) ?_ ?_ ?_ ?_ ?_ ?_ ?_ ?_ ?_ ?_ ?_ <;> try rfl)
theorem execSidebandFullService_keepsR {s0 s : State}  (hk : Keeps s0 s) : ResKeeps s0 (execSidebandFullService s) := by
  unfold execSidebandFullService
  repeat' first
    | with_reducible refine ResKeeps.next ?_
    | with_reducible refine ResKeeps.ite (fun _ => ?_) (fun _ => ?_)
    | (with_reducible refine Keeps.lit hk ?_ ?_ ?_ ?_ ?_ ?_ ?_ ?_ ?_ ?_ ?_ <;> rfl)
theorem execHamperTrained_keepsR {s0 s : State}  (hk : Keeps s0 s) : ResKeeps s0 (execHamperTrained s) := by
  unfold execHamperTrained
  repeat' first
    | with_reducible refine ResKeeps.next ?_
    | with_reducible refine ResKeeps.ite (fun _ => ?_) (fun _ => ?_)
    | (with_reducible refine Keeps.lit hk ?_ ?_ ?_ ?_ ?_ ?_ ?_ ?_ ?_ ?_ ?_ <;> rfl)
theorem execPlemFunctionReady_keepsR {s0 s : State}  (hk : Keeps s0 s) : ResKeeps s0 (execPlemFunctionReady s) := by
  unfold execPlemFunctionReady
  repeat' first
    | with_reducible refine ResKeeps.next ?_
    | with_reducible refine ResKeeps.ite (fun _ => ?_) (fun _ => ?_)
    | (with_reducible refine Keeps.lit hk ?_ ?_ ?_ ?_ ?_ ?_ ?_ ?_ ?_ ?_ ?_ <;> rfl)
theorem execPcieLinkTrainStart_keepsR {s0 s : State} (port : Nat) (hk : Keeps s0 s) : ResKeeps s0 (execPcieLinkTrainStart port s) := by
  unfold execPcieLinkTrainStart
  repeat' first
    | with_reducible refine ResKeeps.next ?_
    | with_reducible refine ResKeeps.ite (fun _ => ?_) (fun _ => ?_)
    | (with_reducible refine Keeps.lit hk ?_ ?_ ?_ ?_ ?_ ?_ ?_ ?_ ?_ ?_ ?_ <;> rfl)
theorem execPcieConfigRequest_keepsR {s0 s : State} (port : Nat) (hk : Keeps s0 s) : ResKeeps s0 (execPcieConfigRequest port s) := by
  unfold execPcieConfigRequest
  repeat' first
    | with_reducible assumption
    | with_reducible refine ResKeeps.next ?_
    | with_reducible refine fast_keepsR hk ?_
    | with_reducible refine ResKeeps.ite (fun _ => ?_) (fun _ => ?_)
    | with_reducible apply configAnswer_keeps
theorem execStakeWaveStart_keepsR {s0 s : State} (wave : Nat) (hk : Keeps s0 s) : ResKeeps s0 (execStakeWaveStart wave s) := by
  unfold execStakeWaveStart
  repeat' first
    | with_reducible refine ResKeeps.next ?_
    | with_reducible refine ResKeeps.ite (fun _ => ?_) (fun _ => ?_)
    | (with_reducible refine Keeps.lit hk ?_ ?_ ?_ ?_ ?_ ?_ ?_ ?_ ?_ ?_ ?_ <;> rfl)
theorem execStakeWaveEnd_keepsR {s0 s : State} (wave : Nat) (receivers : Nat) (hk : Keeps s0 s) : ResKeeps s0 (execStakeWaveEnd wave receivers s) := by
  unfold execStakeWaveEnd
  refine alive_keepsR hk ?_
  repeat' first
    | with_reducible refine ResKeeps.next ?_
    | with_reducible refine ResKeeps.ite (fun _ => ?_) (fun _ => ?_)
    | (with_reducible refine Keeps.lit hk ?_ ?_ ?_ ?_ ?_ ?_ ?_ ?_ ?_ ?_ ?_ <;> rfl)
theorem execStakeCatchupWave_keepsR {s0 s : State}  (hk : Keeps s0 s) : ResKeeps s0 (execStakeCatchupWave s) := by
  unfold execStakeCatchupWave
  repeat' first
    | with_reducible refine ResKeeps.next ?_
    | with_reducible refine ResKeeps.ite (fun _ => ?_) (fun _ => ?_)
    | (with_reducible refine Keeps.lit hk ?_ ?_ ?_ ?_ ?_ ?_ ?_ ?_ ?_ ?_ ?_ <;> rfl)
theorem execPeerLinkTrainAttempt_keepsR {s0 s : State}  (hk : Keeps s0 s) : ResKeeps s0 (execPeerLinkTrainAttempt s) := by
  unfold execPeerLinkTrainAttempt
  refine alive_keepsR hk ?_
  repeat' first
    | with_reducible refine ResKeeps.next ?_
    | with_reducible refine ResKeeps.ite (fun _ => ?_) (fun _ => ?_)
    | (with_reducible refine Keeps.lit hk ?_ ?_ ?_ ?_ ?_ ?_ ?_ ?_ ?_ ?_ ?_ <;> rfl)
theorem execMonitorSelfTest_keepsR {s0 s : State} (notFired : Nat) (hk : Keeps s0 s) : ResKeeps s0 (execMonitorSelfTest notFired s) := by
  unfold execMonitorSelfTest
  refine fast_keepsR hk ?_
  repeat' first
    | with_reducible refine ResKeeps.next ?_
    | with_reducible refine ResKeeps.ite (fun _ => ?_) (fun _ => ?_)
    | with_reducible apply failSilent_keeps
    | (with_reducible refine Keeps.lit hk ?_ ?_ ?_ ?_ ?_ ?_ ?_ ?_ ?_ ?_ ?_ <;> rfl)
theorem execTileGate_keepsR {s0 s : State} (tile : Nat) (hk : Keeps s0 s) : ResKeeps s0 (execTileGate tile s) := by
  unfold execTileGate
  refine engine_keepsR hk ?_
  repeat' first
    | with_reducible refine ResKeeps.next ?_
    | with_reducible refine ResKeeps.ite (fun _ => ?_) (fun _ => ?_)
    | (with_reducible refine Keeps.lit hk ?_ ?_ ?_ ?_ ?_ ?_ ?_ ?_ ?_ ?_ ?_ <;> rfl)
theorem execTileWake_keepsR {s0 s : State} (tile : Nat) (hk : Keeps s0 s) : ResKeeps s0 (execTileWake tile s) := by
  unfold execTileWake
  refine engine_keepsR hk ?_
  repeat' first
    | with_reducible refine ResKeeps.next ?_
    | with_reducible refine ResKeeps.ite (fun _ => ?_) (fun _ => ?_)
    | with_reducible apply queueGroup_keeps
    | (with_reducible refine Keeps.lit hk ?_ ?_ ?_ ?_ ?_ ?_ ?_ ?_ ?_ ?_ ?_ <;> rfl)
theorem execGroupAutoOff_keepsR {s0 s : State} (group : Nat) (hk : Keeps s0 s) : ResKeeps s0 (execGroupAutoOff group s) := by
  unfold execGroupAutoOff
  refine engine_keepsR hk ?_
  repeat' first
    | with_reducible assumption
    | with_reducible refine ResKeeps.next ?_
    | with_reducible refine ResKeeps.ite (fun _ => ?_) (fun _ => ?_)
    | with_reducible apply groupOff_keeps
theorem execGroupPowerOn_keepsR {s0 s : State}  (hk : Keeps s0 s) : ResKeeps s0 (execGroupPowerOn s) := by
  unfold execGroupPowerOn
  refine engine_keepsR hk ?_
  repeat' first
    | with_reducible refine ResKeeps.next ?_
    | (with_reducible refine Keeps.lit hk ?_ ?_ ?_ ?_ ?_ ?_ ?_ ?_ ?_ ?_ ?_ <;> rfl)
    | split
theorem execGroupRestoreComplete_keepsR {s0 s : State} (group : Nat) (hk : Keeps s0 s) : ResKeeps s0 (execGroupRestoreComplete group s) := by
  unfold execGroupRestoreComplete
  refine engine_keepsR hk ?_
  repeat' first
    | with_reducible refine ResKeeps.next ?_
    | with_reducible refine ResKeeps.ite (fun _ => ?_) (fun _ => ?_)
    | (with_reducible refine Keeps.lit hk ?_ ?_ ?_ ?_ ?_ ?_ ?_ ?_ ?_ ?_ ?_ <;> rfl)
theorem execDozeWake_keepsR {s0 s : State}  (hk : Keeps s0 s) : ResKeeps s0 (execDozeWake s) := by
  unfold execDozeWake
  refine fast_keepsR hk ?_
  repeat' first
    | with_reducible refine ResKeeps.next ?_
    | with_reducible refine ResKeeps.ite (fun _ => ?_) (fun _ => ?_)
    | (with_reducible refine Keeps.lit hk ?_ ?_ ?_ ?_ ?_ ?_ ?_ ?_ ?_ ?_ ?_ <;> rfl)
theorem execDozeExitComplete_keepsR {s0 s : State}  (hk : Keeps s0 s) : ResKeeps s0 (execDozeExitComplete s) := by
  unfold execDozeExitComplete
  refine fast_keepsR hk ?_
  repeat' first
    | with_reducible refine ResKeeps.next ?_
    | with_reducible refine ResKeeps.ite (fun _ => ?_) (fun _ => ?_)
    | with_reducible apply evrFlush_keeps
    | with_reducible apply finishDeferred_keeps
    | with_reducible apply resumeLoops_keeps
    | (with_reducible refine Keeps.lit hk ?_ ?_ ?_ ?_ ?_ ?_ ?_ ?_ ?_ ?_ ?_ <;> rfl)
theorem execSmbusReadIdentity_keepsR {s0 s : State}  (hk : Keeps s0 s) : ResKeeps s0 (execSmbusReadIdentity s) := by
  unfold execSmbusReadIdentity
  repeat' first
    | with_reducible assumption
    | with_reducible refine ResKeeps.next ?_
    | with_reducible refine ResKeeps.ite (fun _ => ?_) (fun _ => ?_)
    | with_reducible apply emit_keeps
theorem execSmbusReadTemperature_keepsR {s0 s : State}  (hk : Keeps s0 s) : ResKeeps s0 (execSmbusReadTemperature s) := by
  unfold execSmbusReadTemperature
  repeat' first
    | with_reducible assumption
    | with_reducible refine ResKeeps.next ?_
    | with_reducible apply emit_keeps
    | with_reducible apply drewFree_keeps
    | split
theorem execSmbusReadBootStatus_keepsR {s0 s : State}  (hk : Keeps s0 s) : ResKeeps s0 (execSmbusReadBootStatus s) := by
  unfold execSmbusReadBootStatus
  repeat' first
    | with_reducible assumption
    | with_reducible refine ResKeeps.next ?_
    | with_reducible refine ResKeeps.ite (fun _ => ?_) (fun _ => ?_)
    | with_reducible apply emit_keeps
theorem execSmbusReadCause_keepsR {s0 s : State}  (hk : Keeps s0 s) : ResKeeps s0 (execSmbusReadCause s) := by
  unfold execSmbusReadCause
  repeat' first
    | with_reducible assumption
    | with_reducible refine ResKeeps.next ?_
    | with_reducible refine ResKeeps.ite (fun _ => ?_) (fun _ => ?_)
    | with_reducible apply emit_keeps
theorem execSmbusOtherCommand_keepsR {s0 s : State} (_cmd : Nat) (hk : Keeps s0 s) : ResKeeps s0 (execSmbusOtherCommand _cmd s) := by
  unfold execSmbusOtherCommand
  repeat' first
    | with_reducible assumption
    | with_reducible refine ResKeeps.next ?_
    | with_reducible refine ResKeeps.ite (fun _ => ?_) (fun _ => ?_)
    | with_reducible apply emit_keeps
    | with_reducible apply drewFree_keeps
theorem execSmbusClockLowTimeout_keepsR {s0 s : State} (lowMs : Nat) (hk : Keeps s0 s) : ResKeeps s0 (execSmbusClockLowTimeout lowMs s) := by
  unfold execSmbusClockLowTimeout
  repeat' first
    | with_reducible assumption
    | with_reducible refine ResKeeps.next ?_
    | with_reducible refine ResKeeps.ite (fun _ => ?_) (fun _ => ?_)
    | with_reducible apply emit_keeps
    | with_reducible apply drewFree_keeps
    | with_reducible refine Keeps.ite (fun _ => ?_) (fun _ => ?_)
theorem execI3cFirstBroadcast_keepsR {s0 s : State}  (hk : Keeps s0 s) : ResKeeps s0 (execI3cFirstBroadcast s) := by
  unfold execI3cFirstBroadcast
  repeat' first
    | with_reducible refine ResKeeps.next ?_
    | with_reducible refine ResKeeps.ite (fun _ => ?_) (fun _ => ?_)
    | (with_reducible refine Keeps.lit hk ?_ ?_ ?_ ?_ ?_ ?_ ?_ ?_ ?_ ?_ ?_ <;> rfl)
theorem execEntdaa_keepsR {s0 s : State} (addr : Nat) (hk : Keeps s0 s) : ResKeeps s0 (execEntdaa addr s) := by
  unfold execEntdaa
  repeat' first
    | with_reducible refine ResKeeps.next ?_
    | with_reducible refine ResKeeps.ite (fun _ => ?_) (fun _ => ?_)
    | (with_reducible refine Keeps.lit hk ?_ ?_ ?_ ?_ ?_ ?_ ?_ ?_ ?_ ?_ ?_ <;> rfl)
theorem execSetdasa_keepsR {s0 s : State} (static : Nat) (addr : Nat) (hk : Keeps s0 s) : ResKeeps s0 (execSetdasa static addr s) := by
  unfold execSetdasa
  repeat' first
    | with_reducible refine ResKeeps.next ?_
    | with_reducible refine ResKeeps.ite (fun _ => ?_) (fun _ => ?_)
    | (with_reducible refine Keeps.lit hk ?_ ?_ ?_ ?_ ?_ ?_ ?_ ?_ ?_ ?_ ?_ <;> rfl)
theorem execRstdaa_keepsR {s0 s : State}  (hk : Keeps s0 s) : ResKeeps s0 (execRstdaa s) := by
  unfold execRstdaa
  repeat' first
    | with_reducible refine ResKeeps.next ?_
    | (with_reducible refine Keeps.lit hk ?_ ?_ ?_ ?_ ?_ ?_ ?_ ?_ ?_ ?_ ?_ <;> rfl)
theorem execSetEndpointId_keepsR {s0 s : State} (eid : Nat) (hk : Keeps s0 s) : ResKeeps s0 (execSetEndpointId eid s) := by
  unfold execSetEndpointId
  repeat' first
    | with_reducible assumption
    | with_reducible refine ResKeeps.next ?_
    | with_reducible refine ResKeeps.ite (fun _ => ?_) (fun _ => ?_)
    | with_reducible apply sendMctp_keeps
    | (with_reducible refine Keeps.lit hk ?_ ?_ ?_ ?_ ?_ ?_ ?_ ?_ ?_ ?_ ?_ <;> rfl)
theorem execGetEndpointId_keepsR {s0 s : State}  (hk : Keeps s0 s) : ResKeeps s0 (execGetEndpointId s) := by
  unfold execGetEndpointId
  repeat' first
    | with_reducible assumption
    | with_reducible refine ResKeeps.next ?_
    | with_reducible refine ResKeeps.ite (fun _ => ?_) (fun _ => ?_)
    | with_reducible apply sendMctp_keeps
theorem execGetMctpVersionSupport_keepsR {s0 s : State} (_msgType : Nat) (hk : Keeps s0 s) : ResKeeps s0 (execGetMctpVersionSupport _msgType s) := by
  unfold execGetMctpVersionSupport
  repeat' first
    | with_reducible assumption
    | with_reducible refine ResKeeps.next ?_
    | with_reducible refine ResKeeps.ite (fun _ => ?_) (fun _ => ?_)
    | with_reducible apply sendMctp_keeps
    | with_reducible apply drewFree_keeps
theorem execGetMessageTypeSupport_keepsR {s0 s : State}  (hk : Keeps s0 s) : ResKeeps s0 (execGetMessageTypeSupport s) := by
  unfold execGetMessageTypeSupport
  repeat' first
    | with_reducible assumption
    | with_reducible refine ResKeeps.next ?_
    | with_reducible refine ResKeeps.ite (fun _ => ?_) (fun _ => ?_)
    | with_reducible apply sendMctp_keeps
theorem execMctpOtherControl_keepsR {s0 s : State} (cmd : Nat) (hk : Keeps s0 s) : ResKeeps s0 (execMctpOtherControl cmd s) := by
  unfold execMctpOtherControl
  repeat' first
    | with_reducible assumption
    | with_reducible refine ResKeeps.next ?_
    | with_reducible refine ResKeeps.ite (fun _ => ?_) (fun _ => ?_)
    | with_reducible apply sendMctp_keeps
    | with_reducible apply drewFree_keeps
theorem execTapInstructionUpdate_keepsR {s0 s : State} (ir : TapInstr) (hk : Keeps s0 s) : ResKeeps s0 (execTapInstructionUpdate ir s) := by
  unfold execTapInstructionUpdate
  repeat' first
    | with_reducible refine ResKeeps.next ?_
    | with_reducible apply emit_keeps
    | (with_reducible refine Keeps.lit hk ?_ ?_ ?_ ?_ ?_ ?_ ?_ ?_ ?_ ?_ ?_ <;> rfl)

end Sys2Proof.Machine
end

