-- ==== Sys2Proof/Laws/KeepsExecB.lean ====
section
/-! SUPPORT. The commands keep what Keeps says: Coil, Hamper, Plem, Stake, System, Peer. -/

namespace Sys2Proof.Machine

set_option linter.unusedVariables false

/-! ### Coil -/

theorem execCoilReady_keepsR {s0 s : State}  (hk : Keeps s0 s) : ResKeeps s0 (execCoilReady s) := by
  unfold execCoilReady
  refine fast_keepsR hk ?_
  repeat' first
    | with_reducible refine ResKeeps.next ?_
    | with_reducible refine ResKeeps.ite (fun _ => ?_) (fun _ => ?_)
    | (with_reducible refine Keeps.lit hk ?_ ?_ ?_ ?_ ?_ ?_ ?_ ?_ ?_ ?_ ?_ <;> rfl)
theorem execCoilLinesPersisted_keepsR {s0 s : State} (lines : Nat) (hk : Keeps s0 s) : ResKeeps s0 (execCoilLinesPersisted lines s) := by
  unfold execCoilLinesPersisted
  refine fast_keepsR hk ?_
  repeat' first
    | with_reducible refine ResKeeps.next ?_
    | with_reducible apply wearCoil_keeps
    | with_reducible apply commitAdvance_keeps
    | with_reducible apply recordsPersisted_keeps
    | with_reducible apply fillSeals_keeps
    | (with_reducible refine Keeps.lit hk ?_ ?_ ?_ ?_ ?_ ?_ ?_ ?_ ?_ ?_ ?_ <;> rfl)
theorem execMirror_keepsR {s0 s : State} (_line : Nat) (records : List CoilRec) (hk : Keeps s0 s) : ResKeeps s0 (execMirror _line records s) := by
  unfold execMirror
  refine alive_keepsR hk ?_
  repeat' first
    | with_reducible assumption
    | with_reducible refine ResKeeps.next ?_
    | with_reducible refine ResKeeps.ite (fun _ => ?_) (fun _ => ?_)
    | with_reducible apply sendMirrorAck_keeps
    | with_reducible apply acceptMirror_keeps
theorem execMirrorAck_keepsR {s0 s : State} (persisted : Nat) (released : Nat) (hk : Keeps s0 s) : ResKeeps s0 (execMirrorAck persisted released s) := by
  unfold execMirrorAck
  refine alive_keepsR hk ?_
  repeat' first
    | with_reducible refine ResKeeps.next ?_
    | with_reducible refine ResKeeps.ite (fun _ => ?_) (fun _ => ?_)
    | with_reducible apply commitAdvance_keeps
    | with_reducible apply catchUpEnds_keeps
    | with_reducible apply releaseMirror_keeps
    | with_reducible apply reopenPeer_keeps
    | (with_reducible refine Keeps.lit hk ?_ ?_ ?_ ?_ ?_ ?_ ?_ ?_ ?_ ?_ ?_ <;> rfl)
theorem execMirrorAckTimeout_keepsR {s0 s : State}  (hk : Keeps s0 s) : ResKeeps s0 (execMirrorAckTimeout s) := by
  unfold execMirrorAckTimeout
  refine alive_keepsR hk ?_
  repeat' first
    | with_reducible assumption
    | with_reducible refine ResKeeps.next ?_
    | with_reducible refine ResKeeps.ite (fun _ => ?_) (fun _ => ?_)
    | with_reducible apply mirrorLoss_keeps
theorem execJournalHeaderWrite_keepsR {s0 s : State}  (hk : Keeps s0 s) : ResKeeps s0 (execJournalHeaderWrite s) := by
  unfold execJournalHeaderWrite
  refine alive_keepsR hk ?_
  repeat' first
    | with_reducible assumption
    | with_reducible refine ResKeeps.next ?_
    | with_reducible refine ResKeeps.ite (fun _ => ?_) (fun _ => ?_)
    | with_reducible apply writeHeader2_keeps
    | with_reducible apply releaseDeltas_keeps
theorem execWaitingRecordAppend_keepsR {s0 s : State}  (hk : Keeps s0 s) : ResKeeps s0 (execWaitingRecordAppend s) := by
  unfold execWaitingRecordAppend
  refine alive_keepsR hk ?_
  repeat' first
    | with_reducible assumption
    | with_reducible refine ResKeeps.next ?_
    | with_reducible refine ResKeeps.ite (fun _ => ?_) (fun _ => ?_)
    | with_reducible apply placeWaiting_keeps
theorem execReplayStart_keepsR {s0 s : State}  (hk : Keeps s0 s) : ResKeeps s0 (execReplayStart s) := by
  unfold execReplayStart
  refine alive_keepsR hk ?_
  repeat' first
    | with_reducible refine ResKeeps.next ?_
    | with_reducible refine ResKeeps.ite (fun _ => ?_) (fun _ => ?_)
    | with_reducible apply countIf_keeps
    | (with_reducible refine Keeps.lit hk ?_ ?_ ?_ ?_ ?_ ?_ ?_ ?_ ?_ ?_ ?_ <;> rfl)
theorem execReplayResume_keepsR {s0 s : State}  (hk : Keeps s0 s) : ResKeeps s0 (execReplayResume s) := by
  unfold execReplayResume
  refine alive_keepsR hk ?_
  repeat' first
    | with_reducible refine ResKeeps.next ?_
    | with_reducible refine ResKeeps.ite (fun _ => ?_) (fun _ => ?_)
    | with_reducible apply replayApply_keeps
    | (with_reducible refine Keeps.lit hk ?_ ?_ ?_ ?_ ?_ ?_ ?_ ?_ ?_ ?_ ?_ <;> rfl)
theorem execReplayEnd_keepsR {s0 s : State}  (hk : Keeps s0 s) : ResKeeps s0 (execReplayEnd s) := by
  unfold execReplayEnd
  refine alive_keepsR hk ?_
  repeat' first
    | with_reducible assumption
    | with_reducible refine ResKeeps.next ?_
    | with_reducible refine ResKeeps.ite (fun _ => ?_) (fun _ => ?_)
    | with_reducible apply endReplay_keeps
theorem execCoilFailure_keepsR {s0 s : State}  (hk : Keeps s0 s) : ResKeeps s0 (execCoilFailure s) := by
  unfold execCoilFailure
  refine fast_keepsR hk ?_
  repeat' first
    | with_reducible assumption
    | with_reducible refine ResKeeps.next ?_
    | with_reducible apply countEvent_keeps
    | with_reducible apply failSilent_keeps

/-! ### Hamper -/

theorem execHamperAccess_keepsR {s0 s : State} (src : AccessSrc) (write : Bool) (addr : Nat) (bytes : List Byte) (hk : Keeps s0 s) : ResKeeps s0 (execHamperAccess src write addr bytes s) := by
  unfold execHamperAccess
  repeat' first
    | with_reducible assumption
    | with_reducible refine ResKeeps.next ?_
    | with_reducible refine fast_keepsR hk ?_
    | with_reducible refine engine_keepsR hk ?_
    | with_reducible refine ResKeeps.ite (fun _ => ?_) (fun _ => ?_)
    | with_reducible apply emit_keeps
    | with_reducible apply deniedHam_keeps
    | with_reducible apply engineDenied_keeps
    | with_reducible apply accessDone_keeps
    | split
theorem execRimPost_keepsR {s0 s : State} (ring : Nat) (core : Bool) (entry : List Byte) (hk : Keeps s0 s) : ResKeeps s0 (execRimPost ring core entry s) := by
  unfold execRimPost
  repeat' first
    | with_reducible assumption
    | with_reducible refine ResKeeps.next ?_
    | with_reducible refine planeStep_keepsR _ hk ?_
    | with_reducible refine ResKeeps.ite (fun _ => ?_) (fun _ => ?_)
    | with_reducible apply emit_keeps
    | with_reducible apply rimPost_keeps
    | with_reducible apply drainAll_keeps
    | with_reducible refine Keeps.ite (fun _ => ?_) (fun _ => ?_)
theorem execRimTake_keepsR {s0 s : State} (ring : Nat) (hk : Keeps s0 s) : ResKeeps s0 (execRimTake ring s) := by
  unfold execRimTake
  repeat' first
    | with_reducible apply rimShift_keeps
    | with_reducible assumption
    | with_reducible refine ResKeeps.next ?_
    | with_reducible refine planeStep_keepsR _ hk ?_
    | with_reducible apply emit_keeps
    | (with_reducible refine Keeps.lit hk ?_ ?_ ?_ ?_ ?_ ?_ ?_ ?_ ?_ ?_ ?_ <;> rfl)
    | (dsimp only)
    | split

/-! ### Plem -/

theorem execPlmRingCfgWrite_keepsR {s0 s : State} (ring : Nat) (value : Word) (hk : Keeps s0 s) : ResKeeps s0 (execPlmRingCfgWrite ring value s) := by
  unfold execPlmRingCfgWrite
  refine fast_keepsR hk ?_
  repeat' first
    | with_reducible assumption
    | with_reducible refine ResKeeps.next ?_
    | with_reducible refine ResKeeps.ite (fun _ => ?_) (fun _ => ?_)
    | with_reducible apply ringCfgWrite_keeps
theorem execPlmRsqTailDoorbell_keepsR {s0 s : State} (ring : Nat) (value : Word) (hk : Keeps s0 s) : ResKeeps s0 (execPlmRsqTailDoorbell ring value s) := by
  unfold execPlmRsqTailDoorbell
  refine fast_keepsR hk ?_
  repeat' first
    | with_reducible assumption
    | with_reducible refine ResKeeps.next ?_
    | with_reducible refine ResKeeps.ite (fun _ => ?_) (fun _ => ?_)
    | with_reducible apply tailDoorbell_keeps
theorem execPlmRcqHeadDoorbell_keepsR {s0 s : State} (ring : Nat) (value : Word) (hk : Keeps s0 s) : ResKeeps s0 (execPlmRcqHeadDoorbell ring value s) := by
  unfold execPlmRcqHeadDoorbell
  refine fast_keepsR hk ?_
  repeat' first
    | with_reducible assumption
    | with_reducible refine ResKeeps.next ?_
    | with_reducible refine ResKeeps.ite (fun _ => ?_) (fun _ => ?_)
    | with_reducible apply headDoorbell_keeps
theorem execPlemPacketFetch_keepsR {s0 s : State} (ring : Nat) (packet : List Byte) (block : List Byte) (hk : Keeps s0 s) : ResKeeps s0 (execPlemPacketFetch ring packet block s) := by
  unfold execPlemPacketFetch
  repeat' first
    | with_reducible assumption
    | with_reducible refine ResKeeps.next ?_
    | with_reducible refine fast_keepsR hk ?_
    | with_reducible refine ResKeeps.ite (fun _ => ?_) (fun _ => ?_)
    | with_reducible apply updRing_keeps
    | with_reducible apply stagePacket_keeps
    | with_reducible apply takePacket_keeps
    | with_reducible apply internalFetch_keeps
theorem execPlemCommandStart_keepsR {s0 s : State} (ring : Nat) (hk : Keeps s0 s) : ResKeeps s0 (execPlemCommandStart ring s) := by
  unfold execPlemCommandStart
  refine fast_keepsR hk ?_
  repeat' first
    | with_reducible refine ResKeeps.next ?_
    | with_reducible refine ResKeeps.ite (fun _ => ?_) (fun _ => ?_)
    | (with_reducible refine Keeps.lit hk ?_ ?_ ?_ ?_ ?_ ?_ ?_ ?_ ?_ ?_ ?_ <;> rfl)
    | split
theorem execC0FetchFailure_keepsR {s0 s : State} (ring : Nat) (hk : Keeps s0 s) : ResKeeps s0 (execC0FetchFailure ring s) := by
  unfold execC0FetchFailure
  refine fast_keepsR hk ?_
  repeat' first
    | with_reducible assumption
    | with_reducible refine ResKeeps.next ?_
    | with_reducible apply fetchFailed_keeps
theorem execC0FetchTimeout_keepsR {s0 s : State} (ring : Nat) (hk : Keeps s0 s) : ResKeeps s0 (execC0FetchTimeout ring s) := by
  unfold execC0FetchTimeout
  refine fast_keepsR hk ?_
  repeat' first
    | with_reducible assumption
    | with_reducible refine ResKeeps.next ?_
    | with_reducible apply fetchFailed_keeps
theorem execNonceExpiry_keepsR {s0 s : State} (ring : Nat) (hk : Keeps s0 s) : ResKeeps s0 (execNonceExpiry ring s) := by
  unfold execNonceExpiry
  refine fast_keepsR hk ?_
  repeat' first
    | with_reducible assumption
    | with_reducible refine ResKeeps.next ?_
    | with_reducible apply updRing_keeps
theorem execSessionIdleTimeout_keepsR {s0 s : State} (ring : Nat) (hk : Keeps s0 s) : ResKeeps s0 (execSessionIdleTimeout ring s) := by
  unfold execSessionIdleTimeout
  refine fast_keepsR hk ?_
  repeat' first
    | with_reducible assumption
    | with_reducible refine ResKeeps.next ?_
    | with_reducible refine ResKeeps.ite (fun _ => ?_) (fun _ => ?_)
    | with_reducible apply endSession_keeps
theorem execPlemOverMctp_keepsR {s0 s : State} (onC0 : Bool) (secured : Option Nat) (eid : Nat) (packet : List Byte) (block : List Byte) (hk : Keeps s0 s) : ResKeeps s0 (execPlemOverMctp onC0 secured eid packet block s) := by
  unfold execPlemOverMctp
  repeat' first
    | with_reducible assumption
    | with_reducible refine ResKeeps.next ?_
    | with_reducible refine ResKeeps.ite (fun _ => ?_) (fun _ => ?_)
    | with_reducible apply sendMctp_keeps
    | with_reducible apply updRing_keeps
    | with_reducible apply internalArrive_keeps
    | split

/-! ### Stake -/

theorem execStakeLinkTrained_keepsR {s0 s : State} (port : Nat) (hk : Keeps s0 s) : ResKeeps s0 (execStakeLinkTrained port s) := by
  unfold execStakeLinkTrained
  repeat' first
    | with_reducible assumption
    | with_reducible refine ResKeeps.next ?_
    | with_reducible refine alive_keepsR hk ?_
    | with_reducible refine ResKeeps.ite (fun _ => ?_) (fun _ => ?_)
    | with_reducible apply updPort_keeps
    | with_reducible apply pumpPort_keeps
    | with_reducible apply sendReq_keeps
    | with_reducible apply creditFrame_keeps
theorem execStakeTrainingFailed_keepsR {s0 s : State} (port : Nat) (hk : Keeps s0 s) : ResKeeps s0 (execStakeTrainingFailed port s) := by
  unfold execStakeTrainingFailed
  refine alive_keepsR hk ?_
  repeat' first
    | with_reducible assumption
    | with_reducible refine ResKeeps.next ?_
    | with_reducible refine ResKeeps.ite (fun _ => ?_) (fun _ => ?_)
    | with_reducible apply countEvent_keeps
    | with_reducible apply updPort_keeps
theorem execStakeTransactionFrame_keepsR {s0 s : State} (port : Nat) (bytes : List Byte) (hk : Keeps s0 s) : ResKeeps s0 (execStakeTransactionFrame port bytes s) := by
  unfold execStakeTransactionFrame
  repeat' first
    | with_reducible assumption
    | with_reducible refine ResKeeps.next ?_
    | with_reducible refine alive_keepsR hk ?_
    | with_reducible refine ResKeeps.ite (fun _ => ?_) (fun _ => ?_)
    | with_reducible apply countEvent_keeps
    | with_reducible apply updPort_keeps
    | with_reducible apply linkFrame_keeps
    | with_reducible apply creditFrame_keeps
    | with_reducible apply protocolError_keeps
theorem execStakeAck_keepsR {s0 s : State} (port : Nat) (seq : Nat) (hk : Keeps s0 s) : ResKeeps s0 (execStakeAck port seq s) := by
  unfold execStakeAck
  refine alive_keepsR hk ?_
  repeat' first
    | with_reducible assumption
    | with_reducible refine ResKeeps.next ?_
    | with_reducible refine ResKeeps.ite (fun _ => ?_) (fun _ => ?_)
    | with_reducible apply updPort_keeps
    | with_reducible apply pumpPort_keeps
    | with_reducible apply heard_keeps
theorem execStakeNak_keepsR {s0 s : State} (port : Nat) (seq : Nat) (hk : Keeps s0 s) : ResKeeps s0 (execStakeNak port seq s) := by
  unfold execStakeNak
  refine alive_keepsR hk ?_
  repeat' first
    | with_reducible refine Keeps.ite (fun _ => ?_) (fun _ => ?_)
    | with_reducible assumption
    | with_reducible refine ResKeeps.next ?_
    | with_reducible refine ResKeeps.ite (fun _ => ?_) (fun _ => ?_)
    | with_reducible apply updPort_keeps
    | with_reducible apply pumpPort_keeps
    | with_reducible apply heard_keeps
    | with_reducible apply replayed_keeps
theorem execStakeCredit_keepsR {s0 s : State} (port : Nat) (vc : Nat) (frames : Nat) (units : Nat) (hk : Keeps s0 s) : ResKeeps s0 (execStakeCredit port vc frames units s) := by
  unfold execStakeCredit
  refine alive_keepsR hk ?_
  repeat' first
    | with_reducible assumption
    | with_reducible refine ResKeeps.next ?_
    | with_reducible refine ResKeeps.ite (fun _ => ?_) (fun _ => ?_)
    | with_reducible apply updPort_keeps
    | with_reducible apply pumpPort_keeps
    | with_reducible apply heard_keeps
theorem execStakeKeepAlive_keepsR {s0 s : State} (port : Nat) (hk : Keeps s0 s) : ResKeeps s0 (execStakeKeepAlive port s) := by
  unfold execStakeKeepAlive
  refine alive_keepsR hk ?_
  repeat' first
    | with_reducible assumption
    | with_reducible refine ResKeeps.next ?_
    | with_reducible refine ResKeeps.ite (fun _ => ?_) (fun _ => ?_)
    | with_reducible apply heard_keeps
theorem execStakeKeepAliveDue_keepsR {s0 s : State} (port : Nat) (hk : Keeps s0 s) : ResKeeps s0 (execStakeKeepAliveDue port s) := by
  unfold execStakeKeepAliveDue
  refine alive_keepsR hk ?_
  repeat' first
    | with_reducible assumption
    | with_reducible refine ResKeeps.next ?_
    | with_reducible refine ResKeeps.ite (fun _ => ?_) (fun _ => ?_)
    | with_reducible apply linkFrame_keeps
theorem execStakeRxIdleTimeout_keepsR {s0 s : State} (port : Nat) (hk : Keeps s0 s) : ResKeeps s0 (execStakeRxIdleTimeout port s) := by
  unfold execStakeRxIdleTimeout
  refine alive_keepsR hk ?_
  repeat' first
    | with_reducible assumption
    | with_reducible refine ResKeeps.next ?_
    | with_reducible refine ResKeeps.ite (fun _ => ?_) (fun _ => ?_)
    | with_reducible apply enterRecovery_keeps
theorem execStakeRecoveryTimeout_keepsR {s0 s : State} (port : Nat) (hk : Keeps s0 s) : ResKeeps s0 (execStakeRecoveryTimeout port s) := by
  unfold execStakeRecoveryTimeout
  refine alive_keepsR hk ?_
  repeat' first
    | with_reducible assumption
    | with_reducible refine ResKeeps.next ?_
    | with_reducible refine ResKeeps.ite (fun _ => ?_) (fun _ => ?_)
    | with_reducible apply linkDown_keeps
theorem execStakeReplayTimeout_keepsR {s0 s : State} (port : Nat) (hk : Keeps s0 s) : ResKeeps s0 (execStakeReplayTimeout port s) := by
  unfold execStakeReplayTimeout
  refine alive_keepsR hk ?_
  repeat' first
    | with_reducible assumption
    | with_reducible refine ResKeeps.next ?_
    | with_reducible refine ResKeeps.ite (fun _ => ?_) (fun _ => ?_)
    | with_reducible apply updPort_keeps
    | with_reducible apply replayed_keeps
theorem onResponse_keepsR {s0 s : State} (n tag cmd : Nat) (f : Req → State → State) (hk : Keeps s0 s)
    (hf : ∀ r s, Keeps s0 s → Keeps s0 (f r s)) : ResKeeps s0 (onResponse n tag cmd f s) := by
  unfold onResponse
  split
  · exact ResKeeps.next (hf _ _ (dropReq_keeps _ _ hk))
  · split
    · exact ResKeeps.next (dropReq_keeps _ _ hk)
    · exact ResKeeps.next hk
theorem execStakeResponseTimeout_keepsR {s0 s : State} (port : Nat) (tag : Nat) (hk : Keeps s0 s) : ResKeeps s0 (execStakeResponseTimeout port tag s) := by
  unfold execStakeResponseTimeout
  refine alive_keepsR hk ?_
  repeat' first
    | with_reducible assumption
    | with_reducible refine ResKeeps.next ?_
    | with_reducible refine ResKeeps.ite (fun _ => ?_) (fun _ => ?_)
    | with_reducible apply countEvent_keeps
    | with_reducible apply updPort_keeps
    | with_reducible apply outcomeLost_keeps
    | with_reducible apply linkDown_keeps
    | split
theorem execIdentResponse_keepsR {s0 s : State} (port : Nat) (tag : Nat) (status : Nat) (ident : Ident) (hk : Keeps s0 s) : ResKeeps s0 (execIdentResponse port tag status ident s) := by
  unfold execIdentResponse
  refine alive_keepsR hk ?_
  repeat' first
    | with_reducible assumption
    | with_reducible apply onResponse_keepsR
    | with_reducible apply identReply_keeps
    | (intro _)
theorem execGeomResponse_keepsR {s0 s : State} (port : Nat) (tag : Nat) (status : Nat) (geom : Geom) (hk : Keeps s0 s) : ResKeeps s0 (execGeomResponse port tag status geom s) := by
  unfold execGeomResponse
  refine alive_keepsR hk ?_
  repeat' first
    | with_reducible assumption
    | with_reducible apply onResponse_keepsR
    | with_reducible apply geomReply_keeps
    | (intro _)
theorem execFwMeasureResponse_keepsR {s0 s : State} (port : Nat) (tag : Nat) (status : Nat) (hash : List Byte) (version : Nat) (svn : Nat) (slot : Nat) (hk : Keeps s0 s) : ResKeeps s0 (execFwMeasureResponse port tag status hash version svn slot s) := by
  unfold execFwMeasureResponse
  refine alive_keepsR hk ?_
  repeat' first
    | with_reducible assumption
    | with_reducible apply onResponse_keepsR
    | with_reducible apply measureReply_keeps
    | (intro _)
theorem execHealthResponse_keepsR {s0 s : State} (port : Nat) (tag : Nat) (status : Nat) (failed : Bool) (hk : Keeps s0 s) : ResKeeps s0 (execHealthResponse port tag status failed s) := by
  unfold execHealthResponse
  refine alive_keepsR hk ?_
  repeat' first
    | with_reducible assumption
    | with_reducible apply onResponse_keepsR
    | with_reducible apply healthReply_keeps
    | (intro _)
theorem execReadResponse_keepsR {s0 s : State} (port : Nat) (tag : Nat) (status : Nat) (value : Nat) (checkOk : Bool) (hk : Keeps s0 s) : ResKeeps s0 (execReadResponse port tag status value checkOk s) := by
  unfold execReadResponse
  refine alive_keepsR hk ?_
  repeat' first
    | with_reducible assumption
    | with_reducible apply onResponse_keepsR
    | with_reducible apply readReply_keeps
    | (intro _)
theorem execProgramResponse_keepsR {s0 s : State} (port : Nat) (tag : Nat) (status : Nat) (_value : Nat) (hk : Keeps s0 s) : ResKeeps s0 (execProgramResponse port tag status _value s) := by
  unfold execProgramResponse
  refine alive_keepsR hk ?_
  repeat' first
    | with_reducible assumption
    | with_reducible apply onResponse_keepsR
    | with_reducible apply programReply_keeps
    | (intro _)
theorem execEraseResponse_keepsR {s0 s : State} (port : Nat) (tag : Nat) (status : Nat) (_value : Nat) (hk : Keeps s0 s) : ResKeeps s0 (execEraseResponse port tag status _value s) := by
  unfold execEraseResponse
  refine alive_keepsR hk ?_
  repeat' first
    | with_reducible assumption
    | with_reducible apply onResponse_keepsR
    | with_reducible apply eraseReply_keeps
    | (intro _)
theorem execTempResponse_keepsR {s0 s : State} (port : Nat) (tag : Nat) (status : Nat) (temp : Int) (hk : Keeps s0 s) : ResKeeps s0 (execTempResponse port tag status temp s) := by
  unfold execTempResponse
  refine alive_keepsR hk ?_
  repeat' first
    | with_reducible assumption
    | with_reducible apply onResponse_keepsR
    | with_reducible apply tempReply_keeps
    | (intro _)
theorem execPackFwLoad_keepsR {s0 s : State} (ring : Nat) (seq : Nat) (hk : Keeps s0 s) : ResKeeps s0 (execPackFwLoad ring seq s) := by
  unfold execPackFwLoad
  refine fast_keepsR hk ?_
  repeat' first
    | with_reducible assumption
    | with_reducible apply auditedOp_keepsR
theorem execFwLoadResponse_keepsR {s0 s : State} (port : Nat) (tag : Nat) (status : Nat) (hk : Keeps s0 s) : ResKeeps s0 (execFwLoadResponse port tag status s) := by
  unfold execFwLoadResponse
  refine alive_keepsR hk ?_
  repeat' first
    | with_reducible assumption
    | with_reducible apply onResponse_keepsR
    | with_reducible apply loadReply_keeps
    | (intro _)
theorem execPackFwMeasureTimeout_keepsR {s0 s : State} (port : Nat) (hk : Keeps s0 s) : ResKeeps s0 (execPackFwMeasureTimeout port s) := by
  unfold execPackFwMeasureTimeout
  refine alive_keepsR hk ?_
  repeat' first
    | with_reducible refine ResKeeps.next ?_
    | with_reducible refine ResKeeps.ite (fun _ => ?_) (fun _ => ?_)
    | with_reducible apply endLongOp_keeps
    | with_reducible apply declareFailed_keeps
    | with_reducible refine Keeps.ite (fun _ => ?_) (fun _ => ?_)
    | (with_reducible refine Keeps.lit hk ?_ ?_ ?_ ?_ ?_ ?_ ?_ ?_ ?_ ?_ ?_ <;> rfl)

/-! ### System -/

theorem execSysIdentify_keepsR {s0 s : State} (ring : Nat) (seq : Nat) (hk : Keeps s0 s) : ResKeeps s0 (execSysIdentify ring seq s) := by
  unfold execSysIdentify
  refine fast_keepsR hk ?_
  repeat' first
    | with_reducible assumption
    | with_reducible apply plainOp_keepsR
    | (intro _)
theorem execGetNonce_keepsR {s0 s : State} (ring : Nat) (seq : Nat) (hk : Keeps s0 s) : ResKeeps s0 (execGetNonce ring seq s) := by
  unfold execGetNonce
  refine fast_keepsR hk ?_
  repeat' first
    | with_reducible assumption
    | with_reducible apply plainOp_keepsR
    | with_reducible apply applyGetNonce_keeps
    | (intro _)
theorem execSessionOpen_keepsR {s0 s : State} (ring : Nat) (seq : Nat) (hk : Keeps s0 s) : ResKeeps s0 (execSessionOpen ring seq s) := by
  unfold execSessionOpen
  repeat' first
    | with_reducible assumption
    | with_reducible refine ResKeeps.next ?_
    | with_reducible refine fast_keepsR hk ?_
    | with_reducible refine ResKeeps.ite (fun _ => ?_) (fun _ => ?_)
    | with_reducible apply markTaken_keeps
    | (with_reducible refine Keeps.lit hk ?_ ?_ ?_ ?_ ?_ ?_ ?_ ?_ ?_ ?_ ?_ <;> rfl)
    | (dsimp only)
    | split
theorem execSessionClose_keepsR {s0 s : State} (ring : Nat) (seq : Nat) (hk : Keeps s0 s) : ResKeeps s0 (execSessionClose ring seq s) := by
  unfold execSessionClose
  refine fast_keepsR hk ?_
  repeat' first
    | with_reducible assumption
    | with_reducible apply auditedOp_keepsR
theorem execSysStatus_keepsR {s0 s : State} (ring : Nat) (seq : Nat) (hk : Keeps s0 s) : ResKeeps s0 (execSysStatus ring seq s) := by
  unfold execSysStatus
  refine fast_keepsR hk ?_
  repeat' first
    | with_reducible assumption
    | with_reducible apply plainOp_keepsR
    | with_reducible apply drewFree_keeps
    | (intro _)
theorem execServiceStart_keepsR {s0 s : State} (ring : Nat) (seq : Nat) (hk : Keeps s0 s) : ResKeeps s0 (execServiceStart ring seq s) := by
  unfold execServiceStart
  refine fast_keepsR hk ?_
  repeat' first
    | with_reducible assumption
    | with_reducible apply auditedOp_keepsR
theorem execServiceStop_keepsR {s0 s : State} (ring : Nat) (seq : Nat) (hk : Keeps s0 s) : ResKeeps s0 (execServiceStop ring seq s) := by
  unfold execServiceStop
  refine fast_keepsR hk ?_
  repeat' first
    | with_reducible assumption
    | with_reducible apply auditedOp_keepsR
theorem execPortEnable_keepsR {s0 s : State} (ring : Nat) (seq : Nat) (hk : Keeps s0 s) : ResKeeps s0 (execPortEnable ring seq s) := by
  unfold execPortEnable
  refine fast_keepsR hk ?_
  repeat' first
    | with_reducible assumption
    | with_reducible apply auditedOp_keepsR
theorem execDeviceDoze_keepsR {s0 s : State} (ring : Nat) (seq : Nat) (hk : Keeps s0 s) : ResKeeps s0 (execDeviceDoze ring seq s) := by
  unfold execDeviceDoze
  refine fast_keepsR hk ?_
  repeat' first
    | with_reducible assumption
    | with_reducible apply auditedOp_keepsR
theorem execResetDevice_keepsR {s0 s : State} (ring : Nat) (seq : Nat) (hk : Keeps s0 s) : ResKeeps s0 (execResetDevice ring seq s) := by
  unfold execResetDevice
  refine fast_keepsR hk ?_
  repeat' first
    | with_reducible assumption
    | with_reducible apply auditedOp_keepsR

/-! ### Peer -/

theorem execHello_keepsR {s0 s : State} (hello : Hello) (hk : Keeps s0 s) : ResKeeps s0 (execHello hello s) := by
  unfold execHello
  refine alive_keepsR hk (ResKeeps.ite (fun _ => ResKeeps.next hk) (fun _ => ResKeeps.next ?_))
  exact answerHello_keeps _ (endPairing_keeps id (hk.upd rfl rfl rfl rfl rfl rfl rfl rfl rfl rfl rfl rfl) (fun _ h => h))
theorem execConfirm_keepsR {s0 s : State} (sigOk : Bool) (hk : Keeps s0 s) : ResKeeps s0 (execConfirm sigOk s) := by
  unfold execConfirm
  refine alive_keepsR hk ?_
  repeat' first
    | with_reducible assumption
    | with_reducible refine ResKeeps.next ?_
    | with_reducible apply refusePairing_keeps
    | with_reducible apply pairUp_keeps
    | split
theorem execUnpair_keepsR {s0 s : State} (_reason : Nat) (hk : Keeps s0 s) : ResKeeps s0 (execUnpair _reason s) := by
  unfold execUnpair
  refine alive_keepsR hk ?_
  repeat' first
    | with_reducible refine ResKeeps.next ?_
    | with_reducible refine ResKeeps.ite (fun _ => ?_) (fun _ => ?_)
    | with_reducible apply endPairing_keeps
    | (with_reducible refine Keeps.lit (by with_reducible assumption) ?_ ?_ ?_ ?_ ?_ ?_ ?_ ?_ ?_ ?_ ?_ <;> rfl)
    | (intro _)
theorem execPairingRetry_keepsR {s0 s : State}  (hk : Keeps s0 s) : ResKeeps s0 (execPairingRetry s) := by
  unfold execPairingRetry
  repeat' first
    | with_reducible assumption
    | with_reducible refine ResKeeps.next ?_
    | with_reducible refine alive_keepsR hk ?_
    | with_reducible refine ResKeeps.ite (fun _ => ?_) (fun _ => ?_)
    | with_reducible apply sendHello_keeps
    | with_reducible apply answerHello_keeps
    | with_reducible refine Keeps.ite (fun _ => ?_) (fun _ => ?_)
    | split
theorem execPeerLinkTrained_keepsR {s0 s : State} (lanes : Nat) (hk : Keeps s0 s) : ResKeeps s0 (execPeerLinkTrained lanes s) := by
  unfold execPeerLinkTrained
  refine alive_keepsR hk ?_
  repeat' first
    | with_reducible refine ResKeeps.next ?_
    | with_reducible refine ResKeeps.ite (fun _ => ?_) (fun _ => ?_)
    | with_reducible apply sendHello_keeps
    | (with_reducible refine Keeps.lit hk ?_ ?_ ?_ ?_ ?_ ?_ ?_ ?_ ?_ ?_ ?_ <;> rfl)
theorem execPeerLinkDown_keepsR {s0 s : State} (lanes : Nat) (hk : Keeps s0 s) : ResKeeps s0 (execPeerLinkDown lanes s) := by
  unfold execPeerLinkDown
  refine alive_keepsR hk ?_
  repeat' first
    | with_reducible refine ResKeeps.next ?_
    | (with_reducible refine Keeps.lit hk ?_ ?_ ?_ ?_ ?_ ?_ ?_ ?_ ?_ ?_ ?_ <;> rfl)
theorem execPeerPathLoss_keepsR {s0 s : State} (hk : Keeps s0 s) : ResKeeps s0 (execPeerPathLoss s) := by
  unfold execPeerPathLoss
  refine alive_keepsR hk ?_
  split
  · exact ResKeeps.next hk
  · exact ResKeeps.next (endPairing_keeps id hk (fun _ h => h))
theorem execPeerProtocolError_keepsR {s0 s : State}  (hk : Keeps s0 s) : ResKeeps s0 (execPeerProtocolError s) := by
  unfold execPeerProtocolError
  refine alive_keepsR hk ?_
  repeat' first
    | with_reducible assumption
    | with_reducible refine ResKeeps.next ?_
    | with_reducible refine ResKeeps.ite (fun _ => ?_) (fun _ => ?_)
    | with_reducible apply peerProtocolError_keeps
theorem execPeerKeyPhaseChange_keepsR {s0 s : State}  (hk : Keeps s0 s) : ResKeeps s0 (execPeerKeyPhaseChange s) := by
  unfold execPeerKeyPhaseChange
  refine alive_keepsR hk ?_
  repeat' first
    | with_reducible refine ResKeeps.next ?_
    | with_reducible refine ResKeeps.ite (fun _ => ?_) (fun _ => ?_)
    | (with_reducible refine Keeps.lit hk ?_ ?_ ?_ ?_ ?_ ?_ ?_ ?_ ?_ ?_ ?_ <;> rfl)
theorem fromPeer_keepsR {s0 s : State} (k : State → Result) (hk : Keeps s0 s) (hh : ∀ s, Keeps s0 s → ResKeeps s0 (k s)) :
    ResKeeps s0 (fromPeer s k) := by
  unfold fromPeer
  repeat' split
  · exact ResKeeps.next hk
  · exact ResKeeps.next (peerProtocolError_keeps hk)
  · exact hh s hk
theorem execPeerPlem_keepsR {s0 s : State} (packet : List Byte) (block : List Byte) (hk : Keeps s0 s) : ResKeeps s0 (execPeerPlem packet block s) := by
  unfold execPeerPlem
  repeat' first
    | with_reducible assumption
    | with_reducible refine ResKeeps.next ?_
    | with_reducible refine alive_keepsR hk ?_
    | with_reducible apply fromPeer_keepsR
    | with_reducible apply internalArrive_keeps
    | (intro _)
theorem execCarry_keepsR {s0 s : State} (packet : List Byte) (block : List Byte) (hk : Keeps s0 s) : ResKeeps s0 (execCarry packet block s) := by
  unfold execCarry
  refine alive_keepsR hk ?_
  repeat' first
    | with_reducible refine ResKeeps.next ?_
    | with_reducible apply fromPeer_keepsR
    | (with_reducible refine Keeps.lit (by with_reducible assumption) ?_ ?_ ?_ ?_ ?_ ?_ ?_ ?_ ?_ ?_ ?_ <;> rfl)
    | (intro _)
theorem execPackRelay_keepsR {s0 s : State} (port : Nat) (block : Nat) (_offset : Nat) (_length : Nat) (_slc : Bool) (hk : Keeps s0 s) : ResKeeps s0 (execPackRelay port block _offset _length _slc s) := by
  unfold execPackRelay
  refine alive_keepsR hk ?_
  repeat' first
    | with_reducible assumption
    | with_reducible refine ResKeeps.next ?_
    | with_reducible apply fromPeer_keepsR
    | with_reducible refine ResKeeps.ite (fun _ => ?_) (fun _ => ?_)
    | with_reducible apply respondPeer_keeps
    | with_reducible apply sendReq_keeps
    | with_reducible apply setReads_keeps
    | (intro _)
theorem execRefTake_keepsR {s0 s : State} (bundle : Nat) (position : Nat) (hk : Keeps s0 s) : ResKeeps s0 (execRefTake bundle position s) := by
  unfold execRefTake
  refine alive_keepsR hk ?_
  repeat' first
    | with_reducible assumption
    | with_reducible refine ResKeeps.next ?_
    | with_reducible apply fromPeer_keepsR
    | with_reducible apply respondPeer_keeps
    | with_reducible apply updStored_keeps
    | (intro _)
    | split
theorem execAuthState_keepsR {s0 s : State} (asn : Nat) (d : AuthDecision) (hk : Keeps s0 s) : ResKeeps s0 (execAuthState asn d s) := by
  unfold execAuthState
  refine alive_keepsR hk ?_
  refine fromPeer_keepsR _ hk (fun s h => ?_)
  split
  · exact ResKeeps.next h
  · exact ResKeeps.next (updateMembers_keeps (applyDecision_keeps _ (h.upd rfl rfl rfl rfl rfl rfl rfl rfl rfl rfl rfl rfl)))
theorem execTakeoverT_keepsR {s0 s : State} (t : Nat) (hk : Keeps s0 s) : ResKeeps s0 (execTakeoverT t s) := by
  unfold execTakeoverT
  refine alive_keepsR hk ?_
  repeat' first
    | with_reducible refine ResKeeps.next ?_
    | with_reducible apply fromPeer_keepsR
    | with_reducible refine ResKeeps.ite (fun _ => ?_) (fun _ => ?_)
    | with_reducible apply sendMirrorAck_keeps
    | with_reducible apply writeHeader2_keeps
    | with_reducible apply withAccess_keeps
    | with_reducible apply replayBands_keeps
    | with_reducible apply replayCommit_keeps
    | with_reducible apply endReplay_keeps
    | with_reducible refine Keeps.foldl _ (fun s a h => ?_) ?_
    | (with_reducible refine Keeps.lit (closeOwnSegments_keeps ?_) ?_ ?_ ?_ ?_ ?_ ?_ ?_ ?_ ?_ ?_ ?_ <;> try rfl)
    | (with_reducible refine Keeps.lit (by with_reducible assumption) ?_ ?_ ?_ ?_ ?_ ?_ ?_ ?_ ?_ ?_ ?_ <;> rfl)
    | (intro _)
theorem execHealthSend_keepsR {s0 s : State}  (hk : Keeps s0 s) : ResKeeps s0 (execHealthSend s) := by
  unfold execHealthSend
  refine alive_keepsR hk ?_
  repeat' first
    | with_reducible refine ResKeeps.next ?_
    | with_reducible refine ResKeeps.ite (fun _ => ?_) (fun _ => ?_)
    | with_reducible apply sendPeer_keeps
    | with_reducible apply askFenced_keeps
    | (with_reducible refine Keeps.lit hk ?_ ?_ ?_ ?_ ?_ ?_ ?_ ?_ ?_ ?_ ?_ <;> rfl)
theorem execPeerHealth_keepsR {s0 s : State} (health : Health) (hk : Keeps s0 s) : ResKeeps s0 (execPeerHealth health s) := by
  unfold execPeerHealth
  refine alive_keepsR hk ?_
  split
  · exact ResKeeps.next hk
  · split
    · exact ResKeeps.next (countEvent_keeps _ _ hk)
    · have h := withAccess_keeps (fun s => { s with hdl.peerHealth := some health, hdl.healthAbsent := false, hdl.silent := s.hdl.silent && !s.hdl.bridge }) hk
        (fun s h => h.upd rfl rfl rfl rfl rfl rfl rfl rfl rfl rfl rfl rfl)
      dsimp only
      generalize withAccess (fun s => { s with hdl.peerHealth := some health, hdl.healthAbsent := false, hdl.silent := s.hdl.silent && !s.hdl.bridge }) s = t at h
      split
      · exact ResKeeps.next h
      · split
        · exact ResKeeps.next (lostAuthority_keeps h)
        · exact ResKeeps.next (updateMembers_keeps (compareDigest_keeps _ h))
theorem execHealthAbsent_keepsR {s0 s : State}  (hk : Keeps s0 s) : ResKeeps s0 (execHealthAbsent s) := by
  unfold execHealthAbsent
  refine alive_keepsR hk ?_
  repeat' first
    | with_reducible refine ResKeeps.next ?_
    | with_reducible refine ResKeeps.ite (fun _ => ?_) (fun _ => ?_)
    | with_reducible apply countEvent_keeps
    | (with_reducible refine Keeps.lit hk ?_ ?_ ?_ ?_ ?_ ?_ ?_ ?_ ?_ ?_ ?_ <;> rfl)
theorem execDigestBoundary_keepsR {s0 s : State}  (hk : Keeps s0 s) : ResKeeps s0 (execDigestBoundary s) := by
  unfold execDigestBoundary
  refine alive_keepsR hk ?_
  repeat' first
    | with_reducible refine ResKeeps.next ?_
    | (with_reducible refine Keeps.lit hk ?_ ?_ ?_ ?_ ?_ ?_ ?_ ?_ ?_ ?_ ?_ <;> rfl)
theorem execTileKnownAnswerTest_keepsR {s0 s : State} (tile : Nat) (pass : Bool) (hk : Keeps s0 s) : ResKeeps s0 (execTileKnownAnswerTest tile pass s) := by
  unfold execTileKnownAnswerTest
  refine alive_keepsR hk ?_
  repeat' first
    | with_reducible refine ResKeeps.next ?_
    | with_reducible refine ResKeeps.ite (fun _ => ?_) (fun _ => ?_)
    | with_reducible apply countEvent_keeps
    | (with_reducible refine Keeps.lit hk ?_ ?_ ?_ ?_ ?_ ?_ ?_ ?_ ?_ ?_ ?_ <;> rfl)

end Sys2Proof.Machine
end

