-- ==== Sys2Proof/Laws/KeepsExecC.lean ====
section
/-! SUPPORT. The commands keep what Keeps says: Cipher, Dmv, Recorder, Io, Nvme, Ethernet. -/

namespace Sys2Proof.Machine

set_option linter.unusedVariables false

/-! ### Cipher -/

theorem execKeyGenerate_keepsR {s0 s : State} (ring : Nat) (seq : Nat) (hk : Keeps s0 s) : ResKeeps s0 (execKeyGenerate ring seq s) := by
  unfold execKeyGenerate
  refine fast_keepsR hk ?_
  repeat' first
    | with_reducible assumption
    | with_reducible refine ResKeeps.next ?_
    | with_reducible apply takeDecision_keeps
    | with_reducible apply drewKey_keeps
    | with_reducible apply sendKey_keeps
    | split
theorem execKeyXfer_keepsR {s0 s : State} (kcv : List Byte) (hk : Keeps s0 s) : ResKeeps s0 (execKeyXfer kcv s) := by
  unfold execKeyXfer
  refine fast_keepsR hk ?_
  repeat' first
    | with_reducible refine ResKeeps.next ?_
    | with_reducible apply fromPeer_keepsR
    | with_reducible apply respondPeer_keeps
    | (with_reducible refine Keeps.lit (by with_reducible assumption) ?_ ?_ ?_ ?_ ?_ ?_ ?_ ?_ ?_ ?_ ?_ <;> rfl)
    | (intro _)
    | split
theorem execKeyLoad_keepsR {s0 s : State} (ring : Nat) (seq : Nat) (hk : Keeps s0 s) : ResKeeps s0 (execKeyLoad ring seq s) := by
  unfold execKeyLoad
  refine fast_keepsR hk ?_
  repeat' first
    | with_reducible assumption
    | with_reducible apply auditedOp_keepsR
theorem execKeyExport_keepsR {s0 s : State} (ring : Nat) (seq : Nat) (hk : Keeps s0 s) : ResKeeps s0 (execKeyExport ring seq s) := by
  unfold execKeyExport
  refine fast_keepsR hk ?_
  repeat' first
    | with_reducible assumption
    | with_reducible refine ResKeeps.next ?_
    | with_reducible apply takeDecision_keeps
    | with_reducible apply sendKey_keeps
    | split
theorem execKeyDestroy_keepsR {s0 s : State} (ring : Nat) (seq : Nat) (hk : Keeps s0 s) : ResKeeps s0 (execKeyDestroy ring seq s) := by
  unfold execKeyDestroy
  refine fast_keepsR hk ?_
  repeat' first
    | with_reducible assumption
    | with_reducible apply auditedOp_keepsR
theorem execKeyQuery_keepsR {s0 s : State} (ring : Nat) (seq : Nat) (hk : Keeps s0 s) : ResKeeps s0 (execKeyQuery ring seq s) := by
  unfold execKeyQuery
  refine fast_keepsR hk ?_
  repeat' first
    | with_reducible assumption
    | with_reducible apply plainOp_keepsR
    | (intro _)
theorem execLookasideRequest_keepsR {s0 s : State} (queue : Nat) (slot : Nat) (mode : Nat) (flags : Nat) (length : Nat) (aadLen : Nat) (iv : List Byte) (srcTotal : Nat) (dstTotal : Nat) (data : List Byte) (aad : List Byte) (mismatch : Bool) (hk : Keeps s0 s) : ResKeeps s0 (execLookasideRequest queue slot mode flags length aadLen iv srcTotal dstTotal data aad mismatch s) := by
  unfold execLookasideRequest
  refine engine_keepsR hk ?_
  repeat' first
    | with_reducible assumption
    | with_reducible refine ResKeeps.next ?_
    | with_reducible refine ResKeeps.ite (fun _ => ?_) (fun _ => ?_)
    | with_reducible apply emit_keeps
    | with_reducible apply countEvent_keeps
    | with_reducible apply failSilent_keeps
    | with_reducible apply keyExhausted_keeps
    | with_reducible apply chargeKey_keeps
    | with_reducible apply tagFailed_keeps
    | split
theorem stageInput_keeps {s0 s : State} (bytes : List Byte) (hk : Keeps s0 s) : Keeps s0 (stageInput bytes s) := by
  unfold stageInput
  repeat' first
    | with_reducible assumption
    | with_reducible apply engineWrite_keeps
    | with_reducible apply drewFree_keeps
    | (dsimp only)
    | split
theorem execCipherOp_keepsR {s0 s : State} (ring : Nat) (seq : Nat) (input : List Byte) (hk : Keeps s0 s) : ResKeeps s0 (execCipherOp ring seq input s) := by
  unfold execCipherOp
  refine fast_keepsR hk ?_
  repeat' first
    | with_reducible assumption
    | with_reducible refine ResKeeps.next ?_
    | with_reducible apply completePlain_keeps
    | with_reducible apply stageInput_keeps
    | with_reducible apply keyExhausted_keeps
    | with_reducible apply chargeKey_keeps
    | with_reducible apply tagFailed_keeps
    | (dsimp only)
    | split
theorem execDrbgReseed_keepsR {s0 s : State}  (hk : Keeps s0 s) : ResKeeps s0 (execDrbgReseed s) := by
  unfold execDrbgReseed
  refine fast_keepsR hk ?_
  repeat' first
    | with_reducible refine ResKeeps.next ?_
    | (with_reducible refine Keeps.lit hk ?_ ?_ ?_ ?_ ?_ ?_ ?_ ?_ ?_ ?_ ?_ <;> rfl)
theorem execEntropyHealthFail_keepsR {s0 s : State}  (hk : Keeps s0 s) : ResKeeps s0 (execEntropyHealthFail s) := by
  unfold execEntropyHealthFail
  refine fast_keepsR hk ?_
  repeat' first
    | with_reducible refine ResKeeps.next ?_
    | with_reducible apply failSilent_keeps
    | (with_reducible refine Keeps.lit hk ?_ ?_ ?_ ?_ ?_ ?_ ?_ ?_ ?_ ?_ ?_ <;> rfl)

/-! ### Dmv -/

theorem takeDesc_keepsR {s0 s : State} (n : Nat) (op : Nat) (d : DmvDesc) (srcs : List SgEntry) (hk : Keeps s0 s) : ResKeeps s0 (takeDesc n op d srcs s) := by
  unfold takeDesc
  repeat' first
    | with_reducible assumption
    | with_reducible refine ResKeeps.next ?_
    | with_reducible apply updLane_keeps
    | with_reducible apply completeRun_keeps
    | with_reducible apply passFences_keeps
    | with_reducible apply refuseDesc_keeps
    | (with_reducible refine Keeps.lit (nextDescriptor_keeps _ ?_) ?_ ?_ ?_ ?_ ?_ ?_ ?_ ?_ ?_ ?_ ?_ <;> try rfl)
    | (dsimp only)
    | split
theorem execCopy_keepsR {s0 s : State} (lane : Nat) (desc : DmvDesc) (srcs : List SgEntry) (hk : Keeps s0 s) : ResKeeps s0 (execCopy lane desc srcs s) := by
  unfold execCopy
  refine engine_keepsR hk ?_
  repeat' first
    | with_reducible assumption
    | with_reducible apply takeDesc_keepsR
theorem execFill_keepsR {s0 s : State} (lane : Nat) (desc : DmvDesc) (hk : Keeps s0 s) : ResKeeps s0 (execFill lane desc s) := by
  unfold execFill
  refine engine_keepsR hk ?_
  repeat' first
    | with_reducible assumption
    | with_reducible apply takeDesc_keepsR
theorem execFence_keepsR {s0 s : State} (lane : Nat) (desc : DmvDesc) (hk : Keeps s0 s) : ResKeeps s0 (execFence lane desc s) := by
  unfold execFence
  refine engine_keepsR hk ?_
  repeat' first
    | with_reducible assumption
    | with_reducible apply takeDesc_keepsR
theorem execFlush_keepsR {s0 s : State} (lane : Nat) (desc : DmvDesc) (hk : Keeps s0 s) : ResKeeps s0 (execFlush lane desc s) := by
  unfold execFlush
  refine engine_keepsR hk ?_
  repeat' first
    | with_reducible assumption
    | with_reducible apply takeDesc_keepsR
theorem execBurstGrant_keepsR {s0 s : State} (requests : Nat) (age : List Nat) (hk : Keeps s0 s) : ResKeeps s0 (execBurstGrant requests age s) := by
  unfold execBurstGrant
  refine engine_keepsR hk ?_
  repeat' first
    | with_reducible assumption
    | with_reducible refine ResKeeps.next ?_
    | with_reducible apply failSilent_keeps
    | with_reducible apply deniedHam_keeps
    | with_reducible apply deniedCol_keeps
    | with_reducible apply engineDenied_keeps
    | with_reducible apply endRun_keeps
    | with_reducible apply issueBurst_keeps
    | (with_reducible refine Keeps.lit (paceChecks_keeps _ ?_) ?_ ?_ ?_ ?_ ?_ ?_ ?_ ?_ ?_ ?_ ?_ <;> try rfl)
    | (dsimp only)
    | split
theorem execPaceRequestResume_keepsR {s0 s : State} (lane : Nat) (hk : Keeps s0 s) : ResKeeps s0 (execPaceRequestResume lane s) := by
  unfold execPaceRequestResume
  refine engine_keepsR hk ?_
  repeat' first
    | with_reducible assumption
    | with_reducible refine ResKeeps.next ?_
    | with_reducible apply updLane_keeps
theorem execPaceTimeout_keepsR {s0 s : State} (lane : Nat) (hk : Keeps s0 s) : ResKeeps s0 (execPaceTimeout lane s) := by
  unfold execPaceTimeout
  refine engine_keepsR hk ?_
  repeat' first
    | with_reducible refine ResKeeps.next ?_
    | with_reducible apply countEvent_keeps
    | with_reducible apply endRun_keeps
    | (with_reducible refine Keeps.lit hk ?_ ?_ ?_ ?_ ?_ ?_ ?_ ?_ ?_ ?_ ?_ <;> rfl)
    | split
theorem execWritesArrived_keepsR {s0 s : State} (lane : Nat) (count : Nat) (hk : Keeps s0 s) : ResKeeps s0 (execWritesArrived lane count s) := by
  unfold execWritesArrived
  refine engine_keepsR hk ?_
  repeat' first
    | with_reducible assumption
    | with_reducible refine ResKeeps.next ?_
    | with_reducible apply updLane_keeps
    | with_reducible apply passFences_keeps
    | with_reducible apply arriveWrite_keeps
    | with_reducible apply postNotices_keeps
    | (with_reducible refine Keeps.lit (Keeps.foldl _ (fun s a h => ?_) ?_) ?_ ?_ ?_ ?_ ?_ ?_ ?_ ?_ ?_ ?_ ?_ <;> try rfl)
theorem execC0WriteArrivalTimeout_keepsR {s0 s : State} (lane : Nat) (hk : Keeps s0 s) : ResKeeps s0 (execC0WriteArrivalTimeout lane s) := by
  unfold execC0WriteArrivalTimeout
  refine engine_keepsR hk ?_
  repeat' first
    | with_reducible assumption
    | with_reducible refine ResKeeps.next ?_
    | with_reducible refine ResKeeps.ite (fun _ => ?_) (fun _ => ?_)
    | with_reducible apply countEvent_keeps
    | with_reducible apply updLane_keeps
theorem execDmvSvcCfgWrite_keepsR {s0 s : State} (lane : Nat) (value : Word) (hk : Keeps s0 s) : ResKeeps s0 (execDmvSvcCfgWrite lane value s) := by
  unfold execDmvSvcCfgWrite
  refine fast_keepsR hk ?_
  repeat' first
    | with_reducible assumption
    | with_reducible refine ResKeeps.next ?_
    | with_reducible refine ResKeeps.ite (fun _ => ?_) (fun _ => ?_)
    | with_reducible apply svcCfgWrite_keeps
theorem execDmvSvcTailDoorbell_keepsR {s0 s : State} (lane : Nat) (value : Word) (hk : Keeps s0 s) : ResKeeps s0 (execDmvSvcTailDoorbell lane value s) := by
  unfold execDmvSvcTailDoorbell
  refine fast_keepsR hk ?_
  repeat' first
    | with_reducible assumption
    | with_reducible refine ResKeeps.next ?_
    | with_reducible refine ResKeeps.ite (fun _ => ?_) (fun _ => ?_)
    | with_reducible apply doorbellWakes_keeps
    | with_reducible apply updLane_keeps
theorem execDmvSvcHeadDoorbell_keepsR {s0 s : State} (lane : Nat) (value : Word) (hk : Keeps s0 s) : ResKeeps s0 (execDmvSvcHeadDoorbell lane value s) := by
  unfold execDmvSvcHeadDoorbell
  refine fast_keepsR hk ?_
  repeat' first
    | with_reducible assumption
    | with_reducible refine ResKeeps.next ?_
    | with_reducible refine ResKeeps.ite (fun _ => ?_) (fun _ => ?_)
    | with_reducible apply doorbellWakes_keeps
    | with_reducible apply updLane_keeps
    | with_reducible apply releaseRecords_keeps

/-! ### Recorder -/

theorem execEventNotice_keepsR {s0 s : State} (code : Nat) (value : Nat) (hk : Keeps s0 s) : ResKeeps s0 (execEventNotice code value s) := by
  unfold execEventNotice
  refine fast_keepsR hk ?_
  repeat' first
    | with_reducible assumption
    | with_reducible refine ResKeeps.next ?_
    | with_reducible refine ResKeeps.ite (fun _ => ?_) (fun _ => ?_)
    | with_reducible apply countEvent_keeps
theorem execEpochEnd_keepsR {s0 s : State}  (hk : Keeps s0 s) : ResKeeps s0 (execEpochEnd s) := by
  unfold execEpochEnd
  refine fast_keepsR hk ?_
  repeat' first
    | with_reducible assumption
    | with_reducible refine ResKeeps.next ?_
    | with_reducible apply evrRecord_keeps
    | (with_reducible refine Keeps.lit hk ?_ ?_ ?_ ?_ ?_ ?_ ?_ ?_ ?_ ?_ ?_ <;> rfl)
    | (with_reducible refine Keeps.lit (Keeps.foldl _ (fun s a h => ?_) ?_) ?_ ?_ ?_ ?_ ?_ ?_ ?_ ?_ ?_ ?_ ?_ <;> try rfl)
theorem execStartMarker_keepsR {s0 s : State}  (hk : Keeps s0 s) : ResKeeps s0 (execStartMarker s) := by
  unfold execStartMarker
  refine fast_keepsR hk ?_
  repeat' first
    | with_reducible assumption
    | with_reducible refine ResKeeps.next ?_
    | with_reducible refine ResKeeps.ite (fun _ => ?_) (fun _ => ?_)
    | with_reducible apply evrRecord_keeps
    | with_reducible apply countEvent_keeps
    | with_reducible refine Keeps.foldl _ (fun s a h => ?_) ?_
    | (with_reducible refine Keeps.lit hk ?_ ?_ ?_ ?_ ?_ ?_ ?_ ?_ ?_ ?_ ?_ <;> rfl)
    | (with_reducible refine Keeps.lit (countIf_keeps _ _ ?_) ?_ ?_ ?_ ?_ ?_ ?_ ?_ ?_ ?_ ?_ ?_ <;> try rfl)
theorem execEvrRead_keepsR {s0 s : State} (ring : Nat) (seq : Nat) (hk : Keeps s0 s) : ResKeeps s0 (execEvrRead ring seq s) := by
  unfold execEvrRead
  refine fast_keepsR hk ?_
  repeat' first
    | with_reducible assumption
    | with_reducible apply plainOp_keepsR
    | (intro _)
theorem execEvrClear_keepsR {s0 s : State} (ring : Nat) (seq : Nat) (hk : Keeps s0 s) : ResKeeps s0 (execEvrClear ring seq s) := by
  unfold execEvrClear
  refine fast_keepsR hk ?_
  repeat' first
    | with_reducible assumption
    | with_reducible apply auditedOp_keepsR

/-! ### Io -/

theorem fetchIo_keepsR {s0 s : State} (ctrl : Nat) (sq : Nat) (cid : Nat) (cmd : IoCmd) (hk : Keeps s0 s) : ResKeeps s0 (fetchIo ctrl sq cid cmd s) := by
  unfold fetchIo
  repeat' first
    | with_reducible refine ResKeeps.next ?_
    | with_reducible apply completeUntagged_keeps
    | (with_reducible refine Keeps.lit hk ?_ ?_ ?_ ?_ ?_ ?_ ?_ ?_ ?_ ?_ ?_ <;> rfl)
    | split
theorem execNvmeFlush_keepsR {s0 s : State} (ctrl : Nat) (sq : Nat) (cid : Nat) (nsid : Nat) (hk : Keeps s0 s) : ResKeeps s0 (execNvmeFlush ctrl sq cid nsid s) := by
  unfold execNvmeFlush
  refine alive_keepsR hk ?_
  repeat' first
    | with_reducible assumption
    | with_reducible apply fetchIo_keepsR
theorem execNvmeWrite_keepsR {s0 s : State} (ctrl : Nat) (sq : Nat) (cid : Nat) (nsid : Nat) (slba : Nat) (nlb : Nat) (pi : PiCtl) (sglLen : Nat) (hk : Keeps s0 s) : ResKeeps s0 (execNvmeWrite ctrl sq cid nsid slba nlb pi sglLen s) := by
  unfold execNvmeWrite
  refine alive_keepsR hk ?_
  repeat' first
    | with_reducible assumption
    | with_reducible apply fetchIo_keepsR
theorem execNvmeRead_keepsR {s0 s : State} (ctrl : Nat) (sq : Nat) (cid : Nat) (nsid : Nat) (slba : Nat) (nlb : Nat) (pi : PiCtl) (sglLen : Nat) (hk : Keeps s0 s) : ResKeeps s0 (execNvmeRead ctrl sq cid nsid slba nlb pi sglLen s) := by
  unfold execNvmeRead
  refine alive_keepsR hk ?_
  repeat' first
    | with_reducible assumption
    | with_reducible apply fetchIo_keepsR
theorem execNvmeCompare_keepsR {s0 s : State} (ctrl : Nat) (sq : Nat) (cid : Nat) (nsid : Nat) (slba : Nat) (nlb : Nat) (pi : PiCtl) (sglLen : Nat) (hk : Keeps s0 s) : ResKeeps s0 (execNvmeCompare ctrl sq cid nsid slba nlb pi sglLen s) := by
  unfold execNvmeCompare
  refine alive_keepsR hk ?_
  repeat' first
    | with_reducible assumption
    | with_reducible apply fetchIo_keepsR
theorem execNvmeWriteZeroes_keepsR {s0 s : State} (ctrl : Nat) (sq : Nat) (cid : Nat) (nsid : Nat) (slba : Nat) (nlb : Nat) (deac : Bool) (hk : Keeps s0 s) : ResKeeps s0 (execNvmeWriteZeroes ctrl sq cid nsid slba nlb deac s) := by
  unfold execNvmeWriteZeroes
  refine alive_keepsR hk ?_
  repeat' first
    | with_reducible assumption
    | with_reducible apply fetchIo_keepsR
theorem execNvmeDatasetManagement_keepsR {s0 s : State} (ctrl : Nat) (sq : Nat) (cid : Nat) (nsid : Nat) (ad : Bool) (data : DsmRanges) (hk : Keeps s0 s) : ResKeeps s0 (execNvmeDatasetManagement ctrl sq cid nsid ad data s) := by
  unfold execNvmeDatasetManagement
  repeat' first
    | with_reducible assumption
    | with_reducible refine alive_keepsR hk ?_
    | with_reducible apply fetchIo_keepsR
theorem execNvmeVerify_keepsR {s0 s : State} (ctrl : Nat) (sq : Nat) (cid : Nat) (nsid : Nat) (slba : Nat) (nlb : Nat) (pi : PiCtl) (hk : Keeps s0 s) : ResKeeps s0 (execNvmeVerify ctrl sq cid nsid slba nlb pi s) := by
  unfold execNvmeVerify
  refine alive_keepsR hk ?_
  repeat' first
    | with_reducible assumption
    | with_reducible apply fetchIo_keepsR
theorem execFwdCmd_keepsR {s0 s : State} (tag : Nat) (gen : Nat) (cmd : IoCmd) (hk : Keeps s0 s) : ResKeeps s0 (execFwdCmd tag gen cmd s) := by
  unfold execFwdCmd
  repeat' first
    | with_reducible assumption
    | with_reducible refine ResKeeps.next ?_
    | with_reducible refine alive_keepsR hk ?_
    | with_reducible apply fromPeer_keepsR
    | with_reducible refine ResKeeps.ite (fun _ => ?_) (fun _ => ?_)
    | with_reducible apply completeUntagged_keeps
    | with_reducible apply peerAbort_keeps
    | (with_reducible refine Keeps.lit (by with_reducible assumption) ?_ ?_ ?_ ?_ ?_ ?_ ?_ ?_ ?_ ?_ ?_ <;> rfl)
    | (intro _)
    | (dsimp only)
    | split
theorem execTagAssign_keepsR {s0 s : State}  (hk : Keeps s0 s) : ResKeeps s0 (execTagAssign s) := by
  unfold execTagAssign
  repeat' first
    | with_reducible assumption
    | with_reducible refine ResKeeps.next ?_
    | with_reducible refine engine_keepsR hk ?_
    | with_reducible refine ResKeeps.ite (fun _ => ?_) (fun _ => ?_)
    | with_reducible apply numberVolumes_keeps
    | with_reducible apply completeUntagged_keeps
    | with_reducible apply takeTag_keeps
    | with_reducible apply startTag_keeps
    | (with_reducible refine Keeps.lit hk ?_ ?_ ?_ ?_ ?_ ?_ ?_ ?_ ?_ ?_ ?_ <;> rfl)
    | (dsimp only)
    | split
theorem execWritePayloadData_keepsR {s0 s : State} (tag : Nat) (blocks : List Block) (last : Bool) (verifyOk : Bool) (hk : Keeps s0 s) : ResKeeps s0 (execWritePayloadData tag blocks last verifyOk s) := by
  unfold execWritePayloadData
  repeat' first
    | with_reducible assumption
    | with_reducible refine ResKeeps.next ?_
    | with_reducible refine engine_keepsR hk ?_
    | with_reducible refine ResKeeps.ite (fun _ => ?_) (fun _ => ?_)
    | with_reducible apply updTag_keeps
    | with_reducible apply askHost_keeps
    | with_reducible apply sendForward_keeps
    | with_reducible apply payloadWhole_keeps
    | (dsimp only)
    | split
theorem execReadDataReady_keepsR {s0 s : State} (tag : Nat) (hk : Keeps s0 s) : ResKeeps s0 (execReadDataReady tag s) := by
  unfold execReadDataReady
  repeat' first
    | with_reducible assumption
    | with_reducible refine ResKeeps.next ?_
    | with_reducible refine engine_keepsR hk ?_
    | with_reducible refine ResKeeps.ite (fun _ => ?_) (fun _ => ?_)
    | with_reducible apply failSilent_keeps
    | with_reducible apply updTag_keeps
    | with_reducible apply endTag_keeps
    | with_reducible apply logLost_keeps
    | with_reducible apply settle_keeps
    | (dsimp only)
    | split
theorem execLockWaitWarning_keepsR {s0 s : State} (who : LockWaiter) (hk : Keeps s0 s) : ResKeeps s0 (execLockWaitWarning who s) := by
  unfold execLockWaitWarning
  repeat' first
    | with_reducible assumption
    | with_reducible refine ResKeeps.next ?_
    | with_reducible refine alive_keepsR hk ?_
    | with_reducible refine ResKeeps.ite (fun _ => ?_) (fun _ => ?_)
    | with_reducible apply countEvent_keeps
    | with_reducible apply updTag_keeps
    | (with_reducible refine Keeps.lit hk ?_ ?_ ?_ ?_ ?_ ?_ ?_ ?_ ?_ ?_ ?_ <;> rfl)
    | (dsimp only)
    | split
theorem execOwnershipMovePass_keepsR {s0 s : State} (vol : Nat) (lastArrival : Nat) (hk : Keeps s0 s) : ResKeeps s0 (execOwnershipMovePass vol lastArrival s) := by
  unfold execOwnershipMovePass
  repeat' first
    | with_reducible assumption
    | with_reducible refine ResKeeps.next ?_
    | with_reducible refine alive_keepsR hk ?_
    | with_reducible refine ResKeeps.ite (fun _ => ?_) (fun _ => ?_)
    | with_reducible apply updVolume_keeps
    | with_reducible apply withAccess_keeps
    | with_reducible apply sendLastArrival_keeps
    | with_reducible refine Keeps.ite (fun _ => ?_) (fun _ => ?_)
    | (with_reducible refine Keeps.lit hk ?_ ?_ ?_ ?_ ?_ ?_ ?_ ?_ ?_ ?_ ?_ <;> rfl)
    | (intro _)
    | (dsimp only)
    | split

/-! ### Nvme -/

theorem onAdmin_keepsR {s0 s : State} (ctrl : Nat) (f : Ctrl → State → State) (hk : Keeps s0 s)
    (hf : ∀ c s, Keeps s0 s → Keeps s0 (f c s)) : ResKeeps s0 (onAdmin ctrl f s) := by
  unfold onAdmin
  repeat' split
  · exact ResKeeps.next (hf _ _ hk)
  · exact ResKeeps.next hk
  · exact ResKeeps.next hk
theorem execNvmeCreateIoCq_keepsR {s0 s : State} (ctrl : Nat) (cid : Nat) (cq : Nat) (size : Nat) (contiguous : Bool) (hk : Keeps s0 s) : ResKeeps s0 (execNvmeCreateIoCq ctrl cid cq size contiguous s) := by
  unfold execNvmeCreateIoCq
  refine alive_keepsR hk ?_
  repeat' first
    | with_reducible assumption
    | with_reducible apply onAdmin_keepsR
    | with_reducible apply createIoCq_keeps
    | (intro _)
theorem execNvmeCreateIoSq_keepsR {s0 s : State} (ctrl : Nat) (cid : Nat) (sq : Nat) (cq : Nat) (size : Nat) (contiguous : Bool) (hk : Keeps s0 s) : ResKeeps s0 (execNvmeCreateIoSq ctrl cid sq cq size contiguous s) := by
  unfold execNvmeCreateIoSq
  refine alive_keepsR hk ?_
  repeat' first
    | with_reducible assumption
    | with_reducible apply onAdmin_keepsR
    | with_reducible apply createIoSq_keeps
    | (intro _)
theorem execNvmeDeleteIoCq_keepsR {s0 s : State} (ctrl : Nat) (cid : Nat) (cq : Nat) (hk : Keeps s0 s) : ResKeeps s0 (execNvmeDeleteIoCq ctrl cid cq s) := by
  unfold execNvmeDeleteIoCq
  refine alive_keepsR hk ?_
  repeat' first
    | with_reducible assumption
    | with_reducible apply onAdmin_keepsR
    | with_reducible apply deleteIoCq_keeps
    | (intro _)
theorem execNvmeDeleteIoSq_keepsR {s0 s : State} (ctrl : Nat) (cid : Nat) (sq : Nat) (hk : Keeps s0 s) : ResKeeps s0 (execNvmeDeleteIoSq ctrl cid sq s) := by
  unfold execNvmeDeleteIoSq
  refine alive_keepsR hk ?_
  repeat' first
    | with_reducible assumption
    | with_reducible apply onAdmin_keepsR
    | with_reducible apply deleteIoSq_keeps
    | (intro _)
theorem execNvmeSqDoorbell_keepsR {s0 s : State} (ctrl : Nat) (sq : Nat) (tail : Nat) (hk : Keeps s0 s) : ResKeeps s0 (execNvmeSqDoorbell ctrl sq tail s) := by
  unfold execNvmeSqDoorbell
  refine alive_keepsR hk ?_
  repeat' first
    | with_reducible assumption
    | with_reducible refine ResKeeps.next ?_
    | with_reducible refine ResKeeps.ite (fun _ => ?_) (fun _ => ?_)
    | with_reducible apply updCtrl_keeps
theorem execNvmeGetLogPage_keepsR {s0 s : State} (ctrl : Nat) (cid : Nat) (page : LogRequest) (hk : Keeps s0 s) : ResKeeps s0 (execNvmeGetLogPage ctrl cid page s) := by
  unfold execNvmeGetLogPage
  repeat' first
    | with_reducible assumption
    | with_reducible refine alive_keepsR hk ?_
    | with_reducible apply onAdmin_keepsR
    | with_reducible apply adminDone_keeps
    | with_reducible apply getLogPage_keeps
    | with_reducible refine Keeps.ite (fun _ => ?_) (fun _ => ?_)
    | (intro _)
theorem execNvmeIdentify_keepsR {s0 s : State} (ctrl : Nat) (cid : Nat) (what : IdRequest) (nsid : Nat) (hk : Keeps s0 s) : ResKeeps s0 (execNvmeIdentify ctrl cid what nsid s) := by
  unfold execNvmeIdentify
  repeat' first
    | with_reducible assumption
    | with_reducible refine alive_keepsR hk ?_
    | with_reducible apply onAdmin_keepsR
    | with_reducible apply identify_keeps
    | (intro _)
theorem execNvmeAbort_keepsR {s0 s : State} (ctrl : Nat) (cid : Nat) (sq : Nat) (target : Nat) (hk : Keeps s0 s) : ResKeeps s0 (execNvmeAbort ctrl cid sq target s) := by
  unfold execNvmeAbort
  refine alive_keepsR hk ?_
  repeat' first
    | with_reducible assumption
    | with_reducible apply onAdmin_keepsR
    | with_reducible apply nvmeAbort_keeps
    | (intro _)
theorem execAbortArbitration_keepsR {s0 s : State} (ctrl : Nat) (cid : Nat) (hk : Keeps s0 s) : ResKeeps s0 (execAbortArbitration ctrl cid s) := by
  unfold execAbortArbitration
  refine alive_keepsR hk ?_
  repeat' first
    | with_reducible assumption
    | with_reducible refine ResKeeps.next ?_
    | with_reducible apply arbitrate_keeps
    | split
theorem execNvmeSetFeaturesPower_keepsR {s0 s : State} (ctrl : Nat) (cid : Nat) (ps : Nat) (hk : Keeps s0 s) : ResKeeps s0 (execNvmeSetFeaturesPower ctrl cid ps s) := by
  unfold execNvmeSetFeaturesPower
  refine alive_keepsR hk ?_
  repeat' first
    | with_reducible assumption
    | with_reducible apply onAdmin_keepsR
    | with_reducible apply setPower_keeps
    | (intro _)
theorem execPowerEntryWindowEnd_keepsR {s0 s : State}  (hk : Keeps s0 s) : ResKeeps s0 (execPowerEntryWindowEnd s) := by
  unfold execPowerEntryWindowEnd
  refine fast_keepsR hk ?_
  repeat' first
    | with_reducible refine ResKeeps.next ?_
    | (with_reducible refine Keeps.lit hk ?_ ?_ ?_ ?_ ?_ ?_ ?_ ?_ ?_ ?_ ?_ <;> rfl)
    | split
theorem execPowerEntryDone_keepsR {s0 s : State}  (hk : Keeps s0 s) : ResKeeps s0 (execPowerEntryDone s) := by
  unfold execPowerEntryDone
  refine fast_keepsR hk ?_
  repeat' first
    | with_reducible refine ResKeeps.next ?_
    | with_reducible apply powerAnswered_keeps
    | with_reducible apply beginQueued_keeps
    | (with_reducible refine Keeps.lit hk ?_ ?_ ?_ ?_ ?_ ?_ ?_ ?_ ?_ ?_ ?_ <;> rfl)
    | split
theorem execNvmeSetFeaturesQueues_keepsR {s0 s : State} (ctrl : Nat) (cid : Nat) (count : Nat) (hk : Keeps s0 s) : ResKeeps s0 (execNvmeSetFeaturesQueues ctrl cid count s) := by
  unfold execNvmeSetFeaturesQueues
  refine alive_keepsR hk ?_
  repeat' first
    | with_reducible assumption
    | with_reducible apply onAdmin_keepsR
    | with_reducible apply setQueues_keeps
    | (intro _)
theorem execNvmeSetFeatures_keepsR {s0 s : State} (ctrl : Nat) (cid : Nat) (fid : Nat) (value : Nat) (hk : Keeps s0 s) : ResKeeps s0 (execNvmeSetFeatures ctrl cid fid value s) := by
  unfold execNvmeSetFeatures
  refine alive_keepsR hk ?_
  repeat' first
    | with_reducible assumption
    | with_reducible apply onAdmin_keepsR
    | with_reducible apply setFeatures_keeps
    | (intro _)
theorem execNvmeGetFeatures_keepsR {s0 s : State} (ctrl : Nat) (cid : Nat) (fid : Nat) (hk : Keeps s0 s) : ResKeeps s0 (execNvmeGetFeatures ctrl cid fid s) := by
  unfold execNvmeGetFeatures
  refine alive_keepsR hk ?_
  repeat' first
    | with_reducible assumption
    | with_reducible apply onAdmin_keepsR
    | with_reducible apply getFeatures_keeps
    | (intro _)
theorem execNvmeAsyncEventRequest_keepsR {s0 s : State} (ctrl : Nat) (cid : Nat) (hk : Keeps s0 s) : ResKeeps s0 (execNvmeAsyncEventRequest ctrl cid s) := by
  unfold execNvmeAsyncEventRequest
  refine alive_keepsR hk ?_
  repeat' first
    | with_reducible assumption
    | with_reducible apply onAdmin_keepsR
    | with_reducible apply updCtrl_keeps
    | with_reducible apply adminDone_keeps
    | with_reducible refine Keeps.ite (fun _ => ?_) (fun _ => ?_)
    | (intro _)
theorem execNvmeInvalidOpcode_keepsR {s0 s : State} (ctrl : Nat) (entry : SqEntry) (_opcode : Nat) (hk : Keeps s0 s) : ResKeeps s0 (execNvmeInvalidOpcode ctrl entry _opcode s) := by
  unfold execNvmeInvalidOpcode
  repeat' first
    | with_reducible assumption
    | with_reducible refine ResKeeps.next ?_
    | with_reducible refine alive_keepsR hk ?_
    | with_reducible apply onAdmin_keepsR
    | with_reducible refine ResKeeps.ite (fun _ => ?_) (fun _ => ?_)
    | with_reducible apply emit_keeps
    | with_reducible apply adminDone_keeps
    | (intro _)
theorem execNvmeKeepAlive_keepsR {s0 s : State} (ctrl : Nat) (cid : Nat) (hk : Keeps s0 s) : ResKeeps s0 (execNvmeKeepAlive ctrl cid s) := by
  unfold execNvmeKeepAlive
  refine alive_keepsR hk ?_
  repeat' first
    | with_reducible assumption
    | with_reducible apply onAdmin_keepsR
    | with_reducible apply updCtrl_keeps
    | with_reducible apply adminDone_keeps
    | (intro _)
theorem execCcEnClear_keepsR {s0 s : State} (ctrl : Nat) (hk : Keeps s0 s) : ResKeeps s0 (execCcEnClear ctrl s) := by
  unfold execCcEnClear
  refine fast_keepsR hk ?_
  repeat' first
    | with_reducible assumption
    | with_reducible refine ResKeeps.next ?_
    | with_reducible apply resetCtrl_keeps
theorem execFunctionLevelReset_keepsR {s0 s : State} (ctrl : Nat) (hk : Keeps s0 s) : ResKeeps s0 (execFunctionLevelReset ctrl s) := by
  unfold execFunctionLevelReset
  refine fast_keepsR hk ?_
  repeat' first
    | with_reducible assumption
    | with_reducible refine ResKeeps.next ?_
    | with_reducible refine ResKeeps.ite (fun _ => ?_) (fun _ => ?_)
    | with_reducible apply resetCtrl_keeps
theorem execCcEnSet_keepsR {s0 s : State} (ctrl : Nat) (css : Nat) (hk : Keeps s0 s) : ResKeeps s0 (execCcEnSet ctrl css s) := by
  unfold execCcEnSet
  refine fast_keepsR hk ?_
  repeat' first
    | with_reducible assumption
    | with_reducible refine ResKeeps.next ?_
    | with_reducible apply enableCtrl_keeps
theorem execKeepAliveExpiry_keepsR {s0 s : State} (ctrl : Nat) (hk : Keeps s0 s) : ResKeeps s0 (execKeepAliveExpiry ctrl s) := by
  unfold execKeepAliveExpiry
  refine alive_keepsR hk ?_
  repeat' first
    | with_reducible assumption
    | with_reducible refine ResKeeps.next ?_
    | with_reducible refine ResKeeps.ite (fun _ => ?_) (fun _ => ?_)
    | with_reducible apply countEvent_keeps
    | with_reducible apply endAssociation_keeps
theorem execFabricsDisconnect_keepsR {s0 s : State} (ctrl : Nat) (cid : Nat) (hk : Keeps s0 s) : ResKeeps s0 (execFabricsDisconnect ctrl cid s) := by
  unfold execFabricsDisconnect
  refine wire_keepsR hk ?_
  repeat' first
    | with_reducible assumption
    | with_reducible refine ResKeeps.next ?_
    | with_reducible refine ResKeeps.ite (fun _ => ?_) (fun _ => ?_)
    | with_reducible apply adminDone_keeps
    | with_reducible apply endAssociation_keeps
theorem execFabricsConnectionLoss_keepsR {s0 s : State} (ctrl : Nat) (hk : Keeps s0 s) : ResKeeps s0 (execFabricsConnectionLoss ctrl s) := by
  unfold execFabricsConnectionLoss
  refine alive_keepsR hk ?_
  repeat' first
    | with_reducible assumption
    | with_reducible refine ResKeeps.next ?_
    | with_reducible apply endAssociation_keeps
theorem execFabricsConnect_keepsR {s0 s : State} (conn : Nat) (cid : Nat) (ctrl : Option Nat) (qid : Nat) (sqsize : Nat) (discovery : Bool) (hostNqn : List Byte) (hk : Keeps s0 s) : ResKeeps s0 (execFabricsConnect conn cid ctrl qid sqsize discovery hostNqn s) := by
  unfold execFabricsConnect
  refine wire_keepsR hk ?_
  repeat' first
    | with_reducible assumption
    | with_reducible refine ResKeeps.next ?_
    | with_reducible apply emit_keeps
    | with_reducible apply connectAdmin_keeps
    | with_reducible apply connectIo_keeps
    | split
theorem execFabricsPropertyGet_keepsR {s0 s : State} (ctrl : Nat) (cid : Nat) (offset : Nat) (hk : Keeps s0 s) : ResKeeps s0 (execFabricsPropertyGet ctrl cid offset s) := by
  unfold execFabricsPropertyGet
  refine wire_keepsR hk ?_
  repeat' first
    | with_reducible assumption
    | with_reducible refine ResKeeps.next ?_
    | with_reducible apply adminDone_keeps
    | with_reducible apply adminValue_keeps
    | split
theorem execFabricsPropertySet_keepsR {s0 s : State} (ctrl : Nat) (cid : Nat) (offset : Nat) (value : Nat) (hk : Keeps s0 s) : ResKeeps s0 (execFabricsPropertySet ctrl cid offset value s) := by
  unfold execFabricsPropertySet
  refine wire_keepsR hk ?_
  repeat' first
    | with_reducible assumption
    | with_reducible refine ResKeeps.next ?_
    | with_reducible apply adminDone_keeps
    | with_reducible apply resetCtrl_keeps
    | with_reducible apply enableCtrl_keeps
    | split
theorem execPerstC0Assert_keepsR {s0 s : State} (hk : Keeps s0 s) : ResKeeps s0 (execPerstC0Assert s) := by
  have h := Keeps.foldl (f := fun s n => closeRing n s) (List.range 60) (fun s a h => closeRing_keeps a h) hk
  have h1 := resetCtrl_keeps 0 h
  unfold execPerstC0Assert
  dsimp only
  generalize resetCtrl 0 (List.foldl (fun s n => closeRing n s) s (List.range 60)) = t at h1
  exact ResKeeps.next (h1.upd rfl rfl rfl rfl rfl rfl rfl rfl rfl rfl rfl rfl)
theorem execPerstC1Assert_keepsR {s0 s : State}  (hk : Keeps s0 s) : ResKeeps s0 (execPerstC1Assert s) := by
  unfold execPerstC1Assert
  repeat' first
    | with_reducible assumption
    | with_reducible refine ResKeeps.next ?_
    | (with_reducible refine Keeps.lit (resetCtrl_keeps _ ?_) ?_ ?_ ?_ ?_ ?_ ?_ ?_ ?_ ?_ ?_ ?_ <;> try rfl)

/-! ### Ethernet -/

theorem execEthLinkChange_keepsR {s0 s : State} (sub : Nat) (up : Bool) (speed : Nat) (fec : Nat) (pfc : Bool) (hk : Keeps s0 s) : ResKeeps s0 (execEthLinkChange sub up speed fec pfc s) := by
  unfold execEthLinkChange
  refine alive_keepsR hk ?_
  repeat' first
    | with_reducible refine ResKeeps.next ?_
    | with_reducible refine ResKeeps.ite (fun _ => ?_) (fun _ => ?_)
    | (with_reducible refine Keeps.lit hk ?_ ?_ ?_ ?_ ?_ ?_ ?_ ?_ ?_ ?_ ?_ <;> rfl)
theorem answerAddress_keepsR {s0 s : State} (sub : Nat) (kind : Nat) (v6 : Bool) (target : List Byte) (answer : List Byte) (hk : Keeps s0 s) : ResKeeps s0 (answerAddress sub kind v6 target answer s) := by
  unfold answerAddress
  repeat' first
    | with_reducible assumption
    | with_reducible refine ResKeeps.next ?_
    | with_reducible refine ResKeeps.ite (fun _ => ?_) (fun _ => ?_)
    | with_reducible apply emit_keeps
theorem execArpRequest_keepsR {s0 s : State} (sub : Nat) (target : List Byte) (hk : Keeps s0 s) : ResKeeps s0 (execArpRequest sub target s) := by
  unfold execArpRequest
  refine wire_keepsR hk ?_
  repeat' first
    | with_reducible assumption
    | with_reducible apply answerAddress_keepsR
theorem execNeighborSolicitation_keepsR {s0 s : State} (sub : Nat) (target : List Byte) (hk : Keeps s0 s) : ResKeeps s0 (execNeighborSolicitation sub target s) := by
  unfold execNeighborSolicitation
  refine wire_keepsR hk ?_
  repeat' first
    | with_reducible assumption
    | with_reducible apply answerAddress_keepsR
theorem execIcmpEchoRequest_keepsR {s0 s : State} (sub : Nat) (target : List Byte) (payload : List Byte) (hk : Keeps s0 s) : ResKeeps s0 (execIcmpEchoRequest sub target payload s) := by
  unfold execIcmpEchoRequest
  refine wire_keepsR hk ?_
  repeat' first
    | with_reducible assumption
    | with_reducible apply answerAddress_keepsR

end Sys2Proof.Machine
end

