-- ==== Sys2Proof/Laws/KeepsExecD.lean ====
section
/-! SUPPORT. The commands keep what Keeps says: Handle, Layout, MapCache, Media, Thermal, Weaver, Params, Rma. -/

namespace Sys2Proof.Machine

set_option linter.unusedVariables false

/-! ### Handle -/

theorem execHoldInFall_keepsR {s0 s : State}  (hk : Keeps s0 s) : ResKeeps s0 (execHoldInFall s) := by
  unfold execHoldInFall
  have h := peerSilent_keeps (s := { s with pins.holdIn := false }) (hk.upd rfl rfl rfl rfl rfl rfl rfl rfl rfl rfl rfl rfl)
  dsimp only
  generalize peerSilent { s with pins.holdIn := false } = t at h
  refine ResKeeps.ite (fun _ => ResKeeps.next hk) (fun _ => ResKeeps.ite (fun _ => ResKeeps.next ?_) (fun _ => ResKeeps.next ?_))
  · exact h.upd rfl rfl rfl rfl rfl rfl rfl rfl rfl rfl rfl rfl
  · exact hk.upd rfl rfl rfl rfl rfl rfl rfl rfl rfl rfl rfl rfl
theorem execHoldInRise_keepsR {s0 s : State}  (hk : Keeps s0 s) : ResKeeps s0 (execHoldInRise s) := by
  unfold execHoldInRise
  repeat' first
    | with_reducible refine ResKeeps.next ?_
    | with_reducible refine ResKeeps.ite (fun _ => ?_) (fun _ => ?_)
    | with_reducible apply countEvent_keeps
    | with_reducible apply lostAuthority_keeps
    | (with_reducible refine Keeps.lit hk ?_ ?_ ?_ ?_ ?_ ?_ ?_ ?_ ?_ ?_ ?_ <;> rfl)
    | (dsimp only)
theorem execHandleTake_keepsR {s0 s : State}  (hk : Keeps s0 s) : ResKeeps s0 (execHandleTake s) := by
  unfold execHandleTake
  refine alive_keepsR hk ?_
  repeat' first
    | with_reducible refine ResKeeps.next ?_
    | with_reducible refine ResKeeps.ite (fun _ => ?_) (fun _ => ?_)
    | with_reducible apply countEvent_keeps
    | with_reducible apply adoptEpoch_keeps
    | with_reducible apply commitEpoch_keeps
    | with_reducible apply tellPacks_keeps
    | with_reducible apply takeEnds_keeps
    | with_reducible apply beginTake_keeps
    | (with_reducible refine Keeps.lit hk ?_ ?_ ?_ ?_ ?_ ?_ ?_ ?_ ?_ ?_ ?_ <;> rfl)
theorem execHolderStuck_keepsR {s0 s : State}  (hk : Keeps s0 s) : ResKeeps s0 (execHolderStuck s) := by
  unfold execHolderStuck
  refine alive_keepsR hk ?_
  repeat' first
    | with_reducible apply takeEnds_keeps
    | with_reducible refine Keeps.ite (fun _ => ?_) (fun _ => ?_)
    | with_reducible assumption
    | with_reducible refine ResKeeps.next ?_
    | with_reducible refine ResKeeps.ite (fun _ => ?_) (fun _ => ?_)
    | with_reducible apply beginTake_keeps
    | with_reducible apply peerSilent_keeps
theorem execPeerSilent_keepsR {s0 s : State}  (hk : Keeps s0 s) : ResKeeps s0 (execPeerSilent s) := by
  unfold execPeerSilent
  refine alive_keepsR hk ?_
  repeat' first
    | with_reducible assumption
    | with_reducible refine ResKeeps.next ?_
    | with_reducible refine ResKeeps.ite (fun _ => ?_) (fun _ => ?_)
    | with_reducible apply beginTake_keeps
    | with_reducible apply peerSilent_keeps
theorem execPeerSevered_keepsR {s0 s : State} (hk : Keeps s0 s) : ResKeeps s0 (execPeerSevered s) := by
  unfold execPeerSevered
  refine alive_keepsR hk ?_
  split
  · exact ResKeeps.next hk
  · exact ResKeeps.next (mirrorLoss_keeps (updateMembers_keeps (endPairing_keeps _ (countEvent_keeps _ _ hk)
      (fun s h => h.upd rfl rfl rfl rfl rfl rfl rfl rfl rfl rfl rfl rfl))))
theorem execPeerStuckClear_keepsR {s0 s : State}  (hk : Keeps s0 s) : ResKeeps s0 (execPeerStuckClear s) := by
  unfold execPeerStuckClear
  refine alive_keepsR hk ?_
  repeat' first
    | with_reducible refine ResKeeps.next ?_
    | with_reducible refine ResKeeps.ite (fun _ => ?_) (fun _ => ?_)
    | (with_reducible refine Keeps.lit hk ?_ ?_ ?_ ?_ ?_ ?_ ?_ ?_ ?_ ?_ ?_ <;> rfl)
theorem execOutputReadbackMismatch_keepsR {s0 s : State}  (hk : Keeps s0 s) : ResKeeps s0 (execOutputReadbackMismatch s) := by
  unfold execOutputReadbackMismatch
  refine fast_keepsR hk ?_
  repeat' first
    | with_reducible refine ResKeeps.next ?_
    | with_reducible refine ResKeeps.ite (fun _ => ?_) (fun _ => ?_)
    | with_reducible apply countEvent_keeps
    | with_reducible apply failSilent_keeps
    | (with_reducible refine Keeps.lit hk ?_ ?_ ?_ ?_ ?_ ?_ ?_ ?_ ?_ ?_ ?_ <;> rfl)
theorem execBeatInEdge_keepsR {s0 s : State}  (hk : Keeps s0 s) : ResKeeps s0 (execBeatInEdge s) := by
  unfold execBeatInEdge
  refine alive_keepsR hk ?_
  repeat' first
    | with_reducible refine ResKeeps.next ?_
    | (with_reducible refine Keeps.lit hk ?_ ?_ ?_ ?_ ?_ ?_ ?_ ?_ ?_ ?_ ?_ <;> rfl)
theorem execBeatOutEdge_keepsR {s0 s : State}  (hk : Keeps s0 s) : ResKeeps s0 (execBeatOutEdge s) := by
  unfold execBeatOutEdge
  refine fast_keepsR hk ?_
  repeat' first
    | with_reducible apply lostAuthority_keeps
    | with_reducible refine ResKeeps.next ?_
    | with_reducible refine ResKeeps.ite (fun _ => ?_) (fun _ => ?_)
    | (with_reducible refine Keeps.lit hk ?_ ?_ ?_ ?_ ?_ ?_ ?_ ?_ ?_ ?_ ?_ <;> rfl)
theorem execFencePortResponse_keepsR {s0 s : State} (port : Nat) (tag : Nat) (status : Nat) (_value : Nat) (hk : Keeps s0 s) : ResKeeps s0 (execFencePortResponse port tag status _value s) := by
  unfold execFencePortResponse
  refine alive_keepsR hk ?_
  repeat' first
    | with_reducible assumption
    | with_reducible apply onResponse_keepsR
    | with_reducible apply fenceReply_keeps
    | (intro _)
theorem execSetEpochResponse_keepsR {s0 s : State} (port : Nat) (tag : Nat) (status : Nat) (_value : Nat) (hk : Keeps s0 s) : ResKeeps s0 (execSetEpochResponse port tag status _value s) := by
  unfold execSetEpochResponse
  refine alive_keepsR hk ?_
  repeat' first
    | with_reducible assumption
    | with_reducible apply onResponse_keepsR
    | with_reducible apply setEpochReply_keeps
    | (intro _)
theorem execPeerReplayEnd_keepsR {s0 s : State}  (hk : Keeps s0 s) : ResKeeps s0 (execPeerReplayEnd s) := by
  unfold execPeerReplayEnd
  refine alive_keepsR hk ?_
  repeat' first
    | with_reducible refine ResKeeps.next ?_
    | with_reducible refine ResKeeps.ite (fun _ => ?_) (fun _ => ?_)
    | with_reducible apply withAccess_keeps
    | with_reducible apply eraseBand_keeps
    | with_reducible apply closePeerSegment_keeps
    | with_reducible refine Keeps.foldl _ (fun s a h => ?_) ?_
    | (with_reducible refine Keeps.lit (by with_reducible assumption) ?_ ?_ ?_ ?_ ?_ ?_ ?_ ?_ ?_ ?_ ?_ <;> rfl)
    | (intro _)
theorem execHandleEligible_keepsR {s0 s : State} (ring : Nat) (seq : Nat) (hk : Keeps s0 s) : ResKeeps s0 (execHandleEligible ring seq s) := by
  unfold execHandleEligible
  refine fast_keepsR hk ?_
  repeat' first
    | with_reducible assumption
    | with_reducible apply auditedOp_keepsR
theorem execHandleTransfer_keepsR {s0 s : State} (ring : Nat) (seq : Nat) (hk : Keeps s0 s) : ResKeeps s0 (execHandleTransfer ring seq s) := by
  unfold execHandleTransfer
  refine fast_keepsR hk ?_
  repeat' first
    | with_reducible assumption
    | with_reducible refine ResKeeps.next ?_
    | with_reducible apply carryOr_keepsR
    | with_reducible refine ResKeeps.ite (fun _ => ?_) (fun _ => ?_)
    | with_reducible apply takeDecision_keeps
    | (intro _)
    | split
theorem execHandoff_keepsR {s0 s : State} (asn : Nat) (digest : List Byte) (hk : Keeps s0 s) : ResKeeps s0 (execHandoff asn digest s) := by
  unfold execHandoff
  refine alive_keepsR hk ?_
  repeat' first
    | with_reducible refine ResKeeps.next ?_
    | with_reducible apply fromPeer_keepsR
    | with_reducible refine ResKeeps.ite (fun _ => ?_) (fun _ => ?_)
    | with_reducible apply respondPeer_keeps
    | (with_reducible refine Keeps.lit (by with_reducible assumption) ?_ ?_ ?_ ?_ ?_ ?_ ?_ ?_ ?_ ?_ ?_ <;> rfl)
    | (intro _)
theorem execHandleTransferEnd_keepsR {s0 s : State}  (hk : Keeps s0 s) : ResKeeps s0 (execHandleTransferEnd s) := by
  unfold execHandleTransferEnd
  refine alive_keepsR hk ?_
  repeat' first
    | with_reducible refine ResKeeps.next ?_
    | with_reducible apply endTwoPart_keeps
    | (with_reducible refine Keeps.lit hk ?_ ?_ ?_ ?_ ?_ ?_ ?_ ?_ ?_ ?_ ?_ <;> rfl)
    | split

/-! ### Layout -/

theorem execStripAdd_keepsR {s0 s : State} (seg : Nat) (bundles : List Nat) (mismatch : Bool) (hk : Keeps s0 s) :
    ResKeeps s0 (execStripAdd seg bundles mismatch s) := by
  unfold execStripAdd
  refine engine_keepsR hk ?_
  split
  · exact ResKeeps.next hk
  · split
    · exact ResKeeps.next hk
    · rename_i t ht
      rw [Option.bind_eq_some_iff] at ht
      obtain ⟨x, hx, ht⟩ := ht
      split
      · exact ResKeeps.next (failSilent_keeps _ _ (countEvent_keeps _ _ (hk.upd rfl rfl rfl rfl rfl rfl rfl rfl rfl rfl rfl rfl)))
      · exact ResKeeps.next (addStrip_keeps seg bundles (readySegment_keeps seg hk hx) ht)
theorem execSegmentSeal_keepsR {s0 s : State} (seg : Nat) (early : Bool) (crcOk : Bool) (hk : Keeps s0 s) : ResKeeps s0 (execSegmentSeal seg early crcOk s) := by
  unfold execSegmentSeal
  refine engine_keepsR hk ?_
  repeat' first
    | with_reducible assumption
    | with_reducible refine ResKeeps.next ?_
    | with_reducible apply countEvent_keeps
    | with_reducible apply failSilent_keeps
    | with_reducible apply sealSegment_keeps
    | split
theorem execSealAgeTimeout_keepsR {s0 s : State} (seg : Nat) (hk : Keeps s0 s) : ResKeeps s0 (execSealAgeTimeout seg s) := by
  unfold execSealAgeTimeout
  refine engine_keepsR hk ?_
  repeat' first
    | with_reducible assumption
    | with_reducible refine ResKeeps.next ?_
    | with_reducible apply sealSegment_keeps
    | split
theorem execPackAdmit_keepsR {s0 s : State} (ring : Nat) (seq : Nat) (hk : Keeps s0 s) : ResKeeps s0 (execPackAdmit ring seq s) := by
  unfold execPackAdmit
  refine fast_keepsR hk ?_
  repeat' first
    | with_reducible assumption
    | with_reducible apply coilOp_keepsR
theorem execPackRetire_keepsR {s0 s : State} (ring : Nat) (seq : Nat) (hk : Keeps s0 s) : ResKeeps s0 (execPackRetire ring seq s) := by
  unfold execPackRetire
  refine fast_keepsR hk ?_
  repeat' first
    | with_reducible assumption
    | with_reducible apply coilOp_keepsR
theorem execLayoutChange_keepsR {s0 s : State} (ring : Nat) (seq : Nat) (hk : Keeps s0 s) : ResKeeps s0 (execLayoutChange ring seq s) := by
  unfold execLayoutChange
  refine fast_keepsR hk ?_
  repeat' first
    | with_reducible assumption
    | with_reducible apply coilOp_keepsR
theorem execLayoutChangeEnd_keepsR {s0 s : State}  (hk : Keeps s0 s) : ResKeeps s0 (execLayoutChangeEnd s) := by
  unfold execLayoutChangeEnd
  refine engine_keepsR hk ?_
  repeat' first
    | with_reducible refine ResKeeps.next ?_
    | with_reducible apply authority_keeps
    | (with_reducible refine Keeps.lit hk ?_ ?_ ?_ ?_ ?_ ?_ ?_ ?_ ?_ ?_ ?_ <;> rfl)
    | split
theorem execLayoutReverseEnd_keepsR {s0 s : State}  (hk : Keeps s0 s) : ResKeeps s0 (execLayoutReverseEnd s) := by
  unfold execLayoutReverseEnd
  refine engine_keepsR hk ?_
  repeat' first
    | with_reducible assumption
    | with_reducible refine ResKeeps.next ?_
    | with_reducible apply authority_keeps
    | split

/-! ### MapCache -/

theorem coreDenied_keepsR {s0 s : State} {r : Result} (write : Bool) (addr n : Nat) (hk : Keeps s0 s) (hr : ResKeeps s0 r) :
    ResKeeps s0 (coreDenied write addr n s r) :=
  ResKeeps.ite (fun _ => hr) (fun _ => ResKeeps.next (emit_keeps _ (deniedHam_keeps _ _ _ hk)))
theorem execMapCacheRead_keepsR {s0 s : State} (addr : Nat) (hk : Keeps s0 s) : ResKeeps s0 (execMapCacheRead addr s) := by
  unfold execMapCacheRead
  refine engine_keepsR hk (coreDenied_keepsR _ _ _ hk ?_)
  repeat' first
    | with_reducible refine ResKeeps.next ?_
    | with_reducible apply deliverWord_keeps
    | (with_reducible refine Keeps.lit hk ?_ ?_ ?_ ?_ ?_ ?_ ?_ ?_ ?_ ?_ ?_ <;> rfl)
    | (dsimp only)
    | split
theorem execMapCacheFillDone_keepsR {s0 s : State} (addr : Nat) (hk : Keeps s0 s) : ResKeeps s0 (execMapCacheFillDone addr s) := by
  unfold execMapCacheFillDone
  refine engine_keepsR hk ?_
  repeat' first
    | with_reducible assumption
    | with_reducible refine ResKeeps.next ?_
    | with_reducible apply deliverWord_keeps
    | with_reducible apply placeLine_keeps
    | (with_reducible refine Keeps.lit hk ?_ ?_ ?_ ?_ ?_ ?_ ?_ ?_ ?_ ?_ ?_ <;> rfl)
    | (with_reducible refine Keeps.lit (Keeps.foldl _ (fun s a h => ?_) ?_) ?_ ?_ ?_ ?_ ?_ ?_ ?_ ?_ ?_ ?_ ?_ <;> try rfl)
    | (dsimp only)
    | split
theorem execMapCacheWrite_keepsR {s0 s : State} (addr : Nat) (bytes : List Byte) (hk : Keeps s0 s) : ResKeeps s0 (execMapCacheWrite addr bytes s) := by
  unfold execMapCacheWrite
  refine engine_keepsR hk (coreDenied_keepsR _ _ _ hk ?_)
  have h : Keeps s0 (if s.mch.wt.length < 64 then s else drainOne s) := Keeps.ite (fun _ => hk) (fun _ => drainOne_keeps hk)
  dsimp only
  generalize (if s.mch.wt.length < 64 then s else drainOne s) = t at h
  exact ResKeeps.next (h.upd rfl rfl rfl rfl rfl rfl rfl rfl rfl rfl rfl rfl)
theorem execMchPreloadCtrlWrite_keepsR {s0 s : State} (addr : Nat) (value : Word) (hk : Keeps s0 s) : ResKeeps s0 (execMchPreloadCtrlWrite addr value s) := by
  unfold execMchPreloadCtrlWrite
  refine fast_keepsR hk ?_
  repeat' first
    | with_reducible assumption
    | with_reducible refine ResKeeps.next ?_
    | with_reducible refine ResKeeps.ite (fun _ => ?_) (fun _ => ?_)
    | with_reducible apply preloadLine_keeps
    | with_reducible refine Keeps.foldl _ (fun s a h => ?_) ?_
    | (with_reducible refine Keeps.lit hk ?_ ?_ ?_ ?_ ?_ ?_ ?_ ?_ ?_ ?_ ?_ <;> rfl)
    | (dsimp only)
theorem execMchWayLockWrite_keepsR {s0 s : State} (mask : Nat) (hk : Keeps s0 s) : ResKeeps s0 (execMchWayLockWrite mask s) := by
  unfold execMchWayLockWrite
  refine fast_keepsR hk ?_
  repeat' first
    | with_reducible refine ResKeeps.next ?_
    | with_reducible refine ResKeeps.ite (fun _ => ?_) (fun _ => ?_)
    | (with_reducible refine Keeps.lit hk ?_ ?_ ?_ ?_ ?_ ?_ ?_ ?_ ?_ ?_ ?_ <;> rfl)
theorem execInvAll_keepsR {s0 s : State}  (hk : Keeps s0 s) : ResKeeps s0 (execInvAll s) := by
  unfold execInvAll
  refine fast_keepsR hk ?_
  repeat' first
    | with_reducible assumption
    | with_reducible refine ResKeeps.next ?_
    | with_reducible apply invAll_keeps
theorem execMapLookasideInsert_keepsR {s0 s : State} (kind : Nat) (object : Nat) (page : Nat) (frame : Nat) (pinned : Bool) (hk : Keeps s0 s) : ResKeeps s0 (execMapLookasideInsert kind object page frame pinned s) := by
  unfold execMapLookasideInsert
  refine engine_keepsR hk ?_
  repeat' first
    | with_reducible refine ResKeeps.next ?_
    | exact ResKeeps.refused _
    | with_reducible refine ResKeeps.ite (fun _ => ?_) (fun _ => ?_)
    | with_reducible apply mlaInsert_keeps
    | (with_reducible refine Keeps.lit hk ?_ ?_ ?_ ?_ ?_ ?_ ?_ ?_ ?_ ?_ ?_ <;> rfl)
theorem execMapLookasideRemove_keepsR {s0 s : State} (kind : Nat) (object : Nat) (page : Nat) (hk : Keeps s0 s) : ResKeeps s0 (execMapLookasideRemove kind object page s) := by
  unfold execMapLookasideRemove
  refine engine_keepsR hk ?_
  repeat' first
    | with_reducible refine ResKeeps.next ?_
    | (with_reducible refine Keeps.lit hk ?_ ?_ ?_ ?_ ?_ ?_ ?_ ?_ ?_ ?_ ?_ <;> rfl)
theorem execMapLookasideLookup_keepsR {s0 s : State} (kind : Nat) (object : Nat) (page : Nat) (hk : Keeps s0 s) : ResKeeps s0 (execMapLookasideLookup kind object page s) := by
  unfold execMapLookasideLookup
  refine engine_keepsR hk ?_
  repeat' first
    | with_reducible refine ResKeeps.next ?_
    | with_reducible apply emit_keeps
    | with_reducible apply drewFree_keeps
    | with_reducible apply rimPost_keeps
    | (with_reducible refine Keeps.lit hk ?_ ?_ ?_ ?_ ?_ ?_ ?_ ?_ ?_ ?_ ?_ <;> rfl)
    | (dsimp only)
    | split

/-! ### Media -/

theorem execGcBatchStart_keepsR {s0 s : State} (victims : List Nat) (hk : Keeps s0 s) : ResKeeps s0 (execGcBatchStart victims s) := by
  unfold execGcBatchStart
  refine engine_keepsR hk ?_
  repeat' first
    | with_reducible assumption
    | with_reducible refine ResKeeps.next ?_
    | with_reducible refine ResKeeps.ite (fun _ => ?_) (fun _ => ?_)
    | with_reducible apply sealVictim_keeps
    | with_reducible refine Keeps.foldl _ (fun s a h => ?_) ?_
    | (with_reducible refine Keeps.lit hk ?_ ?_ ?_ ?_ ?_ ?_ ?_ ?_ ?_ ?_ ?_ <;> rfl)
theorem execGcCopyDone_keepsR {s0 s : State}  (hk : Keeps s0 s) : ResKeeps s0 (execGcCopyDone s) := by
  unfold execGcCopyDone
  refine engine_keepsR hk ?_
  repeat' first
    | with_reducible assumption
    | with_reducible refine ResKeeps.next ?_
    | with_reducible apply sealEarlyWhere_keeps
    | with_reducible apply chargeMove_keeps
    | with_reducible refine Keeps.foldl _ (fun s a h => ?_) ?_
    | (with_reducible refine Keeps.lit hk ?_ ?_ ?_ ?_ ?_ ?_ ?_ ?_ ?_ ?_ ?_ <;> rfl)
    | split
theorem execGcMapCommit_keepsR {s0 s : State}  (hk : Keeps s0 s) : ResKeeps s0 (execGcMapCommit s) := by
  unfold execGcMapCommit
  refine engine_keepsR hk ?_
  repeat' first
    | with_reducible assumption
    | with_reducible refine ResKeeps.next ?_
    | with_reducible refine ResKeeps.ite (fun _ => ?_) (fun _ => ?_)
    | with_reducible apply appendOp_keeps
    | split
theorem execGcErasePending_keepsR {s0 s : State}  (hk : Keeps s0 s) : ResKeeps s0 (execGcErasePending s) := by
  unfold execGcErasePending
  refine engine_keepsR hk ?_
  repeat' first
    | with_reducible assumption
    | with_reducible refine ResKeeps.next ?_
    | with_reducible apply appendRecord_keeps
    | (with_reducible refine Keeps.lit (Keeps.foldl _ (fun s a h => ?_) ?_) ?_ ?_ ?_ ?_ ?_ ?_ ?_ ?_ ?_ ?_ ?_ <;> try rfl)
    | split
theorem execBandFree_keepsR {s0 s : State} (band : Nat) (hk : Keeps s0 s) : ResKeeps s0 (execBandFree band s) := by
  unfold execBandFree
  refine engine_keepsR hk ?_
  repeat' first
    | with_reducible assumption
    | with_reducible refine ResKeeps.next ?_
    | with_reducible apply appendRecord_keeps
    | with_reducible apply updBand_keeps
    | with_reducible apply discardEnd_keeps
    | with_reducible apply newCycle_keeps
    | with_reducible refine Keeps.foldl _ (fun s a h => ?_) ?_
    | (with_reducible refine Keeps.lit (updDiscard_keeps _ ?_) ?_ ?_ ?_ ?_ ?_ ?_ ?_ ?_ ?_ ?_ ?_ <;> try rfl)
    | (with_reducible refine Keeps.lit (countUnreachable_keeps _ ?_) ?_ ?_ ?_ ?_ ?_ ?_ ?_ ?_ ?_ ?_ ?_ <;> try rfl)
    | split
theorem execPatrolRead_keepsR {s0 s : State}  (hk : Keeps s0 s) : ResKeeps s0 (execPatrolRead s) := by
  unfold execPatrolRead
  refine engine_keepsR hk ?_
  refine ResKeeps.ite (fun _ => ResKeeps.next hk) (fun _ => ?_)
  split
  · exact ResKeeps.next (readStrip_keeps _ _ _ _ (hk.upd rfl rfl rfl rfl rfl rfl rfl rfl rfl rfl rfl rfl))
  · exact ResKeeps.next (patrolNext_keeps hk)
theorem execPatrolOverrun_keepsR {s0 s : State}  (hk : Keeps s0 s) : ResKeeps s0 (execPatrolOverrun s) := by
  unfold execPatrolOverrun
  refine alive_keepsR hk ?_
  repeat' first
    | with_reducible refine ResKeeps.next ?_
    | with_reducible refine ResKeeps.ite (fun _ => ?_) (fun _ => ?_)
    | with_reducible apply countEvent_keeps
    | (with_reducible refine Keeps.lit hk ?_ ?_ ?_ ?_ ?_ ?_ ?_ ?_ ?_ ?_ ?_ <;> rfl)
theorem execPatrolProgressSave_keepsR {s0 s : State}  (hk : Keeps s0 s) : ResKeeps s0 (execPatrolProgressSave s) := by
  unfold execPatrolProgressSave
  refine engine_keepsR hk ?_
  repeat' first
    | with_reducible refine ResKeeps.next ?_
    | with_reducible refine ResKeeps.ite (fun _ => ?_) (fun _ => ?_)
    | with_reducible apply wearCoil_keeps
    | (with_reducible refine Keeps.lit hk ?_ ?_ ?_ ?_ ?_ ?_ ?_ ?_ ?_ ?_ ?_ <;> rfl)
theorem execReadDisturbVerify_keepsR {s0 s : State} (port : Nat) (block : Nat) (hk : Keeps s0 s) : ResKeeps s0 (execReadDisturbVerify port block s) := by
  unfold execReadDisturbVerify
  refine engine_keepsR hk ?_
  repeat' first
    | with_reducible assumption
    | with_reducible refine ResKeeps.next ?_
    | with_reducible refine ResKeeps.ite (fun _ => ?_) (fun _ => ?_)
    | with_reducible apply countEvent_keeps
    | with_reducible apply setReads_keeps
    | with_reducible apply readStrip_keeps
    | (with_reducible refine Keeps.lit (Keeps.foldl _ (fun s a h => ?_) ?_) ?_ ?_ ?_ ?_ ?_ ?_ ?_ ?_ ?_ ?_ ?_ <;> try rfl)
    | split
theorem execWearSpreadTimeout_keepsR {s0 s : State}  (hk : Keeps s0 s) : ResKeeps s0 (execWearSpreadTimeout s) := by
  unfold execWearSpreadTimeout
  refine alive_keepsR hk ?_
  repeat' first
    | with_reducible refine ResKeeps.next ?_
    | with_reducible refine ResKeeps.ite (fun _ => ?_) (fun _ => ?_)
    | with_reducible apply countEvent_keeps
    | (with_reducible refine Keeps.lit hk ?_ ?_ ?_ ?_ ?_ ?_ ?_ ?_ ?_ ?_ ?_ <;> rfl)
theorem execPackTempSample_keepsR {s0 s : State}  (hk : Keeps s0 s) : ResKeeps s0 (execPackTempSample s) := by
  unfold execPackTempSample
  refine alive_keepsR hk ?_
  repeat' first
    | with_reducible assumption
    | with_reducible refine ResKeeps.next ?_
    | with_reducible apply sendReq_keeps
    | with_reducible refine Keeps.foldl _ (fun s a h => ?_) ?_
theorem execSecureDiscard_keepsR {s0 s : State} (ring : Nat) (seq : Nat) (hk : Keeps s0 s) : ResKeeps s0 (execSecureDiscard ring seq s) := by
  unfold execSecureDiscard
  refine fast_keepsR hk ?_
  repeat' first
    | with_reducible assumption
    | with_reducible apply coilOp_keepsR
theorem execMediaHealth_keepsR {s0 s : State} (ring : Nat) (seq : Nat) (hk : Keeps s0 s) : ResKeeps s0 (execMediaHealth ring seq s) := by
  unfold execMediaHealth
  refine fast_keepsR hk ?_
  repeat' first
    | with_reducible assumption
    | with_reducible apply plainOp_keepsR
    | (intro _)

/-! ### Thermal -/

theorem execThermalSensorSample_keepsR {s0 s : State} (readings : List Int) (hk : Keeps s0 s) : ResKeeps s0 (execThermalSensorSample readings s) := by
  unfold execThermalSensorSample
  repeat' first
    | with_reducible assumption
    | with_reducible refine ResKeeps.next ?_
    | with_reducible refine ResKeeps.ite (fun _ => ?_) (fun _ => ?_)
    | with_reducible apply takeSamples_keeps
    | with_reducible apply fastSampling_keeps
    | with_reducible apply tripCheck_keeps
    | with_reducible apply coverageCheck_keeps
theorem execFastSamplingExit_keepsR {s0 s : State}  (hk : Keeps s0 s) : ResKeeps s0 (execFastSamplingExit s) := by
  unfold execFastSamplingExit
  repeat' first
    | with_reducible refine ResKeeps.next ?_
    | with_reducible refine ResKeeps.ite (fun _ => ?_) (fun _ => ?_)
    | (with_reducible refine Keeps.lit hk ?_ ?_ ?_ ?_ ?_ ?_ ?_ ?_ ?_ ?_ ?_ <;> rfl)
theorem execThermStatus_keepsR {s0 s : State} (ring : Nat) (seq : Nat) (hk : Keeps s0 s) : ResKeeps s0 (execThermStatus ring seq s) := by
  unfold execThermStatus
  refine fast_keepsR hk ?_
  repeat' first
    | with_reducible assumption
    | with_reducible apply plainOp_keepsR
    | with_reducible apply drewFree_keeps
    | (intro _)
theorem execWatchdogKick_keepsR {s0 s : State} (core : Nat) (hk : Keeps s0 s) : ResKeeps s0 (execWatchdogKick core s) := by
  unfold execWatchdogKick
  refine fast_keepsR hk ?_
  repeat' first
    | with_reducible refine ResKeeps.next ?_
    | (with_reducible refine Keeps.lit hk ?_ ?_ ?_ ?_ ?_ ?_ ?_ ?_ ?_ ?_ ?_ <;> rfl)
theorem execWatchdogExpiry_keepsR {s0 s : State} (core : Nat) (hk : Keeps s0 s) : ResKeeps s0 (execWatchdogExpiry core s) := by
  unfold execWatchdogExpiry
  refine fast_keepsR hk ?_
  repeat' first
    | with_reducible assumption
    | with_reducible refine ResKeeps.next ?_
    | with_reducible refine ResKeeps.ite (fun _ => ?_) (fun _ => ?_)
    | with_reducible apply watchdogFires_keeps
theorem execWatchdogParkWrite_keepsR {s0 s : State} (core : Nat) (park : Bool) (hk : Keeps s0 s) : ResKeeps s0 (execWatchdogParkWrite core park s) := by
  unfold execWatchdogParkWrite
  refine fast_keepsR hk ?_
  repeat' first
    | with_reducible refine ResKeeps.next ?_
    | with_reducible refine ResKeeps.ite (fun _ => ?_) (fun _ => ?_)
    | (with_reducible refine Keeps.lit hk ?_ ?_ ?_ ?_ ?_ ?_ ?_ ?_ ?_ ?_ ?_ <;> rfl)
theorem execParkedCoreExecutes_keepsR {s0 s : State} (core : Nat) (hk : Keeps s0 s) : ResKeeps s0 (execParkedCoreExecutes core s) := by
  unfold execParkedCoreExecutes
  refine fast_keepsR hk ?_
  repeat' first
    | with_reducible assumption
    | with_reducible refine ResKeeps.next ?_
    | with_reducible refine ResKeeps.ite (fun _ => ?_) (fun _ => ?_)
    | with_reducible apply watchdogFires_keeps
theorem execConfigScrubPass_keepsR {s0 s : State} (mismatch : Bool) (hk : Keeps s0 s) : ResKeeps s0 (execConfigScrubPass mismatch s) := by
  unfold execConfigScrubPass
  refine fast_keepsR hk ?_
  repeat' first
    | with_reducible refine ResKeeps.next ?_
    | with_reducible refine ResKeeps.ite (fun _ => ?_) (fun _ => ?_)
    | with_reducible apply failSilent_keeps
    | (with_reducible refine Keeps.lit hk ?_ ?_ ?_ ?_ ?_ ?_ ?_ ?_ ?_ ?_ ?_ <;> rfl)
theorem execHamperScrubRead_keepsR {s0 s : State} (line : Nat) (symbols : Nat) (hk : Keeps s0 s) : ResKeeps s0 (execHamperScrubRead line symbols s) := by
  unfold execHamperScrubRead
  refine fast_keepsR hk ?_
  repeat' first
    | with_reducible refine ResKeeps.next ?_
    | with_reducible refine ResKeeps.ite (fun _ => ?_) (fun _ => ?_)
    | with_reducible apply countEvent_keeps
    | with_reducible apply failSilent_keeps
    | (with_reducible refine Keeps.lit hk ?_ ?_ ?_ ?_ ?_ ?_ ?_ ?_ ?_ ?_ ?_ <;> rfl)
    | (with_reducible refine Keeps.lit (Keeps.ite (fun _ => ?_) (fun _ => ?_)) ?_ ?_ ?_ ?_ ?_ ?_ ?_ ?_ ?_ ?_ ?_ <;> try rfl)
theorem execFailSilentDecision_keepsR {s0 s : State} (cls : Nat) (code : Nat) (hk : Keeps s0 s) : ResKeeps s0 (execFailSilentDecision cls code s) := by
  unfold execFailSilentDecision
  refine fast_keepsR hk ?_
  repeat' first
    | with_reducible assumption
    | with_reducible refine ResKeeps.next ?_
    | with_reducible refine ResKeeps.ite (fun _ => ?_) (fun _ => ?_)
    | with_reducible apply failSilent_keeps
theorem execSelftest_keepsR {s0 s : State} (ring : Nat) (seq : Nat) (hk : Keeps s0 s) : ResKeeps s0 (execSelftest ring seq s) := by
  unfold execSelftest
  refine fast_keepsR hk ?_
  repeat' first
    | with_reducible refine ResKeeps.next ?_
    | with_reducible apply auditedOp_keepsR
    | with_reducible apply markTaken_keeps
    | (with_reducible refine Keeps.lit hk ?_ ?_ ?_ ?_ ?_ ?_ ?_ ?_ ?_ ?_ ?_ <;> rfl)
    | split
theorem execSelftestComplete_keepsR {s0 s : State} (tiles : List Nat) (monitors : Nat) (sensors : Nat) (hk : Keeps s0 s) : ResKeeps s0 (execSelftestComplete tiles monitors sensors s) := by
  unfold execSelftestComplete
  refine fast_keepsR hk ?_
  repeat' first
    | with_reducible refine ResKeeps.next ?_
    | (with_reducible refine Keeps.lit hk ?_ ?_ ?_ ?_ ?_ ?_ ?_ ?_ ?_ ?_ ?_ <;> rfl)
    | split

/-! ### Weaver -/

theorem execSensorStale_keepsR {s0 s : State} (loop : Nat) (hk : Keeps s0 s) : ResKeeps s0 (execSensorStale loop s) := by
  unfold execSensorStale
  refine alive_keepsR hk ?_
  repeat' first
    | with_reducible assumption
    | with_reducible refine ResKeeps.next ?_
    | with_reducible refine ResKeeps.ite (fun _ => ?_) (fun _ => ?_)
    | with_reducible apply beginStale_keeps
theorem execSensorSampleArrival_keepsR {s0 s : State} (code : Nat) (inst : Nat) (value : Int) (hk : Keeps s0 s) : ResKeeps s0 (execSensorSampleArrival code inst value s) := by
  unfold execSensorSampleArrival
  refine alive_keepsR hk ?_
  repeat' first
    | with_reducible refine ResKeeps.next ?_
    | with_reducible refine ResKeeps.ite (fun _ => ?_) (fun _ => ?_)
    | (with_reducible refine Keeps.lit hk ?_ ?_ ?_ ?_ ?_ ?_ ?_ ?_ ?_ ?_ ?_ <;> rfl)
theorem execCaptureTrigger_keepsR {s0 s : State}  (hk : Keeps s0 s) : ResKeeps s0 (execCaptureTrigger s) := by
  unfold execCaptureTrigger
  refine alive_keepsR hk ?_
  repeat' first
    | with_reducible assumption
    | with_reducible refine ResKeeps.next ?_
    | with_reducible apply startCapture_keeps
theorem execLoopTick_keepsR {s0 s : State}  (hk : Keeps s0 s) : ResKeeps s0 (execLoopTick s) := by
  unfold execLoopTick
  refine alive_keepsR hk ?_
  repeat' first
    | with_reducible assumption
    | with_reducible refine ResKeeps.next ?_
    | with_reducible apply runLoops_keeps
    | with_reducible refine Keeps.ite (fun _ => ?_) (fun _ => ?_)
    | (with_reducible refine Keeps.lit (throttleTick_keeps ?_) ?_ ?_ ?_ ?_ ?_ ?_ ?_ ?_ ?_ ?_ ?_ <;> try rfl)
theorem execWvmStart_keepsR {s0 s : State}  (hk : Keeps s0 s) : ResKeeps s0 (execWvmStart s) := by
  unfold execWvmStart
  refine alive_keepsR hk ?_
  repeat' first
    | with_reducible refine ResKeeps.next ?_
    | with_reducible refine ResKeeps.ite (fun _ => ?_) (fun _ => ?_)
    | (with_reducible refine Keeps.lit hk ?_ ?_ ?_ ?_ ?_ ?_ ?_ ?_ ?_ ?_ ?_ <;> rfl)
theorem execInjectionEnd_keepsR {s0 s : State} (loop : Nat) (hk : Keeps s0 s) : ResKeeps s0 (execInjectionEnd loop s) := by
  unfold execInjectionEnd
  refine alive_keepsR hk ?_
  repeat' first
    | with_reducible assumption
    | with_reducible refine ResKeeps.next ?_
    | with_reducible apply injectCut_keeps
theorem execWvrInject_keepsR {s0 s : State} (ring : Nat) (seq : Nat) (hk : Keeps s0 s) : ResKeeps s0 (execWvrInject ring seq s) := by
  unfold execWvrInject
  refine fast_keepsR hk ?_
  repeat' first
    | with_reducible assumption
    | with_reducible apply auditedOp_keepsR
theorem execWvrCapture_keepsR {s0 s : State} (ring : Nat) (seq : Nat) (hk : Keeps s0 s) : ResKeeps s0 (execWvrCapture ring seq s) := by
  unfold execWvrCapture
  refine fast_keepsR hk ?_
  repeat' first
    | with_reducible assumption
    | with_reducible apply auditedOp_keepsR

/-! ### Params -/

theorem execGetParam_keepsR {s0 s : State} (ring : Nat) (seq : Nat) (hk : Keeps s0 s) : ResKeeps s0 (execGetParam ring seq s) := by
  unfold execGetParam
  refine fast_keepsR hk ?_
  repeat' first
    | with_reducible assumption
    | with_reducible apply plainOp_keepsR
    | (intro _)
theorem execSetParam_keepsR {s0 s : State} (ring : Nat) (seq : Nat) (hk : Keeps s0 s) : ResKeeps s0 (execSetParam ring seq s) := by
  unfold execSetParam
  refine fast_keepsR hk ?_
  repeat' first
    | with_reducible assumption
    | with_reducible apply auditedOp_keepsR
theorem execSetParams_keepsR {s0 s : State} (ring : Nat) (seq : Nat) (hk : Keeps s0 s) : ResKeeps s0 (execSetParams ring seq s) := by
  unfold execSetParams
  refine fast_keepsR hk ?_
  repeat' first
    | with_reducible assumption
    | with_reducible apply auditedOp_keepsR

/-! ### Rma -/

theorem execSend_keepsR {s0 s : State} (conn : Nat) (bth : Bth) (length : Nat) (first : Bool) (last : Bool) (bytes : List Byte) (hk : Keeps s0 s) : ResKeeps s0 (execSend conn bth length first last bytes s) := by
  unfold execSend
  repeat' first
    | with_reducible assumption
    | with_reducible refine ResKeeps.next ?_
    | with_reducible refine wire_keepsR hk ?_
    | with_reducible apply marked_keeps
    | with_reducible apply arrive_keeps
theorem execRdmaWrite_keepsR {s0 s : State} (conn : Nat) (bth : Bth) (rkey : Nat) (va : Nat) (dmaLen : Nat) (first : Bool) (last : Bool) (mpeth : Option Mpeth) (bytes : List Byte) (hk : Keeps s0 s) : ResKeeps s0 (execRdmaWrite conn bth rkey va dmaLen first last mpeth bytes s) := by
  unfold execRdmaWrite
  repeat' first
    | with_reducible assumption
    | with_reducible refine ResKeeps.next ?_
    | with_reducible refine wire_keepsR hk ?_
    | with_reducible apply marked_keeps
    | with_reducible apply arrive_keeps
theorem execRdmaReadRequest_keepsR {s0 s : State} (conn : Nat) (bth : Bth) (rkey : Nat) (va : Nat) (dmaLen : Nat) (hk : Keeps s0 s) : ResKeeps s0 (execRdmaReadRequest conn bth rkey va dmaLen s) := by
  unfold execRdmaReadRequest
  repeat' first
    | with_reducible assumption
    | with_reducible refine ResKeeps.next ?_
    | with_reducible refine wire_keepsR hk ?_
    | with_reducible apply marked_keeps
    | with_reducible apply arrive_keeps
theorem execRdmaReadResponse_keepsR {s0 s : State} (conn : Nat) (bth : Bth) (last : Bool) (bytes : List Byte) (hk : Keeps s0 s) : ResKeeps s0 (execRdmaReadResponse conn bth last bytes s) := by
  unfold execRdmaReadResponse
  repeat' first
    | with_reducible assumption
    | with_reducible refine ResKeeps.next ?_
    | with_reducible refine wire_keepsR hk ?_
    | with_reducible apply marked_keeps
    | with_reducible apply arrive_keeps
theorem execAcknowledge_keepsR {s0 s : State} (conn : Nat) (bth : Bth) (credits : Nat) (hk : Keeps s0 s) : ResKeeps s0 (execAcknowledge conn bth credits s) := by
  unfold execAcknowledge
  repeat' first
    | with_reducible assumption
    | with_reducible refine ResKeeps.next ?_
    | with_reducible refine wire_keepsR hk ?_
    | with_reducible apply marked_keeps
    | with_reducible apply arrive_keeps
theorem execAtomicAcknowledge_keepsR {s0 s : State} (conn : Nat) (bth : Bth) (value : Nat) (hk : Keeps s0 s) : ResKeeps s0 (execAtomicAcknowledge conn bth value s) := by
  unfold execAtomicAcknowledge
  repeat' first
    | with_reducible assumption
    | with_reducible refine ResKeeps.next ?_
    | with_reducible refine wire_keepsR hk ?_
    | with_reducible apply marked_keeps
    | with_reducible apply arrive_keeps
theorem execCompareSwap_keepsR {s0 s : State} (conn : Nat) (bth : Bth) (rkey : Nat) (va : Nat) (compare : Nat) (swap : Nat) (hk : Keeps s0 s) : ResKeeps s0 (execCompareSwap conn bth rkey va compare swap s) := by
  unfold execCompareSwap
  repeat' first
    | with_reducible assumption
    | with_reducible refine ResKeeps.next ?_
    | with_reducible refine wire_keepsR hk ?_
    | with_reducible apply marked_keeps
    | with_reducible apply arrive_keeps
theorem execFetchAdd_keepsR {s0 s : State} (conn : Nat) (bth : Bth) (rkey : Nat) (va : Nat) (add : Nat) (hk : Keeps s0 s) : ResKeeps s0 (execFetchAdd conn bth rkey va add s) := by
  unfold execFetchAdd
  repeat' first
    | with_reducible assumption
    | with_reducible refine ResKeeps.next ?_
    | with_reducible refine wire_keepsR hk ?_
    | with_reducible apply marked_keeps
    | with_reducible apply arrive_keeps
theorem execCnp_keepsR {s0 s : State} (conn : Nat) (hk : Keeps s0 s) : ResKeeps s0 (execCnp conn s) := by
  unfold execCnp
  refine wire_keepsR hk ?_
  repeat' first
    | with_reducible assumption
    | with_reducible refine ResKeeps.next ?_
    | with_reducible apply arrive_keeps
theorem execRoceUnsupportedPacket_keepsR {s0 s : State} (conn : Nat) (psn : Nat) (service : Bool) (icrcBad : Bool) (hk : Keeps s0 s) : ResKeeps s0 (execRoceUnsupportedPacket conn psn service icrcBad s) := by
  unfold execRoceUnsupportedPacket
  refine wire_keepsR hk ?_
  repeat' first
    | with_reducible assumption
    | with_reducible refine ResKeeps.next ?_
    | with_reducible refine ResKeeps.ite (fun _ => ?_) (fun _ => ?_)
    | with_reducible apply countEvent_keeps
    | with_reducible apply arrive_keeps
theorem execContextFetchDone_keepsR {s0 s : State} (conn : Nat) (hk : Keeps s0 s) : ResKeeps s0 (execContextFetchDone conn s) := by
  unfold execContextFetchDone
  repeat' first
    | with_reducible assumption
    | with_reducible refine ResKeeps.next ?_
    | with_reducible refine alive_keepsR hk ?_
    | with_reducible refine ResKeeps.ite (fun _ => ?_) (fun _ => ?_)
    | with_reducible apply updConn_keeps
    | with_reducible apply contextReady_keeps
    | exact makeRoom_keeps (by first | with_reducible assumption | exact hk) (by assumption)
    | split
theorem execRetransmitTimeout_keepsR {s0 s : State} (conn : Nat) (hk : Keeps s0 s) : ResKeeps s0 (execRetransmitTimeout conn s) := by
  unfold execRetransmitTimeout
  repeat' first
    | with_reducible assumption
    | with_reducible refine ResKeeps.next ?_
    | with_reducible refine alive_keepsR hk ?_
    | with_reducible refine ResKeeps.ite (fun _ => ?_) (fun _ => ?_)
    | with_reducible apply updConn_keeps
    | with_reducible apply retransmit_keeps
    | split
theorem execCmReq_keepsR {s0 s : State} (sub : Nat) (cls : Nat) (mtu : Nat) (spiIn : Option Nat) (hk : Keeps s0 s) : ResKeeps s0 (execCmReq sub cls mtu spiIn s) := by
  unfold execCmReq
  refine wire_keepsR hk ?_
  repeat' first
    | with_reducible assumption
    | with_reducible refine ResKeeps.next ?_
    | with_reducible refine ResKeeps.ite (fun _ => ?_) (fun _ => ?_)
    | with_reducible apply cmReq_keeps
theorem execTcpSyn_keepsR {s0 s : State} (sub : Nat) (dstPort : Nat) (spiIn : Option Nat) (hk : Keeps s0 s) : ResKeeps s0 (execTcpSyn sub dstPort spiIn s) := by
  unfold execTcpSyn
  refine wire_keepsR hk ?_
  repeat' first
    | with_reducible assumption
    | with_reducible refine ResKeeps.next ?_
    | with_reducible refine ResKeeps.ite (fun _ => ?_) (fun _ => ?_)
    | with_reducible apply tcpSyn_keeps
theorem inState_keepsR {s0 s : State} (conn state : Nat) (ours : Bool) (f : Conn → State → State) (hk : Keeps s0 s)
    (hf : ∀ c s, Keeps s0 s → Keeps s0 (f c s)) : ResKeeps s0 (inState conn state ours f s) := by
  unfold inState
  repeat' split
  · exact ResKeeps.next (countEvent_keeps _ _ hk)
  · exact ResKeeps.next (hf _ _ hk)
  · exact ResKeeps.next hk
  · exact ResKeeps.next hk
theorem execNvmeTcpIcreq_keepsR {s0 s : State} (conn : Nat) (tls : Bool) (hdgst : Bool) (ddgst : Bool) (hk : Keeps s0 s) : ResKeeps s0 (execNvmeTcpIcreq conn tls hdgst ddgst s) := by
  unfold execNvmeTcpIcreq
  repeat' first
    | with_reducible assumption
    | with_reducible refine ResKeeps.next ?_
    | with_reducible refine wire_keepsR hk ?_
    | with_reducible refine ResKeeps.ite (fun _ => ?_) (fun _ => ?_)
    | with_reducible apply countEvent_keeps
    | with_reducible apply updConn_keeps
    | with_reducible apply sealPacket_keeps
    | with_reducible apply tcpSend_keeps
    | with_reducible apply freeConn_keeps
    | split
theorem execCmRep_keepsR {s0 s : State} (conn : Nat) (hk : Keeps s0 s) : ResKeeps s0 (execCmRep conn s) := by
  unfold execCmRep
  repeat' first
    | with_reducible assumption
    | with_reducible refine wire_keepsR hk ?_
    | with_reducible apply inState_keepsR
    | with_reducible apply updConn_keeps
    | with_reducible apply cmSend_keeps
    | with_reducible apply sendAck_keeps
    | (intro _)
theorem execCmRtu_keepsR {s0 s : State} (conn : Nat) (hk : Keeps s0 s) : ResKeeps s0 (execCmRtu conn s) := by
  unfold execCmRtu
  refine wire_keepsR hk ?_
  repeat' first
    | with_reducible assumption
    | with_reducible apply inState_keepsR
    | with_reducible apply updConn_keeps
    | with_reducible apply sendAck_keeps
    | (intro _)
theorem execCmRej_keepsR {s0 s : State} (conn : Nat) (_reason : Nat) (hk : Keeps s0 s) : ResKeeps s0 (execCmRej conn _reason s) := by
  unfold execCmRej
  refine wire_keepsR hk ?_
  repeat' first
    | with_reducible assumption
    | with_reducible apply inState_keepsR
    | with_reducible apply errorConn_keeps
    | (intro _)
theorem execCmDreq_keepsR {s0 s : State} (conn : Nat) (hk : Keeps s0 s) : ResKeeps s0 (execCmDreq conn s) := by
  unfold execCmDreq
  repeat' first
    | with_reducible assumption
    | with_reducible refine ResKeeps.next ?_
    | with_reducible refine wire_keepsR hk ?_
    | with_reducible refine ResKeeps.ite (fun _ => ?_) (fun _ => ?_)
    | with_reducible apply countEvent_keeps
    | with_reducible apply cmSend_keeps
    | with_reducible apply withBridge_keeps
    | with_reducible apply freeConn_keeps
    | (intro _)
    | split
theorem execCmDrep_keepsR {s0 s : State} (_conn : Nat) (hk : Keeps s0 s) : ResKeeps s0 (execCmDrep _conn s) := by
  unfold execCmDrep
  refine wire_keepsR hk ?_
  repeat' first
    | with_reducible assumption
    | with_reducible refine ResKeeps.next ?_
theorem execCmMra_keepsR {s0 s : State} (_conn : Nat) (hk : Keeps s0 s) : ResKeeps s0 (execCmMra _conn s) := by
  unfold execCmMra
  refine wire_keepsR hk ?_
  repeat' first
    | with_reducible assumption
    | with_reducible refine ResKeeps.next ?_
theorem execEspInboundPacket_keepsR {s0 s : State} (spi : Nat) (seqLo : Nat) (icvOk : Bool) (hk : Keeps s0 s) : ResKeeps s0 (execEspInboundPacket spi seqLo icvOk s) := by
  unfold execEspInboundPacket
  refine wire_keepsR hk ?_
  repeat' first
    | with_reducible refine ResKeeps.next ?_
    | with_reducible refine ResKeeps.ite (fun _ => ?_) (fun _ => ?_)
    | with_reducible apply countEvent_keeps
    | with_reducible apply espAccept_keeps
    | (with_reducible refine Keeps.lit hk ?_ ?_ ?_ ?_ ?_ ?_ ?_ ?_ ?_ ?_ ?_ <;> rfl)
    | split
theorem execPendingSaExpiry_keepsR {s0 s : State} (handle : Nat) (hk : Keeps s0 s) : ResKeeps s0 (execPendingSaExpiry handle s) := by
  unfold execPendingSaExpiry
  refine alive_keepsR hk ?_
  repeat' first
    | with_reducible refine ResKeeps.next ?_
    | (with_reducible refine Keeps.lit hk ?_ ?_ ?_ ?_ ?_ ?_ ?_ ?_ ?_ ?_ ?_ <;> rfl)
theorem execOldSaExpiry_keepsR {s0 s : State} (conn : Nat) (hk : Keeps s0 s) : ResKeeps s0 (execOldSaExpiry conn s) := by
  unfold execOldSaExpiry
  refine alive_keepsR hk ?_
  repeat' first
    | with_reducible assumption
    | with_reducible refine ResKeeps.next ?_
    | with_reducible apply updConn_keeps
theorem execKeyInstallSa_keepsR {s0 s : State} (ring : Nat) (seq : Nat) (hk : Keeps s0 s) : ResKeeps s0 (execKeyInstallSa ring seq s) := by
  unfold execKeyInstallSa
  refine fast_keepsR hk ?_
  repeat' first
    | with_reducible assumption
    | with_reducible apply auditedOp_keepsR
theorem execRegionRegister_keepsR {s0 s : State} (ring : Nat) (seq : Nat) (hk : Keeps s0 s) : ResKeeps s0 (execRegionRegister ring seq s) := by
  unfold execRegionRegister
  refine fast_keepsR hk ?_
  repeat' first
    | with_reducible assumption
    | with_reducible apply auditedOp_keepsR
theorem execRegionRevoke_keepsR {s0 s : State} (ring : Nat) (seq : Nat) (hk : Keeps s0 s) : ResKeeps s0 (execRegionRevoke ring seq s) := by
  unfold execRegionRevoke
  refine fast_keepsR hk ?_
  repeat' first
    | with_reducible assumption
    | with_reducible apply auditedOp_keepsR
theorem execRegionRevokeEnd_keepsR {s0 s : State}  (hk : Keeps s0 s) : ResKeeps s0 (execRegionRevokeEnd s) := by
  unfold execRegionRevokeEnd
  refine alive_keepsR hk ?_
  repeat' first
    | with_reducible refine ResKeeps.next ?_
    | with_reducible refine ResKeeps.ite (fun _ => ?_) (fun _ => ?_)
    | with_reducible apply endLongOp_keeps
    | with_reducible apply setRegion_keeps
    | (with_reducible refine Keeps.lit hk ?_ ?_ ?_ ?_ ?_ ?_ ?_ ?_ ?_ ?_ ?_ <;> rfl)
    | split
theorem execConnTeardown_keepsR {s0 s : State} (ring : Nat) (seq : Nat) (hk : Keeps s0 s) : ResKeeps s0 (execConnTeardown ring seq s) := by
  unfold execConnTeardown
  refine fast_keepsR hk ?_
  repeat' first
    | with_reducible assumption
    | with_reducible apply auditedOp_keepsR
theorem execRevokeDrainTimeout_keepsR {s0 s : State} (conn : Nat) (hk : Keeps s0 s) : ResKeeps s0 (execRevokeDrainTimeout conn s) := by
  unfold execRevokeDrainTimeout
  refine alive_keepsR hk ?_
  repeat' first
    | with_reducible assumption
    | with_reducible refine ResKeeps.next ?_
    | with_reducible refine ResKeeps.ite (fun _ => ?_) (fun _ => ?_)
    | with_reducible apply countEvent_keeps
    | with_reducible apply withBridge_keeps
    | with_reducible apply endMsgs_keeps
    | (with_reducible refine Keeps.lit (updConn_keeps _ _ ?_) ?_ ?_ ?_ ?_ ?_ ?_ ?_ ?_ ?_ ?_ ?_ <;> try rfl)
    | (intro _)
    | split
theorem execTeardownDrainEnd_keepsR {s0 s : State} (conn : Nat) (hk : Keeps s0 s) : ResKeeps s0 (execTeardownDrainEnd conn s) := by
  unfold execTeardownDrainEnd
  repeat' first
    | with_reducible assumption
    | with_reducible refine ResKeeps.next ?_
    | with_reducible refine alive_keepsR hk ?_
    | with_reducible refine ResKeeps.ite (fun _ => ?_) (fun _ => ?_)
    | with_reducible apply cmSend_keeps
    | with_reducible apply tcpSend_keeps
    | with_reducible apply withBridge_keeps
    | with_reducible apply freeConn_keeps
    | with_reducible refine Keeps.ite (fun _ => ?_) (fun _ => ?_)
    | (intro _)
    | split

end Sys2Proof.Machine
end

