-- ==== Sys2Proof/Laws/KeepsExecE.lean ====
section
/-! SUPPORT. The commands keep what Keeps says: Registers, Volumes, Repl, Durable, Reads, Respond, Spdm. -/

namespace Sys2Proof.Machine

set_option linter.unusedVariables false

/-! ### Registers -/

theorem execHamWinBaseWrite_keepsR {s0 s : State} (n : Nat) (value : Word) (requester : Nat) (hk : Keeps s0 s) : ResKeeps s0 (execHamWinBaseWrite n value requester s) := by
  unfold execHamWinBaseWrite
  refine fast_keepsR hk ?_
  repeat' first
    | with_reducible assumption
    | with_reducible refine ResKeeps.next ?_
    | with_reducible apply winDirect_keeps
theorem execHamWinSizeWrite_keepsR {s0 s : State} (n : Nat) (value : Word) (requester : Nat) (hk : Keeps s0 s) : ResKeeps s0 (execHamWinSizeWrite n value requester s) := by
  unfold execHamWinSizeWrite
  refine fast_keepsR hk ?_
  repeat' first
    | with_reducible assumption
    | with_reducible refine ResKeeps.next ?_
    | with_reducible apply winDirect_keeps
theorem execHamWinAccWrite_keepsR {s0 s : State} (n : Nat) (value : Word) (requester : Nat) (hk : Keeps s0 s) : ResKeeps s0 (execHamWinAccWrite n value requester s) := by
  unfold execHamWinAccWrite
  refine fast_keepsR hk ?_
  repeat' first
    | with_reducible assumption
    | with_reducible refine ResKeeps.next ?_
    | with_reducible apply winDirect_keeps
theorem writeSvc_keepsR {s0 s : State} (o : Nat) (v : Nat) (hk : Keeps s0 s) : ResKeeps s0 (writeSvc o v s) := by
  unfold writeSvc
  repeat' first
    | with_reducible assumption
    | with_reducible refine ResKeeps.next ?_
    | with_reducible apply execDmvSvcCfgWrite_keepsR
    | with_reducible apply execDmvSvcTailDoorbell_keepsR
    | with_reducible apply execDmvSvcHeadDoorbell_keepsR
    | with_reducible refine ResKeeps.ite (fun _ => ?_) (fun _ => ?_)
    | with_reducible apply updLane_keeps
theorem regWrite_keepsR {s0 s : State} (off : Nat) (v : Nat) (hk : Keeps s0 s) : ResKeeps s0 (regWrite off v s) := by
  unfold regWrite
  repeat' first
    | with_reducible assumption
    | with_reducible refine ResKeeps.next ?_
    | with_reducible apply writeSvc_keepsR
    | with_reducible apply writePlm_keeps
    | with_reducible apply writePlain_keeps
    | split
theorem execRegisterWrite_keepsR {s0 s : State} (offset : Nat) (value : Word) (hk : Keeps s0 s) : ResKeeps s0 (execRegisterWrite offset value s) := by
  unfold execRegisterWrite
  refine fast_keepsR hk ?_
  repeat' first
    | with_reducible assumption
    | with_reducible refine ResKeeps.next ?_
    | with_reducible apply regWrite_keepsR
    | with_reducible refine ResKeeps.ite (fun _ => ?_) (fun _ => ?_)
theorem execBar0MalformedRequest_keepsR {s0 s : State} (write : Bool) (hk : Keeps s0 s) : ResKeeps s0 (execBar0MalformedRequest write s) := by
  unfold execBar0MalformedRequest
  refine fast_keepsR hk ?_
  repeat' first
    | with_reducible assumption
    | with_reducible refine ResKeeps.next ?_
    | with_reducible refine ResKeeps.ite (fun _ => ?_) (fun _ => ?_)
    | with_reducible apply emit_keeps
theorem execHamViolSrcWrite_keepsR {s0 s : State} (value : Word) (hk : Keeps s0 s) : ResKeeps s0 (execHamViolSrcWrite value s) := by
  unfold execHamViolSrcWrite
  refine fast_keepsR hk ?_
  repeat' first
    | with_reducible assumption
    | with_reducible refine ResKeeps.next ?_
    | with_reducible apply writePlain_keeps
theorem execColViolAddrWrite_keepsR {s0 s : State} (value : Word) (hk : Keeps s0 s) : ResKeeps s0 (execColViolAddrWrite value s) := by
  unfold execColViolAddrWrite
  refine fast_keepsR hk ?_
  repeat' first
    | with_reducible assumption
    | with_reducible refine ResKeeps.next ?_
    | with_reducible apply writePlain_keeps
theorem execRlkSelWrite_keepsR {s0 s : State} (value : Word) (hk : Keeps s0 s) : ResKeeps s0 (execRlkSelWrite value s) := by
  unfold execRlkSelWrite
  refine fast_keepsR hk ?_
  repeat' first
    | with_reducible assumption
    | with_reducible refine ResKeeps.next ?_
    | with_reducible apply writeSelector_keeps
theorem execRmaConnSelWrite_keepsR {s0 s : State} (value : Word) (hk : Keeps s0 s) : ResKeeps s0 (execRmaConnSelWrite value s) := by
  unfold execRmaConnSelWrite
  refine fast_keepsR hk ?_
  repeat' first
    | with_reducible assumption
    | with_reducible refine ResKeeps.next ?_
    | with_reducible apply writeSelector_keeps
theorem execCipSlotSelWrite_keepsR {s0 s : State} (value : Word) (hk : Keeps s0 s) : ResKeeps s0 (execCipSlotSelWrite value s) := by
  unfold execCipSlotSelWrite
  refine fast_keepsR hk ?_
  repeat' first
    | with_reducible assumption
    | with_reducible refine ResKeeps.next ?_
    | with_reducible apply writeSelector_keeps
theorem execRegRead_keepsR {s0 s : State} (ring : Nat) (seq : Nat) (hk : Keeps s0 s) : ResKeeps s0 (execRegRead ring seq s) := by
  unfold execRegRead
  refine fast_keepsR hk ?_
  repeat' first
    | with_reducible assumption
    | with_reducible apply plainOp_keepsR
    | with_reducible apply readEffect_keeps
    | (intro _)
theorem execRegWrite_keepsR {s0 s : State} (ring : Nat) (seq : Nat) (hk : Keeps s0 s) : ResKeeps s0 (execRegWrite ring seq s) := by
  unfold execRegWrite
  refine fast_keepsR hk ?_
  repeat' first
    | with_reducible assumption
    | with_reducible apply auditedOp_keepsR

/-! ### Volumes -/

theorem execVolCreate_keepsR {s0 s : State} (ring : Nat) (seq : Nat) (hk : Keeps s0 s) : ResKeeps s0 (execVolCreate ring seq s) := by
  unfold execVolCreate
  refine fast_keepsR hk ?_
  repeat' first
    | with_reducible assumption
    | with_reducible apply coilOp_keepsR
theorem execVolDelete_keepsR {s0 s : State} (ring : Nat) (seq : Nat) (hk : Keeps s0 s) : ResKeeps s0 (execVolDelete ring seq s) := by
  unfold execVolDelete
  refine fast_keepsR hk ?_
  repeat' first
    | with_reducible assumption
    | with_reducible apply coilOp_keepsR
theorem execVolResize_keepsR {s0 s : State} (ring : Nat) (seq : Nat) (hk : Keeps s0 s) : ResKeeps s0 (execVolResize ring seq s) := by
  unfold execVolResize
  refine fast_keepsR hk ?_
  repeat' first
    | with_reducible assumption
    | with_reducible apply coilOp_keepsR
theorem execVolSetAccess_keepsR {s0 s : State} (ring : Nat) (seq : Nat) (hk : Keeps s0 s) : ResKeeps s0 (execVolSetAccess ring seq s) := by
  unfold execVolSetAccess
  refine fast_keepsR hk ?_
  repeat' first
    | with_reducible assumption
    | with_reducible refine ResKeeps.next ?_
    | with_reducible apply coilOp_keepsR
    | with_reducible refine ResKeeps.ite (fun _ => ?_) (fun _ => ?_)
theorem execSnapCreate_keepsR {s0 s : State} (ring : Nat) (seq : Nat) (hk : Keeps s0 s) : ResKeeps s0 (execSnapCreate ring seq s) := by
  unfold execSnapCreate
  refine fast_keepsR hk ?_
  repeat' first
    | with_reducible assumption
    | with_reducible apply coilOp_keepsR
theorem execSnapDelete_keepsR {s0 s : State} (ring : Nat) (seq : Nat) (hk : Keeps s0 s) : ResKeeps s0 (execSnapDelete ring seq s) := by
  unfold execSnapDelete
  refine fast_keepsR hk ?_
  repeat' first
    | with_reducible assumption
    | with_reducible apply coilOp_keepsR
theorem execVolClone_keepsR {s0 s : State} (ring : Nat) (seq : Nat) (hk : Keeps s0 s) : ResKeeps s0 (execVolClone ring seq s) := by
  unfold execVolClone
  refine fast_keepsR hk ?_
  repeat' first
    | with_reducible assumption
    | with_reducible apply coilOp_keepsR
theorem execDomainCreate_keepsR {s0 s : State} (ring : Nat) (seq : Nat) (hk : Keeps s0 s) : ResKeeps s0 (execDomainCreate ring seq s) := by
  unfold execDomainCreate
  refine fast_keepsR hk ?_
  repeat' first
    | with_reducible assumption
    | with_reducible apply coilOp_keepsR
theorem execVolQuery_keepsR {s0 s : State} (ring seq : Nat) (hk : Keeps s0 s) : ResKeeps s0 (execVolQuery ring seq s) := by
  unfold execVolQuery
  refine fast_keepsR hk ?_
  split
  · exact ResKeeps.next hk
  · split
    · exact plainOp_keepsR _ _ _ _ _ _ hk (fun _ _ _ h => h)
    · split
      · exact ResKeeps.next hk
      · split
        · exact ResKeeps.next (completePlain_keeps _ _ _ hk)
        · split
          · exact ResKeeps.next hk
          · exact ResKeeps.next (carryCmd_keeps _ hk)
theorem execBundleGatherTimeout_keepsR {s0 s : State} (verifyOk : Bool) (hk : Keeps s0 s) : ResKeeps s0 (execBundleGatherTimeout verifyOk s) := by
  unfold execBundleGatherTimeout
  refine engine_keepsR hk ?_
  repeat' first
    | with_reducible assumption
    | with_reducible refine ResKeeps.next ?_
    | with_reducible apply closeBundle_keeps
    | with_reducible apply settle_keeps
    | split
theorem execColdLookupDone_keepsR {s0 s : State} (tag : Nat) (found : Option Nat) (hk : Keeps s0 s) : ResKeeps s0 (execColdLookupDone tag found s) := by
  unfold execColdLookupDone
  refine engine_keepsR hk ?_
  repeat' first
    | with_reducible refine ResKeeps.next ?_
    | with_reducible apply settle_keeps
    | with_reducible apply coldDone_keeps
    | (with_reducible refine Keeps.lit hk ?_ ?_ ?_ ?_ ?_ ?_ ?_ ?_ ?_ ?_ ?_ <;> rfl)
    | split

/-! ### Repl -/

theorem execReplPair_keepsR {s0 s : State} (ring : Nat) (seq : Nat) (hk : Keeps s0 s) : ResKeeps s0 (execReplPair ring seq s) := by
  unfold execReplPair
  repeat' first
    | with_reducible assumption
    | with_reducible refine ResKeeps.next ?_
    | with_reducible refine fast_keepsR hk ?_
    | with_reducible refine ResKeeps.ite (fun _ => ?_) (fun _ => ?_)
    | with_reducible apply markTaken_keeps
    | (with_reducible refine Keeps.lit hk ?_ ?_ ?_ ?_ ?_ ?_ ?_ ?_ ?_ ?_ ?_ <;> rfl)
    | (dsimp only)
    | split
theorem execReplStart_keepsR {s0 s : State} (ring : Nat) (seq : Nat) (remote : Nat) (hk : Keeps s0 s) : ResKeeps s0 (execReplStart ring seq remote s) := by
  unfold execReplStart
  refine fast_keepsR hk ?_
  repeat' first
    | with_reducible assumption
    | with_reducible apply auditedOp_keepsR
theorem execReplStop_keepsR {s0 s : State} (ring : Nat) (seq : Nat) (hk : Keeps s0 s) : ResKeeps s0 (execReplStop ring seq s) := by
  unfold execReplStop
  refine fast_keepsR hk ?_
  repeat' first
    | with_reducible assumption
    | with_reducible apply auditedOp_keepsR
theorem execReplStatus_keepsR {s0 s : State} (ring : Nat) (seq : Nat) (hk : Keeps s0 s) : ResKeeps s0 (execReplStatus ring seq s) := by
  unfold execReplStatus
  refine fast_keepsR hk ?_
  repeat' first
    | with_reducible assumption
    | with_reducible apply plainOp_keepsR
    | with_reducible apply drewFree_keeps
    | (intro _)
theorem execAsyncCycleStart_keepsR {s0 s : State} (vol : Nat) (hk : Keeps s0 s) : ResKeeps s0 (execAsyncCycleStart vol s) := by
  unfold execAsyncCycleStart
  refine alive_keepsR hk ?_
  repeat' first
    | with_reducible refine ResKeeps.next ?_
    | with_reducible apply appendOp_keeps
    | with_reducible apply takeArrival_keeps
    | with_reducible apply updRepl_keeps
    | (with_reducible refine Keeps.lit hk ?_ ?_ ?_ ?_ ?_ ?_ ?_ ?_ ?_ ?_ ?_ <;> rfl)
    | split
theorem execAsyncCycleEnd_keepsR {s0 s : State} (vol : Nat) (hk : Keeps s0 s) : ResKeeps s0 (execAsyncCycleEnd vol s) := by
  unfold execAsyncCycleEnd
  refine alive_keepsR hk ?_
  repeat' first
    | with_reducible assumption
    | with_reducible refine ResKeeps.next ?_
    | with_reducible apply appendOp_keeps
    | with_reducible apply takeArrival_keeps
    | with_reducible apply updRepl_keeps
    | split
theorem execRemoteRecordAck_keepsR {s0 s : State} (vol : Nat) (arrival : Nat) (hk : Keeps s0 s) : ResKeeps s0 (execRemoteRecordAck vol arrival s) := by
  unfold execRemoteRecordAck
  refine alive_keepsR hk ?_
  repeat' first
    | with_reducible assumption
    | with_reducible refine ResKeeps.next ?_
    | with_reducible apply settle_keeps
    | with_reducible apply updRepl_keeps
    | with_reducible apply releaseSynced_keeps
    | split
theorem execSyncRemoteLoss_keepsR {s0 s : State} (vol : Nat) (hk : Keeps s0 s) : ResKeeps s0 (execSyncRemoteLoss vol s) := by
  unfold execSyncRemoteLoss
  refine alive_keepsR hk ?_
  repeat' first
    | with_reducible assumption
    | with_reducible refine ResKeeps.next ?_
    | with_reducible apply countEvent_keeps
    | with_reducible apply settle_keeps
    | with_reducible apply updRepl_keeps
    | with_reducible apply releaseSynced_keeps
    | split

/-! ### Durable -/

theorem execAuditEntryDurable_keepsR {s0 s : State}  (hk : Keeps s0 s) : ResKeeps s0 (execAuditEntryDurable s) := by
  unfold execAuditEntryDurable
  refine fast_keepsR hk ?_
  repeat' first
    | with_reducible refine ResKeeps.next ?_
    | with_reducible apply commandDurable_keeps
    | with_reducible apply windowDurable_keeps
    | with_reducible apply parkDurable_keeps
    | (with_reducible refine Keeps.lit hk ?_ ?_ ?_ ?_ ?_ ?_ ?_ ?_ ?_ ?_ ?_ <;> rfl)
    | split
theorem execWaitingEntryAppend_keepsR {s0 s : State}  (hk : Keeps s0 s) : ResKeeps s0 (execWaitingEntryAppend s) := by
  unfold execWaitingEntryAppend
  refine fast_keepsR hk ?_
  repeat' first
    | with_reducible refine ResKeeps.next ?_
    | with_reducible apply appendWaiting_keeps
    | (with_reducible refine Keeps.lit hk ?_ ?_ ?_ ?_ ?_ ?_ ?_ ?_ ?_ ?_ ?_ <;> rfl)
    | split

/-! ### Reads -/

theorem execRcRegisterRead_keepsR {s0 s : State} (offset : Nat) (hk : Keeps s0 s) : ResKeeps s0 (execRcRegisterRead offset s) := by
  unfold execRcRegisterRead
  refine fast_keepsR hk ?_
  repeat' first
    | with_reducible assumption
    | with_reducible refine ResKeeps.next ?_
    | with_reducible refine ResKeeps.ite (fun _ => ?_) (fun _ => ?_)
    | with_reducible apply emit_keeps
    | with_reducible apply barRead_keeps
theorem execLoRegisterRead_keepsR {s0 s : State} (offset : Nat) (hk : Keeps s0 s) : ResKeeps s0 (execLoRegisterRead offset s) := by
  unfold execLoRegisterRead
  refine fast_keepsR hk ?_
  repeat' first
    | with_reducible assumption
    | with_reducible refine ResKeeps.next ?_
    | with_reducible refine ResKeeps.ite (fun _ => ?_) (fun _ => ?_)
    | with_reducible apply emit_keeps
    | with_reducible apply barRead_keeps
theorem execRlkEntryStsRead_keepsR {s0 s : State}  (hk : Keeps s0 s) : ResKeeps s0 (execRlkEntryStsRead s) := by
  unfold execRlkEntryStsRead
  refine fast_keepsR hk ?_
  repeat' first
    | with_reducible assumption
    | with_reducible refine ResKeeps.next ?_
    | with_reducible apply barRead_keeps
theorem execRmaConnStsRead_keepsR {s0 s : State}  (hk : Keeps s0 s) : ResKeeps s0 (execRmaConnStsRead s) := by
  unfold execRmaConnStsRead
  refine fast_keepsR hk ?_
  repeat' first
    | with_reducible assumption
    | with_reducible refine ResKeeps.next ?_
    | with_reducible apply barRead_keeps
theorem execCipSlotStsRead_keepsR {s0 s : State}  (hk : Keeps s0 s) : ResKeeps s0 (execCipSlotStsRead s) := by
  unfold execCipSlotStsRead
  refine fast_keepsR hk ?_
  repeat' first
    | with_reducible assumption
    | with_reducible refine ResKeeps.next ?_
    | with_reducible apply barRead_keeps

/-! ### Respond -/

theorem execPeerResponse_keepsR {s0 s : State} (tag : Nat) (status : Nat) (detail : Nat) (value : Nat) (bytes : List Byte) (hk : Keeps s0 s) : ResKeeps s0 (execPeerResponse tag status detail value bytes s) := by
  unfold execPeerResponse
  refine alive_keepsR hk ?_
  repeat' first
    | with_reducible refine ResKeeps.next ?_
    | with_reducible apply settle_keeps
    | with_reducible apply keyAnswered_keeps
    | with_reducible apply forwardAnswered_keeps
    | with_reducible apply handoffAnswered_keeps
    | with_reducible apply carryAnswered_keeps
    | with_reducible apply refAnswered_keeps
    | with_reducible apply relayAnswered_keeps
    | (with_reducible refine Keeps.lit hk ?_ ?_ ?_ ?_ ?_ ?_ ?_ ?_ ?_ ?_ ?_ <;> rfl)
    | split

/-! ### Spdm -/

theorem spdmGate_keepsR {s0 s : State} (k : State → Result) (hk : Keeps s0 s) (hh : ∀ s, Keeps s0 s → ResKeeps s0 (k s)) :
    ResKeeps s0 (spdmGate s k) := by
  unfold spdmGate
  repeat' split
  · exact ResKeeps.next hk
  · exact ResKeeps.next (sendMctp_keeps _ hk)
  · exact hh s hk
theorem spdmReady_keepsR {s0 s : State} (k : State → Result) (hk : Keeps s0 s) (hh : ∀ s, Keeps s0 s → ResKeeps s0 (k s)) :
    ResKeeps s0 (spdmReady s k) :=
  spdmGate_keepsR _ hk (fun s h => ResKeeps.ite (fun _ => hh s h) (fun _ => ResKeeps.next (sendMctp_keeps _ h)))
theorem spdmAlias_keepsR {s0 s : State} (k : State → Result) (hk : Keeps s0 s) (hh : ∀ s, Keeps s0 s → ResKeeps s0 (k s)) :
    ResKeeps s0 (spdmAlias s k) :=
  spdmReady_keepsR _ hk (fun s h => ResKeeps.ite (fun _ => hh s h) (fun _ => ResKeeps.next (sendMctp_keeps _ h)))
theorem execGetVersion_keepsR {s0 s : State}  (hk : Keeps s0 s) : ResKeeps s0 (execGetVersion s) := by
  unfold execGetVersion
  repeat' first
    | with_reducible refine ResKeeps.next ?_
    | with_reducible apply spdmGate_keepsR
    | with_reducible apply spdmRespond_keeps
    | (with_reducible refine Keeps.lit (by with_reducible assumption) ?_ ?_ ?_ ?_ ?_ ?_ ?_ ?_ ?_ ?_ ?_ <;> rfl)
    | (intro _)
theorem execGetCapabilities_keepsR {s0 s : State}  (hk : Keeps s0 s) : ResKeeps s0 (execGetCapabilities s) := by
  unfold execGetCapabilities
  repeat' first
    | with_reducible assumption
    | with_reducible refine ResKeeps.next ?_
    | with_reducible apply spdmGate_keepsR
    | with_reducible refine ResKeeps.ite (fun _ => ?_) (fun _ => ?_)
    | with_reducible apply sendMctp_keeps
    | with_reducible apply spdmRespond_keeps
    | (with_reducible refine Keeps.lit (by with_reducible assumption) ?_ ?_ ?_ ?_ ?_ ?_ ?_ ?_ ?_ ?_ ?_ <;> rfl)
    | (intro _)
theorem execNegotiateAlgorithms_keepsR {s0 s : State} (algsOk : Bool) (hk : Keeps s0 s) : ResKeeps s0 (execNegotiateAlgorithms algsOk s) := by
  unfold execNegotiateAlgorithms
  repeat' first
    | with_reducible assumption
    | with_reducible refine ResKeeps.next ?_
    | with_reducible apply spdmGate_keepsR
    | with_reducible refine ResKeeps.ite (fun _ => ?_) (fun _ => ?_)
    | with_reducible apply sendMctp_keeps
    | with_reducible apply spdmRespond_keeps
    | (with_reducible refine Keeps.lit (by with_reducible assumption) ?_ ?_ ?_ ?_ ?_ ?_ ?_ ?_ ?_ ?_ ?_ <;> rfl)
    | (intro _)
theorem execGetDigests_keepsR {s0 s : State}  (hk : Keeps s0 s) : ResKeeps s0 (execGetDigests s) := by
  unfold execGetDigests
  repeat' first
    | with_reducible assumption
    | with_reducible refine ResKeeps.next ?_
    | with_reducible apply spdmAlias_keepsR
    | with_reducible apply spdmRespond_keeps
    | (intro _)
theorem execGetCertificate_keepsR {s0 s : State} (slot : Nat) (offset : Nat) (length : Nat) (hk : Keeps s0 s) : ResKeeps s0 (execGetCertificate slot offset length s) := by
  unfold execGetCertificate
  repeat' first
    | with_reducible assumption
    | with_reducible refine ResKeeps.next ?_
    | with_reducible apply spdmAlias_keepsR
    | with_reducible refine ResKeeps.ite (fun _ => ?_) (fun _ => ?_)
    | with_reducible apply sendMctp_keeps
    | with_reducible apply spdmRespond_keeps
    | (intro _)
theorem execChallenge_keepsR {s0 s : State} (slot : Nat) (nonce : List Byte) (hk : Keeps s0 s) : ResKeeps s0 (execChallenge slot nonce s) := by
  unfold execChallenge
  repeat' first
    | with_reducible assumption
    | with_reducible refine ResKeeps.next ?_
    | with_reducible apply spdmAlias_keepsR
    | with_reducible refine ResKeeps.ite (fun _ => ?_) (fun _ => ?_)
    | with_reducible apply sendMctp_keeps
    | with_reducible apply spdmRespond_keeps
    | (with_reducible refine Keeps.lit (by with_reducible assumption) ?_ ?_ ?_ ?_ ?_ ?_ ?_ ?_ ?_ ?_ ?_ <;> rfl)
    | (intro _)
theorem execGetMeasurements_keepsR {s0 s : State} (index : Nat) (hk : Keeps s0 s) : ResKeeps s0 (execGetMeasurements index s) := by
  unfold execGetMeasurements
  repeat' first
    | with_reducible assumption
    | with_reducible refine ResKeeps.next ?_
    | with_reducible apply spdmReady_keepsR
    | with_reducible refine ResKeeps.ite (fun _ => ?_) (fun _ => ?_)
    | with_reducible apply sendMctp_keeps
    | with_reducible apply spdmRespond_keeps
    | (intro _)
    | split
theorem execKeyExchange_keepsR {s0 s : State} (slot : Nat) (hk : Keeps s0 s) : ResKeeps s0 (execKeyExchange slot s) := by
  unfold execKeyExchange
  repeat' first
    | with_reducible assumption
    | with_reducible refine ResKeeps.next ?_
    | with_reducible apply spdmAlias_keepsR
    | with_reducible refine ResKeeps.ite (fun _ => ?_) (fun _ => ?_)
    | with_reducible apply sendMctp_keeps
    | with_reducible apply spdmRespond_keeps
    | (with_reducible refine Keeps.lit (by with_reducible assumption) ?_ ?_ ?_ ?_ ?_ ?_ ?_ ?_ ?_ ?_ ?_ <;> rfl)
    | (intro _)
theorem execFinish_keepsR {s0 s : State} (session : Nat) (macOk : Bool) (hk : Keeps s0 s) : ResKeeps s0 (execFinish session macOk s) := by
  unfold execFinish
  repeat' first
    | with_reducible assumption
    | with_reducible refine ResKeeps.next ?_
    | with_reducible apply spdmReady_keepsR
    | with_reducible refine ResKeeps.ite (fun _ => ?_) (fun _ => ?_)
    | with_reducible apply sendMctp_keeps
    | with_reducible apply spdmRespond_keeps
    | with_reducible apply dropSpdm_keeps
    | (with_reducible refine Keeps.lit (by with_reducible assumption) ?_ ?_ ?_ ?_ ?_ ?_ ?_ ?_ ?_ ?_ ?_ <;> rfl)
    | (intro _)
theorem execHeartbeat_keepsR {s0 s : State} (session : Nat) (hk : Keeps s0 s) : ResKeeps s0 (execHeartbeat session s) := by
  unfold execHeartbeat
  repeat' first
    | with_reducible assumption
    | with_reducible refine ResKeeps.next ?_
    | with_reducible apply spdmGate_keepsR
    | with_reducible apply sendMctp_keeps
    | with_reducible apply spdmRespond_keeps
    | with_reducible refine Keeps.ite (fun _ => ?_) (fun _ => ?_)
    | (intro _)
theorem execKeyUpdate_keepsR {s0 s : State} (session : Nat) (hk : Keeps s0 s) : ResKeeps s0 (execKeyUpdate session s) := by
  unfold execKeyUpdate
  repeat' first
    | with_reducible assumption
    | with_reducible refine ResKeeps.next ?_
    | with_reducible apply spdmGate_keepsR
    | with_reducible refine ResKeeps.ite (fun _ => ?_) (fun _ => ?_)
    | with_reducible apply sendMctp_keeps
    | with_reducible apply spdmRespond_keeps
    | (with_reducible refine Keeps.lit (by with_reducible assumption) ?_ ?_ ?_ ?_ ?_ ?_ ?_ ?_ ?_ ?_ ?_ <;> rfl)
    | (intro _)
theorem execEndSession_keepsR {s0 s : State} (session : Nat) (hk : Keeps s0 s) : ResKeeps s0 (execEndSession session s) := by
  unfold execEndSession
  repeat' first
    | with_reducible assumption
    | with_reducible refine ResKeeps.next ?_
    | with_reducible apply spdmGate_keepsR
    | with_reducible refine ResKeeps.ite (fun _ => ?_) (fun _ => ?_)
    | with_reducible apply sendMctp_keeps
    | with_reducible apply spdmRespond_keeps
    | with_reducible apply dropSpdm_keeps
    | (intro _)
theorem execChunkGet_keepsR {s0 s : State} (handle : Nat) (chunk : Nat) (hk : Keeps s0 s) : ResKeeps s0 (execChunkGet handle chunk s) := by
  unfold execChunkGet
  repeat' first
    | with_reducible assumption
    | with_reducible refine ResKeeps.next ?_
    | with_reducible apply spdmGate_keepsR
    | with_reducible refine ResKeeps.ite (fun _ => ?_) (fun _ => ?_)
    | with_reducible apply sendMctp_keeps
    | with_reducible refine Keeps.ite (fun _ => ?_) (fun _ => ?_)
    | (with_reducible refine Keeps.lit (by with_reducible assumption) ?_ ?_ ?_ ?_ ?_ ?_ ?_ ?_ ?_ ?_ ?_ <;> rfl)
    | (intro _)
    | (dsimp only)
    | split
theorem execSpdmUnsupportedRequest_keepsR {s0 s : State} (_code : Nat) (hk : Keeps s0 s) : ResKeeps s0 (execSpdmUnsupportedRequest _code s) := by
  unfold execSpdmUnsupportedRequest
  repeat' first
    | with_reducible assumption
    | with_reducible refine ResKeeps.next ?_
    | with_reducible apply spdmGate_keepsR
    | with_reducible apply sendMctp_keeps
    | (intro _)

end Sys2Proof.Machine
end

