-- ==== Sys2Proof/Laws/KeepsExec.lean ====
section
/-! SUPPORT. Every command but the resets keeps what Keeps says, and so does an idle step. -/

set_option maxRecDepth 4000

namespace Sys2Proof.Machine

/-- Every command but the resets keeps what Keeps says. -/
theorem exec_keepsR (c : Instr) (s : State) (h : isReset c = false) : ResKeeps s (exec c s) := by
  unfold exec
  cases c with
  | pwrokRise => simp [isReset] at h
  | pwrokFall => simp [isReset] at h
  | aonRailsUp => simp [isReset] at h
  | aonResponderReady => exact execAonResponderReady_keepsR (Keeps.refl s)
  | aonRailsDown => simp [isReset] at h
  | pwrfailRecognised lowNs => exact execPwrfailRecognised_keepsR lowNs (Keeps.refl s)
  | frontEndsStop => exact execFrontEndsStop_keepsR (Keeps.refl s)
  | coilRetentionEnter => exact execCoilRetentionEnter_keepsR (Keeps.refl s)
  | perstC0Assert => exact execPerstC0Assert_keepsR (Keeps.refl s)
  | perstC1Assert => exact execPerstC1Assert_keepsR (Keeps.refl s)
  | pcieLinkTrainStart port => exact execPcieLinkTrainStart_keepsR port (Keeps.refl s)
  | pcieConfigRequest port => exact execPcieConfigRequest_keepsR port (Keeps.refl s)
  | refclkLost => exact execRefclkLost_keepsR (Keeps.refl s)
  | refclkGood => exact execRefclkGood_keepsR (Keeps.refl s)
  | pllLocked pll => exact execPllLocked_keepsR pll (Keeps.refl s)
  | pllLockLost pll => exact execPllLockLost_keepsR pll (Keeps.refl s)
  | ospiResetRelease => exact execOspiResetRelease_keepsR (Keeps.refl s)
  | sidebandEarlyService => exact execSidebandEarlyService_keepsR (Keeps.refl s)
  | fusesLoaded => exact execFusesLoaded_keepsR (Keeps.refl s)
  | mgtFirmwareRunning => exact execMgtFirmwareRunning_keepsR (Keeps.refl s)
  | firmwareBootCheck comp => exact execFirmwareBootCheck_keepsR comp (Keeps.refl s)
  | sidebandFullService => exact execSidebandFullService_keepsR (Keeps.refl s)
  | hamperTrained => exact execHamperTrained_keepsR (Keeps.refl s)
  | coilReady => exact execCoilReady_keepsR (Keeps.refl s)
  | bootCounterIncrement => exact execBootCounterIncrement_keepsR (Keeps.refl s)
  | plemFunctionReady => exact execPlemFunctionReady_keepsR (Keeps.refl s)
  | stakeWaveStart wave => exact execStakeWaveStart_keepsR wave (Keeps.refl s)
  | stakeWaveEnd wave receivers => exact execStakeWaveEnd_keepsR wave receivers (Keeps.refl s)
  | stakeCatchupWave => exact execStakeCatchupWave_keepsR (Keeps.refl s)
  | peerLinkTrainAttempt => exact execPeerLinkTrainAttempt_keepsR (Keeps.refl s)
  | monitorSelfTest notFired => exact execMonitorSelfTest_keepsR notFired (Keeps.refl s)
  | bootRecordSeal => exact execBootRecordSeal_keepsR (Keeps.refl s)
  | warmResetRelease => simp [isReset] at h
  | tileGate tile => exact execTileGate_keepsR tile (Keeps.refl s)
  | tileWake tile => exact execTileWake_keepsR tile (Keeps.refl s)
  | groupAutoOff group => exact execGroupAutoOff_keepsR group (Keeps.refl s)
  | groupPowerOn => exact execGroupPowerOn_keepsR (Keeps.refl s)
  | groupRestoreComplete group => exact execGroupRestoreComplete_keepsR group (Keeps.refl s)
  | dozeWake => exact execDozeWake_keepsR (Keeps.refl s)
  | dozeExitComplete => exact execDozeExitComplete_keepsR (Keeps.refl s)
  | smbusReadIdentity => exact execSmbusReadIdentity_keepsR (Keeps.refl s)
  | smbusReadTemperature => exact execSmbusReadTemperature_keepsR (Keeps.refl s)
  | smbusReadBootStatus => exact execSmbusReadBootStatus_keepsR (Keeps.refl s)
  | smbusReadCause => exact execSmbusReadCause_keepsR (Keeps.refl s)
  | smbusOtherCommand cmd => exact execSmbusOtherCommand_keepsR cmd (Keeps.refl s)
  | smbusClockLowTimeout lowMs => exact execSmbusClockLowTimeout_keepsR lowMs (Keeps.refl s)
  | i3cFirstBroadcast => exact execI3cFirstBroadcast_keepsR (Keeps.refl s)
  | entdaa addr => exact execEntdaa_keepsR addr (Keeps.refl s)
  | setdasa static addr => exact execSetdasa_keepsR static addr (Keeps.refl s)
  | rstdaa => exact execRstdaa_keepsR (Keeps.refl s)
  | setEndpointId eid => exact execSetEndpointId_keepsR eid (Keeps.refl s)
  | getEndpointId => exact execGetEndpointId_keepsR (Keeps.refl s)
  | getMctpVersionSupport msgType => exact execGetMctpVersionSupport_keepsR msgType (Keeps.refl s)
  | getMessageTypeSupport => exact execGetMessageTypeSupport_keepsR (Keeps.refl s)
  | mctpOtherControl cmd => exact execMctpOtherControl_keepsR cmd (Keeps.refl s)
  | plemOverMctp onC0 secured eid packet block => exact execPlemOverMctp_keepsR onC0 secured eid packet block (Keeps.refl s)
  | getVersion => exact execGetVersion_keepsR (Keeps.refl s)
  | getCapabilities => exact execGetCapabilities_keepsR (Keeps.refl s)
  | negotiateAlgorithms algsOk => exact execNegotiateAlgorithms_keepsR algsOk (Keeps.refl s)
  | getDigests => exact execGetDigests_keepsR (Keeps.refl s)
  | getCertificate slot offset length => exact execGetCertificate_keepsR slot offset length (Keeps.refl s)
  | challenge slot nonce => exact execChallenge_keepsR slot nonce (Keeps.refl s)
  | getMeasurements index => exact execGetMeasurements_keepsR index (Keeps.refl s)
  | keyExchange slot => exact execKeyExchange_keepsR slot (Keeps.refl s)
  | finish session macOk => exact execFinish_keepsR session macOk (Keeps.refl s)
  | heartbeat session => exact execHeartbeat_keepsR session (Keeps.refl s)
  | keyUpdate session => exact execKeyUpdate_keepsR session (Keeps.refl s)
  | endSession session => exact execEndSession_keepsR session (Keeps.refl s)
  | chunkGet handle chunk => exact execChunkGet_keepsR handle chunk (Keeps.refl s)
  | spdmUnsupportedRequest code => exact execSpdmUnsupportedRequest_keepsR code (Keeps.refl s)
  | plmRingCfgWrite ring value => exact execPlmRingCfgWrite_keepsR ring value (Keeps.refl s)
  | plmRsqTailDoorbell ring value => exact execPlmRsqTailDoorbell_keepsR ring value (Keeps.refl s)
  | plmRcqHeadDoorbell ring value => exact execPlmRcqHeadDoorbell_keepsR ring value (Keeps.refl s)
  | plemPacketFetch ring packet block => exact execPlemPacketFetch_keepsR ring packet block (Keeps.refl s)
  | plemCommandStart ring => exact execPlemCommandStart_keepsR ring (Keeps.refl s)
  | c0FetchFailure ring => exact execC0FetchFailure_keepsR ring (Keeps.refl s)
  | c0FetchTimeout ring => exact execC0FetchTimeout_keepsR ring (Keeps.refl s)
  | nonceExpiry ring => exact execNonceExpiry_keepsR ring (Keeps.refl s)
  | sessionIdleTimeout ring => exact execSessionIdleTimeout_keepsR ring (Keeps.refl s)
  | sysIdentify ring seq => exact execSysIdentify_keepsR ring seq (Keeps.refl s)
  | getNonce ring seq => exact execGetNonce_keepsR ring seq (Keeps.refl s)
  | sessionOpen ring seq => exact execSessionOpen_keepsR ring seq (Keeps.refl s)
  | sessionClose ring seq => exact execSessionClose_keepsR ring seq (Keeps.refl s)
  | sysStatus ring seq => exact execSysStatus_keepsR ring seq (Keeps.refl s)
  | serviceStart ring seq => exact execServiceStart_keepsR ring seq (Keeps.refl s)
  | serviceStop ring seq => exact execServiceStop_keepsR ring seq (Keeps.refl s)
  | portEnable ring seq => exact execPortEnable_keepsR ring seq (Keeps.refl s)
  | deviceDoze ring seq => exact execDeviceDoze_keepsR ring seq (Keeps.refl s)
  | resetDevice ring seq => exact execResetDevice_keepsR ring seq (Keeps.refl s)
  | handleEligible ring seq => exact execHandleEligible_keepsR ring seq (Keeps.refl s)
  | handleTransfer ring seq => exact execHandleTransfer_keepsR ring seq (Keeps.refl s)
  | ownerEnroll ring seq => exact execOwnerEnroll_keepsR ring seq (Keeps.refl s)
  | setParam ring seq => exact execSetParam_keepsR ring seq (Keeps.refl s)
  | getParam ring seq => exact execGetParam_keepsR ring seq (Keeps.refl s)
  | setParams ring seq => exact execSetParams_keepsR ring seq (Keeps.refl s)
  | configSeal ring seq => exact execConfigSeal_keepsR ring seq (Keeps.refl s)
  | regWrite ring seq => exact execRegWrite_keepsR ring seq (Keeps.refl s)
  | regRead ring seq => exact execRegRead_keepsR ring seq (Keeps.refl s)
  | volCreate ring seq => exact execVolCreate_keepsR ring seq (Keeps.refl s)
  | volDelete ring seq => exact execVolDelete_keepsR ring seq (Keeps.refl s)
  | volResize ring seq => exact execVolResize_keepsR ring seq (Keeps.refl s)
  | volSetAccess ring seq => exact execVolSetAccess_keepsR ring seq (Keeps.refl s)
  | volQuery ring seq => exact execVolQuery_keepsR ring seq (Keeps.refl s)
  | snapCreate ring seq => exact execSnapCreate_keepsR ring seq (Keeps.refl s)
  | snapDelete ring seq => exact execSnapDelete_keepsR ring seq (Keeps.refl s)
  | volClone ring seq => exact execVolClone_keepsR ring seq (Keeps.refl s)
  | secureDiscard ring seq => exact execSecureDiscard_keepsR ring seq (Keeps.refl s)
  | domainCreate ring seq => exact execDomainCreate_keepsR ring seq (Keeps.refl s)
  | packAdmit ring seq => exact execPackAdmit_keepsR ring seq (Keeps.refl s)
  | packRetire ring seq => exact execPackRetire_keepsR ring seq (Keeps.refl s)
  | layoutChange ring seq => exact execLayoutChange_keepsR ring seq (Keeps.refl s)
  | rebuildCtrl ring seq => exact execRebuildCtrl_keepsR ring seq (Keeps.refl s)
  | mediaHealth ring seq => exact execMediaHealth_keepsR ring seq (Keeps.refl s)
  | lostListRead ring seq => exact execLostListRead_keepsR ring seq (Keeps.refl s)
  | lostListClear ring seq => exact execLostListClear_keepsR ring seq (Keeps.refl s)
  | keyGenerate ring seq => exact execKeyGenerate_keepsR ring seq (Keeps.refl s)
  | keyLoad ring seq => exact execKeyLoad_keepsR ring seq (Keeps.refl s)
  | keyExport ring seq => exact execKeyExport_keepsR ring seq (Keeps.refl s)
  | keyDestroy ring seq => exact execKeyDestroy_keepsR ring seq (Keeps.refl s)
  | keyInstallSa ring seq => exact execKeyInstallSa_keepsR ring seq (Keeps.refl s)
  | keyQuery ring seq => exact execKeyQuery_keepsR ring seq (Keeps.refl s)
  | cipherOp ring seq input => exact execCipherOp_keepsR ring seq input (Keeps.refl s)
  | auditRead ring seq => exact execAuditRead_keepsR ring seq (Keeps.refl s)
  | auditDrain ring seq => exact execAuditDrain_keepsR ring seq (Keeps.refl s)
  | auditSeal ring seq => exact execAuditSeal_keepsR ring seq (Keeps.refl s)
  | bootRecordRead ring seq => exact execBootRecordRead_keepsR ring seq (Keeps.refl s)
  | bootRecordDrain ring seq => exact execBootRecordDrain_keepsR ring seq (Keeps.refl s)
  | attestQuote ring seq => exact execAttestQuote_keepsR ring seq (Keeps.refl s)
  | setTime ring seq => exact execSetTime_keepsR ring seq (Keeps.refl s)
  | replPair ring seq => exact execReplPair_keepsR ring seq (Keeps.refl s)
  | replStart ring seq remote => exact execReplStart_keepsR ring seq remote (Keeps.refl s)
  | replStop ring seq => exact execReplStop_keepsR ring seq (Keeps.refl s)
  | replStatus ring seq => exact execReplStatus_keepsR ring seq (Keeps.refl s)
  | regionRegister ring seq => exact execRegionRegister_keepsR ring seq (Keeps.refl s)
  | regionRevoke ring seq => exact execRegionRevoke_keepsR ring seq (Keeps.refl s)
  | connTeardown ring seq => exact execConnTeardown_keepsR ring seq (Keeps.refl s)
  | evrRead ring seq => exact execEvrRead_keepsR ring seq (Keeps.refl s)
  | evrClear ring seq => exact execEvrClear_keepsR ring seq (Keeps.refl s)
  | wvrInject ring seq => exact execWvrInject_keepsR ring seq (Keeps.refl s)
  | wvrCapture ring seq => exact execWvrCapture_keepsR ring seq (Keeps.refl s)
  | selftest ring seq => exact execSelftest_keepsR ring seq (Keeps.refl s)
  | thermStatus ring seq => exact execThermStatus_keepsR ring seq (Keeps.refl s)
  | stageImage ring seq => exact execStageImage_keepsR ring seq (Keeps.refl s)
  | activateImage ring seq => exact execActivateImage_keepsR ring seq (Keeps.refl s)
  | fwQuery ring seq => exact execFwQuery_keepsR ring seq (Keeps.refl s)
  | packFwLoad ring seq => exact execPackFwLoad_keepsR ring seq (Keeps.refl s)
  | migrateStatus ring seq => exact execMigrateStatus_keepsR ring seq (Keeps.refl s)
  | stageImageChunkDone => exact execStageImageChunkDone_keepsR (Keeps.refl s)
  | packFwMeasureTimeout port => exact execPackFwMeasureTimeout_keepsR port (Keeps.refl s)
  | formatRaise peerFmtWrite => exact execFormatRaise_keepsR peerFmtWrite (Keeps.refl s)
  | formatMigrationEnd => exact execFormatMigrationEnd_keepsR (Keeps.refl s)
  | auditEntryDurable => exact execAuditEntryDurable_keepsR (Keeps.refl s)
  | waitingEntryAppend => exact execWaitingEntryAppend_keepsR (Keeps.refl s)
  | ptpSyncReceived port domain transport wall offset => exact execPtpSyncReceived_keepsR port domain transport wall offset (Keeps.refl s)
  | ptpHoldoverExpiry => exact execPtpHoldoverExpiry_keepsR (Keeps.refl s)
  | nvmeSqDoorbell ctrl sq tail => exact execNvmeSqDoorbell_keepsR ctrl sq tail (Keeps.refl s)
  | nvmeDeleteIoSq ctrl cid sq => exact execNvmeDeleteIoSq_keepsR ctrl cid sq (Keeps.refl s)
  | nvmeDeleteIoCq ctrl cid cq => exact execNvmeDeleteIoCq_keepsR ctrl cid cq (Keeps.refl s)
  | nvmeCreateIoSq ctrl cid sq cq size contiguous => exact execNvmeCreateIoSq_keepsR ctrl cid sq cq size contiguous (Keeps.refl s)
  | nvmeCreateIoCq ctrl cid cq size contiguous => exact execNvmeCreateIoCq_keepsR ctrl cid cq size contiguous (Keeps.refl s)
  | nvmeGetLogPage ctrl cid page => exact execNvmeGetLogPage_keepsR ctrl cid page (Keeps.refl s)
  | nvmeIdentify ctrl cid what nsid => exact execNvmeIdentify_keepsR ctrl cid what nsid (Keeps.refl s)
  | nvmeAbort ctrl cid sq target => exact execNvmeAbort_keepsR ctrl cid sq target (Keeps.refl s)
  | abortArbitration ctrl cid => exact execAbortArbitration_keepsR ctrl cid (Keeps.refl s)
  | nvmeSetFeaturesPower ctrl cid ps => exact execNvmeSetFeaturesPower_keepsR ctrl cid ps (Keeps.refl s)
  | nvmeSetFeaturesQueues ctrl cid count => exact execNvmeSetFeaturesQueues_keepsR ctrl cid count (Keeps.refl s)
  | nvmeSetFeatures ctrl cid fid value => exact execNvmeSetFeatures_keepsR ctrl cid fid value (Keeps.refl s)
  | nvmeGetFeatures ctrl cid fid => exact execNvmeGetFeatures_keepsR ctrl cid fid (Keeps.refl s)
  | nvmeAsyncEventRequest ctrl cid => exact execNvmeAsyncEventRequest_keepsR ctrl cid (Keeps.refl s)
  | nvmeKeepAlive ctrl cid => exact execNvmeKeepAlive_keepsR ctrl cid (Keeps.refl s)
  | keepAliveExpiry ctrl => exact execKeepAliveExpiry_keepsR ctrl (Keeps.refl s)
  | fabricsConnect conn cid ctrl qid sqsize discovery hostNqn => exact execFabricsConnect_keepsR conn cid ctrl qid sqsize discovery hostNqn (Keeps.refl s)
  | fabricsPropertyGet ctrl cid offset => exact execFabricsPropertyGet_keepsR ctrl cid offset (Keeps.refl s)
  | fabricsPropertySet ctrl cid offset value => exact execFabricsPropertySet_keepsR ctrl cid offset value (Keeps.refl s)
  | fabricsDisconnect ctrl cid => exact execFabricsDisconnect_keepsR ctrl cid (Keeps.refl s)
  | fabricsConnectionLoss ctrl => exact execFabricsConnectionLoss_keepsR ctrl (Keeps.refl s)
  | ccEnClear ctrl => exact execCcEnClear_keepsR ctrl (Keeps.refl s)
  | ccEnSet ctrl css => exact execCcEnSet_keepsR ctrl css (Keeps.refl s)
  | functionLevelReset ctrl => exact execFunctionLevelReset_keepsR ctrl (Keeps.refl s)
  | nvmeFlush ctrl sq cid nsid => exact execNvmeFlush_keepsR ctrl sq cid nsid (Keeps.refl s)
  | nvmeWrite ctrl sq cid nsid slba nlb pi sglLen => exact execNvmeWrite_keepsR ctrl sq cid nsid slba nlb pi sglLen (Keeps.refl s)
  | nvmeRead ctrl sq cid nsid slba nlb pi sglLen => exact execNvmeRead_keepsR ctrl sq cid nsid slba nlb pi sglLen (Keeps.refl s)
  | nvmeCompare ctrl sq cid nsid slba nlb pi sglLen => exact execNvmeCompare_keepsR ctrl sq cid nsid slba nlb pi sglLen (Keeps.refl s)
  | nvmeWriteZeroes ctrl sq cid nsid slba nlb deac => exact execNvmeWriteZeroes_keepsR ctrl sq cid nsid slba nlb deac (Keeps.refl s)
  | nvmeDatasetManagement ctrl sq cid nsid ad data => exact execNvmeDatasetManagement_keepsR ctrl sq cid nsid ad data (Keeps.refl s)
  | nvmeVerify ctrl sq cid nsid slba nlb pi => exact execNvmeVerify_keepsR ctrl sq cid nsid slba nlb pi (Keeps.refl s)
  | nvmeInvalidOpcode ctrl entry opcode => exact execNvmeInvalidOpcode_keepsR ctrl entry opcode (Keeps.refl s)
  | tagAssign => exact execTagAssign_keepsR (Keeps.refl s)
  | writePayloadData tag blocks last verifyOk => exact execWritePayloadData_keepsR tag blocks last verifyOk (Keeps.refl s)
  | readDataReady tag => exact execReadDataReady_keepsR tag (Keeps.refl s)
  | lockWaitWarning who => exact execLockWaitWarning_keepsR who (Keeps.refl s)
  | ownershipMovePass vol lastArrival => exact execOwnershipMovePass_keepsR vol lastArrival (Keeps.refl s)
  | powerEntryWindowEnd => exact execPowerEntryWindowEnd_keepsR (Keeps.refl s)
  | powerEntryDone => exact execPowerEntryDone_keepsR (Keeps.refl s)
  | ethLinkChange sub up speed fec pfc => exact execEthLinkChange_keepsR sub up speed fec pfc (Keeps.refl s)
  | arpRequest sub target => exact execArpRequest_keepsR sub target (Keeps.refl s)
  | neighborSolicitation sub target => exact execNeighborSolicitation_keepsR sub target (Keeps.refl s)
  | icmpEchoRequest sub target payload => exact execIcmpEchoRequest_keepsR sub target payload (Keeps.refl s)
  | tcpSyn sub dstPort spiIn => exact execTcpSyn_keepsR sub dstPort spiIn (Keeps.refl s)
  | nvmeTcpIcreq conn tls hdgst ddgst => exact execNvmeTcpIcreq_keepsR conn tls hdgst ddgst (Keeps.refl s)
  | espInboundPacket spi seqLo icvOk => exact execEspInboundPacket_keepsR spi seqLo icvOk (Keeps.refl s)
  | send conn bth length first last bytes => exact execSend_keepsR conn bth length first last bytes (Keeps.refl s)
  | rdmaWrite conn bth rkey va dmaLen first last mpeth bytes => exact execRdmaWrite_keepsR conn bth rkey va dmaLen first last mpeth bytes (Keeps.refl s)
  | rdmaReadRequest conn bth rkey va dmaLen => exact execRdmaReadRequest_keepsR conn bth rkey va dmaLen (Keeps.refl s)
  | rdmaReadResponse conn bth last bytes => exact execRdmaReadResponse_keepsR conn bth last bytes (Keeps.refl s)
  | acknowledge conn bth credits => exact execAcknowledge_keepsR conn bth credits (Keeps.refl s)
  | atomicAcknowledge conn bth value => exact execAtomicAcknowledge_keepsR conn bth value (Keeps.refl s)
  | compareSwap conn bth rkey va compare swap => exact execCompareSwap_keepsR conn bth rkey va compare swap (Keeps.refl s)
  | fetchAdd conn bth rkey va add => exact execFetchAdd_keepsR conn bth rkey va add (Keeps.refl s)
  | cnp conn => exact execCnp_keepsR conn (Keeps.refl s)
  | roceUnsupportedPacket conn psn service icrcBad => exact execRoceUnsupportedPacket_keepsR conn psn service icrcBad (Keeps.refl s)
  | cmReq sub cls mtu spiIn => exact execCmReq_keepsR sub cls mtu spiIn (Keeps.refl s)
  | cmRep conn => exact execCmRep_keepsR conn (Keeps.refl s)
  | cmRtu conn => exact execCmRtu_keepsR conn (Keeps.refl s)
  | cmRej conn reason => exact execCmRej_keepsR conn reason (Keeps.refl s)
  | cmDreq conn => exact execCmDreq_keepsR conn (Keeps.refl s)
  | cmDrep conn => exact execCmDrep_keepsR conn (Keeps.refl s)
  | cmMra conn => exact execCmMra_keepsR conn (Keeps.refl s)
  | contextFetchDone conn => exact execContextFetchDone_keepsR conn (Keeps.refl s)
  | retransmitTimeout conn => exact execRetransmitTimeout_keepsR conn (Keeps.refl s)
  | pendingSaExpiry handle => exact execPendingSaExpiry_keepsR handle (Keeps.refl s)
  | oldSaExpiry conn => exact execOldSaExpiry_keepsR conn (Keeps.refl s)
  | revokeDrainTimeout conn => exact execRevokeDrainTimeout_keepsR conn (Keeps.refl s)
  | regionRevokeEnd => exact execRegionRevokeEnd_keepsR (Keeps.refl s)
  | teardownDrainEnd conn => exact execTeardownDrainEnd_keepsR conn (Keeps.refl s)
  | asyncCycleStart vol => exact execAsyncCycleStart_keepsR vol (Keeps.refl s)
  | asyncCycleEnd vol => exact execAsyncCycleEnd_keepsR vol (Keeps.refl s)
  | remoteRecordAck vol arrival => exact execRemoteRecordAck_keepsR vol arrival (Keeps.refl s)
  | syncRemoteLoss vol => exact execSyncRemoteLoss_keepsR vol (Keeps.refl s)
  | bundleGatherTimeout verifyOk => exact execBundleGatherTimeout_keepsR verifyOk (Keeps.refl s)
  | coldLookupDone tag found => exact execColdLookupDone_keepsR tag found (Keeps.refl s)
  | lookasideRequest queue slot mode flags length aadLen iv srcTotal dstTotal data aad mismatch => exact execLookasideRequest_keepsR queue slot mode flags length aadLen iv srcTotal dstTotal data aad mismatch (Keeps.refl s)
  | drbgReseed => exact execDrbgReseed_keepsR (Keeps.refl s)
  | entropyHealthFail => exact execEntropyHealthFail_keepsR (Keeps.refl s)
  | coilLinesPersisted lines => exact execCoilLinesPersisted_keepsR lines (Keeps.refl s)
  | mirror line records => exact execMirror_keepsR line records (Keeps.refl s)
  | mirrorAck persisted released => exact execMirrorAck_keepsR persisted released (Keeps.refl s)
  | mirrorAckTimeout => exact execMirrorAckTimeout_keepsR (Keeps.refl s)
  | journalHeaderWrite => exact execJournalHeaderWrite_keepsR (Keeps.refl s)
  | waitingRecordAppend => exact execWaitingRecordAppend_keepsR (Keeps.refl s)
  | replayStart => exact execReplayStart_keepsR (Keeps.refl s)
  | replayResume => exact execReplayResume_keepsR (Keeps.refl s)
  | replayEnd => exact execReplayEnd_keepsR (Keeps.refl s)
  | coilFailure => exact execCoilFailure_keepsR (Keeps.refl s)
  | stripAdd seg bundles mismatch => exact execStripAdd_keepsR seg bundles mismatch (Keeps.refl s)
  | segmentSeal seg early crcOk => exact execSegmentSeal_keepsR seg early crcOk (Keeps.refl s)
  | sealAgeTimeout seg => exact execSealAgeTimeout_keepsR seg (Keeps.refl s)
  | layoutChangeEnd => exact execLayoutChangeEnd_keepsR (Keeps.refl s)
  | layoutReverseEnd => exact execLayoutReverseEnd_keepsR (Keeps.refl s)
  | absenceDeclareTimeout port => exact execAbsenceDeclareTimeout_keepsR port (Keeps.refl s)
  | queueReorder => exact execQueueReorder_keepsR (Keeps.refl s)
  | segmentReconstructDone seg mismatch => exact execSegmentReconstructDone_keepsR seg mismatch (Keeps.refl s)
  | rebuildBatchCommit => exact execRebuildBatchCommit_keepsR (Keeps.refl s)
  | rebuildEnd port => exact execRebuildEnd_keepsR port (Keeps.refl s)
  | checkpointTimer => exact execCheckpointTimer_keepsR (Keeps.refl s)
  | checkpointLoad valid => exact execCheckpointLoad_keepsR valid (Keeps.refl s)
  | gcBatchStart victims => exact execGcBatchStart_keepsR victims (Keeps.refl s)
  | gcCopyDone => exact execGcCopyDone_keepsR (Keeps.refl s)
  | gcMapCommit => exact execGcMapCommit_keepsR (Keeps.refl s)
  | gcErasePending => exact execGcErasePending_keepsR (Keeps.refl s)
  | bandFree band => exact execBandFree_keepsR band (Keeps.refl s)
  | patrolRead => exact execPatrolRead_keepsR (Keeps.refl s)
  | patrolOverrun => exact execPatrolOverrun_keepsR (Keeps.refl s)
  | patrolProgressSave => exact execPatrolProgressSave_keepsR (Keeps.refl s)
  | readDisturbVerify port block => exact execReadDisturbVerify_keepsR port block (Keeps.refl s)
  | wearSpreadTimeout => exact execWearSpreadTimeout_keepsR (Keeps.refl s)
  | packTempSample => exact execPackTempSample_keepsR (Keeps.refl s)
  | stakeLinkTrained port => exact execStakeLinkTrained_keepsR port (Keeps.refl s)
  | stakeTrainingFailed port => exact execStakeTrainingFailed_keepsR port (Keeps.refl s)
  | stakeTransactionFrame port bytes => exact execStakeTransactionFrame_keepsR port bytes (Keeps.refl s)
  | stakeAck port seq => exact execStakeAck_keepsR port seq (Keeps.refl s)
  | stakeNak port seq => exact execStakeNak_keepsR port seq (Keeps.refl s)
  | stakeCredit port vc frames units => exact execStakeCredit_keepsR port vc frames units (Keeps.refl s)
  | stakeKeepAlive port => exact execStakeKeepAlive_keepsR port (Keeps.refl s)
  | stakeKeepAliveDue port => exact execStakeKeepAliveDue_keepsR port (Keeps.refl s)
  | stakeRxIdleTimeout port => exact execStakeRxIdleTimeout_keepsR port (Keeps.refl s)
  | stakeRecoveryTimeout port => exact execStakeRecoveryTimeout_keepsR port (Keeps.refl s)
  | stakeReplayTimeout port => exact execStakeReplayTimeout_keepsR port (Keeps.refl s)
  | stakeResponseTimeout port tag => exact execStakeResponseTimeout_keepsR port tag (Keeps.refl s)
  | identResponse port tag status ident => exact execIdentResponse_keepsR port tag status ident (Keeps.refl s)
  | geomResponse port tag status geom => exact execGeomResponse_keepsR port tag status geom (Keeps.refl s)
  | readResponse port tag status value checkOk => exact execReadResponse_keepsR port tag status value checkOk (Keeps.refl s)
  | programResponse port tag status value => exact execProgramResponse_keepsR port tag status value (Keeps.refl s)
  | eraseResponse port tag status value => exact execEraseResponse_keepsR port tag status value (Keeps.refl s)
  | healthResponse port tag status failed => exact execHealthResponse_keepsR port tag status failed (Keeps.refl s)
  | tempResponse port tag status temp => exact execTempResponse_keepsR port tag status temp (Keeps.refl s)
  | fwMeasureResponse port tag status hash version svn slot => exact execFwMeasureResponse_keepsR port tag status hash version svn slot (Keeps.refl s)
  | fwLoadResponse port tag status => exact execFwLoadResponse_keepsR port tag status (Keeps.refl s)
  | fencePortResponse port tag status value => exact execFencePortResponse_keepsR port tag status value (Keeps.refl s)
  | setEpochResponse port tag status value => exact execSetEpochResponse_keepsR port tag status value (Keeps.refl s)
  | hello hello => exact execHello_keepsR hello (Keeps.refl s)
  | confirm sigOk => exact execConfirm_keepsR sigOk (Keeps.refl s)
  | unpair reason => exact execUnpair_keepsR reason (Keeps.refl s)
  | peerPlem packet block => exact execPeerPlem_keepsR packet block (Keeps.refl s)
  | carry packet block => exact execCarry_keepsR packet block (Keeps.refl s)
  | keyXfer kcv => exact execKeyXfer_keepsR kcv (Keeps.refl s)
  | fwdCmd tag gen cmd => exact execFwdCmd_keepsR tag gen cmd (Keeps.refl s)
  | packRelay port block offset length slc => exact execPackRelay_keepsR port block offset length slc (Keeps.refl s)
  | refTake bundle position => exact execRefTake_keepsR bundle position (Keeps.refl s)
  | authState asn decision => exact execAuthState_keepsR asn decision (Keeps.refl s)
  | peerHealth health => exact execPeerHealth_keepsR health (Keeps.refl s)
  | handoff asn digest => exact execHandoff_keepsR asn digest (Keeps.refl s)
  | takeoverT t => exact execTakeoverT_keepsR t (Keeps.refl s)
  | peerProtocolError => exact execPeerProtocolError_keepsR (Keeps.refl s)
  | pairingRetry => exact execPairingRetry_keepsR (Keeps.refl s)
  | healthSend => exact execHealthSend_keepsR (Keeps.refl s)
  | healthAbsent => exact execHealthAbsent_keepsR (Keeps.refl s)
  | digestBoundary => exact execDigestBoundary_keepsR (Keeps.refl s)
  | tileKnownAnswerTest tile pass => exact execTileKnownAnswerTest_keepsR tile pass (Keeps.refl s)
  | peerKeyPhaseChange => exact execPeerKeyPhaseChange_keepsR (Keeps.refl s)
  | peerPathLoss => exact execPeerPathLoss_keepsR (Keeps.refl s)
  | holdInFall => exact execHoldInFall_keepsR (Keeps.refl s)
  | holdInRise => exact execHoldInRise_keepsR (Keeps.refl s)
  | handleTake => exact execHandleTake_keepsR (Keeps.refl s)
  | holderStuck => exact execHolderStuck_keepsR (Keeps.refl s)
  | peerSilent => exact execPeerSilent_keepsR (Keeps.refl s)
  | peerSevered => exact execPeerSevered_keepsR (Keeps.refl s)
  | peerStuckClear => exact execPeerStuckClear_keepsR (Keeps.refl s)
  | outputReadbackMismatch => exact execOutputReadbackMismatch_keepsR (Keeps.refl s)
  | peerReplayEnd => exact execPeerReplayEnd_keepsR (Keeps.refl s)
  | handleTransferEnd => exact execHandleTransferEnd_keepsR (Keeps.refl s)
  | copy lane desc srcs => exact execCopy_keepsR lane desc srcs (Keeps.refl s)
  | fill lane desc => exact execFill_keepsR lane desc (Keeps.refl s)
  | fence lane desc => exact execFence_keepsR lane desc (Keeps.refl s)
  | flush lane desc => exact execFlush_keepsR lane desc (Keeps.refl s)
  | burstGrant requests age => exact execBurstGrant_keepsR requests age (Keeps.refl s)
  | writesArrived lane count => exact execWritesArrived_keepsR lane count (Keeps.refl s)
  | paceRequestResume lane => exact execPaceRequestResume_keepsR lane (Keeps.refl s)
  | paceTimeout lane => exact execPaceTimeout_keepsR lane (Keeps.refl s)
  | dmvSvcCfgWrite lane value => exact execDmvSvcCfgWrite_keepsR lane value (Keeps.refl s)
  | dmvSvcTailDoorbell lane value => exact execDmvSvcTailDoorbell_keepsR lane value (Keeps.refl s)
  | dmvSvcHeadDoorbell lane value => exact execDmvSvcHeadDoorbell_keepsR lane value (Keeps.refl s)
  | mapCacheRead addr => exact execMapCacheRead_keepsR addr (Keeps.refl s)
  | mapCacheFillDone addr => exact execMapCacheFillDone_keepsR addr (Keeps.refl s)
  | mapCacheWrite addr bytes => exact execMapCacheWrite_keepsR addr bytes (Keeps.refl s)
  | mchPreloadCtrlWrite addr value => exact execMchPreloadCtrlWrite_keepsR addr value (Keeps.refl s)
  | mchWayLockWrite mask => exact execMchWayLockWrite_keepsR mask (Keeps.refl s)
  | invAll => exact execInvAll_keepsR (Keeps.refl s)
  | mapLookasideInsert kind object page frame pinned => exact execMapLookasideInsert_keepsR kind object page frame pinned (Keeps.refl s)
  | mapLookasideRemove kind object page => exact execMapLookasideRemove_keepsR kind object page (Keeps.refl s)
  | mapLookasideLookup kind object page => exact execMapLookasideLookup_keepsR kind object page (Keeps.refl s)
  | wvmStart => exact execWvmStart_keepsR (Keeps.refl s)
  | loopTick => exact execLoopTick_keepsR (Keeps.refl s)
  | sensorSampleArrival code inst value => exact execSensorSampleArrival_keepsR code inst value (Keeps.refl s)
  | sensorStale loop => exact execSensorStale_keepsR loop (Keeps.refl s)
  | injectionEnd loop => exact execInjectionEnd_keepsR loop (Keeps.refl s)
  | captureTrigger => exact execCaptureTrigger_keepsR (Keeps.refl s)
  | thermalSensorSample readings => exact execThermalSensorSample_keepsR readings (Keeps.refl s)
  | fastSamplingExit => exact execFastSamplingExit_keepsR (Keeps.refl s)
  | watchdogKick core => exact execWatchdogKick_keepsR core (Keeps.refl s)
  | watchdogExpiry core => exact execWatchdogExpiry_keepsR core (Keeps.refl s)
  | watchdogParkWrite core park => exact execWatchdogParkWrite_keepsR core park (Keeps.refl s)
  | parkedCoreExecutes core => exact execParkedCoreExecutes_keepsR core (Keeps.refl s)
  | configScrubPass mismatch => exact execConfigScrubPass_keepsR mismatch (Keeps.refl s)
  | hamperScrubRead line symbols => exact execHamperScrubRead_keepsR line symbols (Keeps.refl s)
  | failSilentDecision cls code => exact execFailSilentDecision_keepsR cls code (Keeps.refl s)
  | failSilentCauseRecord => exact execFailSilentCauseRecord_keepsR (Keeps.refl s)
  | eventNotice code value => exact execEventNotice_keepsR code value (Keeps.refl s)
  | epochEnd => exact execEpochEnd_keepsR (Keeps.refl s)
  | startMarker => exact execStartMarker_keepsR (Keeps.refl s)
  | hamperAccess src write addr bytes => exact execHamperAccess_keepsR src write addr bytes (Keeps.refl s)
  | rimPost ring core entry => exact execRimPost_keepsR ring core entry (Keeps.refl s)
  | rimTake ring => exact execRimTake_keepsR ring (Keeps.refl s)
  | registerWrite offset value => exact execRegisterWrite_keepsR offset value (Keeps.refl s)
  | bar0MalformedRequest write => exact execBar0MalformedRequest_keepsR write (Keeps.refl s)
  | rcRegisterRead offset => exact execRcRegisterRead_keepsR offset (Keeps.refl s)
  | loRegisterRead offset => exact execLoRegisterRead_keepsR offset (Keeps.refl s)
  | hamWinBaseWrite n value requester => exact execHamWinBaseWrite_keepsR n value requester (Keeps.refl s)
  | hamWinSizeWrite n value requester => exact execHamWinSizeWrite_keepsR n value requester (Keeps.refl s)
  | hamWinAccWrite n value requester => exact execHamWinAccWrite_keepsR n value requester (Keeps.refl s)
  | hamViolSrcWrite value => exact execHamViolSrcWrite_keepsR value (Keeps.refl s)
  | colViolAddrWrite value => exact execColViolAddrWrite_keepsR value (Keeps.refl s)
  | rlkSelWrite value => exact execRlkSelWrite_keepsR value (Keeps.refl s)
  | rlkEntryStsRead => exact execRlkEntryStsRead_keepsR (Keeps.refl s)
  | rmaConnSelWrite value => exact execRmaConnSelWrite_keepsR value (Keeps.refl s)
  | rmaConnStsRead => exact execRmaConnStsRead_keepsR (Keeps.refl s)
  | cipSlotSelWrite value => exact execCipSlotSelWrite_keepsR value (Keeps.refl s)
  | cipSlotStsRead => exact execCipSlotStsRead_keepsR (Keeps.refl s)
  | peerLinkTrained lanes => exact execPeerLinkTrained_keepsR lanes (Keeps.refl s)
  | peerLinkDown lanes => exact execPeerLinkDown_keepsR lanes (Keeps.refl s)
  | peerResponse tag status detail value bytes => exact execPeerResponse_keepsR tag status detail value bytes (Keeps.refl s)
  | beatInEdge => exact execBeatInEdge_keepsR (Keeps.refl s)
  | beatOutEdge => exact execBeatOutEdge_keepsR (Keeps.refl s)
  | refclkNotGood => exact execRefclkNotGood_keepsR (Keeps.refl s)
  | c0WriteArrivalTimeout lane => exact execC0WriteArrivalTimeout_keepsR lane (Keeps.refl s)
  | selftestComplete tiles monitors sensors => exact execSelftestComplete_keepsR tiles monitors sensors (Keeps.refl s)
  | tapInstructionUpdate ir => exact execTapInstructionUpdate_keepsR ir (Keeps.refl s)

/-- An idle step keeps what Keeps says. -/
theorem idle_keeps (s : State) : Keeps s (drainOne (refStep s)) := drainOne_keeps (refStep_keeps (Keeps.refl s))

end Sys2Proof.Machine
end

