-- ==== Sys2Proof/Laws/Ops.lean ====
section
/-! SUPPORT. What the shared operations can do, once each: counting an event, latching a cause, the fail-silent decision,
appending an audit entry, the two ways a started PLEM command runs, and what a guarded step and an engine's access do. -/

namespace Sys2Proof.Machine

/-- Two states that differ in the recorder alone: its registers and its records in Coil. -/
def OnlyRecorder (s t : State) : Prop := ∃ e r, t = { s with evr := e, nv.evrRecs := r }

/-- A state differs from itself in nothing. -/
theorem OnlyRecorder.refl (s : State) : OnlyRecorder s s := ⟨s.evr, s.nv.evrRecs, rfl⟩

/-- Recorder changes compose. -/
theorem OnlyRecorder.trans {a b c : State} (h : OnlyRecorder a b) (k : OnlyRecorder b c) : OnlyRecorder a c := by
  obtain ⟨e, r, rfl⟩ := h
  obtain ⟨e', r', rfl⟩ := k
  exact ⟨e', r', rfl⟩

/-- A change of the recorder's registers. -/
theorem OnlyRecorder.evr (s : State) (e : Evr) : OnlyRecorder s { s with evr := e } := ⟨e, s.nv.evrRecs, rfl⟩

/-- A record that falls due changes the recorder alone. -/
theorem evrRecord_only (r : EvrRec) (s : State) : OnlyRecorder s (evrRecord r s) := by
  unfold evrRecord countFigures
  dsimp only
  repeat' split
  all_goals exact ⟨_, _, rfl⟩

/-- A notice taken changes the recorder alone. -/
theorem takeNotice_only (code value time : Nat) (s : State) : OnlyRecorder s (takeNotice code value time s) := by
  have h : OnlyRecorder s (countFigures code value time s) := ⟨_, _, rfl⟩
  unfold takeNotice
  dsimp only
  split
  · exact h
  · unfold evrExtreme
    split
    · exact (h.trans (OnlyRecorder.evr _ _)).trans (evrRecord_only _ _)
    · exact h.trans (OnlyRecorder.evr _ _)

/-- An event counted changes the recorder alone. -/
theorem countEvent_only (code value : Nat) (s : State) : OnlyRecorder s (countEvent code value s) := by
  have fold : ∀ (l : List (Nat × Nat × Nat)) (t : State), OnlyRecorder s t →
      OnlyRecorder s (l.foldl (fun s n => takeNotice n.1 n.2.1 n.2.2 s) t) := by
    intro l
    induction l with
    | nil => exact fun _ h => h
    | cons n l ih => exact fun t h => ih _ (h.trans (takeNotice_only ..))
  unfold countEvent
  dsimp only
  split <;> exact fold _ _ ⟨_, _, rfl⟩

/-- A cause latched changes the cause and the flag of further causes alone. -/
theorem latchCause_only (cls code : Nat) (s : State) : ∃ c m, latchCause cls code s = { s with aon.cause := c, saf.more := m } := by
  unfold latchCause
  dsimp only
  repeat' split
  all_goals exact ⟨_, _, rfl⟩

/-- A cause latched is valid. -/
theorem latchCause_valid (cls code : Nat) (s : State) : (latchCause cls code s).aon.cause.valid = true := by
  unfold latchCause
  dsimp only
  repeat' split
  all_goals simp_all

/-- After a dangerous failure the device is fail-silent. -/
theorem failSilent_silent (cls code : Nat) (s : State) : (failSilent cls code s).saf.failSilent = true := by
  unfold failSilent
  dsimp only
  split
  · assumption
  · rfl

/-- A further failure of a fail-silent device is counted and latched, nothing else happens. -/
theorem failSilent_again (cls code : Nat) {s : State} (h : s.saf.failSilent = true) :
    failSilent cls code s = latchCause cls code (countEvent 0x104 0 s) := by
  unfold failSilent
  dsimp only
  obtain ⟨e, r, h1⟩ := countEvent_only 0x104 0 s
  obtain ⟨c, m, h2⟩ := latchCause_only cls code (countEvent 0x104 0 s)
  rw [if_pos]
  rw [h2, h1]
  exact h

/-- An entry appended stands at the end of the chain with the hash of the one before it. -/
theorem appendEntry_chain (e : AuditEntry) (s : State) :
    (appendEntry e s).nv.chain = s.nv.chain ++ [{ e with prevHash := lastHash s }] := by
  unfold appendEntry
  dsimp only
  split
  · obtain ⟨_, _, h⟩ := countEvent_only 0x030 0
      { s with nv.chain := s.nv.chain ++ [{ e with prevHash := lastHash s }], brd.nearFull := true }
    rw [h]
  · rfl

/-- A running command is the one of its ring, sequence and opcode. -/
theorem opCmd_found {s : State} {ring seq op : Nat} {c : Cmd} (h : opCmd s ring seq op = some c) :
    c ∈ s.plem.cmds ∧ c.ring = ring ∧ c.seq = seq ∧ c.opcode = op ∧ c.running = true ∧ c.taken = false := by
  unfold opCmd at h
  have h1 := List.mem_of_find?_eq_some h
  have h2 := List.find?_some h
  simp_all

/-- An unaudited command that runs completes with its decision. -/
theorem plainOp_runs {op bufOff ring seq : Nat} {f : State → Cmd → Decision} {g : Cmd → Decision → State → State} {s : State} {c : Cmd}
    (h : opCmd s ring seq op = some c) :
    plainOp op bufOff f g ring seq s =
      .next (completePlain c (f s c) (pk c bufOff 8) (if isSuccess (f s c).status then g c (f s c) s else s)) := by
  simp only [plainOp, h]

/-- An unaudited command that does not run changes nothing. -/
theorem plainOp_absent {op bufOff ring seq : Nat} {f : State → Cmd → Decision} {g : Cmd → Decision → State → State} {s : State}
    (h : opCmd s ring seq op = none) : plainOp op bufOff f g ring seq s = .next s := by
  simp only [plainOp, h]

/-- An audited command that runs goes to a free audit port with its decision. -/
theorem auditedOp_taken {op ring seq : Nat} {f : State → Cmd → Decision} {s : State} {c : Cmd} (h : opCmd s ring seq op = some c)
    (hp : s.brd.port = []) :
    auditedOp op f ring seq s = .next (markTaken c { s with brd.port := [.command c (f s c)] }) := by
  simp [auditedOp, h, hp]

/-- An audited command waits for a port that holds an earlier item. -/
theorem auditedOp_waits {op ring seq : Nat} {f : State → Cmd → Decision} {s : State} (hp : s.brd.port ≠ []) :
    auditedOp op f ring seq s = .next s := by
  unfold auditedOp
  split
  · rfl
  · rw [if_pos hp]

/-- An audited command that does not run changes nothing. -/
theorem auditedOp_absent {op ring seq : Nat} {f : State → Cmd → Decision} {s : State} (h : opCmd s ring seq op = none) :
    auditedOp op f ring seq s = .next s := by
  simp only [auditedOp, h]

/-- While the fast domains run, their steps run. -/
theorem fast_runs {s : State} (r : Result) (h : s.boot.fastStopped = false) : fast s r = r := by simp [fast, h]

/-- Once all fast activity has stopped, nothing happens. -/
theorem fast_stopped {s : State} (r : Result) (h : s.boot.fastStopped = true) : fast s r = .next s := by simp [fast, h]

/-- A front end's step runs while neither a stop nor a fail-silent decision stands. -/
theorem alive_runs {s : State} (r : Result) (h : s.boot.fastStopped = false) (hs : s.saf.failSilent = false) : alive s r = r := by
  simp [alive, h, hs]

/-- After a fail-silent decision a front end's step does nothing. -/
theorem alive_silent {s : State} (r : Result) (h : s.saf.failSilent = true) : alive s r = .next s := by simp [alive, h]

/-- An engine's step runs outside Doze too. -/
theorem engine_runs {s : State} (r : Result) (h : s.boot.fastStopped = false) (hs : s.saf.failSilent = false)
    (hd : s.pwr.doze = false) : engine s r = r := by simp [engine, h, hs, hd]

/-- In Doze an engine's step does nothing. -/
theorem engine_dozing {s : State} (r : Result) (h : s.pwr.doze = true) : engine s r = .next s := by simp [engine, h]

/-- A frame received outside Doze is taken. -/
theorem wire_runs {s : State} (r : Result) (h : s.boot.fastStopped = false) (hs : s.saf.failSilent = false)
    (hd : s.pwr.doze = false) : wire s r = r := by simp [wire, alive, h, hs, hd]

/-- A frame received in Doze is dropped and counted. -/
theorem wire_dozing {s : State} (r : Result) (h : s.boot.fastStopped = false) (hs : s.saf.failSilent = false)
    (hd : s.pwr.doze = true) : wire s r = .next { s with hfe.dozeDrops := s.hfe.dozeDrops + 1 } := by simp [wire, alive, h, hs, hd]

/-- A write that the window table gives an engine changes the Hamper alone. -/
theorem engineWrite_allowed {s : State} {a : Nat} {bytes : List Byte} (h : winAllowsRange s.ham.win 1 true a bytes.length = true) :
    engineWrite a bytes s = { s with ham.mem := memWrite s.ham.mem a bytes } := if_pos h

/-- A write outside the table is denied: the violation is captured and the engine's fault decided. -/
theorem engineWrite_denied {s : State} {a : Nat} {bytes : List Byte} (h : winAllowsRange s.ham.win 1 true a bytes.length = false) :
    engineWrite a bytes s = engineDenied (deniedHam 1 a true s) := by simp [engineWrite, h]

/-- A read that the table gives an engine, of lines that are not poisoned, meets nothing. -/
theorem engineReads_clear {s : State} {a n : Nat} (h : winAllowsRange s.ham.win 1 false a n = true) (hp : poisonedIn s a n = false) :
    engineReads a n s = none := by simp [engineReads, h, hp]

end Sys2Proof.Machine
end

