-- ==== Sys2Proof/Laws/State.lean ====
section
/-! SUPPORT. One lemma for each field of State and each named update: what the update leaves and what it writes. -/

namespace Sys2Proof.Machine

@[simp] theorem emit_pending (o : Out) (s : State) : (emit o s).pending = s.pending := rfl
@[simp] theorem emit_now (o : Out) (s : State) : (emit o s).now = s.now := rfl
@[simp] theorem emit_free (o : Out) (s : State) : (emit o s).free = s.free := rfl
@[simp] theorem emit_pins (o : Out) (s : State) : (emit o s).pins = s.pins := rfl
@[simp] theorem emit_aon (o : Out) (s : State) : (emit o s).aon = s.aon := rfl
@[simp] theorem emit_boot (o : Out) (s : State) : (emit o s).boot = s.boot := rfl
@[simp] theorem emit_pwr (o : Out) (s : State) : (emit o s).pwr = s.pwr := rfl
@[simp] theorem emit_ham (o : Out) (s : State) : (emit o s).ham = s.ham := rfl
@[simp] theorem emit_plem (o : Out) (s : State) : (emit o s).plem = s.plem := rfl
@[simp] theorem emit_brd (o : Out) (s : State) : (emit o s).brd = s.brd := rfl
@[simp] theorem emit_fw (o : Out) (s : State) : (emit o s).fw = s.fw := rfl
@[simp] theorem emit_hfe (o : Out) (s : State) : (emit o s).hfe = s.hfe := rfl
@[simp] theorem emit_rlk (o : Out) (s : State) : (emit o s).rlk = s.rlk := rfl
@[simp] theorem emit_rma (o : Out) (s : State) : (emit o s).rma = s.rma := rfl
@[simp] theorem emit_red (o : Out) (s : State) : (emit o s).red = s.red := rfl
@[simp] theorem emit_cip (o : Out) (s : State) : (emit o s).cip = s.cip := rfl
@[simp] theorem emit_col (o : Out) (s : State) : (emit o s).col = s.col := rfl
@[simp] theorem emit_lay (o : Out) (s : State) : (emit o s).lay = s.lay := rfl
@[simp] theorem emit_med (o : Out) (s : State) : (emit o s).med = s.med := rfl
@[simp] theorem emit_stk (o : Out) (s : State) : (emit o s).stk = s.stk := rfl
@[simp] theorem emit_hdl (o : Out) (s : State) : (emit o s).hdl = s.hdl := rfl
@[simp] theorem emit_dmv (o : Out) (s : State) : (emit o s).dmv = s.dmv := rfl
@[simp] theorem emit_mch (o : Out) (s : State) : (emit o s).mch = s.mch := rfl
@[simp] theorem emit_wvr (o : Out) (s : State) : (emit o s).wvr = s.wvr := rfl
@[simp] theorem emit_thm (o : Out) (s : State) : (emit o s).thm = s.thm := rfl
@[simp] theorem emit_saf (o : Out) (s : State) : (emit o s).saf = s.saf := rfl
@[simp] theorem emit_evr (o : Out) (s : State) : (emit o s).evr = s.evr := rfl
@[simp] theorem emit_regs (o : Out) (s : State) : (emit o s).regs = s.regs := rfl
@[simp] theorem emit_nv (o : Out) (s : State) : (emit o s).nv = s.nv := rfl
@[simp] theorem emit_out (o : Out) (s : State) : (emit o s).out = (s.out ++ [o]) := rfl

@[simp] theorem drewFree_pending (s : State) : (drewFree s).pending = s.pending := rfl
@[simp] theorem drewFree_out (s : State) : (drewFree s).out = s.out := rfl
@[simp] theorem drewFree_now (s : State) : (drewFree s).now = s.now := rfl
@[simp] theorem drewFree_pins (s : State) : (drewFree s).pins = s.pins := rfl
@[simp] theorem drewFree_aon (s : State) : (drewFree s).aon = s.aon := rfl
@[simp] theorem drewFree_boot (s : State) : (drewFree s).boot = s.boot := rfl
@[simp] theorem drewFree_pwr (s : State) : (drewFree s).pwr = s.pwr := rfl
@[simp] theorem drewFree_ham (s : State) : (drewFree s).ham = s.ham := rfl
@[simp] theorem drewFree_plem (s : State) : (drewFree s).plem = s.plem := rfl
@[simp] theorem drewFree_brd (s : State) : (drewFree s).brd = s.brd := rfl
@[simp] theorem drewFree_fw (s : State) : (drewFree s).fw = s.fw := rfl
@[simp] theorem drewFree_hfe (s : State) : (drewFree s).hfe = s.hfe := rfl
@[simp] theorem drewFree_rlk (s : State) : (drewFree s).rlk = s.rlk := rfl
@[simp] theorem drewFree_rma (s : State) : (drewFree s).rma = s.rma := rfl
@[simp] theorem drewFree_red (s : State) : (drewFree s).red = s.red := rfl
@[simp] theorem drewFree_cip (s : State) : (drewFree s).cip = s.cip := rfl
@[simp] theorem drewFree_col (s : State) : (drewFree s).col = s.col := rfl
@[simp] theorem drewFree_lay (s : State) : (drewFree s).lay = s.lay := rfl
@[simp] theorem drewFree_med (s : State) : (drewFree s).med = s.med := rfl
@[simp] theorem drewFree_stk (s : State) : (drewFree s).stk = s.stk := rfl
@[simp] theorem drewFree_hdl (s : State) : (drewFree s).hdl = s.hdl := rfl
@[simp] theorem drewFree_dmv (s : State) : (drewFree s).dmv = s.dmv := rfl
@[simp] theorem drewFree_mch (s : State) : (drewFree s).mch = s.mch := rfl
@[simp] theorem drewFree_wvr (s : State) : (drewFree s).wvr = s.wvr := rfl
@[simp] theorem drewFree_thm (s : State) : (drewFree s).thm = s.thm := rfl
@[simp] theorem drewFree_saf (s : State) : (drewFree s).saf = s.saf := rfl
@[simp] theorem drewFree_evr (s : State) : (drewFree s).evr = s.evr := rfl
@[simp] theorem drewFree_regs (s : State) : (drewFree s).regs = s.regs := rfl
@[simp] theorem drewFree_nv (s : State) : (drewFree s).nv = s.nv := rfl
@[simp] theorem drewFree_free (s : State) : (drewFree s).free = (s.free + 1) := rfl

@[simp] theorem refStep_pending (s : State) : (refStep s).pending = s.pending := rfl
@[simp] theorem refStep_out (s : State) : (refStep s).out = s.out := rfl
@[simp] theorem refStep_free (s : State) : (refStep s).free = s.free := rfl
@[simp] theorem refStep_pins (s : State) : (refStep s).pins = s.pins := rfl
@[simp] theorem refStep_aon (s : State) : (refStep s).aon = s.aon := rfl
@[simp] theorem refStep_boot (s : State) : (refStep s).boot = s.boot := rfl
@[simp] theorem refStep_pwr (s : State) : (refStep s).pwr = s.pwr := rfl
@[simp] theorem refStep_ham (s : State) : (refStep s).ham = s.ham := rfl
@[simp] theorem refStep_plem (s : State) : (refStep s).plem = s.plem := rfl
@[simp] theorem refStep_brd (s : State) : (refStep s).brd = s.brd := rfl
@[simp] theorem refStep_fw (s : State) : (refStep s).fw = s.fw := rfl
@[simp] theorem refStep_hfe (s : State) : (refStep s).hfe = s.hfe := rfl
@[simp] theorem refStep_rlk (s : State) : (refStep s).rlk = s.rlk := rfl
@[simp] theorem refStep_rma (s : State) : (refStep s).rma = s.rma := rfl
@[simp] theorem refStep_red (s : State) : (refStep s).red = s.red := rfl
@[simp] theorem refStep_cip (s : State) : (refStep s).cip = s.cip := rfl
@[simp] theorem refStep_col (s : State) : (refStep s).col = s.col := rfl
@[simp] theorem refStep_lay (s : State) : (refStep s).lay = s.lay := rfl
@[simp] theorem refStep_med (s : State) : (refStep s).med = s.med := rfl
@[simp] theorem refStep_stk (s : State) : (refStep s).stk = s.stk := rfl
@[simp] theorem refStep_hdl (s : State) : (refStep s).hdl = s.hdl := rfl
@[simp] theorem refStep_dmv (s : State) : (refStep s).dmv = s.dmv := rfl
@[simp] theorem refStep_mch (s : State) : (refStep s).mch = s.mch := rfl
@[simp] theorem refStep_wvr (s : State) : (refStep s).wvr = s.wvr := rfl
@[simp] theorem refStep_thm (s : State) : (refStep s).thm = s.thm := rfl
@[simp] theorem refStep_saf (s : State) : (refStep s).saf = s.saf := rfl
@[simp] theorem refStep_evr (s : State) : (refStep s).evr = s.evr := rfl
@[simp] theorem refStep_regs (s : State) : (refStep s).regs = s.regs := rfl
@[simp] theorem refStep_nv (s : State) : (refStep s).nv = s.nv := rfl
@[simp] theorem refStep_now (s : State) : (refStep s).now = (s.now + if s.boot.aonTick then 100 else 40) := rfl

@[simp] theorem drewKey_pending (s : State) : (drewKey s).pending = s.pending := rfl
@[simp] theorem drewKey_out (s : State) : (drewKey s).out = s.out := rfl
@[simp] theorem drewKey_now (s : State) : (drewKey s).now = s.now := rfl
@[simp] theorem drewKey_pins (s : State) : (drewKey s).pins = s.pins := rfl
@[simp] theorem drewKey_aon (s : State) : (drewKey s).aon = s.aon := rfl
@[simp] theorem drewKey_boot (s : State) : (drewKey s).boot = s.boot := rfl
@[simp] theorem drewKey_pwr (s : State) : (drewKey s).pwr = s.pwr := rfl
@[simp] theorem drewKey_ham (s : State) : (drewKey s).ham = s.ham := rfl
@[simp] theorem drewKey_plem (s : State) : (drewKey s).plem = s.plem := rfl
@[simp] theorem drewKey_brd (s : State) : (drewKey s).brd = s.brd := rfl
@[simp] theorem drewKey_fw (s : State) : (drewKey s).fw = s.fw := rfl
@[simp] theorem drewKey_hfe (s : State) : (drewKey s).hfe = s.hfe := rfl
@[simp] theorem drewKey_rlk (s : State) : (drewKey s).rlk = s.rlk := rfl
@[simp] theorem drewKey_rma (s : State) : (drewKey s).rma = s.rma := rfl
@[simp] theorem drewKey_red (s : State) : (drewKey s).red = s.red := rfl
@[simp] theorem drewKey_col (s : State) : (drewKey s).col = s.col := rfl
@[simp] theorem drewKey_lay (s : State) : (drewKey s).lay = s.lay := rfl
@[simp] theorem drewKey_med (s : State) : (drewKey s).med = s.med := rfl
@[simp] theorem drewKey_stk (s : State) : (drewKey s).stk = s.stk := rfl
@[simp] theorem drewKey_hdl (s : State) : (drewKey s).hdl = s.hdl := rfl
@[simp] theorem drewKey_dmv (s : State) : (drewKey s).dmv = s.dmv := rfl
@[simp] theorem drewKey_mch (s : State) : (drewKey s).mch = s.mch := rfl
@[simp] theorem drewKey_wvr (s : State) : (drewKey s).wvr = s.wvr := rfl
@[simp] theorem drewKey_thm (s : State) : (drewKey s).thm = s.thm := rfl
@[simp] theorem drewKey_saf (s : State) : (drewKey s).saf = s.saf := rfl
@[simp] theorem drewKey_evr (s : State) : (drewKey s).evr = s.evr := rfl
@[simp] theorem drewKey_regs (s : State) : (drewKey s).regs = s.regs := rfl
@[simp] theorem drewKey_nv (s : State) : (drewKey s).nv = s.nv := rfl
@[simp] theorem drewKey_free (s : State) : (drewKey s).free = (s.free + keyDraw) := rfl
@[simp] theorem drewKey_cip (s : State) : (drewKey s).cip = { s.cip with generates := s.cip.generates + 1 } := rfl

@[simp] theorem updRing_pending (n : Nat) (f : Ring → Ring) (s : State) : (updRing n f s).pending = s.pending := rfl
@[simp] theorem updRing_out (n : Nat) (f : Ring → Ring) (s : State) : (updRing n f s).out = s.out := rfl
@[simp] theorem updRing_now (n : Nat) (f : Ring → Ring) (s : State) : (updRing n f s).now = s.now := rfl
@[simp] theorem updRing_free (n : Nat) (f : Ring → Ring) (s : State) : (updRing n f s).free = s.free := rfl
@[simp] theorem updRing_pins (n : Nat) (f : Ring → Ring) (s : State) : (updRing n f s).pins = s.pins := rfl
@[simp] theorem updRing_aon (n : Nat) (f : Ring → Ring) (s : State) : (updRing n f s).aon = s.aon := rfl
@[simp] theorem updRing_boot (n : Nat) (f : Ring → Ring) (s : State) : (updRing n f s).boot = s.boot := rfl
@[simp] theorem updRing_pwr (n : Nat) (f : Ring → Ring) (s : State) : (updRing n f s).pwr = s.pwr := rfl
@[simp] theorem updRing_ham (n : Nat) (f : Ring → Ring) (s : State) : (updRing n f s).ham = s.ham := rfl
@[simp] theorem updRing_brd (n : Nat) (f : Ring → Ring) (s : State) : (updRing n f s).brd = s.brd := rfl
@[simp] theorem updRing_fw (n : Nat) (f : Ring → Ring) (s : State) : (updRing n f s).fw = s.fw := rfl
@[simp] theorem updRing_hfe (n : Nat) (f : Ring → Ring) (s : State) : (updRing n f s).hfe = s.hfe := rfl
@[simp] theorem updRing_rlk (n : Nat) (f : Ring → Ring) (s : State) : (updRing n f s).rlk = s.rlk := rfl
@[simp] theorem updRing_rma (n : Nat) (f : Ring → Ring) (s : State) : (updRing n f s).rma = s.rma := rfl
@[simp] theorem updRing_red (n : Nat) (f : Ring → Ring) (s : State) : (updRing n f s).red = s.red := rfl
@[simp] theorem updRing_cip (n : Nat) (f : Ring → Ring) (s : State) : (updRing n f s).cip = s.cip := rfl
@[simp] theorem updRing_col (n : Nat) (f : Ring → Ring) (s : State) : (updRing n f s).col = s.col := rfl
@[simp] theorem updRing_lay (n : Nat) (f : Ring → Ring) (s : State) : (updRing n f s).lay = s.lay := rfl
@[simp] theorem updRing_med (n : Nat) (f : Ring → Ring) (s : State) : (updRing n f s).med = s.med := rfl
@[simp] theorem updRing_stk (n : Nat) (f : Ring → Ring) (s : State) : (updRing n f s).stk = s.stk := rfl
@[simp] theorem updRing_hdl (n : Nat) (f : Ring → Ring) (s : State) : (updRing n f s).hdl = s.hdl := rfl
@[simp] theorem updRing_dmv (n : Nat) (f : Ring → Ring) (s : State) : (updRing n f s).dmv = s.dmv := rfl
@[simp] theorem updRing_mch (n : Nat) (f : Ring → Ring) (s : State) : (updRing n f s).mch = s.mch := rfl
@[simp] theorem updRing_wvr (n : Nat) (f : Ring → Ring) (s : State) : (updRing n f s).wvr = s.wvr := rfl
@[simp] theorem updRing_thm (n : Nat) (f : Ring → Ring) (s : State) : (updRing n f s).thm = s.thm := rfl
@[simp] theorem updRing_saf (n : Nat) (f : Ring → Ring) (s : State) : (updRing n f s).saf = s.saf := rfl
@[simp] theorem updRing_evr (n : Nat) (f : Ring → Ring) (s : State) : (updRing n f s).evr = s.evr := rfl
@[simp] theorem updRing_regs (n : Nat) (f : Ring → Ring) (s : State) : (updRing n f s).regs = s.regs := rfl
@[simp] theorem updRing_nv (n : Nat) (f : Ring → Ring) (s : State) : (updRing n f s).nv = s.nv := rfl
@[simp] theorem updRing_plem (n : Nat) (f : Ring → Ring) (s : State) :
    (updRing n f s).plem = { s.plem with rings := updAt n f s.plem.rings } := rfl

@[simp] theorem dropCmd_pending (c : Cmd) (s : State) : (dropCmd c s).pending = s.pending := rfl
@[simp] theorem dropCmd_out (c : Cmd) (s : State) : (dropCmd c s).out = s.out := rfl
@[simp] theorem dropCmd_now (c : Cmd) (s : State) : (dropCmd c s).now = s.now := rfl
@[simp] theorem dropCmd_free (c : Cmd) (s : State) : (dropCmd c s).free = s.free := rfl
@[simp] theorem dropCmd_pins (c : Cmd) (s : State) : (dropCmd c s).pins = s.pins := rfl
@[simp] theorem dropCmd_aon (c : Cmd) (s : State) : (dropCmd c s).aon = s.aon := rfl
@[simp] theorem dropCmd_boot (c : Cmd) (s : State) : (dropCmd c s).boot = s.boot := rfl
@[simp] theorem dropCmd_pwr (c : Cmd) (s : State) : (dropCmd c s).pwr = s.pwr := rfl
@[simp] theorem dropCmd_ham (c : Cmd) (s : State) : (dropCmd c s).ham = s.ham := rfl
@[simp] theorem dropCmd_brd (c : Cmd) (s : State) : (dropCmd c s).brd = s.brd := rfl
@[simp] theorem dropCmd_fw (c : Cmd) (s : State) : (dropCmd c s).fw = s.fw := rfl
@[simp] theorem dropCmd_hfe (c : Cmd) (s : State) : (dropCmd c s).hfe = s.hfe := rfl
@[simp] theorem dropCmd_rlk (c : Cmd) (s : State) : (dropCmd c s).rlk = s.rlk := rfl
@[simp] theorem dropCmd_rma (c : Cmd) (s : State) : (dropCmd c s).rma = s.rma := rfl
@[simp] theorem dropCmd_red (c : Cmd) (s : State) : (dropCmd c s).red = s.red := rfl
@[simp] theorem dropCmd_cip (c : Cmd) (s : State) : (dropCmd c s).cip = s.cip := rfl
@[simp] theorem dropCmd_col (c : Cmd) (s : State) : (dropCmd c s).col = s.col := rfl
@[simp] theorem dropCmd_lay (c : Cmd) (s : State) : (dropCmd c s).lay = s.lay := rfl
@[simp] theorem dropCmd_med (c : Cmd) (s : State) : (dropCmd c s).med = s.med := rfl
@[simp] theorem dropCmd_stk (c : Cmd) (s : State) : (dropCmd c s).stk = s.stk := rfl
@[simp] theorem dropCmd_hdl (c : Cmd) (s : State) : (dropCmd c s).hdl = s.hdl := rfl
@[simp] theorem dropCmd_dmv (c : Cmd) (s : State) : (dropCmd c s).dmv = s.dmv := rfl
@[simp] theorem dropCmd_mch (c : Cmd) (s : State) : (dropCmd c s).mch = s.mch := rfl
@[simp] theorem dropCmd_wvr (c : Cmd) (s : State) : (dropCmd c s).wvr = s.wvr := rfl
@[simp] theorem dropCmd_thm (c : Cmd) (s : State) : (dropCmd c s).thm = s.thm := rfl
@[simp] theorem dropCmd_saf (c : Cmd) (s : State) : (dropCmd c s).saf = s.saf := rfl
@[simp] theorem dropCmd_evr (c : Cmd) (s : State) : (dropCmd c s).evr = s.evr := rfl
@[simp] theorem dropCmd_regs (c : Cmd) (s : State) : (dropCmd c s).regs = s.regs := rfl
@[simp] theorem dropCmd_nv (c : Cmd) (s : State) : (dropCmd c s).nv = s.nv := rfl
@[simp] theorem dropCmd_plem (c : Cmd) (s : State) :
    (dropCmd c s).plem = { s.plem with cmds := s.plem.cmds.filter fun x => x.uid != c.uid } := rfl

@[simp] theorem updTag_pending (i : Nat) (f : Tag → Tag) (s : State) : (updTag i f s).pending = s.pending := rfl
@[simp] theorem updTag_out (i : Nat) (f : Tag → Tag) (s : State) : (updTag i f s).out = s.out := rfl
@[simp] theorem updTag_now (i : Nat) (f : Tag → Tag) (s : State) : (updTag i f s).now = s.now := rfl
@[simp] theorem updTag_free (i : Nat) (f : Tag → Tag) (s : State) : (updTag i f s).free = s.free := rfl
@[simp] theorem updTag_pins (i : Nat) (f : Tag → Tag) (s : State) : (updTag i f s).pins = s.pins := rfl
@[simp] theorem updTag_aon (i : Nat) (f : Tag → Tag) (s : State) : (updTag i f s).aon = s.aon := rfl
@[simp] theorem updTag_boot (i : Nat) (f : Tag → Tag) (s : State) : (updTag i f s).boot = s.boot := rfl
@[simp] theorem updTag_pwr (i : Nat) (f : Tag → Tag) (s : State) : (updTag i f s).pwr = s.pwr := rfl
@[simp] theorem updTag_ham (i : Nat) (f : Tag → Tag) (s : State) : (updTag i f s).ham = s.ham := rfl
@[simp] theorem updTag_plem (i : Nat) (f : Tag → Tag) (s : State) : (updTag i f s).plem = s.plem := rfl
@[simp] theorem updTag_brd (i : Nat) (f : Tag → Tag) (s : State) : (updTag i f s).brd = s.brd := rfl
@[simp] theorem updTag_fw (i : Nat) (f : Tag → Tag) (s : State) : (updTag i f s).fw = s.fw := rfl
@[simp] theorem updTag_rlk (i : Nat) (f : Tag → Tag) (s : State) : (updTag i f s).rlk = s.rlk := rfl
@[simp] theorem updTag_rma (i : Nat) (f : Tag → Tag) (s : State) : (updTag i f s).rma = s.rma := rfl
@[simp] theorem updTag_red (i : Nat) (f : Tag → Tag) (s : State) : (updTag i f s).red = s.red := rfl
@[simp] theorem updTag_cip (i : Nat) (f : Tag → Tag) (s : State) : (updTag i f s).cip = s.cip := rfl
@[simp] theorem updTag_col (i : Nat) (f : Tag → Tag) (s : State) : (updTag i f s).col = s.col := rfl
@[simp] theorem updTag_lay (i : Nat) (f : Tag → Tag) (s : State) : (updTag i f s).lay = s.lay := rfl
@[simp] theorem updTag_med (i : Nat) (f : Tag → Tag) (s : State) : (updTag i f s).med = s.med := rfl
@[simp] theorem updTag_stk (i : Nat) (f : Tag → Tag) (s : State) : (updTag i f s).stk = s.stk := rfl
@[simp] theorem updTag_hdl (i : Nat) (f : Tag → Tag) (s : State) : (updTag i f s).hdl = s.hdl := rfl
@[simp] theorem updTag_dmv (i : Nat) (f : Tag → Tag) (s : State) : (updTag i f s).dmv = s.dmv := rfl
@[simp] theorem updTag_mch (i : Nat) (f : Tag → Tag) (s : State) : (updTag i f s).mch = s.mch := rfl
@[simp] theorem updTag_wvr (i : Nat) (f : Tag → Tag) (s : State) : (updTag i f s).wvr = s.wvr := rfl
@[simp] theorem updTag_thm (i : Nat) (f : Tag → Tag) (s : State) : (updTag i f s).thm = s.thm := rfl
@[simp] theorem updTag_saf (i : Nat) (f : Tag → Tag) (s : State) : (updTag i f s).saf = s.saf := rfl
@[simp] theorem updTag_evr (i : Nat) (f : Tag → Tag) (s : State) : (updTag i f s).evr = s.evr := rfl
@[simp] theorem updTag_regs (i : Nat) (f : Tag → Tag) (s : State) : (updTag i f s).regs = s.regs := rfl
@[simp] theorem updTag_nv (i : Nat) (f : Tag → Tag) (s : State) : (updTag i f s).nv = s.nv := rfl
@[simp] theorem updTag_hfe (i : Nat) (f : Tag → Tag) (s : State) :
    (updTag i f s).hfe = { s.hfe with tags := updWhere (fun t => t.idx == i) f s.hfe.tags } := rfl

@[simp] theorem updCtrl_pending (id : Nat) (f : Ctrl → Ctrl) (s : State) : (updCtrl id f s).pending = s.pending := rfl
@[simp] theorem updCtrl_out (id : Nat) (f : Ctrl → Ctrl) (s : State) : (updCtrl id f s).out = s.out := rfl
@[simp] theorem updCtrl_now (id : Nat) (f : Ctrl → Ctrl) (s : State) : (updCtrl id f s).now = s.now := rfl
@[simp] theorem updCtrl_free (id : Nat) (f : Ctrl → Ctrl) (s : State) : (updCtrl id f s).free = s.free := rfl
@[simp] theorem updCtrl_pins (id : Nat) (f : Ctrl → Ctrl) (s : State) : (updCtrl id f s).pins = s.pins := rfl
@[simp] theorem updCtrl_aon (id : Nat) (f : Ctrl → Ctrl) (s : State) : (updCtrl id f s).aon = s.aon := rfl
@[simp] theorem updCtrl_boot (id : Nat) (f : Ctrl → Ctrl) (s : State) : (updCtrl id f s).boot = s.boot := rfl
@[simp] theorem updCtrl_pwr (id : Nat) (f : Ctrl → Ctrl) (s : State) : (updCtrl id f s).pwr = s.pwr := rfl
@[simp] theorem updCtrl_ham (id : Nat) (f : Ctrl → Ctrl) (s : State) : (updCtrl id f s).ham = s.ham := rfl
@[simp] theorem updCtrl_plem (id : Nat) (f : Ctrl → Ctrl) (s : State) : (updCtrl id f s).plem = s.plem := rfl
@[simp] theorem updCtrl_brd (id : Nat) (f : Ctrl → Ctrl) (s : State) : (updCtrl id f s).brd = s.brd := rfl
@[simp] theorem updCtrl_fw (id : Nat) (f : Ctrl → Ctrl) (s : State) : (updCtrl id f s).fw = s.fw := rfl
@[simp] theorem updCtrl_rlk (id : Nat) (f : Ctrl → Ctrl) (s : State) : (updCtrl id f s).rlk = s.rlk := rfl
@[simp] theorem updCtrl_rma (id : Nat) (f : Ctrl → Ctrl) (s : State) : (updCtrl id f s).rma = s.rma := rfl
@[simp] theorem updCtrl_red (id : Nat) (f : Ctrl → Ctrl) (s : State) : (updCtrl id f s).red = s.red := rfl
@[simp] theorem updCtrl_cip (id : Nat) (f : Ctrl → Ctrl) (s : State) : (updCtrl id f s).cip = s.cip := rfl
@[simp] theorem updCtrl_col (id : Nat) (f : Ctrl → Ctrl) (s : State) : (updCtrl id f s).col = s.col := rfl
@[simp] theorem updCtrl_lay (id : Nat) (f : Ctrl → Ctrl) (s : State) : (updCtrl id f s).lay = s.lay := rfl
@[simp] theorem updCtrl_med (id : Nat) (f : Ctrl → Ctrl) (s : State) : (updCtrl id f s).med = s.med := rfl
@[simp] theorem updCtrl_stk (id : Nat) (f : Ctrl → Ctrl) (s : State) : (updCtrl id f s).stk = s.stk := rfl
@[simp] theorem updCtrl_hdl (id : Nat) (f : Ctrl → Ctrl) (s : State) : (updCtrl id f s).hdl = s.hdl := rfl
@[simp] theorem updCtrl_dmv (id : Nat) (f : Ctrl → Ctrl) (s : State) : (updCtrl id f s).dmv = s.dmv := rfl
@[simp] theorem updCtrl_mch (id : Nat) (f : Ctrl → Ctrl) (s : State) : (updCtrl id f s).mch = s.mch := rfl
@[simp] theorem updCtrl_wvr (id : Nat) (f : Ctrl → Ctrl) (s : State) : (updCtrl id f s).wvr = s.wvr := rfl
@[simp] theorem updCtrl_thm (id : Nat) (f : Ctrl → Ctrl) (s : State) : (updCtrl id f s).thm = s.thm := rfl
@[simp] theorem updCtrl_saf (id : Nat) (f : Ctrl → Ctrl) (s : State) : (updCtrl id f s).saf = s.saf := rfl
@[simp] theorem updCtrl_evr (id : Nat) (f : Ctrl → Ctrl) (s : State) : (updCtrl id f s).evr = s.evr := rfl
@[simp] theorem updCtrl_regs (id : Nat) (f : Ctrl → Ctrl) (s : State) : (updCtrl id f s).regs = s.regs := rfl
@[simp] theorem updCtrl_nv (id : Nat) (f : Ctrl → Ctrl) (s : State) : (updCtrl id f s).nv = s.nv := rfl
@[simp] theorem updCtrl_hfe (id : Nat) (f : Ctrl → Ctrl) (s : State) :
    (updCtrl id f s).hfe = { s.hfe with ctrls := updWhere (fun c => c.id == id) f s.hfe.ctrls } := rfl

@[simp] theorem updPort_pending (n : Nat) (f : Port → Port) (s : State) : (updPort n f s).pending = s.pending := rfl
@[simp] theorem updPort_out (n : Nat) (f : Port → Port) (s : State) : (updPort n f s).out = s.out := rfl
@[simp] theorem updPort_now (n : Nat) (f : Port → Port) (s : State) : (updPort n f s).now = s.now := rfl
@[simp] theorem updPort_free (n : Nat) (f : Port → Port) (s : State) : (updPort n f s).free = s.free := rfl
@[simp] theorem updPort_pins (n : Nat) (f : Port → Port) (s : State) : (updPort n f s).pins = s.pins := rfl
@[simp] theorem updPort_aon (n : Nat) (f : Port → Port) (s : State) : (updPort n f s).aon = s.aon := rfl
@[simp] theorem updPort_boot (n : Nat) (f : Port → Port) (s : State) : (updPort n f s).boot = s.boot := rfl
@[simp] theorem updPort_pwr (n : Nat) (f : Port → Port) (s : State) : (updPort n f s).pwr = s.pwr := rfl
@[simp] theorem updPort_ham (n : Nat) (f : Port → Port) (s : State) : (updPort n f s).ham = s.ham := rfl
@[simp] theorem updPort_plem (n : Nat) (f : Port → Port) (s : State) : (updPort n f s).plem = s.plem := rfl
@[simp] theorem updPort_brd (n : Nat) (f : Port → Port) (s : State) : (updPort n f s).brd = s.brd := rfl
@[simp] theorem updPort_fw (n : Nat) (f : Port → Port) (s : State) : (updPort n f s).fw = s.fw := rfl
@[simp] theorem updPort_hfe (n : Nat) (f : Port → Port) (s : State) : (updPort n f s).hfe = s.hfe := rfl
@[simp] theorem updPort_rlk (n : Nat) (f : Port → Port) (s : State) : (updPort n f s).rlk = s.rlk := rfl
@[simp] theorem updPort_rma (n : Nat) (f : Port → Port) (s : State) : (updPort n f s).rma = s.rma := rfl
@[simp] theorem updPort_red (n : Nat) (f : Port → Port) (s : State) : (updPort n f s).red = s.red := rfl
@[simp] theorem updPort_cip (n : Nat) (f : Port → Port) (s : State) : (updPort n f s).cip = s.cip := rfl
@[simp] theorem updPort_col (n : Nat) (f : Port → Port) (s : State) : (updPort n f s).col = s.col := rfl
@[simp] theorem updPort_lay (n : Nat) (f : Port → Port) (s : State) : (updPort n f s).lay = s.lay := rfl
@[simp] theorem updPort_med (n : Nat) (f : Port → Port) (s : State) : (updPort n f s).med = s.med := rfl
@[simp] theorem updPort_hdl (n : Nat) (f : Port → Port) (s : State) : (updPort n f s).hdl = s.hdl := rfl
@[simp] theorem updPort_dmv (n : Nat) (f : Port → Port) (s : State) : (updPort n f s).dmv = s.dmv := rfl
@[simp] theorem updPort_mch (n : Nat) (f : Port → Port) (s : State) : (updPort n f s).mch = s.mch := rfl
@[simp] theorem updPort_wvr (n : Nat) (f : Port → Port) (s : State) : (updPort n f s).wvr = s.wvr := rfl
@[simp] theorem updPort_thm (n : Nat) (f : Port → Port) (s : State) : (updPort n f s).thm = s.thm := rfl
@[simp] theorem updPort_saf (n : Nat) (f : Port → Port) (s : State) : (updPort n f s).saf = s.saf := rfl
@[simp] theorem updPort_evr (n : Nat) (f : Port → Port) (s : State) : (updPort n f s).evr = s.evr := rfl
@[simp] theorem updPort_regs (n : Nat) (f : Port → Port) (s : State) : (updPort n f s).regs = s.regs := rfl
@[simp] theorem updPort_nv (n : Nat) (f : Port → Port) (s : State) : (updPort n f s).nv = s.nv := rfl
@[simp] theorem updPort_stk (n : Nat) (f : Port → Port) (s : State) :
    (updPort n f s).stk = { s.stk with ports := updAt n f s.stk.ports } := rfl

@[simp] theorem updConn_pending (n : Nat) (f : Conn → Conn) (s : State) : (updConn n f s).pending = s.pending := rfl
@[simp] theorem updConn_out (n : Nat) (f : Conn → Conn) (s : State) : (updConn n f s).out = s.out := rfl
@[simp] theorem updConn_now (n : Nat) (f : Conn → Conn) (s : State) : (updConn n f s).now = s.now := rfl
@[simp] theorem updConn_free (n : Nat) (f : Conn → Conn) (s : State) : (updConn n f s).free = s.free := rfl
@[simp] theorem updConn_pins (n : Nat) (f : Conn → Conn) (s : State) : (updConn n f s).pins = s.pins := rfl
@[simp] theorem updConn_aon (n : Nat) (f : Conn → Conn) (s : State) : (updConn n f s).aon = s.aon := rfl
@[simp] theorem updConn_boot (n : Nat) (f : Conn → Conn) (s : State) : (updConn n f s).boot = s.boot := rfl
@[simp] theorem updConn_pwr (n : Nat) (f : Conn → Conn) (s : State) : (updConn n f s).pwr = s.pwr := rfl
@[simp] theorem updConn_ham (n : Nat) (f : Conn → Conn) (s : State) : (updConn n f s).ham = s.ham := rfl
@[simp] theorem updConn_plem (n : Nat) (f : Conn → Conn) (s : State) : (updConn n f s).plem = s.plem := rfl
@[simp] theorem updConn_brd (n : Nat) (f : Conn → Conn) (s : State) : (updConn n f s).brd = s.brd := rfl
@[simp] theorem updConn_fw (n : Nat) (f : Conn → Conn) (s : State) : (updConn n f s).fw = s.fw := rfl
@[simp] theorem updConn_hfe (n : Nat) (f : Conn → Conn) (s : State) : (updConn n f s).hfe = s.hfe := rfl
@[simp] theorem updConn_rlk (n : Nat) (f : Conn → Conn) (s : State) : (updConn n f s).rlk = s.rlk := rfl
@[simp] theorem updConn_red (n : Nat) (f : Conn → Conn) (s : State) : (updConn n f s).red = s.red := rfl
@[simp] theorem updConn_cip (n : Nat) (f : Conn → Conn) (s : State) : (updConn n f s).cip = s.cip := rfl
@[simp] theorem updConn_col (n : Nat) (f : Conn → Conn) (s : State) : (updConn n f s).col = s.col := rfl
@[simp] theorem updConn_lay (n : Nat) (f : Conn → Conn) (s : State) : (updConn n f s).lay = s.lay := rfl
@[simp] theorem updConn_med (n : Nat) (f : Conn → Conn) (s : State) : (updConn n f s).med = s.med := rfl
@[simp] theorem updConn_stk (n : Nat) (f : Conn → Conn) (s : State) : (updConn n f s).stk = s.stk := rfl
@[simp] theorem updConn_hdl (n : Nat) (f : Conn → Conn) (s : State) : (updConn n f s).hdl = s.hdl := rfl
@[simp] theorem updConn_dmv (n : Nat) (f : Conn → Conn) (s : State) : (updConn n f s).dmv = s.dmv := rfl
@[simp] theorem updConn_mch (n : Nat) (f : Conn → Conn) (s : State) : (updConn n f s).mch = s.mch := rfl
@[simp] theorem updConn_wvr (n : Nat) (f : Conn → Conn) (s : State) : (updConn n f s).wvr = s.wvr := rfl
@[simp] theorem updConn_thm (n : Nat) (f : Conn → Conn) (s : State) : (updConn n f s).thm = s.thm := rfl
@[simp] theorem updConn_saf (n : Nat) (f : Conn → Conn) (s : State) : (updConn n f s).saf = s.saf := rfl
@[simp] theorem updConn_evr (n : Nat) (f : Conn → Conn) (s : State) : (updConn n f s).evr = s.evr := rfl
@[simp] theorem updConn_regs (n : Nat) (f : Conn → Conn) (s : State) : (updConn n f s).regs = s.regs := rfl
@[simp] theorem updConn_nv (n : Nat) (f : Conn → Conn) (s : State) : (updConn n f s).nv = s.nv := rfl
@[simp] theorem updConn_rma (n : Nat) (f : Conn → Conn) (s : State) :
    (updConn n f s).rma = { s.rma with conns := updWhere (fun c => c.num == n) f s.rma.conns } := rfl

@[simp] theorem updRepl_pending (vol : Nat) (f : Repl → Repl) (s : State) : (updRepl vol f s).pending = s.pending := rfl
@[simp] theorem updRepl_out (vol : Nat) (f : Repl → Repl) (s : State) : (updRepl vol f s).out = s.out := rfl
@[simp] theorem updRepl_now (vol : Nat) (f : Repl → Repl) (s : State) : (updRepl vol f s).now = s.now := rfl
@[simp] theorem updRepl_free (vol : Nat) (f : Repl → Repl) (s : State) : (updRepl vol f s).free = s.free := rfl
@[simp] theorem updRepl_pins (vol : Nat) (f : Repl → Repl) (s : State) : (updRepl vol f s).pins = s.pins := rfl
@[simp] theorem updRepl_aon (vol : Nat) (f : Repl → Repl) (s : State) : (updRepl vol f s).aon = s.aon := rfl
@[simp] theorem updRepl_boot (vol : Nat) (f : Repl → Repl) (s : State) : (updRepl vol f s).boot = s.boot := rfl
@[simp] theorem updRepl_pwr (vol : Nat) (f : Repl → Repl) (s : State) : (updRepl vol f s).pwr = s.pwr := rfl
@[simp] theorem updRepl_ham (vol : Nat) (f : Repl → Repl) (s : State) : (updRepl vol f s).ham = s.ham := rfl
@[simp] theorem updRepl_plem (vol : Nat) (f : Repl → Repl) (s : State) : (updRepl vol f s).plem = s.plem := rfl
@[simp] theorem updRepl_brd (vol : Nat) (f : Repl → Repl) (s : State) : (updRepl vol f s).brd = s.brd := rfl
@[simp] theorem updRepl_fw (vol : Nat) (f : Repl → Repl) (s : State) : (updRepl vol f s).fw = s.fw := rfl
@[simp] theorem updRepl_hfe (vol : Nat) (f : Repl → Repl) (s : State) : (updRepl vol f s).hfe = s.hfe := rfl
@[simp] theorem updRepl_rlk (vol : Nat) (f : Repl → Repl) (s : State) : (updRepl vol f s).rlk = s.rlk := rfl
@[simp] theorem updRepl_red (vol : Nat) (f : Repl → Repl) (s : State) : (updRepl vol f s).red = s.red := rfl
@[simp] theorem updRepl_cip (vol : Nat) (f : Repl → Repl) (s : State) : (updRepl vol f s).cip = s.cip := rfl
@[simp] theorem updRepl_col (vol : Nat) (f : Repl → Repl) (s : State) : (updRepl vol f s).col = s.col := rfl
@[simp] theorem updRepl_lay (vol : Nat) (f : Repl → Repl) (s : State) : (updRepl vol f s).lay = s.lay := rfl
@[simp] theorem updRepl_med (vol : Nat) (f : Repl → Repl) (s : State) : (updRepl vol f s).med = s.med := rfl
@[simp] theorem updRepl_stk (vol : Nat) (f : Repl → Repl) (s : State) : (updRepl vol f s).stk = s.stk := rfl
@[simp] theorem updRepl_hdl (vol : Nat) (f : Repl → Repl) (s : State) : (updRepl vol f s).hdl = s.hdl := rfl
@[simp] theorem updRepl_dmv (vol : Nat) (f : Repl → Repl) (s : State) : (updRepl vol f s).dmv = s.dmv := rfl
@[simp] theorem updRepl_mch (vol : Nat) (f : Repl → Repl) (s : State) : (updRepl vol f s).mch = s.mch := rfl
@[simp] theorem updRepl_wvr (vol : Nat) (f : Repl → Repl) (s : State) : (updRepl vol f s).wvr = s.wvr := rfl
@[simp] theorem updRepl_thm (vol : Nat) (f : Repl → Repl) (s : State) : (updRepl vol f s).thm = s.thm := rfl
@[simp] theorem updRepl_saf (vol : Nat) (f : Repl → Repl) (s : State) : (updRepl vol f s).saf = s.saf := rfl
@[simp] theorem updRepl_evr (vol : Nat) (f : Repl → Repl) (s : State) : (updRepl vol f s).evr = s.evr := rfl
@[simp] theorem updRepl_regs (vol : Nat) (f : Repl → Repl) (s : State) : (updRepl vol f s).regs = s.regs := rfl
@[simp] theorem updRepl_nv (vol : Nat) (f : Repl → Repl) (s : State) : (updRepl vol f s).nv = s.nv := rfl
@[simp] theorem updRepl_rma (vol : Nat) (f : Repl → Repl) (s : State) :
    (updRepl vol f s).rma = { s.rma with repls := updWhere (fun r => r.vol == vol) f s.rma.repls } := rfl

@[simp] theorem updLane_pending (n : Nat) (f : Lane → Lane) (s : State) : (updLane n f s).pending = s.pending := rfl
@[simp] theorem updLane_out (n : Nat) (f : Lane → Lane) (s : State) : (updLane n f s).out = s.out := rfl
@[simp] theorem updLane_now (n : Nat) (f : Lane → Lane) (s : State) : (updLane n f s).now = s.now := rfl
@[simp] theorem updLane_free (n : Nat) (f : Lane → Lane) (s : State) : (updLane n f s).free = s.free := rfl
@[simp] theorem updLane_pins (n : Nat) (f : Lane → Lane) (s : State) : (updLane n f s).pins = s.pins := rfl
@[simp] theorem updLane_aon (n : Nat) (f : Lane → Lane) (s : State) : (updLane n f s).aon = s.aon := rfl
@[simp] theorem updLane_boot (n : Nat) (f : Lane → Lane) (s : State) : (updLane n f s).boot = s.boot := rfl
@[simp] theorem updLane_pwr (n : Nat) (f : Lane → Lane) (s : State) : (updLane n f s).pwr = s.pwr := rfl
@[simp] theorem updLane_ham (n : Nat) (f : Lane → Lane) (s : State) : (updLane n f s).ham = s.ham := rfl
@[simp] theorem updLane_plem (n : Nat) (f : Lane → Lane) (s : State) : (updLane n f s).plem = s.plem := rfl
@[simp] theorem updLane_brd (n : Nat) (f : Lane → Lane) (s : State) : (updLane n f s).brd = s.brd := rfl
@[simp] theorem updLane_fw (n : Nat) (f : Lane → Lane) (s : State) : (updLane n f s).fw = s.fw := rfl
@[simp] theorem updLane_hfe (n : Nat) (f : Lane → Lane) (s : State) : (updLane n f s).hfe = s.hfe := rfl
@[simp] theorem updLane_rlk (n : Nat) (f : Lane → Lane) (s : State) : (updLane n f s).rlk = s.rlk := rfl
@[simp] theorem updLane_rma (n : Nat) (f : Lane → Lane) (s : State) : (updLane n f s).rma = s.rma := rfl
@[simp] theorem updLane_red (n : Nat) (f : Lane → Lane) (s : State) : (updLane n f s).red = s.red := rfl
@[simp] theorem updLane_cip (n : Nat) (f : Lane → Lane) (s : State) : (updLane n f s).cip = s.cip := rfl
@[simp] theorem updLane_col (n : Nat) (f : Lane → Lane) (s : State) : (updLane n f s).col = s.col := rfl
@[simp] theorem updLane_lay (n : Nat) (f : Lane → Lane) (s : State) : (updLane n f s).lay = s.lay := rfl
@[simp] theorem updLane_med (n : Nat) (f : Lane → Lane) (s : State) : (updLane n f s).med = s.med := rfl
@[simp] theorem updLane_stk (n : Nat) (f : Lane → Lane) (s : State) : (updLane n f s).stk = s.stk := rfl
@[simp] theorem updLane_hdl (n : Nat) (f : Lane → Lane) (s : State) : (updLane n f s).hdl = s.hdl := rfl
@[simp] theorem updLane_mch (n : Nat) (f : Lane → Lane) (s : State) : (updLane n f s).mch = s.mch := rfl
@[simp] theorem updLane_wvr (n : Nat) (f : Lane → Lane) (s : State) : (updLane n f s).wvr = s.wvr := rfl
@[simp] theorem updLane_thm (n : Nat) (f : Lane → Lane) (s : State) : (updLane n f s).thm = s.thm := rfl
@[simp] theorem updLane_saf (n : Nat) (f : Lane → Lane) (s : State) : (updLane n f s).saf = s.saf := rfl
@[simp] theorem updLane_evr (n : Nat) (f : Lane → Lane) (s : State) : (updLane n f s).evr = s.evr := rfl
@[simp] theorem updLane_regs (n : Nat) (f : Lane → Lane) (s : State) : (updLane n f s).regs = s.regs := rfl
@[simp] theorem updLane_nv (n : Nat) (f : Lane → Lane) (s : State) : (updLane n f s).nv = s.nv := rfl
@[simp] theorem updLane_dmv (n : Nat) (f : Lane → Lane) (s : State) :
    (updLane n f s).dmv = { s.dmv with lanes := updAt n f s.dmv.lanes } := rfl

@[simp] theorem updDiscard_pending (f : Discard → Discard) (s : State) : (updDiscard f s).pending = s.pending := rfl
@[simp] theorem updDiscard_out (f : Discard → Discard) (s : State) : (updDiscard f s).out = s.out := rfl
@[simp] theorem updDiscard_now (f : Discard → Discard) (s : State) : (updDiscard f s).now = s.now := rfl
@[simp] theorem updDiscard_free (f : Discard → Discard) (s : State) : (updDiscard f s).free = s.free := rfl
@[simp] theorem updDiscard_pins (f : Discard → Discard) (s : State) : (updDiscard f s).pins = s.pins := rfl
@[simp] theorem updDiscard_aon (f : Discard → Discard) (s : State) : (updDiscard f s).aon = s.aon := rfl
@[simp] theorem updDiscard_boot (f : Discard → Discard) (s : State) : (updDiscard f s).boot = s.boot := rfl
@[simp] theorem updDiscard_pwr (f : Discard → Discard) (s : State) : (updDiscard f s).pwr = s.pwr := rfl
@[simp] theorem updDiscard_ham (f : Discard → Discard) (s : State) : (updDiscard f s).ham = s.ham := rfl
@[simp] theorem updDiscard_plem (f : Discard → Discard) (s : State) : (updDiscard f s).plem = s.plem := rfl
@[simp] theorem updDiscard_brd (f : Discard → Discard) (s : State) : (updDiscard f s).brd = s.brd := rfl
@[simp] theorem updDiscard_fw (f : Discard → Discard) (s : State) : (updDiscard f s).fw = s.fw := rfl
@[simp] theorem updDiscard_hfe (f : Discard → Discard) (s : State) : (updDiscard f s).hfe = s.hfe := rfl
@[simp] theorem updDiscard_rlk (f : Discard → Discard) (s : State) : (updDiscard f s).rlk = s.rlk := rfl
@[simp] theorem updDiscard_rma (f : Discard → Discard) (s : State) : (updDiscard f s).rma = s.rma := rfl
@[simp] theorem updDiscard_red (f : Discard → Discard) (s : State) : (updDiscard f s).red = s.red := rfl
@[simp] theorem updDiscard_cip (f : Discard → Discard) (s : State) : (updDiscard f s).cip = s.cip := rfl
@[simp] theorem updDiscard_col (f : Discard → Discard) (s : State) : (updDiscard f s).col = s.col := rfl
@[simp] theorem updDiscard_lay (f : Discard → Discard) (s : State) : (updDiscard f s).lay = s.lay := rfl
@[simp] theorem updDiscard_stk (f : Discard → Discard) (s : State) : (updDiscard f s).stk = s.stk := rfl
@[simp] theorem updDiscard_hdl (f : Discard → Discard) (s : State) : (updDiscard f s).hdl = s.hdl := rfl
@[simp] theorem updDiscard_dmv (f : Discard → Discard) (s : State) : (updDiscard f s).dmv = s.dmv := rfl
@[simp] theorem updDiscard_mch (f : Discard → Discard) (s : State) : (updDiscard f s).mch = s.mch := rfl
@[simp] theorem updDiscard_wvr (f : Discard → Discard) (s : State) : (updDiscard f s).wvr = s.wvr := rfl
@[simp] theorem updDiscard_thm (f : Discard → Discard) (s : State) : (updDiscard f s).thm = s.thm := rfl
@[simp] theorem updDiscard_saf (f : Discard → Discard) (s : State) : (updDiscard f s).saf = s.saf := rfl
@[simp] theorem updDiscard_evr (f : Discard → Discard) (s : State) : (updDiscard f s).evr = s.evr := rfl
@[simp] theorem updDiscard_regs (f : Discard → Discard) (s : State) : (updDiscard f s).regs = s.regs := rfl
@[simp] theorem updDiscard_nv (f : Discard → Discard) (s : State) : (updDiscard f s).nv = s.nv := rfl
@[simp] theorem updDiscard_med (f : Discard → Discard) (s : State) :
    (updDiscard f s).med = { s.med with discard := s.med.discard.map f } := rfl

@[simp] theorem drainAll_pending (s : State) : (drainAll s).pending = s.pending := rfl
@[simp] theorem drainAll_out (s : State) : (drainAll s).out = s.out := rfl
@[simp] theorem drainAll_now (s : State) : (drainAll s).now = s.now := rfl
@[simp] theorem drainAll_free (s : State) : (drainAll s).free = s.free := rfl
@[simp] theorem drainAll_pins (s : State) : (drainAll s).pins = s.pins := rfl
@[simp] theorem drainAll_aon (s : State) : (drainAll s).aon = s.aon := rfl
@[simp] theorem drainAll_boot (s : State) : (drainAll s).boot = s.boot := rfl
@[simp] theorem drainAll_pwr (s : State) : (drainAll s).pwr = s.pwr := rfl
@[simp] theorem drainAll_plem (s : State) : (drainAll s).plem = s.plem := rfl
@[simp] theorem drainAll_brd (s : State) : (drainAll s).brd = s.brd := rfl
@[simp] theorem drainAll_fw (s : State) : (drainAll s).fw = s.fw := rfl
@[simp] theorem drainAll_hfe (s : State) : (drainAll s).hfe = s.hfe := rfl
@[simp] theorem drainAll_rlk (s : State) : (drainAll s).rlk = s.rlk := rfl
@[simp] theorem drainAll_rma (s : State) : (drainAll s).rma = s.rma := rfl
@[simp] theorem drainAll_red (s : State) : (drainAll s).red = s.red := rfl
@[simp] theorem drainAll_cip (s : State) : (drainAll s).cip = s.cip := rfl
@[simp] theorem drainAll_col (s : State) : (drainAll s).col = s.col := rfl
@[simp] theorem drainAll_lay (s : State) : (drainAll s).lay = s.lay := rfl
@[simp] theorem drainAll_med (s : State) : (drainAll s).med = s.med := rfl
@[simp] theorem drainAll_stk (s : State) : (drainAll s).stk = s.stk := rfl
@[simp] theorem drainAll_hdl (s : State) : (drainAll s).hdl = s.hdl := rfl
@[simp] theorem drainAll_dmv (s : State) : (drainAll s).dmv = s.dmv := rfl
@[simp] theorem drainAll_wvr (s : State) : (drainAll s).wvr = s.wvr := rfl
@[simp] theorem drainAll_thm (s : State) : (drainAll s).thm = s.thm := rfl
@[simp] theorem drainAll_saf (s : State) : (drainAll s).saf = s.saf := rfl
@[simp] theorem drainAll_evr (s : State) : (drainAll s).evr = s.evr := rfl
@[simp] theorem drainAll_regs (s : State) : (drainAll s).regs = s.regs := rfl
@[simp] theorem drainAll_nv (s : State) : (drainAll s).nv = s.nv := rfl
@[simp] theorem drainAll_mch (s : State) : (drainAll s).mch = { s.mch with wt := [] } := rfl
@[simp] theorem drainAll_ham (s : State) :
    (drainAll s).ham = { s.ham with mem := s.mch.wt.foldl (fun m w => memWrite m w.1 w.2) s.ham.mem } := rfl

@[simp] theorem settleFormat_pending (s : State) : (settleFormat s).pending = s.pending := rfl
@[simp] theorem settleFormat_out (s : State) : (settleFormat s).out = s.out := rfl
@[simp] theorem settleFormat_now (s : State) : (settleFormat s).now = s.now := rfl
@[simp] theorem settleFormat_free (s : State) : (settleFormat s).free = s.free := rfl
@[simp] theorem settleFormat_pins (s : State) : (settleFormat s).pins = s.pins := rfl
@[simp] theorem settleFormat_aon (s : State) : (settleFormat s).aon = s.aon := rfl
@[simp] theorem settleFormat_boot (s : State) : (settleFormat s).boot = s.boot := rfl
@[simp] theorem settleFormat_pwr (s : State) : (settleFormat s).pwr = s.pwr := rfl
@[simp] theorem settleFormat_ham (s : State) : (settleFormat s).ham = s.ham := rfl
@[simp] theorem settleFormat_plem (s : State) : (settleFormat s).plem = s.plem := rfl
@[simp] theorem settleFormat_brd (s : State) : (settleFormat s).brd = s.brd := rfl
@[simp] theorem settleFormat_hfe (s : State) : (settleFormat s).hfe = s.hfe := rfl
@[simp] theorem settleFormat_rlk (s : State) : (settleFormat s).rlk = s.rlk := rfl
@[simp] theorem settleFormat_rma (s : State) : (settleFormat s).rma = s.rma := rfl
@[simp] theorem settleFormat_red (s : State) : (settleFormat s).red = s.red := rfl
@[simp] theorem settleFormat_cip (s : State) : (settleFormat s).cip = s.cip := rfl
@[simp] theorem settleFormat_col (s : State) : (settleFormat s).col = s.col := rfl
@[simp] theorem settleFormat_lay (s : State) : (settleFormat s).lay = s.lay := rfl
@[simp] theorem settleFormat_med (s : State) : (settleFormat s).med = s.med := rfl
@[simp] theorem settleFormat_stk (s : State) : (settleFormat s).stk = s.stk := rfl
@[simp] theorem settleFormat_hdl (s : State) : (settleFormat s).hdl = s.hdl := rfl
@[simp] theorem settleFormat_dmv (s : State) : (settleFormat s).dmv = s.dmv := rfl
@[simp] theorem settleFormat_mch (s : State) : (settleFormat s).mch = s.mch := rfl
@[simp] theorem settleFormat_wvr (s : State) : (settleFormat s).wvr = s.wvr := rfl
@[simp] theorem settleFormat_thm (s : State) : (settleFormat s).thm = s.thm := rfl
@[simp] theorem settleFormat_saf (s : State) : (settleFormat s).saf = s.saf := rfl
@[simp] theorem settleFormat_evr (s : State) : (settleFormat s).evr = s.evr := rfl
@[simp] theorem settleFormat_regs (s : State) : (settleFormat s).regs = s.regs := rfl
@[simp] theorem settleFormat_nv (s : State) : (settleFormat s).nv = { s.nv with superFormat := s.nv.format } := rfl
@[simp] theorem settleFormat_fw (s : State) : (settleFormat s).fw = { s.fw with migEnd := s.now } := rfl

@[simp] theorem takeArrival_pending (s : State) : (takeArrival s).pending = s.pending := rfl
@[simp] theorem takeArrival_out (s : State) : (takeArrival s).out = s.out := rfl
@[simp] theorem takeArrival_now (s : State) : (takeArrival s).now = s.now := rfl
@[simp] theorem takeArrival_free (s : State) : (takeArrival s).free = s.free := rfl
@[simp] theorem takeArrival_pins (s : State) : (takeArrival s).pins = s.pins := rfl
@[simp] theorem takeArrival_aon (s : State) : (takeArrival s).aon = s.aon := rfl
@[simp] theorem takeArrival_boot (s : State) : (takeArrival s).boot = s.boot := rfl
@[simp] theorem takeArrival_pwr (s : State) : (takeArrival s).pwr = s.pwr := rfl
@[simp] theorem takeArrival_ham (s : State) : (takeArrival s).ham = s.ham := rfl
@[simp] theorem takeArrival_plem (s : State) : (takeArrival s).plem = s.plem := rfl
@[simp] theorem takeArrival_brd (s : State) : (takeArrival s).brd = s.brd := rfl
@[simp] theorem takeArrival_fw (s : State) : (takeArrival s).fw = s.fw := rfl
@[simp] theorem takeArrival_rlk (s : State) : (takeArrival s).rlk = s.rlk := rfl
@[simp] theorem takeArrival_rma (s : State) : (takeArrival s).rma = s.rma := rfl
@[simp] theorem takeArrival_red (s : State) : (takeArrival s).red = s.red := rfl
@[simp] theorem takeArrival_cip (s : State) : (takeArrival s).cip = s.cip := rfl
@[simp] theorem takeArrival_col (s : State) : (takeArrival s).col = s.col := rfl
@[simp] theorem takeArrival_lay (s : State) : (takeArrival s).lay = s.lay := rfl
@[simp] theorem takeArrival_med (s : State) : (takeArrival s).med = s.med := rfl
@[simp] theorem takeArrival_stk (s : State) : (takeArrival s).stk = s.stk := rfl
@[simp] theorem takeArrival_hdl (s : State) : (takeArrival s).hdl = s.hdl := rfl
@[simp] theorem takeArrival_dmv (s : State) : (takeArrival s).dmv = s.dmv := rfl
@[simp] theorem takeArrival_mch (s : State) : (takeArrival s).mch = s.mch := rfl
@[simp] theorem takeArrival_wvr (s : State) : (takeArrival s).wvr = s.wvr := rfl
@[simp] theorem takeArrival_thm (s : State) : (takeArrival s).thm = s.thm := rfl
@[simp] theorem takeArrival_saf (s : State) : (takeArrival s).saf = s.saf := rfl
@[simp] theorem takeArrival_evr (s : State) : (takeArrival s).evr = s.evr := rfl
@[simp] theorem takeArrival_regs (s : State) : (takeArrival s).regs = s.regs := rfl
@[simp] theorem takeArrival_nv (s : State) : (takeArrival s).nv = s.nv := rfl
@[simp] theorem takeArrival_hfe (s : State) : (takeArrival s).hfe = { s.hfe with arrival := s.hfe.arrival + 1 } := rfl

@[simp] theorem releaseLock_pending (h : Holder) (s : State) : (releaseLock h s).pending = s.pending := rfl
@[simp] theorem releaseLock_out (h : Holder) (s : State) : (releaseLock h s).out = s.out := rfl
@[simp] theorem releaseLock_now (h : Holder) (s : State) : (releaseLock h s).now = s.now := rfl
@[simp] theorem releaseLock_free (h : Holder) (s : State) : (releaseLock h s).free = s.free := rfl
@[simp] theorem releaseLock_pins (h : Holder) (s : State) : (releaseLock h s).pins = s.pins := rfl
@[simp] theorem releaseLock_aon (h : Holder) (s : State) : (releaseLock h s).aon = s.aon := rfl
@[simp] theorem releaseLock_boot (h : Holder) (s : State) : (releaseLock h s).boot = s.boot := rfl
@[simp] theorem releaseLock_pwr (h : Holder) (s : State) : (releaseLock h s).pwr = s.pwr := rfl
@[simp] theorem releaseLock_ham (h : Holder) (s : State) : (releaseLock h s).ham = s.ham := rfl
@[simp] theorem releaseLock_plem (h : Holder) (s : State) : (releaseLock h s).plem = s.plem := rfl
@[simp] theorem releaseLock_brd (h : Holder) (s : State) : (releaseLock h s).brd = s.brd := rfl
@[simp] theorem releaseLock_fw (h : Holder) (s : State) : (releaseLock h s).fw = s.fw := rfl
@[simp] theorem releaseLock_hfe (h : Holder) (s : State) : (releaseLock h s).hfe = s.hfe := rfl
@[simp] theorem releaseLock_rma (h : Holder) (s : State) : (releaseLock h s).rma = s.rma := rfl
@[simp] theorem releaseLock_red (h : Holder) (s : State) : (releaseLock h s).red = s.red := rfl
@[simp] theorem releaseLock_cip (h : Holder) (s : State) : (releaseLock h s).cip = s.cip := rfl
@[simp] theorem releaseLock_col (h : Holder) (s : State) : (releaseLock h s).col = s.col := rfl
@[simp] theorem releaseLock_lay (h : Holder) (s : State) : (releaseLock h s).lay = s.lay := rfl
@[simp] theorem releaseLock_med (h : Holder) (s : State) : (releaseLock h s).med = s.med := rfl
@[simp] theorem releaseLock_stk (h : Holder) (s : State) : (releaseLock h s).stk = s.stk := rfl
@[simp] theorem releaseLock_hdl (h : Holder) (s : State) : (releaseLock h s).hdl = s.hdl := rfl
@[simp] theorem releaseLock_dmv (h : Holder) (s : State) : (releaseLock h s).dmv = s.dmv := rfl
@[simp] theorem releaseLock_mch (h : Holder) (s : State) : (releaseLock h s).mch = s.mch := rfl
@[simp] theorem releaseLock_wvr (h : Holder) (s : State) : (releaseLock h s).wvr = s.wvr := rfl
@[simp] theorem releaseLock_thm (h : Holder) (s : State) : (releaseLock h s).thm = s.thm := rfl
@[simp] theorem releaseLock_saf (h : Holder) (s : State) : (releaseLock h s).saf = s.saf := rfl
@[simp] theorem releaseLock_evr (h : Holder) (s : State) : (releaseLock h s).evr = s.evr := rfl
@[simp] theorem releaseLock_regs (h : Holder) (s : State) : (releaseLock h s).regs = s.regs := rfl
@[simp] theorem releaseLock_nv (h : Holder) (s : State) : (releaseLock h s).nv = s.nv := rfl
@[simp] theorem releaseLock_rlk (h : Holder) (s : State) :
    (releaseLock h s).rlk = { s.rlk with locks := s.rlk.locks.filter fun l => l.holder != h } := rfl

@[simp] theorem updVolume_pending (n : Nat) (f : Volume → Volume) (s : State) : (updVolume n f s).pending = s.pending := rfl
@[simp] theorem updVolume_out (n : Nat) (f : Volume → Volume) (s : State) : (updVolume n f s).out = s.out := rfl
@[simp] theorem updVolume_now (n : Nat) (f : Volume → Volume) (s : State) : (updVolume n f s).now = s.now := rfl
@[simp] theorem updVolume_free (n : Nat) (f : Volume → Volume) (s : State) : (updVolume n f s).free = s.free := rfl
@[simp] theorem updVolume_pins (n : Nat) (f : Volume → Volume) (s : State) : (updVolume n f s).pins = s.pins := rfl
@[simp] theorem updVolume_aon (n : Nat) (f : Volume → Volume) (s : State) : (updVolume n f s).aon = s.aon := rfl
@[simp] theorem updVolume_boot (n : Nat) (f : Volume → Volume) (s : State) : (updVolume n f s).boot = s.boot := rfl
@[simp] theorem updVolume_pwr (n : Nat) (f : Volume → Volume) (s : State) : (updVolume n f s).pwr = s.pwr := rfl
@[simp] theorem updVolume_ham (n : Nat) (f : Volume → Volume) (s : State) : (updVolume n f s).ham = s.ham := rfl
@[simp] theorem updVolume_plem (n : Nat) (f : Volume → Volume) (s : State) : (updVolume n f s).plem = s.plem := rfl
@[simp] theorem updVolume_brd (n : Nat) (f : Volume → Volume) (s : State) : (updVolume n f s).brd = s.brd := rfl
@[simp] theorem updVolume_fw (n : Nat) (f : Volume → Volume) (s : State) : (updVolume n f s).fw = s.fw := rfl
@[simp] theorem updVolume_hfe (n : Nat) (f : Volume → Volume) (s : State) : (updVolume n f s).hfe = s.hfe := rfl
@[simp] theorem updVolume_rlk (n : Nat) (f : Volume → Volume) (s : State) : (updVolume n f s).rlk = s.rlk := rfl
@[simp] theorem updVolume_rma (n : Nat) (f : Volume → Volume) (s : State) : (updVolume n f s).rma = s.rma := rfl
@[simp] theorem updVolume_red (n : Nat) (f : Volume → Volume) (s : State) : (updVolume n f s).red = s.red := rfl
@[simp] theorem updVolume_cip (n : Nat) (f : Volume → Volume) (s : State) : (updVolume n f s).cip = s.cip := rfl
@[simp] theorem updVolume_col (n : Nat) (f : Volume → Volume) (s : State) : (updVolume n f s).col = s.col := rfl
@[simp] theorem updVolume_lay (n : Nat) (f : Volume → Volume) (s : State) : (updVolume n f s).lay = s.lay := rfl
@[simp] theorem updVolume_med (n : Nat) (f : Volume → Volume) (s : State) : (updVolume n f s).med = s.med := rfl
@[simp] theorem updVolume_stk (n : Nat) (f : Volume → Volume) (s : State) : (updVolume n f s).stk = s.stk := rfl
@[simp] theorem updVolume_hdl (n : Nat) (f : Volume → Volume) (s : State) : (updVolume n f s).hdl = s.hdl := rfl
@[simp] theorem updVolume_dmv (n : Nat) (f : Volume → Volume) (s : State) : (updVolume n f s).dmv = s.dmv := rfl
@[simp] theorem updVolume_mch (n : Nat) (f : Volume → Volume) (s : State) : (updVolume n f s).mch = s.mch := rfl
@[simp] theorem updVolume_wvr (n : Nat) (f : Volume → Volume) (s : State) : (updVolume n f s).wvr = s.wvr := rfl
@[simp] theorem updVolume_thm (n : Nat) (f : Volume → Volume) (s : State) : (updVolume n f s).thm = s.thm := rfl
@[simp] theorem updVolume_saf (n : Nat) (f : Volume → Volume) (s : State) : (updVolume n f s).saf = s.saf := rfl
@[simp] theorem updVolume_evr (n : Nat) (f : Volume → Volume) (s : State) : (updVolume n f s).evr = s.evr := rfl
@[simp] theorem updVolume_regs (n : Nat) (f : Volume → Volume) (s : State) : (updVolume n f s).regs = s.regs := rfl
@[simp] theorem updVolume_nv (n : Nat) (f : Volume → Volume) (s : State) :
    (updVolume n f s).nv = { s.nv with volumes := updWhere (fun v => v.num == n) f s.nv.volumes } := rfl

@[simp] theorem updBand_pending (n : Nat) (f : Band → Band) (s : State) : (updBand n f s).pending = s.pending := rfl
@[simp] theorem updBand_out (n : Nat) (f : Band → Band) (s : State) : (updBand n f s).out = s.out := rfl
@[simp] theorem updBand_now (n : Nat) (f : Band → Band) (s : State) : (updBand n f s).now = s.now := rfl
@[simp] theorem updBand_free (n : Nat) (f : Band → Band) (s : State) : (updBand n f s).free = s.free := rfl
@[simp] theorem updBand_pins (n : Nat) (f : Band → Band) (s : State) : (updBand n f s).pins = s.pins := rfl
@[simp] theorem updBand_aon (n : Nat) (f : Band → Band) (s : State) : (updBand n f s).aon = s.aon := rfl
@[simp] theorem updBand_boot (n : Nat) (f : Band → Band) (s : State) : (updBand n f s).boot = s.boot := rfl
@[simp] theorem updBand_pwr (n : Nat) (f : Band → Band) (s : State) : (updBand n f s).pwr = s.pwr := rfl
@[simp] theorem updBand_ham (n : Nat) (f : Band → Band) (s : State) : (updBand n f s).ham = s.ham := rfl
@[simp] theorem updBand_plem (n : Nat) (f : Band → Band) (s : State) : (updBand n f s).plem = s.plem := rfl
@[simp] theorem updBand_brd (n : Nat) (f : Band → Band) (s : State) : (updBand n f s).brd = s.brd := rfl
@[simp] theorem updBand_fw (n : Nat) (f : Band → Band) (s : State) : (updBand n f s).fw = s.fw := rfl
@[simp] theorem updBand_hfe (n : Nat) (f : Band → Band) (s : State) : (updBand n f s).hfe = s.hfe := rfl
@[simp] theorem updBand_rlk (n : Nat) (f : Band → Band) (s : State) : (updBand n f s).rlk = s.rlk := rfl
@[simp] theorem updBand_rma (n : Nat) (f : Band → Band) (s : State) : (updBand n f s).rma = s.rma := rfl
@[simp] theorem updBand_red (n : Nat) (f : Band → Band) (s : State) : (updBand n f s).red = s.red := rfl
@[simp] theorem updBand_cip (n : Nat) (f : Band → Band) (s : State) : (updBand n f s).cip = s.cip := rfl
@[simp] theorem updBand_col (n : Nat) (f : Band → Band) (s : State) : (updBand n f s).col = s.col := rfl
@[simp] theorem updBand_lay (n : Nat) (f : Band → Band) (s : State) : (updBand n f s).lay = s.lay := rfl
@[simp] theorem updBand_med (n : Nat) (f : Band → Band) (s : State) : (updBand n f s).med = s.med := rfl
@[simp] theorem updBand_stk (n : Nat) (f : Band → Band) (s : State) : (updBand n f s).stk = s.stk := rfl
@[simp] theorem updBand_hdl (n : Nat) (f : Band → Band) (s : State) : (updBand n f s).hdl = s.hdl := rfl
@[simp] theorem updBand_dmv (n : Nat) (f : Band → Band) (s : State) : (updBand n f s).dmv = s.dmv := rfl
@[simp] theorem updBand_mch (n : Nat) (f : Band → Band) (s : State) : (updBand n f s).mch = s.mch := rfl
@[simp] theorem updBand_wvr (n : Nat) (f : Band → Band) (s : State) : (updBand n f s).wvr = s.wvr := rfl
@[simp] theorem updBand_thm (n : Nat) (f : Band → Band) (s : State) : (updBand n f s).thm = s.thm := rfl
@[simp] theorem updBand_saf (n : Nat) (f : Band → Band) (s : State) : (updBand n f s).saf = s.saf := rfl
@[simp] theorem updBand_evr (n : Nat) (f : Band → Band) (s : State) : (updBand n f s).evr = s.evr := rfl
@[simp] theorem updBand_regs (n : Nat) (f : Band → Band) (s : State) : (updBand n f s).regs = s.regs := rfl
@[simp] theorem updBand_nv (n : Nat) (f : Band → Band) (s : State) :
    (updBand n f s).nv = { s.nv with bands := updWhere (fun b => b.num == n) f s.nv.bands } := rfl

@[simp] theorem updSeg_pending (n : Nat) (f : Segment → Segment) (s : State) : (updSeg n f s).pending = s.pending := rfl
@[simp] theorem updSeg_out (n : Nat) (f : Segment → Segment) (s : State) : (updSeg n f s).out = s.out := rfl
@[simp] theorem updSeg_now (n : Nat) (f : Segment → Segment) (s : State) : (updSeg n f s).now = s.now := rfl
@[simp] theorem updSeg_free (n : Nat) (f : Segment → Segment) (s : State) : (updSeg n f s).free = s.free := rfl
@[simp] theorem updSeg_pins (n : Nat) (f : Segment → Segment) (s : State) : (updSeg n f s).pins = s.pins := rfl
@[simp] theorem updSeg_aon (n : Nat) (f : Segment → Segment) (s : State) : (updSeg n f s).aon = s.aon := rfl
@[simp] theorem updSeg_boot (n : Nat) (f : Segment → Segment) (s : State) : (updSeg n f s).boot = s.boot := rfl
@[simp] theorem updSeg_pwr (n : Nat) (f : Segment → Segment) (s : State) : (updSeg n f s).pwr = s.pwr := rfl
@[simp] theorem updSeg_ham (n : Nat) (f : Segment → Segment) (s : State) : (updSeg n f s).ham = s.ham := rfl
@[simp] theorem updSeg_plem (n : Nat) (f : Segment → Segment) (s : State) : (updSeg n f s).plem = s.plem := rfl
@[simp] theorem updSeg_brd (n : Nat) (f : Segment → Segment) (s : State) : (updSeg n f s).brd = s.brd := rfl
@[simp] theorem updSeg_fw (n : Nat) (f : Segment → Segment) (s : State) : (updSeg n f s).fw = s.fw := rfl
@[simp] theorem updSeg_hfe (n : Nat) (f : Segment → Segment) (s : State) : (updSeg n f s).hfe = s.hfe := rfl
@[simp] theorem updSeg_rlk (n : Nat) (f : Segment → Segment) (s : State) : (updSeg n f s).rlk = s.rlk := rfl
@[simp] theorem updSeg_rma (n : Nat) (f : Segment → Segment) (s : State) : (updSeg n f s).rma = s.rma := rfl
@[simp] theorem updSeg_red (n : Nat) (f : Segment → Segment) (s : State) : (updSeg n f s).red = s.red := rfl
@[simp] theorem updSeg_cip (n : Nat) (f : Segment → Segment) (s : State) : (updSeg n f s).cip = s.cip := rfl
@[simp] theorem updSeg_col (n : Nat) (f : Segment → Segment) (s : State) : (updSeg n f s).col = s.col := rfl
@[simp] theorem updSeg_lay (n : Nat) (f : Segment → Segment) (s : State) : (updSeg n f s).lay = s.lay := rfl
@[simp] theorem updSeg_med (n : Nat) (f : Segment → Segment) (s : State) : (updSeg n f s).med = s.med := rfl
@[simp] theorem updSeg_stk (n : Nat) (f : Segment → Segment) (s : State) : (updSeg n f s).stk = s.stk := rfl
@[simp] theorem updSeg_hdl (n : Nat) (f : Segment → Segment) (s : State) : (updSeg n f s).hdl = s.hdl := rfl
@[simp] theorem updSeg_dmv (n : Nat) (f : Segment → Segment) (s : State) : (updSeg n f s).dmv = s.dmv := rfl
@[simp] theorem updSeg_mch (n : Nat) (f : Segment → Segment) (s : State) : (updSeg n f s).mch = s.mch := rfl
@[simp] theorem updSeg_wvr (n : Nat) (f : Segment → Segment) (s : State) : (updSeg n f s).wvr = s.wvr := rfl
@[simp] theorem updSeg_thm (n : Nat) (f : Segment → Segment) (s : State) : (updSeg n f s).thm = s.thm := rfl
@[simp] theorem updSeg_saf (n : Nat) (f : Segment → Segment) (s : State) : (updSeg n f s).saf = s.saf := rfl
@[simp] theorem updSeg_evr (n : Nat) (f : Segment → Segment) (s : State) : (updSeg n f s).evr = s.evr := rfl
@[simp] theorem updSeg_regs (n : Nat) (f : Segment → Segment) (s : State) : (updSeg n f s).regs = s.regs := rfl
@[simp] theorem updSeg_nv (n : Nat) (f : Segment → Segment) (s : State) :
    (updSeg n f s).nv = { s.nv with segs := updWhere (fun x => x.num == n) f s.nv.segs } := rfl

@[simp] theorem updPack_pending (port identity : Nat) (f : Pack → Pack) (s : State) : (updPack port identity f s).pending = s.pending := rfl
@[simp] theorem updPack_out (port identity : Nat) (f : Pack → Pack) (s : State) : (updPack port identity f s).out = s.out := rfl
@[simp] theorem updPack_now (port identity : Nat) (f : Pack → Pack) (s : State) : (updPack port identity f s).now = s.now := rfl
@[simp] theorem updPack_free (port identity : Nat) (f : Pack → Pack) (s : State) : (updPack port identity f s).free = s.free := rfl
@[simp] theorem updPack_pins (port identity : Nat) (f : Pack → Pack) (s : State) : (updPack port identity f s).pins = s.pins := rfl
@[simp] theorem updPack_aon (port identity : Nat) (f : Pack → Pack) (s : State) : (updPack port identity f s).aon = s.aon := rfl
@[simp] theorem updPack_boot (port identity : Nat) (f : Pack → Pack) (s : State) : (updPack port identity f s).boot = s.boot := rfl
@[simp] theorem updPack_pwr (port identity : Nat) (f : Pack → Pack) (s : State) : (updPack port identity f s).pwr = s.pwr := rfl
@[simp] theorem updPack_ham (port identity : Nat) (f : Pack → Pack) (s : State) : (updPack port identity f s).ham = s.ham := rfl
@[simp] theorem updPack_plem (port identity : Nat) (f : Pack → Pack) (s : State) : (updPack port identity f s).plem = s.plem := rfl
@[simp] theorem updPack_brd (port identity : Nat) (f : Pack → Pack) (s : State) : (updPack port identity f s).brd = s.brd := rfl
@[simp] theorem updPack_fw (port identity : Nat) (f : Pack → Pack) (s : State) : (updPack port identity f s).fw = s.fw := rfl
@[simp] theorem updPack_hfe (port identity : Nat) (f : Pack → Pack) (s : State) : (updPack port identity f s).hfe = s.hfe := rfl
@[simp] theorem updPack_rlk (port identity : Nat) (f : Pack → Pack) (s : State) : (updPack port identity f s).rlk = s.rlk := rfl
@[simp] theorem updPack_rma (port identity : Nat) (f : Pack → Pack) (s : State) : (updPack port identity f s).rma = s.rma := rfl
@[simp] theorem updPack_red (port identity : Nat) (f : Pack → Pack) (s : State) : (updPack port identity f s).red = s.red := rfl
@[simp] theorem updPack_cip (port identity : Nat) (f : Pack → Pack) (s : State) : (updPack port identity f s).cip = s.cip := rfl
@[simp] theorem updPack_col (port identity : Nat) (f : Pack → Pack) (s : State) : (updPack port identity f s).col = s.col := rfl
@[simp] theorem updPack_lay (port identity : Nat) (f : Pack → Pack) (s : State) : (updPack port identity f s).lay = s.lay := rfl
@[simp] theorem updPack_med (port identity : Nat) (f : Pack → Pack) (s : State) : (updPack port identity f s).med = s.med := rfl
@[simp] theorem updPack_stk (port identity : Nat) (f : Pack → Pack) (s : State) : (updPack port identity f s).stk = s.stk := rfl
@[simp] theorem updPack_hdl (port identity : Nat) (f : Pack → Pack) (s : State) : (updPack port identity f s).hdl = s.hdl := rfl
@[simp] theorem updPack_dmv (port identity : Nat) (f : Pack → Pack) (s : State) : (updPack port identity f s).dmv = s.dmv := rfl
@[simp] theorem updPack_mch (port identity : Nat) (f : Pack → Pack) (s : State) : (updPack port identity f s).mch = s.mch := rfl
@[simp] theorem updPack_wvr (port identity : Nat) (f : Pack → Pack) (s : State) : (updPack port identity f s).wvr = s.wvr := rfl
@[simp] theorem updPack_thm (port identity : Nat) (f : Pack → Pack) (s : State) : (updPack port identity f s).thm = s.thm := rfl
@[simp] theorem updPack_saf (port identity : Nat) (f : Pack → Pack) (s : State) : (updPack port identity f s).saf = s.saf := rfl
@[simp] theorem updPack_evr (port identity : Nat) (f : Pack → Pack) (s : State) : (updPack port identity f s).evr = s.evr := rfl
@[simp] theorem updPack_regs (port identity : Nat) (f : Pack → Pack) (s : State) : (updPack port identity f s).regs = s.regs := rfl
@[simp] theorem updPack_nv (port identity : Nat) (f : Pack → Pack) (s : State) :
    (updPack port identity f s).nv = { s.nv with packs := updWhere (fun p => p.port == port && p.identity == identity) f s.nv.packs } := rfl

@[simp] theorem updStored_pending (id : Nat) (f : Stored → Stored) (s : State) : (updStored id f s).pending = s.pending := rfl
@[simp] theorem updStored_out (id : Nat) (f : Stored → Stored) (s : State) : (updStored id f s).out = s.out := rfl
@[simp] theorem updStored_now (id : Nat) (f : Stored → Stored) (s : State) : (updStored id f s).now = s.now := rfl
@[simp] theorem updStored_free (id : Nat) (f : Stored → Stored) (s : State) : (updStored id f s).free = s.free := rfl
@[simp] theorem updStored_pins (id : Nat) (f : Stored → Stored) (s : State) : (updStored id f s).pins = s.pins := rfl
@[simp] theorem updStored_aon (id : Nat) (f : Stored → Stored) (s : State) : (updStored id f s).aon = s.aon := rfl
@[simp] theorem updStored_boot (id : Nat) (f : Stored → Stored) (s : State) : (updStored id f s).boot = s.boot := rfl
@[simp] theorem updStored_pwr (id : Nat) (f : Stored → Stored) (s : State) : (updStored id f s).pwr = s.pwr := rfl
@[simp] theorem updStored_ham (id : Nat) (f : Stored → Stored) (s : State) : (updStored id f s).ham = s.ham := rfl
@[simp] theorem updStored_plem (id : Nat) (f : Stored → Stored) (s : State) : (updStored id f s).plem = s.plem := rfl
@[simp] theorem updStored_brd (id : Nat) (f : Stored → Stored) (s : State) : (updStored id f s).brd = s.brd := rfl
@[simp] theorem updStored_fw (id : Nat) (f : Stored → Stored) (s : State) : (updStored id f s).fw = s.fw := rfl
@[simp] theorem updStored_hfe (id : Nat) (f : Stored → Stored) (s : State) : (updStored id f s).hfe = s.hfe := rfl
@[simp] theorem updStored_rlk (id : Nat) (f : Stored → Stored) (s : State) : (updStored id f s).rlk = s.rlk := rfl
@[simp] theorem updStored_rma (id : Nat) (f : Stored → Stored) (s : State) : (updStored id f s).rma = s.rma := rfl
@[simp] theorem updStored_red (id : Nat) (f : Stored → Stored) (s : State) : (updStored id f s).red = s.red := rfl
@[simp] theorem updStored_cip (id : Nat) (f : Stored → Stored) (s : State) : (updStored id f s).cip = s.cip := rfl
@[simp] theorem updStored_col (id : Nat) (f : Stored → Stored) (s : State) : (updStored id f s).col = s.col := rfl
@[simp] theorem updStored_lay (id : Nat) (f : Stored → Stored) (s : State) : (updStored id f s).lay = s.lay := rfl
@[simp] theorem updStored_med (id : Nat) (f : Stored → Stored) (s : State) : (updStored id f s).med = s.med := rfl
@[simp] theorem updStored_stk (id : Nat) (f : Stored → Stored) (s : State) : (updStored id f s).stk = s.stk := rfl
@[simp] theorem updStored_hdl (id : Nat) (f : Stored → Stored) (s : State) : (updStored id f s).hdl = s.hdl := rfl
@[simp] theorem updStored_dmv (id : Nat) (f : Stored → Stored) (s : State) : (updStored id f s).dmv = s.dmv := rfl
@[simp] theorem updStored_mch (id : Nat) (f : Stored → Stored) (s : State) : (updStored id f s).mch = s.mch := rfl
@[simp] theorem updStored_wvr (id : Nat) (f : Stored → Stored) (s : State) : (updStored id f s).wvr = s.wvr := rfl
@[simp] theorem updStored_thm (id : Nat) (f : Stored → Stored) (s : State) : (updStored id f s).thm = s.thm := rfl
@[simp] theorem updStored_saf (id : Nat) (f : Stored → Stored) (s : State) : (updStored id f s).saf = s.saf := rfl
@[simp] theorem updStored_evr (id : Nat) (f : Stored → Stored) (s : State) : (updStored id f s).evr = s.evr := rfl
@[simp] theorem updStored_regs (id : Nat) (f : Stored → Stored) (s : State) : (updStored id f s).regs = s.regs := rfl
@[simp] theorem updStored_nv (id : Nat) (f : Stored → Stored) (s : State) :
    (updStored id f s).nv = { s.nv with stored := updWhere (fun x => x.id == id) f s.nv.stored } := rfl

@[simp] theorem setPidBlock_pending (p : Nat) (v : List Byte) (s : State) : (setPidBlock p v s).pending = s.pending := rfl
@[simp] theorem setPidBlock_out (p : Nat) (v : List Byte) (s : State) : (setPidBlock p v s).out = s.out := rfl
@[simp] theorem setPidBlock_now (p : Nat) (v : List Byte) (s : State) : (setPidBlock p v s).now = s.now := rfl
@[simp] theorem setPidBlock_free (p : Nat) (v : List Byte) (s : State) : (setPidBlock p v s).free = s.free := rfl
@[simp] theorem setPidBlock_pins (p : Nat) (v : List Byte) (s : State) : (setPidBlock p v s).pins = s.pins := rfl
@[simp] theorem setPidBlock_aon (p : Nat) (v : List Byte) (s : State) : (setPidBlock p v s).aon = s.aon := rfl
@[simp] theorem setPidBlock_boot (p : Nat) (v : List Byte) (s : State) : (setPidBlock p v s).boot = s.boot := rfl
@[simp] theorem setPidBlock_pwr (p : Nat) (v : List Byte) (s : State) : (setPidBlock p v s).pwr = s.pwr := rfl
@[simp] theorem setPidBlock_ham (p : Nat) (v : List Byte) (s : State) : (setPidBlock p v s).ham = s.ham := rfl
@[simp] theorem setPidBlock_brd (p : Nat) (v : List Byte) (s : State) : (setPidBlock p v s).brd = s.brd := rfl
@[simp] theorem setPidBlock_fw (p : Nat) (v : List Byte) (s : State) : (setPidBlock p v s).fw = s.fw := rfl
@[simp] theorem setPidBlock_hfe (p : Nat) (v : List Byte) (s : State) : (setPidBlock p v s).hfe = s.hfe := rfl
@[simp] theorem setPidBlock_rlk (p : Nat) (v : List Byte) (s : State) : (setPidBlock p v s).rlk = s.rlk := rfl
@[simp] theorem setPidBlock_rma (p : Nat) (v : List Byte) (s : State) : (setPidBlock p v s).rma = s.rma := rfl
@[simp] theorem setPidBlock_red (p : Nat) (v : List Byte) (s : State) : (setPidBlock p v s).red = s.red := rfl
@[simp] theorem setPidBlock_cip (p : Nat) (v : List Byte) (s : State) : (setPidBlock p v s).cip = s.cip := rfl
@[simp] theorem setPidBlock_col (p : Nat) (v : List Byte) (s : State) : (setPidBlock p v s).col = s.col := rfl
@[simp] theorem setPidBlock_lay (p : Nat) (v : List Byte) (s : State) : (setPidBlock p v s).lay = s.lay := rfl
@[simp] theorem setPidBlock_med (p : Nat) (v : List Byte) (s : State) : (setPidBlock p v s).med = s.med := rfl
@[simp] theorem setPidBlock_stk (p : Nat) (v : List Byte) (s : State) : (setPidBlock p v s).stk = s.stk := rfl
@[simp] theorem setPidBlock_hdl (p : Nat) (v : List Byte) (s : State) : (setPidBlock p v s).hdl = s.hdl := rfl
@[simp] theorem setPidBlock_dmv (p : Nat) (v : List Byte) (s : State) : (setPidBlock p v s).dmv = s.dmv := rfl
@[simp] theorem setPidBlock_mch (p : Nat) (v : List Byte) (s : State) : (setPidBlock p v s).mch = s.mch := rfl
@[simp] theorem setPidBlock_wvr (p : Nat) (v : List Byte) (s : State) : (setPidBlock p v s).wvr = s.wvr := rfl
@[simp] theorem setPidBlock_thm (p : Nat) (v : List Byte) (s : State) : (setPidBlock p v s).thm = s.thm := rfl
@[simp] theorem setPidBlock_saf (p : Nat) (v : List Byte) (s : State) : (setPidBlock p v s).saf = s.saf := rfl
@[simp] theorem setPidBlock_evr (p : Nat) (v : List Byte) (s : State) : (setPidBlock p v s).evr = s.evr := rfl
@[simp] theorem setPidBlock_regs (p : Nat) (v : List Byte) (s : State) : (setPidBlock p v s).regs = s.regs := rfl
@[simp] theorem setPidBlock_nv (p : Nat) (v : List Byte) (s : State) : (setPidBlock p v s).nv = s.nv := rfl
@[simp] theorem setPidBlock_plem (p : Nat) (v : List Byte) (s : State) :
    (setPidBlock p v s).plem = { s.plem with blocks := (p, v) :: s.plem.blocks.filter (fun e => e.1 != p) } := rfl

@[simp] theorem latchPwrfail_pending (s : State) : (latchPwrfail s).pending = s.pending := rfl
@[simp] theorem latchPwrfail_out (s : State) : (latchPwrfail s).out = s.out := rfl
@[simp] theorem latchPwrfail_now (s : State) : (latchPwrfail s).now = s.now := rfl
@[simp] theorem latchPwrfail_free (s : State) : (latchPwrfail s).free = s.free := rfl
@[simp] theorem latchPwrfail_pins (s : State) : (latchPwrfail s).pins = s.pins := rfl
@[simp] theorem latchPwrfail_aon (s : State) : (latchPwrfail s).aon = s.aon := rfl
@[simp] theorem latchPwrfail_pwr (s : State) : (latchPwrfail s).pwr = s.pwr := rfl
@[simp] theorem latchPwrfail_ham (s : State) : (latchPwrfail s).ham = s.ham := rfl
@[simp] theorem latchPwrfail_plem (s : State) : (latchPwrfail s).plem = s.plem := rfl
@[simp] theorem latchPwrfail_brd (s : State) : (latchPwrfail s).brd = s.brd := rfl
@[simp] theorem latchPwrfail_fw (s : State) : (latchPwrfail s).fw = s.fw := rfl
@[simp] theorem latchPwrfail_hfe (s : State) : (latchPwrfail s).hfe = s.hfe := rfl
@[simp] theorem latchPwrfail_rlk (s : State) : (latchPwrfail s).rlk = s.rlk := rfl
@[simp] theorem latchPwrfail_rma (s : State) : (latchPwrfail s).rma = s.rma := rfl
@[simp] theorem latchPwrfail_red (s : State) : (latchPwrfail s).red = s.red := rfl
@[simp] theorem latchPwrfail_cip (s : State) : (latchPwrfail s).cip = s.cip := rfl
@[simp] theorem latchPwrfail_col (s : State) : (latchPwrfail s).col = s.col := rfl
@[simp] theorem latchPwrfail_lay (s : State) : (latchPwrfail s).lay = s.lay := rfl
@[simp] theorem latchPwrfail_med (s : State) : (latchPwrfail s).med = s.med := rfl
@[simp] theorem latchPwrfail_stk (s : State) : (latchPwrfail s).stk = s.stk := rfl
@[simp] theorem latchPwrfail_hdl (s : State) : (latchPwrfail s).hdl = s.hdl := rfl
@[simp] theorem latchPwrfail_dmv (s : State) : (latchPwrfail s).dmv = s.dmv := rfl
@[simp] theorem latchPwrfail_mch (s : State) : (latchPwrfail s).mch = s.mch := rfl
@[simp] theorem latchPwrfail_wvr (s : State) : (latchPwrfail s).wvr = s.wvr := rfl
@[simp] theorem latchPwrfail_thm (s : State) : (latchPwrfail s).thm = s.thm := rfl
@[simp] theorem latchPwrfail_saf (s : State) : (latchPwrfail s).saf = s.saf := rfl
@[simp] theorem latchPwrfail_evr (s : State) : (latchPwrfail s).evr = s.evr := rfl
@[simp] theorem latchPwrfail_regs (s : State) : (latchPwrfail s).regs = s.regs := rfl
@[simp] theorem latchPwrfail_nv (s : State) : (latchPwrfail s).nv = s.nv := rfl
@[simp] theorem latchPwrfail_boot (s : State) :
    (latchPwrfail s).boot = { s.boot with pwrfailLatched := true, stopping := true, bootStopped := true } := rfl

@[simp] theorem persistAccepted_pending (s : State) : (persistAccepted s).pending = s.pending := rfl
@[simp] theorem persistAccepted_out (s : State) : (persistAccepted s).out = s.out := rfl
@[simp] theorem persistAccepted_now (s : State) : (persistAccepted s).now = s.now := rfl
@[simp] theorem persistAccepted_free (s : State) : (persistAccepted s).free = s.free := rfl
@[simp] theorem persistAccepted_pins (s : State) : (persistAccepted s).pins = s.pins := rfl
@[simp] theorem persistAccepted_aon (s : State) : (persistAccepted s).aon = s.aon := rfl
@[simp] theorem persistAccepted_boot (s : State) : (persistAccepted s).boot = s.boot := rfl
@[simp] theorem persistAccepted_pwr (s : State) : (persistAccepted s).pwr = s.pwr := rfl
@[simp] theorem persistAccepted_ham (s : State) : (persistAccepted s).ham = s.ham := rfl
@[simp] theorem persistAccepted_plem (s : State) : (persistAccepted s).plem = s.plem := rfl
@[simp] theorem persistAccepted_brd (s : State) : (persistAccepted s).brd = s.brd := rfl
@[simp] theorem persistAccepted_fw (s : State) : (persistAccepted s).fw = s.fw := rfl
@[simp] theorem persistAccepted_hfe (s : State) : (persistAccepted s).hfe = s.hfe := rfl
@[simp] theorem persistAccepted_rlk (s : State) : (persistAccepted s).rlk = s.rlk := rfl
@[simp] theorem persistAccepted_rma (s : State) : (persistAccepted s).rma = s.rma := rfl
@[simp] theorem persistAccepted_red (s : State) : (persistAccepted s).red = s.red := rfl
@[simp] theorem persistAccepted_cip (s : State) : (persistAccepted s).cip = s.cip := rfl
@[simp] theorem persistAccepted_col (s : State) : (persistAccepted s).col = s.col := rfl
@[simp] theorem persistAccepted_lay (s : State) : (persistAccepted s).lay = s.lay := rfl
@[simp] theorem persistAccepted_med (s : State) : (persistAccepted s).med = s.med := rfl
@[simp] theorem persistAccepted_stk (s : State) : (persistAccepted s).stk = s.stk := rfl
@[simp] theorem persistAccepted_hdl (s : State) : (persistAccepted s).hdl = s.hdl := rfl
@[simp] theorem persistAccepted_dmv (s : State) : (persistAccepted s).dmv = s.dmv := rfl
@[simp] theorem persistAccepted_mch (s : State) : (persistAccepted s).mch = s.mch := rfl
@[simp] theorem persistAccepted_wvr (s : State) : (persistAccepted s).wvr = s.wvr := rfl
@[simp] theorem persistAccepted_thm (s : State) : (persistAccepted s).thm = s.thm := rfl
@[simp] theorem persistAccepted_saf (s : State) : (persistAccepted s).saf = s.saf := rfl
@[simp] theorem persistAccepted_evr (s : State) : (persistAccepted s).evr = s.evr := rfl
@[simp] theorem persistAccepted_regs (s : State) : (persistAccepted s).regs = s.regs := rfl
@[simp] theorem persistAccepted_nv (s : State) :
    (persistAccepted s).nv = { s.nv with persisted := s.nv.nextJseq - 1, mirrorPersisted := lastMirror s, accept := [] } := rfl

@[simp] theorem applyConfigSeal_pending (s : State) : (applyConfigSeal s).pending = s.pending := rfl
@[simp] theorem applyConfigSeal_out (s : State) : (applyConfigSeal s).out = s.out := rfl
@[simp] theorem applyConfigSeal_now (s : State) : (applyConfigSeal s).now = s.now := rfl
@[simp] theorem applyConfigSeal_free (s : State) : (applyConfigSeal s).free = s.free := rfl
@[simp] theorem applyConfigSeal_pins (s : State) : (applyConfigSeal s).pins = s.pins := rfl
@[simp] theorem applyConfigSeal_aon (s : State) : (applyConfigSeal s).aon = s.aon := rfl
@[simp] theorem applyConfigSeal_pwr (s : State) : (applyConfigSeal s).pwr = s.pwr := rfl
@[simp] theorem applyConfigSeal_ham (s : State) : (applyConfigSeal s).ham = s.ham := rfl
@[simp] theorem applyConfigSeal_plem (s : State) : (applyConfigSeal s).plem = s.plem := rfl
@[simp] theorem applyConfigSeal_fw (s : State) : (applyConfigSeal s).fw = s.fw := rfl
@[simp] theorem applyConfigSeal_hfe (s : State) : (applyConfigSeal s).hfe = s.hfe := rfl
@[simp] theorem applyConfigSeal_rlk (s : State) : (applyConfigSeal s).rlk = s.rlk := rfl
@[simp] theorem applyConfigSeal_rma (s : State) : (applyConfigSeal s).rma = s.rma := rfl
@[simp] theorem applyConfigSeal_red (s : State) : (applyConfigSeal s).red = s.red := rfl
@[simp] theorem applyConfigSeal_cip (s : State) : (applyConfigSeal s).cip = s.cip := rfl
@[simp] theorem applyConfigSeal_col (s : State) : (applyConfigSeal s).col = s.col := rfl
@[simp] theorem applyConfigSeal_lay (s : State) : (applyConfigSeal s).lay = s.lay := rfl
@[simp] theorem applyConfigSeal_med (s : State) : (applyConfigSeal s).med = s.med := rfl
@[simp] theorem applyConfigSeal_stk (s : State) : (applyConfigSeal s).stk = s.stk := rfl
@[simp] theorem applyConfigSeal_hdl (s : State) : (applyConfigSeal s).hdl = s.hdl := rfl
@[simp] theorem applyConfigSeal_dmv (s : State) : (applyConfigSeal s).dmv = s.dmv := rfl
@[simp] theorem applyConfigSeal_mch (s : State) : (applyConfigSeal s).mch = s.mch := rfl
@[simp] theorem applyConfigSeal_wvr (s : State) : (applyConfigSeal s).wvr = s.wvr := rfl
@[simp] theorem applyConfigSeal_thm (s : State) : (applyConfigSeal s).thm = s.thm := rfl
@[simp] theorem applyConfigSeal_saf (s : State) : (applyConfigSeal s).saf = s.saf := rfl
@[simp] theorem applyConfigSeal_evr (s : State) : (applyConfigSeal s).evr = s.evr := rfl
@[simp] theorem applyConfigSeal_regs (s : State) : (applyConfigSeal s).regs = s.regs := rfl
@[simp] theorem applyConfigSeal_nv (s : State) : (applyConfigSeal s).nv = s.nv := rfl
@[simp] theorem applyConfigSeal_boot (s : State) : (applyConfigSeal s).boot = { s.boot with cfgSealed := true } := rfl
@[simp] theorem applyConfigSeal_brd (s : State) : (applyConfigSeal s).brd = { s.brd with cfgDigest := configDigest s } := rfl

@[simp] theorem refuseDirect_pending (s : State) : (refuseDirect s).pending = s.pending := rfl
@[simp] theorem refuseDirect_out (s : State) : (refuseDirect s).out = s.out := rfl
@[simp] theorem refuseDirect_now (s : State) : (refuseDirect s).now = s.now := rfl
@[simp] theorem refuseDirect_free (s : State) : (refuseDirect s).free = s.free := rfl
@[simp] theorem refuseDirect_pins (s : State) : (refuseDirect s).pins = s.pins := rfl
@[simp] theorem refuseDirect_aon (s : State) : (refuseDirect s).aon = s.aon := rfl
@[simp] theorem refuseDirect_boot (s : State) : (refuseDirect s).boot = s.boot := rfl
@[simp] theorem refuseDirect_pwr (s : State) : (refuseDirect s).pwr = s.pwr := rfl
@[simp] theorem refuseDirect_ham (s : State) : (refuseDirect s).ham = s.ham := rfl
@[simp] theorem refuseDirect_plem (s : State) : (refuseDirect s).plem = s.plem := rfl
@[simp] theorem refuseDirect_fw (s : State) : (refuseDirect s).fw = s.fw := rfl
@[simp] theorem refuseDirect_hfe (s : State) : (refuseDirect s).hfe = s.hfe := rfl
@[simp] theorem refuseDirect_rlk (s : State) : (refuseDirect s).rlk = s.rlk := rfl
@[simp] theorem refuseDirect_rma (s : State) : (refuseDirect s).rma = s.rma := rfl
@[simp] theorem refuseDirect_red (s : State) : (refuseDirect s).red = s.red := rfl
@[simp] theorem refuseDirect_cip (s : State) : (refuseDirect s).cip = s.cip := rfl
@[simp] theorem refuseDirect_col (s : State) : (refuseDirect s).col = s.col := rfl
@[simp] theorem refuseDirect_lay (s : State) : (refuseDirect s).lay = s.lay := rfl
@[simp] theorem refuseDirect_med (s : State) : (refuseDirect s).med = s.med := rfl
@[simp] theorem refuseDirect_stk (s : State) : (refuseDirect s).stk = s.stk := rfl
@[simp] theorem refuseDirect_hdl (s : State) : (refuseDirect s).hdl = s.hdl := rfl
@[simp] theorem refuseDirect_dmv (s : State) : (refuseDirect s).dmv = s.dmv := rfl
@[simp] theorem refuseDirect_mch (s : State) : (refuseDirect s).mch = s.mch := rfl
@[simp] theorem refuseDirect_wvr (s : State) : (refuseDirect s).wvr = s.wvr := rfl
@[simp] theorem refuseDirect_thm (s : State) : (refuseDirect s).thm = s.thm := rfl
@[simp] theorem refuseDirect_saf (s : State) : (refuseDirect s).saf = s.saf := rfl
@[simp] theorem refuseDirect_evr (s : State) : (refuseDirect s).evr = s.evr := rfl
@[simp] theorem refuseDirect_regs (s : State) : (refuseDirect s).regs = s.regs := rfl
@[simp] theorem refuseDirect_nv (s : State) : (refuseDirect s).nv = s.nv := rfl
@[simp] theorem refuseDirect_brd (s : State) :
    (refuseDirect s).brd = { s.brd with regRefused := true, refused := satAdd (2 ^ 32 - 1) s.brd.refused 1 } := rfl

end Sys2Proof.Machine
end

