-- ==== Sys2Proof/Laws/Strips.lean ====
section
/-! SUPPORT. Laws of the bytes that leave for packs and peer: lengths, and parity byte by byte (R274, R315, R336). -/

namespace Sys2Proof.Machine

/-- Padding gives the length asked for. -/
theorem padTo_length (n : Nat) (l : List Byte) : (padTo n l).length = n := by
  unfold padTo zeros
  rw [List.length_take, List.length_append, List.length_replicate]
  omega

/-- A record holds 64 bytes for each of its lines (R313). -/
theorem recordLines_length (s : State) (b : CoilBody) (j n : Nat) : (recordLines s b j n).length = 64 * n := by
  unfold recordLines recordWith
  rw [padTo_length]

/-- Equal parts add up. -/
theorem sum_of_equal (k : Nat) (l : List Nat) : (l.map fun _ => k).sum = k * l.length := by
  induction l with
  | nil => rfl
  | cons a t ih => simp only [List.map_cons, List.sum_cons, ih, List.length_cons, Nat.mul_succ]; omega

/-- An extent holds 512 bytes for each of its units (R270, R274). -/
theorem xtsExtent_length (d : Bool) (k : List Byte) (i u : Nat) (b : List Byte) : (xtsExtent d k i u b).length = 512 * u := by
  simp only [xtsExtent, List.length_flatten, List.map_map]
  rw [List.map_congr_left (g := fun _ => 512)]
  · rw [sum_of_equal, List.length_range]
  · intro x _
    exact padTo_length _ _

/-- Byte k of a sum of scaled strips, from byte k of what stands before. -/
theorem parity_fold (j k : Nat) (l : List (List Byte × Nat)) (hl : ∀ t ∈ l, t.1.length = 65536) (hk : k < 65536) :
    ∀ (acc : List Byte) (n : Nat), acc[k]? = some (BitVec.ofNat 8 n) →
    (l.foldl (fun acc e => List.zipWith (· ^^^ ·) acc (scaleStrip (j * e.2) e.1)) acc)[k]? =
      some (BitVec.ofNat 8 ((l.map fun e => ((e.1.getD k 0, e.2) : Byte × Nat)).foldl (fun n e => Nat.xor n (gfMul (gfPow (j * e.2)) e.1.toNat)) n)) := by
  induction l with
  | nil => intro acc n h; simpa using h
  | cons t r ih =>
    intro acc n h
    simp only [List.foldl_cons, List.map_cons]
    refine ih (fun x hx => hl x (by simp [hx])) _ _ ?_
    have ht := hl t (by simp)
    have hk2 : k < t.1.length := by omega
    simp only [List.getElem?_zipWith, h, scaleStrip, List.getElem?_map, List.getElem?_eq_getElem hk2, Option.map_some, List.getD_eq_getElem?_getD, Option.getD_some]
    congr 1
    apply BitVec.eq_of_toNat_eq
    simp only [BitVec.toNat_xor, BitVec.toNat_ofNat]
    show _ = (n ^^^ _) % 2^8
    rw [Nat.xor_mod_two_pow]

/-- Byte k of a parity strip is the parity of the strips' bytes k (R336). -/
theorem parityStrip_byte (j k : Nat) (l : List (List Byte)) (hl : ∀ t ∈ l, t.length = 65536) (hk : k < 65536) :
   (parityStrip j l)[k]? = some (parityByte j (l.map fun t => t.getD k 0)) := by
  unfold parityStrip parityByte
  rw [parity_fold j k _ _ hk _ 0]
  · congr 3
    rw [List.zipIdx_map]; rfl
  · unfold zeros; rw [List.getElem?_replicate, if_pos hk]; rfl
  · intro t ht
    exact hl _ (List.mem_zipIdx' ht |>.2 ▸ List.getElem_mem _)

end Sys2Proof.Machine
end

