-- ==== Sys2Proof/Tests/Slice0.lean ====
section
/-! SUPPORT. Tests: the spec's worked examples and small steps, ill-formed and well-formed commands, and for every statement a
witness of each clause's hypotheses. -/

namespace Sys2Proof.Tests

open Sys2Proof Sys2Proof.Machine

/-! ### Worked examples of the spec -/

/-- The loop of Table 19-6 as it closes at 212 ms: s = 1, kp = 27,962, ki = 2,330, the output held at 16,384. -/
def tuned : Loop := { num := 0, shift := 1, kp := 27962, ki := 2330, held := 16384, umax := 32767, bumpless := true }

set_option maxRecDepth 20000 in
/-- Chapter 19's worked example, 212 ms: u stays 16,384 and the integrator becomes 0x1D11_1000. -/
theorem test_loop_closes_bumpless :
    (closedSample 3840 4800 0 0 tuned).u = 16384 ∧ (closedSample 3840 4800 0 0 tuned).i = 0x1D111000 := by
  decide

set_option maxRecDepth 20000 in
/-- Chapter 19's worked example, 212.1 ms: y = 4,000 gives u = 16,247. -/
theorem test_loop_second_sample : (closedSample 4000 4800 0 0 (closedSample 3840 4800 0 0 tuned)).u = 16247 := by
  decide

/-- Chapter 19's check: the credit count 2,030 is granted as 1,536; 2,048 is encodable. -/
theorem test_credit_codes : creditCount (creditCode 2030) = 1536 ∧ creditCount (creditCode 2048) = 2048 := by
  decide

/-- R548's example, PID 0x0307: base 0x42A0, size 0x1000, enable, owner control, data read. -/
theorem test_window_pid_value :
    winOfPid false 0x80000201100042A0 = { base := 0x42A0, size := 0x1000, enable := true, owner := 2, d := 1 } := by
  decide

/-- R548's example: PID 0x0307 first fits, PID 0x0306 would not fit before it and fits after it. -/
theorem test_window_move_order :
    winPidCheck defaultWindows 7 0x80000201100042A0 = none ∧
    winPidCheck defaultWindows 6 0x8000020324001EA0 = some stLenOver ∧
    winPidCheck (updAt 7 (fun w => winOfPid w.fixed 0x80000201100042A0) defaultWindows) 6 0x8000020324001EA0 = none := by
  decide

/-- Table 04-15's command packet: PID 0x0211 to 30,000. -/
def table0415 : Cmd :=
  { ring := 3, seq := 0x41, opcode := 0x0101, session := 0x10C00007, role := 2, running := true, block := [],
    packet := [1, 1, 0, 1, 0x41, 0, 0, 0, 7, 0, 0xC0, 0x10] ++ zeros 12 ++ [0x11, 2, 4, 0, 0x30, 0x75] ++ zeros 34 }

/-- Chapter 04's worked example: the outcome is OK.DONE with the previous value 0, and the effect writes 30,000. -/
theorem test_set_param_example :
    setParam State.reset table0415 = { status := stOkDone, nums := [0x0211, 30000] } := by
  decide

/-- Chapter 04's worked example: 70,000 is refused with LEN.OVER at offset 28. -/
theorem test_set_param_over :
    inlineSetParam State.reset ([1, 1, 0, 1, 0x42, 0, 0, 0, 7, 0, 0xC0, 0x10] ++ zeros 12 ++ [0x11, 2, 4, 0, 0x70, 0x11, 1] ++ zeros 33) =
      [{ off := 28, status := 0x2001 }] := by
  decide

/-- Chapter 04's worked example: ring 3 and serial 7 give the identifier 0x10C0_0007. -/
theorem test_session_identifier : sessionId 3 7 = 0x10C00007 := by
  decide

/-- Chapter 11's worked example: the nonce of side B at count 4,278,190,079. -/
theorem test_gcm_nonce :
    gcmNonce { State.reset with aon.side := true } { num := 77, usage := 4, salt := 0x3A9C51E2, count := 4278190079 } =
      [0xBA, 0x9C, 0x51, 0xE2, 0, 0, 0, 0, 0xFE, 0xFF, 0xFF, 0xFF] := by
  decide

/-- Chapter 09's worked example: with sequence 12,223 accepted the window's lower edge is −4,160, with 17,231 it is 848. -/
theorem test_esp_window :
    windowEdge { handle := 1, inHigh := 12223 } = -4160 ∧ windowEdge { handle := 1, inHigh := 17231 } = 848 := by
  decide

set_option maxRecDepth 20000 in
/-- The CRC-32C check value of "123456789" (R7's polynomial). -/
theorem test_crc32c : crc32c [0x31, 0x32, 0x33, 0x34, 0x35, 0x36, 0x37, 0x38, 0x39] = 0xE3069283 := by
  decide

/-! ### Commands on small states -/

/-- The state that a command answers, or the state it found where it answers none. -/
def after (c : Instr) (s : State) : State := match exec c s with | .next t => t | _ => s

/-- A power failure of 1 µs is latched, one of 199 ns ignored (R57). -/
theorem test_pwrfail_bounds :
    (after (.pwrfailRecognised 1000) State.reset).boot.pwrfailLatched = true ∧
    (after (.pwrfailRecognised 199) State.reset).boot.pwrfailLatched = false := by
  decide

/-- A Rim ring gives back the first of two entries posted to it (R29). -/
theorem test_rim_order :
    (after (.rimTake 5) (after (.rimPost 5 false [2]) (after (.rimPost 5 false [1]) State.reset))).out = [.rimNotice 5 (rimPlanes 5).2 (padTo 64 [1])] := by
  decide

/-- A data engine's access outside its windows goes fail-silent with class 0x02 (R24). -/
theorem test_engine_denied :
    (after (.hamperAccess .dataEngine true 0 [1]) State.reset).saf.failSilent = true ∧
    (after (.hamperAccess .mgmtCore true 0 [1]) State.reset).saf.failSilent = false := by
  decide

/-- The management plane's own region takes a byte and gives it back (R19). -/
theorem test_hamper_write_read :
    (after (.hamperAccess .mgmtCore false 7 [0]) (after (.hamperAccess .mgmtCore true 7 [9]) State.reset)).out = [.memRead [9]] := by
  decide

/-- A write of 0 removes the byte from the listing. -/
theorem test_hamper_zero : (after (.hamperAccess .mgmtCore true 7 [0]) (after (.hamperAccess .mgmtCore true 7 [9]) State.reset)).ham.mem = [] := by
  decide

/-- A step runs the front command and leaves the second. -/
theorem test_step_front :
    (match step { State.reset with pending := [.pllLocked 3, .pllLocked 4] } with | .next t => (t.boot.pll, t.pending) | _ => (0, [])) = (8, [.pllLocked 4]) := by
  decide

/-- Table 13-2: the parity bytes of data bytes 0x11 to 0x66. -/
theorem test_parity_example :
    [0, 1, 2].map (fun j => parityByte j [0x11, 0x22, 0x33, 0x44, 0x55, 0x66]) = [0x77, 0xE6, 0xA6] := by
  decide

/-- Table 13-2's check: α^8 = 0x1D, α^10 = 0x74, 0x55 × 0x1D = 0xB7. -/
theorem test_field_example : gfPow 8 = 0x1D ∧ gfPow 10 = 0x74 ∧ gfMul 0x55 0x1D = 0xB7 := by
  decide

/-- Chapter 10's example: a bundle of 8 chunks in zstd form, 9,100 payload bytes, identifier 0x8000_2F41_0C08. -/
def exampleBundle : Bundle := { id := 0x80002F410C08, chunks := [0, 1, 2, 3, 4, 5, 6, 7], form := 2, units := extentUnits 9100 }

/-- Chapter 10's example: 18 units, the reference tag, and the tweaks of data units 0 and 17. -/
theorem test_check_field_example :
    exampleBundle.units = 18 ∧ (checkField exampleBundle).drop 8 = [0x08, 0x0C, 0x41, 0x2F, 0x00, 0x80, 0xF0, 0x12] ∧
    leNat (extentTweak exampleBundle.id 0) = 0x00400017A0860400 ∧ leNat (extentTweak exampleBundle.id 17) = 0x00400017A0860411 := by
  decide

/-! ### Well-formedness -/

/-- Ill-formed commands, one for each check and each end of its range, are refused. -/
theorem test_ill_formed_0 : ([.pwrfailRecognised u64,
    .pcieLinkTrainStart 2,
    .pcieConfigRequest 2,
    .pllLocked 8,
    .pllLockLost 8,
    .firmwareBootCheck 0,
    .firmwareBootCheck 6,
    .stakeWaveStart 8,
    .stakeWaveEnd 8 0,
    .stakeWaveEnd 0 u64,
    .monitorSelfTest u16,
    .tileGate 256,
    .tileWake 256,
    .groupAutoOff 24,
    .groupRestoreComplete 24,
    .smbusOtherCommand 256,
    .smbusClockLowTimeout u64,
    .entdaa 128,
    .setdasa 128 0,
    .setdasa 0 128,
    .setEndpointId 256,
    .getMctpVersionSupport 256,
    .mctpOtherControl 256,
    .plemOverMctp false none 256 (List.replicate 64 0) [],
    .plemOverMctp false none 0 (List.replicate 63 0) [],
    .plemOverMctp false none 0 (List.replicate 65 0) [],
    .getCertificate 256 0 0,
    .getCertificate 0 u16 0,
    .getCertificate 0 0 u16,
    .challenge 256 (List.replicate 32 0),
    .challenge 0 (List.replicate 31 0),
    .challenge 0 (List.replicate 33 0),
    .getMeasurements 256,
    .keyExchange 256,
    .finish u32 false,
    .heartbeat u32,
    .keyUpdate u32,
    .endSession u32,
    .chunkGet u32 0,
    .chunkGet 0 u16,
    .spdmUnsupportedRequest 256,
    .plmRingCfgWrite 60 0,
    .plmRsqTailDoorbell 60 0,
    .plmRcqHeadDoorbell 60 0,
    .plemPacketFetch 64 (List.replicate 64 0) [],
    .plemPacketFetch 0 (List.replicate 63 0) [],
    .plemPacketFetch 0 (List.replicate 65 0) [],
    .plemCommandStart 64,
    .c0FetchFailure 64,
    .c0FetchTimeout 64,
    .nonceExpiry 64,
    .sessionIdleTimeout 64,
    .sysIdentify 64 0,
    .sysIdentify 0 u32,
    .getNonce 64 0,
    .getNonce 0 u32,
    .sessionOpen 64 0,
    .sessionOpen 0 u32,
    .sessionClose 64 0,
    .sessionClose 0 u32] : List Instr).all (fun c => !c.wf) = true := by
  decide

/-- Ill-formed commands, one for each check and each end of its range, are refused. -/
theorem test_ill_formed_1 : ([.sysStatus 64 0,
    .sysStatus 0 u32,
    .serviceStart 64 0,
    .serviceStart 0 u32,
    .serviceStop 64 0,
    .serviceStop 0 u32,
    .portEnable 64 0,
    .portEnable 0 u32,
    .deviceDoze 64 0,
    .deviceDoze 0 u32,
    .resetDevice 64 0,
    .resetDevice 0 u32,
    .handleEligible 64 0,
    .handleEligible 0 u32,
    .handleTransfer 64 0,
    .handleTransfer 0 u32,
    .ownerEnroll 64 0,
    .ownerEnroll 0 u32,
    .setParam 64 0,
    .setParam 0 u32,
    .getParam 64 0,
    .getParam 0 u32,
    .setParams 64 0,
    .setParams 0 u32,
    .configSeal 64 0,
    .configSeal 0 u32,
    .regWrite 64 0,
    .regWrite 0 u32,
    .regRead 64 0,
    .regRead 0 u32,
    .volCreate 64 0,
    .volCreate 0 u32,
    .volDelete 64 0,
    .volDelete 0 u32,
    .volResize 64 0,
    .volResize 0 u32,
    .volSetAccess 64 0,
    .volSetAccess 0 u32,
    .volQuery 64 0,
    .volQuery 0 u32,
    .snapCreate 64 0,
    .snapCreate 0 u32,
    .snapDelete 64 0,
    .snapDelete 0 u32,
    .volClone 64 0,
    .volClone 0 u32,
    .secureDiscard 64 0,
    .secureDiscard 0 u32,
    .domainCreate 64 0,
    .domainCreate 0 u32,
    .packAdmit 64 0,
    .packAdmit 0 u32,
    .packRetire 64 0,
    .packRetire 0 u32,
    .layoutChange 64 0,
    .layoutChange 0 u32,
    .rebuildCtrl 64 0,
    .rebuildCtrl 0 u32,
    .mediaHealth 64 0,
    .mediaHealth 0 u32] : List Instr).all (fun c => !c.wf) = true := by
  decide

/-- Ill-formed commands, one for each check and each end of its range, are refused. -/
theorem test_ill_formed_2 : ([.lostListRead 64 0,
    .lostListRead 0 u32,
    .lostListClear 64 0,
    .lostListClear 0 u32,
    .keyGenerate 64 0,
    .keyGenerate 0 u32,
    .keyLoad 64 0,
    .keyLoad 0 u32,
    .keyExport 64 0,
    .keyExport 0 u32,
    .keyDestroy 64 0,
    .keyDestroy 0 u32,
    .keyInstallSa 64 0,
    .keyInstallSa 0 u32,
    .keyQuery 64 0,
    .keyQuery 0 u32,
    .cipherOp 64 0 [],
    .cipherOp 0 u32 [],
    .auditRead 64 0,
    .auditRead 0 u32,
    .auditDrain 64 0,
    .auditDrain 0 u32,
    .auditSeal 64 0,
    .auditSeal 0 u32,
    .bootRecordRead 64 0,
    .bootRecordRead 0 u32,
    .bootRecordDrain 64 0,
    .bootRecordDrain 0 u32,
    .attestQuote 64 0,
    .attestQuote 0 u32,
    .setTime 64 0,
    .setTime 0 u32,
    .replPair 64 0,
    .replPair 0 u32,
    .replStart 64 0 0,
    .replStart 0 u32 0,
    .replStart 0 0 u16,
    .replStop 64 0,
    .replStop 0 u32,
    .replStatus 64 0,
    .replStatus 0 u32,
    .regionRegister 64 0,
    .regionRegister 0 u32,
    .regionRevoke 64 0,
    .regionRevoke 0 u32,
    .connTeardown 64 0,
    .connTeardown 0 u32,
    .evrRead 64 0,
    .evrRead 0 u32,
    .evrClear 64 0,
    .evrClear 0 u32,
    .wvrInject 64 0,
    .wvrInject 0 u32,
    .wvrCapture 64 0,
    .wvrCapture 0 u32,
    .selftest 64 0,
    .selftest 0 u32,
    .thermStatus 64 0,
    .thermStatus 0 u32,
    .stageImage 64 0] : List Instr).all (fun c => !c.wf) = true := by
  decide

/-- Ill-formed commands, one for each check and each end of its range, are refused. -/
theorem test_ill_formed_3 : ([.stageImage 0 u32,
    .activateImage 64 0,
    .activateImage 0 u32,
    .fwQuery 64 0,
    .fwQuery 0 u32,
    .packFwLoad 64 0,
    .packFwLoad 0 u32,
    .migrateStatus 64 0,
    .migrateStatus 0 u32,
    .packFwMeasureTimeout 64,
    .formatRaise u16,
    .ptpSyncReceived u16 0 0 0 0,
    .ptpSyncReceived 0 256 0 0 0,
    .ptpSyncReceived 0 0 256 0 0,
    .ptpSyncReceived 0 0 0 u64 0,
    .nvmeSqDoorbell u16 0 0,
    .nvmeSqDoorbell 0 u16 0,
    .nvmeSqDoorbell 0 0 u16,
    .nvmeDeleteIoSq u16 0 0,
    .nvmeDeleteIoSq 0 u16 0,
    .nvmeDeleteIoSq 0 0 u16,
    .nvmeDeleteIoCq u16 0 0,
    .nvmeDeleteIoCq 0 u16 0,
    .nvmeDeleteIoCq 0 0 u16,
    .nvmeCreateIoSq u16 0 0 0 0 false,
    .nvmeCreateIoSq 0 u16 0 0 0 false,
    .nvmeCreateIoSq 0 0 u16 0 0 false,
    .nvmeCreateIoSq 0 0 0 u16 0 false,
    .nvmeCreateIoSq 0 0 0 0 65536 false,
    .nvmeCreateIoCq u16 0 0 0 false,
    .nvmeCreateIoCq 0 u16 0 0 false,
    .nvmeCreateIoCq 0 0 u16 0 false,
    .nvmeCreateIoCq 0 0 0 65536 false,
    .nvmeGetLogPage u16 0 { lid := 0, numd := 0, sglLen := 0 },
    .nvmeGetLogPage 0 u16 { lid := 0, numd := 0, sglLen := 0 },
    .nvmeGetLogPage 0 0 { lid := 256, numd := 0, sglLen := 0 },
    .nvmeGetLogPage 0 0 { lid := 0, numd := u32, sglLen := 0 },
    .nvmeGetLogPage 0 0 { lid := 0, numd := 0, sglLen := u32 },
    .nvmeIdentify u16 0 { cns := 0, csi := 0 } 0,
    .nvmeIdentify 0 u16 { cns := 0, csi := 0 } 0,
    .nvmeIdentify 0 0 { cns := 256, csi := 0 } 0,
    .nvmeIdentify 0 0 { cns := 0, csi := 0 } u32,
    .nvmeIdentify 0 0 { cns := 0, csi := 256 } 0,
    .nvmeAbort u16 0 0 0,
    .nvmeAbort 0 u16 0 0,
    .nvmeAbort 0 0 u16 0,
    .nvmeAbort 0 0 0 u16,
    .abortArbitration u16 0,
    .abortArbitration 0 u16,
    .nvmeSetFeaturesPower u16 0 0,
    .nvmeSetFeaturesPower 0 u16 0,
    .nvmeSetFeaturesPower 0 0 32,
    .nvmeSetFeaturesQueues u16 0 0,
    .nvmeSetFeaturesQueues 0 u16 0,
    .nvmeSetFeaturesQueues 0 0 u32,
    .nvmeSetFeatures u16 0 0 0,
    .nvmeSetFeatures 0 u16 0 0,
    .nvmeSetFeatures 0 0 256 0,
    .nvmeSetFeatures 0 0 0 u64,
    .nvmeGetFeatures u16 0 0] : List Instr).all (fun c => !c.wf) = true := by
  decide

/-- Ill-formed commands, one for each check and each end of its range, are refused. -/
theorem test_ill_formed_4 : ([.nvmeGetFeatures 0 u16 0,
    .nvmeGetFeatures 0 0 256,
    .nvmeAsyncEventRequest u16 0,
    .nvmeAsyncEventRequest 0 u16,
    .nvmeKeepAlive u16 0,
    .nvmeKeepAlive 0 u16,
    .keepAliveExpiry u16,
    .fabricsConnect (2 ^ 20) 0 none 0 0 false [],
    .fabricsConnect 0 u16 none 0 0 false [],
    .fabricsConnect 0 0 none u16 0 false [],
    .fabricsConnect 0 0 none 0 65536 false [],
    .fabricsPropertyGet u16 0 0,
    .fabricsPropertyGet 0 u16 0,
    .fabricsPropertyGet 0 0 u32,
    .fabricsPropertySet u16 0 0 0,
    .fabricsPropertySet 0 u16 0 0,
    .fabricsPropertySet 0 0 u32 0,
    .fabricsPropertySet 0 0 0 u64,
    .fabricsDisconnect u16 0,
    .fabricsDisconnect 0 u16,
    .fabricsConnectionLoss u16,
    .ccEnClear u16,
    .ccEnSet u16 0,
    .ccEnSet 0 8,
    .functionLevelReset u16,
    .nvmeFlush u16 0 0 0,
    .nvmeFlush 0 u16 0 0,
    .nvmeFlush 0 0 u16 0,
    .nvmeFlush 0 0 0 u32,
    .nvmeWrite u16 0 0 0 0 0 default 0,
    .nvmeWrite 0 u16 0 0 0 0 default 0,
    .nvmeWrite 0 0 u16 0 0 0 default 0,
    .nvmeWrite 0 0 0 u32 0 0 default 0,
    .nvmeWrite 0 0 0 0 u64 0 default 0,
    .nvmeWrite 0 0 0 0 0 65536 default 0,
    .nvmeWrite 0 0 0 0 0 0 default u32,
    .nvmeRead u16 0 0 0 0 0 default 0,
    .nvmeRead 0 u16 0 0 0 0 default 0,
    .nvmeRead 0 0 u16 0 0 0 default 0,
    .nvmeRead 0 0 0 u32 0 0 default 0,
    .nvmeRead 0 0 0 0 u64 0 default 0,
    .nvmeRead 0 0 0 0 0 65536 default 0,
    .nvmeRead 0 0 0 0 0 0 default u32,
    .nvmeCompare u16 0 0 0 0 0 default 0,
    .nvmeCompare 0 u16 0 0 0 0 default 0,
    .nvmeCompare 0 0 u16 0 0 0 default 0,
    .nvmeCompare 0 0 0 u32 0 0 default 0,
    .nvmeCompare 0 0 0 0 u64 0 default 0,
    .nvmeCompare 0 0 0 0 0 65536 default 0,
    .nvmeCompare 0 0 0 0 0 0 default u32,
    .nvmeWriteZeroes u16 0 0 0 0 0 false,
    .nvmeWriteZeroes 0 u16 0 0 0 0 false,
    .nvmeWriteZeroes 0 0 u16 0 0 0 false,
    .nvmeWriteZeroes 0 0 0 u32 0 0 false,
    .nvmeWriteZeroes 0 0 0 0 u64 0 false,
    .nvmeWriteZeroes 0 0 0 0 0 65536 false,
    .nvmeDatasetManagement u16 0 0 0 false { nr := 0, ranges := [], sglLen := 0 },
    .nvmeDatasetManagement 0 u16 0 0 false { nr := 0, ranges := [], sglLen := 0 },
    .nvmeDatasetManagement 0 0 u16 0 false { nr := 0, ranges := [], sglLen := 0 },
    .nvmeDatasetManagement 0 0 0 u32 false { nr := 0, ranges := [], sglLen := 0 }] : List Instr).all (fun c => !c.wf) = true := by
  decide

/-- Ill-formed commands, one for each check and each end of its range, are refused. -/
theorem test_ill_formed_5 : ([.nvmeDatasetManagement 0 0 0 0 false { nr := 256, ranges := [], sglLen := 0 },
    .nvmeDatasetManagement 0 0 0 0 false { nr := 0, ranges := [], sglLen := u32 },
    .nvmeVerify u16 0 0 0 0 0 default,
    .nvmeVerify 0 u16 0 0 0 0 default,
    .nvmeVerify 0 0 u16 0 0 0 default,
    .nvmeVerify 0 0 0 u32 0 0 default,
    .nvmeVerify 0 0 0 0 u64 0 default,
    .nvmeVerify 0 0 0 0 0 65536 default,
    .nvmeInvalidOpcode u16 { sq := 0, cid := 0 } 0,
    .nvmeInvalidOpcode 0 { sq := u16, cid := 0 } 0,
    .nvmeInvalidOpcode 0 { sq := 0, cid := u16 } 0,
    .nvmeInvalidOpcode 0 { sq := 0, cid := 0 } 256,
    .writePayloadData u16 [] false false,
    .readDataReady u16,
    .ownershipMovePass u32 0,
    .ownershipMovePass 0 u64,
    .ethLinkChange 32 false 0 0 false,
    .ethLinkChange 0 false u16 0 false,
    .ethLinkChange 0 false 0 256 false,
    .arpRequest 32 [],
    .neighborSolicitation 32 [],
    .icmpEchoRequest 32 [] [],
    .tcpSyn 32 0 none,
    .tcpSyn 0 u16 none,
    .nvmeTcpIcreq (2 ^ 20) false false false,
    .espInboundPacket u32 0 false,
    .espInboundPacket 0 u32 false,
    .send (2 ^ 20) { psn := 0, ce := false } 0 false false [],
    .send 0 { psn := 2 ^ 24, ce := false } 0 false false [],
    .send 0 { psn := 0, ce := false } u32 false false [],
    .rdmaWrite (2 ^ 20) { psn := 0, ce := false } 0 0 0 false false none [],
    .rdmaWrite 0 { psn := 2 ^ 24, ce := false } 0 0 0 false false none [],
    .rdmaWrite 0 { psn := 0, ce := false } u32 0 0 false false none [],
    .rdmaWrite 0 { psn := 0, ce := false } 0 u64 0 false false none [],
    .rdmaWrite 0 { psn := 0, ce := false } 0 0 u32 false false none [],
    .rdmaReadRequest (2 ^ 20) { psn := 0, ce := false } 0 0 0,
    .rdmaReadRequest 0 { psn := 2 ^ 24, ce := false } 0 0 0,
    .rdmaReadRequest 0 { psn := 0, ce := false } u32 0 0,
    .rdmaReadRequest 0 { psn := 0, ce := false } 0 u64 0,
    .rdmaReadRequest 0 { psn := 0, ce := false } 0 0 u32,
    .rdmaReadResponse (2 ^ 20) { psn := 0, ce := false } false [],
    .rdmaReadResponse 0 { psn := 2 ^ 24, ce := false } false [],
    .acknowledge (2 ^ 20) { psn := 0, ce := false } 0,
    .acknowledge 0 { psn := 2 ^ 24, ce := false } 0,
    .acknowledge 0 { psn := 0, ce := false } 256,
    .atomicAcknowledge (2 ^ 20) { psn := 0, ce := false } 0,
    .atomicAcknowledge 0 { psn := 2 ^ 24, ce := false } 0,
    .atomicAcknowledge 0 { psn := 0, ce := false } u64,
    .compareSwap (2 ^ 20) { psn := 0, ce := false } 0 0 0 0,
    .compareSwap 0 { psn := 2 ^ 24, ce := false } 0 0 0 0,
    .compareSwap 0 { psn := 0, ce := false } u32 0 0 0,
    .compareSwap 0 { psn := 0, ce := false } 0 u64 0 0,
    .compareSwap 0 { psn := 0, ce := false } 0 0 u64 0,
    .compareSwap 0 { psn := 0, ce := false } 0 0 0 u64,
    .fetchAdd (2 ^ 20) { psn := 0, ce := false } 0 0 0,
    .fetchAdd 0 { psn := 2 ^ 24, ce := false } 0 0 0,
    .fetchAdd 0 { psn := 0, ce := false } u32 0 0,
    .fetchAdd 0 { psn := 0, ce := false } 0 u64 0,
    .fetchAdd 0 { psn := 0, ce := false } 0 0 u64,
    .cnp (2 ^ 20)] : List Instr).all (fun c => !c.wf) = true := by
  decide

/-- Ill-formed commands, one for each check and each end of its range, are refused. -/
theorem test_ill_formed_6 : ([.roceUnsupportedPacket (2 ^ 20) 0 false false,
    .roceUnsupportedPacket 0 (2 ^ 24) false false,
    .cmReq 32 0 0 none,
    .cmReq 0 4 0 none,
    .cmReq 0 0 u16 none,
    .cmRep (2 ^ 20),
    .cmRtu (2 ^ 20),
    .cmRej (2 ^ 20) 0,
    .cmRej 0 u16,
    .cmDreq (2 ^ 20),
    .cmDrep (2 ^ 20),
    .cmMra (2 ^ 20),
    .contextFetchDone (2 ^ 20),
    .retransmitTimeout (2 ^ 20),
    .pendingSaExpiry u32,
    .oldSaExpiry (2 ^ 20),
    .revokeDrainTimeout (2 ^ 20),
    .teardownDrainEnd (2 ^ 20),
    .asyncCycleStart u32,
    .asyncCycleEnd u32,
    .remoteRecordAck u32 0,
    .remoteRecordAck 0 u64,
    .syncRemoteLoss u32,
    .coldLookupDone u16 none,
    .lookasideRequest 256 0 0 0 0 0 [] 0 0 [] [] false,
    .lookasideRequest 0 4096 0 0 0 0 [] 0 0 [] [] false,
    .lookasideRequest 0 0 256 0 0 0 [] 0 0 [] [] false,
    .lookasideRequest 0 0 0 256 0 0 [] 0 0 [] [] false,
    .lookasideRequest 0 0 0 0 u32 0 [] 0 0 [] [] false,
    .lookasideRequest 0 0 0 0 0 u32 [] 0 0 [] [] false,
    .lookasideRequest 0 0 0 0 0 0 [] u64 0 [] [] false,
    .lookasideRequest 0 0 0 0 0 0 [] 0 u64 [] [] false,
    .coilLinesPersisted u64,
    .mirror u64 [],
    .mirrorAck u64 0,
    .mirrorAck 0 u64,
    .stripAdd u64 [] false,
    .segmentSeal u64 false false,
    .sealAgeTimeout u64,
    .absenceDeclareTimeout 64,
    .segmentReconstructDone u64 false,
    .rebuildEnd 64,
    .checkpointLoad [0, 64],
    .bandFree u64,
    .readDisturbVerify 64 0,
    .readDisturbVerify 0 u32,
    .stakeLinkTrained 64,
    .stakeTrainingFailed 64,
    .stakeTransactionFrame 64 [],
    .stakeAck 64 0,
    .stakeAck 0 u16,
    .stakeNak 64 0,
    .stakeNak 0 u16,
    .stakeCredit 64 0 0 0,
    .stakeCredit 0 8 0 0,
    .stakeCredit 0 0 u16 0,
    .stakeCredit 0 0 0 u16,
    .stakeKeepAlive 64,
    .stakeKeepAliveDue 64,
    .stakeRxIdleTimeout 64] : List Instr).all (fun c => !c.wf) = true := by
  decide

/-- Ill-formed commands, one for each check and each end of its range, are refused. -/
theorem test_ill_formed_7 : ([.stakeRecoveryTimeout 64,
    .stakeReplayTimeout 64,
    .stakeResponseTimeout 64 0,
    .stakeResponseTimeout 0 u16,
    .identResponse 64 0 0 default,
    .identResponse 0 u16 0 default,
    .identResponse 0 0 u16 default,
    .geomResponse 64 0 0 default,
    .geomResponse 0 u16 0 default,
    .geomResponse 0 0 u16 default,
    .readResponse 64 0 0 0 false,
    .readResponse 0 u16 0 0 false,
    .readResponse 0 0 u16 0 false,
    .readResponse 0 0 0 u64 false,
    .programResponse 64 0 0 0,
    .programResponse 0 u16 0 0,
    .programResponse 0 0 u16 0,
    .programResponse 0 0 0 u64,
    .eraseResponse 64 0 0 0,
    .eraseResponse 0 u16 0 0,
    .eraseResponse 0 0 u16 0,
    .eraseResponse 0 0 0 u64,
    .healthResponse 64 0 0 false,
    .healthResponse 0 u16 0 false,
    .healthResponse 0 0 u16 false,
    .tempResponse 64 0 0 0,
    .tempResponse 0 u16 0 0,
    .tempResponse 0 0 u16 0,
    .fwMeasureResponse 64 0 0 (List.replicate 48 0) 0 0 0,
    .fwMeasureResponse 0 u16 0 (List.replicate 48 0) 0 0 0,
    .fwMeasureResponse 0 0 u16 (List.replicate 48 0) 0 0 0,
    .fwMeasureResponse 0 0 0 (List.replicate 47 0) 0 0 0,
    .fwMeasureResponse 0 0 0 (List.replicate 49 0) 0 0 0,
    .fwMeasureResponse 0 0 0 (List.replicate 48 0) u64 0 0,
    .fwMeasureResponse 0 0 0 (List.replicate 48 0) 0 u16 0,
    .fwMeasureResponse 0 0 0 (List.replicate 48 0) 0 0 256,
    .fwLoadResponse 64 0 0,
    .fwLoadResponse 0 u16 0,
    .fwLoadResponse 0 0 u16,
    .fencePortResponse 64 0 0 0,
    .fencePortResponse 0 u16 0 0,
    .fencePortResponse 0 0 u16 0,
    .fencePortResponse 0 0 0 u64,
    .setEpochResponse 64 0 0 0,
    .setEpochResponse 0 u16 0 0,
    .setEpochResponse 0 0 u16 0,
    .setEpochResponse 0 0 0 u64,
    .unpair u16,
    .peerPlem (List.replicate 63 0) [],
    .peerPlem (List.replicate 65 0) [],
    .carry (List.replicate 63 0) [],
    .carry (List.replicate 65 0) [],
    .keyXfer (List.replicate 15 0),
    .keyXfer (List.replicate 17 0),
    .fwdCmd u16 0 default,
    .fwdCmd 0 256 default,
    .packRelay 64 0 0 0 false,
    .packRelay 0 u32 0 0 false,
    .packRelay 0 0 u32 0 false,
    .packRelay 0 0 0 u32 false] : List Instr).all (fun c => !c.wf) = true := by
  decide

/-- Ill-formed commands, one for each check and each end of its range, are refused. -/
theorem test_ill_formed_8 : ([.refTake u64 0,
    .refTake 0 4096,
    .authState u64 .mapRoot,
    .handoff u64 (List.replicate 48 0),
    .handoff 0 (List.replicate 47 0),
    .handoff 0 (List.replicate 49 0),
    .takeoverT u64,
    .tileKnownAnswerTest 256 false,
    .copy 16 default [],
    .fill 16 default,
    .fence 16 default,
    .flush 16 default,
    .burstGrant (2 ^ 16) [],
    .burstGrant 0 [0, 16],
    .writesArrived 16 0,
    .writesArrived 0 65536,
    .paceRequestResume 16,
    .paceTimeout 16,
    .dmvSvcCfgWrite 13 0,
    .dmvSvcCfgWrite 16 0,
    .dmvSvcTailDoorbell 13 0,
    .dmvSvcTailDoorbell 16 0,
    .dmvSvcHeadDoorbell 13 0,
    .dmvSvcHeadDoorbell 16 0,
    .mapCacheRead u64,
    .mapCacheFillDone u64,
    .mapCacheWrite u64 [],
    .mchPreloadCtrlWrite u64 0,
    .mchWayLockWrite u32,
    .mapLookasideInsert u16 0 0 0 false,
    .mapLookasideInsert 0 u32 0 0 false,
    .mapLookasideInsert 0 0 u64 0 false,
    .mapLookasideInsert 0 0 0 u32 false,
    .mapLookasideRemove u16 0 0,
    .mapLookasideRemove 0 u32 0,
    .mapLookasideRemove 0 0 u64,
    .mapLookasideLookup u16 0 0,
    .mapLookasideLookup 0 u32 0,
    .mapLookasideLookup 0 0 u64,
    .sensorSampleArrival u16 0 0,
    .sensorSampleArrival 0 64 0,
    .sensorStale 64,
    .injectionEnd 64,
    .thermalSensorSample (List.replicate 36 0),
    .thermalSensorSample (List.replicate 38 0),
    .watchdogKick 37,
    .watchdogExpiry 37,
    .watchdogParkWrite 37 false,
    .parkedCoreExecutes 37,
    .hamperScrubRead hamLines 0,
    .hamperScrubRead 0 u16,
    .failSilentDecision 256 0,
    .failSilentDecision 0 u16,
    .eventNotice u16 0,
    .eventNotice 0 u64,
    .hamperAccess .mgmtCore false u64 [],
    .rimPost 64 false [],
    .rimTake 64,
    .registerWrite u32 0,
    .rcRegisterRead u32] : List Instr).all (fun c => !c.wf) = true := by
  decide

/-- Ill-formed commands, one for each check and each end of its range, are refused. -/
theorem test_ill_formed_9 : ([.loRegisterRead u32,
    .hamWinBaseWrite 32 0 0,
    .hamWinBaseWrite 0 0 u16,
    .hamWinSizeWrite 32 0 0,
    .hamWinSizeWrite 0 0 u16,
    .hamWinAccWrite 32 0 0,
    .hamWinAccWrite 0 0 u16,
    .peerLinkTrained (2 ^ 16),
    .peerLinkDown (2 ^ 16),
    .peerResponse u16 0 0 0 [],
    .peerResponse 0 u16 0 0 [],
    .peerResponse 0 0 u16 0 [],
    .peerResponse 0 0 0 u64 [],
    .c0WriteArrivalTimeout 16,
    .selftestComplete [0, 256] 0 0,
    .selftestComplete [] u16 0,
    .selftestComplete [] 0 (2 ^ 37),
    .lockWaitWarning (.tag u16),
    .lockWaitWarning (.plem 64 0),
    .lockWaitWarning (.plem 0 u32)] : List Instr).all (fun c => !c.wf) = true := by
  decide

/-- The same commands at the last value of every range are well formed. -/
theorem test_well_formed_0 : ([.pwrfailRecognised (u64 - 1),
    .pcieLinkTrainStart (2 - 1),
    .pcieConfigRequest (2 - 1),
    .pllLocked (8 - 1),
    .pllLockLost (8 - 1),
    .firmwareBootCheck 5,
    .stakeWaveStart (8 - 1),
    .stakeWaveEnd (8 - 1) (u64 - 1),
    .monitorSelfTest (u16 - 1),
    .tileGate (256 - 1),
    .tileWake (256 - 1),
    .groupAutoOff (24 - 1),
    .groupRestoreComplete (24 - 1),
    .smbusOtherCommand (256 - 1),
    .smbusClockLowTimeout (u64 - 1),
    .entdaa (128 - 1),
    .setdasa (128 - 1) (128 - 1),
    .setEndpointId (256 - 1),
    .getMctpVersionSupport (256 - 1),
    .mctpOtherControl (256 - 1),
    .plemOverMctp false none (256 - 1) (List.replicate 64 0) [],
    .getCertificate (256 - 1) (u16 - 1) (u16 - 1),
    .challenge (256 - 1) (List.replicate 32 0),
    .getMeasurements (256 - 1),
    .keyExchange (256 - 1),
    .finish (u32 - 1) false,
    .heartbeat (u32 - 1),
    .keyUpdate (u32 - 1),
    .endSession (u32 - 1),
    .chunkGet (u32 - 1) (u16 - 1),
    .spdmUnsupportedRequest (256 - 1),
    .plmRingCfgWrite (60 - 1) 0,
    .plmRsqTailDoorbell (60 - 1) 0,
    .plmRcqHeadDoorbell (60 - 1) 0,
    .plemPacketFetch (64 - 1) (List.replicate 64 0) [],
    .plemCommandStart (64 - 1),
    .c0FetchFailure (64 - 1),
    .c0FetchTimeout (64 - 1),
    .nonceExpiry (64 - 1),
    .sessionIdleTimeout (64 - 1),
    .sysIdentify (64 - 1) (u32 - 1),
    .getNonce (64 - 1) (u32 - 1),
    .sessionOpen (64 - 1) (u32 - 1),
    .sessionClose (64 - 1) (u32 - 1),
    .sysStatus (64 - 1) (u32 - 1),
    .serviceStart (64 - 1) (u32 - 1),
    .serviceStop (64 - 1) (u32 - 1),
    .portEnable (64 - 1) (u32 - 1),
    .deviceDoze (64 - 1) (u32 - 1),
    .resetDevice (64 - 1) (u32 - 1),
    .handleEligible (64 - 1) (u32 - 1),
    .handleTransfer (64 - 1) (u32 - 1),
    .ownerEnroll (64 - 1) (u32 - 1),
    .setParam (64 - 1) (u32 - 1),
    .getParam (64 - 1) (u32 - 1),
    .setParams (64 - 1) (u32 - 1),
    .configSeal (64 - 1) (u32 - 1),
    .regWrite (64 - 1) (u32 - 1),
    .regRead (64 - 1) (u32 - 1),
    .volCreate (64 - 1) (u32 - 1)] : List Instr).all (fun c => c.wf) = true := by
  decide

/-- The same commands at the last value of every range are well formed. -/
theorem test_well_formed_1 : ([.volDelete (64 - 1) (u32 - 1),
    .volResize (64 - 1) (u32 - 1),
    .volSetAccess (64 - 1) (u32 - 1),
    .volQuery (64 - 1) (u32 - 1),
    .snapCreate (64 - 1) (u32 - 1),
    .snapDelete (64 - 1) (u32 - 1),
    .volClone (64 - 1) (u32 - 1),
    .secureDiscard (64 - 1) (u32 - 1),
    .domainCreate (64 - 1) (u32 - 1),
    .packAdmit (64 - 1) (u32 - 1),
    .packRetire (64 - 1) (u32 - 1),
    .layoutChange (64 - 1) (u32 - 1),
    .rebuildCtrl (64 - 1) (u32 - 1),
    .mediaHealth (64 - 1) (u32 - 1),
    .lostListRead (64 - 1) (u32 - 1),
    .lostListClear (64 - 1) (u32 - 1),
    .keyGenerate (64 - 1) (u32 - 1),
    .keyLoad (64 - 1) (u32 - 1),
    .keyExport (64 - 1) (u32 - 1),
    .keyDestroy (64 - 1) (u32 - 1),
    .keyInstallSa (64 - 1) (u32 - 1),
    .keyQuery (64 - 1) (u32 - 1),
    .cipherOp (64 - 1) (u32 - 1) [],
    .auditRead (64 - 1) (u32 - 1),
    .auditDrain (64 - 1) (u32 - 1),
    .auditSeal (64 - 1) (u32 - 1),
    .bootRecordRead (64 - 1) (u32 - 1),
    .bootRecordDrain (64 - 1) (u32 - 1),
    .attestQuote (64 - 1) (u32 - 1),
    .setTime (64 - 1) (u32 - 1),
    .replPair (64 - 1) (u32 - 1),
    .replStart (64 - 1) (u32 - 1) (u16 - 1),
    .replStop (64 - 1) (u32 - 1),
    .replStatus (64 - 1) (u32 - 1),
    .regionRegister (64 - 1) (u32 - 1),
    .regionRevoke (64 - 1) (u32 - 1),
    .connTeardown (64 - 1) (u32 - 1),
    .evrRead (64 - 1) (u32 - 1),
    .evrClear (64 - 1) (u32 - 1),
    .wvrInject (64 - 1) (u32 - 1),
    .wvrCapture (64 - 1) (u32 - 1),
    .selftest (64 - 1) (u32 - 1),
    .thermStatus (64 - 1) (u32 - 1),
    .stageImage (64 - 1) (u32 - 1),
    .activateImage (64 - 1) (u32 - 1),
    .fwQuery (64 - 1) (u32 - 1),
    .packFwLoad (64 - 1) (u32 - 1),
    .migrateStatus (64 - 1) (u32 - 1),
    .packFwMeasureTimeout (64 - 1),
    .formatRaise (u16 - 1),
    .ptpSyncReceived (u16 - 1) (256 - 1) (256 - 1) (u64 - 1) 0,
    .nvmeSqDoorbell (u16 - 1) (u16 - 1) (u16 - 1),
    .nvmeDeleteIoSq (u16 - 1) (u16 - 1) (u16 - 1),
    .nvmeDeleteIoCq (u16 - 1) (u16 - 1) (u16 - 1),
    .nvmeCreateIoSq (u16 - 1) (u16 - 1) (u16 - 1) (u16 - 1) (65536 - 1) false,
    .nvmeCreateIoCq (u16 - 1) (u16 - 1) (u16 - 1) (65536 - 1) false,
    .nvmeGetLogPage (u16 - 1) (u16 - 1) { lid := 256 - 1, numd := u32 - 1, sglLen := u32 - 1 },
    .nvmeIdentify (u16 - 1) (u16 - 1) { cns := 256 - 1, csi := 256 - 1 } (u32 - 1),
    .nvmeAbort (u16 - 1) (u16 - 1) (u16 - 1) (u16 - 1),
    .abortArbitration (u16 - 1) (u16 - 1)] : List Instr).all (fun c => c.wf) = true := by
  decide

/-- The same commands at the last value of every range are well formed. -/
theorem test_well_formed_2 : ([.nvmeSetFeaturesPower (u16 - 1) (u16 - 1) (32 - 1),
    .nvmeSetFeaturesQueues (u16 - 1) (u16 - 1) (u32 - 1),
    .nvmeSetFeatures (u16 - 1) (u16 - 1) (256 - 1) (u64 - 1),
    .nvmeGetFeatures (u16 - 1) (u16 - 1) (256 - 1),
    .nvmeAsyncEventRequest (u16 - 1) (u16 - 1),
    .nvmeKeepAlive (u16 - 1) (u16 - 1),
    .keepAliveExpiry (u16 - 1),
    .fabricsConnect (2 ^ 20 - 1) (u16 - 1) none (u16 - 1) (65536 - 1) false [],
    .fabricsPropertyGet (u16 - 1) (u16 - 1) (u32 - 1),
    .fabricsPropertySet (u16 - 1) (u16 - 1) (u32 - 1) (u64 - 1),
    .fabricsDisconnect (u16 - 1) (u16 - 1),
    .fabricsConnectionLoss (u16 - 1),
    .ccEnClear (u16 - 1),
    .ccEnSet (u16 - 1) (8 - 1),
    .functionLevelReset (u16 - 1),
    .nvmeFlush (u16 - 1) (u16 - 1) (u16 - 1) (u32 - 1),
    .nvmeWrite (u16 - 1) (u16 - 1) (u16 - 1) (u32 - 1) (u64 - 1) (65536 - 1) default (u32 - 1),
    .nvmeRead (u16 - 1) (u16 - 1) (u16 - 1) (u32 - 1) (u64 - 1) (65536 - 1) default (u32 - 1),
    .nvmeCompare (u16 - 1) (u16 - 1) (u16 - 1) (u32 - 1) (u64 - 1) (65536 - 1) default (u32 - 1),
    .nvmeWriteZeroes (u16 - 1) (u16 - 1) (u16 - 1) (u32 - 1) (u64 - 1) (65536 - 1) false,
    .nvmeDatasetManagement (u16 - 1) (u16 - 1) (u16 - 1) (u32 - 1) false { nr := 256 - 1, ranges := [], sglLen := u32 - 1 },
    .nvmeVerify (u16 - 1) (u16 - 1) (u16 - 1) (u32 - 1) (u64 - 1) (65536 - 1) default,
    .nvmeInvalidOpcode (u16 - 1) { sq := u16 - 1, cid := u16 - 1 } (256 - 1),
    .writePayloadData (u16 - 1) [] false false,
    .readDataReady (u16 - 1),
    .ownershipMovePass (u32 - 1) (u64 - 1),
    .ethLinkChange (32 - 1) false (u16 - 1) (256 - 1) false,
    .arpRequest (32 - 1) [],
    .neighborSolicitation (32 - 1) [],
    .icmpEchoRequest (32 - 1) [] [],
    .tcpSyn (32 - 1) (u16 - 1) none,
    .nvmeTcpIcreq (2 ^ 20 - 1) false false false,
    .espInboundPacket (u32 - 1) (u32 - 1) false,
    .send (2 ^ 20 - 1) { psn := 2 ^ 24 - 1, ce := false } (u32 - 1) false false [],
    .rdmaWrite (2 ^ 20 - 1) { psn := 2 ^ 24 - 1, ce := false } (u32 - 1) (u64 - 1) (u32 - 1) false false none [],
    .rdmaReadRequest (2 ^ 20 - 1) { psn := 2 ^ 24 - 1, ce := false } (u32 - 1) (u64 - 1) (u32 - 1),
    .rdmaReadResponse (2 ^ 20 - 1) { psn := 2 ^ 24 - 1, ce := false } false [],
    .acknowledge (2 ^ 20 - 1) { psn := 2 ^ 24 - 1, ce := false } (256 - 1),
    .atomicAcknowledge (2 ^ 20 - 1) { psn := 2 ^ 24 - 1, ce := false } (u64 - 1),
    .compareSwap (2 ^ 20 - 1) { psn := 2 ^ 24 - 1, ce := false } (u32 - 1) (u64 - 1) (u64 - 1) (u64 - 1),
    .fetchAdd (2 ^ 20 - 1) { psn := 2 ^ 24 - 1, ce := false } (u32 - 1) (u64 - 1) (u64 - 1),
    .cnp (2 ^ 20 - 1),
    .roceUnsupportedPacket (2 ^ 20 - 1) (2 ^ 24 - 1) false false,
    .cmReq (32 - 1) (4 - 1) (u16 - 1) none,
    .cmRep (2 ^ 20 - 1),
    .cmRtu (2 ^ 20 - 1),
    .cmRej (2 ^ 20 - 1) (u16 - 1),
    .cmDreq (2 ^ 20 - 1),
    .cmDrep (2 ^ 20 - 1),
    .cmMra (2 ^ 20 - 1),
    .contextFetchDone (2 ^ 20 - 1),
    .retransmitTimeout (2 ^ 20 - 1),
    .pendingSaExpiry (u32 - 1),
    .oldSaExpiry (2 ^ 20 - 1),
    .revokeDrainTimeout (2 ^ 20 - 1),
    .teardownDrainEnd (2 ^ 20 - 1),
    .asyncCycleStart (u32 - 1),
    .asyncCycleEnd (u32 - 1),
    .remoteRecordAck (u32 - 1) (u64 - 1),
    .syncRemoteLoss (u32 - 1)] : List Instr).all (fun c => c.wf) = true := by
  decide

/-- The same commands at the last value of every range are well formed. -/
theorem test_well_formed_3 : ([.coldLookupDone (u16 - 1) none,
    .lookasideRequest (256 - 1) (4096 - 1) (256 - 1) (256 - 1) (u32 - 1) (u32 - 1) [] (u64 - 1) (u64 - 1) [] [] false,
    .coilLinesPersisted (u64 - 1),
    .mirror (u64 - 1) [],
    .mirrorAck (u64 - 1) (u64 - 1),
    .stripAdd (u64 - 1) [] false,
    .segmentSeal (u64 - 1) false false,
    .sealAgeTimeout (u64 - 1),
    .absenceDeclareTimeout (64 - 1),
    .segmentReconstructDone (u64 - 1) false,
    .rebuildEnd (64 - 1),
    .checkpointLoad [0, 63],
    .bandFree (u64 - 1),
    .readDisturbVerify (64 - 1) (u32 - 1),
    .stakeLinkTrained (64 - 1),
    .stakeTrainingFailed (64 - 1),
    .stakeTransactionFrame (64 - 1) [],
    .stakeAck (64 - 1) (u16 - 1),
    .stakeNak (64 - 1) (u16 - 1),
    .stakeCredit (64 - 1) (8 - 1) (u16 - 1) (u16 - 1),
    .stakeKeepAlive (64 - 1),
    .stakeKeepAliveDue (64 - 1),
    .stakeRxIdleTimeout (64 - 1),
    .stakeRecoveryTimeout (64 - 1),
    .stakeReplayTimeout (64 - 1),
    .stakeResponseTimeout (64 - 1) (u16 - 1),
    .identResponse (64 - 1) (u16 - 1) (u16 - 1) default,
    .geomResponse (64 - 1) (u16 - 1) (u16 - 1) default,
    .readResponse (64 - 1) (u16 - 1) (u16 - 1) (u64 - 1) false,
    .programResponse (64 - 1) (u16 - 1) (u16 - 1) (u64 - 1),
    .eraseResponse (64 - 1) (u16 - 1) (u16 - 1) (u64 - 1),
    .healthResponse (64 - 1) (u16 - 1) (u16 - 1) false,
    .tempResponse (64 - 1) (u16 - 1) (u16 - 1) 0,
    .fwMeasureResponse (64 - 1) (u16 - 1) (u16 - 1) (List.replicate 48 0) (u64 - 1) (u16 - 1) (256 - 1),
    .fwLoadResponse (64 - 1) (u16 - 1) (u16 - 1),
    .fencePortResponse (64 - 1) (u16 - 1) (u16 - 1) (u64 - 1),
    .setEpochResponse (64 - 1) (u16 - 1) (u16 - 1) (u64 - 1),
    .unpair (u16 - 1),
    .peerPlem (List.replicate 64 0) [],
    .carry (List.replicate 64 0) [],
    .keyXfer (List.replicate 16 0),
    .fwdCmd (u16 - 1) (256 - 1) default,
    .packRelay (64 - 1) (u32 - 1) (u32 - 1) (u32 - 1) false,
    .refTake (u64 - 1) (4096 - 1),
    .authState (u64 - 1) .mapRoot,
    .handoff (u64 - 1) (List.replicate 48 0),
    .takeoverT (u64 - 1),
    .tileKnownAnswerTest (256 - 1) false,
    .copy (16 - 1) default [],
    .fill (16 - 1) default,
    .fence (16 - 1) default,
    .flush (16 - 1) default,
    .burstGrant (2 ^ 16 - 1) [0, 15],
    .writesArrived (16 - 1) (65536 - 1),
    .paceRequestResume (16 - 1),
    .paceTimeout (16 - 1),
    .dmvSvcCfgWrite 15 0,
    .dmvSvcTailDoorbell 15 0,
    .dmvSvcHeadDoorbell 15 0,
    .mapCacheRead (u64 - 1)] : List Instr).all (fun c => c.wf) = true := by
  decide

/-- The same commands at the last value of every range are well formed. -/
theorem test_well_formed_4 : ([.mapCacheFillDone (u64 - 1),
    .mapCacheWrite (u64 - 1) [],
    .mchPreloadCtrlWrite (u64 - 1) 0,
    .mchWayLockWrite (u32 - 1),
    .mapLookasideInsert (u16 - 1) (u32 - 1) (u64 - 1) (u32 - 1) false,
    .mapLookasideRemove (u16 - 1) (u32 - 1) (u64 - 1),
    .mapLookasideLookup (u16 - 1) (u32 - 1) (u64 - 1),
    .sensorSampleArrival (u16 - 1) (64 - 1) 0,
    .sensorStale (64 - 1),
    .injectionEnd (64 - 1),
    .thermalSensorSample (List.replicate 37 0),
    .watchdogKick (37 - 1),
    .watchdogExpiry (37 - 1),
    .watchdogParkWrite (37 - 1) false,
    .parkedCoreExecutes (37 - 1),
    .hamperScrubRead (hamLines - 1) (u16 - 1),
    .failSilentDecision (256 - 1) (u16 - 1),
    .eventNotice (u16 - 1) (u64 - 1),
    .hamperAccess .mgmtCore false (u64 - 1) [],
    .rimPost (64 - 1) false [],
    .rimTake (64 - 1),
    .registerWrite (u32 - 1) 0,
    .rcRegisterRead (u32 - 1),
    .loRegisterRead (u32 - 1),
    .hamWinBaseWrite (32 - 1) 0 (u16 - 1),
    .hamWinSizeWrite (32 - 1) 0 (u16 - 1),
    .hamWinAccWrite (32 - 1) 0 (u16 - 1),
    .peerLinkTrained (2 ^ 16 - 1),
    .peerLinkDown (2 ^ 16 - 1),
    .peerResponse (u16 - 1) (u16 - 1) (u16 - 1) (u64 - 1) [],
    .c0WriteArrivalTimeout (16 - 1),
    .selftestComplete [0, 255] (u16 - 1) (2 ^ 37 - 1),
    .lockWaitWarning (.tag (u16 - 1)),
    .lockWaitWarning (.plem (64 - 1) (u32 - 1))] : List Instr).all (fun c => c.wf) = true := by
  decide


/-! ### The hypotheses of the statements are met -/

/-- A started command of ring 3, sequence 1, with an empty packet. -/
def K (op : Nat) : Cmd := { ring := 3, seq := 1, opcode := op, packet := [], block := [], session := 0, role := 0, running := true }

/-- The device after reset with that command started. -/
def S1 (op : Nat) : State := { State.reset with plem.cmds := [K op] }

/-- The same with a packet. -/
def KP (op : Nat) (p : List Byte) : Cmd := { K op with packet := p }

/-- The device after reset with that command started. -/
def SP (op : Nat) (p : List Byte) : State := { State.reset with plem.cmds := [KP op p] }

/-- An AUDIT_DRAIN of entry 0, with its hash. -/
def DR : Cmd := { K opAuditDrain with block := Config.sha384 (entryBytes { kind := 3 } 0) }

/-- A BOOT_RECORD_DRAIN of record 1, with its hash. -/
def BR : Cmd := { K opBootRecordDrain with packet := zeros 24 ++ [1], block := Config.sha384 (recordBytes { counter := 1 }) }

/-- A SYS_IDENTIFY packet, sequence 0, with no session. -/
def PKG : List Byte := [1, 0, 0, 1]

/-- The row of SYS_IDENTIFY. -/
def OPX : OpSpec := ⟨0x0001, false, 0b11110, true, true, false, 0b1111, false⟩

/-- A SET_PARAMS of one entry, PID 0x0010 to 7. -/
def PSC : Cmd := { KP opSetParams (zeros 24 ++ [1]) with block := [0x10, 0, 4, 0, 0, 0, 0, 0, 7, 0, 0, 0, 0, 0, 0, 0] }

/-- Window entry 20, disabled, with a range beyond the Hamper. -/
def WST : State := { State.reset with ham.win := updAt 20 (fun w => { w with base := 32767, size := 32767 }) State.reset.ham.win }

/-- A CIPHER_OP in CTR mode on slot 3, 16 bytes. -/
def CIC : Cmd := { KP opCipherOp (zeros 24 ++ [3, 0, 3, 0, 16, 0, 0, 0] ++ zeros 16 ++ [16]) with block := zeros 16 }

/-- A key blob under the device root wrapping key, usage 5. -/
def KLB : List Byte := [1, 0, 5, 0] ++ zeros (68 + keyBytes 5)

/-- A REPL_PAIR block of one legacy path on sub-port 0. -/
def RPB : List Byte := zeros 20 ++ [1, 1] ++ zeros 26

/-- A generation of 2 + 1 + 1 over five members. -/
def LSG : Gen := { num := 1, d := 2, p := 1, s := 1, r := 1, members := 31 }

/-- An array with one open band, its first segment open, and one bundle in Coil alone. -/
def LST : State := { State.reset with
  col.replayStep := 6, nv.genCur := some LSG, nv.bands := [{ num := 0, gen := 1 }], nv.segs := [{ num := 0 }], nv.bundles := [{ id := 1 }] }


/-- The array with a live extent of band 0 copied to segment 1. -/
def GCS : State := { LST with
  med.batch := some { num := 0, victims := [0], moves := [(1, 1, 0)] },
  nv.bundles := [{ id := 1, chunks := [1], place := some (0, 0) }], nv.stored := [{ id := 1 }] }

/-- A pack's geometry with a rated read count. -/
def RDG : Geom := { ratedReads := 100, blocks := 1, rated := 1 }

/-- A reached pack whose block 0 was read often. -/
def RDS : State := { LST with
  nv.packs := [{ port := 0, geom := RDG, cond := 0 }], med.reads := [(0, 0, 100)], stk.ports := [{ num := 0, link := 3, startStep := 4 }] }

/-- Two members, one worn. -/
def WSS : State := { LST with
  nv.packs := [{ port := 0, geom := RDG, cond := 0 }, { port := 1, geom := RDG, cond := 0, cycles := [(0, 50)] }] }

/-- A REGION_REGISTER on a legacy connection, with window 3 at 0. -/
def RGS : State := { S1 opRegionRegister with
  rma.conns := [{ num := 0, cls := 2, prot := 2 }], ham.win := updAt 3 (fun w => { w with base := 0, size := 16 }) State.reset.ham.win }

/-- A device whose window 0 is cacheable. -/
def MCS : State := { State.reset with plem.pids := [(0x0E10, 1)], ham.win := [{ base := 0, size := 1, enable := true, owner := 2 }] }

/-- A Hamper that lane 0 may read at address 0. -/
def DMS : State := { State.reset with ham.win := [{ base := 0, size := 1, enable := true, owner := 1 }] }

set_option maxRecDepth 100000 in
/-- The hypotheses of PowerOnResetAndRailsCommands are met. -/
theorem test_met_PowerOnResetAndRailsCommands_0 :
    (({ State.reset with pins.pwrok := false } : State).pins.pwrok = false) ∧ (({ State.reset with pins.pwrok := false } : State).pins.aonInRange = true) ∧
    ((State.reset : State).pins.pwrok = true) ∧
    (({ State.reset with pins.aonInRange := false } : State).pins.aonInRange = false) ∧
    (({ State.reset with pins.pwrok := false, aon.trip := true } : State).pins.aonInRange = true) ∧
    (({ State.reset with boot.warmPending := true } : State).boot.warmPending = true) ∧ (({ State.reset with boot.warmPending := true } : State).saf.failSilent = false) ∧ (({ State.reset with boot.warmPending := true } : State).boot.pwrfailLatched = false) := by
  decide

set_option maxRecDepth 100000 in
/-- The hypotheses of PowerOnResetAndRailsCommands are met. -/
theorem test_met_PowerOnResetAndRailsCommands_1 :
    ((State.reset : State).pins.pwrok = true) ∧ ((State.reset : State).boot.pwrfailLatched = false) ∧ (1000 ≤ (1000 : Nat)) ∧
    ((199 : Nat) < 200) ∧
    (({ State.reset with boot.stopping := true } : State).boot.stopping = true) ∧
    (({ State.reset with boot.stopping := true, boot.frontEndsStopped := true } : State).boot.stopping = true) ∧ (({ State.reset with boot.stopping := true, boot.frontEndsStopped := true } : State).boot.frontEndsStopped = true) := by
  decide

set_option maxRecDepth 100000 in
/-- The hypotheses of ClockAndPllCommands are met. -/
theorem test_met_ClockAndPllCommands_0 :
    ((State.reset : State).pins.pwrok = true) ∧ ((State.reset : State).boot.served = false) ∧
    (({ State.reset with boot.served := true } : State).pins.pwrok = true) ∧ (({ State.reset with boot.served := true } : State).boot.served = true) ∧
    ((State.reset : State).pins.pwrok = true) ∧
    ((State.reset : State).pins.pwrok = true) ∧
    ((State.reset : State).boot.fastStopped = false) ∧ (starting (State.reset : State) = true) ∧ ((7 : Nat) < 8) ∧ (((State.reset : State).pwr.doze = false ∨ (State.reset : State).pwr.waking = true ∨ 4 ≤ (7 : Nat))) := by
  decide

set_option maxRecDepth 100000 in
/-- The hypotheses of ClockAndPllCommands are met. -/
theorem test_met_ClockAndPllCommands_1 :
    ((State.reset : State).boot.fastStopped = false) ∧ ((7 : Nat) < 8) ∧ (((State.reset : State).pwr.doze = false ∨ 4 ≤ (7 : Nat))) ∧ ((State.reset : State).boot.served = false) ∧
    (({ State.reset with boot.served := true } : State).boot.fastStopped = false) ∧ ((0 : Nat) < 8) ∧ ((({ State.reset with boot.served := true } : State).pwr.doze = false ∨ 4 ≤ (0 : Nat))) ∧ (({ State.reset with boot.served := true } : State).boot.served = true) := by
  decide

set_option maxRecDepth 100000 in
/-- The hypotheses of StartUpMilestones are met. -/
theorem test_met_StartUpMilestones_0 :
    (starting (State.reset : State) = true) ∧
    ((State.reset : State).pins.pwrok = true) ∧ ((State.reset : State).boot.sbEarly = false) ∧
    (starting ({ State.reset with boot.romReading := true } : State) = true) ∧ (({ State.reset with boot.romReading := true } : State).boot.romReading = true) ∧ (({ State.reset with boot.romReading := true } : State).boot.fusesLoaded = false) ∧ (({ State.reset with boot.romReading := true } : State).brd.udsOpen = true) ∧
    (starting ({ State.reset with boot.fusesLoaded := true, fw.running := [some 0, some 1] } : State) = true) ∧ (({ State.reset with boot.fusesLoaded := true, fw.running := [some 0, some 1] } : State).boot.fusesLoaded = true) ∧ (({ State.reset with boot.fusesLoaded := true, fw.running := [some 0, some 1] } : State).fw.running[0]? = some (some (0 : Nat))) ∧ (({ State.reset with boot.fusesLoaded := true, fw.running := [some 0, some 1] } : State).fw.running[1]? = some (some (1 : Nat))) ∧ (({ State.reset with boot.fusesLoaded := true, fw.running := [some 0, some 1] } : State).brd.udsOpen = true) ∧
    (starting ({ State.reset with boot.mgtRunning := true } : State) = true) ∧ (({ State.reset with boot.mgtRunning := true } : State).boot.mgtRunning = true) := by
  decide

set_option maxRecDepth 100000 in
/-- The hypotheses of StartUpMilestones are met. -/
theorem test_met_StartUpMilestones_1 :
    (starting (State.reset : State) = true) ∧
    (starting ({ State.reset with boot.mgtRunning := true, boot.hamperReady := true, brd.counterDone := true } : State) = true) ∧ (({ State.reset with boot.mgtRunning := true, boot.hamperReady := true, brd.counterDone := true } : State).boot.mgtRunning = true) ∧ (({ State.reset with boot.mgtRunning := true, boot.hamperReady := true, brd.counterDone := true } : State).boot.hamperReady = true) ∧ (({ State.reset with boot.mgtRunning := true, boot.hamperReady := true, brd.counterDone := true } : State).brd.counterDone = true) ∧
    (starting (State.reset : State) = true) ∧
    (({ State.reset with boot.linkUpC0 := true } : State).boot.fastStopped = false) ∧ (({ State.reset with boot.linkUpC0 := true } : State).boot.linkUpC0 = true) ∧ (({ State.reset with boot.linkUpC0 := true } : State).boot.plemReady = false) ∧
    (({ State.reset with boot.linkUpC1 := true } : State).boot.fastStopped = false) ∧ (({ State.reset with boot.linkUpC1 := true } : State).boot.linkUpC1 = true) ∧ (({ State.reset with boot.linkUpC1 := true } : State).boot.plemReady = false) := by
  decide

set_option maxRecDepth 100000 in
/-- The hypotheses of StartUpMilestones are met. -/
theorem test_met_StartUpMilestones_2 :
    (({ State.reset with boot.linkUpC0 := true, boot.plemReady := true } : State).boot.fastStopped = false) ∧ (({ State.reset with boot.linkUpC0 := true, boot.plemReady := true } : State).boot.linkUpC0 = true) ∧ (({ State.reset with boot.linkUpC0 := true, boot.plemReady := true } : State).boot.plemReady = true) ∧
    (({ State.reset with boot.linkUpC1 := true, boot.plemReady := true } : State).boot.fastStopped = false) ∧ (({ State.reset with boot.linkUpC1 := true, boot.plemReady := true } : State).boot.linkUpC1 = true) ∧ (({ State.reset with boot.linkUpC1 := true, boot.plemReady := true } : State).boot.plemReady = true) := by
  decide

set_option maxRecDepth 100000 in
/-- The hypotheses of WavesAndMonitorTest are met. -/
theorem test_met_WavesAndMonitorTest_0 :
    (starting (State.reset : State) = true) ∧ ((State.reset : State).saf.failSilent = false) ∧ ((0 : Nat) = (State.reset : State).boot.wavesBegun) ∧ ((0 : Nat) < 8) ∧
    (({ State.reset with boot.wavesBegun := 1 } : State).boot.fastStopped = false) ∧ (({ State.reset with boot.wavesBegun := 1 } : State).saf.failSilent = false) ∧ (starting ({ State.reset with boot.wavesBegun := 1 } : State) = true) ∧ ((0 : Nat) < ({ State.reset with boot.wavesBegun := 1 } : State).boot.wavesBegun) ∧ (bit ({ State.reset with boot.wavesBegun := 1 } : State).boot.wavesDone (0 : Nat) = false) ∧
    (starting (State.reset : State) = true) ∧ ((State.reset : State).saf.failSilent = false) ∧
    ((State.reset : State).boot.fastStopped = false) ∧ ((State.reset : State).saf.failSilent = false) ∧ (starting (State.reset : State) = true) ∧ ((State.reset : State).hdl.linkUp = false) ∧ (pidVal (State.reset : State) 0x0D11 = 0) ∧
    ((State.reset : State).boot.fastStopped = false) ∧ ((State.reset : State).boot.recSealed = false) ∧ (starting (State.reset : State) = true) := by
  decide

set_option maxRecDepth 100000 in
/-- The hypotheses of WavesAndMonitorTest are met. -/
theorem test_met_WavesAndMonitorTest_1 :
    ((State.reset : State).boot.fastStopped = false) ∧ ((State.reset : State).boot.recSealed = false) ∧ (starting (State.reset : State) = true) ∧ ((1 : Nat) ≠ 0) := by
  decide

set_option maxRecDepth 100000 in
/-- The hypotheses of TilesGroupsAndDoze are met. -/
theorem test_met_TilesGroupsAndDoze_0 :
    ((State.reset : State).boot.fastStopped = false) ∧ ((State.reset : State).saf.failSilent = false) ∧ ((State.reset : State).pwr.doze = false) ∧ ((255 : Nat) < 256) ∧ (tileState (State.reset : State) (255 : Nat) = 0) ∧
    (({ State.reset with pwr.tiles := List.replicate 256 1 } : State).boot.fastStopped = false) ∧ (({ State.reset with pwr.tiles := List.replicate 256 1 } : State).saf.failSilent = false) ∧ (({ State.reset with pwr.tiles := List.replicate 256 1 } : State).pwr.doze = false) ∧ ((255 : Nat) < 256) ∧ (tileState ({ State.reset with pwr.tiles := List.replicate 256 1 } : State) (255 : Nat) = 1) ∧
    (({ State.reset with pwr.tiles := List.replicate 256 2 } : State).boot.fastStopped = false) ∧ (({ State.reset with pwr.tiles := List.replicate 256 2 } : State).saf.failSilent = false) ∧ (({ State.reset with pwr.tiles := List.replicate 256 2 } : State).pwr.doze = false) ∧ ((0 : Nat) < 256) ∧ (tileState ({ State.reset with pwr.tiles := List.replicate 256 2 } : State) (0 : Nat) = 2) ∧ (({ State.reset with pwr.tiles := List.replicate 256 2 } : State).pwr.wakeQueue = []) ∧ (({ State.reset with pwr.tiles := List.replicate 256 2 } : State).pwr.restoring = []) ∧
    (({ State.reset with pwr.tiles := List.replicate 256 1, plem.pids := [(0x0211, 1)] } : State).boot.fastStopped = false) ∧ (({ State.reset with pwr.tiles := List.replicate 256 1, plem.pids := [(0x0211, 1)] } : State).saf.failSilent = false) ∧ (({ State.reset with pwr.tiles := List.replicate 256 1, plem.pids := [(0x0211, 1)] } : State).pwr.doze = false) ∧ ((23 : Nat) < 24) ∧ (pidVal ({ State.reset with pwr.tiles := List.replicate 256 1, plem.pids := [(0x0211, 1)] } : State) 0x0211 ≠ 0) ∧ (bit ({ State.reset with pwr.tiles := List.replicate 256 1, plem.pids := [(0x0211, 1)] } : State).pwr.groupOff (23 : Nat) = false) ∧ ((({ State.reset with pwr.tiles := List.replicate 256 1, plem.pids := [(0x0211, 1)] } : State).pwr.tiles.zipIdx.all fun e => e.1 == 1) = true) ∧
    (({ State.reset with pwr.wakeQueue := [(5000, 3), (4000, 7)] } : State).boot.fastStopped = false) ∧ (({ State.reset with pwr.wakeQueue := [(5000, 3), (4000, 7)] } : State).saf.failSilent = false) ∧ (({ State.reset with pwr.wakeQueue := [(5000, 3), (4000, 7)] } : State).pwr.doze = false) ∧ (nextGroup ({ State.reset with pwr.wakeQueue := [(5000, 3), (4000, 7)] } : State).pwr.wakeQueue = some ((4000, 7) : Nat × Nat)) := by
  decide

set_option maxRecDepth 100000 in
/-- The hypotheses of TilesGroupsAndDoze are met. -/
theorem test_met_TilesGroupsAndDoze_1 :
    (({ State.reset with pwr.restoring := [3] } : State).boot.fastStopped = false) ∧ (({ State.reset with pwr.restoring := [3] } : State).saf.failSilent = false) ∧ (({ State.reset with pwr.restoring := [3] } : State).pwr.doze = false) ∧ (({ State.reset with pwr.restoring := [3] } : State).pwr.restoring.contains (3 : Nat) = true) ∧
    (({ State.reset with pwr.doze := true } : State).boot.fastStopped = false) ∧ (({ State.reset with pwr.doze := true } : State).pwr.doze = true) ∧
    (({ State.reset with pwr.doze := true, pwr.waking := true } : State).boot.fastStopped = false) ∧ (({ State.reset with pwr.doze := true, pwr.waking := true } : State).pwr.doze = true) ∧ (({ State.reset with pwr.doze := true, pwr.waking := true } : State).pwr.waking = true) := by
  decide

set_option maxRecDepth 100000 in
/-- The hypotheses of SidebandEarlyAnswers are met. -/
theorem test_met_SidebandEarlyAnswers_0 :
    (smbusAnswers ({ State.reset with boot.sbEarly := true, boot.fusesLoaded := true } : State) = true) ∧ (({ State.reset with boot.sbEarly := true, boot.fusesLoaded := true } : State).boot.fusesLoaded = true) ∧
    (smbusAnswers ({ State.reset with boot.sbEarly := true, thm.sensors := [{ valid := true, reading := 400 }] } : State) = true) ∧ (hottest ({ State.reset with boot.sbEarly := true, thm.sensors := [{ valid := true, reading := 400 }] } : State) = some ((400, 0) : Int × Nat)) ∧
    (smbusAnswers ({ State.reset with boot.sbEarly := true } : State) = true) ∧ (mctpAnswers ({ State.reset with boot.sbEarly := true } : State) = true) ∧
    (mctpAnswers ({ State.reset with boot.sbEarly := true } : State) = true) ∧
    (smbusAnswers ({ State.reset with boot.sbEarly := true } : State) = true) ∧ (mctpAnswers ({ State.reset with boot.sbEarly := true } : State) = true) ∧ (fullService ({ State.reset with boot.sbEarly := true } : State) = false) := by
  decide

set_option maxRecDepth 100000 in
/-- The hypotheses of SidebandEarlyAnswers are met. -/
theorem test_met_SidebandEarlyAnswers_1 :
    ((State.reset : State).boot.i3c = false) ∧ (35 ≤ (35 : Nat)) ∧
    ((State.reset : State).pins.pwrok = true) ∧
    (({ State.reset with boot.i3c := true } : State).boot.i3c = true) ∧ (({ State.reset with boot.i3c := true } : State).boot.i3cAddr = 0) ∧
    (((TapInstr.extestTrain : TapInstr) = .extest ∨ (TapInstr.extestTrain : TapInstr) = .extestPulse ∨ (TapInstr.extestTrain : TapInstr) = .extestTrain ∨ (TapInstr.extestTrain : TapInstr) = .samplePreload)) ∧ ((State.reset : State).boot.serviceEver = false) ∧
    (((TapInstr.samplePreload : TapInstr) = .extest ∨ (TapInstr.samplePreload : TapInstr) = .extestPulse ∨ (TapInstr.samplePreload : TapInstr) = .extestTrain ∨ (TapInstr.samplePreload : TapInstr) = .samplePreload)) ∧ (({ State.reset with boot.serviceEver := true } : State).boot.serviceEver = true) := by
  decide

set_option maxRecDepth 100000 in
/-- The hypotheses of SystemReadsAnswer are met. -/
theorem test_met_SystemReadsAnswer_0 :
    ((S1 opSysIdentify : State).boot.fastStopped = false) ∧ (opCmd (S1 opSysIdentify : State) (3 : Nat) (1 : Nat) opSysIdentify = some (K opSysIdentify : Cmd)) ∧
    ((S1 opGetNonce : State).boot.fastStopped = false) ∧ (opCmd (S1 opGetNonce : State) (3 : Nat) (1 : Nat) opGetNonce = some (K opGetNonce : Cmd)) ∧
    ((S1 opSysStatus : State).boot.fastStopped = false) ∧ (opCmd (S1 opSysStatus : State) (3 : Nat) (1 : Nat) opSysStatus = some (K opSysStatus : Cmd)) ∧
    (({ S1 opAuditRead with nv.chain := [{ kind := 3 }] } : State).boot.fastStopped = false) ∧ (opCmd ({ S1 opAuditRead with nv.chain := [{ kind := 3 }] } : State) (3 : Nat) (1 : Nat) opAuditRead = some (K opAuditRead : Cmd)) ∧ (pk (K opAuditRead : Cmd) 24 8 < ({ S1 opAuditRead with nv.chain := [{ kind := 3 }] } : State).nv.chain.length) ∧ (({ S1 opAuditRead with nv.chain := [{ kind := 3 }] } : State).nv.chain.length ≤ pk (K opAuditRead : Cmd) 24 8 + auditCap) ∧
    (({ S1 opBootRecordRead with nv.records := [{ counter := 0 }] } : State).boot.fastStopped = false) ∧ (opCmd ({ S1 opBootRecordRead with nv.records := [{ counter := 0 }] } : State) (3 : Nat) (1 : Nat) opBootRecordRead = some (K opBootRecordRead : Cmd)) ∧ (recordOf ({ S1 opBootRecordRead with nv.records := [{ counter := 0 }] } : State) (pk (K opBootRecordRead : Cmd) 24 8) = some ({ counter := 0 } : BootRecord)) := by
  decide

set_option maxRecDepth 100000 in
/-- The hypotheses of SystemReadsAnswer are met. -/
theorem test_met_SystemReadsAnswer_1 :
    (({ SP opAttestQuote (zeros 24 ++ [1]) with brd.aliasReady := true } : State).boot.fastStopped = false) ∧ (opCmd ({ SP opAttestQuote (zeros 24 ++ [1]) with brd.aliasReady := true } : State) (3 : Nat) (1 : Nat) opAttestQuote = some (KP opAttestQuote (zeros 24 ++ [1]) : Cmd)) ∧ (pk (KP opAttestQuote (zeros 24 ++ [1]) : Cmd) 24 1 = 1) ∧ (({ SP opAttestQuote (zeros 24 ++ [1]) with brd.aliasReady := true } : State).boot.recSealed = false) ∧ (({ SP opAttestQuote (zeros 24 ++ [1]) with brd.aliasReady := true } : State).brd.aliasReady = true) := by
  decide

/-- The hypotheses of BorderRecordCommands are met (clause 1). -/
theorem test_met_BorderRecordCommands_c1 :
    (({ S1 opAuditDrain with nv.chain := [{ kind := 3 }], plem.cmds := [DR] } : State).boot.fastStopped = false) ∧
    (opCmd ({ S1 opAuditDrain with nv.chain := [{ kind := 3 }], plem.cmds := [DR] } : State) (3 : Nat) (1 : Nat) opAuditDrain = some (DR : Cmd)) ∧
    (({ S1 opAuditDrain with nv.chain := [{ kind := 3 }], plem.cmds := [DR] } : State).brd.port = []) ∧
    (({ S1 opAuditDrain with nv.chain := [{ kind := 3 }], plem.cmds := [DR] } : State).nv.chain[pk (DR : Cmd) 24 8]? = some ({ kind := 3 } : AuditEntry)) ∧
    (({ S1 opAuditDrain with nv.chain := [{ kind := 3 }], plem.cmds := [DR] } : State).nv.drain ≤ pk (DR : Cmd) 24 8) ∧
    (Config.sha384 (entryBytes ({ kind := 3 } : AuditEntry) (pk (DR : Cmd) 24 8)) = (DR : Cmd).block.take 48) := by
  refine ⟨rfl, rfl, rfl, rfl, by decide, ?_⟩
  have h : pk DR 24 8 = 0 := rfl
  rw [h]; simp [DR, Config.sha384] <;> rw [List.take_of_length_le (by simp)]

/-- The hypotheses of BorderRecordCommands are met (clause 3). -/
theorem test_met_BorderRecordCommands_c3 :
    (({ State.reset with nv.records := [{ counter := 1 }], plem.cmds := [BR] } : State).boot.fastStopped = false) ∧
    (opCmd ({ State.reset with nv.records := [{ counter := 1 }], plem.cmds := [BR] } : State) (3 : Nat) (1 : Nat) opBootRecordDrain = some (BR : Cmd)) ∧
    (({ State.reset with nv.records := [{ counter := 1 }], plem.cmds := [BR] } : State).brd.port = []) ∧
    (({ State.reset with nv.records := [{ counter := 1 }], plem.cmds := [BR] } : State).nv.recDrained < pk (BR : Cmd) 24 8) ∧
    (recordOf ({ State.reset with nv.records := [{ counter := 1 }], plem.cmds := [BR] } : State) (pk (BR : Cmd) 24 8) = some ({ counter := 1 } : BootRecord)) ∧
    (Config.sha384 (recordBytes ({ counter := 1 } : BootRecord)) = (BR : Cmd).block.take 48) := by
  refine ⟨rfl, rfl, rfl, by decide, by decide, ?_⟩
  simp [BR, Config.sha384] <;> rw [List.take_of_length_le (by simp)]

set_option maxRecDepth 100000 in
/-- The hypotheses of BorderRecordCommands are met. -/
theorem test_met_BorderRecordCommands_0 :
    ((S1 opAuditSeal : State).boot.fastStopped = false) ∧ (opCmd (S1 opAuditSeal : State) (3 : Nat) (1 : Nat) opAuditSeal = some (K opAuditSeal : Cmd)) ∧ ((S1 opAuditSeal : State).brd.port = []) ∧
    ((S1 opOwnerEnroll : State).boot.fastStopped = false) ∧ (opCmd (S1 opOwnerEnroll : State) (3 : Nat) (1 : Nat) opOwnerEnroll = some (K opOwnerEnroll : Cmd)) ∧ ((S1 opOwnerEnroll : State).brd.port = []) ∧ (owned (S1 opOwnerEnroll : State) = false) ∧
    ((S1 opConfigSeal : State).boot.fastStopped = false) ∧ (opCmd (S1 opConfigSeal : State) (3 : Nat) (1 : Nat) opConfigSeal = some (K opConfigSeal : Cmd)) ∧ ((S1 opConfigSeal : State).brd.port = []) ∧
    ((S1 opSetTime : State).boot.fastStopped = false) ∧ (opCmd (S1 opSetTime : State) (3 : Nat) (1 : Nat) opSetTime = some (K opSetTime : Cmd)) ∧ ((S1 opSetTime : State).brd.port = []) ∧ (pidVal (S1 opSetTime : State) 0x0102 ≠ 1) ∧
    ((K opAuditDrain : Cmd).opcode = opAuditDrain) ∧ ((({ nums := [0] } : Decision) : Decision).nums = [(0 : Nat)]) ∧ (aboveNear { ({ State.reset with nv.chain := [{ kind := 3 }, { kind := 3 }], plem.pids := [(0x0101, 0)] } : State) with nv.drain := (0 : Nat) + 1 } (undrained { ({ State.reset with nv.chain := [{ kind := 3 }, { kind := 3 }], plem.pids := [(0x0101, 0)] } : State) with nv.drain := (0 : Nat) + 1 }) = true) := by
  decide

set_option maxRecDepth 100000 in
/-- The hypotheses of BorderRecordCommands are met. -/
theorem test_met_BorderRecordCommands_1 :
    ((K opOwnerEnroll : Cmd).opcode = opOwnerEnroll) ∧ (owned (State.reset : State) = false) ∧
    ((K opConfigSeal : Cmd).opcode = opConfigSeal) := by
  decide

set_option maxRecDepth 100000 in
/-- The hypotheses of RingRegistersAndDoorbells are met. -/
theorem test_met_RingRegistersAndDoorbells_0 :
    (({ State.reset with boot.linkUpC0 := true } : State).boot.fastStopped = false) ∧ ((59 : Nat) < 60) ∧ (({ State.reset with boot.linkUpC0 := true } : State).boot.linkUpC0 = true) ∧ ((ringOf ({ State.reset with boot.linkUpC0 := true } : State) (59 : Nat)).enable = false) ∧ (bit (0x80000004 : Word).toNat 31 = true) ∧ (4 ≤ field (0x80000004 : Word).toNat 0 4) ∧ (field (0x80000004 : Word).toNat 0 4 ≤ 12) ∧
    (({ State.reset with boot.linkUpC0 := true } : State).boot.fastStopped = false) ∧ ((59 : Nat) < 60) ∧ (({ State.reset with boot.linkUpC0 := true } : State).boot.linkUpC0 = true) ∧ ((ringOf ({ State.reset with boot.linkUpC0 := true } : State) (59 : Nat)).enable = false) ∧ (bit (0x8000000D : Word).toNat 31 = true) ∧ (12 < field (0x8000000D : Word).toNat 0 4) ∧
    (({ State.reset with plem.rings := List.replicate 64 { enable := true, sizeLog2 := 4, cqHead := 8 }, boot.plemReady := true, boot.linkUpC0 := true } : State).boot.fastStopped = false) ∧ ((0 : Nat) < 60) ∧ (({ State.reset with plem.rings := List.replicate 64 { enable := true, sizeLog2 := 4, cqHead := 8 }, boot.plemReady := true, boot.linkUpC0 := true } : State).boot.linkUpC0 = true) ∧ ((ringOf ({ State.reset with plem.rings := List.replicate 64 { enable := true, sizeLog2 := 4, cqHead := 8 }, boot.plemReady := true, boot.linkUpC0 := true } : State) (0 : Nat)).enable = true) ∧ (field (5 : Word).toNat 0 4 ≠ (ringOf ({ State.reset with plem.rings := List.replicate 64 { enable := true, sizeLog2 := 4, cqHead := 8 }, boot.plemReady := true, boot.linkUpC0 := true } : State) (0 : Nat)).sizeLog2) ∧
    (({ State.reset with plem.rings := List.replicate 64 { enable := true, sizeLog2 := 4, cqHead := 8 }, boot.plemReady := true, boot.linkUpC0 := true } : State).boot.fastStopped = false) ∧ ((0 : Nat) < 60) ∧ (({ State.reset with plem.rings := List.replicate 64 { enable := true, sizeLog2 := 4, cqHead := 8 }, boot.plemReady := true, boot.linkUpC0 := true } : State).boot.linkUpC0 = true) ∧ ((ringOf ({ State.reset with plem.rings := List.replicate 64 { enable := true, sizeLog2 := 4, cqHead := 8 }, boot.plemReady := true, boot.linkUpC0 := true } : State) (0 : Nat)).enable = true) ∧ (field (4 : Word).toNat 0 4 = (ringOf ({ State.reset with plem.rings := List.replicate 64 { enable := true, sizeLog2 := 4, cqHead := 8 }, boot.plemReady := true, boot.linkUpC0 := true } : State) (0 : Nat)).sizeLog2) ∧ (bit (4 : Word).toNat 31 = false) ∧
    (({ State.reset with plem.rings := List.replicate 64 { enable := true, sizeLog2 := 4, cqHead := 8 }, boot.plemReady := true, boot.linkUpC0 := true } : State).boot.fastStopped = false) ∧ ((59 : Nat) < 60) ∧ (({ State.reset with plem.rings := List.replicate 64 { enable := true, sizeLog2 := 4, cqHead := 8 }, boot.plemReady := true, boot.linkUpC0 := true } : State).boot.linkUpC0 = true) ∧ (({ State.reset with plem.rings := List.replicate 64 { enable := true, sizeLog2 := 4, cqHead := 8 }, boot.plemReady := true, boot.linkUpC0 := true } : State).pwr.doze = false) ∧ (field (15 : Word).toNat 0 12 < 2 ^ (ringOf ({ State.reset with plem.rings := List.replicate 64 { enable := true, sizeLog2 := 4, cqHead := 8 }, boot.plemReady := true, boot.linkUpC0 := true } : State) (59 : Nat)).sizeLog2) := by
  decide

set_option maxRecDepth 100000 in
/-- The hypotheses of RingRegistersAndDoorbells are met. -/
theorem test_met_RingRegistersAndDoorbells_1 :
    (({ State.reset with plem.rings := List.replicate 64 { enable := true, sizeLog2 := 4, cqHead := 8 }, boot.plemReady := true, boot.linkUpC0 := true } : State).boot.fastStopped = false) ∧ ((59 : Nat) < 60) ∧ (({ State.reset with plem.rings := List.replicate 64 { enable := true, sizeLog2 := 4, cqHead := 8 }, boot.plemReady := true, boot.linkUpC0 := true } : State).boot.linkUpC0 = true) ∧ (({ State.reset with plem.rings := List.replicate 64 { enable := true, sizeLog2 := 4, cqHead := 8 }, boot.plemReady := true, boot.linkUpC0 := true } : State).pwr.doze = false) ∧ (2 ^ (ringOf ({ State.reset with plem.rings := List.replicate 64 { enable := true, sizeLog2 := 4, cqHead := 8 }, boot.plemReady := true, boot.linkUpC0 := true } : State) (59 : Nat)).sizeLog2 ≤ field (16 : Word).toNat 0 12) ∧
    (({ State.reset with plem.rings := List.replicate 64 { enable := true, sizeLog2 := 4, cqHead := 8 }, pwr.doze := true, boot.linkUpC0 := true } : State).boot.fastStopped = false) ∧ ((59 : Nat) < 60) ∧ (({ State.reset with plem.rings := List.replicate 64 { enable := true, sizeLog2 := 4, cqHead := 8 }, pwr.doze := true, boot.linkUpC0 := true } : State).boot.linkUpC0 = true) ∧ (({ State.reset with plem.rings := List.replicate 64 { enable := true, sizeLog2 := 4, cqHead := 8 }, pwr.doze := true, boot.linkUpC0 := true } : State).pwr.doze = true) ∧ (field (15 : Word).toNat 0 12 < 2 ^ (ringOf ({ State.reset with plem.rings := List.replicate 64 { enable := true, sizeLog2 := 4, cqHead := 8 }, pwr.doze := true, boot.linkUpC0 := true } : State) (59 : Nat)).sizeLog2) ∧
    (({ State.reset with plem.rings := List.replicate 64 { enable := true, sizeLog2 := 4, cqHead := 8 }, boot.plemReady := true, boot.linkUpC0 := true } : State).boot.fastStopped = false) ∧ ((59 : Nat) < 60) ∧ (({ State.reset with plem.rings := List.replicate 64 { enable := true, sizeLog2 := 4, cqHead := 8 }, boot.plemReady := true, boot.linkUpC0 := true } : State).boot.linkUpC0 = true) ∧ ((59 : Nat) < ({ State.reset with plem.rings := List.replicate 64 { enable := true, sizeLog2 := 4, cqHead := 8 }, boot.plemReady := true, boot.linkUpC0 := true } : State).plem.rings.length) ∧ (({ State.reset with plem.rings := List.replicate 64 { enable := true, sizeLog2 := 4, cqHead := 8 }, boot.plemReady := true, boot.linkUpC0 := true } : State).pwr.doze = false) ∧ (field (15 : Word).toNat 0 12 < 2 ^ (ringOf ({ State.reset with plem.rings := List.replicate 64 { enable := true, sizeLog2 := 4, cqHead := 8 }, boot.plemReady := true, boot.linkUpC0 := true } : State) (59 : Nat)).sizeLog2) ∧ ((ringOf ({ State.reset with plem.rings := List.replicate 64 { enable := true, sizeLog2 := 4, cqHead := 8 }, boot.plemReady := true, boot.linkUpC0 := true } : State) (59 : Nat)).held = []) ∧
    (({ State.reset with plem.rings := List.replicate 64 { enable := true, sizeLog2 := 4, cqHead := 8 }, boot.plemReady := true, boot.linkUpC0 := true } : State).boot.fastStopped = false) ∧ ((59 : Nat) < 60) ∧ ((ringOf ({ State.reset with plem.rings := List.replicate 64 { enable := true, sizeLog2 := 4, cqHead := 8 }, boot.plemReady := true, boot.linkUpC0 := true } : State) (59 : Nat)).enable = true) ∧
    ((State.reset : State).boot.fastStopped = false) := by
  decide

set_option maxRecDepth 100000 in
/-- The hypotheses of RingRegistersAndDoorbells are met. -/
theorem test_met_RingRegistersAndDoorbells_2 :
    (({ State.reset with plem.rings := [{ session := 7 }], plem.pids := [(0x0011, 10)] } : State).boot.fastStopped = false) ∧ ((0 : Nat) < 63) ∧ (pidVal ({ State.reset with plem.rings := [{ session := 7 }], plem.pids := [(0x0011, 10)] } : State) 0x0011 ≠ 0) ∧ ((ringOf ({ State.reset with plem.rings := [{ session := 7 }], plem.pids := [(0x0011, 10)] } : State) (0 : Nat)).session ≠ 0) ∧
    (mctpAnswers ({ State.reset with boot.sbEarly := true } : State) = true) ∧ (fullService ({ State.reset with boot.sbEarly := true } : State) = false) ∧
    (mctpAnswers ({ State.reset with boot.sbEarly := true, boot.sbFull := true } : State) = true) ∧ (fullService ({ State.reset with boot.sbEarly := true, boot.sbFull := true } : State) = true) ∧
    (mctpAnswers ({ State.reset with boot.sbEarly := true, boot.sbFull := true, brd.spdm := [(5, true, 0)] } : State) = true) ∧ (fullService ({ State.reset with boot.sbEarly := true, boot.sbFull := true, brd.spdm := [(5, true, 0)] } : State) = true) ∧ (({ State.reset with boot.sbEarly := true, boot.sbFull := true, brd.spdm := [(5, true, 0)] } : State).brd.spdm.any (fun x => x.1 == (5 : Nat) && x.2.1) = true) ∧ (mctpRing ({ State.reset with boot.sbEarly := true, boot.sbFull := true, brd.spdm := [(5, true, 0)] } : State) (5 : Nat) = some (60 : Nat)) ∧
    ((ringOf ({ State.reset with boot.sbFull := true } : State) (60 : Nat)).queue = []) ∧ (internalTakes ({ State.reset with boot.sbFull := true } : State) (60 : Nat) = true) := by
  decide

set_option maxRecDepth 100000 in
/-- The hypotheses of RingRegistersAndDoorbells are met. -/
theorem test_met_RingRegistersAndDoorbells_3 :
    (internalTakes (State.reset : State) (60 : Nat) = false) ∧ ((ringOf (State.reset : State) (60 : Nat)).queue.length + 1 < ringSize (60 : Nat) (ringOf (State.reset : State) (60 : Nat))) := by
  decide

set_option maxRecDepth 100000 in
/-- The hypotheses of PacketFetchChecksAndStart are met. -/
theorem test_met_PacketFetchChecksAndStart :
    (({ State.reset with plem.rings := List.replicate 64 { enable := true, sizeLog2 := 4, cqHead := 8, sqTail := 1 }, boot.plemReady := true, boot.linkUpC0 := true } : State).boot.fastStopped = false) ∧ ((59 : Nat) < 60) ∧ ((ringOf ({ State.reset with plem.rings := List.replicate 64 { enable := true, sizeLog2 := 4, cqHead := 8, sqTail := 1 }, boot.plemReady := true, boot.linkUpC0 := true } : State) (59 : Nat)).enable = true) ∧ ((ringOf ({ State.reset with plem.rings := List.replicate 64 { enable := true, sizeLog2 := 4, cqHead := 8, sqTail := 1 }, boot.plemReady := true, boot.linkUpC0 := true } : State) (59 : Nat)).sqHead ≠ (ringOf ({ State.reset with plem.rings := List.replicate 64 { enable := true, sizeLog2 := 4, cqHead := 8, sqTail := 1 }, boot.plemReady := true, boot.linkUpC0 := true } : State) (59 : Nat)).sqTail) ∧ (({ State.reset with plem.rings := List.replicate 64 { enable := true, sizeLog2 := 4, cqHead := 8, sqTail := 1 }, boot.plemReady := true, boot.linkUpC0 := true } : State).boot.linkUpC0 = true) ∧ (takesNone ({ State.reset with plem.rings := List.replicate 64 { enable := true, sizeLog2 := 4, cqHead := 8, sqTail := 1 }, boot.plemReady := true, boot.linkUpC0 := true } : State) = false) ∧ (rimStalls ({ State.reset with plem.rings := List.replicate 64 { enable := true, sizeLog2 := 4, cqHead := 8, sqTail := 1 }, boot.plemReady := true, boot.linkUpC0 := true } : State) (18 + (59 : Nat)) = false) ∧ (plemRuns ({ State.reset with plem.rings := List.replicate 64 { enable := true, sizeLog2 := 4, cqHead := 8, sqTail := 1 }, boot.plemReady := true, boot.linkUpC0 := true } : State) (59 : Nat) = true) ∧ (ringRunning ({ State.reset with plem.rings := List.replicate 64 { enable := true, sizeLog2 := 4, cqHead := 8, sqTail := 1 }, boot.plemReady := true, boot.linkUpC0 := true } : State) (59 : Nat) < pidVal ({ State.reset with plem.rings := List.replicate 64 { enable := true, sizeLog2 := 4, cqHead := 8, sqTail := 1 }, boot.plemReady := true, boot.linkUpC0 := true } : State) 0x0010) ∧
    (({ State.reset with plem.rings := List.replicate 64 { queue := [([1], [])] }, boot.sbFull := true } : State).boot.fastStopped = false) ∧ (60 ≤ (61 : Nat)) ∧ ((61 : Nat) < 63) ∧ ((ringOf ({ State.reset with plem.rings := List.replicate 64 { queue := [([1], [])] }, boot.sbFull := true } : State) (61 : Nat)).queue = (([1], []) : List Byte × List Byte) :: ([] : List (List Byte × List Byte))) ∧ (internalTakes ({ State.reset with plem.rings := List.replicate 64 { queue := [([1], [])] }, boot.sbFull := true } : State) (61 : Nat) = true) ∧
    ((59 : Nat) < 60) ∧ (earlyStages ({ State.reset with plem.rings := List.replicate 64 { enable := true, sizeLog2 := 4, cqHead := 8 }, boot.plemReady := true, boot.linkUpC0 := true } : State) (59 : Nat) (padTo 64 (PKG : List Byte)) (blockCopy (59 : Nat) (padTo 64 (PKG : List Byte)) (zeros 48 : List Byte)) = none) ∧ (lateStages ({ State.reset with plem.rings := List.replicate 64 { enable := true, sizeLog2 := 4, cqHead := 8 }, boot.plemReady := true, boot.linkUpC0 := true } : State) (59 : Nat) (padTo 64 (PKG : List Byte)) (blockCopy (59 : Nat) (padTo 64 (PKG : List Byte)) (zeros 48 : List Byte)) = none) ∧ (numAt (padTo 64 (PKG : List Byte)) 4 4 = (ringOf ({ State.reset with plem.rings := List.replicate 64 { enable := true, sizeLog2 := 4, cqHead := 8 }, boot.plemReady := true, boot.linkUpC0 := true } : State) (59 : Nat)).seq) ∧ (numAt (padTo 64 (PKG : List Byte)) 0 2 ≠ opSessionOpen) ∧
    ((59 : Nat) < 60) ∧ (earlyStages ({ State.reset with plem.rings := List.replicate 64 { enable := true, sizeLog2 := 4, cqHead := 8 }, boot.plemReady := true, boot.linkUpC0 := true } : State) (59 : Nat) (padTo 64 ([1, 0, 8, 1] : List Byte)) (blockCopy (59 : Nat) (padTo 64 ([1, 0, 8, 1] : List Byte)) ([] : List Byte)) = some ((stFmtRsvd, 2, 0) : Nat × Nat × Nat)) ∧ (opSpec (numAt (padTo 64 ([1, 0, 8, 1] : List Byte)) 0 2) = some (OPX : OpSpec)) ∧ ((OPX : OpSpec).audited = false) ∧
    (({ State.reset with plem.rings := List.replicate 64 { enable := true, sizeLog2 := 4, cqHead := 8 }, boot.plemReady := true, boot.linkUpC0 := true, plem.cmds := [{ K 1 with running := false }] } : State).boot.fastStopped = false) ∧ (startable ({ State.reset with plem.rings := List.replicate 64 { enable := true, sizeLog2 := 4, cqHead := 8 }, boot.plemReady := true, boot.linkUpC0 := true, plem.cmds := [{ K 1 with running := false }] } : State) (3 : Nat) = some ({ K 1 with running := false } : Cmd)) ∧ (plemRuns ({ State.reset with plem.rings := List.replicate 64 { enable := true, sizeLog2 := 4, cqHead := 8 }, boot.plemReady := true, boot.linkUpC0 := true, plem.cmds := [{ K 1 with running := false }] } : State) (3 : Nat) = true) ∧ (ringRunning ({ State.reset with plem.rings := List.replicate 64 { enable := true, sizeLog2 := 4, cqHead := 8 }, boot.plemReady := true, boot.linkUpC0 := true, plem.cmds := [{ K 1 with running := false }] } : State) (3 : Nat) < pidVal ({ State.reset with plem.rings := List.replicate 64 { enable := true, sizeLog2 := 4, cqHead := 8 }, boot.plemReady := true, boot.linkUpC0 := true, plem.cmds := [{ K 1 with running := false }] } : State) 0x0010) ∧ ((({ State.reset with plem.rings := List.replicate 64 { enable := true, sizeLog2 := 4, cqHead := 8 }, boot.plemReady := true, boot.linkUpC0 := true, plem.cmds := [{ K 1 with running := false }] } : State).plem.cmds.filter (·.running)).length < 256) ∧ (cipherRoom ({ State.reset with plem.rings := List.replicate 64 { enable := true, sizeLog2 := 4, cqHead := 8 }, boot.plemReady := true, boot.linkUpC0 := true, plem.cmds := [{ K 1 with running := false }] } : State) ({ K 1 with running := false } : Cmd) = true) ∧ (cplFull (3 : Nat) (ringOf ({ State.reset with plem.rings := List.replicate 64 { enable := true, sizeLog2 := 4, cqHead := 8 }, boot.plemReady := true, boot.linkUpC0 := true, plem.cmds := [{ K 1 with running := false }] } : State) (3 : Nat)) = false) ∧ ((ringOf ({ State.reset with plem.rings := List.replicate 64 { enable := true, sizeLog2 := 4, cqHead := 8 }, boot.plemReady := true, boot.linkUpC0 := true, plem.cmds := [{ K 1 with running := false }] } : State) (3 : Nat)).held = []) := by
  decide

/-- The hypotheses of SpdmNegotiationAndAttestation are met (clause 9). -/
theorem test_met_SpdmNegotiationAndAttestation_c9 :
    (mctpAnswers ({ State.reset with boot.sbEarly := true, boot.sbFull := true, brd.spdmVersion := true, brd.spdmCaps := true, brd.spdmAlgs := true, brd.aliasReady := true, brd.chunks := [(0, List.replicate 8193 0)], brd.spdm := [(5, true, 0)] } : State) = true) ∧
    (fullService ({ State.reset with boot.sbEarly := true, boot.sbFull := true, brd.spdmVersion := true, brd.spdmCaps := true, brd.spdmAlgs := true, brd.aliasReady := true, brd.chunks := [(0, List.replicate 8193 0)], brd.spdm := [(5, true, 0)] } : State) = true) ∧
    (({ State.reset with boot.sbEarly := true, boot.sbFull := true, brd.spdmVersion := true, brd.spdmCaps := true, brd.spdmAlgs := true, brd.aliasReady := true, brd.chunks := [(0, List.replicate 8193 0)], brd.spdm := [(5, true, 0)] } : State).brd.chunks.find? (fun c => c.1 == (0 : Nat)) = some ((0 : Nat), (List.replicate 8193 0 : List Byte))) ∧
    (4096 * ((1 : Nat) + 1) < (List.replicate 8193 0 : List Byte).length) := by
  refine ⟨by decide, by decide, rfl, ?_⟩
  rw [List.length_replicate]; decide

set_option maxRecDepth 100000 in
/-- The hypotheses of SpdmNegotiationAndAttestation are met. -/
theorem test_met_SpdmNegotiationAndAttestation_0 :
    (mctpAnswers ({ State.reset with boot.sbEarly := true, boot.sbFull := true, brd.spdmVersion := true, brd.spdmCaps := true, brd.spdmAlgs := true, brd.aliasReady := true, brd.spdm := [(5, true, 0)] } : State) = true) ∧ (fullService ({ State.reset with boot.sbEarly := true, boot.sbFull := true, brd.spdmVersion := true, brd.spdmCaps := true, brd.spdmAlgs := true, brd.aliasReady := true, brd.spdm := [(5, true, 0)] } : State) = true) ∧
    (mctpAnswers ({ State.reset with boot.sbEarly := true, boot.sbFull := true, brd.spdmVersion := true, brd.spdmCaps := true, brd.spdmAlgs := true, brd.aliasReady := true, brd.spdm := [(5, true, 0)] } : State) = true) ∧ (fullService ({ State.reset with boot.sbEarly := true, boot.sbFull := true, brd.spdmVersion := true, brd.spdmCaps := true, brd.spdmAlgs := true, brd.aliasReady := true, brd.spdm := [(5, true, 0)] } : State) = true) ∧ (({ State.reset with boot.sbEarly := true, boot.sbFull := true, brd.spdmVersion := true, brd.spdmCaps := true, brd.spdmAlgs := true, brd.aliasReady := true, brd.spdm := [(5, true, 0)] } : State).brd.spdmVersion = true) ∧
    (mctpAnswers ({ State.reset with boot.sbEarly := true, boot.sbFull := true, brd.spdmVersion := true, brd.spdmCaps := true, brd.spdmAlgs := true, brd.aliasReady := true, brd.spdm := [(5, true, 0)] } : State) = true) ∧ (fullService ({ State.reset with boot.sbEarly := true, boot.sbFull := true, brd.spdmVersion := true, brd.spdmCaps := true, brd.spdmAlgs := true, brd.aliasReady := true, brd.spdm := [(5, true, 0)] } : State) = true) ∧ (({ State.reset with boot.sbEarly := true, boot.sbFull := true, brd.spdmVersion := true, brd.spdmCaps := true, brd.spdmAlgs := true, brd.aliasReady := true, brd.spdm := [(5, true, 0)] } : State).brd.spdmCaps = true) ∧
    (mctpAnswers ({ State.reset with boot.sbEarly := true, boot.sbFull := true, brd.spdmVersion := true, brd.spdmCaps := true, brd.spdmAlgs := true, brd.aliasReady := true, brd.spdm := [(5, true, 0)] } : State) = true) ∧ (fullService ({ State.reset with boot.sbEarly := true, boot.sbFull := true, brd.spdmVersion := true, brd.spdmCaps := true, brd.spdmAlgs := true, brd.aliasReady := true, brd.spdm := [(5, true, 0)] } : State) = true) ∧ (({ State.reset with boot.sbEarly := true, boot.sbFull := true, brd.spdmVersion := true, brd.spdmCaps := true, brd.spdmAlgs := true, brd.aliasReady := true, brd.spdm := [(5, true, 0)] } : State).brd.spdmAlgs = true) ∧ (({ State.reset with boot.sbEarly := true, boot.sbFull := true, brd.spdmVersion := true, brd.spdmCaps := true, brd.spdmAlgs := true, brd.aliasReady := true, brd.spdm := [(5, true, 0)] } : State).brd.aliasReady = true) ∧
    (mctpAnswers ({ State.reset with boot.sbEarly := true, boot.sbFull := true, brd.spdmVersion := true, brd.spdmCaps := true, brd.spdmAlgs := true, brd.aliasReady := true, brd.spdm := [(5, true, 0)] } : State) = true) ∧ (fullService ({ State.reset with boot.sbEarly := true, boot.sbFull := true, brd.spdmVersion := true, brd.spdmCaps := true, brd.spdmAlgs := true, brd.aliasReady := true, brd.spdm := [(5, true, 0)] } : State) = true) ∧ (({ State.reset with boot.sbEarly := true, boot.sbFull := true, brd.spdmVersion := true, brd.spdmCaps := true, brd.spdmAlgs := true, brd.aliasReady := true, brd.spdm := [(5, true, 0)] } : State).brd.spdmAlgs = true) ∧ (({ State.reset with boot.sbEarly := true, boot.sbFull := true, brd.spdmVersion := true, brd.spdmCaps := true, brd.spdmAlgs := true, brd.aliasReady := true, brd.spdm := [(5, true, 0)] } : State).brd.aliasReady = true) := by
  decide

set_option maxRecDepth 100000 in
/-- The hypotheses of SpdmNegotiationAndAttestation are met. -/
theorem test_met_SpdmNegotiationAndAttestation_1 :
    (mctpAnswers ({ State.reset with boot.sbEarly := true, boot.sbFull := true, brd.spdmVersion := true, brd.spdmCaps := true, brd.spdmAlgs := true, brd.aliasReady := true, brd.spdm := [(5, true, 0)] } : State) = true) ∧ (fullService ({ State.reset with boot.sbEarly := true, boot.sbFull := true, brd.spdmVersion := true, brd.spdmCaps := true, brd.spdmAlgs := true, brd.aliasReady := true, brd.spdm := [(5, true, 0)] } : State) = true) ∧ (({ State.reset with boot.sbEarly := true, boot.sbFull := true, brd.spdmVersion := true, brd.spdmCaps := true, brd.spdmAlgs := true, brd.aliasReady := true, brd.spdm := [(5, true, 0)] } : State).brd.spdmAlgs = true) ∧ (({ State.reset with boot.sbEarly := true, boot.sbFull := true, brd.spdmVersion := true, brd.spdmCaps := true, brd.spdmAlgs := true, brd.aliasReady := true, brd.spdm := [(5, true, 0)] } : State).brd.aliasReady = true) ∧
    (mctpAnswers ({ State.reset with boot.sbEarly := true, boot.sbFull := true, brd.spdmVersion := true, brd.spdmCaps := true, brd.spdmAlgs := true, brd.aliasReady := true, boot.cfgSealed := true, brd.spdm := [(5, true, 0)] } : State) = true) ∧ (fullService ({ State.reset with boot.sbEarly := true, boot.sbFull := true, brd.spdmVersion := true, brd.spdmCaps := true, brd.spdmAlgs := true, brd.aliasReady := true, boot.cfgSealed := true, brd.spdm := [(5, true, 0)] } : State) = true) ∧ (({ State.reset with boot.sbEarly := true, boot.sbFull := true, brd.spdmVersion := true, brd.spdmCaps := true, brd.spdmAlgs := true, brd.aliasReady := true, boot.cfgSealed := true, brd.spdm := [(5, true, 0)] } : State).brd.spdmAlgs = true) ∧ ((7 : Nat) ≠ 0xFF) ∧ (measurementAt ({ State.reset with boot.sbEarly := true, boot.sbFull := true, brd.spdmVersion := true, brd.spdmCaps := true, brd.spdmAlgs := true, brd.aliasReady := true, boot.cfgSealed := true, brd.spdm := [(5, true, 0)] } : State) (7 : Nat) = some (zeros 48 : List Byte)) ∧
    (mctpAnswers ({ State.reset with boot.sbEarly := true, boot.sbFull := true, brd.spdmVersion := true, brd.spdmCaps := true, brd.spdmAlgs := true, brd.aliasReady := true, brd.spdm := [(5, true, 0)] } : State) = true) ∧ (fullService ({ State.reset with boot.sbEarly := true, boot.sbFull := true, brd.spdmVersion := true, brd.spdmCaps := true, brd.spdmAlgs := true, brd.aliasReady := true, brd.spdm := [(5, true, 0)] } : State) = true) ∧ (({ State.reset with boot.sbEarly := true, boot.sbFull := true, brd.spdmVersion := true, brd.spdmCaps := true, brd.spdmAlgs := true, brd.aliasReady := true, brd.spdm := [(5, true, 0)] } : State).brd.spdmAlgs = true) ∧ ((7 : Nat) ≠ 0xFF) ∧ (measurementAt ({ State.reset with boot.sbEarly := true, boot.sbFull := true, brd.spdmVersion := true, brd.spdmCaps := true, brd.spdmAlgs := true, brd.aliasReady := true, brd.spdm := [(5, true, 0)] } : State) (7 : Nat) = none) ∧
    (mctpAnswers ({ State.reset with boot.sbEarly := true, boot.sbFull := true, brd.spdmVersion := true, brd.spdmCaps := true, brd.spdmAlgs := true, brd.aliasReady := true, brd.spdm := [(5, true, 0)] } : State) = true) ∧ (fullService ({ State.reset with boot.sbEarly := true, boot.sbFull := true, brd.spdmVersion := true, brd.spdmCaps := true, brd.spdmAlgs := true, brd.aliasReady := true, brd.spdm := [(5, true, 0)] } : State) = true) ∧
    (mctpAnswers ({ State.reset with boot.sbEarly := true } : State) = true) ∧ (fullService ({ State.reset with boot.sbEarly := true } : State) = false) := by
  decide

set_option maxRecDepth 100000 in
/-- The hypotheses of SpdmNegotiationAndAttestation are met. -/
theorem test_met_SpdmNegotiationAndAttestation_2 :
    (mctpAnswers ({ State.reset with boot.sbEarly := true, boot.sbFull := true, brd.spdmVersion := true, brd.spdmCaps := true, brd.spdmAlgs := true, brd.aliasReady := true, brd.spdm := [(5, true, 0)] } : State) = true) ∧ (fullService ({ State.reset with boot.sbEarly := true, boot.sbFull := true, brd.spdmVersion := true, brd.spdmCaps := true, brd.spdmAlgs := true, brd.aliasReady := true, brd.spdm := [(5, true, 0)] } : State) = true) ∧ (({ State.reset with boot.sbEarly := true, boot.sbFull := true, brd.spdmVersion := true, brd.spdmCaps := true, brd.spdmAlgs := true, brd.aliasReady := true, brd.spdm := [(5, true, 0)] } : State).brd.spdmAlgs = true) ∧ (({ State.reset with boot.sbEarly := true, boot.sbFull := true, brd.spdmVersion := true, brd.spdmCaps := true, brd.spdmAlgs := true, brd.aliasReady := true, brd.spdm := [(5, true, 0)] } : State).brd.aliasReady = true) ∧ (({ State.reset with boot.sbEarly := true, boot.sbFull := true, brd.spdmVersion := true, brd.spdmCaps := true, brd.spdmAlgs := true, brd.aliasReady := true, brd.spdm := [(5, true, 0)] } : State).brd.spdm.length < 4) ∧
    (mctpAnswers ({ State.reset with boot.sbEarly := true, boot.sbFull := true, brd.spdmVersion := true, brd.spdmCaps := true, brd.spdmAlgs := true, brd.aliasReady := true, brd.spdm := [(5, true, 0), (6, true, 0), (7, false, 0), (8, true, 0)] } : State) = true) ∧ (fullService ({ State.reset with boot.sbEarly := true, boot.sbFull := true, brd.spdmVersion := true, brd.spdmCaps := true, brd.spdmAlgs := true, brd.aliasReady := true, brd.spdm := [(5, true, 0), (6, true, 0), (7, false, 0), (8, true, 0)] } : State) = true) ∧ (({ State.reset with boot.sbEarly := true, boot.sbFull := true, brd.spdmVersion := true, brd.spdmCaps := true, brd.spdmAlgs := true, brd.aliasReady := true, brd.spdm := [(5, true, 0), (6, true, 0), (7, false, 0), (8, true, 0)] } : State).brd.spdmAlgs = true) ∧ (({ State.reset with boot.sbEarly := true, boot.sbFull := true, brd.spdmVersion := true, brd.spdmCaps := true, brd.spdmAlgs := true, brd.aliasReady := true, brd.spdm := [(5, true, 0), (6, true, 0), (7, false, 0), (8, true, 0)] } : State).brd.aliasReady = true) ∧ (4 ≤ ({ State.reset with boot.sbEarly := true, boot.sbFull := true, brd.spdmVersion := true, brd.spdmCaps := true, brd.spdmAlgs := true, brd.aliasReady := true, brd.spdm := [(5, true, 0), (6, true, 0), (7, false, 0), (8, true, 0)] } : State).brd.spdm.length) ∧
    (mctpAnswers ({ State.reset with boot.sbEarly := true, boot.sbFull := true, brd.spdmVersion := true, brd.spdmCaps := true, brd.spdmAlgs := true, brd.aliasReady := true, brd.spdm := [(5, false, 0)] } : State) = true) ∧ (fullService ({ State.reset with boot.sbEarly := true, boot.sbFull := true, brd.spdmVersion := true, brd.spdmCaps := true, brd.spdmAlgs := true, brd.aliasReady := true, brd.spdm := [(5, false, 0)] } : State) = true) ∧ (({ State.reset with boot.sbEarly := true, boot.sbFull := true, brd.spdmVersion := true, brd.spdmCaps := true, brd.spdmAlgs := true, brd.aliasReady := true, brd.spdm := [(5, false, 0)] } : State).brd.spdmAlgs = true) ∧ (({ State.reset with boot.sbEarly := true, boot.sbFull := true, brd.spdmVersion := true, brd.spdmCaps := true, brd.spdmAlgs := true, brd.aliasReady := true, brd.spdm := [(5, false, 0)] } : State).brd.spdm.any (fun x => x.1 == (5 : Nat) && !x.2.1) = true) ∧
    (mctpAnswers ({ State.reset with boot.sbEarly := true, boot.sbFull := true, brd.spdmVersion := true, brd.spdmCaps := true, brd.spdmAlgs := true, brd.aliasReady := true, brd.spdm := [(5, true, 0)] } : State) = true) ∧ (fullService ({ State.reset with boot.sbEarly := true, boot.sbFull := true, brd.spdmVersion := true, brd.spdmCaps := true, brd.spdmAlgs := true, brd.aliasReady := true, brd.spdm := [(5, true, 0)] } : State) = true) ∧ (spdmUp ({ State.reset with boot.sbEarly := true, boot.sbFull := true, brd.spdmVersion := true, brd.spdmCaps := true, brd.spdmAlgs := true, brd.aliasReady := true, brd.spdm := [(5, true, 0)] } : State) (5 : Nat) = true) ∧
    ((ringOf ({ State.reset with boot.sbEarly := true, boot.sbFull := true, brd.spdmVersion := true, brd.spdmCaps := true, brd.spdmAlgs := true, brd.aliasReady := true, brd.spdm := [(5, true, 0)] } : State) 60).spdm = none) ∧ ((ringOf ({ State.reset with boot.sbEarly := true, boot.sbFull := true, brd.spdmVersion := true, brd.spdmCaps := true, brd.spdmAlgs := true, brd.aliasReady := true, brd.spdm := [(5, true, 0)] } : State) 61).spdm = none) := by
  decide

set_option maxRecDepth 100000 in
/-- The hypotheses of SpdmNegotiationAndAttestation are met. -/
theorem test_met_SpdmNegotiationAndAttestation_3 :
    ((ringOf ({ State.reset with plem.rings := List.replicate 60 {} ++ [{ spdm := some 5 }, {}, {}, {}] } : State) 60).spdm = some (5 : Nat)) ∧ ((ringOf (updRing 60 (fun r => { r with spdm := none }) (discardCmds 60 (endSession 60 ({ State.reset with plem.rings := List.replicate 60 {} ++ [{ spdm := some 5 }, {}, {}, {}] } : State)))) 61).spdm = none) := by
  decide

set_option maxRecDepth 100000 in
/-- The hypotheses of SystemCommandDecisions are met. -/
theorem test_met_SystemCommandDecisions_0 :
    ((S1 opSessionOpen : State).boot.fastStopped = false) ∧ (opCmd (S1 opSessionOpen : State) (3 : Nat) (1 : Nat) opSessionOpen = some (K opSessionOpen : Cmd)) ∧ ((S1 opSessionOpen : State).brd.port = []) ∧ ((S1 opSessionOpen : State).plem.nextSerial < 2 ^ 22) ∧
    (({ S1 opSessionOpen with plem.nextSerial := 2 ^ 22 } : State).boot.fastStopped = false) ∧ (opCmd ({ S1 opSessionOpen with plem.nextSerial := 2 ^ 22 } : State) (3 : Nat) (1 : Nat) opSessionOpen = some (K opSessionOpen : Cmd)) ∧ (({ S1 opSessionOpen with plem.nextSerial := 2 ^ 22 } : State).brd.port = []) ∧ (2 ^ 22 ≤ ({ S1 opSessionOpen with plem.nextSerial := 2 ^ 22 } : State).plem.nextSerial) ∧
    ((S1 opSessionClose : State).boot.fastStopped = false) ∧ (opCmd (S1 opSessionClose : State) (3 : Nat) (1 : Nat) opSessionClose = some (K opSessionClose : Cmd)) ∧ ((S1 opSessionClose : State).brd.port = []) ∧
    (({ S1 opServiceStart with boot.recSealed := true, boot.cfgSealed := true, boot.coilReady := true, col.replayStep := 6 } : State).boot.fastStopped = false) ∧ (opCmd ({ S1 opServiceStart with boot.recSealed := true, boot.cfgSealed := true, boot.coilReady := true, col.replayStep := 6 } : State) (3 : Nat) (1 : Nat) opServiceStart = some (K opServiceStart : Cmd)) ∧ (({ S1 opServiceStart with boot.recSealed := true, boot.cfgSealed := true, boot.coilReady := true, col.replayStep := 6 } : State).brd.port = []) ∧ (({ S1 opServiceStart with boot.recSealed := true, boot.cfgSealed := true, boot.coilReady := true, col.replayStep := 6 } : State).boot.service = false) ∧ (notReadyBits ({ S1 opServiceStart with boot.recSealed := true, boot.cfgSealed := true, boot.coilReady := true, col.replayStep := 6 } : State) = 0) ∧ (starting ({ S1 opServiceStart with boot.recSealed := true, boot.cfgSealed := true, boot.coilReady := true, col.replayStep := 6 } : State) = true) ∧
    ((S1 opServiceStart : State).boot.fastStopped = false) ∧ (opCmd (S1 opServiceStart : State) (3 : Nat) (1 : Nat) opServiceStart = some (K opServiceStart : Cmd)) ∧ ((S1 opServiceStart : State).brd.port = []) ∧ ((S1 opServiceStart : State).boot.service = false) ∧ (notReadyBits (S1 opServiceStart : State) ≠ 0) := by
  decide

set_option maxRecDepth 100000 in
/-- The hypotheses of SystemCommandDecisions are met. -/
theorem test_met_SystemCommandDecisions_1 :
    (({ S1 opServiceStart with boot.service := true } : State).boot.fastStopped = false) ∧ (opCmd ({ S1 opServiceStart with boot.service := true } : State) (3 : Nat) (1 : Nat) opServiceStart = some (K opServiceStart : Cmd)) ∧ (({ S1 opServiceStart with boot.service := true } : State).brd.port = []) ∧ (({ S1 opServiceStart with boot.service := true } : State).boot.service = true) ∧
    ((S1 opServiceStop : State).boot.fastStopped = false) ∧ (opCmd (S1 opServiceStop : State) (3 : Nat) (1 : Nat) opServiceStop = some (K opServiceStop : Cmd)) ∧ ((S1 opServiceStop : State).brd.port = []) ∧
    ((SP opPortEnable (zeros 24 ++ [1]) : State).boot.fastStopped = false) ∧ (opCmd (SP opPortEnable (zeros 24 ++ [1]) : State) (3 : Nat) (1 : Nat) opPortEnable = some (KP opPortEnable (zeros 24 ++ [1]) : Cmd)) ∧ ((SP opPortEnable (zeros 24 ++ [1]) : State).brd.port = []) ∧ (maskAfter (SP opPortEnable (zeros 24 ++ [1]) : State) (pk (KP opPortEnable (zeros 24 ++ [1]) : Cmd) 24 4) (pk (KP opPortEnable (zeros 24 ++ [1]) : Cmd) 28 4) ≠ enabledMask (SP opPortEnable (zeros 24 ++ [1]) : State)) ∧
    ((S1 opDeviceDoze : State).boot.fastStopped = false) ∧ (opCmd (S1 opDeviceDoze : State) (3 : Nat) (1 : Nat) opDeviceDoze = some (K opDeviceDoze : Cmd)) ∧ ((S1 opDeviceDoze : State).brd.port = []) ∧
    ((S1 opResetDevice : State).boot.fastStopped = false) ∧ (opCmd (S1 opResetDevice : State) (3 : Nat) (1 : Nat) opResetDevice = some (K opResetDevice : Cmd)) ∧ ((S1 opResetDevice : State).brd.port = []) := by
  decide

set_option maxRecDepth 100000 in
/-- The hypotheses of SystemCommandDecisions are met. -/
theorem test_met_SystemCommandDecisions_2 :
    (({ S1 opServiceStop with brd.port := [.park 0 true] } : State).boot.fastStopped = false) ∧ (opCmd ({ S1 opServiceStop with brd.port := [.park 0 true] } : State) (3 : Nat) (1 : Nat) opServiceStop = some (K opServiceStop : Cmd)) ∧ (({ S1 opServiceStop with brd.port := [.park 0 true] } : State).brd.port ≠ []) := by
  decide

set_option maxRecDepth 100000 in
/-- The hypotheses of SystemCommandEffects are met. -/
theorem test_met_SystemCommandEffects_0 :
    ((K opSessionOpen : Cmd).opcode = opSessionOpen) ∧ (discarded (K opSessionOpen : Cmd) (State.reset : State) = false) ∧ ((ringOf (State.reset : State) (K opSessionOpen : Cmd).ring).session = 0) ∧
    ((K opSessionClose : Cmd).opcode = opSessionClose) ∧ ((ringOf (State.reset : State) (K opSessionClose : Cmd).ring).session = (K opSessionClose : Cmd).session) ∧
    ((K opServiceStart : Cmd).opcode = opServiceStart) ∧ (starting ({ State.reset with boot.served := true, hdl.paired := true } : State) = true) ∧ (({ State.reset with boot.served := true, hdl.paired := true } : State).saf.failSilent = false) ∧ (({ State.reset with boot.served := true, hdl.paired := true } : State).boot.served = true) ∧ (({ State.reset with boot.served := true, hdl.paired := true } : State).hdl.paired = true) ∧
    ((K opServiceStart : Cmd).opcode = opServiceStart) ∧ (starting (State.reset : State) = true) ∧ ((State.reset : State).saf.failSilent = false) ∧ ((State.reset : State).boot.served = false) ∧ ((raiseRequested (State.reset : State)).hdl.paired = false) ∧
    ((K opServiceStop : Cmd).opcode = opServiceStop) := by
  decide

set_option maxRecDepth 100000 in
/-- The hypotheses of SystemCommandEffects are met. -/
theorem test_met_SystemCommandEffects_1 :
    ((K opPortEnable : Cmd).opcode = opPortEnable) ∧
    ((K opDeviceDoze : Cmd).opcode = opDeviceDoze) := by
  decide

set_option maxRecDepth 100000 in
/-- The hypotheses of BootCounterRecordAndTime are met. -/
theorem test_met_BootCounterRecordAndTime_0 :
    (({ State.reset with boot.coilReady := true, boot.mgtRunning := true, brd.meas := [{ comp := 3 }, { comp := 4 }, { comp := 5 }] } : State).boot.fastStopped = false) ∧ (({ State.reset with boot.coilReady := true, boot.mgtRunning := true, brd.meas := [{ comp := 3 }, { comp := 4 }, { comp := 5 }] } : State).boot.coilReady = true) ∧ (({ State.reset with boot.coilReady := true, boot.mgtRunning := true, brd.meas := [{ comp := 3 }, { comp := 4 }, { comp := 5 }] } : State).boot.mgtRunning = true) ∧ (({ State.reset with boot.coilReady := true, boot.mgtRunning := true, brd.meas := [{ comp := 3 }, { comp := 4 }, { comp := 5 }] } : State).brd.counterDone = false) ∧ (({ State.reset with boot.coilReady := true, boot.mgtRunning := true, brd.meas := [{ comp := 3 }, { comp := 4 }, { comp := 5 }] } : State).brd.early = []) ∧ ((measOf ({ State.reset with boot.coilReady := true, boot.mgtRunning := true, brd.meas := [{ comp := 3 }, { comp := 4 }, { comp := 5 }] } : State) 3).isSome = true) ∧ ((measOf ({ State.reset with boot.coilReady := true, boot.mgtRunning := true, brd.meas := [{ comp := 3 }, { comp := 4 }, { comp := 5 }] } : State) 4).isSome = true) ∧ ((measOf ({ State.reset with boot.coilReady := true, boot.mgtRunning := true, brd.meas := [{ comp := 3 }, { comp := 4 }, { comp := 5 }] } : State) 5).isSome = true) ∧
    (({ State.reset with boot.coilReady := true, boot.mgtRunning := true } : State).boot.fastStopped = false) ∧ (({ State.reset with boot.coilReady := true, boot.mgtRunning := true } : State).boot.coilReady = true) ∧ (({ State.reset with boot.coilReady := true, boot.mgtRunning := true } : State).boot.mgtRunning = true) ∧ (({ State.reset with boot.coilReady := true, boot.mgtRunning := true } : State).brd.counterDone = false) ∧ (({ State.reset with boot.coilReady := true, boot.mgtRunning := true } : State).brd.early = []) ∧ (measOf ({ State.reset with boot.coilReady := true, boot.mgtRunning := true } : State) 3 = none) ∧
    (({ State.reset with boot.coilReady := true, boot.mgtRunning := true, brd.counterDone := true, saf.monitorTested := true, brd.meas := [{ comp := 3 }, { comp := 4 }, { comp := 5 }] } : State).boot.fastStopped = false) ∧ (sealReady ({ State.reset with boot.coilReady := true, boot.mgtRunning := true, brd.counterDone := true, saf.monitorTested := true, brd.meas := [{ comp := 3 }, { comp := 4 }, { comp := 5 }] } : State) = true) ∧ (slotUndrained ({ State.reset with boot.coilReady := true, boot.mgtRunning := true, brd.counterDone := true, saf.monitorTested := true, brd.meas := [{ comp := 3 }, { comp := 4 }, { comp := 5 }] } : State) ({ State.reset with boot.coilReady := true, boot.mgtRunning := true, brd.counterDone := true, saf.monitorTested := true, brd.meas := [{ comp := 3 }, { comp := 4 }, { comp := 5 }] } : State).nv.bootCounter = false) ∧
    (({ State.reset with boot.coilReady := true, boot.mgtRunning := true, brd.counterDone := true, saf.monitorTested := true, brd.meas := [{ comp := 3 }, { comp := 4 }, { comp := 5 }], nv.bootCounter := 65540, nv.records := [{ counter := 4 }] } : State).boot.fastStopped = false) ∧ (sealReady ({ State.reset with boot.coilReady := true, boot.mgtRunning := true, brd.counterDone := true, saf.monitorTested := true, brd.meas := [{ comp := 3 }, { comp := 4 }, { comp := 5 }], nv.bootCounter := 65540, nv.records := [{ counter := 4 }] } : State) = true) ∧ (slotUndrained ({ State.reset with boot.coilReady := true, boot.mgtRunning := true, brd.counterDone := true, saf.monitorTested := true, brd.meas := [{ comp := 3 }, { comp := 4 }, { comp := 5 }], nv.bootCounter := 65540, nv.records := [{ counter := 4 }] } : State) ({ State.reset with boot.coilReady := true, boot.mgtRunning := true, brd.counterDone := true, saf.monitorTested := true, brd.meas := [{ comp := 3 }, { comp := 4 }, { comp := 5 }], nv.bootCounter := 65540, nv.records := [{ counter := 4 }] } : State).nv.bootCounter = true) ∧ (({ State.reset with boot.coilReady := true, boot.mgtRunning := true, brd.counterDone := true, saf.monitorTested := true, brd.meas := [{ comp := 3 }, { comp := 4 }, { comp := 5 }], nv.bootCounter := 65540, nv.records := [{ counter := 4 }] } : State).nv.pendingRec = none) ∧
    (({ State.reset with boot.coilReady := true, boot.mgtRunning := true, brd.counterDone := true, saf.monitorTested := true, brd.meas := [{ comp := 3 }, { comp := 4 }, { comp := 5 }], nv.bootCounter := 65540, nv.records := [{ counter := 4 }], nv.pendingRec := some { counter := 5 } } : State).boot.fastStopped = false) ∧ (sealReady ({ State.reset with boot.coilReady := true, boot.mgtRunning := true, brd.counterDone := true, saf.monitorTested := true, brd.meas := [{ comp := 3 }, { comp := 4 }, { comp := 5 }], nv.bootCounter := 65540, nv.records := [{ counter := 4 }], nv.pendingRec := some { counter := 5 } } : State) = true) ∧ (slotUndrained ({ State.reset with boot.coilReady := true, boot.mgtRunning := true, brd.counterDone := true, saf.monitorTested := true, brd.meas := [{ comp := 3 }, { comp := 4 }, { comp := 5 }], nv.bootCounter := 65540, nv.records := [{ counter := 4 }], nv.pendingRec := some { counter := 5 } } : State) ({ State.reset with boot.coilReady := true, boot.mgtRunning := true, brd.counterDone := true, saf.monitorTested := true, brd.meas := [{ comp := 3 }, { comp := 4 }, { comp := 5 }], nv.bootCounter := 65540, nv.records := [{ counter := 4 }], nv.pendingRec := some { counter := 5 } } : State).nv.bootCounter = true) ∧ (({ State.reset with boot.coilReady := true, boot.mgtRunning := true, brd.counterDone := true, saf.monitorTested := true, brd.meas := [{ comp := 3 }, { comp := 4 }, { comp := 5 }], nv.bootCounter := 65540, nv.records := [{ counter := 4 }], nv.pendingRec := some { counter := 5 } } : State).nv.pendingRec = some ({ counter := 5 } : BootRecord)) := by
  decide

set_option maxRecDepth 100000 in
/-- The hypotheses of BootCounterRecordAndTime are met. -/
theorem test_met_BootCounterRecordAndTime_1 :
    (({ State.reset with boot.coilReady := true, aon.cause := { valid := true } } : State).boot.fastStopped = false) ∧ (({ State.reset with boot.coilReady := true, aon.cause := { valid := true } } : State).aon.cause.valid = true) ∧ (({ State.reset with boot.coilReady := true, aon.cause := { valid := true } } : State).aon.cause.recorded = false) ∧ (({ State.reset with boot.coilReady := true, aon.cause := { valid := true } } : State).boot.coilReady = true) ∧ (({ State.reset with boot.coilReady := true, aon.cause := { valid := true } } : State).saf.failSilent = false) ∧
    (({ State.reset with plem.pids := [(0x0102, 1), (0x0105, 8), (0x0104, 0), (0x0106, 0)] } : State).boot.fastStopped = false) ∧ (pidVal ({ State.reset with plem.pids := [(0x0102, 1), (0x0105, 8), (0x0104, 0), (0x0106, 0)] } : State) 0x0102 = 1) ∧ (bit (pidVal ({ State.reset with plem.pids := [(0x0102, 1), (0x0105, 8), (0x0104, 0), (0x0106, 0)] } : State) 0x0105) (3 : Nat) = true) ∧ ((0 : Nat) = pidVal ({ State.reset with plem.pids := [(0x0102, 1), (0x0105, 8), (0x0104, 0), (0x0106, 0)] } : State) 0x0104) ∧ ((0 : Nat) = pidVal ({ State.reset with plem.pids := [(0x0102, 1), (0x0105, 8), (0x0104, 0), (0x0106, 0)] } : State) 0x0106) ∧
    (({ State.reset with brd.wallValid := true, plem.pids := [(0x0102, 1)] } : State).boot.fastStopped = false) ∧ (({ State.reset with brd.wallValid := true, plem.pids := [(0x0102, 1)] } : State).brd.wallValid = true) ∧ (pidVal ({ State.reset with brd.wallValid := true, plem.pids := [(0x0102, 1)] } : State) 0x0102 = 1) := by
  decide

/-- The hypotheses of AuditPortEntryThenEffect are met (clause 3). -/
theorem test_met_AuditPortEntryThenEffect_c3 :
    (({ State.reset with brd.counterDone := true, boot.coilReady := true, brd.port := [.command (K opServiceStop) {}], nv.chain := List.replicate 1048576 { kind := 3 } } : State).boot.fastStopped = false) ∧
    (portRuns ({ State.reset with brd.counterDone := true, boot.coilReady := true, brd.port := [.command (K opServiceStop) {}], nv.chain := List.replicate 1048576 { kind := 3 } } : State) = true) ∧
    (({ State.reset with brd.counterDone := true, boot.coilReady := true, brd.port := [.command (K opServiceStop) {}], nv.chain := List.replicate 1048576 { kind := 3 } } : State).saf.mgmtHalted = false) ∧
    (({ State.reset with brd.counterDone := true, boot.coilReady := true, brd.port := [.command (K opServiceStop) {}], nv.chain := List.replicate 1048576 { kind := 3 } } : State).brd.port = .command (K opServiceStop : Cmd) (({} : Decision) : Decision) :: ([] : List Held)) ∧
    (carriedHere (K opServiceStop : Cmd) = false) ∧
    (cmdTier { ({ State.reset with brd.counterDone := true, boot.coilReady := true, brd.port := [.command (K opServiceStop) {}], nv.chain := List.replicate 1048576 { kind := 3 } } : State) with brd.port := ([] : List Held) } (K opServiceStop : Cmd) = false) ∧
    (commitsInCoil (K opServiceStop : Cmd).opcode = false) := by
  generalize hc : List.replicate 1048576 ({ kind := 3 } : AuditEntry) = ch
  have h : ch.length = 1048576 := by rw [← hc]; exact List.length_replicate
  clear hc
  have hf : ∀ s : State, s.nv.chain = ch → s.nv.drain = 0 → auditFree s = 0 := by
    intro s a b; simp [auditFree, undrained, auditCap, a, b, h]
  refine ⟨rfl, rfl, rfl, rfl, rfl, ?_, rfl⟩
  simp only [cmdTier, tierAllows]; rw [hf _ rfl rfl]; rfl

/-- The hypotheses of AuditPortEntryThenEffect are met (clause 5). -/
theorem test_met_AuditPortEntryThenEffect_c5 :
    (({ State.reset with brd.counterDone := true, boot.coilReady := true, brd.port := [.park 3 true], nv.chain := List.replicate 1048576 { kind := 3 } } : State).boot.fastStopped = false) ∧
    (portRuns ({ State.reset with brd.counterDone := true, boot.coilReady := true, brd.port := [.park 3 true], nv.chain := List.replicate 1048576 { kind := 3 } } : State) = true) ∧
    (({ State.reset with brd.counterDone := true, boot.coilReady := true, brd.port := [.park 3 true], nv.chain := List.replicate 1048576 { kind := 3 } } : State).brd.port = .park (3 : Nat) (true : Bool) :: ([] : List Held)) ∧
    (auditFree { ({ State.reset with brd.counterDone := true, boot.coilReady := true, brd.port := [.park 3 true], nv.chain := List.replicate 1048576 { kind := 3 } } : State) with brd.port := ([] : List Held) } ≤ 4096) := by
  generalize hc : List.replicate 1048576 ({ kind := 3 } : AuditEntry) = ch
  have h : ch.length = 1048576 := by rw [← hc]; exact List.length_replicate
  clear hc
  have hf : ∀ s : State, s.nv.chain = ch → s.nv.drain = 0 → auditFree s = 0 := by
    intro s a b; simp [auditFree, undrained, auditCap, a, b, h]
  refine ⟨rfl, rfl, rfl, ?_⟩
  rw [hf _ rfl rfl]; decide

set_option maxRecDepth 100000 in
/-- The hypotheses of AuditPortEntryThenEffect are met. -/
theorem test_met_AuditPortEntryThenEffect_0 :
    (({ State.reset with brd.counterDone := true, boot.coilReady := true, brd.port := [.command (K opServiceStop) { status := stOrdState }] } : State).boot.fastStopped = false) ∧ (portRuns ({ State.reset with brd.counterDone := true, boot.coilReady := true, brd.port := [.command (K opServiceStop) { status := stOrdState }] } : State) = true) ∧ (({ State.reset with brd.counterDone := true, boot.coilReady := true, brd.port := [.command (K opServiceStop) { status := stOrdState }] } : State).saf.mgmtHalted = false) ∧ (({ State.reset with brd.counterDone := true, boot.coilReady := true, brd.port := [.command (K opServiceStop) { status := stOrdState }] } : State).brd.port = .command (K opServiceStop : Cmd) ({ status := stOrdState } : Decision) :: ([] : List Held)) ∧ (carriedHere (K opServiceStop : Cmd) = false) ∧ (cmdTier { ({ State.reset with brd.counterDone := true, boot.coilReady := true, brd.port := [.command (K opServiceStop) { status := stOrdState }] } : State) with brd.port := ([] : List Held) } (K opServiceStop : Cmd) = true) ∧ (isSuccess ({ status := stOrdState } : Decision).status = false) ∧ (({ status := stOrdState } : Decision).started = false) ∧
    (({ State.reset with brd.counterDone := true, boot.coilReady := true, brd.port := [.command (K opServiceStop) {}] } : State).boot.fastStopped = false) ∧ (portRuns ({ State.reset with brd.counterDone := true, boot.coilReady := true, brd.port := [.command (K opServiceStop) {}] } : State) = true) ∧ (({ State.reset with brd.counterDone := true, boot.coilReady := true, brd.port := [.command (K opServiceStop) {}] } : State).saf.mgmtHalted = false) ∧ (({ State.reset with brd.counterDone := true, boot.coilReady := true, brd.port := [.command (K opServiceStop) {}] } : State).brd.port = .command (K opServiceStop : Cmd) ({} : Decision) :: ([] : List Held)) ∧ (carriedHere (K opServiceStop : Cmd) = false) ∧ (cmdTier { ({ State.reset with brd.counterDone := true, boot.coilReady := true, brd.port := [.command (K opServiceStop) {}] } : State) with brd.port := ([] : List Held) } (K opServiceStop : Cmd) = true) ∧ (isSuccess ({} : Decision).status = true) ∧ (({} : Decision).status ≠ stOkNochange) ∧ (({} : Decision).started = false) ∧ (({} : Decision).carried = false) ∧ (commitsInCoil (K opServiceStop : Cmd).opcode = false) ∧ (endsLater (K opServiceStop : Cmd) ({} : Decision) = false) ∧ ((K opServiceStop : Cmd).opcode ≠ opSessionOpen) ∧ ((K opServiceStop : Cmd).opcode ≠ opSetTime) ∧ ((K opServiceStop : Cmd).opcode ≠ opResetDevice) ∧ (crossesNear { ({ State.reset with brd.counterDone := true, boot.coilReady := true, brd.port := [.command (K opServiceStop) {}] } : State) with brd.port := ([] : List Held) } = false) ∧ (({ State.reset with brd.counterDone := true, boot.coilReady := true, brd.port := [.command (K opServiceStop) {}] } : State).saf.failSilent = false) ∧
    (({ State.reset with brd.counterDone := true, boot.coilReady := true, brd.port := [.park 3 true] } : State).boot.fastStopped = false) ∧ (portRuns ({ State.reset with brd.counterDone := true, boot.coilReady := true, brd.port := [.park 3 true] } : State) = true) ∧ (({ State.reset with brd.counterDone := true, boot.coilReady := true, brd.port := [.park 3 true] } : State).brd.port = .park (3 : Nat) (true : Bool) :: ([] : List Held)) ∧ (4096 < auditFree { ({ State.reset with brd.counterDone := true, boot.coilReady := true, brd.port := [.park 3 true] } : State) with brd.port := ([] : List Held) }) ∧
    (({ State.reset with brd.counterDone := true, boot.coilReady := true, brd.port := [.register 0x000C0510 4 0] } : State).boot.fastStopped = false) ∧ (portRuns ({ State.reset with brd.counterDone := true, boot.coilReady := true, brd.port := [.register 0x000C0510 4 0] } : State) = true) ∧ (({ State.reset with brd.counterDone := true, boot.coilReady := true, brd.port := [.register 0x000C0510 4 0] } : State).brd.port = .register (0x000C0510 : Nat) (4 : Nat) (0 : Nat) :: ([] : List Held)) ∧ (winOffset (0x000C0510 : Nat) = some ((17 : Nat), (0 : Nat))) ∧ (({ State.reset with brd.counterDone := true, boot.coilReady := true, brd.port := [.register 0x000C0510 4 0] } : State).boot.cfgSealed = false) ∧ (winFixed { ({ State.reset with brd.counterDone := true, boot.coilReady := true, brd.port := [.register 0x000C0510 4 0] } : State) with brd.port := ([] : List Held) } (17 : Nat) = false) ∧ (winBreach ({ State.reset with brd.counterDone := true, boot.coilReady := true, brd.port := [.register 0x000C0510 4 0] } : State).ham.win (17 : Nat) (0 : Nat) (4 : Nat) = (false, false)) ∧ (4096 < auditFree { ({ State.reset with brd.counterDone := true, boot.coilReady := true, brd.port := [.register 0x000C0510 4 0] } : State) with brd.port := ([] : List Held) }) ∧
    (({ State.reset with brd.counterDone := true, boot.coilReady := true, brd.port := [.command (K opSetTime) {}] } : State).boot.fastStopped = false) ∧ (portRuns ({ State.reset with brd.counterDone := true, boot.coilReady := true, brd.port := [.command (K opSetTime) {}] } : State) = true) ∧ (({ State.reset with brd.counterDone := true, boot.coilReady := true, brd.port := [.command (K opSetTime) {}] } : State).saf.mgmtHalted = false) ∧ (({ State.reset with brd.counterDone := true, boot.coilReady := true, brd.port := [.command (K opSetTime) {}] } : State).brd.port = .command (K opSetTime : Cmd) ({} : Decision) :: ([] : List Held)) ∧ (carriedHere (K opSetTime : Cmd) = false) ∧ (cmdTier { ({ State.reset with brd.counterDone := true, boot.coilReady := true, brd.port := [.command (K opSetTime) {}] } : State) with brd.port := ([] : List Held) } (K opSetTime : Cmd) = true) ∧ ((K opSetTime : Cmd).opcode = opSetTime) ∧ (isSuccess ({} : Decision).status = true) ∧ (({} : Decision).carried = false) ∧ (({} : Decision).started = false) ∧ (({ State.reset with brd.counterDone := true, boot.coilReady := true, brd.port := [.command (K opSetTime) {}] } : State).saf.failSilent = false) ∧ (({} : Decision).status ≠ stOkNochange) ∧ (crossesNear { ({ State.reset with brd.counterDone := true, boot.coilReady := true, brd.port := [.command (K opSetTime) {}] } : State) with brd.port := ([] : List Held) } = false) := by
  decide

set_option maxRecDepth 100000 in
/-- The hypotheses of AuditPortEntryThenEffect are met. -/
theorem test_met_AuditPortEntryThenEffect_1 :
    (({ State.reset with brd.counterDone := true, boot.coilReady := true, nv.waitingEntries := [({ kind := 3 }, none)] } : State).boot.fastStopped = false) ∧ (({ State.reset with brd.counterDone := true, boot.coilReady := true, nv.waitingEntries := [({ kind := 3 }, none)] } : State).nv.waitingEntries = (({ kind := 3 } : AuditEntry), none) :: ([] : List (AuditEntry × Option StatusPkt))) ∧ (16 < auditFree ({ State.reset with brd.counterDone := true, boot.coilReady := true, nv.waitingEntries := [({ kind := 3 }, none)] } : State)) ∧ (portRuns ({ State.reset with brd.counterDone := true, boot.coilReady := true, nv.waitingEntries := [({ kind := 3 }, none)] } : State) = true) := by
  decide

/-- The hypotheses of AppendEntryLinksTheChain are met (clause 2). -/
theorem test_met_AppendEntryLinksTheChain_c2 :
    (chainLinked (State.reset : State).nv.chain) := by
  intro i e h
  have h0 : State.reset.nv.chain = [] := rfl
  rw [h0] at h; simp at h

set_option maxRecDepth 100000 in
/-- The hypotheses of AppendEntryLinksTheChain are met. -/
theorem test_met_AppendEntryLinksTheChain :
    (crossesNear (State.reset : State) = false) := by
  decide

set_option maxRecDepth 100000 in
/-- The hypotheses of ParameterCommands are met. -/
theorem test_met_ParameterCommands_0 :
    ((SP opGetParam (zeros 24 ++ [0x10]) : State).boot.fastStopped = false) ∧ (opCmd (SP opGetParam (zeros 24 ++ [0x10]) : State) (3 : Nat) (1 : Nat) opGetParam = some (KP opGetParam (zeros 24 ++ [0x10]) : Cmd)) ∧ (pidWidth (pk (KP opGetParam (zeros 24 ++ [0x10]) : Cmd) 24 2) ≠ some 0) ∧
    ((SP opGetParam (zeros 24 ++ [0x10, 0x0A]) : State).boot.fastStopped = false) ∧ (opCmd (SP opGetParam (zeros 24 ++ [0x10, 0x0A]) : State) (3 : Nat) (1 : Nat) opGetParam = some (KP opGetParam (zeros 24 ++ [0x10, 0x0A]) : Cmd)) ∧ (pidWidth (pk (KP opGetParam (zeros 24 ++ [0x10, 0x0A]) : Cmd) 24 2) = some 0) ∧
    ((SP opSetParam (zeros 24 ++ [0x10, 0, 4, 0, 7, 0, 0, 0]) : State).boot.fastStopped = false) ∧ (opCmd (SP opSetParam (zeros 24 ++ [0x10, 0, 4, 0, 7, 0, 0, 0]) : State) (3 : Nat) (1 : Nat) opSetParam = some (KP opSetParam (zeros 24 ++ [0x10, 0, 4, 0, 7, 0, 0, 0]) : Cmd)) ∧ ((SP opSetParam (zeros 24 ++ [0x10, 0, 4, 0, 7, 0, 0, 0]) : State).brd.port = []) ∧ (pidWidth (pk (KP opSetParam (zeros 24 ++ [0x10, 0, 4, 0, 7, 0, 0, 0]) : Cmd) 24 2) ≠ some 0) ∧ (pidRefusal (SP opSetParam (zeros 24 ++ [0x10, 0, 4, 0, 7, 0, 0, 0]) : State) (pk (KP opSetParam (zeros 24 ++ [0x10, 0, 4, 0, 7, 0, 0, 0]) : Cmd) 24 2) (pk (KP opSetParam (zeros 24 ++ [0x10, 0, 4, 0, 7, 0, 0, 0]) : Cmd) 28 (pk (KP opSetParam (zeros 24 ++ [0x10, 0, 4, 0, 7, 0, 0, 0]) : Cmd) 26 1)) = none) ∧ (pidRead (SP opSetParam (zeros 24 ++ [0x10, 0, 4, 0, 7, 0, 0, 0]) : State) (pk (KP opSetParam (zeros 24 ++ [0x10, 0, 4, 0, 7, 0, 0, 0]) : Cmd) 24 2) ≠ pk (KP opSetParam (zeros 24 ++ [0x10, 0, 4, 0, 7, 0, 0, 0]) : Cmd) 28 (pk (KP opSetParam (zeros 24 ++ [0x10, 0, 4, 0, 7, 0, 0, 0]) : Cmd) 26 1)) ∧
    (({ SP opSetParam (zeros 24 ++ [0x10, 0, 4, 0, 7, 0, 0, 0]) with plem.pids := [(0x10, 7)] } : State).boot.fastStopped = false) ∧ (opCmd ({ SP opSetParam (zeros 24 ++ [0x10, 0, 4, 0, 7, 0, 0, 0]) with plem.pids := [(0x10, 7)] } : State) (3 : Nat) (1 : Nat) opSetParam = some (KP opSetParam (zeros 24 ++ [0x10, 0, 4, 0, 7, 0, 0, 0]) : Cmd)) ∧ (({ SP opSetParam (zeros 24 ++ [0x10, 0, 4, 0, 7, 0, 0, 0]) with plem.pids := [(0x10, 7)] } : State).brd.port = []) ∧ (pidWidth (pk (KP opSetParam (zeros 24 ++ [0x10, 0, 4, 0, 7, 0, 0, 0]) : Cmd) 24 2) ≠ some 0) ∧ (pk (KP opSetParam (zeros 24 ++ [0x10, 0, 4, 0, 7, 0, 0, 0]) : Cmd) 24 2 ≠ 0x0420) ∧ (pidRefusal ({ SP opSetParam (zeros 24 ++ [0x10, 0, 4, 0, 7, 0, 0, 0]) with plem.pids := [(0x10, 7)] } : State) (pk (KP opSetParam (zeros 24 ++ [0x10, 0, 4, 0, 7, 0, 0, 0]) : Cmd) 24 2) (pk (KP opSetParam (zeros 24 ++ [0x10, 0, 4, 0, 7, 0, 0, 0]) : Cmd) 28 (pk (KP opSetParam (zeros 24 ++ [0x10, 0, 4, 0, 7, 0, 0, 0]) : Cmd) 26 1)) = none) ∧ (pidRead ({ SP opSetParam (zeros 24 ++ [0x10, 0, 4, 0, 7, 0, 0, 0]) with plem.pids := [(0x10, 7)] } : State) (pk (KP opSetParam (zeros 24 ++ [0x10, 0, 4, 0, 7, 0, 0, 0]) : Cmd) 24 2) = pk (KP opSetParam (zeros 24 ++ [0x10, 0, 4, 0, 7, 0, 0, 0]) : Cmd) 28 (pk (KP opSetParam (zeros 24 ++ [0x10, 0, 4, 0, 7, 0, 0, 0]) : Cmd) 26 1)) ∧
    (({ SP opSetParam (zeros 24 ++ [0, 3, 8, 0]) with boot.cfgSealed := true } : State).boot.fastStopped = false) ∧ (opCmd ({ SP opSetParam (zeros 24 ++ [0, 3, 8, 0]) with boot.cfgSealed := true } : State) (3 : Nat) (1 : Nat) opSetParam = some (KP opSetParam (zeros 24 ++ [0, 3, 8, 0]) : Cmd)) ∧ (({ SP opSetParam (zeros 24 ++ [0, 3, 8, 0]) with boot.cfgSealed := true } : State).brd.port = []) ∧ (pidWidth (pk (KP opSetParam (zeros 24 ++ [0, 3, 8, 0]) : Cmd) 24 2) ≠ some 0) ∧ (pidLocked ({ SP opSetParam (zeros 24 ++ [0, 3, 8, 0]) with boot.cfgSealed := true } : State) (pk (KP opSetParam (zeros 24 ++ [0, 3, 8, 0]) : Cmd) 24 2) = true) := by
  decide

set_option maxRecDepth 100000 in
/-- The hypotheses of ParameterCommands are met. -/
theorem test_met_ParameterCommands_1 :
    (({ State.reset with plem.cmds := [PSC] } : State).boot.fastStopped = false) ∧ (opCmd ({ State.reset with plem.cmds := [PSC] } : State) (3 : Nat) (1 : Nat) opSetParams = some (PSC : Cmd)) ∧ (({ State.reset with plem.cmds := [PSC] } : State).brd.port = []) ∧ (entriesRefusal (paramEntries (PSC : Cmd)) 0 ({ State.reset with plem.cmds := [PSC] } : State) = none) ∧ (((paramEntries (PSC : Cmd)).all fun e => pidRead ({ State.reset with plem.cmds := [PSC] } : State) e.1 == e.2 && !(e.1 == 0x0420 && ({ State.reset with plem.cmds := [PSC] } : State).hfe.pwrEntry.isSome)) = false) ∧
    ((K opSetParam : Cmd).opcode = opSetParam) ∧ (powerAsked (K opSetParam : Cmd) (({ nums := [0x10, 7] } : Decision) : Decision) = none) ∧ ((({ nums := [0x10, 7] } : Decision) : Decision).nums = [(0x10 : Nat), (7 : Nat)]) ∧ (((0x10 : Nat) < 0x0300 ∨ 0x0320 ≤ (0x10 : Nat))) ∧ (loopPid (0x10 : Nat) = none) ∧ ((0x10 : Nat) ≠ 0x0210) ∧ ((0x10 : Nat) ≠ 0x0900) ∧ ((0x10 : Nat) ≠ 0x0B09) ∧ ((0x10 : Nat) ≠ 0x0E11) ∧ ((0x10 : Nat) ≠ 0x0D11) ∧
    ((K opSetParams : Cmd).opcode = opSetParams) := by
  decide

set_option maxRecDepth 100000 in
/-- The hypotheses of RegisterReadsAndWrites are met. -/
theorem test_met_RegisterReadsAndWrites_0 :
    ((State.reset : State).boot.fastStopped = false) ∧ ((0x40004 : Nat) % 4 = 0) ∧ (winOffset (0x40004 : Nat) = none) ∧
    ((State.reset : State).boot.fastStopped = false) ∧ ((0xC0510 : Nat) % 4 = 0) ∧ (winOffset (0xC0510 : Nat) = some ((17 : Nat), (0 : Nat))) ∧
    ((State.reset : State).boot.fastStopped = false) ∧ ((State.reset : State).regs.hi.find? (fun h => h.1 == 0x40004) = none) ∧
    ((State.reset : State).boot.fastStopped = false) ∧ ((State.reset : State).regs.hi.find? (fun h => h.1 == 0x40018) = none) ∧
    ((State.reset : State).boot.fastStopped = false) := by
  decide

set_option maxRecDepth 100000 in
/-- The hypotheses of RegisterReadsAndWrites are met. -/
theorem test_met_RegisterReadsAndWrites_1 :
    ((State.reset : State).boot.fastStopped = false) ∧
    ((State.reset : State).boot.fastStopped = false) ∧
    ((State.reset : State).boot.fastStopped = false) ∧ ((regKind (0x40004 : Nat) = none ∨ regKind (0x40004 : Nat) = some .ro ∨ regKind (0x40004 : Nat) = some .rc)) ∧
    ((State.reset : State).boot.fastStopped = false) ∧
    ((State.reset : State).boot.fastStopped = false) := by
  decide

set_option maxRecDepth 100000 in
/-- The hypotheses of RegReadAndRegWriteCommands are met. -/
theorem test_met_RegReadAndRegWriteCommands_0 :
    ((S1 opRegRead : State).boot.fastStopped = false) ∧ (opCmd (S1 opRegRead : State) (3 : Nat) (1 : Nat) opRegRead = some (K opRegRead : Cmd)) ∧
    ((SP opRegWrite (zeros 24 ++ [0x20, 0, 6]) : State).boot.fastStopped = false) ∧ (opCmd (SP opRegWrite (zeros 24 ++ [0x20, 0, 6]) : State) (3 : Nat) (1 : Nat) opRegWrite = some (KP opRegWrite (zeros 24 ++ [0x20, 0, 6]) : Cmd)) ∧ ((SP opRegWrite (zeros 24 ++ [0x20, 0, 6]) : State).brd.port = []) ∧ (regKind (pk (KP opRegWrite (zeros 24 ++ [0x20, 0, 6]) : Cmd) 24 4) = some .rw) ∧ (winOffset (pk (KP opRegWrite (zeros 24 ++ [0x20, 0, 6]) : Cmd) 24 4) = none) ∧
    ((SP opRegWrite (zeros 24 ++ [4, 0, 4]) : State).boot.fastStopped = false) ∧ (opCmd (SP opRegWrite (zeros 24 ++ [4, 0, 4]) : State) (3 : Nat) (1 : Nat) opRegWrite = some (KP opRegWrite (zeros 24 ++ [4, 0, 4]) : Cmd)) ∧ ((SP opRegWrite (zeros 24 ++ [4, 0, 4]) : State).brd.port = []) ∧ ((regKind (pk (KP opRegWrite (zeros 24 ++ [4, 0, 4]) : Cmd) 24 4) = some .ro ∨ regKind (pk (KP opRegWrite (zeros 24 ++ [4, 0, 4]) : Cmd) 24 4) = some .rc)) ∧
    (({ SP opRegWrite (zeros 24 ++ [0, 5, 0x0C]) with boot.cfgSealed := true } : State).boot.fastStopped = false) ∧ (opCmd ({ SP opRegWrite (zeros 24 ++ [0, 5, 0x0C]) with boot.cfgSealed := true } : State) (3 : Nat) (1 : Nat) opRegWrite = some (KP opRegWrite (zeros 24 ++ [0, 5, 0x0C]) : Cmd)) ∧ (({ SP opRegWrite (zeros 24 ++ [0, 5, 0x0C]) with boot.cfgSealed := true } : State).brd.port = []) ∧ (regKind (pk (KP opRegWrite (zeros 24 ++ [0, 5, 0x0C]) : Cmd) 24 4) = some .rwl) ∧ (winOffset (pk (KP opRegWrite (zeros 24 ++ [0, 5, 0x0C]) : Cmd) 24 4) = some ((16 : Nat), (0 : Nat))) ∧ (({ SP opRegWrite (zeros 24 ++ [0, 5, 0x0C]) with boot.cfgSealed := true } : State).boot.cfgSealed = true) ∧
    ((K opRegWrite : Cmd).opcode = opRegWrite) ∧ ((({ nums := [0xC0500, 5] } : Decision) : Decision).nums = [(0xC0500 : Nat), (5 : Nat)]) ∧ (winOffset (0xC0500 : Nat) = some ((16 : Nat), (0 : Nat))) := by
  decide

set_option maxRecDepth 100000 in
/-- The hypotheses of RegReadAndRegWriteCommands are met. -/
theorem test_met_RegReadAndRegWriteCommands_1 :
    ((K opRegWrite : Cmd).opcode = opRegWrite) ∧ ((({ nums := [0x60020, 5] } : Decision) : Decision).nums = [(0x60020 : Nat), (5 : Nat)]) ∧ (winOffset (0x60020 : Nat) = none) ∧
    ((State.reset : State).boot.fastStopped = false) ∧ ((State.reset : State).boot.cfgSealed = false) ∧ (winFixed (State.reset : State) (20 : Nat) = false) ∧ ((20 : Nat) < 32) ∧
    ((State.reset : State).boot.fastStopped = false) ∧ ((State.reset : State).boot.cfgSealed = false) ∧ (winFixed (State.reset : State) (20 : Nat) = false) ∧ ((20 : Nat) < 32) ∧
    ((State.reset : State).boot.fastStopped = false) ∧ ((State.reset : State).boot.cfgSealed = false) ∧ (winFixed (State.reset : State) (20 : Nat) = false) ∧ ((20 : Nat) < 32) ∧
    (({ WST with brd.counterDone := true, boot.coilReady := true, brd.port := [.register (0xC0400 + 16 * 20 + 8) 0x80000000 7] } : State).boot.fastStopped = false) ∧ (portRuns ({ WST with brd.counterDone := true, boot.coilReady := true, brd.port := [.register (0xC0400 + 16 * 20 + 8) 0x80000000 7] } : State) = true) ∧ (({ WST with brd.counterDone := true, boot.coilReady := true, brd.port := [.register (0xC0400 + 16 * 20 + 8) 0x80000000 7] } : State).brd.port = .register (0xC0400 + 16 * 20 + 8 : Nat) (0x80000000 : Nat) (7 : Nat) :: ([] : List Held)) ∧ (winOffset (0xC0400 + 16 * 20 + 8 : Nat) = some ((20 : Nat), (8 : Nat))) ∧ (({ WST with brd.counterDone := true, boot.coilReady := true, brd.port := [.register (0xC0400 + 16 * 20 + 8) 0x80000000 7] } : State).boot.cfgSealed = false) ∧ (winFixed { ({ WST with brd.counterDone := true, boot.coilReady := true, brd.port := [.register (0xC0400 + 16 * 20 + 8) 0x80000000 7] } : State) with brd.port := ([] : List Held) } (20 : Nat) = false) ∧ (((winBreach ({ WST with brd.counterDone := true, boot.coilReady := true, brd.port := [.register (0xC0400 + 16 * 20 + 8) 0x80000000 7] } : State).ham.win (20 : Nat) (8 : Nat) (0x80000000 : Nat)).1 || (winBreach ({ WST with brd.counterDone := true, boot.coilReady := true, brd.port := [.register (0xC0400 + 16 * 20 + 8) 0x80000000 7] } : State).ham.win (20 : Nat) (8 : Nat) (0x80000000 : Nat)).2) = true) := by
  decide

set_option maxRecDepth 100000 in
/-- The hypotheses of RegReadAndRegWriteCommands are met. -/
theorem test_met_RegReadAndRegWriteCommands_2 :
    (({ State.reset with boot.cfgSealed := true } : State).boot.fastStopped = false) ∧ ((({ State.reset with boot.cfgSealed := true } : State).boot.cfgSealed = true ∨ winFixed ({ State.reset with boot.cfgSealed := true } : State) (20 : Nat) = true)) := by
  decide

set_option maxRecDepth 100000 in
/-- The hypotheses of HamperAccessesUnderWindows are met. -/
theorem test_met_HamperAccessesUnderWindows_0 :
    (({ State.reset with ham.win := [{ base := 0, size := 1, enable := true, owner := 2 }] } : State).boot.fastStopped = false) ∧ (({ State.reset with ham.win := [{ base := 0, size := 1, enable := true, owner := 2 }] } : State).saf.failSilent = false) ∧ (({ State.reset with ham.win := [{ base := 0, size := 1, enable := true, owner := 2 }] } : State).pwr.doze = false) ∧ (winAllowsRange ({ State.reset with ham.win := [{ base := 0, size := 1, enable := true, owner := 2 }] } : State).ham.win 2 true (0 : Nat) ([1] : List Byte).length = true) ∧
    (({ State.reset with ham.win := [{ base := 0, size := 1, enable := true, owner := 3 }] } : State).boot.fastStopped = false) ∧ (winAllowsRange ({ State.reset with ham.win := [{ base := 0, size := 1, enable := true, owner := 3 }] } : State).ham.win 3 false (0 : Nat) ([1] : List Byte).length = true) ∧
    ((State.reset : State).boot.fastStopped = false) ∧ ((State.reset : State).saf.failSilent = false) ∧ ((State.reset : State).pwr.doze = false) ∧ (winAllowsRange (State.reset : State).ham.win 1 (true : Bool) (0 : Nat) ([1] : List Byte).length = false) ∧
    ((State.reset : State).boot.fastStopped = false) ∧ ((State.reset : State).saf.failSilent = false) ∧ ((State.reset : State).pwr.doze = false) ∧ (winAllowsRange (State.reset : State).ham.win 2 (true : Bool) (0 : Nat) ([1] : List Byte).length = false) ∧
    ((State.reset : State).boot.fastStopped = false) ∧ ((State.reset : State).saf.failSilent = false) ∧ ((State.reset : State).pwr.doze = false) ∧ (14 ≤ (15 : Nat)) ∧ (laneAllows (State.reset : State) (15 : Nat) (true : Bool) (0 : Nat) ([1] : List Byte).length = false) := by
  decide

set_option maxRecDepth 100000 in
/-- The hypotheses of HamperAccessesUnderWindows are met. -/
theorem test_met_HamperAccessesUnderWindows_1 :
    (((1 : Nat) < (0 : Nat) ∨ (0 : Nat) + ([1] : List Byte).length ≤ (1 : Nat))) ∧
    ((63 : Nat) < 64) ∧ (rimByCore (63 : Nat) = false) ∧ (((State.reset : State).boot.fastStopped = false ∧ ((rimPlanes (63 : Nat)).1 = 3 ∨ ((State.reset : State).saf.failSilent = false ∧ (State.reset : State).pwr.doze = false)))) ∧ ((rimOf (State.reset : State) (63 : Nat)).entries.length < rimCap) ∧
    ((63 : Nat) < 64) ∧ (rimByCore (63 : Nat) = false) ∧ ((({ State.reset with ham.rim := List.replicate 64 { entries := List.replicate 256 [] } } : State).boot.fastStopped = false ∧ ((rimPlanes (63 : Nat)).1 = 3 ∨ (({ State.reset with ham.rim := List.replicate 64 { entries := List.replicate 256 [] } } : State).saf.failSilent = false ∧ ({ State.reset with ham.rim := List.replicate 64 { entries := List.replicate 256 [] } } : State).pwr.doze = false)))) ∧ (rimCap ≤ (rimOf ({ State.reset with ham.rim := List.replicate 64 { entries := List.replicate 256 [] } } : State) (63 : Nat)).entries.length) ∧
    ((16 : Nat) < 64) ∧ (rimByCore (16 : Nat) = true) ∧ ((rimPlanes (16 : Nat)).1 = 2) ∧ ((State.reset : State).boot.fastStopped = false) ∧ ((State.reset : State).saf.failSilent = false) ∧ ((State.reset : State).pwr.doze = false) ∧ ((rimOf (State.reset : State) (16 : Nat)).entries.length < rimCap) ∧
    ((32 : Nat) < 64) ∧ (rimByCore (32 : Nat) = true) ∧ ((rimPlanes (32 : Nat)).1 = 3) ∧ ((State.reset : State).boot.fastStopped = false) ∧ ((rimOf (State.reset : State) (32 : Nat)).entries.length < rimCap) := by
  decide

set_option maxRecDepth 100000 in
/-- The hypotheses of HamperAccessesUnderWindows are met. -/
theorem test_met_HamperAccessesUnderWindows_2 :
    ((16 : Nat) < 64) ∧ (rimByCore (16 : Nat) = true) ∧ ((({ State.reset with ham.rim := List.replicate 64 { entries := List.replicate 256 [] } } : State).boot.fastStopped = false ∧ ((rimPlanes (16 : Nat)).1 = 3 ∨ (({ State.reset with ham.rim := List.replicate 64 { entries := List.replicate 256 [] } } : State).saf.failSilent = false ∧ ({ State.reset with ham.rim := List.replicate 64 { entries := List.replicate 256 [] } } : State).pwr.doze = false)))) ∧ (rimCap ≤ (rimOf ({ State.reset with ham.rim := List.replicate 64 { entries := List.replicate 256 [] } } : State) (16 : Nat)).entries.length) ∧
    ((64 ≤ (16 : Nat) ∨ (false : Bool) ≠ rimByCore (16 : Nat))) ∧
    ((({ State.reset with ham.rim := [{ entries := [[7]] }] } : State).boot.fastStopped = false ∧ ((rimPlanes (0 : Nat)).2 = 3 ∨ (({ State.reset with ham.rim := [{ entries := [[7]] }] } : State).saf.failSilent = false ∧ ({ State.reset with ham.rim := [{ entries := [[7]] }] } : State).pwr.doze = false)))) ∧ ((rimOf ({ State.reset with ham.rim := [{ entries := [[7]] }] } : State) (0 : Nat)).entries = ([7] : List Byte) :: ([] : List (List Byte))) ∧
    (([1] : List Byte).length ≤ winSize ({ State.reset with ham.win := updAt 2 (fun w => { w with base := 0, size := 16, enable := true, d := 3 }) State.reset.ham.win } : State) 2) ∧ (((({ State.reset with ham.win := updAt 2 (fun w => { w with base := 0, size := 16, enable := true, d := 3 }) State.reset.ham.win } : State).ham.win[2]?).getD ({ base := 0 } : Win)).enable = true) ∧ (winCode ((({ State.reset with ham.win := updAt 2 (fun w => { w with base := 0, size := 16, enable := true, d := 3 }) State.reset.ham.win } : State).ham.win[2]?).getD ({ base := 0 } : Win)) 1 / 2 = 1) := by
  decide

set_option maxRecDepth 100000 in
/-- The hypotheses of EventRecorderCommands are met. -/
theorem test_met_EventRecorderCommands_0 :
    ((State.reset : State).boot.fastStopped = false) ∧ (definedCodes.contains (0x107 : Nat) = true) ∧
    ((State.reset : State).boot.fastStopped = false) ∧ (definedCodes.contains (0x108 : Nat) = false) ∧
    (({ State.reset with plem.pids := [(0x0F00, 60)], evr.lenS := 60 } : State).boot.fastStopped = false) ∧ (pidVal ({ State.reset with plem.pids := [(0x0F00, 60)], evr.lenS := 60 } : State) 0x0F00 = ({ State.reset with plem.pids := [(0x0F00, 60)], evr.lenS := 60 } : State).evr.lenS) ∧ ((({ State.reset with plem.pids := [(0x0F00, 60)], evr.lenS := 60 } : State).evr.epoch.filter fun c => decide (0 < c.count)) = []) ∧
    (({ State.reset with boot.coilReady := true } : State).boot.fastStopped = false) ∧ (({ State.reset with boot.coilReady := true } : State).boot.coilReady = true) ∧ (({ State.reset with boot.coilReady := true } : State).evr.coilWait = true) ∧ (({ State.reset with boot.coilReady := true } : State).nv.evrRecs = []) ∧ (({ State.reset with boot.coilReady := true } : State).evr.heldRecs = []) ∧
    ((S1 opEvrRead : State).boot.fastStopped = false) ∧ (opCmd (S1 opEvrRead : State) (3 : Nat) (1 : Nat) opEvrRead = some (K opEvrRead : Cmd)) ∧ (pk (K opEvrRead : Cmd) 24 1 = 0) := by
  decide

set_option maxRecDepth 100000 in
/-- The hypotheses of EventRecorderCommands are met. -/
theorem test_met_EventRecorderCommands_1 :
    (({ SP opEvrClear (zeros 28 ++ [1]) with nv.evrRecs := [{ kind := 1 }] } : State).boot.fastStopped = false) ∧ (opCmd ({ SP opEvrClear (zeros 28 ++ [1]) with nv.evrRecs := [{ kind := 1 }] } : State) (3 : Nat) (1 : Nat) opEvrClear = some (KP opEvrClear (zeros 28 ++ [1]) : Cmd)) ∧ (({ SP opEvrClear (zeros 28 ++ [1]) with nv.evrRecs := [{ kind := 1 }] } : State).brd.port = []) ∧ (pk (KP opEvrClear (zeros 28 ++ [1]) : Cmd) 28 4 ≤ ({ SP opEvrClear (zeros 28 ++ [1]) with nv.evrRecs := [{ kind := 1 }] } : State).nv.evrRecs.length) ∧ (0 < pk (KP opEvrClear (zeros 28 ++ [1]) : Cmd) 28 4) ∧
    ((SP opEvrClear (zeros 28 ++ [1]) : State).boot.fastStopped = false) ∧ (opCmd (SP opEvrClear (zeros 28 ++ [1]) : State) (3 : Nat) (1 : Nat) opEvrClear = some (KP opEvrClear (zeros 28 ++ [1]) : Cmd)) ∧ ((SP opEvrClear (zeros 28 ++ [1]) : State).brd.port = []) ∧ ((SP opEvrClear (zeros 28 ++ [1]) : State).nv.evrRecs.length < pk (KP opEvrClear (zeros 28 ++ [1]) : Cmd) 28 4) ∧
    ((K opEvrClear : Cmd).opcode = opEvrClear) ∧ ((({ nums := [1, 0] } : Decision) : Decision).nums = [(1 : Nat), 0]) := by
  decide

/-- The hypotheses of CipherRequestsAndOperations are met (clause 1). -/
theorem test_met_CipherRequestsAndOperations_c1 :
    (({ State.reset with cip.slots := [{ num := 3, usage := 5 }] } : State).boot.fastStopped = false) ∧
    (({ State.reset with cip.slots := [{ num := 3, usage := 5 }] } : State).pwr.doze = false) ∧
    (({ State.reset with cip.slots := [{ num := 3, usage := 5 }] } : State).saf.failSilent = false) ∧
    (slotOf ({ State.reset with cip.slots := [{ num := 3, usage := 5 }] } : State) (3 : Nat) = some ({ num := 3, usage := 5 } : Slot)) ∧
    ((2 : Nat) ≠ 1) ∧
    (modeAllowed ({ num := 3, usage := 5 } : Slot).usage (2 : Nat) = true) ∧
    (overLimit ({ num := 3, usage := 5 } : Slot) (cipherCount { mode := (2 : Nat), decrypt := bit (0 : Nat) 0, unit := if bit (0 : Nat) 1 then 4096 else 512, len := (16 : Nat), aadLen := (0 : Nat), iv := ([] : List Byte).take 16 }) = false) ∧
    (cipherLength { mode := (2 : Nat), decrypt := bit (0 : Nat) 0, unit := if bit (0 : Nat) 1 then 4096 else 512, len := (16 : Nat), aadLen := (0 : Nat), iv := ([] : List Byte).take 16 } = none) ∧
    ((16 : Nat) = (16 : Nat)) ∧
    ((16 : Nat) ≤ (16 : Nat)) ∧
    ((Config.cipher 2 false [] (List.take 16 []) [] (zeros 16) : List Byte) = (if (16 : Nat) = 0 then [] else Config.cipher (2 : Nat) (bit (0 : Nat) 0) ({ num := 3, usage := 5 } : Slot).key (([] : List Byte).take 16) ([] : List Byte) (zeros 16 : List Byte))) := by
  exact ⟨rfl, rfl, rfl, rfl, by decide, rfl, rfl, rfl, rfl, by decide, rfl⟩

set_option maxRecDepth 100000 in
/-- The hypotheses of CipherRequestsAndOperations are met. -/
theorem test_met_CipherRequestsAndOperations :
    (({ State.reset with cip.slots := [{ num := 3, usage := 5 }] } : State).boot.fastStopped = false) ∧ (({ State.reset with cip.slots := [{ num := 3, usage := 5 }] } : State).pwr.doze = false) ∧ (({ State.reset with cip.slots := [{ num := 3, usage := 5 }] } : State).saf.failSilent = false) ∧ (slotOf ({ State.reset with cip.slots := [{ num := 3, usage := 5 }] } : State) (4 : Nat) = none) ∧
    (({ State.reset with cip.slots := [{ num := 3, usage := 5 }] } : State).boot.fastStopped = false) ∧ (({ State.reset with cip.slots := [{ num := 3, usage := 5 }] } : State).pwr.doze = false) ∧ (({ State.reset with cip.slots := [{ num := 3, usage := 5 }] } : State).saf.failSilent = false) ∧ (slotOf ({ State.reset with cip.slots := [{ num := 3, usage := 5 }] } : State) (3 : Nat) = some ({ num := 3, usage := 5 } : Slot)) ∧ (modeAllowed ({ num := 3, usage := 5 } : Slot).usage (0 : Nat) = false) ∧
    (({ State.reset with cip.slots := [{ num := 3, usage := 5 }], plem.cmds := [CIC] } : State).boot.fastStopped = false) ∧ (opCmd ({ State.reset with cip.slots := [{ num := 3, usage := 5 }], plem.cmds := [CIC] } : State) (3 : Nat) (1 : Nat) opCipherOp = some (CIC : Cmd)) ∧ (cipherOpRefusal ({ State.reset with cip.slots := [{ num := 3, usage := 5 }], plem.cmds := [CIC] } : State) (CIC : Cmd) (cipherOpReq (CIC : Cmd) (padTo (pk (CIC : Cmd) 28 4) ([] : List Byte))) = none) ∧ (slotOf ({ State.reset with cip.slots := [{ num := 3, usage := 5 }], plem.cmds := [CIC] } : State) (pk (CIC : Cmd) 24 2) = some ({ num := 3, usage := 5 } : Slot)) ∧ (usageLimit ({ num := 3, usage := 5 } : Slot).usage = 0) ∧ (pk (CIC : Cmd) 26 1 ≠ 1) ∧
    ((S1 opCipherOp : State).boot.fastStopped = false) ∧ (opCmd (S1 opCipherOp : State) (3 : Nat) (1 : Nat) opCipherOp = some (K opCipherOp : Cmd)) ∧ (pk (K opCipherOp : Cmd) 26 1 ≠ 1) ∧ (slotOf (S1 opCipherOp : State) (pk (K opCipherOp : Cmd) 24 2) = none) ∧
    ((State.reset : State).boot.fastStopped = false) := by
  decide

/-- The hypotheses of KeyCommands are met (clause 1). -/
theorem test_met_KeyCommands_c1 :
    ((SP opKeyGenerate (zeros 26 ++ [5]) : State).boot.fastStopped = false) ∧
    (opCmd (SP opKeyGenerate (zeros 26 ++ [5]) : State) (3 : Nat) (1 : Nat) opKeyGenerate = some (KP opKeyGenerate (zeros 26 ++ [5]) : Cmd)) ∧
    ((SP opKeyGenerate (zeros 26 ++ [5]) : State).brd.port = []) ∧
    (awaitsKey (SP opKeyGenerate (zeros 26 ++ [5]) : State) (KP opKeyGenerate (zeros 26 ++ [5]) : Cmd) = false) ∧
    (pk (KP opKeyGenerate (zeros 26 ++ [5]) : Cmd) 26 1 ≠ 8) ∧
    (slotOf (SP opKeyGenerate (zeros 26 ++ [5]) : State) (pk (KP opKeyGenerate (zeros 26 ++ [5]) : Cmd) 24 2) = none) ∧
    (pk (KP opKeyGenerate (zeros 26 ++ [5]) : Cmd) 28 1 = 0) ∧
    (tableFull (SP opKeyGenerate (zeros 26 ++ [5]) : State) (pk (KP opKeyGenerate (zeros 26 ++ [5]) : Cmd) 26 1) (kcvOf (drawnKey (SP opKeyGenerate (zeros 26 ++ [5]) : State) (pk (KP opKeyGenerate (zeros 26 ++ [5]) : Cmd) 26 1)).1) = false) := by
  refine ⟨rfl, rfl, rfl, rfl, by decide, rfl, rfl, ?_⟩
  simp only [tableFull]; rfl

set_option maxRecDepth 100000 in
/-- The hypotheses of KeyCommands are met. -/
theorem test_met_KeyCommands_0 :
    (({ SP opKeyGenerate (zeros 26 ++ [5]) with cip.slots := [{ num := 0 }] } : State).boot.fastStopped = false) ∧ (opCmd ({ SP opKeyGenerate (zeros 26 ++ [5]) with cip.slots := [{ num := 0 }] } : State) (3 : Nat) (1 : Nat) opKeyGenerate = some (KP opKeyGenerate (zeros 26 ++ [5]) : Cmd)) ∧ (({ SP opKeyGenerate (zeros 26 ++ [5]) with cip.slots := [{ num := 0 }] } : State).brd.port = []) ∧ (awaitsKey ({ SP opKeyGenerate (zeros 26 ++ [5]) with cip.slots := [{ num := 0 }] } : State) (KP opKeyGenerate (zeros 26 ++ [5]) : Cmd) = false) ∧ (pk (KP opKeyGenerate (zeros 26 ++ [5]) : Cmd) 26 1 ≠ 8) ∧ ((slotOf ({ SP opKeyGenerate (zeros 26 ++ [5]) with cip.slots := [{ num := 0 }] } : State) (pk (KP opKeyGenerate (zeros 26 ++ [5]) : Cmd) 24 2)).isSome = true) ∧
    ((SP opKeyLoad (zeros 24 ++ [0xFF, 0xFF]) : State).boot.fastStopped = false) ∧ (opCmd (SP opKeyLoad (zeros 24 ++ [0xFF, 0xFF]) : State) (3 : Nat) (1 : Nat) opKeyLoad = some (KP opKeyLoad (zeros 24 ++ [0xFF, 0xFF]) : Cmd)) ∧ ((SP opKeyLoad (zeros 24 ++ [0xFF, 0xFF]) : State).brd.port = []) ∧ ((pk (KP opKeyLoad (zeros 24 ++ [0xFF, 0xFF]) : Cmd) 24 2 == 0xFFFF) = true) ∧ ((numAt (KP opKeyLoad (zeros 24 ++ [0xFF, 0xFF]) : Cmd).block 2 1 == 8) = false) ∧
    ((S1 opKeyLoad : State).boot.fastStopped = false) ∧ (opCmd (S1 opKeyLoad : State) (3 : Nat) (1 : Nat) opKeyLoad = some (K opKeyLoad : Cmd)) ∧ ((S1 opKeyLoad : State).brd.port = []) ∧
    (({ K opKeyLoad with block := KLB } : Cmd).block = (KLB : List Byte)) ∧ ((KLB : List Byte).length = 72 + keyBytes (numAt (KLB : List Byte) 2 1)) ∧ (((pk ({ K opKeyLoad with block := KLB } : Cmd) 24 2 == 0xFFFF) != (numAt (KLB : List Byte) 2 1 == 8)) = false) ∧ (numAt (KLB : List Byte) 0 1 = 1) ∧ (numAt (KLB : List Byte) 1 1 = 0) ∧ (1 ≤ numAt (KLB : List Byte) 2 1) ∧ (numAt (KLB : List Byte) 2 1 ≤ 8) ∧ (numAt (KLB : List Byte) 3 1 < 8) ∧ (allZero (bytesAt (KLB : List Byte) 10 6) = true) ∧ ((zeros 16 : List Byte) = bytesAt (KLB : List Byte) 16 16) ∧ (usageEntry (State.reset : State) (zeros 16 : List Byte) (State.reset : State).aon.side = none) ∧
    ((S1 opKeyExport : State).boot.fastStopped = false) ∧ (opCmd (S1 opKeyExport : State) (3 : Nat) (1 : Nat) opKeyExport = some (K opKeyExport : Cmd)) ∧ ((S1 opKeyExport : State).brd.port = []) ∧ (awaitsKey (S1 opKeyExport : State) (K opKeyExport : Cmd) = false) ∧ (pk (K opKeyExport : Cmd) 26 1 = 0) := by
  decide

set_option maxRecDepth 100000 in
/-- The hypotheses of KeyCommands are met. -/
theorem test_met_KeyCommands_1 :
    (slotOf ({ State.reset with cip.slots := [{ num := 0, attrs := 1, usage := 5 }, { num := 1, usage := 7 }] } : State) (pk (KP opKeyExport (zeros 28 ++ [1] ++ zeros 11 ++ [72]) : Cmd) 24 2) = some ({ num := 0, attrs := 1, usage := 5 } : Slot)) ∧ (bit ({ num := 0, attrs := 1, usage := 5 } : Slot).attrs 0 = true) ∧ (({ num := 0, attrs := 1, usage := 5 } : Slot).usage ≠ 7) ∧ (slotOf ({ State.reset with cip.slots := [{ num := 0, attrs := 1, usage := 5 }, { num := 1, usage := 7 }] } : State) (pk (KP opKeyExport (zeros 28 ++ [1] ++ zeros 11 ++ [72]) : Cmd) 28 2) = some ({ num := 1, usage := 7 } : Slot)) ∧ (({ num := 1, usage := 7 } : Slot).usage = 7) ∧ (72 + ({ num := 0, attrs := 1, usage := 5 } : Slot).key.length ≤ pk (KP opKeyExport (zeros 28 ++ [1] ++ zeros 11 ++ [72]) : Cmd) 40 4) ∧
    (slotOf (State.reset : State) (pk (K opKeyExport : Cmd) 24 2) = none) ∧
    (({ S1 opKeyDestroy with cip.slots := [{ num := 0 }] } : State).boot.fastStopped = false) ∧ (opCmd ({ S1 opKeyDestroy with cip.slots := [{ num := 0 }] } : State) (3 : Nat) (1 : Nat) opKeyDestroy = some (K opKeyDestroy : Cmd)) ∧ (({ S1 opKeyDestroy with cip.slots := [{ num := 0 }] } : State).brd.port = []) ∧ (slotOf ({ S1 opKeyDestroy with cip.slots := [{ num := 0 }] } : State) (pk (K opKeyDestroy : Cmd) 24 2) = some ({ num := 0 } : Slot)) ∧
    ((SP opKeyQuery (zeros 24 ++ [1]) : State).boot.fastStopped = false) ∧ (opCmd (SP opKeyQuery (zeros 24 ++ [1]) : State) (3 : Nat) (1 : Nat) opKeyQuery = some (KP opKeyQuery (zeros 24 ++ [1]) : Cmd)) ∧ (pk (KP opKeyQuery (zeros 24 ++ [1]) : Cmd) 24 1 = 1) ∧
    (({ State.reset with hdl.paired := true, cip.awk := some [1] } : State).boot.fastStopped = false) ∧ (({ State.reset with hdl.paired := true, cip.awk := some [1] } : State).hdl.paired = true) ∧ (({ State.reset with hdl.paired := true, cip.awk := some [1] } : State).hdl.bridge = false) ∧ (({ State.reset with hdl.paired := true, cip.awk := some [1] } : State).cip.awk = some ([1] : List Byte)) := by
  decide

set_option maxRecDepth 100000 in
/-- The hypotheses of KeyCommands are met. -/
theorem test_met_KeyCommands_2 :
    ((K opKeyGenerate : Cmd).opcode = opKeyGenerate) ∧ ((({ nums := [65535, 8, 0, 0] } : Decision) : Decision).nums = [(65535 : Nat), 8, (0 : Nat), (0 : Nat)]) ∧
    ((K opKeyLoad : Cmd).opcode = opKeyLoad) ∧ ((({ nums := [1, 5, 0, 0] } : Decision) : Decision).nums = [(1 : Nat), (5 : Nat), (0 : Nat), (0 : Nat)]) ∧ ((5 : Nat) ≠ 8) ∧
    (((State.reset : State).nv.domains.find? fun d => !d.keyless && (d.cur == (1 : Nat) || d.prev == some (1 : Nat))) = none) ∧ (usageLimit (5 : Nat) = 0) ∧
    ((K opKeyDestroy : Cmd).opcode = opKeyDestroy) ∧ ((({ nums := [0] } : Decision) : Decision).nums = [0]) := by
  decide

set_option maxRecDepth 100000 in
/-- The hypotheses of VolumeCommandDecisions are met. -/
theorem test_met_VolumeCommandDecisions_0 :
    (({ State.reset with hdl.holder := true, plem.cmds := [KP opVolCreate (zeros 24 ++ [9])], nv.domains := [{ num := 0 }], nv.volumes := [{ num := 7, size := 100 }] } : State).boot.fastStopped = false) ∧ (opCmd ({ State.reset with hdl.holder := true, plem.cmds := [KP opVolCreate (zeros 24 ++ [9])], nv.domains := [{ num := 0 }], nv.volumes := [{ num := 7, size := 100 }] } : State) (3 : Nat) (1 : Nat) opVolCreate = some (KP opVolCreate (zeros 24 ++ [9]) : Cmd)) ∧ (({ State.reset with hdl.holder := true, plem.cmds := [KP opVolCreate (zeros 24 ++ [9])], nv.domains := [{ num := 0 }], nv.volumes := [{ num := 7, size := 100 }] } : State).hdl.holder = true) ∧ (({ State.reset with hdl.holder := true, plem.cmds := [KP opVolCreate (zeros 24 ++ [9])], nv.domains := [{ num := 0 }], nv.volumes := [{ num := 7, size := 100 }] } : State).brd.port = []) ∧ (({ State.reset with hdl.holder := true, plem.cmds := [KP opVolCreate (zeros 24 ++ [9])], nv.domains := [{ num := 0 }], nv.volumes := [{ num := 7, size := 100 }] } : State).col.ends = []) ∧ (policyRefuses ({ State.reset with hdl.holder := true, plem.cmds := [KP opVolCreate (zeros 24 ++ [9])], nv.domains := [{ num := 0 }], nv.volumes := [{ num := 7, size := 100 }] } : State) = false) ∧ (volumeOf ({ State.reset with hdl.holder := true, plem.cmds := [KP opVolCreate (zeros 24 ++ [9])], nv.domains := [{ num := 0 }], nv.volumes := [{ num := 7, size := 100 }] } : State) (pk (KP opVolCreate (zeros 24 ++ [9]) : Cmd) 24 2) = none) ∧ (domainKeyed ({ State.reset with hdl.holder := true, plem.cmds := [KP opVolCreate (zeros 24 ++ [9])], nv.domains := [{ num := 0 }], nv.volumes := [{ num := 7, size := 100 }] } : State) (pk (KP opVolCreate (zeros 24 ++ [9]) : Cmd) 26 2) = true) ∧ ((domainOf ({ State.reset with hdl.holder := true, plem.cmds := [KP opVolCreate (zeros 24 ++ [9])], nv.domains := [{ num := 0 }], nv.volumes := [{ num := 7, size := 100 }] } : State) (pk (KP opVolCreate (zeros 24 ++ [9]) : Cmd) 26 2)).map (·.format) = some (pk (KP opVolCreate (zeros 24 ++ [9]) : Cmd) 28 1)) ∧ (piAllowed (pk (KP opVolCreate (zeros 24 ++ [9]) : Cmd) 28 1) (pk (KP opVolCreate (zeros 24 ++ [9]) : Cmd) 29 1) = true) ∧ (({ State.reset with hdl.holder := true, plem.cmds := [KP opVolCreate (zeros 24 ++ [9])], nv.domains := [{ num := 0 }], nv.volumes := [{ num := 7, size := 100 }] } : State).nv.volumes.length < 65536) ∧
    (({ State.reset with hdl.holder := true, plem.cmds := [KP opVolCreate (zeros 24 ++ [7])], nv.domains := [{ num := 0 }], nv.volumes := [{ num := 7, size := 100 }] } : State).boot.fastStopped = false) ∧ (opCmd ({ State.reset with hdl.holder := true, plem.cmds := [KP opVolCreate (zeros 24 ++ [7])], nv.domains := [{ num := 0 }], nv.volumes := [{ num := 7, size := 100 }] } : State) (3 : Nat) (1 : Nat) opVolCreate = some (KP opVolCreate (zeros 24 ++ [7]) : Cmd)) ∧ (({ State.reset with hdl.holder := true, plem.cmds := [KP opVolCreate (zeros 24 ++ [7])], nv.domains := [{ num := 0 }], nv.volumes := [{ num := 7, size := 100 }] } : State).hdl.holder = true) ∧ (({ State.reset with hdl.holder := true, plem.cmds := [KP opVolCreate (zeros 24 ++ [7])], nv.domains := [{ num := 0 }], nv.volumes := [{ num := 7, size := 100 }] } : State).brd.port = []) ∧ (({ State.reset with hdl.holder := true, plem.cmds := [KP opVolCreate (zeros 24 ++ [7])], nv.domains := [{ num := 0 }], nv.volumes := [{ num := 7, size := 100 }] } : State).col.ends = []) ∧ ((volumeOf ({ State.reset with hdl.holder := true, plem.cmds := [KP opVolCreate (zeros 24 ++ [7])], nv.domains := [{ num := 0 }], nv.volumes := [{ num := 7, size := 100 }] } : State) (pk (KP opVolCreate (zeros 24 ++ [7]) : Cmd) 24 2)).isSome = true) ∧
    (({ State.reset with hdl.holder := true, plem.cmds := [KP opVolCreate (zeros 24 ++ [9, 0, 1])], nv.domains := [{ num := 0 }], nv.volumes := [{ num := 7, size := 100 }] } : State).boot.fastStopped = false) ∧ (opCmd ({ State.reset with hdl.holder := true, plem.cmds := [KP opVolCreate (zeros 24 ++ [9, 0, 1])], nv.domains := [{ num := 0 }], nv.volumes := [{ num := 7, size := 100 }] } : State) (3 : Nat) (1 : Nat) opVolCreate = some (KP opVolCreate (zeros 24 ++ [9, 0, 1]) : Cmd)) ∧ (({ State.reset with hdl.holder := true, plem.cmds := [KP opVolCreate (zeros 24 ++ [9, 0, 1])], nv.domains := [{ num := 0 }], nv.volumes := [{ num := 7, size := 100 }] } : State).hdl.holder = true) ∧ (({ State.reset with hdl.holder := true, plem.cmds := [KP opVolCreate (zeros 24 ++ [9, 0, 1])], nv.domains := [{ num := 0 }], nv.volumes := [{ num := 7, size := 100 }] } : State).brd.port = []) ∧ (({ State.reset with hdl.holder := true, plem.cmds := [KP opVolCreate (zeros 24 ++ [9, 0, 1])], nv.domains := [{ num := 0 }], nv.volumes := [{ num := 7, size := 100 }] } : State).col.ends = []) ∧ (volumeOf ({ State.reset with hdl.holder := true, plem.cmds := [KP opVolCreate (zeros 24 ++ [9, 0, 1])], nv.domains := [{ num := 0 }], nv.volumes := [{ num := 7, size := 100 }] } : State) (pk (KP opVolCreate (zeros 24 ++ [9, 0, 1]) : Cmd) 24 2) = none) ∧ (domainKeyed ({ State.reset with hdl.holder := true, plem.cmds := [KP opVolCreate (zeros 24 ++ [9, 0, 1])], nv.domains := [{ num := 0 }], nv.volumes := [{ num := 7, size := 100 }] } : State) (pk (KP opVolCreate (zeros 24 ++ [9, 0, 1]) : Cmd) 26 2) = false) ∧
    (({ State.reset with hdl.holder := true, plem.cmds := [KP opVolDelete (zeros 24 ++ [7])], nv.domains := [{ num := 0 }], nv.volumes := [{ num := 7, size := 100 }] } : State).boot.fastStopped = false) ∧ (opCmd ({ State.reset with hdl.holder := true, plem.cmds := [KP opVolDelete (zeros 24 ++ [7])], nv.domains := [{ num := 0 }], nv.volumes := [{ num := 7, size := 100 }] } : State) (3 : Nat) (1 : Nat) opVolDelete = some (KP opVolDelete (zeros 24 ++ [7]) : Cmd)) ∧ (({ State.reset with hdl.holder := true, plem.cmds := [KP opVolDelete (zeros 24 ++ [7])], nv.domains := [{ num := 0 }], nv.volumes := [{ num := 7, size := 100 }] } : State).hdl.holder = true) ∧ (({ State.reset with hdl.holder := true, plem.cmds := [KP opVolDelete (zeros 24 ++ [7])], nv.domains := [{ num := 0 }], nv.volumes := [{ num := 7, size := 100 }] } : State).brd.port = []) ∧ (({ State.reset with hdl.holder := true, plem.cmds := [KP opVolDelete (zeros 24 ++ [7])], nv.domains := [{ num := 0 }], nv.volumes := [{ num := 7, size := 100 }] } : State).col.ends = []) ∧ (policyRefuses ({ State.reset with hdl.holder := true, plem.cmds := [KP opVolDelete (zeros 24 ++ [7])], nv.domains := [{ num := 0 }], nv.volumes := [{ num := 7, size := 100 }] } : State) = false) ∧ ((volumeOf ({ State.reset with hdl.holder := true, plem.cmds := [KP opVolDelete (zeros 24 ++ [7])], nv.domains := [{ num := 0 }], nv.volumes := [{ num := 7, size := 100 }] } : State) (pk (KP opVolDelete (zeros 24 ++ [7]) : Cmd) 24 2)).isSome = true) ∧ (((pk (KP opVolDelete (zeros 24 ++ [7]) : Cmd) 26 1 == 0 && ({ State.reset with hdl.holder := true, plem.cmds := [KP opVolDelete (zeros 24 ++ [7])], nv.domains := [{ num := 0 }], nv.volumes := [{ num := 7, size := 100 }] } : State).nv.snaps.any (fun x => x.vol == pk (KP opVolDelete (zeros 24 ++ [7]) : Cmd) 24 2)) || ({ State.reset with hdl.holder := true, plem.cmds := [KP opVolDelete (zeros 24 ++ [7])], nv.domains := [{ num := 0 }], nv.volumes := [{ num := 7, size := 100 }] } : State).rma.repls.any (fun r => r.vol == pk (KP opVolDelete (zeros 24 ++ [7]) : Cmd) 24 2)) = false) ∧ (peerNumbers ({ State.reset with hdl.holder := true, plem.cmds := [KP opVolDelete (zeros 24 ++ [7])], nv.domains := [{ num := 0 }], nv.volumes := [{ num := 7, size := 100 }] } : State) ([pk (KP opVolDelete (zeros 24 ++ [7]) : Cmd) 24 2]) = false) ∧ (locksOf ({ State.reset with hdl.holder := true, plem.cmds := [KP opVolDelete (zeros 24 ++ [7])], nv.domains := [{ num := 0 }], nv.volumes := [{ num := 7, size := 100 }] } : State) (.plem (KP opVolDelete (zeros 24 ++ [7]) : Cmd).ring (KP opVolDelete (zeros 24 ++ [7]) : Cmd).seq) = []) ∧ (plemLocks ({ State.reset with hdl.holder := true, plem.cmds := [KP opVolDelete (zeros 24 ++ [7])], nv.domains := [{ num := 0 }], nv.volumes := [{ num := 7, size := 100 }] } : State) + ([(pk (KP opVolDelete (zeros 24 ++ [7]) : Cmd) 24 2, 0, lastBlock, true)]).length ≤ 256) ∧ (({ State.reset with hdl.holder := true, plem.cmds := [KP opVolDelete (zeros 24 ++ [7])], nv.domains := [{ num := 0 }], nv.volumes := [{ num := 7, size := 100 }] } : State).rlk.locks.length + ([(pk (KP opVolDelete (zeros 24 ++ [7]) : Cmd) 24 2, 0, lastBlock, true)]).length ≤ 65536) ∧
    (({ State.reset with hdl.holder := true, plem.cmds := [KP opVolDelete (zeros 24 ++ [8])], nv.domains := [{ num := 0 }], nv.volumes := [{ num := 7, size := 100 }] } : State).boot.fastStopped = false) ∧ (opCmd ({ State.reset with hdl.holder := true, plem.cmds := [KP opVolDelete (zeros 24 ++ [8])], nv.domains := [{ num := 0 }], nv.volumes := [{ num := 7, size := 100 }] } : State) (3 : Nat) (1 : Nat) opVolDelete = some (KP opVolDelete (zeros 24 ++ [8]) : Cmd)) ∧ (({ State.reset with hdl.holder := true, plem.cmds := [KP opVolDelete (zeros 24 ++ [8])], nv.domains := [{ num := 0 }], nv.volumes := [{ num := 7, size := 100 }] } : State).hdl.holder = true) ∧ (({ State.reset with hdl.holder := true, plem.cmds := [KP opVolDelete (zeros 24 ++ [8])], nv.domains := [{ num := 0 }], nv.volumes := [{ num := 7, size := 100 }] } : State).brd.port = []) ∧ (({ State.reset with hdl.holder := true, plem.cmds := [KP opVolDelete (zeros 24 ++ [8])], nv.domains := [{ num := 0 }], nv.volumes := [{ num := 7, size := 100 }] } : State).col.ends = []) ∧ (volumeOf ({ State.reset with hdl.holder := true, plem.cmds := [KP opVolDelete (zeros 24 ++ [8])], nv.domains := [{ num := 0 }], nv.volumes := [{ num := 7, size := 100 }] } : State) (pk (KP opVolDelete (zeros 24 ++ [8]) : Cmd) 24 2) = none) := by
  decide

set_option maxRecDepth 100000 in
/-- The hypotheses of VolumeCommandDecisions are met. -/
theorem test_met_VolumeCommandDecisions_1 :
    (({ State.reset with hdl.holder := true, plem.cmds := [KP opVolResize (zeros 24 ++ [7, 0, 0, 0, 0, 0, 0, 0, 101])], nv.domains := [{ num := 0 }], nv.volumes := [{ num := 7, size := 100 }] } : State).boot.fastStopped = false) ∧ (opCmd ({ State.reset with hdl.holder := true, plem.cmds := [KP opVolResize (zeros 24 ++ [7, 0, 0, 0, 0, 0, 0, 0, 101])], nv.domains := [{ num := 0 }], nv.volumes := [{ num := 7, size := 100 }] } : State) (3 : Nat) (1 : Nat) opVolResize = some (KP opVolResize (zeros 24 ++ [7, 0, 0, 0, 0, 0, 0, 0, 101]) : Cmd)) ∧ (({ State.reset with hdl.holder := true, plem.cmds := [KP opVolResize (zeros 24 ++ [7, 0, 0, 0, 0, 0, 0, 0, 101])], nv.domains := [{ num := 0 }], nv.volumes := [{ num := 7, size := 100 }] } : State).hdl.holder = true) ∧ (({ State.reset with hdl.holder := true, plem.cmds := [KP opVolResize (zeros 24 ++ [7, 0, 0, 0, 0, 0, 0, 0, 101])], nv.domains := [{ num := 0 }], nv.volumes := [{ num := 7, size := 100 }] } : State).brd.port = []) ∧ (({ State.reset with hdl.holder := true, plem.cmds := [KP opVolResize (zeros 24 ++ [7, 0, 0, 0, 0, 0, 0, 0, 101])], nv.domains := [{ num := 0 }], nv.volumes := [{ num := 7, size := 100 }] } : State).col.ends = []) ∧ (policyRefuses ({ State.reset with hdl.holder := true, plem.cmds := [KP opVolResize (zeros 24 ++ [7, 0, 0, 0, 0, 0, 0, 0, 101])], nv.domains := [{ num := 0 }], nv.volumes := [{ num := 7, size := 100 }] } : State) = false) ∧ (volumeOf ({ State.reset with hdl.holder := true, plem.cmds := [KP opVolResize (zeros 24 ++ [7, 0, 0, 0, 0, 0, 0, 0, 101])], nv.domains := [{ num := 0 }], nv.volumes := [{ num := 7, size := 100 }] } : State) (pk (KP opVolResize (zeros 24 ++ [7, 0, 0, 0, 0, 0, 0, 0, 101]) : Cmd) 24 2) = some ({ num := 7, size := 100 } : Volume)) ∧ (keylessVolume ({ State.reset with hdl.holder := true, plem.cmds := [KP opVolResize (zeros 24 ++ [7, 0, 0, 0, 0, 0, 0, 0, 101])], nv.domains := [{ num := 0 }], nv.volumes := [{ num := 7, size := 100 }] } : State) ({ num := 7, size := 100 } : Volume) = false) ∧ (pk (KP opVolResize (zeros 24 ++ [7, 0, 0, 0, 0, 0, 0, 0, 101]) : Cmd) 32 8 ≤ maxBlocks ({ num := 7, size := 100 } : Volume).format) ∧ (({ num := 7, size := 100 } : Volume).size < pk (KP opVolResize (zeros 24 ++ [7, 0, 0, 0, 0, 0, 0, 0, 101]) : Cmd) 32 8) ∧ (peerNumbers ({ State.reset with hdl.holder := true, plem.cmds := [KP opVolResize (zeros 24 ++ [7, 0, 0, 0, 0, 0, 0, 0, 101])], nv.domains := [{ num := 0 }], nv.volumes := [{ num := 7, size := 100 }] } : State) [({ num := 7, size := 100 } : Volume).num] = false) ∧
    (({ State.reset with hdl.holder := true, plem.cmds := [KP opVolResize (zeros 24 ++ [7, 0, 0, 0, 0, 0, 0, 0, 99])], nv.domains := [{ num := 0 }], nv.volumes := [{ num := 7, size := 100 }] } : State).boot.fastStopped = false) ∧ (opCmd ({ State.reset with hdl.holder := true, plem.cmds := [KP opVolResize (zeros 24 ++ [7, 0, 0, 0, 0, 0, 0, 0, 99])], nv.domains := [{ num := 0 }], nv.volumes := [{ num := 7, size := 100 }] } : State) (3 : Nat) (1 : Nat) opVolResize = some (KP opVolResize (zeros 24 ++ [7, 0, 0, 0, 0, 0, 0, 0, 99]) : Cmd)) ∧ (({ State.reset with hdl.holder := true, plem.cmds := [KP opVolResize (zeros 24 ++ [7, 0, 0, 0, 0, 0, 0, 0, 99])], nv.domains := [{ num := 0 }], nv.volumes := [{ num := 7, size := 100 }] } : State).hdl.holder = true) ∧ (({ State.reset with hdl.holder := true, plem.cmds := [KP opVolResize (zeros 24 ++ [7, 0, 0, 0, 0, 0, 0, 0, 99])], nv.domains := [{ num := 0 }], nv.volumes := [{ num := 7, size := 100 }] } : State).brd.port = []) ∧ (({ State.reset with hdl.holder := true, plem.cmds := [KP opVolResize (zeros 24 ++ [7, 0, 0, 0, 0, 0, 0, 0, 99])], nv.domains := [{ num := 0 }], nv.volumes := [{ num := 7, size := 100 }] } : State).col.ends = []) ∧ (policyRefuses ({ State.reset with hdl.holder := true, plem.cmds := [KP opVolResize (zeros 24 ++ [7, 0, 0, 0, 0, 0, 0, 0, 99])], nv.domains := [{ num := 0 }], nv.volumes := [{ num := 7, size := 100 }] } : State) = false) ∧ (volumeOf ({ State.reset with hdl.holder := true, plem.cmds := [KP opVolResize (zeros 24 ++ [7, 0, 0, 0, 0, 0, 0, 0, 99])], nv.domains := [{ num := 0 }], nv.volumes := [{ num := 7, size := 100 }] } : State) (pk (KP opVolResize (zeros 24 ++ [7, 0, 0, 0, 0, 0, 0, 0, 99]) : Cmd) 24 2) = some ({ num := 7, size := 100 } : Volume)) ∧ (keylessVolume ({ State.reset with hdl.holder := true, plem.cmds := [KP opVolResize (zeros 24 ++ [7, 0, 0, 0, 0, 0, 0, 0, 99])], nv.domains := [{ num := 0 }], nv.volumes := [{ num := 7, size := 100 }] } : State) ({ num := 7, size := 100 } : Volume) = false) ∧ (({ num := 7, size := 100 } : Volume).size ≤ maxBlocks ({ num := 7, size := 100 } : Volume).format) ∧ (pk (KP opVolResize (zeros 24 ++ [7, 0, 0, 0, 0, 0, 0, 0, 99]) : Cmd) 32 8 < ({ num := 7, size := 100 } : Volume).size) ∧ (peerNumbers ({ State.reset with hdl.holder := true, plem.cmds := [KP opVolResize (zeros 24 ++ [7, 0, 0, 0, 0, 0, 0, 0, 99])], nv.domains := [{ num := 0 }], nv.volumes := [{ num := 7, size := 100 }] } : State) ([({ num := 7, size := 100 } : Volume).num]) = false) ∧ (locksOf ({ State.reset with hdl.holder := true, plem.cmds := [KP opVolResize (zeros 24 ++ [7, 0, 0, 0, 0, 0, 0, 0, 99])], nv.domains := [{ num := 0 }], nv.volumes := [{ num := 7, size := 100 }] } : State) (.plem (KP opVolResize (zeros 24 ++ [7, 0, 0, 0, 0, 0, 0, 0, 99]) : Cmd).ring (KP opVolResize (zeros 24 ++ [7, 0, 0, 0, 0, 0, 0, 0, 99]) : Cmd).seq) = []) ∧ (plemLocks ({ State.reset with hdl.holder := true, plem.cmds := [KP opVolResize (zeros 24 ++ [7, 0, 0, 0, 0, 0, 0, 0, 99])], nv.domains := [{ num := 0 }], nv.volumes := [{ num := 7, size := 100 }] } : State) + ([(({ num := 7, size := 100 } : Volume).num, pk (KP opVolResize (zeros 24 ++ [7, 0, 0, 0, 0, 0, 0, 0, 99]) : Cmd) 32 8, ({ num := 7, size := 100 } : Volume).size - 1, true)]).length ≤ 256) ∧ (({ State.reset with hdl.holder := true, plem.cmds := [KP opVolResize (zeros 24 ++ [7, 0, 0, 0, 0, 0, 0, 0, 99])], nv.domains := [{ num := 0 }], nv.volumes := [{ num := 7, size := 100 }] } : State).rlk.locks.length + ([(({ num := 7, size := 100 } : Volume).num, pk (KP opVolResize (zeros 24 ++ [7, 0, 0, 0, 0, 0, 0, 0, 99]) : Cmd) 32 8, ({ num := 7, size := 100 } : Volume).size - 1, true)]).length ≤ 65536) ∧
    (({ State.reset with hdl.holder := true, plem.cmds := [KP opVolSetAccess (zeros 24 ++ [7, 0, 1, 1])], nv.domains := [{ num := 0 }], nv.volumes := [{ num := 7, size := 100 }] } : State).boot.fastStopped = false) ∧ (opCmd ({ State.reset with hdl.holder := true, plem.cmds := [KP opVolSetAccess (zeros 24 ++ [7, 0, 1, 1])], nv.domains := [{ num := 0 }], nv.volumes := [{ num := 7, size := 100 }] } : State) (3 : Nat) (1 : Nat) opVolSetAccess = some (KP opVolSetAccess (zeros 24 ++ [7, 0, 1, 1]) : Cmd)) ∧ (({ State.reset with hdl.holder := true, plem.cmds := [KP opVolSetAccess (zeros 24 ++ [7, 0, 1, 1])], nv.domains := [{ num := 0 }], nv.volumes := [{ num := 7, size := 100 }] } : State).hdl.holder = true) ∧ (({ State.reset with hdl.holder := true, plem.cmds := [KP opVolSetAccess (zeros 24 ++ [7, 0, 1, 1])], nv.domains := [{ num := 0 }], nv.volumes := [{ num := 7, size := 100 }] } : State).brd.port = []) ∧ (({ State.reset with hdl.holder := true, plem.cmds := [KP opVolSetAccess (zeros 24 ++ [7, 0, 1, 1])], nv.domains := [{ num := 0 }], nv.volumes := [{ num := 7, size := 100 }] } : State).col.ends = []) ∧ (policyRefuses ({ State.reset with hdl.holder := true, plem.cmds := [KP opVolSetAccess (zeros 24 ++ [7, 0, 1, 1])], nv.domains := [{ num := 0 }], nv.volumes := [{ num := 7, size := 100 }] } : State) = false) ∧ (volumeOf ({ State.reset with hdl.holder := true, plem.cmds := [KP opVolSetAccess (zeros 24 ++ [7, 0, 1, 1])], nv.domains := [{ num := 0 }], nv.volumes := [{ num := 7, size := 100 }] } : State) (pk (KP opVolSetAccess (zeros 24 ++ [7, 0, 1, 1]) : Cmd) 24 2) = some ({ num := 7, size := 100 } : Volume)) ∧ (({ num := 7, size := 100 } : Volume).moving = false) ∧ (keylessVolume ({ State.reset with hdl.holder := true, plem.cmds := [KP opVolSetAccess (zeros 24 ++ [7, 0, 1, 1])], nv.domains := [{ num := 0 }], nv.volumes := [{ num := 7, size := 100 }] } : State) ({ num := 7, size := 100 } : Volume) = false) ∧ (pk (KP opVolSetAccess (zeros 24 ++ [7, 0, 1, 1]) : Cmd) 26 1 = 1) ∧ (peerNumbers ({ State.reset with hdl.holder := true, plem.cmds := [KP opVolSetAccess (zeros 24 ++ [7, 0, 1, 1])], nv.domains := [{ num := 0 }], nv.volumes := [{ num := 7, size := 100 }] } : State) [({ num := 7, size := 100 } : Volume).num] = false) ∧
    (({ State.reset with hdl.holder := true, plem.cmds := [KP opVolSetAccess (zeros 24 ++ [7, 0, 1, 1])], nv.domains := [{ num := 0 }], nv.volumes := [{ num := 7, size := 100, ownerB := true }] } : State).boot.fastStopped = false) ∧ (opCmd ({ State.reset with hdl.holder := true, plem.cmds := [KP opVolSetAccess (zeros 24 ++ [7, 0, 1, 1])], nv.domains := [{ num := 0 }], nv.volumes := [{ num := 7, size := 100, ownerB := true }] } : State) (3 : Nat) (1 : Nat) opVolSetAccess = some (KP opVolSetAccess (zeros 24 ++ [7, 0, 1, 1]) : Cmd)) ∧ (({ State.reset with hdl.holder := true, plem.cmds := [KP opVolSetAccess (zeros 24 ++ [7, 0, 1, 1])], nv.domains := [{ num := 0 }], nv.volumes := [{ num := 7, size := 100, ownerB := true }] } : State).hdl.holder = true) ∧ (({ State.reset with hdl.holder := true, plem.cmds := [KP opVolSetAccess (zeros 24 ++ [7, 0, 1, 1])], nv.domains := [{ num := 0 }], nv.volumes := [{ num := 7, size := 100, ownerB := true }] } : State).brd.port = []) ∧ (({ State.reset with hdl.holder := true, plem.cmds := [KP opVolSetAccess (zeros 24 ++ [7, 0, 1, 1])], nv.domains := [{ num := 0 }], nv.volumes := [{ num := 7, size := 100, ownerB := true }] } : State).col.ends = []) ∧ (policyRefuses ({ State.reset with hdl.holder := true, plem.cmds := [KP opVolSetAccess (zeros 24 ++ [7, 0, 1, 1])], nv.domains := [{ num := 0 }], nv.volumes := [{ num := 7, size := 100, ownerB := true }] } : State) = false) ∧ (volumeOf ({ State.reset with hdl.holder := true, plem.cmds := [KP opVolSetAccess (zeros 24 ++ [7, 0, 1, 1])], nv.domains := [{ num := 0 }], nv.volumes := [{ num := 7, size := 100, ownerB := true }] } : State) (pk (KP opVolSetAccess (zeros 24 ++ [7, 0, 1, 1]) : Cmd) 24 2) = some ({ num := 7, size := 100, ownerB := true } : Volume)) ∧ (({ num := 7, size := 100, ownerB := true } : Volume).moving = false) ∧ (keylessVolume ({ State.reset with hdl.holder := true, plem.cmds := [KP opVolSetAccess (zeros 24 ++ [7, 0, 1, 1])], nv.domains := [{ num := 0 }], nv.volumes := [{ num := 7, size := 100, ownerB := true }] } : State) ({ num := 7, size := 100, ownerB := true } : Volume) = false) ∧ (pk (KP opVolSetAccess (zeros 24 ++ [7, 0, 1, 1]) : Cmd) 26 1 = 1) ∧ (peerNumbers ({ State.reset with hdl.holder := true, plem.cmds := [KP opVolSetAccess (zeros 24 ++ [7, 0, 1, 1])], nv.domains := [{ num := 0 }], nv.volumes := [{ num := 7, size := 100, ownerB := true }] } : State) [({ num := 7, size := 100, ownerB := true } : Volume).num] = true) ∧
    (({ State.reset with hdl.holder := true, plem.cmds := [KP opDomainCreate (zeros 24 ++ [1, 0, 4])], nv.domains := [{ num := 0 }], nv.volumes := [{ num := 7, size := 100 }], cip.slots := [{ num := 4, usage := 2 }] } : State).boot.fastStopped = false) ∧ (opCmd ({ State.reset with hdl.holder := true, plem.cmds := [KP opDomainCreate (zeros 24 ++ [1, 0, 4])], nv.domains := [{ num := 0 }], nv.volumes := [{ num := 7, size := 100 }], cip.slots := [{ num := 4, usage := 2 }] } : State) (3 : Nat) (1 : Nat) opDomainCreate = some (KP opDomainCreate (zeros 24 ++ [1, 0, 4]) : Cmd)) ∧ (({ State.reset with hdl.holder := true, plem.cmds := [KP opDomainCreate (zeros 24 ++ [1, 0, 4])], nv.domains := [{ num := 0 }], nv.volumes := [{ num := 7, size := 100 }], cip.slots := [{ num := 4, usage := 2 }] } : State).hdl.holder = true) ∧ (({ State.reset with hdl.holder := true, plem.cmds := [KP opDomainCreate (zeros 24 ++ [1, 0, 4])], nv.domains := [{ num := 0 }], nv.volumes := [{ num := 7, size := 100 }], cip.slots := [{ num := 4, usage := 2 }] } : State).brd.port = []) ∧ (({ State.reset with hdl.holder := true, plem.cmds := [KP opDomainCreate (zeros 24 ++ [1, 0, 4])], nv.domains := [{ num := 0 }], nv.volumes := [{ num := 7, size := 100 }], cip.slots := [{ num := 4, usage := 2 }] } : State).col.ends = []) ∧ (policyRefuses ({ State.reset with hdl.holder := true, plem.cmds := [KP opDomainCreate (zeros 24 ++ [1, 0, 4])], nv.domains := [{ num := 0 }], nv.volumes := [{ num := 7, size := 100 }], cip.slots := [{ num := 4, usage := 2 }] } : State) = false) ∧ (domainOf ({ State.reset with hdl.holder := true, plem.cmds := [KP opDomainCreate (zeros 24 ++ [1, 0, 4])], nv.domains := [{ num := 0 }], nv.volumes := [{ num := 7, size := 100 }], cip.slots := [{ num := 4, usage := 2 }] } : State) (pk (KP opDomainCreate (zeros 24 ++ [1, 0, 4]) : Cmd) 24 2) = none) ∧ (pk (KP opDomainCreate (zeros 24 ++ [1, 0, 4]) : Cmd) 29 1 = 0) ∧ (slotFits ({ State.reset with hdl.holder := true, plem.cmds := [KP opDomainCreate (zeros 24 ++ [1, 0, 4])], nv.domains := [{ num := 0 }], nv.volumes := [{ num := 7, size := 100 }], cip.slots := [{ num := 4, usage := 2 }] } : State) (pk (KP opDomainCreate (zeros 24 ++ [1, 0, 4]) : Cmd) 26 2) (pk (KP opDomainCreate (zeros 24 ++ [1, 0, 4]) : Cmd) 24 2) = true) := by
  decide

set_option maxRecDepth 100000 in
/-- The hypotheses of VolumeCommandDecisions are met. -/
theorem test_met_VolumeCommandDecisions_2 :
    (({ State.reset with hdl.holder := true, plem.cmds := [KP opDomainCreate (zeros 24 ++ [1, 0, 4])], nv.domains := [{ num := 0 }], nv.volumes := [{ num := 7, size := 100 }] } : State).boot.fastStopped = false) ∧ (opCmd ({ State.reset with hdl.holder := true, plem.cmds := [KP opDomainCreate (zeros 24 ++ [1, 0, 4])], nv.domains := [{ num := 0 }], nv.volumes := [{ num := 7, size := 100 }] } : State) (3 : Nat) (1 : Nat) opDomainCreate = some (KP opDomainCreate (zeros 24 ++ [1, 0, 4]) : Cmd)) ∧ (({ State.reset with hdl.holder := true, plem.cmds := [KP opDomainCreate (zeros 24 ++ [1, 0, 4])], nv.domains := [{ num := 0 }], nv.volumes := [{ num := 7, size := 100 }] } : State).hdl.holder = true) ∧ (({ State.reset with hdl.holder := true, plem.cmds := [KP opDomainCreate (zeros 24 ++ [1, 0, 4])], nv.domains := [{ num := 0 }], nv.volumes := [{ num := 7, size := 100 }] } : State).brd.port = []) ∧ (({ State.reset with hdl.holder := true, plem.cmds := [KP opDomainCreate (zeros 24 ++ [1, 0, 4])], nv.domains := [{ num := 0 }], nv.volumes := [{ num := 7, size := 100 }] } : State).col.ends = []) ∧ (domainOf ({ State.reset with hdl.holder := true, plem.cmds := [KP opDomainCreate (zeros 24 ++ [1, 0, 4])], nv.domains := [{ num := 0 }], nv.volumes := [{ num := 7, size := 100 }] } : State) (pk (KP opDomainCreate (zeros 24 ++ [1, 0, 4]) : Cmd) 24 2) = none) ∧ (pk (KP opDomainCreate (zeros 24 ++ [1, 0, 4]) : Cmd) 29 1 = 0) ∧ (slotFits ({ State.reset with hdl.holder := true, plem.cmds := [KP opDomainCreate (zeros 24 ++ [1, 0, 4])], nv.domains := [{ num := 0 }], nv.volumes := [{ num := 7, size := 100 }] } : State) (pk (KP opDomainCreate (zeros 24 ++ [1, 0, 4]) : Cmd) 26 2) (pk (KP opDomainCreate (zeros 24 ++ [1, 0, 4]) : Cmd) 24 2) = false) ∧
    ((S1 opVolCreate : State).boot.fastStopped = false) ∧ (opCmd (S1 opVolCreate : State) (3 : Nat) (1 : Nat) opVolCreate = some (K opVolCreate : Cmd)) ∧ ((S1 opVolCreate : State).hdl.holder = false) ∧ (isCarried (S1 opVolCreate : State) (K opVolCreate : Cmd) = false) ∧ ((S1 opVolCreate : State).hdl.paired = false) ∧ ((S1 opVolCreate : State).brd.port = []) ∧
    (({ S1 opVolCreate with hdl.paired := true } : State).boot.fastStopped = false) ∧ (opCmd ({ S1 opVolCreate with hdl.paired := true } : State) (3 : Nat) (1 : Nat) opVolCreate = some (K opVolCreate : Cmd)) ∧ (({ S1 opVolCreate with hdl.paired := true } : State).hdl.holder = false) ∧ (isCarried ({ S1 opVolCreate with hdl.paired := true } : State) (K opVolCreate : Cmd) = false) ∧ (({ S1 opVolCreate with hdl.paired := true } : State).hdl.paired = true) ∧ (({ S1 opVolCreate with hdl.paired := true } : State).hdl.bridge = false) ∧ ((K opVolCreate : Cmd).peerTag = none) ∧ ((peerTagFree ({ S1 opVolCreate with hdl.paired := true } : State)).isSome = true) ∧
    (({ State.reset with hdl.holder := true, plem.cmds := [{ KP opSnapCreate (zeros 24 ++ [1]) with block := [7, 0] }], nv.domains := [{ num := 0 }], nv.volumes := [{ num := 7, size := 100 }] } : State).boot.fastStopped = false) ∧ (opCmd ({ State.reset with hdl.holder := true, plem.cmds := [{ KP opSnapCreate (zeros 24 ++ [1]) with block := [7, 0] }], nv.domains := [{ num := 0 }], nv.volumes := [{ num := 7, size := 100 }] } : State) (3 : Nat) (1 : Nat) opSnapCreate = some ({ KP opSnapCreate (zeros 24 ++ [1]) with block := [7, 0] } : Cmd)) ∧ (({ State.reset with hdl.holder := true, plem.cmds := [{ KP opSnapCreate (zeros 24 ++ [1]) with block := [7, 0] }], nv.domains := [{ num := 0 }], nv.volumes := [{ num := 7, size := 100 }] } : State).hdl.holder = true) ∧ (({ State.reset with hdl.holder := true, plem.cmds := [{ KP opSnapCreate (zeros 24 ++ [1]) with block := [7, 0] }], nv.domains := [{ num := 0 }], nv.volumes := [{ num := 7, size := 100 }] } : State).brd.port = []) ∧ (({ State.reset with hdl.holder := true, plem.cmds := [{ KP opSnapCreate (zeros 24 ++ [1]) with block := [7, 0] }], nv.domains := [{ num := 0 }], nv.volumes := [{ num := 7, size := 100 }] } : State).col.ends = []) ∧ (policyRefuses ({ State.reset with hdl.holder := true, plem.cmds := [{ KP opSnapCreate (zeros 24 ++ [1]) with block := [7, 0] }], nv.domains := [{ num := 0 }], nv.volumes := [{ num := 7, size := 100 }] } : State) = false) ∧ (snapEntryFail ({ State.reset with hdl.holder := true, plem.cmds := [{ KP opSnapCreate (zeros 24 ++ [1]) with block := [7, 0] }], nv.domains := [{ num := 0 }], nv.volumes := [{ num := 7, size := 100 }] } : State) [] (snapVols ({ KP opSnapCreate (zeros 24 ++ [1]) with block := [7, 0] } : Cmd)) 0 = none) ∧ (snapVols ({ KP opSnapCreate (zeros 24 ++ [1]) with block := [7, 0] } : Cmd) ≠ []) ∧ (({ State.reset with hdl.holder := true, plem.cmds := [{ KP opSnapCreate (zeros 24 ++ [1]) with block := [7, 0] }], nv.domains := [{ num := 0 }], nv.volumes := [{ num := 7, size := 100 }] } : State).nv.snaps.length + (snapVols ({ KP opSnapCreate (zeros 24 ++ [1]) with block := [7, 0] } : Cmd)).length ≤ 1048576) ∧ (({ State.reset with hdl.holder := true, plem.cmds := [{ KP opSnapCreate (zeros 24 ++ [1]) with block := [7, 0] }], nv.domains := [{ num := 0 }], nv.volumes := [{ num := 7, size := 100 }] } : State).nv.nextSnap + (snapVols ({ KP opSnapCreate (zeros 24 ++ [1]) with block := [7, 0] } : Cmd)).length < 2 ^ 32) ∧ (peerNumbers ({ State.reset with hdl.holder := true, plem.cmds := [{ KP opSnapCreate (zeros 24 ++ [1]) with block := [7, 0] }], nv.domains := [{ num := 0 }], nv.volumes := [{ num := 7, size := 100 }] } : State) (snapVols ({ KP opSnapCreate (zeros 24 ++ [1]) with block := [7, 0] } : Cmd)) = false) ∧ (locksOf ({ State.reset with hdl.holder := true, plem.cmds := [{ KP opSnapCreate (zeros 24 ++ [1]) with block := [7, 0] }], nv.domains := [{ num := 0 }], nv.volumes := [{ num := 7, size := 100 }] } : State) (.plem ({ KP opSnapCreate (zeros 24 ++ [1]) with block := [7, 0] } : Cmd).ring ({ KP opSnapCreate (zeros 24 ++ [1]) with block := [7, 0] } : Cmd).seq) = []) ∧ (plemLocks ({ State.reset with hdl.holder := true, plem.cmds := [{ KP opSnapCreate (zeros 24 ++ [1]) with block := [7, 0] }], nv.domains := [{ num := 0 }], nv.volumes := [{ num := 7, size := 100 }] } : State) + ((snapVols ({ KP opSnapCreate (zeros 24 ++ [1]) with block := [7, 0] } : Cmd)).map fun v => (v, 0, lastBlock, false)).length ≤ 256) ∧ (({ State.reset with hdl.holder := true, plem.cmds := [{ KP opSnapCreate (zeros 24 ++ [1]) with block := [7, 0] }], nv.domains := [{ num := 0 }], nv.volumes := [{ num := 7, size := 100 }] } : State).rlk.locks.length + ((snapVols ({ KP opSnapCreate (zeros 24 ++ [1]) with block := [7, 0] } : Cmd)).map fun v => (v, 0, lastBlock, false)).length ≤ 65536) ∧
    (({ State.reset with hdl.holder := true, plem.cmds := [{ KP opSnapCreate (zeros 24 ++ [1]) with block := [8, 0] }], nv.domains := [{ num := 0 }], nv.volumes := [{ num := 7, size := 100 }] } : State).boot.fastStopped = false) ∧ (opCmd ({ State.reset with hdl.holder := true, plem.cmds := [{ KP opSnapCreate (zeros 24 ++ [1]) with block := [8, 0] }], nv.domains := [{ num := 0 }], nv.volumes := [{ num := 7, size := 100 }] } : State) (3 : Nat) (1 : Nat) opSnapCreate = some ({ KP opSnapCreate (zeros 24 ++ [1]) with block := [8, 0] } : Cmd)) ∧ (({ State.reset with hdl.holder := true, plem.cmds := [{ KP opSnapCreate (zeros 24 ++ [1]) with block := [8, 0] }], nv.domains := [{ num := 0 }], nv.volumes := [{ num := 7, size := 100 }] } : State).hdl.holder = true) ∧ (({ State.reset with hdl.holder := true, plem.cmds := [{ KP opSnapCreate (zeros 24 ++ [1]) with block := [8, 0] }], nv.domains := [{ num := 0 }], nv.volumes := [{ num := 7, size := 100 }] } : State).brd.port = []) ∧ (({ State.reset with hdl.holder := true, plem.cmds := [{ KP opSnapCreate (zeros 24 ++ [1]) with block := [8, 0] }], nv.domains := [{ num := 0 }], nv.volumes := [{ num := 7, size := 100 }] } : State).col.ends = []) ∧ (snapVols ({ KP opSnapCreate (zeros 24 ++ [1]) with block := [8, 0] } : Cmd) = (8 : Nat) :: ([] : List Nat)) ∧ (volumeOf ({ State.reset with hdl.holder := true, plem.cmds := [{ KP opSnapCreate (zeros 24 ++ [1]) with block := [8, 0] }], nv.domains := [{ num := 0 }], nv.volumes := [{ num := 7, size := 100 }] } : State) (8 : Nat) = none) := by
  decide

set_option maxRecDepth 100000 in
/-- The hypotheses of VolumeCommandDecisions are met. -/
theorem test_met_VolumeCommandDecisions_3 :
    (({ State.reset with hdl.holder := true, plem.cmds := [KP opSnapDelete (zeros 24 ++ [5])], nv.domains := [{ num := 0 }], nv.volumes := [{ num := 7, size := 100 }], nv.snaps := [{ id := 5, vol := 7 }] } : State).boot.fastStopped = false) ∧ (opCmd ({ State.reset with hdl.holder := true, plem.cmds := [KP opSnapDelete (zeros 24 ++ [5])], nv.domains := [{ num := 0 }], nv.volumes := [{ num := 7, size := 100 }], nv.snaps := [{ id := 5, vol := 7 }] } : State) (3 : Nat) (1 : Nat) opSnapDelete = some (KP opSnapDelete (zeros 24 ++ [5]) : Cmd)) ∧ (({ State.reset with hdl.holder := true, plem.cmds := [KP opSnapDelete (zeros 24 ++ [5])], nv.domains := [{ num := 0 }], nv.volumes := [{ num := 7, size := 100 }], nv.snaps := [{ id := 5, vol := 7 }] } : State).hdl.holder = true) ∧ (({ State.reset with hdl.holder := true, plem.cmds := [KP opSnapDelete (zeros 24 ++ [5])], nv.domains := [{ num := 0 }], nv.volumes := [{ num := 7, size := 100 }], nv.snaps := [{ id := 5, vol := 7 }] } : State).brd.port = []) ∧ (({ State.reset with hdl.holder := true, plem.cmds := [KP opSnapDelete (zeros 24 ++ [5])], nv.domains := [{ num := 0 }], nv.volumes := [{ num := 7, size := 100 }], nv.snaps := [{ id := 5, vol := 7 }] } : State).col.ends = []) ∧ (policyRefuses ({ State.reset with hdl.holder := true, plem.cmds := [KP opSnapDelete (zeros 24 ++ [5])], nv.domains := [{ num := 0 }], nv.volumes := [{ num := 7, size := 100 }], nv.snaps := [{ id := 5, vol := 7 }] } : State) = false) ∧ (snapOf ({ State.reset with hdl.holder := true, plem.cmds := [KP opSnapDelete (zeros 24 ++ [5])], nv.domains := [{ num := 0 }], nv.volumes := [{ num := 7, size := 100 }], nv.snaps := [{ id := 5, vol := 7 }] } : State) (pk (KP opSnapDelete (zeros 24 ++ [5]) : Cmd) 24 4) = some ({ id := 5, vol := 7 } : Snapshot)) ∧ (({ id := 5, vol := 7 } : Snapshot).replication = false) ∧
    (({ State.reset with hdl.holder := true, plem.cmds := [KP opSnapDelete (zeros 24 ++ [5])], nv.domains := [{ num := 0 }], nv.volumes := [{ num := 7, size := 100 }] } : State).boot.fastStopped = false) ∧ (opCmd ({ State.reset with hdl.holder := true, plem.cmds := [KP opSnapDelete (zeros 24 ++ [5])], nv.domains := [{ num := 0 }], nv.volumes := [{ num := 7, size := 100 }] } : State) (3 : Nat) (1 : Nat) opSnapDelete = some (KP opSnapDelete (zeros 24 ++ [5]) : Cmd)) ∧ (({ State.reset with hdl.holder := true, plem.cmds := [KP opSnapDelete (zeros 24 ++ [5])], nv.domains := [{ num := 0 }], nv.volumes := [{ num := 7, size := 100 }] } : State).hdl.holder = true) ∧ (({ State.reset with hdl.holder := true, plem.cmds := [KP opSnapDelete (zeros 24 ++ [5])], nv.domains := [{ num := 0 }], nv.volumes := [{ num := 7, size := 100 }] } : State).brd.port = []) ∧ (({ State.reset with hdl.holder := true, plem.cmds := [KP opSnapDelete (zeros 24 ++ [5])], nv.domains := [{ num := 0 }], nv.volumes := [{ num := 7, size := 100 }] } : State).col.ends = []) ∧ (snapOf ({ State.reset with hdl.holder := true, plem.cmds := [KP opSnapDelete (zeros 24 ++ [5])], nv.domains := [{ num := 0 }], nv.volumes := [{ num := 7, size := 100 }] } : State) (pk (KP opSnapDelete (zeros 24 ++ [5]) : Cmd) 24 4) = none) ∧
    (({ State.reset with hdl.holder := true, plem.cmds := [KP opVolClone (zeros 24 ++ [9, 0, 1, 0, 5])], nv.domains := [{ num := 0 }], nv.volumes := [{ num := 7, size := 100 }], nv.snaps := [{ id := 5, vol := 7 }] } : State).boot.fastStopped = false) ∧ (opCmd ({ State.reset with hdl.holder := true, plem.cmds := [KP opVolClone (zeros 24 ++ [9, 0, 1, 0, 5])], nv.domains := [{ num := 0 }], nv.volumes := [{ num := 7, size := 100 }], nv.snaps := [{ id := 5, vol := 7 }] } : State) (3 : Nat) (1 : Nat) opVolClone = some (KP opVolClone (zeros 24 ++ [9, 0, 1, 0, 5]) : Cmd)) ∧ (({ State.reset with hdl.holder := true, plem.cmds := [KP opVolClone (zeros 24 ++ [9, 0, 1, 0, 5])], nv.domains := [{ num := 0 }], nv.volumes := [{ num := 7, size := 100 }], nv.snaps := [{ id := 5, vol := 7 }] } : State).hdl.holder = true) ∧ (({ State.reset with hdl.holder := true, plem.cmds := [KP opVolClone (zeros 24 ++ [9, 0, 1, 0, 5])], nv.domains := [{ num := 0 }], nv.volumes := [{ num := 7, size := 100 }], nv.snaps := [{ id := 5, vol := 7 }] } : State).brd.port = []) ∧ (({ State.reset with hdl.holder := true, plem.cmds := [KP opVolClone (zeros 24 ++ [9, 0, 1, 0, 5])], nv.domains := [{ num := 0 }], nv.volumes := [{ num := 7, size := 100 }], nv.snaps := [{ id := 5, vol := 7 }] } : State).col.ends = []) ∧ (policyRefuses ({ State.reset with hdl.holder := true, plem.cmds := [KP opVolClone (zeros 24 ++ [9, 0, 1, 0, 5])], nv.domains := [{ num := 0 }], nv.volumes := [{ num := 7, size := 100 }], nv.snaps := [{ id := 5, vol := 7 }] } : State) = false) ∧ (volumeOf ({ State.reset with hdl.holder := true, plem.cmds := [KP opVolClone (zeros 24 ++ [9, 0, 1, 0, 5])], nv.domains := [{ num := 0 }], nv.volumes := [{ num := 7, size := 100 }], nv.snaps := [{ id := 5, vol := 7 }] } : State) (pk (KP opVolClone (zeros 24 ++ [9, 0, 1, 0, 5]) : Cmd) 24 2) = none) ∧ (pk (KP opVolClone (zeros 24 ++ [9, 0, 1, 0, 5]) : Cmd) 26 1 = 1) ∧ (cloneVol ({ State.reset with hdl.holder := true, plem.cmds := [KP opVolClone (zeros 24 ++ [9, 0, 1, 0, 5])], nv.domains := [{ num := 0 }], nv.volumes := [{ num := 7, size := 100 }], nv.snaps := [{ id := 5, vol := 7 }] } : State) (KP opVolClone (zeros 24 ++ [9, 0, 1, 0, 5]) : Cmd) = some ({ num := 7, size := 100 } : Volume)) ∧ (keylessVolume ({ State.reset with hdl.holder := true, plem.cmds := [KP opVolClone (zeros 24 ++ [9, 0, 1, 0, 5])], nv.domains := [{ num := 0 }], nv.volumes := [{ num := 7, size := 100 }], nv.snaps := [{ id := 5, vol := 7 }] } : State) ({ num := 7, size := 100 } : Volume) = false) ∧ (({ State.reset with hdl.holder := true, plem.cmds := [KP opVolClone (zeros 24 ++ [9, 0, 1, 0, 5])], nv.domains := [{ num := 0 }], nv.volumes := [{ num := 7, size := 100 }], nv.snaps := [{ id := 5, vol := 7 }] } : State).nv.volumes.length < 65536) ∧
    (({ State.reset with hdl.holder := true, plem.cmds := [KP opVolClone (zeros 24 ++ [9, 0, 0, 0, 7])], nv.domains := [{ num := 0 }], nv.volumes := [{ num := 7, size := 100 }] } : State).boot.fastStopped = false) ∧ (opCmd ({ State.reset with hdl.holder := true, plem.cmds := [KP opVolClone (zeros 24 ++ [9, 0, 0, 0, 7])], nv.domains := [{ num := 0 }], nv.volumes := [{ num := 7, size := 100 }] } : State) (3 : Nat) (1 : Nat) opVolClone = some (KP opVolClone (zeros 24 ++ [9, 0, 0, 0, 7]) : Cmd)) ∧ (({ State.reset with hdl.holder := true, plem.cmds := [KP opVolClone (zeros 24 ++ [9, 0, 0, 0, 7])], nv.domains := [{ num := 0 }], nv.volumes := [{ num := 7, size := 100 }] } : State).hdl.holder = true) ∧ (({ State.reset with hdl.holder := true, plem.cmds := [KP opVolClone (zeros 24 ++ [9, 0, 0, 0, 7])], nv.domains := [{ num := 0 }], nv.volumes := [{ num := 7, size := 100 }] } : State).brd.port = []) ∧ (({ State.reset with hdl.holder := true, plem.cmds := [KP opVolClone (zeros 24 ++ [9, 0, 0, 0, 7])], nv.domains := [{ num := 0 }], nv.volumes := [{ num := 7, size := 100 }] } : State).col.ends = []) ∧ (policyRefuses ({ State.reset with hdl.holder := true, plem.cmds := [KP opVolClone (zeros 24 ++ [9, 0, 0, 0, 7])], nv.domains := [{ num := 0 }], nv.volumes := [{ num := 7, size := 100 }] } : State) = false) ∧ (volumeOf ({ State.reset with hdl.holder := true, plem.cmds := [KP opVolClone (zeros 24 ++ [9, 0, 0, 0, 7])], nv.domains := [{ num := 0 }], nv.volumes := [{ num := 7, size := 100 }] } : State) (pk (KP opVolClone (zeros 24 ++ [9, 0, 0, 0, 7]) : Cmd) 24 2) = none) ∧ (pk (KP opVolClone (zeros 24 ++ [9, 0, 0, 0, 7]) : Cmd) 26 1 = 0) ∧ (cloneVol ({ State.reset with hdl.holder := true, plem.cmds := [KP opVolClone (zeros 24 ++ [9, 0, 0, 0, 7])], nv.domains := [{ num := 0 }], nv.volumes := [{ num := 7, size := 100 }] } : State) (KP opVolClone (zeros 24 ++ [9, 0, 0, 0, 7]) : Cmd) = some ({ num := 7, size := 100 } : Volume)) ∧ (keylessVolume ({ State.reset with hdl.holder := true, plem.cmds := [KP opVolClone (zeros 24 ++ [9, 0, 0, 0, 7])], nv.domains := [{ num := 0 }], nv.volumes := [{ num := 7, size := 100 }] } : State) ({ num := 7, size := 100 } : Volume) = false) ∧ (({ State.reset with hdl.holder := true, plem.cmds := [KP opVolClone (zeros 24 ++ [9, 0, 0, 0, 7])], nv.domains := [{ num := 0 }], nv.volumes := [{ num := 7, size := 100 }] } : State).nv.volumes.length < 65536) ∧ (peerNumbers ({ State.reset with hdl.holder := true, plem.cmds := [KP opVolClone (zeros 24 ++ [9, 0, 0, 0, 7])], nv.domains := [{ num := 0 }], nv.volumes := [{ num := 7, size := 100 }] } : State) ([pk (KP opVolClone (zeros 24 ++ [9, 0, 0, 0, 7]) : Cmd) 28 4]) = false) ∧ (locksOf ({ State.reset with hdl.holder := true, plem.cmds := [KP opVolClone (zeros 24 ++ [9, 0, 0, 0, 7])], nv.domains := [{ num := 0 }], nv.volumes := [{ num := 7, size := 100 }] } : State) (.plem (KP opVolClone (zeros 24 ++ [9, 0, 0, 0, 7]) : Cmd).ring (KP opVolClone (zeros 24 ++ [9, 0, 0, 0, 7]) : Cmd).seq) = []) ∧ (plemLocks ({ State.reset with hdl.holder := true, plem.cmds := [KP opVolClone (zeros 24 ++ [9, 0, 0, 0, 7])], nv.domains := [{ num := 0 }], nv.volumes := [{ num := 7, size := 100 }] } : State) + ([(pk (KP opVolClone (zeros 24 ++ [9, 0, 0, 0, 7]) : Cmd) 28 4, 0, lastBlock, false)]).length ≤ 256) ∧ (({ State.reset with hdl.holder := true, plem.cmds := [KP opVolClone (zeros 24 ++ [9, 0, 0, 0, 7])], nv.domains := [{ num := 0 }], nv.volumes := [{ num := 7, size := 100 }] } : State).rlk.locks.length + ([(pk (KP opVolClone (zeros 24 ++ [9, 0, 0, 0, 7]) : Cmd) 28 4, 0, lastBlock, false)]).length ≤ 65536) ∧
    (({ State.reset with hdl.holder := true, plem.cmds := [KP opVolQuery (zeros 24 ++ [0, 0, 0, 0, 7])], nv.domains := [{ num := 0 }], nv.volumes := [{ num := 7, size := 100 }] } : State).boot.fastStopped = false) ∧ (opCmd ({ State.reset with hdl.holder := true, plem.cmds := [KP opVolQuery (zeros 24 ++ [0, 0, 0, 0, 7])], nv.domains := [{ num := 0 }], nv.volumes := [{ num := 7, size := 100 }] } : State) (3 : Nat) (1 : Nat) opVolQuery = some (KP opVolQuery (zeros 24 ++ [0, 0, 0, 0, 7]) : Cmd)) ∧ (({ State.reset with hdl.holder := true, plem.cmds := [KP opVolQuery (zeros 24 ++ [0, 0, 0, 0, 7])], nv.domains := [{ num := 0 }], nv.volumes := [{ num := 7, size := 100 }] } : State).hdl.holder = true) ∧ (pk (KP opVolQuery (zeros 24 ++ [0, 0, 0, 0, 7]) : Cmd) 24 1 = 0) ∧ (pk (KP opVolQuery (zeros 24 ++ [0, 0, 0, 0, 7]) : Cmd) 28 4 < 65536) ∧ (volumeOf ({ State.reset with hdl.holder := true, plem.cmds := [KP opVolQuery (zeros 24 ++ [0, 0, 0, 0, 7])], nv.domains := [{ num := 0 }], nv.volumes := [{ num := 7, size := 100 }] } : State) (pk (KP opVolQuery (zeros 24 ++ [0, 0, 0, 0, 7]) : Cmd) 28 4) = some ({ num := 7, size := 100 } : Volume)) := by
  decide

set_option maxRecDepth 100000 in
/-- The hypotheses of VolumeOperationEffects are met. -/
theorem test_met_VolumeOperationEffects :
    (volumeOf ({ State.reset with nv.volumes := [{ num := 7, size := 100 }] } : State) (7 : Nat) = some ({ num := 7, size := 100 } : Volume)) ∧ (({ num := 7, size := 100 } : Volume).size ≤ (100 : Nat)) ∧
    (volumeOf ({ State.reset with nv.volumes := [{ num := 7, size := 100 }] } : State) (7 : Nat) = some ({ num := 7, size := 100 } : Volume)) ∧
    (domainOf (slotServes (0 : Nat) (1 : Nat) true (State.reset : State)) (1 : Nat) = none) ∧
    (({ State.reset with brd.counterDone := true, boot.coilReady := true, brd.port := [.command (K opSnapDelete) { nums := [5] }] } : State).boot.fastStopped = false) ∧ (portRuns ({ State.reset with brd.counterDone := true, boot.coilReady := true, brd.port := [.command (K opSnapDelete) { nums := [5] }] } : State) = true) ∧ (({ State.reset with brd.counterDone := true, boot.coilReady := true, brd.port := [.command (K opSnapDelete) { nums := [5] }] } : State).saf.mgmtHalted = false) ∧ (({ State.reset with brd.counterDone := true, boot.coilReady := true, brd.port := [.command (K opSnapDelete) { nums := [5] }] } : State).brd.port = .command (K opSnapDelete : Cmd) ({ nums := [5] } : Decision) :: ([] : List Held)) ∧ (carriedHere (K opSnapDelete : Cmd) = false) ∧ (cmdTier { ({ State.reset with brd.counterDone := true, boot.coilReady := true, brd.port := [.command (K opSnapDelete) { nums := [5] }] } : State) with brd.port := ([] : List Held) } (K opSnapDelete : Cmd) = true) ∧ (isSuccess ({ nums := [5] } : Decision).status = true) ∧ (({ nums := [5] } : Decision).status ≠ stOkNochange) ∧ (({ nums := [5] } : Decision).started = false) ∧ (({ nums := [5] } : Decision).carried = false) ∧ (commitsInCoil (K opSnapDelete : Cmd).opcode = true) ∧ ((K opSnapDelete : Cmd).opcode ≠ opDomainCreate) ∧ (crossesNear { ({ State.reset with brd.counterDone := true, boot.coilReady := true, brd.port := [.command (K opSnapDelete) { nums := [5] }] } : State) with brd.port := ([] : List Held) } = false) ∧ (({ State.reset with brd.counterDone := true, boot.coilReady := true, brd.port := [.command (K opSnapDelete) { nums := [5] }] } : State).saf.failSilent = false) := by
  decide

set_option maxRecDepth 100000 in
/-- The hypotheses of ReplicationCommands are met. -/
theorem test_met_ReplicationCommands_0 :
    ((S1 opReplPair : State).boot.fastStopped = false) ∧ (opCmd (S1 opReplPair : State) (3 : Nat) (1 : Nat) opReplPair = some (K opReplPair : Cmd)) ∧ ((S1 opReplPair : State).brd.port = []) ∧
    (numAt ({ K opReplPair with block := zeros 20 ++ [0, 1] } : Cmd).block 20 1 = 0) ∧ (bit (numAt ({ K opReplPair with block := zeros 20 ++ [0, 1] } : Cmd).block 21 1) 0 = true) ∧ (numAt ({ K opReplPair with block := zeros 20 ++ [0, 1] } : Cmd).block 16 4 = 0) ∧
    (bit (numAt (K opReplPair : Cmd).block 21 1) 0 = false) ∧ ((State.reset : State).rma.pendingSa = []) ∧
    (8 < numAt ({ K opReplPair with block := zeros 20 ++ [9, 1] } : Cmd).block 20 1) ∧ (bit (numAt ({ K opReplPair with block := zeros 20 ++ [9, 1] } : Cmd).block 21 1) 0 = true) ∧ (numAt ({ K opReplPair with block := zeros 20 ++ [9, 1] } : Cmd).block 16 4 = 0) ∧
    (numAt ({ K opReplPair with block := RPB } : Cmd).block 20 1 = 1) ∧ (numAt ({ K opReplPair with block := RPB } : Cmd).block 21 1 = 1) ∧ (numAt ({ K opReplPair with block := RPB } : Cmd).block 16 4 = 0) ∧ (({ K opReplPair with block := RPB } : Cmd).block.length = 48) ∧ (allZero (bytesAt ({ K opReplPair with block := RPB } : Cmd).block 22 2) = true) ∧ (pathFail ({ State.reset with boot.fusesLoaded := true } : State) ({ K opReplPair with block := RPB } : Cmd).block false = none) ∧ (pinnedTaken ({ State.reset with boot.fusesLoaded := true } : State) < 4096) ∧ (freeConnNum ({ State.reset with boot.fusesLoaded := true } : State) = some (0 : Nat)) := by
  decide

set_option maxRecDepth 100000 in
/-- The hypotheses of ReplicationCommands are met. -/
theorem test_met_ReplicationCommands_1 :
    (({ SP opReplStart (zeros 24 ++ [7]) with nv.volumes := [{ num := 7, size := 100 }], rma.conns := [{ num := 0, cls := 2 }] } : State).boot.fastStopped = false) ∧ (opCmd ({ SP opReplStart (zeros 24 ++ [7]) with nv.volumes := [{ num := 7, size := 100 }], rma.conns := [{ num := 0, cls := 2 }] } : State) (3 : Nat) (1 : Nat) opReplStart = some (KP opReplStart (zeros 24 ++ [7]) : Cmd)) ∧ (({ SP opReplStart (zeros 24 ++ [7]) with nv.volumes := [{ num := 7, size := 100 }], rma.conns := [{ num := 0, cls := 2 }] } : State).brd.port = []) ∧ ((volumeOf ({ SP opReplStart (zeros 24 ++ [7]) with nv.volumes := [{ num := 7, size := 100 }], rma.conns := [{ num := 0, cls := 2 }] } : State) (pk (KP opReplStart (zeros 24 ++ [7]) : Cmd) 24 2)).isSome = true) ∧ (replOf ({ SP opReplStart (zeros 24 ++ [7]) with nv.volumes := [{ num := 7, size := 100 }], rma.conns := [{ num := 0, cls := 2 }] } : State) (pk (KP opReplStart (zeros 24 ++ [7]) : Cmd) 24 2) = none) ∧ (connOf ({ SP opReplStart (zeros 24 ++ [7]) with nv.volumes := [{ num := 7, size := 100 }], rma.conns := [{ num := 0, cls := 2 }] } : State) (pk (KP opReplStart (zeros 24 ++ [7]) : Cmd) 28 4) = some ({ num := 0, cls := 2 } : Conn)) ∧ (({ num := 0, cls := 2 } : Conn).cls = 2) ∧
    (({ SP opReplStart (zeros 24 ++ [7]) with nv.volumes := [{ num := 7, size := 100 }], rma.conns := [{ num := 0, cls := 2 }] } : State).boot.fastStopped = false) ∧ (opCmd ({ SP opReplStart (zeros 24 ++ [7]) with nv.volumes := [{ num := 7, size := 100 }], rma.conns := [{ num := 0, cls := 2 }] } : State) (3 : Nat) (1 : Nat) opReplStart = some (KP opReplStart (zeros 24 ++ [7]) : Cmd)) ∧ (({ SP opReplStart (zeros 24 ++ [7]) with nv.volumes := [{ num := 7, size := 100 }], rma.conns := [{ num := 0, cls := 2 }] } : State).brd.port = []) ∧ ((volumeOf ({ SP opReplStart (zeros 24 ++ [7]) with nv.volumes := [{ num := 7, size := 100 }], rma.conns := [{ num := 0, cls := 2 }] } : State) (pk (KP opReplStart (zeros 24 ++ [7]) : Cmd) 24 2)).isSome = true) ∧ (replOf ({ SP opReplStart (zeros 24 ++ [7]) with nv.volumes := [{ num := 7, size := 100 }], rma.conns := [{ num := 0, cls := 2 }] } : State) (pk (KP opReplStart (zeros 24 ++ [7]) : Cmd) 24 2) = none) ∧ (connOf ({ SP opReplStart (zeros 24 ++ [7]) with nv.volumes := [{ num := 7, size := 100 }], rma.conns := [{ num := 0, cls := 2 }] } : State) (pk (KP opReplStart (zeros 24 ++ [7]) : Cmd) 28 4) = some ({ num := 0, cls := 2 } : Conn)) ∧ (({ num := 0, cls := 2 } : Conn).cls = 2) ∧ ((1 : Nat) ≠ 0) ∧
    (({ SP opReplStop (zeros 24 ++ [7]) with rma.repls := [{ vol := 7 }] } : State).boot.fastStopped = false) ∧ (opCmd ({ SP opReplStop (zeros 24 ++ [7]) with rma.repls := [{ vol := 7 }] } : State) (3 : Nat) (1 : Nat) opReplStop = some (KP opReplStop (zeros 24 ++ [7]) : Cmd)) ∧ (({ SP opReplStop (zeros 24 ++ [7]) with rma.repls := [{ vol := 7 }] } : State).brd.port = []) ∧ ((replOf ({ SP opReplStop (zeros 24 ++ [7]) with rma.repls := [{ vol := 7 }] } : State) (pk (KP opReplStop (zeros 24 ++ [7]) : Cmd) 24 2)).isSome = true) ∧
    ((S1 opReplStop : State).boot.fastStopped = false) ∧ (opCmd (S1 opReplStop : State) (3 : Nat) (1 : Nat) opReplStop = some (K opReplStop : Cmd)) ∧ ((S1 opReplStop : State).brd.port = []) ∧ (replOf (S1 opReplStop : State) (pk (K opReplStop : Cmd) 24 2) = none) ∧
    ((S1 opReplStatus : State).boot.fastStopped = false) ∧ (opCmd (S1 opReplStatus : State) (3 : Nat) (1 : Nat) opReplStatus = some (K opReplStatus : Cmd)) ∧ (replOf (S1 opReplStatus : State) (pk (K opReplStatus : Cmd) 24 2) = none) := by
  decide

set_option maxRecDepth 100000 in
/-- The hypotheses of ReplicationCommands are met. -/
theorem test_met_ReplicationCommands_2 :
    (({ SP opReplStatus (zeros 24 ++ [7]) with rma.repls := [{ vol := 7 }] } : State).boot.fastStopped = false) ∧ (opCmd ({ SP opReplStatus (zeros 24 ++ [7]) with rma.repls := [{ vol := 7 }] } : State) (3 : Nat) (1 : Nat) opReplStatus = some (KP opReplStatus (zeros 24 ++ [7]) : Cmd)) ∧ (replOf ({ SP opReplStatus (zeros 24 ++ [7]) with rma.repls := [{ vol := 7 }] } : State) (pk (KP opReplStatus (zeros 24 ++ [7]) : Cmd) 24 2) = some ({ vol := 7 } : Repl)) ∧
    ((K opReplStart : Cmd).opcode = opReplStart) ∧ ((({ nums := [7, 0, 0, 0, 0, 0] } : Decision) : Decision).nums = [(7 : Nat), (0 : Nat), (0 : Nat), (0 : Nat), (0 : Nat), (0 : Nat)]) ∧
    ((K opReplStop : Cmd).opcode = opReplStop) ∧ ((({ nums := [7] } : Decision) : Decision).nums = [(7 : Nat)]) := by
  decide

set_option maxRecDepth 100000 in
/-- The hypotheses of ReplicationCyclesAndReduction are met. -/
theorem test_met_ReplicationCyclesAndReduction_0 :
    (({ State.reset with boot.service := true, nv.domains := [{ num := 0 }], nv.volumes := [{ num := 7, size := 100 }], rma.repls := [{ vol := 7 }] } : State).boot.fastStopped = false) ∧ (({ State.reset with boot.service := true, nv.domains := [{ num := 0 }], nv.volumes := [{ num := 7, size := 100 }], rma.repls := [{ vol := 7 }] } : State).saf.failSilent = false) ∧ (replOf ({ State.reset with boot.service := true, nv.domains := [{ num := 0 }], nv.volumes := [{ num := 7, size := 100 }], rma.repls := [{ vol := 7 }] } : State) (7 : Nat) = some ({ vol := 7 } : Repl)) ∧ (volumeOf ({ State.reset with boot.service := true, nv.domains := [{ num := 0 }], nv.volumes := [{ num := 7, size := 100 }], rma.repls := [{ vol := 7 }] } : State) (7 : Nat) = some ({ num := 7, size := 100 } : Volume)) ∧ (cycleReady ({ vol := 7 } : Repl) = true) ∧ (ownsVolume ({ State.reset with boot.service := true, nv.domains := [{ num := 0 }], nv.volumes := [{ num := 7, size := 100 }], rma.repls := [{ vol := 7 }] } : State) ({ num := 7, size := 100 } : Volume) = true) ∧ (keylessVolume ({ State.reset with boot.service := true, nv.domains := [{ num := 0 }], nv.volumes := [{ num := 7, size := 100 }], rma.repls := [{ vol := 7 }] } : State) ({ num := 7, size := 100 } : Volume) = false) ∧ (({ State.reset with boot.service := true, nv.domains := [{ num := 0 }], nv.volumes := [{ num := 7, size := 100 }], rma.repls := [{ vol := 7 }] } : State).boot.service = true) ∧ (({ State.reset with boot.service := true, nv.domains := [{ num := 0 }], nv.volumes := [{ num := 7, size := 100 }], rma.repls := [{ vol := 7 }] } : State).brd.port = []) ∧ (({ State.reset with boot.service := true, nv.domains := [{ num := 0 }], nv.volumes := [{ num := 7, size := 100 }], rma.repls := [{ vol := 7 }] } : State).col.ends = []) ∧ (({ State.reset with boot.service := true, nv.domains := [{ num := 0 }], nv.volumes := [{ num := 7, size := 100 }], rma.repls := [{ vol := 7 }] } : State).nv.snaps.length < snapCap) ∧ (({ State.reset with boot.service := true, nv.domains := [{ num := 0 }], nv.volumes := [{ num := 7, size := 100 }], rma.repls := [{ vol := 7 }] } : State).nv.nextSnap + 1 < 2 ^ 32) ∧
    (({ State.reset with nv.snaps := [{ id := 5, vol := 7 }], rma.repls := [{ vol := 7, state := 1, curSnap := 5 }] } : State).boot.fastStopped = false) ∧ (({ State.reset with nv.snaps := [{ id := 5, vol := 7 }], rma.repls := [{ vol := 7, state := 1, curSnap := 5 }] } : State).saf.failSilent = false) ∧ (replOf ({ State.reset with nv.snaps := [{ id := 5, vol := 7 }], rma.repls := [{ vol := 7, state := 1, curSnap := 5 }] } : State) (7 : Nat) = some ({ vol := 7, state := 1, curSnap := 5 } : Repl)) ∧ (({ vol := 7, state := 1, curSnap := 5 } : Repl).curSnap ≠ 0) ∧ ((snapOf ({ State.reset with nv.snaps := [{ id := 5, vol := 7 }], rma.repls := [{ vol := 7, state := 1, curSnap := 5 }] } : State) ({ vol := 7, state := 1, curSnap := 5 } : Repl).curSnap).isSome = true) ∧ (({ vol := 7, state := 1, curSnap := 5 } : Repl).lastSnap = 0) ∧
    (({ State.reset with rma.repls := [{ vol := 7, mode := 1, state := 2 }] } : State).boot.fastStopped = false) ∧ (({ State.reset with rma.repls := [{ vol := 7, mode := 1, state := 2 }] } : State).saf.failSilent = false) ∧ (replOf ({ State.reset with rma.repls := [{ vol := 7, mode := 1, state := 2 }] } : State) (7 : Nat) = some ({ vol := 7, mode := 1, state := 2 } : Repl)) ∧ (({ vol := 7, mode := 1, state := 2 } : Repl).mode = 1) ∧
    (({ State.reset with rma.repls := [{ vol := 7, mode := 1, state := 2 }] } : State).boot.fastStopped = false) ∧ (({ State.reset with rma.repls := [{ vol := 7, mode := 1, state := 2 }] } : State).saf.failSilent = false) ∧ (replOf ({ State.reset with rma.repls := [{ vol := 7, mode := 1, state := 2 }] } : State) (7 : Nat) = some ({ vol := 7, mode := 1, state := 2 } : Repl)) ∧ (({ vol := 7, mode := 1, state := 2 } : Repl).mode = 1) ∧ (({ vol := 7, mode := 1, state := 2 } : Repl).state = 2) ∧
    (({ State.reset with red.open_ := [{ domain := 0, compression := 0 }] } : State).boot.fastStopped = false) ∧ (({ State.reset with red.open_ := [{ domain := 0, compression := 0 }] } : State).saf.failSilent = false) ∧ (({ State.reset with red.open_ := [{ domain := 0, compression := 0 }] } : State).pwr.doze = false) ∧ (oldestOpen ({ State.reset with red.open_ := [{ domain := 0, compression := 0 }] } : State) = some ({ domain := 0, compression := 0 } : OpenBundle)) := by
  decide

set_option maxRecDepth 100000 in
/-- The hypotheses of ReplicationCyclesAndReduction are met. -/
theorem test_met_ReplicationCyclesAndReduction_1 :
    (({ State.reset with red.coldInFlight := [(1, 0, [])] } : State).boot.fastStopped = false) ∧ (({ State.reset with red.coldInFlight := [(1, 0, [])] } : State).saf.failSilent = false) ∧ (({ State.reset with red.coldInFlight := [(1, 0, [])] } : State).pwr.doze = false) ∧ ((({ State.reset with red.coldInFlight := [(1, 0, [])] } : State).red.coldInFlight.find? fun e => e.1 == (1 : Nat)) = some ((1 : Nat), (0 : Nat), ([] : List Byte))) := by
  decide

set_option maxRecDepth 100000 in
/-- The hypotheses of FirmwareBootStagingActivation are met. -/
theorem test_met_FirmwareBootStagingActivation_0 :
    (({ State.reset with boot.romReading := true } : State).boot.fastStopped = false) ∧ (bootCheckDue ({ State.reset with boot.romReading := true } : State) (1 : Nat) = true) ∧
    ((SP opStageImage (zeros 24 ++ [3, 1]) : State).boot.fastStopped = false) ∧ (opCmd (SP opStageImage (zeros 24 ++ [3, 1]) : State) (3 : Nat) (1 : Nat) opStageImage = some (KP opStageImage (zeros 24 ++ [3, 1]) : Cmd)) ∧ ((SP opStageImage (zeros 24 ++ [3, 1]) : State).brd.port = []) ∧ (longOpOf (SP opStageImage (zeros 24 ++ [3, 1]) : State) opStageImage = none) ∧ ((SP opStageImage (zeros 24 ++ [3, 1]) : State).fw.staging = none) ∧ (bit (pk (KP opStageImage (zeros 24 ++ [3, 1]) : Cmd) 25 1) 0 = true) ∧
    ((SP opStageImage (zeros 24 ++ [3]) : State).boot.fastStopped = false) ∧ (opCmd (SP opStageImage (zeros 24 ++ [3]) : State) (3 : Nat) (1 : Nat) opStageImage = some (KP opStageImage (zeros 24 ++ [3]) : Cmd)) ∧ ((SP opStageImage (zeros 24 ++ [3]) : State).brd.port = []) ∧ (longOpOf (SP opStageImage (zeros 24 ++ [3]) : State) opStageImage = none) ∧ ((SP opStageImage (zeros 24 ++ [3]) : State).fw.staging = none) ∧ (bit (pk (KP opStageImage (zeros 24 ++ [3]) : Cmd) 25 1) 0 = false) ∧
    (({ State.reset with plem.longOps := [{ cmd := K opStageImage }], fw.staging := some { session := 0, comp := 3, total := 8192, crc := 0 } } : State).boot.fastStopped = false) ∧ (longOpOf ({ State.reset with plem.longOps := [{ cmd := K opStageImage }], fw.staging := some { session := 0, comp := 3, total := 8192, crc := 0 } } : State) opStageImage = some ({ cmd := K opStageImage } : LongOp)) ∧ (({ State.reset with plem.longOps := [{ cmd := K opStageImage }], fw.staging := some { session := 0, comp := 3, total := 8192, crc := 0 } } : State).fw.staging = some ({ session := 0, comp := 3, total := 8192, crc := 0 } : Staging)) ∧ (bit (pk ({ cmd := K opStageImage } : LongOp).cmd 25 1) 1 = false) ∧
    (({ State.reset with plem.longOps := [{ cmd := KP opStageImage (zeros 25 ++ [2]) }], fw.staging := some { session := 0, comp := 3, total := 8192, crc := 0 } } : State).boot.fastStopped = false) ∧ (longOpOf ({ State.reset with plem.longOps := [{ cmd := KP opStageImage (zeros 25 ++ [2]) }], fw.staging := some { session := 0, comp := 3, total := 8192, crc := 0 } } : State) opStageImage = some ({ cmd := KP opStageImage (zeros 25 ++ [2]) } : LongOp)) ∧ (({ State.reset with plem.longOps := [{ cmd := KP opStageImage (zeros 25 ++ [2]) }], fw.staging := some { session := 0, comp := 3, total := 8192, crc := 0 } } : State).fw.staging = some ({ session := 0, comp := 3, total := 8192, crc := 0 } : Staging)) ∧ (bit (pk ({ cmd := KP opStageImage (zeros 25 ++ [2]) } : LongOp).cmd 25 1) 1 = true) := by
  decide

set_option maxRecDepth 100000 in
/-- The hypotheses of FirmwareBootStagingActivation are met. -/
theorem test_met_FirmwareBootStagingActivation_1 :
    (({ SP opActivateImage (zeros 24 ++ [1]) with nv.flash.slots := [(2, 1, 0)], fw.running := [some 0] } : State).boot.fastStopped = false) ∧ (opCmd ({ SP opActivateImage (zeros 24 ++ [1]) with nv.flash.slots := [(2, 1, 0)], fw.running := [some 0] } : State) (3 : Nat) (1 : Nat) opActivateImage = some (KP opActivateImage (zeros 24 ++ [1]) : Cmd)) ∧ (({ SP opActivateImage (zeros 24 ++ [1]) with nv.flash.slots := [(2, 1, 0)], fw.running := [some 0] } : State).brd.port = []) ∧ (((maskComps (pk (KP opActivateImage (zeros 24 ++ [1]) : Cmd) 24 1)).find? (fun k => let v := slotState ({ SP opActivateImage (zeros 24 ++ [1]) with nv.flash.slots := [(2, 1, 0)], fw.running := [some 0] } : State) k (inactiveSlot ({ SP opActivateImage (zeros 24 ++ [1]) with nv.flash.slots := [(2, 1, 0)], fw.running := [some 0] } : State) k); v != 1 && v != 2)) = none) ∧ (((maskComps (pk (KP opActivateImage (zeros 24 ++ [1]) : Cmd) 24 1)).all fun k => prefSlot ({ SP opActivateImage (zeros 24 ++ [1]) with nv.flash.slots := [(2, 1, 0)], fw.running := [some 0] } : State) k == inactiveSlot ({ SP opActivateImage (zeros 24 ++ [1]) with nv.flash.slots := [(2, 1, 0)], fw.running := [some 0] } : State) k && (bit ({ SP opActivateImage (zeros 24 ++ [1]) with nv.flash.slots := [(2, 1, 0)], fw.running := [some 0] } : State).nv.flash.raiseBits (k - 1) == bit (pk (KP opActivateImage (zeros 24 ++ [1]) : Cmd) 25 1) (k - 1))) = false) ∧
    (({ SP opActivateImage (zeros 24 ++ [1]) with nv.flash.slots := [(2, 3, 0)], fw.running := [some 0] } : State).boot.fastStopped = false) ∧ (opCmd ({ SP opActivateImage (zeros 24 ++ [1]) with nv.flash.slots := [(2, 3, 0)], fw.running := [some 0] } : State) (3 : Nat) (1 : Nat) opActivateImage = some (KP opActivateImage (zeros 24 ++ [1]) : Cmd)) ∧ (({ SP opActivateImage (zeros 24 ++ [1]) with nv.flash.slots := [(2, 3, 0)], fw.running := [some 0] } : State).brd.port = []) ∧ (((maskComps (pk (KP opActivateImage (zeros 24 ++ [1]) : Cmd) 24 1)).find? (fun k => let v := slotState ({ SP opActivateImage (zeros 24 ++ [1]) with nv.flash.slots := [(2, 3, 0)], fw.running := [some 0] } : State) k (inactiveSlot ({ SP opActivateImage (zeros 24 ++ [1]) with nv.flash.slots := [(2, 3, 0)], fw.running := [some 0] } : State) k); v != 1 && v != 2)) = some (1 : Nat)) ∧
    ((K opActivateImage : Cmd).opcode = opActivateImage) ∧ ((({ nums := [1, 0] } : Decision) : Decision).nums = [1, 0]) ∧
    ((S1 opFwQuery : State).boot.fastStopped = false) ∧ (opCmd (S1 opFwQuery : State) (3 : Nat) (1 : Nat) opFwQuery = some (K opFwQuery : Cmd)) ∧
    ((S1 opMigrateStatus : State).boot.fastStopped = false) ∧ (opCmd (S1 opMigrateStatus : State) (3 : Nat) (1 : Nat) opMigrateStatus = some (K opMigrateStatus : Cmd)) := by
  decide

set_option maxRecDepth 100000 in
/-- The hypotheses of FirmwareBootStagingActivation are met. -/
theorem test_met_FirmwareBootStagingActivation_2 :
    (({ State.reset with hdl.holder := true, hdl.paired := true, nv.flash.images := [(slotOffset 3 0, zeros 18 ++ [9, 0])], fw.running := [none, none, some 0] } : State).boot.fastStopped = false) ∧ (({ State.reset with hdl.holder := true, hdl.paired := true, nv.flash.images := [(slotOffset 3 0, zeros 18 ++ [9, 0])], fw.running := [none, none, some 0] } : State).nv.format < nextFormat ({ State.reset with hdl.holder := true, hdl.paired := true, nv.flash.images := [(slotOffset 3 0, zeros 18 ++ [9, 0])], fw.running := [none, none, some 0] } : State) (8 : Nat)) ∧ (16 < auditFree ({ State.reset with hdl.holder := true, hdl.paired := true, nv.flash.images := [(slotOffset 3 0, zeros 18 ++ [9, 0])], fw.running := [none, none, some 0] } : State)) ∧ (({ State.reset with hdl.holder := true, hdl.paired := true, nv.flash.images := [(slotOffset 3 0, zeros 18 ++ [9, 0])], fw.running := [none, none, some 0] } : State).nv.waitingEntries = []) ∧ (migrating ({ State.reset with hdl.holder := true, hdl.paired := true, nv.flash.images := [(slotOffset 3 0, zeros 18 ++ [9, 0])], fw.running := [none, none, some 0] } : State) = false) ∧
    (({ State.reset with nv.superFormat := 3 } : State).boot.fastStopped = false) ∧ (migrating ({ State.reset with nv.superFormat := 3 } : State) = true) ∧ (({ State.reset with nv.superFormat := 3 } : State).nv.rootFormat = ({ State.reset with nv.superFormat := 3 } : State).nv.format) := by
  decide

set_option maxRecDepth 100000 in
/-- The hypotheses of CoilRowsAndReplay are met. -/
theorem test_met_CoilRowsAndReplay_0 :
    (({ State.reset with boot.fusesLoaded := true } : State).boot.fastStopped = false) ∧ (starting ({ State.reset with boot.fusesLoaded := true } : State) = true) ∧ (({ State.reset with boot.fusesLoaded := true } : State).boot.fusesLoaded = true) ∧ (({ State.reset with boot.fusesLoaded := true } : State).boot.coilReady = false) ∧
    ((State.reset : State).boot.fastStopped = false) ∧
    (commitTarget (State.reset : State) ≤ (State.reset : State).col.commitPoint) ∧
    (({ State.reset with hdl.paired := true } : State).boot.fastStopped = false) ∧ (({ State.reset with hdl.paired := true } : State).saf.failSilent = false) ∧ (({ State.reset with hdl.paired := true } : State).hdl.paired = true) ∧ (({ State.reset with hdl.paired := true } : State).hdl.bridge = false) ∧ (({ State.reset with hdl.paired := true } : State).col.accepting = true) ∧ ((([{ jseq := 1, line := 2, lines := 1, body := .pad }] : List CoilRec).all fun r => decide (r.jseq ≤ lastMirror ({ State.reset with hdl.paired := true } : State))) = false) ∧
    (({ State.reset with hdl.paired := true } : State).boot.fastStopped = false) ∧ (({ State.reset with hdl.paired := true } : State).saf.failSilent = false) ∧ (({ State.reset with hdl.paired := true } : State).hdl.paired = true) ∧ (({ State.reset with hdl.paired := true } : State).hdl.bridge = false) ∧ (({ State.reset with hdl.paired := true } : State).col.accepting = true) ∧ ((([] : List CoilRec).all fun r => decide (r.jseq ≤ lastMirror ({ State.reset with hdl.paired := true } : State))) = true) := by
  decide

set_option maxRecDepth 100000 in
/-- The hypotheses of CoilRowsAndReplay are met. -/
theorem test_met_CoilRowsAndReplay_1 :
    (({ State.reset with hdl.paired := true } : State).boot.fastStopped = false) ∧ (({ State.reset with hdl.paired := true } : State).saf.failSilent = false) ∧ (({ State.reset with hdl.paired := true } : State).hdl.paired = true) ∧ (({ State.reset with hdl.paired := true } : State).hdl.bridge = false) ∧
    (({ State.reset with col.ackSince := some 5 } : State).boot.fastStopped = false) ∧ (({ State.reset with col.ackSince := some 5 } : State).saf.failSilent = false) ∧ (({ State.reset with col.ackSince := some 5 } : State).col.ackSince.isSome = true) ∧
    ((({ State.reset with col.mirrorOn := true } : State).col.mirrorOn || ({ State.reset with col.mirrorOn := true } : State).col.catchUp.isSome) = true) ∧
    (({ State.reset with col.headMoved := 4 } : State).boot.fastStopped = false) ∧ (({ State.reset with col.headMoved := 4 } : State).saf.failSilent = false) ∧ (({ State.reset with col.headMoved := 4 } : State).col.accepting = true) ∧ ((releaseDeltas ({ State.reset with col.headMoved := 4 } : State)).col.headMoved ≠ 0) ∧
    ((State.reset : State).boot.fastStopped = false) ∧ ((State.reset : State).saf.failSilent = false) ∧ ((State.reset : State).col.accepting = true) := by
  decide

set_option maxRecDepth 100000 in
/-- The hypotheses of CoilRowsAndReplay are met. -/
theorem test_met_CoilRowsAndReplay_2 :
    (({ State.reset with col.waiting := [.pad] } : State).col.waiting = (.pad : CoilBody) :: ([] : List CoilBody)) ∧ (coilFits ({ State.reset with col.waiting := [.pad] } : State) (recLines ({ State.reset with col.waiting := [.pad] } : State) (.pad : CoilBody)) = true) ∧
    (({ State.reset with col.replayStep := 1 } : State).boot.fastStopped = false) ∧ (({ State.reset with col.replayStep := 1 } : State).saf.failSilent = false) ∧ (({ State.reset with col.replayStep := 1 } : State).col.replayStep = 1) ∧ (({ State.reset with col.replayStep := 1 } : State).nv.torn = false) ∧
    (({ State.reset with col.replayStep := 1, nv.torn := true } : State).boot.fastStopped = false) ∧ (({ State.reset with col.replayStep := 1, nv.torn := true } : State).saf.failSilent = false) ∧ (({ State.reset with col.replayStep := 1, nv.torn := true } : State).col.replayStep = 1) ∧ (({ State.reset with col.replayStep := 1, nv.torn := true } : State).nv.torn = true) ∧
    (({ State.reset with col.replayStep := 2, boot.wavesDone := 255, stk.ports := [{ num := 0, fenced := true }] } : State).boot.fastStopped = false) ∧ (({ State.reset with col.replayStep := 2, boot.wavesDone := 255, stk.ports := [{ num := 0, fenced := true }] } : State).saf.failSilent = false) ∧ (({ State.reset with col.replayStep := 2, boot.wavesDone := 255, stk.ports := [{ num := 0, fenced := true }] } : State).col.replayStep = 2) ∧ (({ State.reset with col.replayStep := 2, boot.wavesDone := 255, stk.ports := [{ num := 0, fenced := true }] } : State).boot.wavesDone % 256 = 255) ∧ (fencedAtStart ({ State.reset with col.replayStep := 2, boot.wavesDone := 255, stk.ports := [{ num := 0, fenced := true }] } : State) = true) ∧
    (({ State.reset with col.replayStep := 2, boot.wavesDone := 255 } : State).boot.fastStopped = false) ∧ (({ State.reset with col.replayStep := 2, boot.wavesDone := 255 } : State).saf.failSilent = false) ∧ (({ State.reset with col.replayStep := 2, boot.wavesDone := 255 } : State).col.replayStep = 2) ∧ (({ State.reset with col.replayStep := 2, boot.wavesDone := 255 } : State).boot.wavesDone % 256 = 255) ∧ (fencedAtStart ({ State.reset with col.replayStep := 2, boot.wavesDone := 255 } : State) = false) := by
  decide

set_option maxRecDepth 100000 in
/-- The hypotheses of CoilRowsAndReplay are met. -/
theorem test_met_CoilRowsAndReplay_3 :
    (({ State.reset with col.replayStep := 5 } : State).boot.fastStopped = false) ∧ (({ State.reset with col.replayStep := 5 } : State).saf.failSilent = false) ∧ (({ State.reset with col.replayStep := 5 } : State).col.replayStep = 5) ∧
    ((State.reset : State).boot.fastStopped = false) := by
  decide

set_option maxRecDepth 100000 in
/-- The hypotheses of CoilStreamOrder are met. -/
theorem test_met_CoilStreamOrder :
    ((State.reset : State).col.mirrorOn = false) ∧ ((State.reset : State).col.catchUp = none) := by
  decide

/-- The hypotheses of SegmentsStripsAndSeals are met (clause 2). -/
theorem test_met_SegmentsStripsAndSeals_c2 :
    ((LST : State).boot.fastStopped = false) ∧
    ((LST : State).saf.failSilent = false) ∧
    ((LST : State).pwr.doze = false) ∧
    ((LST : State).col.accepting = true) ∧
    ((LST : State).col.replayStep = 6) ∧
    ((readySegment (0 : Nat) (LST : State)).bind (addStrip (0 : Nat) ([1] : List Nat)) = some (((readySegment 0 LST).bind (addStrip 0 [1])).getD State.reset : State)) := by
  refine ⟨rfl, rfl, rfl, rfl, rfl, ?_⟩
  generalize h : (readySegment 0 LST).bind (addStrip 0 [1]) = o
  have h2 : ((readySegment 0 LST).bind (addStrip 0 [1])).isSome = true := by decide
  rw [h] at h2
  cases o with
  | none => simp at h2
  | some t => rfl

set_option maxRecDepth 100000 in
/-- The hypotheses of SegmentsStripsAndSeals are met. -/
theorem test_met_SegmentsStripsAndSeals :
    ((LST : State).boot.fastStopped = false) ∧ ((LST : State).saf.failSilent = false) ∧ ((LST : State).pwr.doze = false) ∧ ((LST : State).col.accepting = true) ∧ ((LST : State).col.replayStep = 6) ∧ (segOf (LST : State) (0 : Nat) = some ({ num := 0 } : Segment)) ∧ (segGen (LST : State) (0 : Nat) = some (LSG : Gen)) ∧ (({ num := 0 } : Segment).state = 0) ∧ (({ num := 0 } : Segment).sealing = false) ∧ (({ num := 0 } : Segment).sideB = (LST : State).aon.side) ∧ (intentWaits (LST : State) (0 : Nat) = false) ∧ (({ num := 0 } : Segment).positions.any (fun p => p.state == 1) = false) ∧ (stripFits (LST : State) (bit (segBand (0 : Nat)) 31) ([1] : List Nat) = true) ∧ (nextPos ({ num := 0 } : Segment) (LSG : Gen).d = some (0 : Nat)) ∧
    (({ LST with nv.segs := [{ num := 0, positions := [{ idx := 0, state := 2 }] }] } : State).boot.fastStopped = false) ∧ (({ LST with nv.segs := [{ num := 0, positions := [{ idx := 0, state := 2 }] }] } : State).saf.failSilent = false) ∧ (({ LST with nv.segs := [{ num := 0, positions := [{ idx := 0, state := 2 }] }] } : State).pwr.doze = false) ∧ (segOf ({ LST with nv.segs := [{ num := 0, positions := [{ idx := 0, state := 2 }] }] } : State) (0 : Nat) = some ({ num := 0, positions := [{ idx := 0, state := 2 }] } : Segment)) ∧ (sealable ({ LST with nv.segs := [{ num := 0, positions := [{ idx := 0, state := 2 }] }] } : State) ({ num := 0, positions := [{ idx := 0, state := 2 }] } : Segment) = true) ∧ (({ num := 0, positions := [{ idx := 0, state := 2 }] } : Segment).sideB = ({ LST with nv.segs := [{ num := 0, positions := [{ idx := 0, state := 2 }] }] } : State).aon.side) ∧ (((true : Bool) || segFull ({ LST with nv.segs := [{ num := 0, positions := [{ idx := 0, state := 2 }] }] } : State) ({ num := 0, positions := [{ idx := 0, state := 2 }] } : Segment)) = true) ∧ (({ LST with nv.segs := [{ num := 0, positions := [{ idx := 0, state := 2 }] }] } : State).col.accepting = true) ∧
    (({ LST with nv.segs := [{ num := 0, positions := [{ idx := 0, state := 2 }] }] } : State).boot.fastStopped = false) ∧ (({ LST with nv.segs := [{ num := 0, positions := [{ idx := 0, state := 2 }] }] } : State).saf.failSilent = false) ∧ (({ LST with nv.segs := [{ num := 0, positions := [{ idx := 0, state := 2 }] }] } : State).pwr.doze = false) ∧ (segOf ({ LST with nv.segs := [{ num := 0, positions := [{ idx := 0, state := 2 }] }] } : State) (0 : Nat) = some ({ num := 0, positions := [{ idx := 0, state := 2 }] } : Segment)) ∧ (sealable ({ LST with nv.segs := [{ num := 0, positions := [{ idx := 0, state := 2 }] }] } : State) ({ num := 0, positions := [{ idx := 0, state := 2 }] } : Segment) = true) ∧ (({ num := 0, positions := [{ idx := 0, state := 2 }] } : Segment).sideB = ({ LST with nv.segs := [{ num := 0, positions := [{ idx := 0, state := 2 }] }] } : State).aon.side) ∧ (((true : Bool) || segFull ({ LST with nv.segs := [{ num := 0, positions := [{ idx := 0, state := 2 }] }] } : State) ({ num := 0, positions := [{ idx := 0, state := 2 }] } : Segment)) = true) ∧ (({ LST with nv.segs := [{ num := 0, positions := [{ idx := 0, state := 2 }] }] } : State).col.accepting = true) ∧
    (({ LST with plem.pids := [(0x0A02, 5)], nv.segs := [{ num := 0, positions := [{ idx := 0, state := 2 }] }] } : State).boot.fastStopped = false) ∧ (({ LST with plem.pids := [(0x0A02, 5)], nv.segs := [{ num := 0, positions := [{ idx := 0, state := 2 }] }] } : State).saf.failSilent = false) ∧ (({ LST with plem.pids := [(0x0A02, 5)], nv.segs := [{ num := 0, positions := [{ idx := 0, state := 2 }] }] } : State).pwr.doze = false) ∧ (segOf ({ LST with plem.pids := [(0x0A02, 5)], nv.segs := [{ num := 0, positions := [{ idx := 0, state := 2 }] }] } : State) (0 : Nat) = some ({ num := 0, positions := [{ idx := 0, state := 2 }] } : Segment)) ∧ (sealable ({ LST with plem.pids := [(0x0A02, 5)], nv.segs := [{ num := 0, positions := [{ idx := 0, state := 2 }] }] } : State) ({ num := 0, positions := [{ idx := 0, state := 2 }] } : Segment) = true) ∧ (({ num := 0, positions := [{ idx := 0, state := 2 }] } : Segment).sideB = ({ LST with plem.pids := [(0x0A02, 5)], nv.segs := [{ num := 0, positions := [{ idx := 0, state := 2 }] }] } : State).aon.side) ∧ (pidVal ({ LST with plem.pids := [(0x0A02, 5)], nv.segs := [{ num := 0, positions := [{ idx := 0, state := 2 }] }] } : State) 0x0A02 ≠ 0) ∧
    (segGen (LST : State) ({ num := 0 } : Segment).num = some (LSG : Gen)) := by
  decide

set_option maxRecDepth 100000 in
/-- The hypotheses of PackAndLayoutCommands are met. -/
theorem test_met_PackAndLayoutCommands_0 :
    (({ State.reset with hdl.holder := true, plem.cmds := [K opPackAdmit], stk.ports := [{ num := 0, link := 3, startStep := 4 }] } : State).boot.fastStopped = false) ∧ (opCmd ({ State.reset with hdl.holder := true, plem.cmds := [K opPackAdmit], stk.ports := [{ num := 0, link := 3, startStep := 4 }] } : State) (3 : Nat) (1 : Nat) opPackAdmit = some (K opPackAdmit : Cmd)) ∧ (({ State.reset with hdl.holder := true, plem.cmds := [K opPackAdmit], stk.ports := [{ num := 0, link := 3, startStep := 4 }] } : State).hdl.holder = true) ∧ (({ State.reset with hdl.holder := true, plem.cmds := [K opPackAdmit], stk.ports := [{ num := 0, link := 3, startStep := 4 }] } : State).brd.port = []) ∧ (({ State.reset with hdl.holder := true, plem.cmds := [K opPackAdmit], stk.ports := [{ num := 0, link := 3, startStep := 4 }] } : State).col.ends = []) ∧ (policyRefuses ({ State.reset with hdl.holder := true, plem.cmds := [K opPackAdmit], stk.ports := [{ num := 0, link := 3, startStep := 4 }] } : State) = false) ∧ (({ State.reset with hdl.holder := true, plem.cmds := [K opPackAdmit], stk.ports := [{ num := 0, link := 3, startStep := 4 }] } : State).hdl.transfer = none) ∧ (({ State.reset with hdl.holder := true, plem.cmds := [K opPackAdmit], stk.ports := [{ num := 0, link := 3, startStep := 4 }] } : State).hdl.severed = false) ∧ (admittable ({ State.reset with hdl.holder := true, plem.cmds := [K opPackAdmit], stk.ports := [{ num := 0, link := 3, startStep := 4 }] } : State) (pk (K opPackAdmit : Cmd) 24 1) = true) ∧ (packNow ({ State.reset with hdl.holder := true, plem.cmds := [K opPackAdmit], stk.ports := [{ num := 0, link := 3, startStep := 4 }] } : State) (pk (K opPackAdmit : Cmd) 24 1) = none) ∧
    (({ S1 opPackAdmit with hdl.holder := true } : State).boot.fastStopped = false) ∧ (opCmd ({ S1 opPackAdmit with hdl.holder := true } : State) (3 : Nat) (1 : Nat) opPackAdmit = some (K opPackAdmit : Cmd)) ∧ (({ S1 opPackAdmit with hdl.holder := true } : State).hdl.holder = true) ∧ (({ S1 opPackAdmit with hdl.holder := true } : State).brd.port = []) ∧ (({ S1 opPackAdmit with hdl.holder := true } : State).col.ends = []) ∧ (({ S1 opPackAdmit with hdl.holder := true } : State).hdl.transfer = none) ∧ (({ S1 opPackAdmit with hdl.holder := true } : State).hdl.severed = false) ∧ (admittable ({ S1 opPackAdmit with hdl.holder := true } : State) (pk (K opPackAdmit : Cmd) 24 1) = false) ∧
    (({ S1 opPackRetire with hdl.holder := true, nv.packs := [{ port := 0, cond := 5 }] } : State).boot.fastStopped = false) ∧ (opCmd ({ S1 opPackRetire with hdl.holder := true, nv.packs := [{ port := 0, cond := 5 }] } : State) (3 : Nat) (1 : Nat) opPackRetire = some (K opPackRetire : Cmd)) ∧ (({ S1 opPackRetire with hdl.holder := true, nv.packs := [{ port := 0, cond := 5 }] } : State).hdl.holder = true) ∧ (({ S1 opPackRetire with hdl.holder := true, nv.packs := [{ port := 0, cond := 5 }] } : State).brd.port = []) ∧ (({ S1 opPackRetire with hdl.holder := true, nv.packs := [{ port := 0, cond := 5 }] } : State).col.ends = []) ∧ (policyRefuses ({ S1 opPackRetire with hdl.holder := true, nv.packs := [{ port := 0, cond := 5 }] } : State) = false) ∧ (({ S1 opPackRetire with hdl.holder := true, nv.packs := [{ port := 0, cond := 5 }] } : State).hdl.transfer = none) ∧ (({ S1 opPackRetire with hdl.holder := true, nv.packs := [{ port := 0, cond := 5 }] } : State).hdl.severed = false) ∧ (packNow ({ S1 opPackRetire with hdl.holder := true, nv.packs := [{ port := 0, cond := 5 }] } : State) (pk (K opPackRetire : Cmd) 24 1) = some ({ port := 0, cond := 5 } : Pack)) ∧ (({ port := 0, cond := 5 } : Pack).retiring = false) ∧ (({ port := 0, cond := 5 } : Pack).cond ≠ 4) ∧ (packBelowFloor ({ S1 opPackRetire with hdl.holder := true, nv.packs := [{ port := 0, cond := 5 }] } : State) (pk (K opPackRetire : Cmd) 24 1) = false) ∧ (memberOf ({ S1 opPackRetire with hdl.holder := true, nv.packs := [{ port := 0, cond := 5 }] } : State).nv.genNew (pk (K opPackRetire : Cmd) 24 1) = false) ∧
    (({ S1 opPackRetire with hdl.holder := true } : State).boot.fastStopped = false) ∧ (opCmd ({ S1 opPackRetire with hdl.holder := true } : State) (3 : Nat) (1 : Nat) opPackRetire = some (K opPackRetire : Cmd)) ∧ (({ S1 opPackRetire with hdl.holder := true } : State).hdl.holder = true) ∧ (({ S1 opPackRetire with hdl.holder := true } : State).brd.port = []) ∧ (({ S1 opPackRetire with hdl.holder := true } : State).col.ends = []) ∧ (({ S1 opPackRetire with hdl.holder := true } : State).hdl.transfer = none) ∧ (({ S1 opPackRetire with hdl.holder := true } : State).hdl.severed = false) ∧ (packNow ({ S1 opPackRetire with hdl.holder := true } : State) (pk (K opPackRetire : Cmd) 24 1) = none) ∧
    (({ SP opLayoutChange (zeros 24 ++ [1]) with hdl.holder := true, nv.change := 1 } : State).boot.fastStopped = false) ∧ (opCmd ({ SP opLayoutChange (zeros 24 ++ [1]) with hdl.holder := true, nv.change := 1 } : State) (3 : Nat) (1 : Nat) opLayoutChange = some (KP opLayoutChange (zeros 24 ++ [1]) : Cmd)) ∧ (({ SP opLayoutChange (zeros 24 ++ [1]) with hdl.holder := true, nv.change := 1 } : State).hdl.holder = true) ∧ (({ SP opLayoutChange (zeros 24 ++ [1]) with hdl.holder := true, nv.change := 1 } : State).brd.port = []) ∧ (({ SP opLayoutChange (zeros 24 ++ [1]) with hdl.holder := true, nv.change := 1 } : State).col.ends = []) ∧ (policyRefuses ({ SP opLayoutChange (zeros 24 ++ [1]) with hdl.holder := true, nv.change := 1 } : State) = false) ∧ (({ SP opLayoutChange (zeros 24 ++ [1]) with hdl.holder := true, nv.change := 1 } : State).hdl.transfer = none) ∧ (({ SP opLayoutChange (zeros 24 ++ [1]) with hdl.holder := true, nv.change := 1 } : State).hdl.severed = false) ∧ (pk (KP opLayoutChange (zeros 24 ++ [1]) : Cmd) 24 1 = 1) ∧ (({ SP opLayoutChange (zeros 24 ++ [1]) with hdl.holder := true, nv.change := 1 } : State).nv.change = 1) := by
  decide

set_option maxRecDepth 100000 in
/-- The hypotheses of PackAndLayoutCommands are met. -/
theorem test_met_PackAndLayoutCommands_1 :
    (({ SP opLayoutChange (zeros 24 ++ [1]) with hdl.holder := true } : State).boot.fastStopped = false) ∧ (opCmd ({ SP opLayoutChange (zeros 24 ++ [1]) with hdl.holder := true } : State) (3 : Nat) (1 : Nat) opLayoutChange = some (KP opLayoutChange (zeros 24 ++ [1]) : Cmd)) ∧ (({ SP opLayoutChange (zeros 24 ++ [1]) with hdl.holder := true } : State).hdl.holder = true) ∧ (({ SP opLayoutChange (zeros 24 ++ [1]) with hdl.holder := true } : State).brd.port = []) ∧ (({ SP opLayoutChange (zeros 24 ++ [1]) with hdl.holder := true } : State).col.ends = []) ∧ (({ SP opLayoutChange (zeros 24 ++ [1]) with hdl.holder := true } : State).hdl.transfer = none) ∧ (({ SP opLayoutChange (zeros 24 ++ [1]) with hdl.holder := true } : State).hdl.severed = false) ∧ (pk (KP opLayoutChange (zeros 24 ++ [1]) : Cmd) 24 1 = 1) ∧ (({ SP opLayoutChange (zeros 24 ++ [1]) with hdl.holder := true } : State).nv.change ≠ 1) ∧
    (pk (K opLayoutChange : Cmd) 24 1 = 0) ∧ (badMember (State.reset : State) (pk (K opLayoutChange : Cmd) 32 8) = none) ∧ ((State.reset : State).nv.nextGen ≤ 65535) ∧ ((State.reset : State).nv.genCur = none) ∧ ((State.reset : State).nv.change = 0) ∧ (longOpOf (State.reset : State) opLayoutChange = none) ∧
    (({ State.reset with hdl.holder := true, nv.genCur := some LSG, nv.genNew := some { LSG with num := 2 }, nv.change := 1 } : State).boot.fastStopped = false) ∧ (({ State.reset with hdl.holder := true, nv.genCur := some LSG, nv.genNew := some { LSG with num := 2 }, nv.change := 1 } : State).saf.failSilent = false) ∧ (({ State.reset with hdl.holder := true, nv.genCur := some LSG, nv.genNew := some { LSG with num := 2 }, nv.change := 1 } : State).pwr.doze = false) ∧ (({ State.reset with hdl.holder := true, nv.genCur := some LSG, nv.genNew := some { LSG with num := 2 }, nv.change := 1 } : State).nv.genCur = some (LSG : Gen)) ∧ (({ State.reset with hdl.holder := true, nv.genCur := some LSG, nv.genNew := some { LSG with num := 2 }, nv.change := 1 } : State).nv.genNew = some ({ LSG with num := 2 } : Gen)) ∧ (({ State.reset with hdl.holder := true, nv.genCur := some LSG, nv.genNew := some { LSG with num := 2 }, nv.change := 1 } : State).hdl.holder = true) ∧ (({ State.reset with hdl.holder := true, nv.genCur := some LSG, nv.genNew := some { LSG with num := 2 }, nv.change := 1 } : State).nv.change = 1) ∧ (migrating ({ State.reset with hdl.holder := true, nv.genCur := some LSG, nv.genNew := some { LSG with num := 2 }, nv.change := 1 } : State) = false) ∧ (bandsOf ({ State.reset with hdl.holder := true, nv.genCur := some LSG, nv.genNew := some { LSG with num := 2 }, nv.change := 1 } : State) (some (LSG : Gen)) = 0) ∧ (openInGen ({ State.reset with hdl.holder := true, nv.genCur := some LSG, nv.genNew := some { LSG with num := 2 }, nv.change := 1 } : State) (LSG : Gen).num = false) ∧ (({ State.reset with hdl.holder := true, nv.genCur := some LSG, nv.genNew := some { LSG with num := 2 }, nv.change := 1 } : State).hdl.severed = false) ∧
    (({ State.reset with hdl.holder := true, nv.genCur := some LSG, nv.genNew := some { LSG with num := 2 }, nv.change := 2 } : State).boot.fastStopped = false) ∧ (({ State.reset with hdl.holder := true, nv.genCur := some LSG, nv.genNew := some { LSG with num := 2 }, nv.change := 2 } : State).saf.failSilent = false) ∧ (({ State.reset with hdl.holder := true, nv.genCur := some LSG, nv.genNew := some { LSG with num := 2 }, nv.change := 2 } : State).pwr.doze = false) ∧ (({ State.reset with hdl.holder := true, nv.genCur := some LSG, nv.genNew := some { LSG with num := 2 }, nv.change := 2 } : State).nv.genNew = some ({ LSG with num := 2 } : Gen)) ∧ (({ State.reset with hdl.holder := true, nv.genCur := some LSG, nv.genNew := some { LSG with num := 2 }, nv.change := 2 } : State).hdl.holder = true) ∧ (({ State.reset with hdl.holder := true, nv.genCur := some LSG, nv.genNew := some { LSG with num := 2 }, nv.change := 2 } : State).nv.change = 2) ∧ (migrating ({ State.reset with hdl.holder := true, nv.genCur := some LSG, nv.genNew := some { LSG with num := 2 }, nv.change := 2 } : State) = false) ∧ (bandsOf ({ State.reset with hdl.holder := true, nv.genCur := some LSG, nv.genNew := some { LSG with num := 2 }, nv.change := 2 } : State) (some ({ LSG with num := 2 } : Gen)) = 0) ∧ (openInGen ({ State.reset with hdl.holder := true, nv.genCur := some LSG, nv.genNew := some { LSG with num := 2 }, nv.change := 2 } : State) ({ LSG with num := 2 } : Gen).num = false) ∧ (({ State.reset with hdl.holder := true, nv.genCur := some LSG, nv.genNew := some { LSG with num := 2 }, nv.change := 2 } : State).hdl.severed = false) ∧ (opPending ({ State.reset with hdl.holder := true, nv.genCur := some LSG, nv.genNew := some { LSG with num := 2 }, nv.change := 2 } : State) opxReverse = false) ∧
    (isMember (State.reset : State) (0 : Nat) = false) := by
  decide

set_option maxRecDepth 100000 in
/-- The hypotheses of PackAndLayoutCommands are met. -/
theorem test_met_PackAndLayoutCommands_2 :
    (isMember (LST : State) (0 : Nat) = true) ∧
    (packNow (State.reset : State) (0 : Nat) = none) ∧
    (({ State.reset with nv.genNew := some LSG } : State).nv.genNew = some (LSG : Gen)) := by
  decide

set_option maxRecDepth 100000 in
/-- The hypotheses of RebuildAndLossCommands are met. -/
theorem test_met_RebuildAndLossCommands_0 :
    (({ LST with hdl.holder := true, nv.packs := [{ port := 0, cond := 1 }] } : State).boot.fastStopped = false) ∧ (({ LST with hdl.holder := true, nv.packs := [{ port := 0, cond := 1 }] } : State).saf.failSilent = false) ∧ (({ LST with hdl.holder := true, nv.packs := [{ port := 0, cond := 1 }] } : State).hdl.holder = true) ∧ (({ LST with hdl.holder := true, nv.packs := [{ port := 0, cond := 1 }] } : State).col.replayStep = 6) ∧ (isMember ({ LST with hdl.holder := true, nv.packs := [{ port := 0, cond := 1 }] } : State) (0 : Nat) = true) ∧ (packOf ({ LST with hdl.holder := true, nv.packs := [{ port := 0, cond := 1 }] } : State) (0 : Nat) = some ({ port := 0, cond := 1 } : Pack)) ∧ (({ port := 0, cond := 1 } : Pack).cond = 1) ∧
    (({ State.reset with brd.counterDone := true } : State).hdl.severed = false) ∧ (({ State.reset with brd.counterDone := true } : State).lay.declaredWait.any (fun e => e.1 == (0 : Nat)) = false) ∧ (entryWaits ({ State.reset with brd.counterDone := true } : State) = false) ∧
    ((LST : State).boot.fastStopped = false) ∧ ((LST : State).saf.failSilent = false) ∧ ((LST : State).pwr.doze = false) ∧ (((LST : State).nv.segs.filter (isLost (LST : State))) = []) ∧
    (({ LST with lay.queue := [0] } : State).boot.fastStopped = false) ∧ (({ LST with lay.queue := [0] } : State).saf.failSilent = false) ∧ (({ LST with lay.queue := [0] } : State).pwr.doze = false) ∧ (segOf ({ LST with lay.queue := [0] } : State) (0 : Nat) = some ({ num := 0 } : Segment)) ∧ (({ LST with lay.queue := [0] } : State).lay.queue.contains (0 : Nat) = true) ∧ (worksSide ({ LST with lay.queue := [0] } : State) ({ num := 0 } : Segment).sideB = true) ∧ ((({ LST with lay.queue := [0] } : State).lay.paused && marginOf ({ LST with lay.queue := [0] } : State) ({ num := 0 } : Segment) != 0) = false) ∧ (({ LST with lay.queue := [0] } : State).col.accepting = true) ∧ (isLost ({ LST with lay.queue := [0] } : State) ({ num := 0 } : Segment) = false) ∧
    (({ LST with lay.rebuilt := [(0, 0, 1)] } : State).boot.fastStopped = false) ∧ (({ LST with lay.rebuilt := [(0, 0, 1)] } : State).saf.failSilent = false) ∧ (({ LST with lay.rebuilt := [(0, 0, 1)] } : State).pwr.doze = false) ∧ (((({ LST with lay.rebuilt := [(0, 0, 1)] } : State).lay.rebuilt.filter fun t => !stripWriting ({ LST with lay.rebuilt := [(0, 0, 1)] } : State) t).take 256) ≠ []) ∧ (opPending ({ LST with lay.rebuilt := [(0, 0, 1)] } : State) opxRebuild = false) := by
  decide

set_option maxRecDepth 100000 in
/-- The hypotheses of RebuildAndLossCommands are met. -/
theorem test_met_RebuildAndLossCommands_1 :
    (({ State.reset with hdl.holder := true, nv.packs := [{ port := 0, cond := 3 }] } : State).boot.fastStopped = false) ∧ (({ State.reset with hdl.holder := true, nv.packs := [{ port := 0, cond := 3 }] } : State).saf.failSilent = false) ∧ (({ State.reset with hdl.holder := true, nv.packs := [{ port := 0, cond := 3 }] } : State).pwr.doze = false) ∧ ((({ State.reset with hdl.holder := true, nv.packs := [{ port := 0, cond := 3 }] } : State).nv.packs.find? fun p => p.port == (0 : Nat) && p.cond == 3 && !p.rebuildEnded) = some ({ port := 0, cond := 3 } : Pack)) ∧ (({ State.reset with hdl.holder := true, nv.packs := [{ port := 0, cond := 3 }] } : State).hdl.holder = true) ∧ (stillMissing ({ State.reset with hdl.holder := true, nv.packs := [{ port := 0, cond := 3 }] } : State) (0 : Nat) = []) ∧ (longOpOf (borderEvent 0xFF13 (declareParam (updPack (0 : Nat) ({ port := 0, cond := 3 } : Pack).identity (fun p => { p with rebuildEnded := true }) ({ State.reset with hdl.holder := true, nv.packs := [{ port := 0, cond := 3 }] } : State)) (0 : Nat) 1 0) (updPack (0 : Nat) ({ port := 0, cond := 3 } : Pack).identity (fun p => { p with rebuildEnded := true }) ({ State.reset with hdl.holder := true, nv.packs := [{ port := 0, cond := 3 }] } : State))) opRebuildCtrl = none) ∧
    ((LST : State).boot.fastStopped = false) ∧ ((LST : State).saf.failSilent = false) ∧ ((LST : State).pwr.doze = false) ∧ ((LST : State).col.replayStep = 6) ∧
    ((LST : State).boot.fastStopped = false) ∧ ((LST : State).saf.failSilent = false) ∧ ((LST : State).col.replayStep = 6) ∧ ((LST : State).nv.ckptSeq = 0) ∧
    (({ LST with nv.ckptSeq := 1 } : State).boot.fastStopped = false) ∧ (({ LST with nv.ckptSeq := 1 } : State).saf.failSilent = false) ∧ (({ LST with nv.ckptSeq := 1 } : State).col.replayStep = 6) ∧ (({ LST with nv.ckptSeq := 1 } : State).nv.ckptSeq ≠ 0) ∧
    ((SP opRebuildCtrl (zeros 24 ++ [1]) : State).boot.fastStopped = false) ∧ (opCmd (SP opRebuildCtrl (zeros 24 ++ [1]) : State) (3 : Nat) (1 : Nat) opRebuildCtrl = some (KP opRebuildCtrl (zeros 24 ++ [1]) : Cmd)) ∧ ((SP opRebuildCtrl (zeros 24 ++ [1]) : State).brd.port = []) ∧ (pk (KP opRebuildCtrl (zeros 24 ++ [1]) : Cmd) 24 1 = 1) ∧ ((SP opRebuildCtrl (zeros 24 ++ [1]) : State).lay.paused = false) := by
  decide

set_option maxRecDepth 100000 in
/-- The hypotheses of RebuildAndLossCommands are met. -/
theorem test_met_RebuildAndLossCommands_2 :
    ((SP opRebuildCtrl (zeros 24 ++ [3]) : State).boot.fastStopped = false) ∧ (opCmd (SP opRebuildCtrl (zeros 24 ++ [3]) : State) (3 : Nat) (1 : Nat) opRebuildCtrl = some (KP opRebuildCtrl (zeros 24 ++ [3]) : Cmd)) ∧ ((SP opRebuildCtrl (zeros 24 ++ [3]) : State).brd.port = []) ∧ (pk (KP opRebuildCtrl (zeros 24 ++ [3]) : Cmd) 24 1 = 3) ∧
    ((K opRebuildCtrl : Cmd).opcode = opRebuildCtrl) ∧ ((({ nums := [1] } : Decision) : Decision).nums = [1]) ∧
    ((K opRebuildCtrl : Cmd).opcode = opRebuildCtrl) ∧ ((({ nums := [2] } : Decision) : Decision).nums = [2]) ∧
    ((S1 opLostListRead : State).boot.fastStopped = false) ∧ (opCmd (S1 opLostListRead : State) (3 : Nat) (1 : Nat) opLostListRead = some (K opLostListRead : Cmd)) ∧ (pk (K opLostListRead : Cmd) 24 1 = 0) ∧
    (({ S1 opLostListClear with nv.lostStripes := [⟨0, 0, 0, 0, 0, 0, 0⟩] } : State).boot.fastStopped = false) ∧ (opCmd ({ S1 opLostListClear with nv.lostStripes := [⟨0, 0, 0, 0, 0, 0, 0⟩] } : State) (3 : Nat) (1 : Nat) opLostListClear = some (K opLostListClear : Cmd)) ∧ (({ S1 opLostListClear with nv.lostStripes := [⟨0, 0, 0, 0, 0, 0, 0⟩] } : State).brd.port = []) ∧ (({ S1 opLostListClear with nv.lostStripes := [⟨0, 0, 0, 0, 0, 0, 0⟩] } : State).nv.lostStripes.any (fun e => e.seg == pk (K opLostListClear : Cmd) 24 8) = true) ∧ (((lostRanges ({ S1 opLostListClear with nv.lostStripes := [⟨0, 0, 0, 0, 0, 0, 0⟩] } : State)).filter fun r => r.seg == pk (K opLostListClear : Cmd) 24 8) = []) := by
  decide

set_option maxRecDepth 100000 in
/-- The hypotheses of RebuildAndLossCommands are met. -/
theorem test_met_RebuildAndLossCommands_3 :
    ((S1 opLostListClear : State).boot.fastStopped = false) ∧ (opCmd (S1 opLostListClear : State) (3 : Nat) (1 : Nat) opLostListClear = some (K opLostListClear : Cmd)) ∧ ((S1 opLostListClear : State).brd.port = []) ∧ ((S1 opLostListClear : State).nv.lostStripes.any (fun e => e.seg == pk (K opLostListClear : Cmd) 24 8) = false) ∧
    ((K opLostListClear : Cmd).opcode = opLostListClear) ∧ ((({ nums := [5] } : Decision) : Decision).nums = [(5 : Nat)]) := by
  decide

set_option maxRecDepth 100000 in
/-- The hypotheses of MediaManagementCommands are met. -/
theorem test_met_MediaManagementCommands_0 :
    (({ LST with nv.segs := [], nv.bands := [{ num := 0, gen := 1, state := 2 }] } : State).boot.fastStopped = false) ∧ (({ LST with nv.segs := [], nv.bands := [{ num := 0, gen := 1, state := 2 }] } : State).saf.failSilent = false) ∧ (({ LST with nv.segs := [], nv.bands := [{ num := 0, gen := 1, state := 2 }] } : State).pwr.doze = false) ∧ (({ LST with nv.segs := [], nv.bands := [{ num := 0, gen := 1, state := 2 }] } : State).med.batch = none) ∧ (({ LST with nv.segs := [], nv.bands := [{ num := 0, gen := 1, state := 2 }] } : State).col.replayStep = 6) ∧ (({ LST with nv.segs := [], nv.bands := [{ num := 0, gen := 1, state := 2 }] } : State).col.accepting = true) ∧ (([0] : List Nat) ≠ []) ∧ (([0] : List Nat).length ≤ 64) ∧ ((([0] : List Nat).filterMap (bandOf ({ LST with nv.segs := [], nv.bands := [{ num := 0, gen := 1, state := 2 }] } : State))).length = ([0] : List Nat).length) ∧ (([0] : List Nat).eraseDups.length = ([0] : List Nat).length) ∧ ((([0] : List Nat).filterMap (bandOf ({ LST with nv.segs := [], nv.bands := [{ num := 0, gen := 1, state := 2 }] } : State))).all (collectable ({ LST with nv.segs := [], nv.bands := [{ num := 0, gen := 1, state := 2 }] } : State)) = true) ∧ (victimOrder ({ LST with nv.segs := [], nv.bands := [{ num := 0, gen := 1, state := 2 }] } : State) (([0] : List Nat).filterMap (bandOf ({ LST with nv.segs := [], nv.bands := [{ num := 0, gen := 1, state := 2 }] } : State))) = true) ∧
    (({ num := 0, gen := 1, state := 1 } : Band).state = 1) ∧
    (({ LST with med.batch := some { num := 0, victims := [1] } } : State).boot.fastStopped = false) ∧ (({ LST with med.batch := some { num := 0, victims := [1] } } : State).saf.failSilent = false) ∧ (({ LST with med.batch := some { num := 0, victims := [1] } } : State).pwr.doze = false) ∧ (({ LST with med.batch := some { num := 0, victims := [1] } } : State).med.batch = some ({ num := 0, victims := [1] } : Batch)) ∧ (({ num := 0, victims := [1] } : Batch).step = 0) ∧ (victimBundles ({ LST with med.batch := some { num := 0, victims := [1] } } : State) ({ num := 0, victims := [1] } : Batch) = []) ∧ (({ num := 0, victims := [1] } : Batch).victims.any (bandWaits ({ LST with med.batch := some { num := 0, victims := [1] } } : State)) = false) ∧
    ((GCS : State).boot.fastStopped = false) ∧ ((GCS : State).saf.failSilent = false) ∧ ((GCS : State).pwr.doze = false) ∧ ((GCS : State).med.batch = some ({ num := 0, victims := [0], moves := [(1, 1, 0)] } : Batch)) ∧ (({ num := 0, victims := [0], moves := [(1, 1, 0)] } : Batch).step = 0) ∧ (victimBundles (GCS : State) ({ num := 0, victims := [0], moves := [(1, 1, 0)] } : Batch) ≠ []) ∧ (batchCopied (GCS : State) ({ num := 0, victims := [0], moves := [(1, 1, 0)] } : Batch) = true) ∧
    (({ LST with med.batch := some { num := 0, victims := [1], step := 1 } } : State).boot.fastStopped = false) ∧ (({ LST with med.batch := some { num := 0, victims := [1], step := 1 } } : State).saf.failSilent = false) ∧ (({ LST with med.batch := some { num := 0, victims := [1], step := 1 } } : State).pwr.doze = false) ∧ (({ LST with med.batch := some { num := 0, victims := [1], step := 1 } } : State).med.batch = some ({ num := 0, victims := [1], step := 1 } : Batch)) ∧ (({ num := 0, victims := [1], step := 1 } : Batch).step = 1) ∧ (batchCopied ({ LST with med.batch := some { num := 0, victims := [1], step := 1 } } : State) ({ num := 0, victims := [1], step := 1 } : Batch) = true) ∧ (({ num := 0, victims := [1], step := 1 } : Batch).moves.all (fun m => match segOf ({ LST with med.batch := some { num := 0, victims := [1], step := 1 } } : State) m.2.1 with | some x => x.state == 2 | none => false) = true) ∧ (opPending ({ LST with med.batch := some { num := 0, victims := [1], step := 1 } } : State) opxGc = false) ∧ (migrating ({ LST with med.batch := some { num := 0, victims := [1], step := 1 } } : State) = false) := by
  decide

set_option maxRecDepth 100000 in
/-- The hypotheses of MediaManagementCommands are met. -/
theorem test_met_MediaManagementCommands_1 :
    (({ LST with med.batch := some { num := 0, victims := [0], step := 2 } } : State).boot.fastStopped = false) ∧ (({ LST with med.batch := some { num := 0, victims := [0], step := 2 } } : State).saf.failSilent = false) ∧ (({ LST with med.batch := some { num := 0, victims := [0], step := 2 } } : State).pwr.doze = false) ∧ (({ LST with med.batch := some { num := 0, victims := [0], step := 2 } } : State).med.batch = some ({ num := 0, victims := [0], step := 2 } : Batch)) ∧ (({ num := 0, victims := [0], step := 2 } : Batch).step = 2) ∧ (({ num := 0, victims := [0], step := 2 } : Batch).victims.any (bandReads ({ LST with med.batch := some { num := 0, victims := [0], step := 2 } } : State)) = false) ∧ (({ num := 0, victims := [0], step := 2 } : Batch).victims.any (bandWaits ({ LST with med.batch := some { num := 0, victims := [0], step := 2 } } : State)) = false) ∧
    (({ LST with nv.bands := [{ num := 0, gen := 1, state := 4 }] } : State).boot.fastStopped = false) ∧ (({ LST with nv.bands := [{ num := 0, gen := 1, state := 4 }] } : State).saf.failSilent = false) ∧ (({ LST with nv.bands := [{ num := 0, gen := 1, state := 4 }] } : State).pwr.doze = false) ∧ (bandOf ({ LST with nv.bands := [{ num := 0, gen := 1, state := 4 }] } : State) (0 : Nat) = some ({ num := 0, gen := 1, state := 4 } : Band)) ∧ (({ num := 0, gen := 1, state := 4 } : Band).state = 4 ∨ ({ num := 0, gen := 1, state := 4 } : Band).state = 5) ∧ (worksSide ({ LST with nv.bands := [{ num := 0, gen := 1, state := 4 }] } : State) ({ num := 0, gen := 1, state := 4 } : Band).sideB = true) ∧ (bandWaits ({ LST with nv.bands := [{ num := 0, gen := 1, state := 4 }] } : State) (0 : Nat) = false) ∧ (({ num := 0, gen := 1, state := 4 } : Band).discard = false) ∧
    (({ LST with nv.segs := [{ num := 0, positions := [{ idx := 0, state := 2 }] }] } : State).boot.fastStopped = false) ∧ (({ LST with nv.segs := [{ num := 0, positions := [{ idx := 0, state := 2 }] }] } : State).saf.failSilent = false) ∧ (({ LST with nv.segs := [{ num := 0, positions := [{ idx := 0, state := 2 }] }] } : State).pwr.doze = false) ∧ (({ LST with nv.segs := [{ num := 0, positions := [{ idx := 0, state := 2 }] }] } : State).col.replayStep = 6) ∧ (({ LST with nv.segs := [{ num := 0, positions := [{ idx := 0, state := 2 }] }] } : State).med.patrolOwed = []) ∧ ((patrolStrips ({ LST with nv.segs := [{ num := 0, positions := [{ idx := 0, state := 2 }] }] } : State))[({ LST with nv.segs := [{ num := 0, positions := [{ idx := 0, state := 2 }] }] } : State).med.patrolPos]? = some ((0, 0) : Nat × Nat)) ∧
    (({ RDS with nv.segs := [{ num := 0, positions := [{ idx := 0, state := 2, spare := 1 }] }], med.patrolOwed := [(0, 0)] } : State).boot.fastStopped = false) ∧ (({ RDS with nv.segs := [{ num := 0, positions := [{ idx := 0, state := 2, spare := 1 }] }], med.patrolOwed := [(0, 0)] } : State).saf.failSilent = false) ∧ (({ RDS with nv.segs := [{ num := 0, positions := [{ idx := 0, state := 2, spare := 1 }] }], med.patrolOwed := [(0, 0)] } : State).pwr.doze = false) ∧ (({ RDS with nv.segs := [{ num := 0, positions := [{ idx := 0, state := 2, spare := 1 }] }], med.patrolOwed := [(0, 0)] } : State).col.replayStep = 6) ∧ (({ RDS with nv.segs := [{ num := 0, positions := [{ idx := 0, state := 2, spare := 1 }] }], med.patrolOwed := [(0, 0)] } : State).med.patrolOwed = [((0, 0) : Nat × Nat)]) ∧ ((patrolStrips ({ RDS with nv.segs := [{ num := 0, positions := [{ idx := 0, state := 2, spare := 1 }] }], med.patrolOwed := [(0, 0)] } : State)).contains ((0, 0) : Nat × Nat) = true) ∧ (patrolReads ({ RDS with nv.segs := [{ num := 0, positions := [{ idx := 0, state := 2, spare := 1 }] }], med.patrolOwed := [(0, 0)] } : State) ((0, 0) : Nat × Nat) = true) ∧
    ((LST : State).boot.fastStopped = false) ∧ ((LST : State).saf.failSilent = false) ∧ ((LST : State).med.patrolLate = false) ∧ ((LST : State).col.replayStep = 6) := by
  decide

set_option maxRecDepth 100000 in
/-- The hypotheses of MediaManagementCommands are met. -/
theorem test_met_MediaManagementCommands_2 :
    (({ LST with med.patrolLate := true } : State).boot.fastStopped = false) ∧ (({ LST with med.patrolLate := true } : State).saf.failSilent = false) ∧ (({ LST with med.patrolLate := true } : State).med.patrolLate = true) ∧
    ((LST : State).boot.fastStopped = false) ∧ ((LST : State).saf.failSilent = false) ∧ ((LST : State).pwr.doze = false) ∧ ((LST : State).col.accepting = true) ∧
    ((RDS : State).boot.fastStopped = false) ∧ ((RDS : State).saf.failSilent = false) ∧ ((RDS : State).pwr.doze = false) ∧ (packOf (RDS : State) (0 : Nat) = some ({ port := 0, geom := RDG, cond := 0 } : Pack)) ∧ (reached (RDS : State) (0 : Nat) = true) ∧ (disturbThreshold (RDS : State) ({ port := 0, geom := RDG, cond := 0 } : Pack) ≠ 0) ∧ (disturbThreshold (RDS : State) ({ port := 0, geom := RDG, cond := 0 } : Pack) / 2 ≤ readCount (RDS : State) (0 : Nat) (0 : Nat)) ∧
    ((WSS : State).boot.fastStopped = false) ∧ ((WSS : State).saf.failSilent = false) ∧ (wearApart (WSS : State) = true) ∧ ((WSS : State).med.wearSpread = false) ∧
    ((LST : State).boot.fastStopped = false) ∧ ((LST : State).saf.failSilent = false) ∧ (wearApart (LST : State) = false) := by
  decide

set_option maxRecDepth 100000 in
/-- The hypotheses of MediaManagementCommands are met. -/
theorem test_met_MediaManagementCommands_3 :
    ((State.reset : State).boot.fastStopped = false) ∧ ((State.reset : State).saf.failSilent = false) ∧
    (({ State.reset with hdl.holder := true, plem.cmds := [KP opSecureDiscard (zeros 24 ++ [7, 0, 0, 0, 0, 0, 0, 0] ++ zeros 8 ++ [8])], nv.domains := [{ num := 0 }], nv.volumes := [{ num := 7, size := 100 }] } : State).boot.fastStopped = false) ∧ (opCmd ({ State.reset with hdl.holder := true, plem.cmds := [KP opSecureDiscard (zeros 24 ++ [7, 0, 0, 0, 0, 0, 0, 0] ++ zeros 8 ++ [8])], nv.domains := [{ num := 0 }], nv.volumes := [{ num := 7, size := 100 }] } : State) (3 : Nat) (1 : Nat) opSecureDiscard = some (KP opSecureDiscard (zeros 24 ++ [7, 0, 0, 0, 0, 0, 0, 0] ++ zeros 8 ++ [8]) : Cmd)) ∧ (({ State.reset with hdl.holder := true, plem.cmds := [KP opSecureDiscard (zeros 24 ++ [7, 0, 0, 0, 0, 0, 0, 0] ++ zeros 8 ++ [8])], nv.domains := [{ num := 0 }], nv.volumes := [{ num := 7, size := 100 }] } : State).hdl.holder = true) ∧ (({ State.reset with hdl.holder := true, plem.cmds := [KP opSecureDiscard (zeros 24 ++ [7, 0, 0, 0, 0, 0, 0, 0] ++ zeros 8 ++ [8])], nv.domains := [{ num := 0 }], nv.volumes := [{ num := 7, size := 100 }] } : State).brd.port = []) ∧ (({ State.reset with hdl.holder := true, plem.cmds := [KP opSecureDiscard (zeros 24 ++ [7, 0, 0, 0, 0, 0, 0, 0] ++ zeros 8 ++ [8])], nv.domains := [{ num := 0 }], nv.volumes := [{ num := 7, size := 100 }] } : State).col.ends = []) ∧ (policyRefuses ({ State.reset with hdl.holder := true, plem.cmds := [KP opSecureDiscard (zeros 24 ++ [7, 0, 0, 0, 0, 0, 0, 0] ++ zeros 8 ++ [8])], nv.domains := [{ num := 0 }], nv.volumes := [{ num := 7, size := 100 }] } : State) = false) ∧ (volumeOf ({ State.reset with hdl.holder := true, plem.cmds := [KP opSecureDiscard (zeros 24 ++ [7, 0, 0, 0, 0, 0, 0, 0] ++ zeros 8 ++ [8])], nv.domains := [{ num := 0 }], nv.volumes := [{ num := 7, size := 100 }] } : State) (pk (KP opSecureDiscard (zeros 24 ++ [7, 0, 0, 0, 0, 0, 0, 0] ++ zeros 8 ++ [8]) : Cmd) 24 2) = some ({ num := 7, size := 100 } : Volume)) ∧ (domainOf ({ State.reset with hdl.holder := true, plem.cmds := [KP opSecureDiscard (zeros 24 ++ [7, 0, 0, 0, 0, 0, 0, 0] ++ zeros 8 ++ [8])], nv.domains := [{ num := 0 }], nv.volumes := [{ num := 7, size := 100 }] } : State) ({ num := 7, size := 100 } : Volume).domain = some ({ num := 0 } : Domain)) ∧ (({ num := 0 } : Domain).keyless = false) ∧ (pk (KP opSecureDiscard (zeros 24 ++ [7, 0, 0, 0, 0, 0, 0, 0] ++ zeros 8 ++ [8]) : Cmd) 32 8 + pk (KP opSecureDiscard (zeros 24 ++ [7, 0, 0, 0, 0, 0, 0, 0] ++ zeros 8 ++ [8]) : Cmd) 40 8 ≤ ({ num := 7, size := 100 } : Volume).size) ∧ (longOpOf ({ State.reset with hdl.holder := true, plem.cmds := [KP opSecureDiscard (zeros 24 ++ [7, 0, 0, 0, 0, 0, 0, 0] ++ zeros 8 ++ [8])], nv.domains := [{ num := 0 }], nv.volumes := [{ num := 7, size := 100 }] } : State) opSecureDiscard = none) ∧ (pk (KP opSecureDiscard (zeros 24 ++ [7, 0, 0, 0, 0, 0, 0, 0] ++ zeros 8 ++ [8]) : Cmd) 40 8 ≠ 0) ∧ (cutsLost ({ State.reset with hdl.holder := true, plem.cmds := [KP opSecureDiscard (zeros 24 ++ [7, 0, 0, 0, 0, 0, 0, 0] ++ zeros 8 ++ [8])], nv.domains := [{ num := 0 }], nv.volumes := [{ num := 7, size := 100 }] } : State) ({ num := 7, size := 100 } : Volume) (pk (KP opSecureDiscard (zeros 24 ++ [7, 0, 0, 0, 0, 0, 0, 0] ++ zeros 8 ++ [8]) : Cmd) 32 8) (pk (KP opSecureDiscard (zeros 24 ++ [7, 0, 0, 0, 0, 0, 0, 0] ++ zeros 8 ++ [8]) : Cmd) 40 8) = false) ∧ (peerNumbers ({ State.reset with hdl.holder := true, plem.cmds := [KP opSecureDiscard (zeros 24 ++ [7, 0, 0, 0, 0, 0, 0, 0] ++ zeros 8 ++ [8])], nv.domains := [{ num := 0 }], nv.volumes := [{ num := 7, size := 100 }] } : State) ([({ num := 7, size := 100 } : Volume).num, pk (KP opSecureDiscard (zeros 24 ++ [7, 0, 0, 0, 0, 0, 0, 0] ++ zeros 8 ++ [8]) : Cmd) 24 2]) = false) ∧ (locksOf ({ State.reset with hdl.holder := true, plem.cmds := [KP opSecureDiscard (zeros 24 ++ [7, 0, 0, 0, 0, 0, 0, 0] ++ zeros 8 ++ [8])], nv.domains := [{ num := 0 }], nv.volumes := [{ num := 7, size := 100 }] } : State) (.plem (KP opSecureDiscard (zeros 24 ++ [7, 0, 0, 0, 0, 0, 0, 0] ++ zeros 8 ++ [8]) : Cmd).ring (KP opSecureDiscard (zeros 24 ++ [7, 0, 0, 0, 0, 0, 0, 0] ++ zeros 8 ++ [8]) : Cmd).seq) = []) ∧ (plemLocks ({ State.reset with hdl.holder := true, plem.cmds := [KP opSecureDiscard (zeros 24 ++ [7, 0, 0, 0, 0, 0, 0, 0] ++ zeros 8 ++ [8])], nv.domains := [{ num := 0 }], nv.volumes := [{ num := 7, size := 100 }] } : State) + ([(pk (KP opSecureDiscard (zeros 24 ++ [7, 0, 0, 0, 0, 0, 0, 0] ++ zeros 8 ++ [8]) : Cmd) 24 2, pk (KP opSecureDiscard (zeros 24 ++ [7, 0, 0, 0, 0, 0, 0, 0] ++ zeros 8 ++ [8]) : Cmd) 32 8, pk (KP opSecureDiscard (zeros 24 ++ [7, 0, 0, 0, 0, 0, 0, 0] ++ zeros 8 ++ [8]) : Cmd) 32 8 + pk (KP opSecureDiscard (zeros 24 ++ [7, 0, 0, 0, 0, 0, 0, 0] ++ zeros 8 ++ [8]) : Cmd) 40 8 - 1, true)]).length ≤ 256) ∧ (({ State.reset with hdl.holder := true, plem.cmds := [KP opSecureDiscard (zeros 24 ++ [7, 0, 0, 0, 0, 0, 0, 0] ++ zeros 8 ++ [8])], nv.domains := [{ num := 0 }], nv.volumes := [{ num := 7, size := 100 }] } : State).rlk.locks.length + ([(pk (KP opSecureDiscard (zeros 24 ++ [7, 0, 0, 0, 0, 0, 0, 0] ++ zeros 8 ++ [8]) : Cmd) 24 2, pk (KP opSecureDiscard (zeros 24 ++ [7, 0, 0, 0, 0, 0, 0, 0] ++ zeros 8 ++ [8]) : Cmd) 32 8, pk (KP opSecureDiscard (zeros 24 ++ [7, 0, 0, 0, 0, 0, 0, 0] ++ zeros 8 ++ [8]) : Cmd) 32 8 + pk (KP opSecureDiscard (zeros 24 ++ [7, 0, 0, 0, 0, 0, 0, 0] ++ zeros 8 ++ [8]) : Cmd) 40 8 - 1, true)]).length ≤ 65536) ∧
    (({ S1 opSecureDiscard with hdl.holder := true } : State).boot.fastStopped = false) ∧ (opCmd ({ S1 opSecureDiscard with hdl.holder := true } : State) (3 : Nat) (1 : Nat) opSecureDiscard = some (K opSecureDiscard : Cmd)) ∧ (({ S1 opSecureDiscard with hdl.holder := true } : State).hdl.holder = true) ∧ (({ S1 opSecureDiscard with hdl.holder := true } : State).brd.port = []) ∧ (({ S1 opSecureDiscard with hdl.holder := true } : State).col.ends = []) ∧ (volumeOf ({ S1 opSecureDiscard with hdl.holder := true } : State) (pk (K opSecureDiscard : Cmd) 24 2) = none) ∧
    ((({ nums := [7, 0, 8, 0] } : Decision) : Decision).nums = [(7 : Nat), (0 : Nat), (8 : Nat), (0 : Nat)]) ∧
    ((S1 opMediaHealth : State).boot.fastStopped = false) ∧ (opCmd (S1 opMediaHealth : State) (3 : Nat) (1 : Nat) opMediaHealth = some (K opMediaHealth : Cmd)) := by
  decide

set_option maxRecDepth 100000 in
/-- The hypotheses of StakeLinkLayer are met. -/
theorem test_met_StakeLinkLayer_0 :
    (({ State.reset with stk.ports := [{ num := 0, link := 4 }] } : State).boot.fastStopped = false) ∧ ((0 : Nat) < 64) ∧ (({ State.reset with stk.ports := [{ num := 0, link := 4 }] } : State).saf.failSilent = false) ∧ (({ State.reset with stk.ports := [{ num := 0, link := 4 }] } : State).hdl.bridge = false) ∧ ((portOf ({ State.reset with stk.ports := [{ num := 0, link := 4 }] } : State) (0 : Nat)).link = 4) ∧
    (({ State.reset with stk.ports := [{ num := 0, link := 2 }] } : State).boot.fastStopped = false) ∧ ((0 : Nat) < 64) ∧ (({ State.reset with stk.ports := [{ num := 0, link := 2 }] } : State).saf.failSilent = false) ∧ (({ State.reset with stk.ports := [{ num := 0, link := 2 }] } : State).hdl.bridge = false) ∧ ((portOf ({ State.reset with stk.ports := [{ num := 0, link := 2 }] } : State) (0 : Nat)).link = 2) ∧
    (({ State.reset with stk.ports := [{ num := 0, link := 2 }] } : State).boot.fastStopped = false) ∧ (({ State.reset with stk.ports := [{ num := 0, link := 2 }] } : State).saf.failSilent = false) ∧ ((portOf ({ State.reset with stk.ports := [{ num := 0, link := 2 }] } : State) (0 : Nat)).link = 2) ∧ ((0 : Nat) < 64) ∧
    (({ State.reset with stk.ports := [{ num := 0, link := 3 }] } : State).boot.fastStopped = false) ∧ (({ State.reset with stk.ports := [{ num := 0, link := 3 }] } : State).saf.failSilent = false) ∧ (frameOf ([2] : List Byte) = (frameOf ([2]) : Frame)) ∧ ((portOf ({ State.reset with stk.ports := [{ num := 0, link := 3 }] } : State) (0 : Nat)).link = 3) ∧ ((0 : Nat) < 64) ∧ (frameCorrupt 4096 (frameOf ([2]) : Frame) = true) ∧ ((portOf ({ State.reset with stk.ports := [{ num := 0, link := 3 }] } : State) (0 : Nat)).dl.nakOut = false) ∧
    (({ State.reset with stk.ports := [{ num := 0, link := 3 }] } : State).boot.fastStopped = false) ∧ (({ State.reset with stk.ports := [{ num := 0, link := 3 }] } : State).saf.failSilent = false) ∧ (frameOf (frameBytes 0 (frameHead 1 0 false 0 0 0 0 0) [] : List Byte) = (frameOf (frameBytes 0 (frameHead 1 0 false 0 0 0 0 0) []) : Frame)) ∧ ((portOf ({ State.reset with stk.ports := [{ num := 0, link := 3 }] } : State) (0 : Nat)).link = 3) ∧ ((0 : Nat) < 64) ∧ (frameCorrupt 4096 (frameOf (frameBytes 0 (frameHead 1 0 false 0 0 0 0 0) []) : Frame) = false) ∧ ((frameOf (frameBytes 0 (frameHead 1 0 false 0 0 0 0 0) []) : Frame).rsvdZero = false ∨ vcCarries (frameOf (frameBytes 0 (frameHead 1 0 false 0 0 0 0 0) []) : Frame) = false) := by
  decide

set_option maxRecDepth 100000 in
/-- The hypotheses of StakeLinkLayer are met. -/
theorem test_met_StakeLinkLayer_1 :
    (({ State.reset with stk.ports := [{ num := 0, link := 3, dl := { granted := firstGrants } }] } : State).boot.fastStopped = false) ∧ (({ State.reset with stk.ports := [{ num := 0, link := 3, dl := { granted := firstGrants } }] } : State).saf.failSilent = false) ∧ (frameOf (frameBytes 0 (frameHead 2 2 false 0 0 0 0 0) [] : List Byte) = (frameOf (frameBytes 0 (frameHead 2 2 false 0 0 0 0 0) []) : Frame)) ∧ ((portOf ({ State.reset with stk.ports := [{ num := 0, link := 3, dl := { granted := firstGrants } }] } : State) (0 : Nat)).link = 3) ∧ ((0 : Nat) < 64) ∧ (frameCorrupt 4096 (frameOf (frameBytes 0 (frameHead 2 2 false 0 0 0 0 0) []) : Frame) = false) ∧ ((frameOf (frameBytes 0 (frameHead 2 2 false 0 0 0 0 0) []) : Frame).rsvdZero = true) ∧ (vcCarries (frameOf (frameBytes 0 (frameHead 2 2 false 0 0 0 0 0) []) : Frame) = true) ∧ ((frameOf (frameBytes 0 (frameHead 2 2 false 0 0 0 0 0) []) : Frame).seq = (portOf ({ State.reset with stk.ports := [{ num := 0, link := 3, dl := { granted := firstGrants } }] } : State) (0 : Nat)).dl.rxSeq) ∧ ((frameOf (frameBytes 0 (frameHead 2 2 false 0 0 0 0 0) []) : Frame).seq < 65536) ∧ (covered (creditOf (portOf ({ State.reset with stk.ports := [{ num := 0, link := 3, dl := { granted := firstGrants } }] } : State) (0 : Nat)).dl.granted (frameOf (frameBytes 0 (frameHead 2 2 false 0 0 0 0 0) []) : Frame).vc) (frameOf (frameBytes 0 (frameHead 2 2 false 0 0 0 0 0) []) : Frame).len = true) ∧
    (({ State.reset with stk.ports := [{ num := 0, link := 3, dl := { rxSeq := 1 } }] } : State).boot.fastStopped = false) ∧ (({ State.reset with stk.ports := [{ num := 0, link := 3, dl := { rxSeq := 1 } }] } : State).saf.failSilent = false) ∧ (frameOf (frameBytes 0 (frameHead 2 2 false 0 0 0 0 0) [] : List Byte) = (frameOf (frameBytes 0 (frameHead 2 2 false 0 0 0 0 0) []) : Frame)) ∧ ((portOf ({ State.reset with stk.ports := [{ num := 0, link := 3, dl := { rxSeq := 1 } }] } : State) (0 : Nat)).link = 3) ∧ ((0 : Nat) < 64) ∧ (frameCorrupt 4096 (frameOf (frameBytes 0 (frameHead 2 2 false 0 0 0 0 0) []) : Frame) = false) ∧ ((frameOf (frameBytes 0 (frameHead 2 2 false 0 0 0 0 0) []) : Frame).rsvdZero = true) ∧ (vcCarries (frameOf (frameBytes 0 (frameHead 2 2 false 0 0 0 0 0) []) : Frame) = true) ∧ (32768 ≤ ((frameOf (frameBytes 0 (frameHead 2 2 false 0 0 0 0 0) []) : Frame).seq + 65536 - (portOf ({ State.reset with stk.ports := [{ num := 0, link := 3, dl := { rxSeq := 1 } }] } : State) (0 : Nat)).dl.rxSeq) % 65536) ∧
    (({ State.reset with stk.ports := [{ num := 0, link := 3 }] } : State).boot.fastStopped = false) ∧ (({ State.reset with stk.ports := [{ num := 0, link := 3 }] } : State).saf.failSilent = false) ∧ (frameOf (frameBytes 1 (frameHead 2 2 false 0 0 0 0 0) [] : List Byte) = (frameOf (frameBytes 1 (frameHead 2 2 false 0 0 0 0 0) []) : Frame)) ∧ ((portOf ({ State.reset with stk.ports := [{ num := 0, link := 3 }] } : State) (0 : Nat)).link = 3) ∧ ((0 : Nat) < 64) ∧ (frameCorrupt 4096 (frameOf (frameBytes 1 (frameHead 2 2 false 0 0 0 0 0) []) : Frame) = false) ∧ ((frameOf (frameBytes 1 (frameHead 2 2 false 0 0 0 0 0) []) : Frame).rsvdZero = true) ∧ (vcCarries (frameOf (frameBytes 1 (frameHead 2 2 false 0 0 0 0 0) []) : Frame) = true) ∧ (0 < ((frameOf (frameBytes 1 (frameHead 2 2 false 0 0 0 0 0) []) : Frame).seq + 65536 - (portOf ({ State.reset with stk.ports := [{ num := 0, link := 3 }] } : State) (0 : Nat)).dl.rxSeq) % 65536) ∧ (((frameOf (frameBytes 1 (frameHead 2 2 false 0 0 0 0 0) []) : Frame).seq + 65536 - (portOf ({ State.reset with stk.ports := [{ num := 0, link := 3 }] } : State) (0 : Nat)).dl.rxSeq) % 65536 < 32768) ∧
    (({ State.reset with stk.ports := [{ num := 0, link := 3 }] } : State).boot.fastStopped = false) ∧ (({ State.reset with stk.ports := [{ num := 0, link := 3 }] } : State).saf.failSilent = false) ∧ ((portOf ({ State.reset with stk.ports := [{ num := 0, link := 3 }] } : State) (0 : Nat)).link = 3) ∧
    (({ State.reset with stk.ports := [{ num := 0, link := 3, dl := { replay := [{ seq := 0, bytes := 32 }] } }] } : State).boot.fastStopped = false) ∧ (({ State.reset with stk.ports := [{ num := 0, link := 3, dl := { replay := [{ seq := 0, bytes := 32 }] } }] } : State).saf.failSilent = false) ∧ ((portOf ({ State.reset with stk.ports := [{ num := 0, link := 3, dl := { replay := [{ seq := 0, bytes := 32 }] } }] } : State) (0 : Nat)).link = 3) ∧ ((portOf ({ State.reset with stk.ports := [{ num := 0, link := 3, dl := { replay := [{ seq := 0, bytes := 32 }] } }] } : State) (0 : Nat)).dl.replay.any (fun f => f.seq == (0 : Nat)) = true) := by
  decide

set_option maxRecDepth 100000 in
/-- The hypotheses of StakeLinkLayer are met. -/
theorem test_met_StakeLinkLayer_2 :
    (({ State.reset with stk.ports := [{ num := 0, link := 3 }] } : State).boot.fastStopped = false) ∧ (({ State.reset with stk.ports := [{ num := 0, link := 3 }] } : State).saf.failSilent = false) ∧ ((portOf ({ State.reset with stk.ports := [{ num := 0, link := 3 }] } : State) (0 : Nat)).link = 3) ∧ ((portOf ({ State.reset with stk.ports := [{ num := 0, link := 3 }] } : State) (0 : Nat)).dl.replay.any (fun f => f.seq == (0 : Nat)) = false) ∧
    (({ State.reset with stk.ports := [{ num := 0, link := 3 }] } : State).boot.fastStopped = false) ∧ (({ State.reset with stk.ports := [{ num := 0, link := 3 }] } : State).saf.failSilent = false) ∧ ((portOf ({ State.reset with stk.ports := [{ num := 0, link := 3 }] } : State) (0 : Nat)).link = 3) ∧ ((0 : Nat) ≤ 3) ∧
    (({ State.reset with stk.ports := [{ num := 0, link := 3 }] } : State).boot.fastStopped = false) ∧ (({ State.reset with stk.ports := [{ num := 0, link := 3 }] } : State).saf.failSilent = false) ∧ ((portOf ({ State.reset with stk.ports := [{ num := 0, link := 3 }] } : State) (0 : Nat)).link = 3) ∧
    (({ State.reset with stk.ports := [{ num := 0, link := 3 }] } : State).boot.fastStopped = false) ∧ (({ State.reset with stk.ports := [{ num := 0, link := 3 }] } : State).saf.failSilent = false) ∧ ((portOf ({ State.reset with stk.ports := [{ num := 0, link := 3 }] } : State) (0 : Nat)).link = 3) ∧
    (({ State.reset with stk.ports := [{ num := 0, link := 3 }] } : State).boot.fastStopped = false) ∧ (({ State.reset with stk.ports := [{ num := 0, link := 3 }] } : State).saf.failSilent = false) ∧ ((portOf ({ State.reset with stk.ports := [{ num := 0, link := 3 }] } : State) (0 : Nat)).link = 3) := by
  decide

set_option maxRecDepth 100000 in
/-- The hypotheses of StakeLinkLayer are met. -/
theorem test_met_StakeLinkLayer_3 :
    (({ State.reset with stk.ports := [{ num := 0, link := 4 }] } : State).boot.fastStopped = false) ∧ (({ State.reset with stk.ports := [{ num := 0, link := 4 }] } : State).saf.failSilent = false) ∧ ((portOf ({ State.reset with stk.ports := [{ num := 0, link := 4 }] } : State) (0 : Nat)).link = 4) ∧
    (({ State.reset with stk.ports := [{ num := 0, link := 3, dl := { replay := [{ seq := 0, bytes := 32 }] } }] } : State).boot.fastStopped = false) ∧ (({ State.reset with stk.ports := [{ num := 0, link := 3, dl := { replay := [{ seq := 0, bytes := 32 }] } }] } : State).saf.failSilent = false) ∧ ((portOf ({ State.reset with stk.ports := [{ num := 0, link := 3, dl := { replay := [{ seq := 0, bytes := 32 }] } }] } : State) (0 : Nat)).link = 3) ∧ ((portOf ({ State.reset with stk.ports := [{ num := 0, link := 3, dl := { replay := [{ seq := 0, bytes := 32 }] } }] } : State) (0 : Nat)).dl.replay ≠ []) := by
  decide

set_option maxRecDepth 100000 in
/-- The hypotheses of StakeResponsesAndPackFirmware are met. -/
theorem test_met_StakeResponsesAndPackFirmware_0 :
    (({ State.reset with stk.ports := [{ num := 0, link := 3, startStep := 4, reqs := [{ tag := 1, cmd := 1 }] }] } : State).boot.fastStopped = false) ∧ (({ State.reset with stk.ports := [{ num := 0, link := 3, startStep := 4, reqs := [{ tag := 1, cmd := 1 }] }] } : State).saf.failSilent = false) ∧ (reqOf ({ State.reset with stk.ports := [{ num := 0, link := 3, startStep := 4, reqs := [{ tag := 1, cmd := 1 }] }] } : State) (0 : Nat) (1 : Nat) 1 = some ({ tag := 1, cmd := 1 } : Req)) ∧
    (({ State.reset with stk.ports := [{ num := 0, link := 3, startStep := 4, reqs := [{ tag := 1, cmd := 2 }] }] } : State).boot.fastStopped = false) ∧ (({ State.reset with stk.ports := [{ num := 0, link := 3, startStep := 4, reqs := [{ tag := 1, cmd := 2 }] }] } : State).saf.failSilent = false) ∧ (reqOf ({ State.reset with stk.ports := [{ num := 0, link := 3, startStep := 4, reqs := [{ tag := 1, cmd := 2 }] }] } : State) (0 : Nat) (1 : Nat) 2 = some ({ tag := 1, cmd := 2 } : Req)) ∧
    (({ State.reset with stk.ports := [{ num := 0, link := 3, startStep := 4, reqs := [{ tag := 1, cmd := 48 }] }] } : State).boot.fastStopped = false) ∧ (({ State.reset with stk.ports := [{ num := 0, link := 3, startStep := 4, reqs := [{ tag := 1, cmd := 48 }] }] } : State).saf.failSilent = false) ∧ (reqOf ({ State.reset with stk.ports := [{ num := 0, link := 3, startStep := 4, reqs := [{ tag := 1, cmd := 48 }] }] } : State) (0 : Nat) (1 : Nat) 48 = some ({ tag := 1, cmd := 48 } : Req)) ∧
    (({ State.reset with stk.ports := [{ num := 0, link := 3, startStep := 4, reqs := [{ tag := 1, cmd := 32 }] }] } : State).boot.fastStopped = false) ∧ (({ State.reset with stk.ports := [{ num := 0, link := 3, startStep := 4, reqs := [{ tag := 1, cmd := 32 }] }] } : State).saf.failSilent = false) ∧ (reqOf ({ State.reset with stk.ports := [{ num := 0, link := 3, startStep := 4, reqs := [{ tag := 1, cmd := 32 }] }] } : State) (0 : Nat) (1 : Nat) 32 = some ({ tag := 1, cmd := 32 } : Req)) ∧
    (({ State.reset with stk.ports := [{ num := 0, link := 3, startStep := 4, reqs := [{ tag := 1, cmd := 16 }] }] } : State).boot.fastStopped = false) ∧ (({ State.reset with stk.ports := [{ num := 0, link := 3, startStep := 4, reqs := [{ tag := 1, cmd := 16 }] }] } : State).saf.failSilent = false) ∧ (reqOf ({ State.reset with stk.ports := [{ num := 0, link := 3, startStep := 4, reqs := [{ tag := 1, cmd := 16 }] }] } : State) (0 : Nat) (1 : Nat) 16 = some ({ tag := 1, cmd := 16 } : Req)) := by
  decide

set_option maxRecDepth 100000 in
/-- The hypotheses of StakeResponsesAndPackFirmware are met. -/
theorem test_met_StakeResponsesAndPackFirmware_1 :
    (({ State.reset with stk.ports := [{ num := 0, link := 3, startStep := 4, reqs := [{ tag := 1, cmd := 17 }] }] } : State).boot.fastStopped = false) ∧ (({ State.reset with stk.ports := [{ num := 0, link := 3, startStep := 4, reqs := [{ tag := 1, cmd := 17 }] }] } : State).saf.failSilent = false) ∧ (reqOf ({ State.reset with stk.ports := [{ num := 0, link := 3, startStep := 4, reqs := [{ tag := 1, cmd := 17 }] }] } : State) (0 : Nat) (1 : Nat) 17 = some ({ tag := 1, cmd := 17 } : Req)) ∧
    (({ State.reset with stk.ports := [{ num := 0, link := 3, startStep := 4, reqs := [{ tag := 1, cmd := 18 }] }] } : State).boot.fastStopped = false) ∧ (({ State.reset with stk.ports := [{ num := 0, link := 3, startStep := 4, reqs := [{ tag := 1, cmd := 18 }] }] } : State).saf.failSilent = false) ∧ (reqOf ({ State.reset with stk.ports := [{ num := 0, link := 3, startStep := 4, reqs := [{ tag := 1, cmd := 18 }] }] } : State) (0 : Nat) (1 : Nat) 18 = some ({ tag := 1, cmd := 18 } : Req)) ∧
    (({ State.reset with stk.ports := [{ num := 0, link := 3, startStep := 4, reqs := [{ tag := 1, cmd := 33 }] }] } : State).boot.fastStopped = false) ∧ (({ State.reset with stk.ports := [{ num := 0, link := 3, startStep := 4, reqs := [{ tag := 1, cmd := 33 }] }] } : State).saf.failSilent = false) ∧ (reqOf ({ State.reset with stk.ports := [{ num := 0, link := 3, startStep := 4, reqs := [{ tag := 1, cmd := 33 }] }] } : State) (0 : Nat) (1 : Nat) 33 = some ({ tag := 1, cmd := 33 } : Req)) ∧
    (({ State.reset with stk.ports := [{ num := 0, link := 3, startStep := 4, reqs := [{ tag := 1, cmd := 49 }] }] } : State).boot.fastStopped = false) ∧ (({ State.reset with stk.ports := [{ num := 0, link := 3, startStep := 4, reqs := [{ tag := 1, cmd := 49 }] }] } : State).saf.failSilent = false) ∧ (reqOf ({ State.reset with stk.ports := [{ num := 0, link := 3, startStep := 4, reqs := [{ tag := 1, cmd := 49 }] }] } : State) (0 : Nat) (1 : Nat) 49 = some ({ tag := 1, cmd := 49 } : Req)) ∧
    ((portOf ({ State.reset with stk.ports := [{ num := 0, link := 3 }] } : State) (0 : Nat)).link = 3) ∧ ((portOf ({ State.reset with stk.ports := [{ num := 0, link := 3 }] } : State) (0 : Nat)).startStep = 0) ∧ (({ identity := 5 } : Ident).arrival = (if ({ State.reset with stk.ports := [{ num := 0, link := 3 }] } : State).aon.side then 1 else 0)) ∧ (({ identity := 5 } : Ident).protoMajor = 1) ∧ (({ identity := 5 } : Ident).closed = false) := by
  decide

set_option maxRecDepth 100000 in
/-- The hypotheses of StakeResponsesAndPackFirmware are met. -/
theorem test_met_StakeResponsesAndPackFirmware_2 :
    (({ tag := 1, cmd := 16 } : Req).why ≠ 5) ∧
    (({ tag := 1, cmd := 16 } : Req).why ≠ 5) ∧
    (({ tag := 1, cmd := 17 } : Req).why = 0) ∧ (segOf ({ LST with nv.segs := [{ num := 0, positions := [{ idx := 0, state := 1 }] }] } : State) ({ tag := 1, cmd := 17 } : Req).seg = some ({ num := 0, positions := [{ idx := 0, state := 1 }] } : Segment)) ∧ (segGen ({ LST with nv.segs := [{ num := 0, positions := [{ idx := 0, state := 1 }] }] } : State) ({ tag := 1, cmd := 17 } : Req).seg = some (LSG : Gen)) ∧ (({ tag := 1, cmd := 17 } : Req).pos < (LSG : Gen).d) ∧ ((posOf ({ num := 0, positions := [{ idx := 0, state := 1 }] } : Segment) ({ tag := 1, cmd := 17 } : Req).pos).state = 1) ∧
    (({ tag := 1, cmd := 18 } : Req).why ≠ 7) ∧
    (({ State.reset with stk.ports := [{ num := 0, link := 3, reqs := [{ tag := 1, cmd := 0x31, held := true }] }] } : State).boot.fastStopped = false) ∧ (({ State.reset with stk.ports := [{ num := 0, link := 3, reqs := [{ tag := 1, cmd := 0x31, held := true }] }] } : State).saf.failSilent = false) ∧ (reqOf ({ State.reset with stk.ports := [{ num := 0, link := 3, reqs := [{ tag := 1, cmd := 0x31, held := true }] }] } : State) (0 : Nat) (1 : Nat) 0x31 = none) ∧ ((portOf ({ State.reset with stk.ports := [{ num := 0, link := 3, reqs := [{ tag := 1, cmd := 0x31, held := true }] }] } : State) (0 : Nat)).reqs.any (fun q => q.tag == (1 : Nat) && q.cmd == 0x31 && q.held) = true) := by
  decide

set_option maxRecDepth 100000 in
/-- The hypotheses of StakeResponsesAndPackFirmware are met. -/
theorem test_met_StakeResponsesAndPackFirmware_3 :
    (({ State.reset with stk.ports := [{ num := 0, link := 3, startStep := 4, reqs := [{ tag := 1, cmd := 0x11 }] }] } : State).boot.fastStopped = false) ∧ (({ State.reset with stk.ports := [{ num := 0, link := 3, startStep := 4, reqs := [{ tag := 1, cmd := 0x11 }] }] } : State).saf.failSilent = false) ∧ (((portOf ({ State.reset with stk.ports := [{ num := 0, link := 3, startStep := 4, reqs := [{ tag := 1, cmd := 0x11 }] }] } : State) (0 : Nat)).reqs.find? fun q => q.tag == (1 : Nat) && !q.held) = some ({ tag := 1, cmd := 0x11 } : Req)) ∧ (({ tag := 1, cmd := 0x11 } : Req).cmd = 0x11) ∧
    (({ S1 opPackFwLoad with hdl.holder := true, nv.flash.packState := 1, stk.ports := [{ num := 0, link := 3, startStep := 4 }] } : State).boot.fastStopped = false) ∧ (opCmd ({ S1 opPackFwLoad with hdl.holder := true, nv.flash.packState := 1, stk.ports := [{ num := 0, link := 3, startStep := 4 }] } : State) (3 : Nat) (1 : Nat) opPackFwLoad = some (K opPackFwLoad : Cmd)) ∧ (({ S1 opPackFwLoad with hdl.holder := true, nv.flash.packState := 1, stk.ports := [{ num := 0, link := 3, startStep := 4 }] } : State).brd.port = []) ∧ (({ S1 opPackFwLoad with hdl.holder := true, nv.flash.packState := 1, stk.ports := [{ num := 0, link := 3, startStep := 4 }] } : State).hdl.holder = true) ∧ (longOpOf ({ S1 opPackFwLoad with hdl.holder := true, nv.flash.packState := 1, stk.ports := [{ num := 0, link := 3, startStep := 4 }] } : State) opPackFwLoad = none) ∧ (({ S1 opPackFwLoad with hdl.holder := true, nv.flash.packState := 1, stk.ports := [{ num := 0, link := 3, startStep := 4 }] } : State).nv.flash.packState ≠ 0) ∧ (started ({ S1 opPackFwLoad with hdl.holder := true, nv.flash.packState := 1, stk.ports := [{ num := 0, link := 3, startStep := 4 }] } : State) (pk (K opPackFwLoad : Cmd) 24 1) = true) ∧ (otherPackBusy ({ S1 opPackFwLoad with hdl.holder := true, nv.flash.packState := 1, stk.ports := [{ num := 0, link := 3, startStep := 4 }] } : State) (pk (K opPackFwLoad : Cmd) 24 1) = none) ∧
    ((S1 opPackFwLoad : State).boot.fastStopped = false) ∧ (opCmd (S1 opPackFwLoad : State) (3 : Nat) (1 : Nat) opPackFwLoad = some (K opPackFwLoad : Cmd)) ∧ ((S1 opPackFwLoad : State).brd.port = []) ∧ ((S1 opPackFwLoad : State).hdl.holder = false) ∧
    ((({ nums := [0] } : Decision) : Decision).nums = [(0 : Nat)]) ∧
    (({ LST with fw.packLoadPort := some 0 } : State).boot.fastStopped = false) ∧ (({ LST with fw.packLoadPort := some 0 } : State).saf.failSilent = false) ∧ (({ LST with fw.packLoadPort := some 0 } : State).fw.packLoadPort = some (0 : Nat)) := by
  decide

set_option maxRecDepth 100000 in
/-- The hypotheses of PeerPairingAndLink are met. -/
theorem test_met_PeerPairingAndLink_0 :
    (({ State.reset with hdl.linkUp := true } : State).boot.fastStopped = false) ∧ (({ State.reset with hdl.linkUp := true } : State).saf.failSilent = false) ∧ ((if ({ side := false, protoMajor := 0, protoMinor := 0 } : Hello).viaLegacy then class3Ready ({ State.reset with hdl.linkUp := true } : State) else ({ State.reset with hdl.linkUp := true } : State).hdl.linkUp) = true) ∧
    (({ State.reset with brd.aliasReady := true } : State).brd.aliasReady = true) ∧ (helloFails ({ State.reset with brd.aliasReady := true } : State) ({ side := false, protoMajor := 0, protoMinor := 0 } : Hello) = some (2 : Nat)) ∧
    (({ State.reset with brd.aliasReady := true } : State).brd.aliasReady = true) ∧ (helloFails ({ State.reset with brd.aliasReady := true } : State) ({ side := true, protoMajor := 0, protoMinor := 0, ownerRoot := State.reset.nv.fuses.ownerRoot } : Hello) = none) ∧
    ((State.reset : State).brd.aliasReady = false) ∧
    (({ format := 2, side := true, protoMajor := 0, protoMinor := 0 } : Hello).format ≠ 1) := by
  decide

set_option maxRecDepth 100000 in
/-- The hypotheses of PeerPairingAndLink are met. -/
theorem test_met_PeerPairingAndLink_1 :
    (({ side := false, protoMajor := 0, protoMinor := 0 } : Hello).format = 1) ∧ (({ side := false, protoMajor := 0, protoMinor := 0 } : Hello).chip = 1) ∧ (({ side := false, protoMajor := 0, protoMinor := 0 } : Hello).side = (State.reset : State).aon.side) ∧
    (({ side := true, protoMajor := 0, protoMinor := 0, chainOk := false } : Hello).format = 1) ∧ (({ side := true, protoMajor := 0, protoMinor := 0, chainOk := false } : Hello).chip = 1) ∧ (({ side := true, protoMajor := 0, protoMinor := 0, chainOk := false } : Hello).side ≠ (State.reset : State).aon.side) ∧ (({ side := true, protoMajor := 0, protoMinor := 0, chainOk := false } : Hello).chainOk = false) ∧
    (({ side := true, protoMajor := 0, protoMinor := 0, ownerRoot := [1] } : Hello).format = 1) ∧ (({ side := true, protoMajor := 0, protoMinor := 0, ownerRoot := [1] } : Hello).chip = 1) ∧ (({ side := true, protoMajor := 0, protoMinor := 0, ownerRoot := [1] } : Hello).side ≠ (State.reset : State).aon.side) ∧ (({ side := true, protoMajor := 0, protoMinor := 0, ownerRoot := [1] } : Hello).chainOk = true) ∧ (({ side := true, protoMajor := 0, protoMinor := 0, ownerRoot := [1] } : Hello).ownerRoot ≠ (State.reset : State).nv.fuses.ownerRoot) ∧
    (({ State.reset with hdl.peerHello := some { side := true, protoMajor := 0, protoMinor := 0 }, hdl.confirmSent := true } : State).boot.fastStopped = false) ∧ (({ State.reset with hdl.peerHello := some { side := true, protoMajor := 0, protoMinor := 0 }, hdl.confirmSent := true } : State).hdl.peerHello = some ({ side := true, protoMajor := 0, protoMinor := 0 } : Hello)) ∧ (({ State.reset with hdl.peerHello := some { side := true, protoMajor := 0, protoMinor := 0 }, hdl.confirmSent := true } : State).hdl.paired = false) ∧ (({ State.reset with hdl.peerHello := some { side := true, protoMajor := 0, protoMinor := 0 }, hdl.confirmSent := true } : State).hdl.confirmSent = true) ∧ (({ State.reset with hdl.peerHello := some { side := true, protoMajor := 0, protoMinor := 0 }, hdl.confirmSent := true } : State).saf.failSilent = false) ∧
    (({ State.reset with hdl.peerHello := some { side := true, protoMajor := 0, protoMinor := 0 }, hdl.confirmSent := true } : State).boot.fastStopped = false) ∧ (({ State.reset with hdl.peerHello := some { side := true, protoMajor := 0, protoMinor := 0 }, hdl.confirmSent := true } : State).hdl.peerHello = some ({ side := true, protoMajor := 0, protoMinor := 0 } : Hello)) ∧ (({ State.reset with hdl.peerHello := some { side := true, protoMajor := 0, protoMinor := 0 }, hdl.confirmSent := true } : State).hdl.paired = false) ∧ (({ State.reset with hdl.peerHello := some { side := true, protoMajor := 0, protoMinor := 0 }, hdl.confirmSent := true } : State).hdl.confirmSent = true) ∧ (({ State.reset with hdl.peerHello := some { side := true, protoMajor := 0, protoMinor := 0 }, hdl.confirmSent := true } : State).saf.failSilent = false) := by
  decide

set_option maxRecDepth 100000 in
/-- The hypotheses of PeerPairingAndLink are met. -/
theorem test_met_PeerPairingAndLink_2 :
    (({ State.reset with hdl.linkUp := true } : State).boot.fastStopped = false) ∧ (({ State.reset with hdl.linkUp := true } : State).saf.failSilent = false) ∧ (peerPath ({ State.reset with hdl.linkUp := true } : State) = true) ∧
    (({ State.reset with hdl.linkUp := true, hdl.pairReason := 2 } : State).boot.fastStopped = false) ∧ (({ State.reset with hdl.linkUp := true, hdl.pairReason := 2 } : State).hdl.paired = false) ∧ (({ State.reset with hdl.linkUp := true, hdl.pairReason := 2 } : State).saf.failSilent = false) ∧ (peerPath ({ State.reset with hdl.linkUp := true, hdl.pairReason := 2 } : State) = true) ∧ (({ State.reset with hdl.linkUp := true, hdl.pairReason := 2 } : State).hdl.pairReason ≠ 0 ∨ ({ State.reset with hdl.linkUp := true, hdl.pairReason := 2 } : State).hdl.helloDue = true) ∧ (({ State.reset with hdl.linkUp := true, hdl.pairReason := 2 } : State).hdl.peerHello = none) ∧
    (({ State.reset with hdl.training := true } : State).boot.fastStopped = false) ∧ (({ State.reset with hdl.training := true } : State).hdl.training = true) ∧ (({ State.reset with hdl.training := true } : State).saf.failSilent = false) ∧ (pidVal ({ State.reset with hdl.training := true } : State) 0x0D11 ≠ 1) ∧ (halfAligned (65535 : Nat) = true) ∧ (({ State.reset with hdl.training := true } : State).hdl.paired = false) ∧
    ((State.reset : State).boot.fastStopped = false) ∧ ((State.reset : State).saf.failSilent = false) ∧
    ((State.reset : State).boot.fastStopped = false) ∧ ((State.reset : State).saf.failSilent = false) ∧ ((State.reset : State).hdl.linkUp = false) ∧ (viaConn (State.reset : State) = false) := by
  decide

set_option maxRecDepth 100000 in
/-- The hypotheses of PeerPairingAndLink are met. -/
theorem test_met_PeerPairingAndLink_3 :
    (({ State.reset with hdl.linkUp := true } : State).boot.fastStopped = false) ∧ (({ State.reset with hdl.linkUp := true } : State).saf.failSilent = false) ∧ (peerPath ({ State.reset with hdl.linkUp := true } : State) = true) ∧
    (({ State.reset with hdl.paired := true, hdl.framesSent := 2 ^ 31 } : State).boot.fastStopped = false) ∧ (({ State.reset with hdl.paired := true, hdl.framesSent := 2 ^ 31 } : State).saf.failSilent = false) ∧ (({ State.reset with hdl.paired := true, hdl.framesSent := 2 ^ 31 } : State).hdl.paired = true) ∧ (({ State.reset with hdl.paired := true, hdl.framesSent := 2 ^ 31 } : State).hdl.bridge = false) ∧ ((({ State.reset with hdl.paired := true, hdl.framesSent := 2 ^ 31 } : State).hdl.keyGen + 1) * 2 ^ 31 ≤ ({ State.reset with hdl.paired := true, hdl.framesSent := 2 ^ 31 } : State).hdl.framesSent) := by
  decide

set_option maxRecDepth 100000 in
/-- The hypotheses of PeerMessages are met. -/
theorem test_met_PeerMessages_0 :
    (({ State.reset with hdl.paired := true, boot.plemReady := true } : State).boot.fastStopped = false) ∧ (({ State.reset with hdl.paired := true, boot.plemReady := true } : State).saf.failSilent = false) ∧ (({ State.reset with hdl.paired := true, boot.plemReady := true } : State).hdl.paired = true) ∧ (({ State.reset with hdl.paired := true, boot.plemReady := true } : State).hdl.bridge = false) ∧
    (({ State.reset with hdl.paired := true } : State).boot.fastStopped = false) ∧ (({ State.reset with hdl.paired := true } : State).saf.failSilent = false) ∧ (({ State.reset with hdl.paired := true } : State).hdl.paired = true) ∧ (({ State.reset with hdl.paired := true } : State).hdl.bridge = false) ∧
    ((State.reset : State).boot.fastStopped = false) ∧ ((State.reset : State).saf.failSilent = false) ∧ ((State.reset : State).hdl.paired = false) ∧
    (({ State.reset with hdl.paired := true, hdl.bridge := true } : State).boot.fastStopped = false) ∧ (({ State.reset with hdl.paired := true, hdl.bridge := true } : State).saf.failSilent = false) ∧ (({ State.reset with hdl.paired := true, hdl.bridge := true } : State).hdl.paired = true) ∧ (({ State.reset with hdl.paired := true, hdl.bridge := true } : State).hdl.bridge = true) ∧
    (({ State.reset with hdl.paired := true, stk.ports := [{ num := 0, link := 3, startStep := 4 }] } : State).boot.fastStopped = false) ∧ (({ State.reset with hdl.paired := true, stk.ports := [{ num := 0, link := 3, startStep := 4 }] } : State).saf.failSilent = false) ∧ (({ State.reset with hdl.paired := true, stk.ports := [{ num := 0, link := 3, startStep := 4 }] } : State).hdl.paired = true) ∧ (({ State.reset with hdl.paired := true, stk.ports := [{ num := 0, link := 3, startStep := 4 }] } : State).hdl.bridge = false) ∧ (reached ({ State.reset with hdl.paired := true, stk.ports := [{ num := 0, link := 3, startStep := 4 }] } : State) (0 : Nat) = true) := by
  decide

set_option maxRecDepth 100000 in
/-- The hypotheses of PeerMessages are met. -/
theorem test_met_PeerMessages_1 :
    (({ State.reset with hdl.paired := true } : State).boot.fastStopped = false) ∧ (({ State.reset with hdl.paired := true } : State).saf.failSilent = false) ∧ (({ State.reset with hdl.paired := true } : State).hdl.paired = true) ∧ (({ State.reset with hdl.paired := true } : State).hdl.bridge = false) ∧ (reached ({ State.reset with hdl.paired := true } : State) (0 : Nat) = false) ∧
    (({ State.reset with hdl.paired := true, nv.stored := [{ id := 1, bundle := 4, committed := true, taken := 1 }] } : State).boot.fastStopped = false) ∧ (({ State.reset with hdl.paired := true, nv.stored := [{ id := 1, bundle := 4, committed := true, taken := 1 }] } : State).saf.failSilent = false) ∧ (({ State.reset with hdl.paired := true, nv.stored := [{ id := 1, bundle := 4, committed := true, taken := 1 }] } : State).hdl.paired = true) ∧ (({ State.reset with hdl.paired := true, nv.stored := [{ id := 1, bundle := 4, committed := true, taken := 1 }] } : State).hdl.bridge = false) ∧ (refTarget ({ State.reset with hdl.paired := true, nv.stored := [{ id := 1, bundle := 4, committed := true, taken := 1 }] } : State) (4 : Nat) (0 : Nat) = some ({ id := 1, bundle := 4, committed := true, taken := 1 } : Stored)) ∧ (dedupCount ({ State.reset with hdl.paired := true, nv.stored := [{ id := 1, bundle := 4, committed := true, taken := 1 }] } : State) ({ id := 1, bundle := 4, committed := true, taken := 1 } : Stored) < pidVal ({ State.reset with hdl.paired := true, nv.stored := [{ id := 1, bundle := 4, committed := true, taken := 1 }] } : State) 0x0703) ∧
    (({ State.reset with hdl.paired := true } : State).boot.fastStopped = false) ∧ (({ State.reset with hdl.paired := true } : State).saf.failSilent = false) ∧ (({ State.reset with hdl.paired := true } : State).hdl.paired = true) ∧ (({ State.reset with hdl.paired := true } : State).hdl.bridge = false) ∧ (refTarget ({ State.reset with hdl.paired := true } : State) (4 : Nat) (0 : Nat) = none) ∧
    (({ State.reset with hdl.paired := true } : State).boot.fastStopped = false) ∧ (({ State.reset with hdl.paired := true } : State).saf.failSilent = false) ∧ (({ State.reset with hdl.paired := true } : State).hdl.paired = true) ∧ (({ State.reset with hdl.paired := true } : State).hdl.bridge = false) ∧ (({ State.reset with hdl.paired := true } : State).hdl.holder = false) ∧ (asnOf ({ State.reset with hdl.paired := true } : State) < (1 : Nat)) ∧
    (({ State.reset with hdl.paired := true, col.replayStep := 7 } : State).boot.fastStopped = false) ∧ (({ State.reset with hdl.paired := true, col.replayStep := 7 } : State).saf.failSilent = false) ∧ (({ State.reset with hdl.paired := true, col.replayStep := 7 } : State).hdl.paired = true) ∧ (({ State.reset with hdl.paired := true, col.replayStep := 7 } : State).hdl.bridge = false) ∧ (({ State.reset with hdl.paired := true, col.replayStep := 7 } : State).col.replayStep = 7) := by
  decide

set_option maxRecDepth 100000 in
/-- The hypotheses of PeerMessages are met. -/
theorem test_met_PeerMessages_2 :
    (({ State.reset with hdl.paired := true } : State).boot.fastStopped = false) ∧ (({ State.reset with hdl.paired := true } : State).hdl.paired = true) ∧ (({ State.reset with hdl.paired := true } : State).saf.failSilent = false) ∧
    (({ State.reset with hdl.paired := true } : State).boot.fastStopped = false) ∧ (({ State.reset with hdl.paired := true } : State).saf.failSilent = false) ∧ (({ State.reset with hdl.paired := true } : State).hdl.paired = true) ∧ (({ crcOk := false } : Health).crcOk = false) ∧
    (({ State.reset with hdl.paired := true, hdl.bridge := true } : State).boot.fastStopped = false) ∧ (({ State.reset with hdl.paired := true, hdl.bridge := true } : State).saf.failSilent = false) ∧ (({ State.reset with hdl.paired := true, hdl.bridge := true } : State).hdl.paired = true) ∧ (({ State.reset with hdl.paired := true, hdl.bridge := true } : State).hdl.bridge = true) ∧ (({} : Health).crcOk = true) ∧ ((withAccess (fun x => { x with hdl.peerHealth := some ({} : Health), hdl.healthAbsent := false, hdl.silent := x.hdl.silent && !x.hdl.bridge }) ({ State.reset with hdl.paired := true, hdl.bridge := true } : State)).hdl.bridge = true) ∧
    (({ digest := [1] } : Health).asn = ({ State.reset with hdl.digest := [1] } : State).hdl.digestAsn) ∧ (({ State.reset with hdl.digest := [1] } : State).hdl.digest ≠ []) ∧ (({ digest := [1] } : Health).digest.take 8 = ({ State.reset with hdl.digest := [1] } : State).hdl.digest.take 8) ∧
    (({ digest := [2] } : Health).asn = ({ State.reset with hdl.digest := [1] } : State).hdl.digestAsn) ∧ (({ State.reset with hdl.digest := [1] } : State).hdl.digest ≠ []) ∧ (({ digest := [2] } : Health).digest.take 8 ≠ ({ State.reset with hdl.digest := [1] } : State).hdl.digest.take 8) := by
  decide

set_option maxRecDepth 100000 in
/-- The hypotheses of PeerMessages are met. -/
theorem test_met_PeerMessages_3 :
    (({ State.reset with hdl.paired := true } : State).boot.fastStopped = false) ∧ (({ State.reset with hdl.paired := true } : State).saf.failSilent = false) ∧ (({ State.reset with hdl.paired := true } : State).hdl.paired = true) ∧ (({ State.reset with hdl.paired := true } : State).hdl.healthAbsent = false) ∧
    ((State.reset : State).boot.fastStopped = false) ∧ ((State.reset : State).saf.failSilent = false) ∧
    (({ State.reset with boot.coilReady := true } : State).boot.fastStopped = false) ∧ (({ State.reset with boot.coilReady := true } : State).saf.failSilent = false) ∧ (({ State.reset with boot.coilReady := true } : State).hdl.holder = false) ∧ (({ State.reset with boot.coilReady := true } : State).boot.coilReady = true) ∧ ((0 : Nat) < 256) ∧ (¬ (0 : Nat) ∈ ({ State.reset with boot.coilReady := true } : State).saf.tileOut) ∧ (tileState ({ State.reset with boot.coilReady := true } : State) (0 : Nat) = 0) ∧
    ((State.reset : State).boot.fastStopped = false) ∧ ((State.reset : State).saf.failSilent = false) ∧
    (({ State.reset with hdl.reqs := [{ tag := 1, code := 5 }] } : State).boot.fastStopped = false) ∧ (({ State.reset with hdl.reqs := [{ tag := 1, code := 5 }] } : State).saf.failSilent = false) ∧ ((({ State.reset with hdl.reqs := [{ tag := 1, code := 5 }] } : State).hdl.reqs.find? fun q => q.tag == (1 : Nat)) = some ({ tag := 1, code := 5 } : PeerReq)) ∧ (({ tag := 1, code := 5 } : PeerReq).code = 5) := by
  decide

set_option maxRecDepth 100000 in
/-- The hypotheses of PeerMessages are met. -/
theorem test_met_PeerMessages_4 :
    (({ State.reset with hdl.reqs := [{ tag := 1, code := 6 }] } : State).boot.fastStopped = false) ∧ (({ State.reset with hdl.reqs := [{ tag := 1, code := 6 }] } : State).saf.failSilent = false) ∧ ((({ State.reset with hdl.reqs := [{ tag := 1, code := 6 }] } : State).hdl.reqs.find? fun q => q.tag == (1 : Nat)) = some ({ tag := 1, code := 6 } : PeerReq)) ∧ (({ tag := 1, code := 6 } : PeerReq).code = 6) ∧
    (({ State.reset with hdl.reqs := [{ tag := 1, code := 32 }] } : State).boot.fastStopped = false) ∧ (({ State.reset with hdl.reqs := [{ tag := 1, code := 32 }] } : State).saf.failSilent = false) ∧ ((({ State.reset with hdl.reqs := [{ tag := 1, code := 32 }] } : State).hdl.reqs.find? fun q => q.tag == (1 : Nat)) = some ({ tag := 1, code := 32 } : PeerReq)) ∧ (({ tag := 1, code := 32 } : PeerReq).code = 32) ∧
    (({ State.reset with hdl.reqs := [{ tag := 1, code := 33 }] } : State).boot.fastStopped = false) ∧ (({ State.reset with hdl.reqs := [{ tag := 1, code := 33 }] } : State).saf.failSilent = false) ∧ ((({ State.reset with hdl.reqs := [{ tag := 1, code := 33 }] } : State).hdl.reqs.find? fun q => q.tag == (1 : Nat)) = some ({ tag := 1, code := 33 } : PeerReq)) ∧ (({ tag := 1, code := 33 } : PeerReq).code = 33) ∧
    (({ State.reset with hdl.reqs := [{ tag := 1, code := 34 }] } : State).boot.fastStopped = false) ∧ (({ State.reset with hdl.reqs := [{ tag := 1, code := 34 }] } : State).saf.failSilent = false) ∧ ((({ State.reset with hdl.reqs := [{ tag := 1, code := 34 }] } : State).hdl.reqs.find? fun q => q.tag == (1 : Nat)) = some ({ tag := 1, code := 34 } : PeerReq)) ∧ (({ tag := 1, code := 34 } : PeerReq).code = 34) ∧
    (({ State.reset with hdl.reqs := [{ tag := 1, code := 50 }] } : State).boot.fastStopped = false) ∧ (({ State.reset with hdl.reqs := [{ tag := 1, code := 50 }] } : State).saf.failSilent = false) ∧ ((({ State.reset with hdl.reqs := [{ tag := 1, code := 50 }] } : State).hdl.reqs.find? fun q => q.tag == (1 : Nat)) = some ({ tag := 1, code := 50 } : PeerReq)) ∧ (({ tag := 1, code := 50 } : PeerReq).code = 50) := by
  decide

/-- The hypotheses of HandleSignalsAndTransfer are met (clause 27). -/
theorem test_met_HandleSignalsAndTransfer_c27 :
    (({ State.reset with hdl.paired := true } : State).boot.fastStopped = false) ∧
    (({ State.reset with hdl.paired := true } : State).saf.failSilent = false) ∧
    (({ State.reset with hdl.paired := true } : State).hdl.paired = true) ∧
    (({ State.reset with hdl.paired := true } : State).hdl.bridge = false) ∧
    ((0 : Nat) = asnOf ({ State.reset with hdl.paired := true } : State)) ∧
    ((Config.sha384 (authorityBytes ({ State.reset with hdl.paired := true } : State))).take 8 = ((Config.sha384 (authorityBytes { (State.reset : State) with hdl.paired := true })).take 8 : List Byte).take 8) := by
  refine ⟨rfl, rfl, rfl, rfl, by decide, ?_⟩
  simp [List.take_take]

set_option maxRecDepth 100000 in
/-- The hypotheses of HandleSignalsAndTransfer are met. -/
theorem test_met_HandleSignalsAndTransfer_0 :
    (({ State.reset with hdl.paired := true, pins.holdIn := true } : State).pins.holdIn = true) ∧ (({ State.reset with hdl.paired := true, pins.holdIn := true } : State).hdl.paired = true) ∧ (({ State.reset with hdl.paired := true, pins.holdIn := true } : State).hdl.bridge = false) ∧ (({ State.reset with hdl.paired := true, pins.holdIn := true } : State).hdl.transferIn = false) ∧ (({ State.reset with hdl.paired := true, pins.holdIn := true } : State).hdl.holdOut = false) ∧ (({ State.reset with hdl.paired := true, pins.holdIn := true } : State).saf.failSilent = false) ∧ (({ State.reset with hdl.paired := true, pins.holdIn := true } : State).boot.fastStopped = false) ∧
    (({ State.reset with pins.holdIn := true } : State).pins.holdIn = true) ∧ (({ State.reset with pins.holdIn := true } : State).hdl.paired = false) ∧
    ((State.reset : State).hdl.holdOut = false) ∧
    (({ State.reset with hdl.holdOut := true } : State).hdl.holdOut = true) ∧ (({ State.reset with hdl.holdOut := true } : State).hdl.peerStuck = false) ∧ (({ State.reset with hdl.holdOut := true } : State).saf.failSilent = false) ∧ (({ State.reset with hdl.holdOut := true } : State).boot.fastStopped = false) ∧ (({ State.reset with hdl.holdOut := true } : State).hdl.tieUntil = none) ∧
    (({ State.reset with hdl.holdOut := true, hdl.tieUntil := some 5, aon.side := true } : State).hdl.holdOut = true) ∧ (({ State.reset with hdl.holdOut := true, hdl.tieUntil := some 5, aon.side := true } : State).hdl.peerStuck = false) ∧ (({ State.reset with hdl.holdOut := true, hdl.tieUntil := some 5, aon.side := true } : State).saf.failSilent = false) ∧ (({ State.reset with hdl.holdOut := true, hdl.tieUntil := some 5, aon.side := true } : State).boot.fastStopped = false) ∧ (({ State.reset with hdl.holdOut := true, hdl.tieUntil := some 5, aon.side := true } : State).hdl.tieUntil = some (5 : Nat)) ∧ (({ State.reset with hdl.holdOut := true, hdl.tieUntil := some 5, aon.side := true } : State).now ≤ (5 : Nat)) ∧ (({ State.reset with hdl.holdOut := true, hdl.tieUntil := some 5, aon.side := true } : State).aon.side = true) := by
  decide

set_option maxRecDepth 100000 in
/-- The hypotheses of HandleSignalsAndTransfer are met. -/
theorem test_met_HandleSignalsAndTransfer_1 :
    (({ State.reset with hdl.paired := true, boot.handleElig := true, stk.ports := [{ num := 0 }] } : State).boot.fastStopped = false) ∧ (({ State.reset with hdl.paired := true, boot.handleElig := true, stk.ports := [{ num := 0 }] } : State).pins.holdIn = false) ∧ (({ State.reset with hdl.paired := true, boot.handleElig := true, stk.ports := [{ num := 0 }] } : State).hdl.holder = false) ∧ (({ State.reset with hdl.paired := true, boot.handleElig := true, stk.ports := [{ num := 0 }] } : State).boot.handleElig = true) ∧ (({ State.reset with hdl.paired := true, boot.handleElig := true, stk.ports := [{ num := 0 }] } : State).saf.failSilent = false) ∧ (({ State.reset with hdl.paired := true, boot.handleElig := true, stk.ports := [{ num := 0 }] } : State).hdl.bridge = false) ∧ (allSideErr ({ State.reset with hdl.paired := true, boot.handleElig := true, stk.ports := [{ num := 0 }] } : State) = false) ∧ (({ State.reset with hdl.paired := true, boot.handleElig := true, stk.ports := [{ num := 0 }] } : State).hdl.takingOver = false) ∧ (({ State.reset with hdl.paired := true, boot.handleElig := true, stk.ports := [{ num := 0 }] } : State).hdl.paired = true) ∧
    (({ State.reset with hdl.paired := true, boot.handleElig := true, stk.ports := [{ num := 0 }], hdl.takingOver := true, hdl.fenceDone := true, hdl.takeReq := true } : State).boot.fastStopped = false) ∧ (({ State.reset with hdl.paired := true, boot.handleElig := true, stk.ports := [{ num := 0 }], hdl.takingOver := true, hdl.fenceDone := true, hdl.takeReq := true } : State).pins.holdIn = false) ∧ (({ State.reset with hdl.paired := true, boot.handleElig := true, stk.ports := [{ num := 0 }], hdl.takingOver := true, hdl.fenceDone := true, hdl.takeReq := true } : State).hdl.holder = false) ∧ (({ State.reset with hdl.paired := true, boot.handleElig := true, stk.ports := [{ num := 0 }], hdl.takingOver := true, hdl.fenceDone := true, hdl.takeReq := true } : State).boot.handleElig = true) ∧ (({ State.reset with hdl.paired := true, boot.handleElig := true, stk.ports := [{ num := 0 }], hdl.takingOver := true, hdl.fenceDone := true, hdl.takeReq := true } : State).saf.failSilent = false) ∧ (({ State.reset with hdl.paired := true, boot.handleElig := true, stk.ports := [{ num := 0 }], hdl.takingOver := true, hdl.fenceDone := true, hdl.takeReq := true } : State).hdl.bridge = false) ∧ (allSideErr ({ State.reset with hdl.paired := true, boot.handleElig := true, stk.ports := [{ num := 0 }], hdl.takingOver := true, hdl.fenceDone := true, hdl.takeReq := true } : State) = false) ∧ (({ State.reset with hdl.paired := true, boot.handleElig := true, stk.ports := [{ num := 0 }], hdl.takingOver := true, hdl.fenceDone := true, hdl.takeReq := true } : State).hdl.takingOver = true) ∧ (({ State.reset with hdl.paired := true, boot.handleElig := true, stk.ports := [{ num := 0 }], hdl.takingOver := true, hdl.fenceDone := true, hdl.takeReq := true } : State).hdl.fenceDone = true) ∧ (({ State.reset with hdl.paired := true, boot.handleElig := true, stk.ports := [{ num := 0 }], hdl.takingOver := true, hdl.fenceDone := true, hdl.takeReq := true } : State).hdl.takeReq = true) ∧
    (({ State.reset with pins.holdIn := true } : State).boot.fastStopped = false) ∧ (({ State.reset with pins.holdIn := true } : State).pins.holdIn = true) ∧ (({ State.reset with pins.holdIn := true } : State).hdl.peerStuck = false) ∧ (({ State.reset with pins.holdIn := true } : State).hdl.holdOut = false) ∧ (({ State.reset with pins.holdIn := true } : State).saf.failSilent = false) ∧ (({ State.reset with pins.holdIn := true } : State).hdl.takingOver = false) ∧ (({ State.reset with pins.holdIn := true } : State).hdl.silent = false) ∧
    ((State.reset : State).boot.fastStopped = false) ∧ ((State.reset : State).hdl.silent = false) ∧ ((State.reset : State).saf.failSilent = false) ∧
    ((State.reset : State).boot.fastStopped = false) ∧ ((State.reset : State).hdl.severed = false) ∧ ((State.reset : State).hdl.silent = false) ∧ ((State.reset : State).hdl.bridge = false) ∧ ((State.reset : State).saf.failSilent = false) := by
  decide

set_option maxRecDepth 100000 in
/-- The hypotheses of HandleSignalsAndTransfer are met. -/
theorem test_met_HandleSignalsAndTransfer_2 :
    ((State.reset : State).boot.fastStopped = false) ∧ ((State.reset : State).saf.failSilent = false) ∧ ((State.reset : State).pins.holdIn = false) ∧
    (({ State.reset with pins.pwrok := true } : State).boot.fastStopped = false) ∧ (({ State.reset with pins.pwrok := true } : State).pins.pwrok = true) ∧
    ((State.reset : State).boot.fastStopped = false) ∧ ((State.reset : State).saf.failSilent = false) ∧
    (({ State.reset with pins.pwrok := true, pins.holdIn := true, hdl.holdOut := true } : State).boot.fastStopped = false) ∧ (holdsClash ({ State.reset with pins.pwrok := true, pins.holdIn := true, hdl.holdOut := true } : State) = true) ∧ (({ State.reset with pins.pwrok := true, pins.holdIn := true, hdl.holdOut := true } : State).saf.failSilent = false) ∧ (({ State.reset with pins.pwrok := true, pins.holdIn := true, hdl.holdOut := true } : State).pins.pwrok = true) ∧
    (({ State.reset with pins.pwrok := true, boot.handleElig := true } : State).boot.fastStopped = false) ∧ (holdsClash ({ State.reset with pins.pwrok := true, boot.handleElig := true } : State) = false) ∧ (({ State.reset with pins.pwrok := true, boot.handleElig := true } : State).boot.handleElig = true) ∧ (({ State.reset with pins.pwrok := true, boot.handleElig := true } : State).saf.failSilent = false) ∧ (({ State.reset with pins.pwrok := true, boot.handleElig := true } : State).pins.pwrok = true) := by
  decide

set_option maxRecDepth 100000 in
/-- The hypotheses of HandleSignalsAndTransfer are met. -/
theorem test_met_HandleSignalsAndTransfer_3 :
    (({ State.reset with stk.ports := [{ num := 0, link := 3, startStep := 4, reqs := [{ tag := 1, cmd := 64 }] }] } : State).boot.fastStopped = false) ∧ (({ State.reset with stk.ports := [{ num := 0, link := 3, startStep := 4, reqs := [{ tag := 1, cmd := 64 }] }] } : State).saf.failSilent = false) ∧ (reqOf ({ State.reset with stk.ports := [{ num := 0, link := 3, startStep := 4, reqs := [{ tag := 1, cmd := 64 }] }] } : State) (0 : Nat) (1 : Nat) 64 = some ({ tag := 1, cmd := 64 } : Req)) ∧
    (({ State.reset with stk.ports := [{ num := 0, link := 3, startStep := 4, reqs := [{ tag := 1, cmd := 65 }] }] } : State).boot.fastStopped = false) ∧ (({ State.reset with stk.ports := [{ num := 0, link := 3, startStep := 4, reqs := [{ tag := 1, cmd := 65 }] }] } : State).saf.failSilent = false) ∧ (reqOf ({ State.reset with stk.ports := [{ num := 0, link := 3, startStep := 4, reqs := [{ tag := 1, cmd := 65 }] }] } : State) (0 : Nat) (1 : Nat) 65 = some ({ tag := 1, cmd := 65 } : Req)) ∧
    (({ tag := 1, cmd := 64 } : Req).aux = 0) ∧ (({ tag := 1, cmd := 64 } : Req).epoch = (State.reset : State).hdl.epoch) ∧
    (({ State.reset with hdl.takingOver := true, hdl.fenceDone := true, hdl.holder := true } : State).boot.fastStopped = false) ∧ (({ State.reset with hdl.takingOver := true, hdl.fenceDone := true, hdl.holder := true } : State).saf.failSilent = false) ∧ (({ State.reset with hdl.takingOver := true, hdl.fenceDone := true, hdl.holder := true } : State).hdl.takingOver = true) ∧ (({ State.reset with hdl.takingOver := true, hdl.fenceDone := true, hdl.holder := true } : State).hdl.fenceDone = true) ∧ (({ State.reset with hdl.takingOver := true, hdl.fenceDone := true, hdl.holder := true } : State).hdl.holder = true) ∧
    ((SP opHandleEligible (zeros 24 ++ [1]) : State).boot.fastStopped = false) ∧ (opCmd (SP opHandleEligible (zeros 24 ++ [1]) : State) (3 : Nat) (1 : Nat) opHandleEligible = some (KP opHandleEligible (zeros 24 ++ [1]) : Cmd)) ∧ ((SP opHandleEligible (zeros 24 ++ [1]) : State).brd.port = []) ∧ (¬ ((SP opHandleEligible (zeros 24 ++ [1]) : State).hdl.bridge = true ∧ pk (KP opHandleEligible (zeros 24 ++ [1]) : Cmd) 24 1 = 1)) ∧ (¬ ((SP opHandleEligible (zeros 24 ++ [1]) : State).hdl.holder = true ∧ pk (KP opHandleEligible (zeros 24 ++ [1]) : Cmd) 24 1 = 0)) ∧ ((SP opHandleEligible (zeros 24 ++ [1]) : State).boot.handleElig ≠ (pk (KP opHandleEligible (zeros 24 ++ [1]) : Cmd) 24 1 == 1)) := by
  decide

set_option maxRecDepth 100000 in
/-- The hypotheses of HandleSignalsAndTransfer are met. -/
theorem test_met_HandleSignalsAndTransfer_4 :
    (({ S1 opHandleEligible with hdl.holder := true } : State).boot.fastStopped = false) ∧ (opCmd ({ S1 opHandleEligible with hdl.holder := true } : State) (3 : Nat) (1 : Nat) opHandleEligible = some (K opHandleEligible : Cmd)) ∧ (({ S1 opHandleEligible with hdl.holder := true } : State).brd.port = []) ∧ (({ S1 opHandleEligible with hdl.holder := true } : State).hdl.holder = true) ∧ (pk (K opHandleEligible : Cmd) 24 1 = 0) ∧
    ((K opHandleEligible : Cmd).opcode = opHandleEligible) ∧ ((({ nums := [1] } : Decision) : Decision).nums = [(1 : Nat)]) ∧
    (({ S1 opHandleTransfer with hdl.holder := true, hdl.paired := true, hdl.peerHealth := some { eligible := true } } : State).boot.fastStopped = false) ∧ (opCmd ({ S1 opHandleTransfer with hdl.holder := true, hdl.paired := true, hdl.peerHealth := some { eligible := true } } : State) (3 : Nat) (1 : Nat) opHandleTransfer = some (K opHandleTransfer : Cmd)) ∧ (({ S1 opHandleTransfer with hdl.holder := true, hdl.paired := true, hdl.peerHealth := some { eligible := true } } : State).hdl.holder = true) ∧ (({ S1 opHandleTransfer with hdl.holder := true, hdl.paired := true, hdl.peerHealth := some { eligible := true } } : State).brd.port = []) ∧ (({ S1 opHandleTransfer with hdl.holder := true, hdl.paired := true, hdl.peerHealth := some { eligible := true } } : State).hdl.paired = true) ∧ (({ S1 opHandleTransfer with hdl.holder := true, hdl.paired := true, hdl.peerHealth := some { eligible := true } } : State).hdl.bridge = false) ∧ (({ S1 opHandleTransfer with hdl.holder := true, hdl.paired := true, hdl.peerHealth := some { eligible := true } } : State).hdl.transfer = none) ∧ (({ S1 opHandleTransfer with hdl.holder := true, hdl.paired := true, hdl.peerHealth := some { eligible := true } } : State).hdl.peerHealth = some ({ eligible := true } : Health)) ∧ (({ eligible := true } : Health).eligible = true) ∧ (handoffBar ({ S1 opHandleTransfer with hdl.holder := true, hdl.paired := true, hdl.peerHealth := some { eligible := true } } : State) = none) ∧
    (({ S1 opHandleTransfer with hdl.holder := true } : State).boot.fastStopped = false) ∧ (opCmd ({ S1 opHandleTransfer with hdl.holder := true } : State) (3 : Nat) (1 : Nat) opHandleTransfer = some (K opHandleTransfer : Cmd)) ∧ (({ S1 opHandleTransfer with hdl.holder := true } : State).hdl.holder = true) ∧ (({ S1 opHandleTransfer with hdl.holder := true } : State).brd.port = []) ∧ (({ S1 opHandleTransfer with hdl.holder := true } : State).hdl.paired = false) ∧ (({ S1 opHandleTransfer with hdl.holder := true } : State).hdl.transfer = none) ∧
    (({ State.reset with hdl.paired := true } : State).boot.fastStopped = false) ∧ (({ State.reset with hdl.paired := true } : State).saf.failSilent = false) ∧ (({ State.reset with hdl.paired := true } : State).hdl.paired = true) ∧ (({ State.reset with hdl.paired := true } : State).hdl.bridge = false) ∧ ((5 : Nat) ≠ asnOf ({ State.reset with hdl.paired := true } : State)) := by
  decide

set_option maxRecDepth 100000 in
/-- The hypotheses of HandleSignalsAndTransfer are met. -/
theorem test_met_HandleSignalsAndTransfer_5 :
    (({ State.reset with hdl.transfer := some (K 0) } : State).hdl.transfer ≠ none) ∧
    (({ State.reset with hdl.transfer := some (K 0), hdl.epoch := 1 } : State).boot.fastStopped = false) ∧ (({ State.reset with hdl.transfer := some (K 0), hdl.epoch := 1 } : State).saf.failSilent = false) ∧ (({ State.reset with hdl.transfer := some (K 0), hdl.epoch := 1 } : State).hdl.transfer = some (K 0 : Cmd)) ∧ (({ State.reset with hdl.transfer := some (K 0), hdl.epoch := 1 } : State).hdl.holder = false) ∧ (({ State.reset with hdl.transfer := some (K 0), hdl.epoch := 1 } : State).hdl.oldEpoch < ({ State.reset with hdl.transfer := some (K 0), hdl.epoch := 1 } : State).hdl.epoch) := by
  decide

set_option maxRecDepth 100000 in
/-- The hypotheses of NvmeQueuesAndFeatures are met. -/
theorem test_met_NvmeQueuesAndFeatures_0 :
    (({ State.reset with boot.service := true, hfe.ctrls := [{ id := 0, en := true }] } : State).boot.fastStopped = false) ∧ (({ State.reset with boot.service := true, hfe.ctrls := [{ id := 0, en := true }] } : State).saf.failSilent = false) ∧ (ctrlOf ({ State.reset with boot.service := true, hfe.ctrls := [{ id := 0, en := true }] } : State) (0 : Nat) = some ({ id := 0, en := true } : Ctrl)) ∧ (ctrlReady ({ State.reset with boot.service := true, hfe.ctrls := [{ id := 0, en := true }] } : State) ({ id := 0, en := true } : Ctrl) = true) ∧ (({ id := 0, en := true } : Ctrl).id < 2) ∧ ((1 : Nat) ≠ 0) ∧ (({ id := 0, en := true } : Ctrl).cqs.any (fun e => e.1 == (1 : Nat)) = false) ∧ (({ id := 0, en := true } : Ctrl).cqs.length < pcieQueues ({ State.reset with boot.service := true, hfe.ctrls := [{ id := 0, en := true }] } : State) ({ id := 0, en := true } : Ctrl).id) ∧ (queueSizeOk (7 : Nat) = true) ∧
    (({ State.reset with boot.service := true, hfe.ctrls := [{ id := 0, en := true }] } : State).boot.fastStopped = false) ∧ (({ State.reset with boot.service := true, hfe.ctrls := [{ id := 0, en := true }] } : State).saf.failSilent = false) ∧ (ctrlOf ({ State.reset with boot.service := true, hfe.ctrls := [{ id := 0, en := true }] } : State) (0 : Nat) = some ({ id := 0, en := true } : Ctrl)) ∧ (ctrlReady ({ State.reset with boot.service := true, hfe.ctrls := [{ id := 0, en := true }] } : State) ({ id := 0, en := true } : Ctrl) = true) ∧ (({ id := 0, en := true } : Ctrl).id < 2) ∧ ((true : Bool) = true) ∧ ((0 : Nat) = 0 ∨ ({ id := 0, en := true } : Ctrl).cqs.any (fun e => e.1 == (0 : Nat)) = true ∨ pcieQueues ({ State.reset with boot.service := true, hfe.ctrls := [{ id := 0, en := true }] } : State) ({ id := 0, en := true } : Ctrl).id ≤ ({ id := 0, en := true } : Ctrl).cqs.length) ∧
    (({ State.reset with boot.service := true, hfe.ctrls := [{ id := 0, en := true, cqs := [(1, 7)] }] } : State).boot.fastStopped = false) ∧ (({ State.reset with boot.service := true, hfe.ctrls := [{ id := 0, en := true, cqs := [(1, 7)] }] } : State).saf.failSilent = false) ∧ (ctrlOf ({ State.reset with boot.service := true, hfe.ctrls := [{ id := 0, en := true, cqs := [(1, 7)] }] } : State) (0 : Nat) = some ({ id := 0, en := true, cqs := [(1, 7)] } : Ctrl)) ∧ (ctrlReady ({ State.reset with boot.service := true, hfe.ctrls := [{ id := 0, en := true, cqs := [(1, 7)] }] } : State) ({ id := 0, en := true, cqs := [(1, 7)] } : Ctrl) = true) ∧ (({ id := 0, en := true, cqs := [(1, 7)] } : Ctrl).id < 2) ∧ ((1 : Nat) ≠ 0) ∧ (({ id := 0, en := true, cqs := [(1, 7)] } : Ctrl).sqs.any (fun e => e.1 == (1 : Nat)) = false) ∧ (({ id := 0, en := true, cqs := [(1, 7)] } : Ctrl).sqs.length < pcieQueues ({ State.reset with boot.service := true, hfe.ctrls := [{ id := 0, en := true, cqs := [(1, 7)] }] } : State) ({ id := 0, en := true, cqs := [(1, 7)] } : Ctrl).id) ∧ (({ id := 0, en := true, cqs := [(1, 7)] } : Ctrl).cqs.any (fun e => e.1 == (1 : Nat)) = true) ∧ (queueSizeOk (7 : Nat) = true) ∧
    (({ State.reset with boot.service := true, hfe.ctrls := [{ id := 0, en := true }] } : State).boot.fastStopped = false) ∧ (({ State.reset with boot.service := true, hfe.ctrls := [{ id := 0, en := true }] } : State).saf.failSilent = false) ∧ (ctrlOf ({ State.reset with boot.service := true, hfe.ctrls := [{ id := 0, en := true }] } : State) (0 : Nat) = some ({ id := 0, en := true } : Ctrl)) ∧ (ctrlReady ({ State.reset with boot.service := true, hfe.ctrls := [{ id := 0, en := true }] } : State) ({ id := 0, en := true } : Ctrl) = true) ∧ (({ id := 0, en := true } : Ctrl).id < 2) ∧ ((1 : Nat) ≠ 0) ∧ (({ id := 0, en := true } : Ctrl).sqs.any (fun e => e.1 == (1 : Nat)) = false) ∧ (({ id := 0, en := true } : Ctrl).sqs.length < pcieQueues ({ State.reset with boot.service := true, hfe.ctrls := [{ id := 0, en := true }] } : State) ({ id := 0, en := true } : Ctrl).id) ∧ (({ id := 0, en := true } : Ctrl).cqs.any (fun e => e.1 == (1 : Nat)) = false) ∧
    (({ State.reset with boot.service := true, hfe.ctrls := [{ id := 0, en := true, cqs := [(1, 7)] }] } : State).boot.fastStopped = false) ∧ (({ State.reset with boot.service := true, hfe.ctrls := [{ id := 0, en := true, cqs := [(1, 7)] }] } : State).saf.failSilent = false) ∧ (ctrlOf ({ State.reset with boot.service := true, hfe.ctrls := [{ id := 0, en := true, cqs := [(1, 7)] }] } : State) (0 : Nat) = some ({ id := 0, en := true, cqs := [(1, 7)] } : Ctrl)) ∧ (ctrlReady ({ State.reset with boot.service := true, hfe.ctrls := [{ id := 0, en := true, cqs := [(1, 7)] }] } : State) ({ id := 0, en := true, cqs := [(1, 7)] } : Ctrl) = true) ∧ (({ id := 0, en := true, cqs := [(1, 7)] } : Ctrl).id < 2) ∧ (({ id := 0, en := true, cqs := [(1, 7)] } : Ctrl).cqs.any (fun e => e.1 == (1 : Nat)) = true) ∧ (({ id := 0, en := true, cqs := [(1, 7)] } : Ctrl).sqs.any (fun e => e.2.1 == (1 : Nat)) = false) := by
  decide

set_option maxRecDepth 100000 in
/-- The hypotheses of NvmeQueuesAndFeatures are met. -/
theorem test_met_NvmeQueuesAndFeatures_1 :
    (({ State.reset with boot.service := true, hfe.ctrls := [{ id := 0, en := true, cqs := [(1, 7)], sqs := [(1, 1, 7, 0)] }] } : State).boot.fastStopped = false) ∧ (({ State.reset with boot.service := true, hfe.ctrls := [{ id := 0, en := true, cqs := [(1, 7)], sqs := [(1, 1, 7, 0)] }] } : State).saf.failSilent = false) ∧ (ctrlOf ({ State.reset with boot.service := true, hfe.ctrls := [{ id := 0, en := true, cqs := [(1, 7)], sqs := [(1, 1, 7, 0)] }] } : State) (0 : Nat) = some ({ id := 0, en := true, cqs := [(1, 7)], sqs := [(1, 1, 7, 0)] } : Ctrl)) ∧ (ctrlReady ({ State.reset with boot.service := true, hfe.ctrls := [{ id := 0, en := true, cqs := [(1, 7)], sqs := [(1, 1, 7, 0)] }] } : State) ({ id := 0, en := true, cqs := [(1, 7)], sqs := [(1, 1, 7, 0)] } : Ctrl) = true) ∧ (({ id := 0, en := true, cqs := [(1, 7)], sqs := [(1, 1, 7, 0)] } : Ctrl).id < 2) ∧ (({ id := 0, en := true, cqs := [(1, 7)], sqs := [(1, 1, 7, 0)] } : Ctrl).cqs.any (fun e => e.1 == (1 : Nat)) = true) ∧ (({ id := 0, en := true, cqs := [(1, 7)], sqs := [(1, 1, 7, 0)] } : Ctrl).sqs.any (fun e => e.2.1 == (1 : Nat)) = true) ∧
    (({ State.reset with boot.service := true, hfe.ctrls := [{ id := 0, en := true, cqs := [(1, 7)], sqs := [(1, 1, 7, 0)] }] } : State).boot.fastStopped = false) ∧ (({ State.reset with boot.service := true, hfe.ctrls := [{ id := 0, en := true, cqs := [(1, 7)], sqs := [(1, 1, 7, 0)] }] } : State).saf.failSilent = false) ∧ (ctrlOf ({ State.reset with boot.service := true, hfe.ctrls := [{ id := 0, en := true, cqs := [(1, 7)], sqs := [(1, 1, 7, 0)] }] } : State) (0 : Nat) = some ({ id := 0, en := true, cqs := [(1, 7)], sqs := [(1, 1, 7, 0)] } : Ctrl)) ∧ (ctrlReady ({ State.reset with boot.service := true, hfe.ctrls := [{ id := 0, en := true, cqs := [(1, 7)], sqs := [(1, 1, 7, 0)] }] } : State) ({ id := 0, en := true, cqs := [(1, 7)], sqs := [(1, 1, 7, 0)] } : Ctrl) = true) ∧ (({ id := 0, en := true, cqs := [(1, 7)], sqs := [(1, 1, 7, 0)] } : Ctrl).id < 2) ∧ (({ id := 0, en := true, cqs := [(1, 7)], sqs := [(1, 1, 7, 0)] } : Ctrl).sqs.any (fun e => e.1 == (1 : Nat)) = true) ∧ (({ id := 0, en := true, cqs := [(1, 7)], sqs := [(1, 1, 7, 0)] } : Ctrl).deletes.any (fun e => e.2 == (1 : Nat)) = false) ∧
    (({ State.reset with boot.service := true, hfe.ctrls := [{ id := 0, en := true, sqs := [(1, 1, 7, 0)] }] } : State).boot.fastStopped = false) ∧ (({ State.reset with boot.service := true, hfe.ctrls := [{ id := 0, en := true, sqs := [(1, 1, 7, 0)] }] } : State).saf.failSilent = false) ∧ ((0 : Nat) < 2) ∧ (fetches ({ State.reset with boot.service := true, hfe.ctrls := [{ id := 0, en := true, sqs := [(1, 1, 7, 0)] }] } : State) (0 : Nat) (1 : Nat) = true) ∧
    (({ State.reset with boot.service := true, hfe.ctrls := [{ id := 0, en := true }] } : State).boot.fastStopped = false) ∧ (({ State.reset with boot.service := true, hfe.ctrls := [{ id := 0, en := true }] } : State).saf.failSilent = false) ∧ (ctrlOf ({ State.reset with boot.service := true, hfe.ctrls := [{ id := 0, en := true }] } : State) (0 : Nat) = some ({ id := 0, en := true } : Ctrl)) ∧ (ctrlReady ({ State.reset with boot.service := true, hfe.ctrls := [{ id := 0, en := true }] } : State) ({ id := 0, en := true } : Ctrl) = true) ∧ (({ id := 0, en := true } : Ctrl).id = 0) ∧ ((1 : Nat) ≤ 2) ∧
    (({ State.reset with boot.service := true, hfe.ctrls := [{ id := 1, en := true }] } : State).boot.fastStopped = false) ∧ (({ State.reset with boot.service := true, hfe.ctrls := [{ id := 1, en := true }] } : State).saf.failSilent = false) ∧ (ctrlOf ({ State.reset with boot.service := true, hfe.ctrls := [{ id := 1, en := true }] } : State) (1 : Nat) = some ({ id := 1, en := true } : Ctrl)) ∧ (ctrlReady ({ State.reset with boot.service := true, hfe.ctrls := [{ id := 1, en := true }] } : State) ({ id := 1, en := true } : Ctrl) = true) ∧ (({ id := 1, en := true } : Ctrl).id ≠ 0) := by
  decide

set_option maxRecDepth 100000 in
/-- The hypotheses of NvmeQueuesAndFeatures are met. -/
theorem test_met_NvmeQueuesAndFeatures_2 :
    ((State.reset : State).hfe.pwrEntry = none) ∧ ((State.reset : State).hfe.pwrCur < ({ target := 1 } : PowerEntry).target) ∧
    ((State.reset : State).hfe.pwrEntry = none) ∧ (({ target := 0 } : PowerEntry).target ≤ (State.reset : State).hfe.pwrCur) ∧
    (({ State.reset with hfe.pwrEntry := some { target := 1 } } : State).boot.fastStopped = false) ∧ (({ State.reset with hfe.pwrEntry := some { target := 1 } } : State).hfe.pwrEntry = some ({ target := 1 } : PowerEntry)) ∧ (({ target := 1 } : PowerEntry).windowOpen = true) ∧
    (({ State.reset with hfe.pwrEntry := some { target := 1, windowOpen := false } } : State).boot.fastStopped = false) ∧ (({ State.reset with hfe.pwrEntry := some { target := 1, windowOpen := false } } : State).hfe.pwrEntry = some ({ target := 1, windowOpen := false } : PowerEntry)) ∧ (({ target := 1, windowOpen := false } : PowerEntry).windowOpen = false) ∧ (({ State.reset with hfe.pwrEntry := some { target := 1, windowOpen := false } } : State).hfe.tags.any (fun t => decide (t.idx < 65536) && decide (t.arrival < ({ target := 1, windowOpen := false } : PowerEntry).lastSeq)) = false) ∧
    (({ State.reset with boot.service := true, hfe.ctrls := [{ id := 0, en := true }] } : State).boot.fastStopped = false) ∧ (({ State.reset with boot.service := true, hfe.ctrls := [{ id := 0, en := true }] } : State).saf.failSilent = false) ∧ (ctrlOf ({ State.reset with boot.service := true, hfe.ctrls := [{ id := 0, en := true }] } : State) (0 : Nat) = some ({ id := 0, en := true } : Ctrl)) ∧ (ctrlReady ({ State.reset with boot.service := true, hfe.ctrls := [{ id := 0, en := true }] } : State) ({ id := 0, en := true } : Ctrl) = true) ∧ (min (4 : Nat) (queuesLeft ({ State.reset with boot.service := true, hfe.ctrls := [{ id := 0, en := true }] } : State) ({ id := 0, en := true } : Ctrl).id) ≠ 0) := by
  decide

set_option maxRecDepth 100000 in
/-- The hypotheses of NvmeQueuesAndFeatures are met. -/
theorem test_met_NvmeQueuesAndFeatures_3 :
    (({ State.reset with boot.service := true, hfe.ctrls := [{ id := 0, en := true }] } : State).boot.fastStopped = false) ∧ (({ State.reset with boot.service := true, hfe.ctrls := [{ id := 0, en := true }] } : State).saf.failSilent = false) ∧ (ctrlOf ({ State.reset with boot.service := true, hfe.ctrls := [{ id := 0, en := true }] } : State) (0 : Nat) = some ({ id := 0, en := true } : Ctrl)) ∧ (ctrlReady ({ State.reset with boot.service := true, hfe.ctrls := [{ id := 0, en := true }] } : State) ({ id := 0, en := true } : Ctrl) = true) ∧ ((0x0B : Nat) ≠ 0x02) ∧ ((0x0B : Nat) ≠ 0x07) ∧ (plainFeature ({ id := 0, en := true } : Ctrl) (0x0B : Nat) = true) ∧
    (({ State.reset with boot.service := true, hfe.ctrls := [{ id := 0, en := true }] } : State).boot.fastStopped = false) ∧ (({ State.reset with boot.service := true, hfe.ctrls := [{ id := 0, en := true }] } : State).saf.failSilent = false) ∧ (ctrlOf ({ State.reset with boot.service := true, hfe.ctrls := [{ id := 0, en := true }] } : State) (0 : Nat) = some ({ id := 0, en := true } : Ctrl)) ∧ (ctrlReady ({ State.reset with boot.service := true, hfe.ctrls := [{ id := 0, en := true }] } : State) ({ id := 0, en := true } : Ctrl) = true) ∧ ((0x55 : Nat) ≠ 0x02) ∧ ((0x55 : Nat) ≠ 0x07) ∧ (plainFeature ({ id := 0, en := true } : Ctrl) (0x55 : Nat) = false) ∧
    (({ State.reset with boot.service := true, hfe.ctrls := [{ id := 0, en := true }] } : State).boot.fastStopped = false) ∧ (({ State.reset with boot.service := true, hfe.ctrls := [{ id := 0, en := true }] } : State).saf.failSilent = false) ∧ (ctrlOf ({ State.reset with boot.service := true, hfe.ctrls := [{ id := 0, en := true }] } : State) (0 : Nat) = some ({ id := 0, en := true } : Ctrl)) ∧ (ctrlReady ({ State.reset with boot.service := true, hfe.ctrls := [{ id := 0, en := true }] } : State) ({ id := 0, en := true } : Ctrl) = true) ∧ ((0x0B : Nat) ≠ 0x02) ∧ ((0x0B : Nat) ≠ 0x07) ∧ (plainFeature ({ id := 0, en := true } : Ctrl) (0x0B : Nat) = true) ∧
    (({ State.reset with boot.service := true, hfe.ctrls := [{ id := 0, en := true }] } : State).boot.fastStopped = false) ∧ (({ State.reset with boot.service := true, hfe.ctrls := [{ id := 0, en := true }] } : State).saf.failSilent = false) ∧ (ctrlOf ({ State.reset with boot.service := true, hfe.ctrls := [{ id := 0, en := true }] } : State) (0 : Nat) = some ({ id := 0, en := true } : Ctrl)) ∧ (ctrlReady ({ State.reset with boot.service := true, hfe.ctrls := [{ id := 0, en := true }] } : State) ({ id := 0, en := true } : Ctrl) = true) ∧
    (({ State.reset with boot.service := true, hfe.ctrls := [{ id := 0, en := true }] } : State).boot.fastStopped = false) ∧ (({ State.reset with boot.service := true, hfe.ctrls := [{ id := 0, en := true }] } : State).saf.failSilent = false) ∧ (ctrlOf ({ State.reset with boot.service := true, hfe.ctrls := [{ id := 0, en := true }] } : State) (0 : Nat) = some ({ id := 0, en := true } : Ctrl)) ∧ (ctrlReady ({ State.reset with boot.service := true, hfe.ctrls := [{ id := 0, en := true }] } : State) ({ id := 0, en := true } : Ctrl) = true) ∧ (({ id := 0, en := true } : Ctrl).aers.length < 16) := by
  decide

set_option maxRecDepth 100000 in
/-- The hypotheses of NvmeQueuesAndFeatures are met. -/
theorem test_met_NvmeQueuesAndFeatures_4 :
    (({ State.reset with boot.service := true, hfe.ctrls := [{ id := 0, en := true, aers := List.replicate 16 0 }] } : State).boot.fastStopped = false) ∧ (({ State.reset with boot.service := true, hfe.ctrls := [{ id := 0, en := true, aers := List.replicate 16 0 }] } : State).saf.failSilent = false) ∧ (ctrlOf ({ State.reset with boot.service := true, hfe.ctrls := [{ id := 0, en := true, aers := List.replicate 16 0 }] } : State) (0 : Nat) = some ({ id := 0, en := true, aers := List.replicate 16 0 } : Ctrl)) ∧ (ctrlReady ({ State.reset with boot.service := true, hfe.ctrls := [{ id := 0, en := true, aers := List.replicate 16 0 }] } : State) ({ id := 0, en := true, aers := List.replicate 16 0 } : Ctrl) = true) ∧ (16 ≤ ({ id := 0, en := true, aers := List.replicate 16 0 } : Ctrl).aers.length) ∧
    (({ State.reset with boot.service := true, hfe.ctrls := [{ id := 0, en := true }] } : State).boot.fastStopped = false) ∧ (({ State.reset with boot.service := true, hfe.ctrls := [{ id := 0, en := true }] } : State).saf.failSilent = false) ∧ (ctrlOf ({ State.reset with boot.service := true, hfe.ctrls := [{ id := 0, en := true }] } : State) (0 : Nat) = some ({ id := 0, en := true } : Ctrl)) ∧ (ctrlReady ({ State.reset with boot.service := true, hfe.ctrls := [{ id := 0, en := true }] } : State) ({ id := 0, en := true } : Ctrl) = true) ∧
    (({ State.reset with boot.service := true, hfe.ctrls := [{ id := 0, en := true }] } : State).boot.fastStopped = false) ∧ (({ State.reset with boot.service := true, hfe.ctrls := [{ id := 0, en := true }] } : State).saf.failSilent = false) ∧ (ctrlOf ({ State.reset with boot.service := true, hfe.ctrls := [{ id := 0, en := true }] } : State) (0 : Nat) = some ({ id := 0, en := true } : Ctrl)) ∧ (ctrlReady ({ State.reset with boot.service := true, hfe.ctrls := [{ id := 0, en := true }] } : State) ({ id := 0, en := true } : Ctrl) = true) ∧
    (({ State.reset with boot.service := true, hfe.ctrls := [{ id := 0, en := true, sqs := [(1, 1, 7, 0)] }] } : State).boot.fastStopped = false) ∧ (({ State.reset with boot.service := true, hfe.ctrls := [{ id := 0, en := true, sqs := [(1, 1, 7, 0)] }] } : State).saf.failSilent = false) ∧ ((1 : Nat) ≠ 0) ∧ (fetches ({ State.reset with boot.service := true, hfe.ctrls := [{ id := 0, en := true, sqs := [(1, 1, 7, 0)] }] } : State) (0 : Nat) (1 : Nat) = true) ∧
    ((State.reset : State).boot.fastStopped = false) ∧ ((State.reset : State).saf.failSilent = false) ∧ (ctrlOf (State.reset : State) (9 : Nat) = none) := by
  decide

set_option maxRecDepth 100000 in
/-- The hypotheses of NvmeControllersAndAssociations are met. -/
theorem test_met_NvmeControllersAndAssociations_0 :
    (({ State.reset with boot.service := true, hfe.ctrls := [{ id := 0, en := true }] } : State).boot.fastStopped = false) ∧ (({ State.reset with boot.service := true, hfe.ctrls := [{ id := 0, en := true }] } : State).saf.failSilent = false) ∧ (ctrlOf ({ State.reset with boot.service := true, hfe.ctrls := [{ id := 0, en := true }] } : State) (0 : Nat) = some ({ id := 0, en := true } : Ctrl)) ∧ (ctrlReady ({ State.reset with boot.service := true, hfe.ctrls := [{ id := 0, en := true }] } : State) ({ id := 0, en := true } : Ctrl) = true) ∧ (4 * ((3 : Nat) + 1) ≤ mdts) ∧ (4 * ((3 : Nat) + 1) ≤ (16 : Nat)) ∧
    (({ State.reset with boot.service := true, hfe.ctrls := [{ id := 0, en := true }] } : State).boot.fastStopped = false) ∧ (({ State.reset with boot.service := true, hfe.ctrls := [{ id := 0, en := true }] } : State).saf.failSilent = false) ∧ (ctrlOf ({ State.reset with boot.service := true, hfe.ctrls := [{ id := 0, en := true }] } : State) (0 : Nat) = some ({ id := 0, en := true } : Ctrl)) ∧ (ctrlReady ({ State.reset with boot.service := true, hfe.ctrls := [{ id := 0, en := true }] } : State) ({ id := 0, en := true } : Ctrl) = true) ∧ (4 * ((3 : Nat) + 1) ≤ mdts) ∧ ((15 : Nat) < 4 * ((3 : Nat) + 1)) ∧
    (({ State.reset with boot.service := true, hfe.ctrls := [{ id := 0, en := true }] } : State).boot.fastStopped = false) ∧ (({ State.reset with boot.service := true, hfe.ctrls := [{ id := 0, en := true }] } : State).saf.failSilent = false) ∧ (ctrlOf ({ State.reset with boot.service := true, hfe.ctrls := [{ id := 0, en := true }] } : State) (0 : Nat) = some ({ id := 0, en := true } : Ctrl)) ∧ (ctrlReady ({ State.reset with boot.service := true, hfe.ctrls := [{ id := 0, en := true }] } : State) ({ id := 0, en := true } : Ctrl) = true) ∧ (mdts < 4 * ((33554432 : Nat) + 1)) ∧
    (({ State.reset with boot.service := true, hfe.ctrls := [{ id := 0, en := true }] } : State).boot.fastStopped = false) ∧ (({ State.reset with boot.service := true, hfe.ctrls := [{ id := 0, en := true }] } : State).saf.failSilent = false) ∧ (ctrlOf ({ State.reset with boot.service := true, hfe.ctrls := [{ id := 0, en := true }] } : State) (0 : Nat) = some ({ id := 0, en := true } : Ctrl)) ∧ (ctrlReady ({ State.reset with boot.service := true, hfe.ctrls := [{ id := 0, en := true }] } : State) ({ id := 0, en := true } : Ctrl) = true) ∧
    (5 ≤ (6 : Nat)) ∧ ((6 : Nat) ≤ 8) ∧ ((2 : Nat) ≠ 0) := by
  decide

set_option maxRecDepth 100000 in
/-- The hypotheses of NvmeControllersAndAssociations are met. -/
theorem test_met_NvmeControllersAndAssociations_1 :
    ((8 : Nat) ≠ 0) ∧ (volumeOf ({ State.reset with nv.volumes := [{ num := 7, size := 100, hosts := 1 }] } : State) ((8 : Nat) - 1) = some ({ num := 7, size := 100, hosts := 1 } : Volume)) ∧ (attached ({ id := 0 } : Ctrl) ({ num := 7, size := 100, hosts := 1 } : Volume) = true) ∧
    ((0 : Nat) = 0 ∨ volumeOf (State.reset : State) ((0 : Nat) - 1) = none) ∧
    (({ State.reset with boot.service := true, hfe.ctrls := [{ id := 0, en := true }] } : State).boot.fastStopped = false) ∧ (({ State.reset with boot.service := true, hfe.ctrls := [{ id := 0, en := true }] } : State).saf.failSilent = false) ∧ (ctrlOf ({ State.reset with boot.service := true, hfe.ctrls := [{ id := 0, en := true }] } : State) (0 : Nat) = some ({ id := 0, en := true } : Ctrl)) ∧ (ctrlReady ({ State.reset with boot.service := true, hfe.ctrls := [{ id := 0, en := true }] } : State) ({ id := 0, en := true } : Ctrl) = true) ∧ (abortsOf ({ State.reset with boot.service := true, hfe.ctrls := [{ id := 0, en := true }] } : State) ({ id := 0, en := true } : Ctrl).id < 256) ∧
    (({ State.reset with hfe.aborts := [{ ctrl := 0, cid := 5, target := none }] } : State).boot.fastStopped = false) ∧ (({ State.reset with hfe.aborts := [{ ctrl := 0, cid := 5, target := none }] } : State).saf.failSilent = false) ∧ ((({ State.reset with hfe.aborts := [{ ctrl := 0, cid := 5, target := none }] } : State).hfe.aborts.find? fun e => e.ctrl == (0 : Nat) && e.cid == (5 : Nat) && !e.remote) = some ({ ctrl := 0, cid := 5, target := none } : AbortCmd)) ∧
    (abortTarget (State.reset : State) ({ ctrl := 0, cid := 5, target := none } : AbortCmd) = none) := by
  decide

set_option maxRecDepth 100000 in
/-- The hypotheses of NvmeControllersAndAssociations are met. -/
theorem test_met_NvmeControllersAndAssociations_2 :
    (abortTarget ({ State.reset with hfe.tags := [{ idx := 0, state := 1 }] } : State) ({ ctrl := 0, cid := 5, target := some (0, 0) } : AbortCmd) = some ({ idx := 0, state := 1 } : Tag)) ∧ (leftForPeer ({ State.reset with hfe.tags := [{ idx := 0, state := 1 }] } : State) ({ idx := 0, state := 1 } : Tag).idx = false) ∧ (abortWins ({ State.reset with hfe.tags := [{ idx := 0, state := 1 }] } : State) ({ idx := 0, state := 1 } : Tag) = true) ∧
    (abortTarget ({ State.reset with hfe.tags := [{ idx := 0, state := 5 }] } : State) ({ ctrl := 0, cid := 5, target := some (0, 0) } : AbortCmd) = some ({ idx := 0, state := 5 } : Tag)) ∧ (leftForPeer ({ State.reset with hfe.tags := [{ idx := 0, state := 5 }] } : State) ({ idx := 0, state := 5 } : Tag).idx = false) ∧ (abortWins ({ State.reset with hfe.tags := [{ idx := 0, state := 5 }] } : State) ({ idx := 0, state := 5 } : Tag) = false) ∧
    ((State.reset : State).boot.fastStopped = false) ∧
    ((State.reset : State).boot.fastStopped = false) ∧ ((0 : Nat) < 2) ∧
    ((State.reset : State).boot.fastStopped = false) := by
  decide

set_option maxRecDepth 100000 in
/-- The hypotheses of NvmeControllersAndAssociations are met. -/
theorem test_met_NvmeControllersAndAssociations_3 :
    (({ State.reset with boot.service := true, hfe.ctrls := [{ id := 2 }] } : State).boot.fastStopped = false) ∧ (({ State.reset with boot.service := true, hfe.ctrls := [{ id := 2 }] } : State).saf.failSilent = false) ∧ (2 ≤ (2 : Nat)) ∧ ((ctrlOf ({ State.reset with boot.service := true, hfe.ctrls := [{ id := 2 }] } : State) (2 : Nat)).isSome = true) ∧
    (({ State.reset with boot.service := true, hfe.ctrls := [{ id := 2 }] } : State).boot.fastStopped = false) ∧ (({ State.reset with boot.service := true, hfe.ctrls := [{ id := 2 }] } : State).saf.failSilent = false) ∧ (({ State.reset with boot.service := true, hfe.ctrls := [{ id := 2 }] } : State).pwr.doze = false) ∧ (2 ≤ (2 : Nat)) ∧ ((ctrlOf ({ State.reset with boot.service := true, hfe.ctrls := [{ id := 2 }] } : State) (2 : Nat)).isSome = true) ∧
    ((State.reset : State).boot.fastStopped = false) ∧ ((State.reset : State).saf.failSilent = false) ∧
    (({ State.reset with rma.conns := [{ num := 0, cls := 0, state := 2 }] } : State).boot.fastStopped = false) ∧ (({ State.reset with rma.conns := [{ num := 0, cls := 0, state := 2 }] } : State).saf.failSilent = false) ∧ (({ State.reset with rma.conns := [{ num := 0, cls := 0, state := 2 }] } : State).pwr.doze = false) ∧ (({ State.reset with rma.conns := [{ num := 0, cls := 0, state := 2 }] } : State).rma.conns.any (fun x => x.num == (0 : Nat) && decide (x.cls < 2) && x.state == 2 && x.ctrlId.isNone) = true) ∧ ((({ State.reset with rma.conns := [{ num := 0, cls := 0, state := 2 }] } : State).hfe.ctrls.filter fun c => decide (2 ≤ c.id)).length < 4096) ∧
    (({ State.reset with boot.service := true, hfe.ctrls := [{ id := 2 }] } : State).boot.fastStopped = false) ∧ (({ State.reset with boot.service := true, hfe.ctrls := [{ id := 2 }] } : State).saf.failSilent = false) ∧ (({ State.reset with boot.service := true, hfe.ctrls := [{ id := 2 }] } : State).pwr.doze = false) ∧ (ctrlOf ({ State.reset with boot.service := true, hfe.ctrls := [{ id := 2 }] } : State) (2 : Nat) = some ({ id := 2 } : Ctrl)) ∧ (2 ≤ ({ id := 2 } : Ctrl).id) ∧ (propertyOf ({ State.reset with boot.service := true, hfe.ctrls := [{ id := 2 }] } : State) ({ id := 2 } : Ctrl) (8 : Nat) = some (0x20000 : Nat)) := by
  decide

set_option maxRecDepth 100000 in
/-- The hypotheses of NvmeControllersAndAssociations are met. -/
theorem test_met_NvmeControllersAndAssociations_4 :
    (({ State.reset with boot.service := true, hfe.ctrls := [{ id := 2 }] } : State).boot.fastStopped = false) ∧ (({ State.reset with boot.service := true, hfe.ctrls := [{ id := 2 }] } : State).saf.failSilent = false) ∧ (({ State.reset with boot.service := true, hfe.ctrls := [{ id := 2 }] } : State).pwr.doze = false) ∧ (ctrlOf ({ State.reset with boot.service := true, hfe.ctrls := [{ id := 2 }] } : State) (2 : Nat) = some ({ id := 2 } : Ctrl)) ∧ (2 ≤ ({ id := 2 } : Ctrl).id) ∧ (bit (1 : Nat) 0 = true) ∧
    (({ State.reset with boot.service := true, hfe.ctrls := [{ id := 2, en := true }] } : State).boot.fastStopped = false) ∧ (({ State.reset with boot.service := true, hfe.ctrls := [{ id := 2, en := true }] } : State).saf.failSilent = false) ∧ (({ State.reset with boot.service := true, hfe.ctrls := [{ id := 2, en := true }] } : State).pwr.doze = false) ∧ (ctrlOf ({ State.reset with boot.service := true, hfe.ctrls := [{ id := 2, en := true }] } : State) (2 : Nat) = some ({ id := 2, en := true } : Ctrl)) ∧ (2 ≤ ({ id := 2, en := true } : Ctrl).id) ∧ (bit (0 : Nat) 0 = false) ∧ (({ id := 2, en := true } : Ctrl).en = true) := by
  decide

set_option maxRecDepth 100000 in
/-- The hypotheses of IoCommandsAtFetch are met. -/
theorem test_met_IoCommandsAtFetch_0 :
    (({ State.reset with boot.service := true, hfe.ctrls := [{ id := 0, en := true, sqs := [(1, 1, 7, 0)] }], nv.domains := [{ num := 0 }], nv.volumes := [{ num := 7, size := 100, hosts := 1, format := 2 }] } : State).boot.fastStopped = false) ∧ (({ State.reset with boot.service := true, hfe.ctrls := [{ id := 0, en := true, sqs := [(1, 1, 7, 0)] }], nv.domains := [{ num := 0 }], nv.volumes := [{ num := 7, size := 100, hosts := 1, format := 2 }] } : State).saf.failSilent = false) ∧ (fetches ({ State.reset with boot.service := true, hfe.ctrls := [{ id := 0, en := true, sqs := [(1, 1, 7, 0)] }], nv.domains := [{ num := 0 }], nv.volumes := [{ num := 7, size := 100, hosts := 1, format := 2 }] } : State) (0 : Nat) (1 : Nat) = true) ∧ ((0 : Nat) < 2) ∧ (({ State.reset with boot.service := true, hfe.ctrls := [{ id := 0, en := true, sqs := [(1, 1, 7, 0)] }], nv.domains := [{ num := 0 }], nv.volumes := [{ num := 7, size := 100, hosts := 1, format := 2 }] } : State).hfe.waiting.length < freeTags ({ State.reset with boot.service := true, hfe.ctrls := [{ id := 0, en := true, sqs := [(1, 1, 7, 0)] }], nv.domains := [{ num := 0 }], nv.volumes := [{ num := 7, size := 100, hosts := 1, format := 2 }] } : State)) ∧ (ioRefusal ({ State.reset with boot.service := true, hfe.ctrls := [{ id := 0, en := true, sqs := [(1, 1, 7, 0)] }], nv.domains := [{ num := 0 }], nv.volumes := [{ num := 7, size := 100, hosts := 1, format := 2 }] } : State) (ctrlOf ({ State.reset with boot.service := true, hfe.ctrls := [{ id := 0, en := true, sqs := [(1, 1, 7, 0)] }], nv.domains := [{ num := 0 }], nv.volumes := [{ num := 7, size := 100, hosts := 1, format := 2 }] } : State) (0 : Nat)) { opcode := 0x00, nsid := (8 : Nat) } = none) ∧
    (({ State.reset with boot.service := true, hfe.ctrls := [{ id := 0, en := true, sqs := [(1, 1, 7, 0)] }], nv.domains := [{ num := 0 }], nv.volumes := [{ num := 7, size := 100, hosts := 1, format := 2 }] } : State).boot.fastStopped = false) ∧ (({ State.reset with boot.service := true, hfe.ctrls := [{ id := 0, en := true, sqs := [(1, 1, 7, 0)] }], nv.domains := [{ num := 0 }], nv.volumes := [{ num := 7, size := 100, hosts := 1, format := 2 }] } : State).saf.failSilent = false) ∧ (fetches ({ State.reset with boot.service := true, hfe.ctrls := [{ id := 0, en := true, sqs := [(1, 1, 7, 0)] }], nv.domains := [{ num := 0 }], nv.volumes := [{ num := 7, size := 100, hosts := 1, format := 2 }] } : State) (0 : Nat) (1 : Nat) = true) ∧ ((0 : Nat) < 2) ∧ (({ State.reset with boot.service := true, hfe.ctrls := [{ id := 0, en := true, sqs := [(1, 1, 7, 0)] }], nv.domains := [{ num := 0 }], nv.volumes := [{ num := 7, size := 100, hosts := 1, format := 2 }] } : State).hfe.waiting.length < freeTags ({ State.reset with boot.service := true, hfe.ctrls := [{ id := 0, en := true, sqs := [(1, 1, 7, 0)] }], nv.domains := [{ num := 0 }], nv.volumes := [{ num := 7, size := 100, hosts := 1, format := 2 }] } : State)) ∧ (ioRefusal ({ State.reset with boot.service := true, hfe.ctrls := [{ id := 0, en := true, sqs := [(1, 1, 7, 0)] }], nv.domains := [{ num := 0 }], nv.volumes := [{ num := 7, size := 100, hosts := 1, format := 2 }] } : State) (ctrlOf ({ State.reset with boot.service := true, hfe.ctrls := [{ id := 0, en := true, sqs := [(1, 1, 7, 0)] }], nv.domains := [{ num := 0 }], nv.volumes := [{ num := 7, size := 100, hosts := 1, format := 2 }] } : State) (0 : Nat)) { opcode := 0x00, nsid := (99 : Nat) } = some (.invalidNamespace : NvmeStatus)) ∧
    (({ State.reset with boot.service := true, hfe.ctrls := [{ id := 0, en := true, sqs := [(1, 1, 7, 0)] }], nv.domains := [{ num := 0 }], nv.volumes := [{ num := 7, size := 100, hosts := 1, format := 2 }] } : State).boot.fastStopped = false) ∧ (({ State.reset with boot.service := true, hfe.ctrls := [{ id := 0, en := true, sqs := [(1, 1, 7, 0)] }], nv.domains := [{ num := 0 }], nv.volumes := [{ num := 7, size := 100, hosts := 1, format := 2 }] } : State).saf.failSilent = false) ∧ (fetches ({ State.reset with boot.service := true, hfe.ctrls := [{ id := 0, en := true, sqs := [(1, 1, 7, 0)] }], nv.domains := [{ num := 0 }], nv.volumes := [{ num := 7, size := 100, hosts := 1, format := 2 }] } : State) (0 : Nat) (1 : Nat) = true) ∧ ((0 : Nat) < 2) ∧ (({ State.reset with boot.service := true, hfe.ctrls := [{ id := 0, en := true, sqs := [(1, 1, 7, 0)] }], nv.domains := [{ num := 0 }], nv.volumes := [{ num := 7, size := 100, hosts := 1, format := 2 }] } : State).hfe.waiting.length < freeTags ({ State.reset with boot.service := true, hfe.ctrls := [{ id := 0, en := true, sqs := [(1, 1, 7, 0)] }], nv.domains := [{ num := 0 }], nv.volumes := [{ num := 7, size := 100, hosts := 1, format := 2 }] } : State)) ∧ (ioRefusal ({ State.reset with boot.service := true, hfe.ctrls := [{ id := 0, en := true, sqs := [(1, 1, 7, 0)] }], nv.domains := [{ num := 0 }], nv.volumes := [{ num := 7, size := 100, hosts := 1, format := 2 }] } : State) (ctrlOf ({ State.reset with boot.service := true, hfe.ctrls := [{ id := 0, en := true, sqs := [(1, 1, 7, 0)] }], nv.domains := [{ num := 0 }], nv.volumes := [{ num := 7, size := 100, hosts := 1, format := 2 }] } : State) (0 : Nat)) { opcode := 0x01, nsid := (8 : Nat), slba := (0 : Nat), nlb := (0 : Nat), pi := ({ pract := true } : PiCtl), sglLen := (4096 : Nat) } = none) ∧
    (({ State.reset with boot.service := true, hfe.ctrls := [{ id := 0, en := true, sqs := [(1, 1, 7, 0)] }], nv.domains := [{ num := 0 }], nv.volumes := [{ num := 7, size := 100, hosts := 1, format := 2 }] } : State).boot.fastStopped = false) ∧ (({ State.reset with boot.service := true, hfe.ctrls := [{ id := 0, en := true, sqs := [(1, 1, 7, 0)] }], nv.domains := [{ num := 0 }], nv.volumes := [{ num := 7, size := 100, hosts := 1, format := 2 }] } : State).saf.failSilent = false) ∧ (fetches ({ State.reset with boot.service := true, hfe.ctrls := [{ id := 0, en := true, sqs := [(1, 1, 7, 0)] }], nv.domains := [{ num := 0 }], nv.volumes := [{ num := 7, size := 100, hosts := 1, format := 2 }] } : State) (0 : Nat) (1 : Nat) = true) ∧ ((0 : Nat) < 2) ∧ (({ State.reset with boot.service := true, hfe.ctrls := [{ id := 0, en := true, sqs := [(1, 1, 7, 0)] }], nv.domains := [{ num := 0 }], nv.volumes := [{ num := 7, size := 100, hosts := 1, format := 2 }] } : State).hfe.waiting.length < freeTags ({ State.reset with boot.service := true, hfe.ctrls := [{ id := 0, en := true, sqs := [(1, 1, 7, 0)] }], nv.domains := [{ num := 0 }], nv.volumes := [{ num := 7, size := 100, hosts := 1, format := 2 }] } : State)) ∧ (ioRefusal ({ State.reset with boot.service := true, hfe.ctrls := [{ id := 0, en := true, sqs := [(1, 1, 7, 0)] }], nv.domains := [{ num := 0 }], nv.volumes := [{ num := 7, size := 100, hosts := 1, format := 2 }] } : State) (ctrlOf ({ State.reset with boot.service := true, hfe.ctrls := [{ id := 0, en := true, sqs := [(1, 1, 7, 0)] }], nv.domains := [{ num := 0 }], nv.volumes := [{ num := 7, size := 100, hosts := 1, format := 2 }] } : State) (0 : Nat)) { opcode := 0x01, nsid := (99 : Nat), slba := (0 : Nat), nlb := (0 : Nat), pi := ({ pract := true } : PiCtl), sglLen := (4096 : Nat) } = some (.invalidNamespace : NvmeStatus)) ∧
    (({ State.reset with boot.service := true, hfe.ctrls := [{ id := 0, en := true, sqs := [(1, 1, 7, 0)] }], nv.domains := [{ num := 0 }], nv.volumes := [{ num := 7, size := 100, hosts := 1, format := 2 }] } : State).boot.fastStopped = false) ∧ (({ State.reset with boot.service := true, hfe.ctrls := [{ id := 0, en := true, sqs := [(1, 1, 7, 0)] }], nv.domains := [{ num := 0 }], nv.volumes := [{ num := 7, size := 100, hosts := 1, format := 2 }] } : State).saf.failSilent = false) ∧ (fetches ({ State.reset with boot.service := true, hfe.ctrls := [{ id := 0, en := true, sqs := [(1, 1, 7, 0)] }], nv.domains := [{ num := 0 }], nv.volumes := [{ num := 7, size := 100, hosts := 1, format := 2 }] } : State) (0 : Nat) (1 : Nat) = true) ∧ ((0 : Nat) < 2) ∧ (({ State.reset with boot.service := true, hfe.ctrls := [{ id := 0, en := true, sqs := [(1, 1, 7, 0)] }], nv.domains := [{ num := 0 }], nv.volumes := [{ num := 7, size := 100, hosts := 1, format := 2 }] } : State).hfe.waiting.length < freeTags ({ State.reset with boot.service := true, hfe.ctrls := [{ id := 0, en := true, sqs := [(1, 1, 7, 0)] }], nv.domains := [{ num := 0 }], nv.volumes := [{ num := 7, size := 100, hosts := 1, format := 2 }] } : State)) ∧ (ioRefusal ({ State.reset with boot.service := true, hfe.ctrls := [{ id := 0, en := true, sqs := [(1, 1, 7, 0)] }], nv.domains := [{ num := 0 }], nv.volumes := [{ num := 7, size := 100, hosts := 1, format := 2 }] } : State) (ctrlOf ({ State.reset with boot.service := true, hfe.ctrls := [{ id := 0, en := true, sqs := [(1, 1, 7, 0)] }], nv.domains := [{ num := 0 }], nv.volumes := [{ num := 7, size := 100, hosts := 1, format := 2 }] } : State) (0 : Nat)) { opcode := 0x02, nsid := (8 : Nat), slba := (0 : Nat), nlb := (0 : Nat), pi := ({ pract := true } : PiCtl), sglLen := (4096 : Nat) } = none) := by
  decide

set_option maxRecDepth 100000 in
/-- The hypotheses of IoCommandsAtFetch are met. -/
theorem test_met_IoCommandsAtFetch_1 :
    (({ State.reset with boot.service := true, hfe.ctrls := [{ id := 0, en := true, sqs := [(1, 1, 7, 0)] }], nv.domains := [{ num := 0 }], nv.volumes := [{ num := 7, size := 100, hosts := 1, format := 2 }] } : State).boot.fastStopped = false) ∧ (({ State.reset with boot.service := true, hfe.ctrls := [{ id := 0, en := true, sqs := [(1, 1, 7, 0)] }], nv.domains := [{ num := 0 }], nv.volumes := [{ num := 7, size := 100, hosts := 1, format := 2 }] } : State).saf.failSilent = false) ∧ (fetches ({ State.reset with boot.service := true, hfe.ctrls := [{ id := 0, en := true, sqs := [(1, 1, 7, 0)] }], nv.domains := [{ num := 0 }], nv.volumes := [{ num := 7, size := 100, hosts := 1, format := 2 }] } : State) (0 : Nat) (1 : Nat) = true) ∧ ((0 : Nat) < 2) ∧ (({ State.reset with boot.service := true, hfe.ctrls := [{ id := 0, en := true, sqs := [(1, 1, 7, 0)] }], nv.domains := [{ num := 0 }], nv.volumes := [{ num := 7, size := 100, hosts := 1, format := 2 }] } : State).hfe.waiting.length < freeTags ({ State.reset with boot.service := true, hfe.ctrls := [{ id := 0, en := true, sqs := [(1, 1, 7, 0)] }], nv.domains := [{ num := 0 }], nv.volumes := [{ num := 7, size := 100, hosts := 1, format := 2 }] } : State)) ∧ (ioRefusal ({ State.reset with boot.service := true, hfe.ctrls := [{ id := 0, en := true, sqs := [(1, 1, 7, 0)] }], nv.domains := [{ num := 0 }], nv.volumes := [{ num := 7, size := 100, hosts := 1, format := 2 }] } : State) (ctrlOf ({ State.reset with boot.service := true, hfe.ctrls := [{ id := 0, en := true, sqs := [(1, 1, 7, 0)] }], nv.domains := [{ num := 0 }], nv.volumes := [{ num := 7, size := 100, hosts := 1, format := 2 }] } : State) (0 : Nat)) { opcode := 0x02, nsid := (99 : Nat), slba := (0 : Nat), nlb := (0 : Nat), pi := ({ pract := true } : PiCtl), sglLen := (4096 : Nat) } = some (.invalidNamespace : NvmeStatus)) ∧
    (({ State.reset with boot.service := true, hfe.ctrls := [{ id := 0, en := true, sqs := [(1, 1, 7, 0)] }], nv.domains := [{ num := 0 }], nv.volumes := [{ num := 7, size := 100, hosts := 1, format := 2 }] } : State).boot.fastStopped = false) ∧ (({ State.reset with boot.service := true, hfe.ctrls := [{ id := 0, en := true, sqs := [(1, 1, 7, 0)] }], nv.domains := [{ num := 0 }], nv.volumes := [{ num := 7, size := 100, hosts := 1, format := 2 }] } : State).saf.failSilent = false) ∧ (fetches ({ State.reset with boot.service := true, hfe.ctrls := [{ id := 0, en := true, sqs := [(1, 1, 7, 0)] }], nv.domains := [{ num := 0 }], nv.volumes := [{ num := 7, size := 100, hosts := 1, format := 2 }] } : State) (0 : Nat) (1 : Nat) = true) ∧ ((0 : Nat) < 2) ∧ (({ State.reset with boot.service := true, hfe.ctrls := [{ id := 0, en := true, sqs := [(1, 1, 7, 0)] }], nv.domains := [{ num := 0 }], nv.volumes := [{ num := 7, size := 100, hosts := 1, format := 2 }] } : State).hfe.waiting.length < freeTags ({ State.reset with boot.service := true, hfe.ctrls := [{ id := 0, en := true, sqs := [(1, 1, 7, 0)] }], nv.domains := [{ num := 0 }], nv.volumes := [{ num := 7, size := 100, hosts := 1, format := 2 }] } : State)) ∧ (ioRefusal ({ State.reset with boot.service := true, hfe.ctrls := [{ id := 0, en := true, sqs := [(1, 1, 7, 0)] }], nv.domains := [{ num := 0 }], nv.volumes := [{ num := 7, size := 100, hosts := 1, format := 2 }] } : State) (ctrlOf ({ State.reset with boot.service := true, hfe.ctrls := [{ id := 0, en := true, sqs := [(1, 1, 7, 0)] }], nv.domains := [{ num := 0 }], nv.volumes := [{ num := 7, size := 100, hosts := 1, format := 2 }] } : State) (0 : Nat)) { opcode := 0x05, nsid := (8 : Nat), slba := (0 : Nat), nlb := (0 : Nat), pi := ({ pract := true } : PiCtl), sglLen := (4096 : Nat) } = none) ∧
    (({ State.reset with boot.service := true, hfe.ctrls := [{ id := 0, en := true, sqs := [(1, 1, 7, 0)] }], nv.domains := [{ num := 0 }], nv.volumes := [{ num := 7, size := 100, hosts := 1, format := 2 }] } : State).boot.fastStopped = false) ∧ (({ State.reset with boot.service := true, hfe.ctrls := [{ id := 0, en := true, sqs := [(1, 1, 7, 0)] }], nv.domains := [{ num := 0 }], nv.volumes := [{ num := 7, size := 100, hosts := 1, format := 2 }] } : State).saf.failSilent = false) ∧ (fetches ({ State.reset with boot.service := true, hfe.ctrls := [{ id := 0, en := true, sqs := [(1, 1, 7, 0)] }], nv.domains := [{ num := 0 }], nv.volumes := [{ num := 7, size := 100, hosts := 1, format := 2 }] } : State) (0 : Nat) (1 : Nat) = true) ∧ ((0 : Nat) < 2) ∧ (({ State.reset with boot.service := true, hfe.ctrls := [{ id := 0, en := true, sqs := [(1, 1, 7, 0)] }], nv.domains := [{ num := 0 }], nv.volumes := [{ num := 7, size := 100, hosts := 1, format := 2 }] } : State).hfe.waiting.length < freeTags ({ State.reset with boot.service := true, hfe.ctrls := [{ id := 0, en := true, sqs := [(1, 1, 7, 0)] }], nv.domains := [{ num := 0 }], nv.volumes := [{ num := 7, size := 100, hosts := 1, format := 2 }] } : State)) ∧ (ioRefusal ({ State.reset with boot.service := true, hfe.ctrls := [{ id := 0, en := true, sqs := [(1, 1, 7, 0)] }], nv.domains := [{ num := 0 }], nv.volumes := [{ num := 7, size := 100, hosts := 1, format := 2 }] } : State) (ctrlOf ({ State.reset with boot.service := true, hfe.ctrls := [{ id := 0, en := true, sqs := [(1, 1, 7, 0)] }], nv.domains := [{ num := 0 }], nv.volumes := [{ num := 7, size := 100, hosts := 1, format := 2 }] } : State) (0 : Nat)) { opcode := 0x05, nsid := (99 : Nat), slba := (0 : Nat), nlb := (0 : Nat), pi := ({ pract := true } : PiCtl), sglLen := (4096 : Nat) } = some (.invalidNamespace : NvmeStatus)) ∧
    (({ State.reset with boot.service := true, hfe.ctrls := [{ id := 0, en := true, sqs := [(1, 1, 7, 0)] }], nv.domains := [{ num := 0 }], nv.volumes := [{ num := 7, size := 100, hosts := 1, format := 2 }] } : State).boot.fastStopped = false) ∧ (({ State.reset with boot.service := true, hfe.ctrls := [{ id := 0, en := true, sqs := [(1, 1, 7, 0)] }], nv.domains := [{ num := 0 }], nv.volumes := [{ num := 7, size := 100, hosts := 1, format := 2 }] } : State).saf.failSilent = false) ∧ (fetches ({ State.reset with boot.service := true, hfe.ctrls := [{ id := 0, en := true, sqs := [(1, 1, 7, 0)] }], nv.domains := [{ num := 0 }], nv.volumes := [{ num := 7, size := 100, hosts := 1, format := 2 }] } : State) (0 : Nat) (1 : Nat) = true) ∧ ((0 : Nat) < 2) ∧ (({ State.reset with boot.service := true, hfe.ctrls := [{ id := 0, en := true, sqs := [(1, 1, 7, 0)] }], nv.domains := [{ num := 0 }], nv.volumes := [{ num := 7, size := 100, hosts := 1, format := 2 }] } : State).hfe.waiting.length < freeTags ({ State.reset with boot.service := true, hfe.ctrls := [{ id := 0, en := true, sqs := [(1, 1, 7, 0)] }], nv.domains := [{ num := 0 }], nv.volumes := [{ num := 7, size := 100, hosts := 1, format := 2 }] } : State)) ∧ (ioRefusal ({ State.reset with boot.service := true, hfe.ctrls := [{ id := 0, en := true, sqs := [(1, 1, 7, 0)] }], nv.domains := [{ num := 0 }], nv.volumes := [{ num := 7, size := 100, hosts := 1, format := 2 }] } : State) (ctrlOf ({ State.reset with boot.service := true, hfe.ctrls := [{ id := 0, en := true, sqs := [(1, 1, 7, 0)] }], nv.domains := [{ num := 0 }], nv.volumes := [{ num := 7, size := 100, hosts := 1, format := 2 }] } : State) (0 : Nat)) { opcode := 0x08, nsid := (8 : Nat), slba := (0 : Nat), nlb := (0 : Nat), deac := (true : Bool) } = none) ∧
    (({ State.reset with boot.service := true, hfe.ctrls := [{ id := 0, en := true, sqs := [(1, 1, 7, 0)] }], nv.domains := [{ num := 0 }], nv.volumes := [{ num := 7, size := 100, hosts := 1, format := 2 }] } : State).boot.fastStopped = false) ∧ (({ State.reset with boot.service := true, hfe.ctrls := [{ id := 0, en := true, sqs := [(1, 1, 7, 0)] }], nv.domains := [{ num := 0 }], nv.volumes := [{ num := 7, size := 100, hosts := 1, format := 2 }] } : State).saf.failSilent = false) ∧ (fetches ({ State.reset with boot.service := true, hfe.ctrls := [{ id := 0, en := true, sqs := [(1, 1, 7, 0)] }], nv.domains := [{ num := 0 }], nv.volumes := [{ num := 7, size := 100, hosts := 1, format := 2 }] } : State) (0 : Nat) (1 : Nat) = true) ∧ ((0 : Nat) < 2) ∧ (({ State.reset with boot.service := true, hfe.ctrls := [{ id := 0, en := true, sqs := [(1, 1, 7, 0)] }], nv.domains := [{ num := 0 }], nv.volumes := [{ num := 7, size := 100, hosts := 1, format := 2 }] } : State).hfe.waiting.length < freeTags ({ State.reset with boot.service := true, hfe.ctrls := [{ id := 0, en := true, sqs := [(1, 1, 7, 0)] }], nv.domains := [{ num := 0 }], nv.volumes := [{ num := 7, size := 100, hosts := 1, format := 2 }] } : State)) ∧ (ioRefusal ({ State.reset with boot.service := true, hfe.ctrls := [{ id := 0, en := true, sqs := [(1, 1, 7, 0)] }], nv.domains := [{ num := 0 }], nv.volumes := [{ num := 7, size := 100, hosts := 1, format := 2 }] } : State) (ctrlOf ({ State.reset with boot.service := true, hfe.ctrls := [{ id := 0, en := true, sqs := [(1, 1, 7, 0)] }], nv.domains := [{ num := 0 }], nv.volumes := [{ num := 7, size := 100, hosts := 1, format := 2 }] } : State) (0 : Nat)) { opcode := 0x08, nsid := (99 : Nat), slba := (0 : Nat), nlb := (0 : Nat), deac := (true : Bool) } = some (.invalidNamespace : NvmeStatus)) := by
  decide

set_option maxRecDepth 100000 in
/-- The hypotheses of IoCommandsAtFetch are met. -/
theorem test_met_IoCommandsAtFetch_2 :
    (({ State.reset with boot.service := true, hfe.ctrls := [{ id := 0, en := true, sqs := [(1, 1, 7, 0)] }], nv.domains := [{ num := 0 }], nv.volumes := [{ num := 7, size := 100, hosts := 1, format := 2 }] } : State).boot.fastStopped = false) ∧ (({ State.reset with boot.service := true, hfe.ctrls := [{ id := 0, en := true, sqs := [(1, 1, 7, 0)] }], nv.domains := [{ num := 0 }], nv.volumes := [{ num := 7, size := 100, hosts := 1, format := 2 }] } : State).saf.failSilent = false) ∧ (fetches ({ State.reset with boot.service := true, hfe.ctrls := [{ id := 0, en := true, sqs := [(1, 1, 7, 0)] }], nv.domains := [{ num := 0 }], nv.volumes := [{ num := 7, size := 100, hosts := 1, format := 2 }] } : State) (0 : Nat) (1 : Nat) = true) ∧ ((0 : Nat) < 2) ∧ (({ State.reset with boot.service := true, hfe.ctrls := [{ id := 0, en := true, sqs := [(1, 1, 7, 0)] }], nv.domains := [{ num := 0 }], nv.volumes := [{ num := 7, size := 100, hosts := 1, format := 2 }] } : State).hfe.waiting.length < freeTags ({ State.reset with boot.service := true, hfe.ctrls := [{ id := 0, en := true, sqs := [(1, 1, 7, 0)] }], nv.domains := [{ num := 0 }], nv.volumes := [{ num := 7, size := 100, hosts := 1, format := 2 }] } : State)) ∧ (ioRefusal ({ State.reset with boot.service := true, hfe.ctrls := [{ id := 0, en := true, sqs := [(1, 1, 7, 0)] }], nv.domains := [{ num := 0 }], nv.volumes := [{ num := 7, size := 100, hosts := 1, format := 2 }] } : State) (ctrlOf ({ State.reset with boot.service := true, hfe.ctrls := [{ id := 0, en := true, sqs := [(1, 1, 7, 0)] }], nv.domains := [{ num := 0 }], nv.volumes := [{ num := 7, size := 100, hosts := 1, format := 2 }] } : State) (0 : Nat)) { opcode := 0x09, nsid := (8 : Nat), nlb := (0 : Nat), ad := (true : Bool), ranges := ([(0, 8)] : List (Nat × Nat)).take ((0 : Nat) + 1), sglLen := (16 : Nat) } = none) ∧
    (({ State.reset with boot.service := true, hfe.ctrls := [{ id := 0, en := true, sqs := [(1, 1, 7, 0)] }], nv.domains := [{ num := 0 }], nv.volumes := [{ num := 7, size := 100, hosts := 1, format := 2 }] } : State).boot.fastStopped = false) ∧ (({ State.reset with boot.service := true, hfe.ctrls := [{ id := 0, en := true, sqs := [(1, 1, 7, 0)] }], nv.domains := [{ num := 0 }], nv.volumes := [{ num := 7, size := 100, hosts := 1, format := 2 }] } : State).saf.failSilent = false) ∧ (fetches ({ State.reset with boot.service := true, hfe.ctrls := [{ id := 0, en := true, sqs := [(1, 1, 7, 0)] }], nv.domains := [{ num := 0 }], nv.volumes := [{ num := 7, size := 100, hosts := 1, format := 2 }] } : State) (0 : Nat) (1 : Nat) = true) ∧ ((0 : Nat) < 2) ∧ (({ State.reset with boot.service := true, hfe.ctrls := [{ id := 0, en := true, sqs := [(1, 1, 7, 0)] }], nv.domains := [{ num := 0 }], nv.volumes := [{ num := 7, size := 100, hosts := 1, format := 2 }] } : State).hfe.waiting.length < freeTags ({ State.reset with boot.service := true, hfe.ctrls := [{ id := 0, en := true, sqs := [(1, 1, 7, 0)] }], nv.domains := [{ num := 0 }], nv.volumes := [{ num := 7, size := 100, hosts := 1, format := 2 }] } : State)) ∧ (ioRefusal ({ State.reset with boot.service := true, hfe.ctrls := [{ id := 0, en := true, sqs := [(1, 1, 7, 0)] }], nv.domains := [{ num := 0 }], nv.volumes := [{ num := 7, size := 100, hosts := 1, format := 2 }] } : State) (ctrlOf ({ State.reset with boot.service := true, hfe.ctrls := [{ id := 0, en := true, sqs := [(1, 1, 7, 0)] }], nv.domains := [{ num := 0 }], nv.volumes := [{ num := 7, size := 100, hosts := 1, format := 2 }] } : State) (0 : Nat)) { opcode := 0x09, nsid := (99 : Nat), nlb := (0 : Nat), ad := (true : Bool), ranges := ([(0, 8)] : List (Nat × Nat)).take ((0 : Nat) + 1), sglLen := (16 : Nat) } = some (.invalidNamespace : NvmeStatus)) ∧
    (({ State.reset with boot.service := true, hfe.ctrls := [{ id := 0, en := true, sqs := [(1, 1, 7, 0)] }], nv.domains := [{ num := 0 }], nv.volumes := [{ num := 7, size := 100, hosts := 1, format := 2 }] } : State).boot.fastStopped = false) ∧ (({ State.reset with boot.service := true, hfe.ctrls := [{ id := 0, en := true, sqs := [(1, 1, 7, 0)] }], nv.domains := [{ num := 0 }], nv.volumes := [{ num := 7, size := 100, hosts := 1, format := 2 }] } : State).saf.failSilent = false) ∧ (fetches ({ State.reset with boot.service := true, hfe.ctrls := [{ id := 0, en := true, sqs := [(1, 1, 7, 0)] }], nv.domains := [{ num := 0 }], nv.volumes := [{ num := 7, size := 100, hosts := 1, format := 2 }] } : State) (0 : Nat) (1 : Nat) = true) ∧ ((0 : Nat) < 2) ∧ (({ State.reset with boot.service := true, hfe.ctrls := [{ id := 0, en := true, sqs := [(1, 1, 7, 0)] }], nv.domains := [{ num := 0 }], nv.volumes := [{ num := 7, size := 100, hosts := 1, format := 2 }] } : State).hfe.waiting.length < freeTags ({ State.reset with boot.service := true, hfe.ctrls := [{ id := 0, en := true, sqs := [(1, 1, 7, 0)] }], nv.domains := [{ num := 0 }], nv.volumes := [{ num := 7, size := 100, hosts := 1, format := 2 }] } : State)) ∧ (ioRefusal ({ State.reset with boot.service := true, hfe.ctrls := [{ id := 0, en := true, sqs := [(1, 1, 7, 0)] }], nv.domains := [{ num := 0 }], nv.volumes := [{ num := 7, size := 100, hosts := 1, format := 2 }] } : State) (ctrlOf ({ State.reset with boot.service := true, hfe.ctrls := [{ id := 0, en := true, sqs := [(1, 1, 7, 0)] }], nv.domains := [{ num := 0 }], nv.volumes := [{ num := 7, size := 100, hosts := 1, format := 2 }] } : State) (0 : Nat)) { opcode := 0x0C, nsid := (8 : Nat), slba := (0 : Nat), nlb := (0 : Nat), pi := ({ pract := true } : PiCtl) } = none) ∧
    (({ State.reset with boot.service := true, hfe.ctrls := [{ id := 0, en := true, sqs := [(1, 1, 7, 0)] }], nv.domains := [{ num := 0 }], nv.volumes := [{ num := 7, size := 100, hosts := 1, format := 2 }] } : State).boot.fastStopped = false) ∧ (({ State.reset with boot.service := true, hfe.ctrls := [{ id := 0, en := true, sqs := [(1, 1, 7, 0)] }], nv.domains := [{ num := 0 }], nv.volumes := [{ num := 7, size := 100, hosts := 1, format := 2 }] } : State).saf.failSilent = false) ∧ (fetches ({ State.reset with boot.service := true, hfe.ctrls := [{ id := 0, en := true, sqs := [(1, 1, 7, 0)] }], nv.domains := [{ num := 0 }], nv.volumes := [{ num := 7, size := 100, hosts := 1, format := 2 }] } : State) (0 : Nat) (1 : Nat) = true) ∧ ((0 : Nat) < 2) ∧ (({ State.reset with boot.service := true, hfe.ctrls := [{ id := 0, en := true, sqs := [(1, 1, 7, 0)] }], nv.domains := [{ num := 0 }], nv.volumes := [{ num := 7, size := 100, hosts := 1, format := 2 }] } : State).hfe.waiting.length < freeTags ({ State.reset with boot.service := true, hfe.ctrls := [{ id := 0, en := true, sqs := [(1, 1, 7, 0)] }], nv.domains := [{ num := 0 }], nv.volumes := [{ num := 7, size := 100, hosts := 1, format := 2 }] } : State)) ∧ (ioRefusal ({ State.reset with boot.service := true, hfe.ctrls := [{ id := 0, en := true, sqs := [(1, 1, 7, 0)] }], nv.domains := [{ num := 0 }], nv.volumes := [{ num := 7, size := 100, hosts := 1, format := 2 }] } : State) (ctrlOf ({ State.reset with boot.service := true, hfe.ctrls := [{ id := 0, en := true, sqs := [(1, 1, 7, 0)] }], nv.domains := [{ num := 0 }], nv.volumes := [{ num := 7, size := 100, hosts := 1, format := 2 }] } : State) (0 : Nat)) { opcode := 0x0C, nsid := (99 : Nat), slba := (0 : Nat), nlb := (0 : Nat), pi := ({ pract := true } : PiCtl) } = some (.invalidNamespace : NvmeStatus)) ∧
    ((State.reset : State).hdl.bridge = false) ∧ (({ opcode := 1, nsid := 0 } : IoCmd).nsid = 0) ∧ (ioKind ({ opcode := 1, nsid := 0 } : IoCmd).opcode ≠ 2) := by
  decide

set_option maxRecDepth 100000 in
/-- The hypotheses of IoCommandsAtFetch are met. -/
theorem test_met_IoCommandsAtFetch_3 :
    (({ State.reset with boot.service := true, hfe.ctrls := [{ id := 0, en := true, sqs := [(1, 1, 7, 0)] }], nv.domains := [{ num := 0, writeProtected := true }], nv.volumes := [{ num := 7, size := 100, hosts := 1, format := 2 }] } : State).hdl.bridge = false) ∧ (({ opcode := 1, nsid := 8 } : IoCmd).nsid ≠ 0) ∧ (ioKind ({ opcode := 1, nsid := 8 } : IoCmd).opcode ≠ 2) ∧ (volumeOf ({ State.reset with boot.service := true, hfe.ctrls := [{ id := 0, en := true, sqs := [(1, 1, 7, 0)] }], nv.domains := [{ num := 0, writeProtected := true }], nv.volumes := [{ num := 7, size := 100, hosts := 1, format := 2 }] } : State) (({ opcode := 1, nsid := 8 } : IoCmd).nsid - 1) = some ({ num := 7, size := 100, hosts := 1, format := 2 } : Volume)) ∧ (attached ({ id := 0 } : Ctrl) ({ num := 7, size := 100, hosts := 1, format := 2 } : Volume) = true) ∧ (anaState ({ State.reset with boot.service := true, hfe.ctrls := [{ id := 0, en := true, sqs := [(1, 1, 7, 0)] }], nv.domains := [{ num := 0, writeProtected := true }], nv.volumes := [{ num := 7, size := 100, hosts := 1, format := 2 }] } : State) ({ num := 7, size := 100, hosts := 1, format := 2 } : Volume) = 1) ∧ ((ioKind ({ opcode := 1, nsid := 8 } : IoCmd).opcode = 1 ∨ ioKind ({ opcode := 1, nsid := 8 } : IoCmd).opcode = 3) ∧ (domainOf ({ State.reset with boot.service := true, hfe.ctrls := [{ id := 0, en := true, sqs := [(1, 1, 7, 0)] }], nv.domains := [{ num := 0, writeProtected := true }], nv.volumes := [{ num := 7, size := 100, hosts := 1, format := 2 }] } : State) ({ num := 7, size := 100, hosts := 1, format := 2 } : Volume).domain).map (·.writeProtected) = some true) ∧
    (ioKind ({ opcode := 1, nsid := 1, nlb := 65535 } : IoCmd).opcode = 0 ∨ ioKind ({ opcode := 1, nsid := 1, nlb := 65535 } : IoCmd).opcode = 1 ∨ ioKind ({ opcode := 1, nsid := 1, nlb := 65535 } : IoCmd).opcode = 5) ∧ (mdts < ioTransfer ({ num := 0 } : Volume) ({ opcode := 1, nsid := 1, nlb := 65535 } : IoCmd)) ∧
    (ioKind ({ opcode := 1, nsid := 1 } : IoCmd).opcode = 0 ∨ ioKind ({ opcode := 1, nsid := 1 } : IoCmd).opcode = 1 ∨ ioKind ({ opcode := 1, nsid := 1 } : IoCmd).opcode = 5) ∧ (ioTransfer ({ num := 0 } : Volume) ({ opcode := 1, nsid := 1 } : IoCmd) ≤ mdts) ∧ (({ num := 0 } : Volume).size < ({ opcode := 1, nsid := 1 } : IoCmd).slba + ioBlocks ({ opcode := 1, nsid := 1 } : IoCmd)) ∧
    (ioKind ({ opcode := 1, nsid := 1 } : IoCmd).opcode = 0 ∨ ioKind ({ opcode := 1, nsid := 1 } : IoCmd).opcode = 1 ∨ ioKind ({ opcode := 1, nsid := 1 } : IoCmd).opcode = 5) ∧ (ioTransfer ({ num := 0, size := 8 } : Volume) ({ opcode := 1, nsid := 1 } : IoCmd) ≤ mdts) ∧ (({ opcode := 1, nsid := 1 } : IoCmd).slba + ioBlocks ({ opcode := 1, nsid := 1 } : IoCmd) ≤ ({ num := 0, size := 8 } : Volume).size) ∧ ((true : Bool) = true) ∧ (({ opcode := 1, nsid := 1 } : IoCmd).sglLen < ioTransfer ({ num := 0, size := 8 } : Volume) ({ opcode := 1, nsid := 1 } : IoCmd)) ∧
    (ioKind ({ opcode := 1, nsid := 1, sglLen := 4096 } : IoCmd).opcode = 0 ∨ ioKind ({ opcode := 1, nsid := 1, sglLen := 4096 } : IoCmd).opcode = 1 ∨ ioKind ({ opcode := 1, nsid := 1, sglLen := 4096 } : IoCmd).opcode = 5) ∧ (ioTransfer ({ num := 0, size := 8 } : Volume) ({ opcode := 1, nsid := 1, sglLen := 4096 } : IoCmd) ≤ mdts) ∧ (({ opcode := 1, nsid := 1, sglLen := 4096 } : IoCmd).slba + ioBlocks ({ opcode := 1, nsid := 1, sglLen := 4096 } : IoCmd) ≤ ({ num := 0, size := 8 } : Volume).size) ∧ (ioTransfer ({ num := 0, size := 8 } : Volume) ({ opcode := 1, nsid := 1, sglLen := 4096 } : IoCmd) ≤ ({ opcode := 1, nsid := 1, sglLen := 4096 } : IoCmd).sglLen) := by
  decide

set_option maxRecDepth 100000 in
/-- The hypotheses of IoCommandsAtFetch are met. -/
theorem test_met_IoCommandsAtFetch_4 :
    (({ State.reset with boot.service := true, hfe.ctrls := [{ id := 0, en := true, sqs := [(1, 1, 7, 0)] }], nv.domains := [{ num := 0 }], nv.volumes := [{ num := 7, size := 100, hosts := 1, format := 2 }], hdl.paired := true } : State).boot.fastStopped = false) ∧ (({ State.reset with boot.service := true, hfe.ctrls := [{ id := 0, en := true, sqs := [(1, 1, 7, 0)] }], nv.domains := [{ num := 0 }], nv.volumes := [{ num := 7, size := 100, hosts := 1, format := 2 }], hdl.paired := true } : State).saf.failSilent = false) ∧ (({ State.reset with boot.service := true, hfe.ctrls := [{ id := 0, en := true, sqs := [(1, 1, 7, 0)] }], nv.domains := [{ num := 0 }], nv.volumes := [{ num := 7, size := 100, hosts := 1, format := 2 }], hdl.paired := true } : State).hdl.paired = true) ∧ (({ State.reset with boot.service := true, hfe.ctrls := [{ id := 0, en := true, sqs := [(1, 1, 7, 0)] }], nv.domains := [{ num := 0 }], nv.volumes := [{ num := 7, size := 100, hosts := 1, format := 2 }], hdl.paired := true } : State).hdl.bridge = false) ∧ (({ opcode := 0x02, nsid := 8, pi := { pract := true }, sglLen := 4096 } : IoCmd).opcode ≠ 0x108) ∧ (ioRefusal ({ State.reset with boot.service := true, hfe.ctrls := [{ id := 0, en := true, sqs := [(1, 1, 7, 0)] }], nv.domains := [{ num := 0 }], nv.volumes := [{ num := 7, size := 100, hosts := 1, format := 2 }], hdl.paired := true } : State) none ({ opcode := 0x02, nsid := 8, pi := { pract := true }, sglLen := 4096 } : IoCmd) = none) ∧
    (({ State.reset with boot.service := true, hfe.ctrls := [{ id := 0, en := true, sqs := [(1, 1, 7, 0)] }], nv.domains := [{ num := 0 }], nv.volumes := [{ num := 7, size := 100, hosts := 1, format := 2 }], hdl.paired := true } : State).boot.fastStopped = false) ∧ (({ State.reset with boot.service := true, hfe.ctrls := [{ id := 0, en := true, sqs := [(1, 1, 7, 0)] }], nv.domains := [{ num := 0 }], nv.volumes := [{ num := 7, size := 100, hosts := 1, format := 2 }], hdl.paired := true } : State).saf.failSilent = false) ∧ (({ State.reset with boot.service := true, hfe.ctrls := [{ id := 0, en := true, sqs := [(1, 1, 7, 0)] }], nv.domains := [{ num := 0 }], nv.volumes := [{ num := 7, size := 100, hosts := 1, format := 2 }], hdl.paired := true } : State).hdl.paired = true) ∧ (({ State.reset with boot.service := true, hfe.ctrls := [{ id := 0, en := true, sqs := [(1, 1, 7, 0)] }], nv.domains := [{ num := 0 }], nv.volumes := [{ num := 7, size := 100, hosts := 1, format := 2 }], hdl.paired := true } : State).hdl.bridge = false) ∧ (({ opcode := 0x02, nsid := 0 } : IoCmd).opcode ≠ 0x108) ∧ (ioRefusal ({ State.reset with boot.service := true, hfe.ctrls := [{ id := 0, en := true, sqs := [(1, 1, 7, 0)] }], nv.domains := [{ num := 0 }], nv.volumes := [{ num := 7, size := 100, hosts := 1, format := 2 }], hdl.paired := true } : State) none ({ opcode := 0x02, nsid := 0 } : IoCmd) = some (.invalidNamespace : NvmeStatus)) := by
  decide

set_option maxRecDepth 100000 in
/-- The hypotheses of TagsPayloadsReadsAndSubports are met. -/
theorem test_met_TagsPayloadsReadsAndSubports_0 :
    (({ State.reset with boot.service := true, hfe.ctrls := [{ id := 0, en := true, sqs := [(1, 1, 7, 0)] }], nv.domains := [{ num := 0 }], nv.volumes := [{ num := 7, size := 100, hosts := 1, format := 2 }], hfe.waiting := [{ ctrl := 0, sq := 1, cid := 9, cmd := { opcode := 0x00, nsid := 8 } }] } : State).boot.fastStopped = false) ∧ (({ State.reset with boot.service := true, hfe.ctrls := [{ id := 0, en := true, sqs := [(1, 1, 7, 0)] }], nv.domains := [{ num := 0 }], nv.volumes := [{ num := 7, size := 100, hosts := 1, format := 2 }], hfe.waiting := [{ ctrl := 0, sq := 1, cid := 9, cmd := { opcode := 0x00, nsid := 8 } }] } : State).saf.failSilent = false) ∧ (({ State.reset with boot.service := true, hfe.ctrls := [{ id := 0, en := true, sqs := [(1, 1, 7, 0)] }], nv.domains := [{ num := 0 }], nv.volumes := [{ num := 7, size := 100, hosts := 1, format := 2 }], hfe.waiting := [{ ctrl := 0, sq := 1, cid := 9, cmd := { opcode := 0x00, nsid := 8 } }] } : State).pwr.doze = false) ∧ (({ State.reset with boot.service := true, hfe.ctrls := [{ id := 0, en := true, sqs := [(1, 1, 7, 0)] }], nv.domains := [{ num := 0 }], nv.volumes := [{ num := 7, size := 100, hosts := 1, format := 2 }], hfe.waiting := [{ ctrl := 0, sq := 1, cid := 9, cmd := { opcode := 0x00, nsid := 8 } }] } : State).hfe.waiting = ({ ctrl := 0, sq := 1, cid := 9, cmd := { opcode := 0x00, nsid := 8 } } : Waiting) :: ([] : List Waiting)) ∧ (nextTag ({ State.reset with boot.service := true, hfe.ctrls := [{ id := 0, en := true, sqs := [(1, 1, 7, 0)] }], nv.domains := [{ num := 0 }], nv.volumes := [{ num := 7, size := 100, hosts := 1, format := 2 }], hfe.waiting := [{ ctrl := 0, sq := 1, cid := 9, cmd := { opcode := 0x00, nsid := 8 } }] } : State) = some ((0 : Nat), (0 : Nat))) ∧ (({ ctrl := 0, sq := 1, cid := 9, cmd := { opcode := 0x00, nsid := 8 } } : Waiting).peerTag = none) ∧ (ioRefusal ({ State.reset with boot.service := true, hfe.ctrls := [{ id := 0, en := true, sqs := [(1, 1, 7, 0)] }], nv.domains := [{ num := 0 }], nv.volumes := [{ num := 7, size := 100, hosts := 1, format := 2 }], hfe.waiting := [{ ctrl := 0, sq := 1, cid := 9, cmd := { opcode := 0x00, nsid := 8 } }] } : State) (ctrlOf ({ State.reset with boot.service := true, hfe.ctrls := [{ id := 0, en := true, sqs := [(1, 1, 7, 0)] }], nv.domains := [{ num := 0 }], nv.volumes := [{ num := 7, size := 100, hosts := 1, format := 2 }], hfe.waiting := [{ ctrl := 0, sq := 1, cid := 9, cmd := { opcode := 0x00, nsid := 8 } }] } : State) ({ ctrl := 0, sq := 1, cid := 9, cmd := { opcode := 0x00, nsid := 8 } } : Waiting).ctrl) ({ ctrl := 0, sq := 1, cid := 9, cmd := { opcode := 0x00, nsid := 8 } } : Waiting).cmd = none) ∧ (({ State.reset with boot.service := true, hfe.ctrls := [{ id := 0, en := true, sqs := [(1, 1, 7, 0)] }], nv.domains := [{ num := 0 }], nv.volumes := [{ num := 7, size := 100, hosts := 1, format := 2 }], hfe.waiting := [{ ctrl := 0, sq := 1, cid := 9, cmd := { opcode := 0x00, nsid := 8 } }] } : State).rlk.locks.length < 65536) ∧ (forwards ({ State.reset with boot.service := true, hfe.ctrls := [{ id := 0, en := true, sqs := [(1, 1, 7, 0)] }], nv.domains := [{ num := 0 }], nv.volumes := [{ num := 7, size := 100, hosts := 1, format := 2 }], hfe.waiting := [{ ctrl := 0, sq := 1, cid := 9, cmd := { opcode := 0x00, nsid := 8 } }] } : State) ({ ctrl := 0, sq := 1, cid := 9, cmd := { opcode := 0x00, nsid := 8 } } : Waiting).cmd = false) ∧
    (({ State.reset with hfe.waiting := [{ ctrl := 0, sq := 1, cid := 9, cmd := { opcode := 0x00, nsid := 8 } }] } : State).boot.fastStopped = false) ∧ (({ State.reset with hfe.waiting := [{ ctrl := 0, sq := 1, cid := 9, cmd := { opcode := 0x00, nsid := 8 } }] } : State).saf.failSilent = false) ∧ (({ State.reset with hfe.waiting := [{ ctrl := 0, sq := 1, cid := 9, cmd := { opcode := 0x00, nsid := 8 } }] } : State).pwr.doze = false) ∧ (({ State.reset with hfe.waiting := [{ ctrl := 0, sq := 1, cid := 9, cmd := { opcode := 0x00, nsid := 8 } }] } : State).hfe.waiting = ({ ctrl := 0, sq := 1, cid := 9, cmd := { opcode := 0x00, nsid := 8 } } : Waiting) :: ([] : List Waiting)) ∧ (nextTag ({ State.reset with hfe.waiting := [{ ctrl := 0, sq := 1, cid := 9, cmd := { opcode := 0x00, nsid := 8 } }] } : State) = some ((0 : Nat), (0 : Nat))) ∧ (({ ctrl := 0, sq := 1, cid := 9, cmd := { opcode := 0x00, nsid := 8 } } : Waiting).peerTag = none) ∧ (ioRefusal ({ State.reset with hfe.waiting := [{ ctrl := 0, sq := 1, cid := 9, cmd := { opcode := 0x00, nsid := 8 } }] } : State) (ctrlOf ({ State.reset with hfe.waiting := [{ ctrl := 0, sq := 1, cid := 9, cmd := { opcode := 0x00, nsid := 8 } }] } : State) ({ ctrl := 0, sq := 1, cid := 9, cmd := { opcode := 0x00, nsid := 8 } } : Waiting).ctrl) ({ ctrl := 0, sq := 1, cid := 9, cmd := { opcode := 0x00, nsid := 8 } } : Waiting).cmd = some (.invalidNamespace : NvmeStatus)) ∧
    ((State.reset : State).hfe.freeNext < 65536) ∧
    (65536 ≤ ({ State.reset with hfe.freeNext := 65536, hfe.freed := [(4, 1, 0)] } : State).hfe.freeNext) ∧ (({ State.reset with hfe.freeNext := 65536, hfe.freed := [(4, 1, 0)] } : State).hfe.freed = ((4 : Nat), (1 : Nat), (0 : Nat)) :: ([] : List (Nat × Nat × Nat))) ∧
    (({ State.reset with hfe.tags := [{ idx := 0, kind := 1, state := 2, nblocks := 1 }] } : State).boot.fastStopped = false) ∧ (({ State.reset with hfe.tags := [{ idx := 0, kind := 1, state := 2, nblocks := 1 }] } : State).saf.failSilent = false) ∧ (({ State.reset with hfe.tags := [{ idx := 0, kind := 1, state := 2, nblocks := 1 }] } : State).pwr.doze = false) ∧ (tagOf ({ State.reset with hfe.tags := [{ idx := 0, kind := 1, state := 2, nblocks := 1 }] } : State) (0 : Nat) = some ({ idx := 0, kind := 1, state := 2, nblocks := 1 } : Tag)) ∧ (({ idx := 0, kind := 1, state := 2, nblocks := 1 } : Tag).kind = 1) ∧ (({ idx := 0, kind := 1, state := 2, nblocks := 1 } : Tag).forwarded = false) ∧ (({ idx := 0, kind := 1, state := 2, nblocks := 1 } : Tag).state = 2) ∧ (({ idx := 0, kind := 1, state := 2, nblocks := 1 } : Tag).payload.length + ([{ data := [] }] : List Block).length = ({ idx := 0, kind := 1, state := 2, nblocks := 1 } : Tag).nblocks) := by
  decide

set_option maxRecDepth 100000 in
/-- The hypotheses of TagsPayloadsReadsAndSubports are met. -/
theorem test_met_TagsPayloadsReadsAndSubports_1 :
    (volumeOf ({ State.reset with nv.volumes := [{ num := 0 }] } : State) ({ idx := 0 } : Tag).vol = some ({ num := 0 } : Volume)) ∧ (({ num := 0 } : Volume).pi = 0) ∧
    (volumeOf ({ State.reset with nv.volumes := [{ num := 0, pi := 1, format := 1 }] } : State) ({ idx := 0, pi := { prchk := 1, refTag := 5 }, payload := [{ data := [], ref := 1 }] } : Tag).vol = some ({ num := 0, pi := 1, format := 1 } : Volume)) ∧ (({ num := 0, pi := 1, format := 1 } : Volume).pi ≠ 0) ∧ (metaBytes ({ num := 0, pi := 1, format := 1 } : Volume).format ≠ 0) ∧ (({ idx := 0, pi := { prchk := 1, refTag := 5 }, payload := [{ data := [], ref := 1 }] } : Tag).pi.pract = false) ∧ (firstBad (fun x j => piCheck ({ num := 0, pi := 1, format := 1 } : Volume).format ({ num := 0, pi := 1, format := 1 } : Volume).pi ({ idx := 0, pi := { prchk := 1, refTag := 5 }, payload := [{ data := [], ref := 1 }] } : Tag).pi x (({ idx := 0, pi := { prchk := 1, refTag := 5 }, payload := [{ data := [], ref := 1 }] } : Tag).slba + j) j) ({ idx := 0, pi := { prchk := 1, refTag := 5 }, payload := [{ data := [], ref := 1 }] } : Tag).payload 0 = (.refTagError : NvmeStatus)) ∧ ((.refTagError : NvmeStatus) ≠ .success) ∧
    (({ State.reset with hfe.tags := [{ idx := 0, state := 2, nblocks := 1 }], nv.domains := [{ num := 0 }], nv.volumes := [{ num := 0, size := 8 }] } : State).boot.fastStopped = false) ∧ (({ State.reset with hfe.tags := [{ idx := 0, state := 2, nblocks := 1 }], nv.domains := [{ num := 0 }], nv.volumes := [{ num := 0, size := 8 }] } : State).saf.failSilent = false) ∧ (({ State.reset with hfe.tags := [{ idx := 0, state := 2, nblocks := 1 }], nv.domains := [{ num := 0 }], nv.volumes := [{ num := 0, size := 8 }] } : State).pwr.doze = false) ∧ (tagOf ({ State.reset with hfe.tags := [{ idx := 0, state := 2, nblocks := 1 }], nv.domains := [{ num := 0 }], nv.volumes := [{ num := 0, size := 8 }] } : State) (0 : Nat) = some ({ idx := 0, state := 2, nblocks := 1 } : Tag)) ∧ (({ idx := 0, state := 2, nblocks := 1 } : Tag).state = 2) ∧ (({ idx := 0, state := 2, nblocks := 1 } : Tag).forwarded = false) ∧ (({ idx := 0, state := 2, nblocks := 1 } : Tag).kind = 0 ∨ ({ idx := 0, state := 2, nblocks := 1 } : Tag).kind = 6) ∧ (volumeOf ({ State.reset with hfe.tags := [{ idx := 0, state := 2, nblocks := 1 }], nv.domains := [{ num := 0 }], nv.volumes := [{ num := 0, size := 8 }] } : State) ({ idx := 0, state := 2, nblocks := 1 } : Tag).vol = some ({ num := 0, size := 8 } : Volume)) ∧ (keylessVolume ({ State.reset with hfe.tags := [{ idx := 0, state := 2, nblocks := 1 }], nv.domains := [{ num := 0 }], nv.volumes := [{ num := 0, size := 8 }] } : State) ({ num := 0, size := 8 } : Volume) = false) ∧ (({ idx := 0, state := 2, nblocks := 1 } : Tag).hit = false) ∧ (guardsAgree ({ State.reset with hfe.tags := [{ idx := 0, state := 2, nblocks := 1 }], nv.domains := [{ num := 0 }], nv.volumes := [{ num := 0, size := 8 }] } : State) ({ num := 0, size := 8 } : Volume) ({ idx := 0, state := 2, nblocks := 1 } : Tag).slba ({ idx := 0, state := 2, nblocks := 1 } : Tag).nblocks = true) ∧ (firstLost ({ State.reset with hfe.tags := [{ idx := 0, state := 2, nblocks := 1 }], nv.domains := [{ num := 0 }], nv.volumes := [{ num := 0, size := 8 }] } : State) ({ num := 0, size := 8 } : Volume) ({ idx := 0, state := 2, nblocks := 1 } : Tag).slba ({ idx := 0, state := 2, nblocks := 1 } : Tag).nblocks = none) ∧
    (({ State.reset with hfe.tags := [{ idx := 0, state := 2, nblocks := 1 }], nv.domains := [{ num := 0 }], nv.volumes := [{ num := 0, size := 8 }], nv.maps := [{ num := 0, entries := [{ chunk := 0, stored := 1 }] }], nv.stored := [{ id := 1, guards := [1] }] } : State).boot.fastStopped = false) ∧ (({ State.reset with hfe.tags := [{ idx := 0, state := 2, nblocks := 1 }], nv.domains := [{ num := 0 }], nv.volumes := [{ num := 0, size := 8 }], nv.maps := [{ num := 0, entries := [{ chunk := 0, stored := 1 }] }], nv.stored := [{ id := 1, guards := [1] }] } : State).saf.failSilent = false) ∧ (({ State.reset with hfe.tags := [{ idx := 0, state := 2, nblocks := 1 }], nv.domains := [{ num := 0 }], nv.volumes := [{ num := 0, size := 8 }], nv.maps := [{ num := 0, entries := [{ chunk := 0, stored := 1 }] }], nv.stored := [{ id := 1, guards := [1] }] } : State).pwr.doze = false) ∧ (tagOf ({ State.reset with hfe.tags := [{ idx := 0, state := 2, nblocks := 1 }], nv.domains := [{ num := 0 }], nv.volumes := [{ num := 0, size := 8 }], nv.maps := [{ num := 0, entries := [{ chunk := 0, stored := 1 }] }], nv.stored := [{ id := 1, guards := [1] }] } : State) (0 : Nat) = some ({ idx := 0, state := 2, nblocks := 1 } : Tag)) ∧ (({ idx := 0, state := 2, nblocks := 1 } : Tag).state = 2) ∧ (({ idx := 0, state := 2, nblocks := 1 } : Tag).forwarded = false) ∧ (({ idx := 0, state := 2, nblocks := 1 } : Tag).kind = 0 ∨ ({ idx := 0, state := 2, nblocks := 1 } : Tag).kind = 6) ∧ (volumeOf ({ State.reset with hfe.tags := [{ idx := 0, state := 2, nblocks := 1 }], nv.domains := [{ num := 0 }], nv.volumes := [{ num := 0, size := 8 }], nv.maps := [{ num := 0, entries := [{ chunk := 0, stored := 1 }] }], nv.stored := [{ id := 1, guards := [1] }] } : State) ({ idx := 0, state := 2, nblocks := 1 } : Tag).vol = some ({ num := 0, size := 8 } : Volume)) ∧ (keylessVolume ({ State.reset with hfe.tags := [{ idx := 0, state := 2, nblocks := 1 }], nv.domains := [{ num := 0 }], nv.volumes := [{ num := 0, size := 8 }], nv.maps := [{ num := 0, entries := [{ chunk := 0, stored := 1 }] }], nv.stored := [{ id := 1, guards := [1] }] } : State) ({ num := 0, size := 8 } : Volume) = false) ∧ (({ idx := 0, state := 2, nblocks := 1 } : Tag).hit = false) ∧ (guardsAgree ({ State.reset with hfe.tags := [{ idx := 0, state := 2, nblocks := 1 }], nv.domains := [{ num := 0 }], nv.volumes := [{ num := 0, size := 8 }], nv.maps := [{ num := 0, entries := [{ chunk := 0, stored := 1 }] }], nv.stored := [{ id := 1, guards := [1] }] } : State) ({ num := 0, size := 8 } : Volume) ({ idx := 0, state := 2, nblocks := 1 } : Tag).slba ({ idx := 0, state := 2, nblocks := 1 } : Tag).nblocks = false) ∧
    (({ State.reset with hfe.tags := [{ idx := 0 }], rlk.locks := [{ holder := .tag 0, vol := 0, first := 0, last := 7, excl := true, arrival := 0 }] } : State).boot.fastStopped = false) ∧ (({ State.reset with hfe.tags := [{ idx := 0 }], rlk.locks := [{ holder := .tag 0, vol := 0, first := 0, last := 7, excl := true, arrival := 0 }] } : State).saf.failSilent = false) ∧ (pidVal ({ State.reset with hfe.tags := [{ idx := 0 }], rlk.locks := [{ holder := .tag 0, vol := 0, first := 0, last := 7, excl := true, arrival := 0 }] } : State) 0x0501 ≠ 0) ∧ (tagOf ({ State.reset with hfe.tags := [{ idx := 0 }], rlk.locks := [{ holder := .tag 0, vol := 0, first := 0, last := 7, excl := true, arrival := 0 }] } : State) (0 : Nat) = some ({ idx := 0 } : Tag)) ∧ (lockOf ({ State.reset with hfe.tags := [{ idx := 0 }], rlk.locks := [{ holder := .tag 0, vol := 0, first := 0, last := 7, excl := true, arrival := 0 }] } : State) (.tag (0 : Nat)) = some ({ holder := .tag 0, vol := 0, first := 0, last := 7, excl := true, arrival := 0 } : Lock)) ∧ (({ holder := .tag 0, vol := 0, first := 0, last := 7, excl := true, arrival := 0 } : Lock).granted = false) ∧ (({ idx := 0 } : Tag).warned = false) := by
  decide

set_option maxRecDepth 100000 in
/-- The hypotheses of TagsPayloadsReadsAndSubports are met. -/
theorem test_met_TagsPayloadsReadsAndSubports_2 :
    (({ State.reset with rlk.locks := [{ holder := .plem 3 1, vol := 0, first := 0, last := 7, excl := true, arrival := 0 }] } : State).boot.fastStopped = false) ∧ (({ State.reset with rlk.locks := [{ holder := .plem 3 1, vol := 0, first := 0, last := 7, excl := true, arrival := 0 }] } : State).saf.failSilent = false) ∧ (pidVal ({ State.reset with rlk.locks := [{ holder := .plem 3 1, vol := 0, first := 0, last := 7, excl := true, arrival := 0 }] } : State) 0x0501 ≠ 0) ∧ ((({ State.reset with rlk.locks := [{ holder := .plem 3 1, vol := 0, first := 0, last := 7, excl := true, arrival := 0 }] } : State).rlk.locks.find? fun x => x.holder == .plem (3 : Nat) (1 : Nat) && !x.granted) = some ({ holder := .plem 3 1, vol := 0, first := 0, last := 7, excl := true, arrival := 0 } : Lock)) ∧ (({ holder := .plem 3 1, vol := 0, first := 0, last := 7, excl := true, arrival := 0 } : Lock).warned = false) ∧
    (({ State.reset with plem.pids := [(0x0501, 0)] } : State).boot.fastStopped = false) ∧ (({ State.reset with plem.pids := [(0x0501, 0)] } : State).saf.failSilent = false) ∧ (pidVal ({ State.reset with plem.pids := [(0x0501, 0)] } : State) 0x0501 = 0) ∧
    (({ State.reset with nv.volumes := [{ num := 7, moving := true, ownerB := true }] } : State).boot.fastStopped = false) ∧ (({ State.reset with nv.volumes := [{ num := 7, moving := true, ownerB := true }] } : State).saf.failSilent = false) ∧ (volumeOf ({ State.reset with nv.volumes := [{ num := 7, moving := true, ownerB := true }] } : State) (7 : Nat) = some ({ num := 7, moving := true, ownerB := true } : Volume)) ∧ (({ num := 7, moving := true, ownerB := true } : Volume).moving = true) ∧ (({ State.reset with nv.volumes := [{ num := 7, moving := true, ownerB := true }] } : State).hfe.tags.any (fun t => t.vol == (7 : Nat)) = false) ∧ (ownsVolume ({ State.reset with nv.volumes := [{ num := 7, moving := true, ownerB := true }] } : State) ({ num := 7, moving := true, ownerB := true } : Volume) = false) ∧
    (({ State.reset with nv.volumes := [{ num := 7, moving := true }] } : State).boot.fastStopped = false) ∧ (({ State.reset with nv.volumes := [{ num := 7, moving := true }] } : State).saf.failSilent = false) ∧ (volumeOf ({ State.reset with nv.volumes := [{ num := 7, moving := true }] } : State) (7 : Nat) = some ({ num := 7, moving := true } : Volume)) ∧ (({ num := 7, moving := true } : Volume).moving = true) ∧ (({ State.reset with nv.volumes := [{ num := 7, moving := true }] } : State).hfe.tags.any (fun t => t.vol == (7 : Nat)) = false) ∧ (ownsVolume ({ State.reset with nv.volumes := [{ num := 7, moving := true }] } : State) ({ num := 7, moving := true } : Volume) = true) ∧
    (({ State.reset with hfe.subs := [{ enabled := true }] } : State).boot.fastStopped = false) ∧ (({ State.reset with hfe.subs := [{ enabled := true }] } : State).saf.failSilent = false) ∧ (subRuns ({ State.reset with hfe.subs := [{ enabled := true }] } : State) (0 : Nat) = true) := by
  decide

set_option maxRecDepth 100000 in
/-- The hypotheses of TagsPayloadsReadsAndSubports are met. -/
theorem test_met_TagsPayloadsReadsAndSubports_3 :
    (({ State.reset with hfe.subs := [{ enabled := true }] } : State).boot.fastStopped = false) ∧ (({ State.reset with hfe.subs := [{ enabled := true }] } : State).saf.failSilent = false) ∧ (subRuns ({ State.reset with hfe.subs := [{ enabled := true }] } : State) (0 : Nat) = true) ∧
    (({ State.reset with hfe.subs := [{ enabled := true, linkUp := true }] } : State).boot.fastStopped = false) ∧ (({ State.reset with hfe.subs := [{ enabled := true, linkUp := true }] } : State).saf.failSilent = false) ∧ (({ State.reset with hfe.subs := [{ enabled := true, linkUp := true }] } : State).pwr.doze = false) ∧ (subUp ({ State.reset with hfe.subs := [{ enabled := true, linkUp := true }] } : State) (0 : Nat) = true) ∧ (subV6 ({ State.reset with hfe.subs := [{ enabled := true, linkUp := true }] } : State) (0 : Nat) = false) ∧ ((zeros 4 : List Byte) = bytesAt (subBlock ({ State.reset with hfe.subs := [{ enabled := true, linkUp := true }] } : State) (0 : Nat)) 16 4) ∧
    (({ State.reset with hfe.subs := [{ enabled := true, linkUp := true }] } : State).boot.fastStopped = false) ∧ (({ State.reset with hfe.subs := [{ enabled := true, linkUp := true }] } : State).saf.failSilent = false) ∧ (({ State.reset with hfe.subs := [{ enabled := true, linkUp := true }] } : State).pwr.doze = false) ∧ (subUp ({ State.reset with hfe.subs := [{ enabled := true, linkUp := true }] } : State) (0 : Nat) = true) ∧ (([1, 2, 3, 4] : List Byte) ≠ bytesAt (subBlock ({ State.reset with hfe.subs := [{ enabled := true, linkUp := true }] } : State) (0 : Nat)) 16 4) ∧
    (({ State.reset with hfe.subs := [{ enabled := true, linkUp := true }], plem.blocks := [(0x440, zeros 11 ++ [4] ++ zeros 52)] } : State).boot.fastStopped = false) ∧ (({ State.reset with hfe.subs := [{ enabled := true, linkUp := true }], plem.blocks := [(0x440, zeros 11 ++ [4] ++ zeros 52)] } : State).saf.failSilent = false) ∧ (({ State.reset with hfe.subs := [{ enabled := true, linkUp := true }], plem.blocks := [(0x440, zeros 11 ++ [4] ++ zeros 52)] } : State).pwr.doze = false) ∧ (subUp ({ State.reset with hfe.subs := [{ enabled := true, linkUp := true }], plem.blocks := [(0x440, zeros 11 ++ [4] ++ zeros 52)] } : State) (0 : Nat) = true) ∧ (subV6 ({ State.reset with hfe.subs := [{ enabled := true, linkUp := true }], plem.blocks := [(0x440, zeros 11 ++ [4] ++ zeros 52)] } : State) (0 : Nat) = true) ∧ ((zeros 16 : List Byte) = bytesAt (subBlock ({ State.reset with hfe.subs := [{ enabled := true, linkUp := true }], plem.blocks := [(0x440, zeros 11 ++ [4] ++ zeros 52)] } : State) (0 : Nat)) 16 16) ∧
    (({ State.reset with hfe.subs := [{ enabled := true, linkUp := true }] } : State).boot.fastStopped = false) ∧ (({ State.reset with hfe.subs := [{ enabled := true, linkUp := true }] } : State).saf.failSilent = false) ∧ (({ State.reset with hfe.subs := [{ enabled := true, linkUp := true }] } : State).pwr.doze = false) ∧ (subUp ({ State.reset with hfe.subs := [{ enabled := true, linkUp := true }] } : State) (0 : Nat) = true) ∧ ((zeros 4 : List Byte) = bytesAt (subBlock ({ State.reset with hfe.subs := [{ enabled := true, linkUp := true }] } : State) (0 : Nat)) 16 (if subV6 ({ State.reset with hfe.subs := [{ enabled := true, linkUp := true }] } : State) (0 : Nat) then 16 else 4)) := by
  decide

/-- The hypotheses of RemoteMemoryPackets are met (clause 27). -/
theorem test_met_RemoteMemoryPackets_c27 :
    (({ State.reset with rma.conns := [{ num := 0, cls := 2, state := 2, prot := 1, onDie := false }] } : State).boot.fastStopped = false) ∧
    (({ State.reset with rma.conns := [{ num := 0, cls := 2, state := 2, prot := 1, onDie := false }] } : State).saf.failSilent = false) ∧
    (connOf ({ State.reset with rma.conns := [{ num := 0, cls := 2, state := 2, prot := 1, onDie := false }] } : State) (0 : Nat) = some ({ num := 0, cls := 2, state := 2, prot := 1, onDie := false } : Conn)) ∧
    (({ num := 0, cls := 2, state := 2, prot := 1, onDie := false } : Conn).onDie = false) ∧
    (makeRoom ({ State.reset with rma.conns := [{ num := 0, cls := 2, state := 2, prot := 1, onDie := false }] } : State) = some ({ State.reset with rma.conns := [{ num := 0, cls := 2, state := 2, prot := 1, onDie := false }] } : State)) ∧
    (({ num := 0, cls := 2, state := 2, prot := 1, onDie := false } : Conn).missQ = []) ∧
    (({ num := 0, cls := 2, state := 2, prot := 1, onDie := false } : Conn).timerDue = false) ∧
    (({ State.reset with rma.conns := [{ num := 0, cls := 2, state := 2, prot := 1, onDie := false }] } : State).hdl.bridge = false) ∧
    (({ State.reset with rma.conns := [{ num := 0, cls := 2, state := 2, prot := 1, onDie := false }] } : State).hdl.bridge = false) := by
  refine ⟨rfl, rfl, by decide, by decide, rfl, by decide, by decide, by decide, by decide⟩

set_option maxRecDepth 100000 in
/-- The hypotheses of RemoteMemoryPackets are met. -/
theorem test_met_RemoteMemoryPackets_0 :
    (({ State.reset with rma.conns := [{ num := 0, cls := 2, state := 2, prot := 1 }] } : State).boot.fastStopped = false) ∧ (({ State.reset with rma.conns := [{ num := 0, cls := 2, state := 2, prot := 1 }] } : State).saf.failSilent = false) ∧ (({ State.reset with rma.conns := [{ num := 0, cls := 2, state := 2, prot := 1 }] } : State).pwr.doze = false) ∧ (connOf ({ State.reset with rma.conns := [{ num := 0, cls := 2, state := 2, prot := 1 }] } : State) (0 : Nat) = some ({ num := 0, cls := 2, state := 2, prot := 1 } : Conn)) ∧ (plainConn ({ State.reset with rma.conns := [{ num := 0, cls := 2, state := 2, prot := 1 }] } : State) ({ num := 0, cls := 2, state := 2, prot := 1 } : Conn) = false) ∧ (({ num := 0, cls := 2, state := 2, prot := 1 } : Conn).onDie = true) ∧ (({ num := 0, cls := 2, state := 2, prot := 1 } : Conn).cls ≠ 1) ∧ (({ num := 0, cls := 2, state := 2, prot := 1 } : Conn).state = 2) ∧ (({ State.reset with rma.conns := [{ num := 0, cls := 2, state := 2, prot := 1 }] } : State).hdl.bridge = false) ∧ (multipath ({ num := 0, cls := 2, state := 2, prot := 1 } : Conn) = false) ∧ ((0 : Nat) % 2 ^ 24 = ({ num := 0, cls := 2, state := 2, prot := 1 } : Conn).expPsn) ∧
    (({ State.reset with rma.conns := [{ num := 0, cls := 2, state := 2, prot := 1 }] } : State).boot.fastStopped = false) ∧ (({ State.reset with rma.conns := [{ num := 0, cls := 2, state := 2, prot := 1 }] } : State).saf.failSilent = false) ∧ (({ State.reset with rma.conns := [{ num := 0, cls := 2, state := 2, prot := 1 }] } : State).pwr.doze = false) ∧ (connOf ({ State.reset with rma.conns := [{ num := 0, cls := 2, state := 2, prot := 1 }] } : State) (0 : Nat) = some ({ num := 0, cls := 2, state := 2, prot := 1 } : Conn)) ∧ (plainConn ({ State.reset with rma.conns := [{ num := 0, cls := 2, state := 2, prot := 1 }] } : State) ({ num := 0, cls := 2, state := 2, prot := 1 } : Conn) = false) ∧ (({ num := 0, cls := 2, state := 2, prot := 1 } : Conn).onDie = true) ∧ (({ num := 0, cls := 2, state := 2, prot := 1 } : Conn).cls ≠ 1) ∧ (({ num := 0, cls := 2, state := 2, prot := 1 } : Conn).state = 2) ∧ (({ State.reset with rma.conns := [{ num := 0, cls := 2, state := 2, prot := 1 }] } : State).hdl.bridge = false) ∧ (multipath ({ num := 0, cls := 2, state := 2, prot := 1 } : Conn) = false) ∧ ((0 : Nat) % 2 ^ 24 = ({ num := 0, cls := 2, state := 2, prot := 1 } : Conn).expPsn) ∧
    (({ State.reset with rma.conns := [{ num := 0, cls := 2, state := 2, prot := 1, paths := [(0, [], 0), (1, [], 0)] }] } : State).boot.fastStopped = false) ∧ (({ State.reset with rma.conns := [{ num := 0, cls := 2, state := 2, prot := 1, paths := [(0, [], 0), (1, [], 0)] }] } : State).saf.failSilent = false) ∧ (({ State.reset with rma.conns := [{ num := 0, cls := 2, state := 2, prot := 1, paths := [(0, [], 0), (1, [], 0)] }] } : State).pwr.doze = false) ∧ (connOf ({ State.reset with rma.conns := [{ num := 0, cls := 2, state := 2, prot := 1, paths := [(0, [], 0), (1, [], 0)] }] } : State) (0 : Nat) = some ({ num := 0, cls := 2, state := 2, prot := 1, paths := [(0, [], 0), (1, [], 0)] } : Conn)) ∧ (plainConn ({ State.reset with rma.conns := [{ num := 0, cls := 2, state := 2, prot := 1, paths := [(0, [], 0), (1, [], 0)] }] } : State) ({ num := 0, cls := 2, state := 2, prot := 1, paths := [(0, [], 0), (1, [], 0)] } : Conn) = false) ∧ (({ num := 0, cls := 2, state := 2, prot := 1, paths := [(0, [], 0), (1, [], 0)] } : Conn).onDie = true) ∧ (({ num := 0, cls := 2, state := 2, prot := 1, paths := [(0, [], 0), (1, [], 0)] } : Conn).cls ≠ 1) ∧ (({ num := 0, cls := 2, state := 2, prot := 1, paths := [(0, [], 0), (1, [], 0)] } : Conn).state = 2) ∧ (({ State.reset with rma.conns := [{ num := 0, cls := 2, state := 2, prot := 1, paths := [(0, [], 0), (1, [], 0)] }] } : State).hdl.bridge = false) ∧ (multipath ({ num := 0, cls := 2, state := 2, prot := 1, paths := [(0, [], 0), (1, [], 0)] } : Conn) = true) ∧ (psnBehind ({ num := 0, cls := 2, state := 2, prot := 1, paths := [(0, [], 0), (1, [], 0)] } : Conn).expPsn (0 : Nat) = false) ∧ (({ num := 0, cls := 2, state := 2, prot := 1, paths := [(0, [], 0), (1, [], 0)] } : Conn).rcvd.contains ((0 : Nat) % 2 ^ 24) = false) ∧
    (({ State.reset with rma.conns := [{ num := 0, cls := 2, state := 2, prot := 1 }] } : State).boot.fastStopped = false) ∧ (({ State.reset with rma.conns := [{ num := 0, cls := 2, state := 2, prot := 1 }] } : State).saf.failSilent = false) ∧ (({ State.reset with rma.conns := [{ num := 0, cls := 2, state := 2, prot := 1 }] } : State).pwr.doze = false) ∧ (connOf ({ State.reset with rma.conns := [{ num := 0, cls := 2, state := 2, prot := 1 }] } : State) (0 : Nat) = some ({ num := 0, cls := 2, state := 2, prot := 1 } : Conn)) ∧ (plainConn ({ State.reset with rma.conns := [{ num := 0, cls := 2, state := 2, prot := 1 }] } : State) ({ num := 0, cls := 2, state := 2, prot := 1 } : Conn) = false) ∧ (({ num := 0, cls := 2, state := 2, prot := 1 } : Conn).onDie = true) ∧ (({ num := 0, cls := 2, state := 2, prot := 1 } : Conn).cls ≠ 1) ∧ (({ num := 0, cls := 2, state := 2, prot := 1 } : Conn).state = 2) ∧ (({ State.reset with rma.conns := [{ num := 0, cls := 2, state := 2, prot := 1 }] } : State).hdl.bridge = false) ∧ (multipath ({ num := 0, cls := 2, state := 2, prot := 1 } : Conn) = false) ∧ ((0 : Nat) % 2 ^ 24 = ({ num := 0, cls := 2, state := 2, prot := 1 } : Conn).expPsn) ∧
    (({ State.reset with rma.conns := [{ num := 0, cls := 2, state := 2, prot := 1 }] } : State).boot.fastStopped = false) ∧ (({ State.reset with rma.conns := [{ num := 0, cls := 2, state := 2, prot := 1 }] } : State).saf.failSilent = false) ∧ (({ State.reset with rma.conns := [{ num := 0, cls := 2, state := 2, prot := 1 }] } : State).pwr.doze = false) ∧ (connOf ({ State.reset with rma.conns := [{ num := 0, cls := 2, state := 2, prot := 1 }] } : State) (0 : Nat) = some ({ num := 0, cls := 2, state := 2, prot := 1 } : Conn)) ∧ (plainConn ({ State.reset with rma.conns := [{ num := 0, cls := 2, state := 2, prot := 1 }] } : State) ({ num := 0, cls := 2, state := 2, prot := 1 } : Conn) = false) ∧ (({ num := 0, cls := 2, state := 2, prot := 1 } : Conn).onDie = true) ∧ (({ num := 0, cls := 2, state := 2, prot := 1 } : Conn).cls ≠ 1) ∧ (({ num := 0, cls := 2, state := 2, prot := 1 } : Conn).state = 2) ∧ (({ State.reset with rma.conns := [{ num := 0, cls := 2, state := 2, prot := 1 }] } : State).hdl.bridge = false) ∧ (multipath ({ num := 0, cls := 2, state := 2, prot := 1 } : Conn) = false) ∧ ((0 : Nat) % 2 ^ 24 = ({ num := 0, cls := 2, state := 2, prot := 1 } : Conn).expPsn) := by
  decide

set_option maxRecDepth 100000 in
/-- The hypotheses of RemoteMemoryPackets are met. -/
theorem test_met_RemoteMemoryPackets_1 :
    (({ State.reset with rma.conns := [{ num := 0, cls := 2, state := 2, prot := 1 }] } : State).boot.fastStopped = false) ∧ (({ State.reset with rma.conns := [{ num := 0, cls := 2, state := 2, prot := 1 }] } : State).saf.failSilent = false) ∧ (({ State.reset with rma.conns := [{ num := 0, cls := 2, state := 2, prot := 1 }] } : State).pwr.doze = false) ∧ (connOf ({ State.reset with rma.conns := [{ num := 0, cls := 2, state := 2, prot := 1 }] } : State) (0 : Nat) = some ({ num := 0, cls := 2, state := 2, prot := 1 } : Conn)) ∧ (plainConn ({ State.reset with rma.conns := [{ num := 0, cls := 2, state := 2, prot := 1 }] } : State) ({ num := 0, cls := 2, state := 2, prot := 1 } : Conn) = false) ∧ (({ num := 0, cls := 2, state := 2, prot := 1 } : Conn).onDie = true) ∧ (({ num := 0, cls := 2, state := 2, prot := 1 } : Conn).cls ≠ 1) ∧ (({ num := 0, cls := 2, state := 2, prot := 1 } : Conn).state = 2) ∧ (({ State.reset with rma.conns := [{ num := 0, cls := 2, state := 2, prot := 1 }] } : State).hdl.bridge = false) ∧ (multipath ({ num := 0, cls := 2, state := 2, prot := 1 } : Conn) = false) ∧ ((0 : Nat) % 2 ^ 24 = ({ num := 0, cls := 2, state := 2, prot := 1 } : Conn).expPsn) ∧
    ((State.reset : State).boot.fastStopped = false) ∧ ((State.reset : State).saf.failSilent = false) ∧ ((State.reset : State).pwr.doze = false) ∧
    (connOf ({ State.reset with rma.conns := [{ num := 0, cls := 2, state := 2, prot := 1 }] } : State) (0 : Nat) = some ({ num := 0, cls := 2, state := 2, prot := 1 } : Conn)) ∧ (({ num := 0, cls := 2, state := 2, prot := 1 } : Conn).cnpAt = none) ∧ (multipath ({ num := 0, cls := 2, state := 2, prot := 1 } : Conn) = false) ∧
    (connOf ({ State.reset with rma.conns := [{ num := 0, cls := 2, state := 2, prot := 1, cnpAt := some 0 }] } : State) (0 : Nat) = some ({ num := 0, cls := 2, state := 2, prot := 1, cnpAt := some 0 } : Conn)) ∧ (({ num := 0, cls := 2, state := 2, prot := 1, cnpAt := some 0 } : Conn).cnpAt = some (0 : Nat)) ∧ (({ State.reset with rma.conns := [{ num := 0, cls := 2, state := 2, prot := 1, cnpAt := some 0 }] } : State).now < (0 : Nat) + 1000 * pidVal ({ State.reset with rma.conns := [{ num := 0, cls := 2, state := 2, prot := 1, cnpAt := some 0 }] } : State) 0x0608) ∧
    (({ State.reset with rma.conns := [{ num := 0, cls := 2, state := 2, prot := 1 }] } : State).boot.fastStopped = false) ∧ (({ State.reset with rma.conns := [{ num := 0, cls := 2, state := 2, prot := 1 }] } : State).saf.failSilent = false) ∧ (({ State.reset with rma.conns := [{ num := 0, cls := 2, state := 2, prot := 1 }] } : State).pwr.doze = false) ∧ (connOf ({ State.reset with rma.conns := [{ num := 0, cls := 2, state := 2, prot := 1 }] } : State) (0 : Nat) = some ({ num := 0, cls := 2, state := 2, prot := 1 } : Conn)) ∧ (plainConn ({ State.reset with rma.conns := [{ num := 0, cls := 2, state := 2, prot := 1 }] } : State) ({ num := 0, cls := 2, state := 2, prot := 1 } : Conn) = false) ∧ (({ num := 0, cls := 2, state := 2, prot := 1 } : Conn).onDie = true) ∧ (({ num := 0, cls := 2, state := 2, prot := 1 } : Conn).cls ≠ 1) ∧ (({ num := 0, cls := 2, state := 2, prot := 1 } : Conn).state = 2) ∧ (({ State.reset with rma.conns := [{ num := 0, cls := 2, state := 2, prot := 1 }] } : State).hdl.bridge = false) := by
  decide

set_option maxRecDepth 100000 in
/-- The hypotheses of RemoteMemoryPackets are met. -/
theorem test_met_RemoteMemoryPackets_2 :
    (({ State.reset with rma.conns := [{ num := 0, cls := 2, state := 2, prot := 1 }] } : State).boot.fastStopped = false) ∧ (({ State.reset with rma.conns := [{ num := 0, cls := 2, state := 2, prot := 1 }] } : State).saf.failSilent = false) ∧ (({ State.reset with rma.conns := [{ num := 0, cls := 2, state := 2, prot := 1 }] } : State).pwr.doze = false) ∧ (connOf ({ State.reset with rma.conns := [{ num := 0, cls := 2, state := 2, prot := 1 }] } : State) (0 : Nat) = some ({ num := 0, cls := 2, state := 2, prot := 1 } : Conn)) ∧ (plainConn ({ State.reset with rma.conns := [{ num := 0, cls := 2, state := 2, prot := 1 }] } : State) ({ num := 0, cls := 2, state := 2, prot := 1 } : Conn) = false) ∧ (({ num := 0, cls := 2, state := 2, prot := 1 } : Conn).onDie = true) ∧ (({ num := 0, cls := 2, state := 2, prot := 1 } : Conn).cls ≠ 1) ∧ (({ num := 0, cls := 2, state := 2, prot := 1 } : Conn).state = 2) ∧ (({ State.reset with rma.conns := [{ num := 0, cls := 2, state := 2, prot := 1 }] } : State).hdl.bridge = false) ∧
    (({ State.reset with rma.conns := [{ num := 0, cls := 2, state := 2, prot := 1 }] } : State).boot.fastStopped = false) ∧ (({ State.reset with rma.conns := [{ num := 0, cls := 2, state := 2, prot := 1 }] } : State).saf.failSilent = false) ∧ (({ State.reset with rma.conns := [{ num := 0, cls := 2, state := 2, prot := 1 }] } : State).pwr.doze = false) ∧ (connOf ({ State.reset with rma.conns := [{ num := 0, cls := 2, state := 2, prot := 1 }] } : State) (0 : Nat) = some ({ num := 0, cls := 2, state := 2, prot := 1 } : Conn)) ∧ (plainConn ({ State.reset with rma.conns := [{ num := 0, cls := 2, state := 2, prot := 1 }] } : State) ({ num := 0, cls := 2, state := 2, prot := 1 } : Conn) = false) ∧ (({ num := 0, cls := 2, state := 2, prot := 1 } : Conn).onDie = true) ∧ (({ num := 0, cls := 2, state := 2, prot := 1 } : Conn).cls ≠ 1) ∧ (({ num := 0, cls := 2, state := 2, prot := 1 } : Conn).state = 2) ∧ (({ State.reset with rma.conns := [{ num := 0, cls := 2, state := 2, prot := 1 }] } : State).hdl.bridge = false) ∧
    (({ State.reset with rma.conns := [{ num := 0, cls := 2, state := 2, prot := 1 }] } : State).boot.fastStopped = false) ∧ (({ State.reset with rma.conns := [{ num := 0, cls := 2, state := 2, prot := 1 }] } : State).saf.failSilent = false) ∧ (({ State.reset with rma.conns := [{ num := 0, cls := 2, state := 2, prot := 1 }] } : State).pwr.doze = false) ∧ (connOf ({ State.reset with rma.conns := [{ num := 0, cls := 2, state := 2, prot := 1 }] } : State) (0 : Nat) = some ({ num := 0, cls := 2, state := 2, prot := 1 } : Conn)) ∧ (plainConn ({ State.reset with rma.conns := [{ num := 0, cls := 2, state := 2, prot := 1 }] } : State) ({ num := 0, cls := 2, state := 2, prot := 1 } : Conn) = false) ∧ (({ num := 0, cls := 2, state := 2, prot := 1 } : Conn).onDie = true) ∧ (({ num := 0, cls := 2, state := 2, prot := 1 } : Conn).cls ≠ 1) ∧ (({ num := 0, cls := 2, state := 2, prot := 1 } : Conn).state = 2) ∧ (({ State.reset with rma.conns := [{ num := 0, cls := 2, state := 2, prot := 1 }] } : State).hdl.bridge = false) ∧
    (({ State.reset with rma.conns := [{ num := 0, cls := 2, state := 2, prot := 1 }] } : State).boot.fastStopped = false) ∧ (({ State.reset with rma.conns := [{ num := 0, cls := 2, state := 2, prot := 1 }] } : State).saf.failSilent = false) ∧ (({ State.reset with rma.conns := [{ num := 0, cls := 2, state := 2, prot := 1 }] } : State).pwr.doze = false) ∧ (connOf ({ State.reset with rma.conns := [{ num := 0, cls := 2, state := 2, prot := 1 }] } : State) (0 : Nat) = some ({ num := 0, cls := 2, state := 2, prot := 1 } : Conn)) ∧ (plainConn ({ State.reset with rma.conns := [{ num := 0, cls := 2, state := 2, prot := 1 }] } : State) ({ num := 0, cls := 2, state := 2, prot := 1 } : Conn) = false) ∧ (({ num := 0, cls := 2, state := 2, prot := 1 } : Conn).onDie = true) ∧ (({ num := 0, cls := 2, state := 2, prot := 1 } : Conn).cls ≠ 1) ∧ (({ num := 0, cls := 2, state := 2, prot := 1 } : Conn).state = 2) ∧ (({ State.reset with rma.conns := [{ num := 0, cls := 2, state := 2, prot := 1 }] } : State).hdl.bridge = false) ∧ (multipath ({ num := 0, cls := 2, state := 2, prot := 1 } : Conn) = false) ∧ ((0 : Nat) % 2 ^ 24 = ({ num := 0, cls := 2, state := 2, prot := 1 } : Conn).expPsn) ∧ (({ num := 0, cls := 2, state := 2, prot := 1 } : Conn).num = (0 : Nat)) ∧
    ((State.reset : State).boot.fastStopped = false) ∧ ((State.reset : State).saf.failSilent = false) ∧ ((State.reset : State).pwr.doze = false) := by
  decide

set_option maxRecDepth 100000 in
/-- The hypotheses of RemoteMemoryPackets are met. -/
theorem test_met_RemoteMemoryPackets_3 :
    ((State.reset : State).boot.fastStopped = false) ∧ ((State.reset : State).saf.failSilent = false) ∧ ((State.reset : State).pwr.doze = false) ∧
    ((0 : Nat) % 2 ^ 24 ≠ ({ num := 0, expPsn := 1 } : Conn).expPsn) ∧ (psnBehind ({ num := 0, expPsn := 1 } : Conn).expPsn (0 : Nat) = true) ∧
    ((1 : Nat) % 2 ^ 24 ≠ ({ num := 0 } : Conn).expPsn) ∧ (psnBehind ({ num := 0 } : Conn).expPsn (1 : Nat) = false) ∧ (multipath ({ num := 0 } : Conn) = false) ∧
    (connOf (State.reset : State) (0 : Nat) = none) ∧
    (connOf ({ State.reset with rma.conns := [{ num := 0, cls := 2, state := 2, prot := 1, onDie := false }] } : State) (0 : Nat) = some ({ num := 0, cls := 2, state := 2, prot := 1, onDie := false } : Conn)) ∧ (plainConn ({ State.reset with rma.conns := [{ num := 0, cls := 2, state := 2, prot := 1, onDie := false }] } : State) ({ num := 0, cls := 2, state := 2, prot := 1, onDie := false } : Conn) = false) ∧ (({ num := 0, cls := 2, state := 2, prot := 1, onDie := false } : Conn).onDie = false) ∧ (({ num := 0, cls := 2, state := 2, prot := 1, onDie := false } : Conn).missQ.length < 256) ∧ (missDepth ({ State.reset with rma.conns := [{ num := 0, cls := 2, state := 2, prot := 1, onDie := false }] } : State) < 65536) := by
  decide

set_option maxRecDepth 100000 in
/-- The hypotheses of RemoteMemoryPackets are met. -/
theorem test_met_RemoteMemoryPackets_4 :
    ((8 : Nat) ≤ dmaMax) ∧ (({ num := 0 } : Conn).recvFree = 0) ∧
    ((8 : Nat) ≤ dmaMax) ∧ (checkTarget (State.reset : State) ({ num := 0, cls := 2, state := 2, prot := 1, bufs := [(0, 64, 16)] } : Conn) (0 : Nat) (0 : Nat) (8 : Nat) 1 = some ((64 : Nat), (none : Option Nat))) ∧
    ((8 : Nat) ≤ dmaMax) ∧ (checkTarget (State.reset : State) ({ num := 0, cls := 2, state := 2, prot := 1 } : Conn) (0 : Nat) (0 : Nat) (8 : Nat) 1 = none) ∧
    ((8 : Nat) ≤ dmaMax) ∧ (checkTarget ({ State.reset with ham.win := [{ base := 0, size := 1, enable := true, owner := 1 }] } : State) ({ num := 0, cls := 2, state := 2, prot := 1, bufs := [(0, 64, 16)] } : Conn) (0 : Nat) (0 : Nat) (8 : Nat) 0 = some ((64 : Nat), (none : Option Nat))) ∧ (engineReads (64 : Nat) (8 : Nat) ({ State.reset with ham.win := [{ base := 0, size := 1, enable := true, owner := 1 }] } : State) = none) ∧
    (checkTarget ({ State.reset with ham.win := [{ base := 0, size := 1, enable := true, owner := 1 }] } : State) ({ num := 0, cls := 2, state := 2, prot := 1, bufs := [(0, 64, 16)] } : Conn) (0 : Nat) (0 : Nat) 8 2 = some ((64 : Nat), (none : Option Nat))) ∧ ((64 : Nat) % 8 = 0) ∧ (engineReads (64 : Nat) 8 ({ State.reset with ham.win := [{ base := 0, size := 1, enable := true, owner := 1 }] } : State) = none) := by
  decide

set_option maxRecDepth 100000 in
/-- The hypotheses of RemoteMemoryPackets are met. -/
theorem test_met_RemoteMemoryPackets_5 :
    (({ num := 0, cls := 2, prot := 2 } : Conn).cls = 2 ∨ ({ num := 0, cls := 2, prot := 2 } : Conn).cls = 3) ∧ (({ num := 0, cls := 2, prot := 2 } : Conn).prot = 2) ∧ ((regionOf ({ State.reset with rma.regions := [{ idx := 1, tag := 1, state := 1, rights := 2, len := 16 }] } : State) ((16385 : Nat) / 16384)).tag = (16385 : Nat) % 16384) ∧ ((regionOf ({ State.reset with rma.regions := [{ idx := 1, tag := 1, state := 1, rights := 2, len := 16 }] } : State) ((16385 : Nat) / 16384)).state = 1) ∧ ((regionOf ({ State.reset with rma.regions := [{ idx := 1, tag := 1, state := 1, rights := 2, len := 16 }] } : State) ((16385 : Nat) / 16384)).conn = ({ num := 0, cls := 2, prot := 2 } : Conn).num) ∧ (bit (regionOf ({ State.reset with rma.regions := [{ idx := 1, tag := 1, state := 1, rights := 2, len := 16 }] } : State) ((16385 : Nat) / 16384)).rights (1 : Nat) = true) ∧ ((8 : Nat) + (8 : Nat) ≤ (regionOf ({ State.reset with rma.regions := [{ idx := 1, tag := 1, state := 1, rights := 2, len := 16 }] } : State) ((16385 : Nat) / 16384)).len) ∧
    (({ State.reset with rma.conns := [{ num := 0, cls := 2, state := 2, prot := 1, sent := [(0, 4, [])] }] } : State).boot.fastStopped = false) ∧ (({ State.reset with rma.conns := [{ num := 0, cls := 2, state := 2, prot := 1, sent := [(0, 4, [])] }] } : State).saf.failSilent = false) ∧ (connOf ({ State.reset with rma.conns := [{ num := 0, cls := 2, state := 2, prot := 1, sent := [(0, 4, [])] }] } : State) (0 : Nat) = some ({ num := 0, cls := 2, state := 2, prot := 1, sent := [(0, 4, [])] } : Conn)) ∧ (({ num := 0, cls := 2, state := 2, prot := 1, sent := [(0, 4, [])] } : Conn).num = (0 : Nat)) ∧ (({ num := 0, cls := 2, state := 2, prot := 1, sent := [(0, 4, [])] } : Conn).sent ≠ []) ∧ (({ num := 0, cls := 2, state := 2, prot := 1, sent := [(0, 4, [])] } : Conn).onDie = true) ∧ (({ num := 0, cls := 2, state := 2, prot := 1, sent := [(0, 4, [])] } : Conn).state = 2 ∨ ({ num := 0, cls := 2, state := 2, prot := 1, sent := [(0, 4, [])] } : Conn).state = 3) ∧ (({ num := 0, cls := 2, state := 2, prot := 1, sent := [(0, 4, [])] } : Conn).retries < pidVal ({ State.reset with rma.conns := [{ num := 0, cls := 2, state := 2, prot := 1, sent := [(0, 4, [])] }] } : State) 0x0602) := by
  decide

set_option maxRecDepth 100000 in
/-- The hypotheses of ConnectionsSasAndRegions are met. -/
theorem test_met_ConnectionsSasAndRegions_0 :
    (({ State.reset with hfe.subs := [{ enabled := true, linkUp := true }] } : State).boot.fastStopped = false) ∧ (({ State.reset with hfe.subs := [{ enabled := true, linkUp := true }] } : State).saf.failSilent = false) ∧ (({ State.reset with hfe.subs := [{ enabled := true, linkUp := true }] } : State).pwr.doze = false) ∧ (subUp ({ State.reset with hfe.subs := [{ enabled := true, linkUp := true }] } : State) (0 : Nat) = true) ∧
    ((4096 : Nat) = 1024 ∨ (4096 : Nat) = 2048 ∨ (4096 : Nat) = 4096) ∧ (pinnedTaken (State.reset : State) < 4096) ∧ (freeConnNum (State.reset : State) = some (0 : Nat)) ∧
    ((9 : Nat) ≠ 1024) ∧ ((9 : Nat) ≠ 2048) ∧ ((9 : Nat) ≠ 4096) ∧
    ((0 : Nat) < 2) ∧ (bit (pidVal ({ State.reset with plem.pids := [(0x0600, 1)] } : State) 0x0600) (0 : Nat) = true) ∧
    (({ State.reset with hfe.subs := [{ enabled := true, linkUp := true }] } : State).boot.fastStopped = false) ∧ (({ State.reset with hfe.subs := [{ enabled := true, linkUp := true }] } : State).saf.failSilent = false) ∧ (({ State.reset with hfe.subs := [{ enabled := true, linkUp := true }] } : State).pwr.doze = false) ∧ (subUp ({ State.reset with hfe.subs := [{ enabled := true, linkUp := true }] } : State) (0 : Nat) = true) := by
  decide

set_option maxRecDepth 100000 in
/-- The hypotheses of ConnectionsSasAndRegions are met. -/
theorem test_met_ConnectionsSasAndRegions_1 :
    (bit (pidVal ({ State.reset with plem.blocks := [(0x440, zeros 11 ++ [1] ++ zeros 36 ++ [68, 17] ++ zeros 14)] } : State) 0x0600) (0 : Nat) = false) ∧ (bit (numAt (subBlock ({ State.reset with plem.blocks := [(0x440, zeros 11 ++ [1] ++ zeros 36 ++ [68, 17] ++ zeros 14)] } : State) (0 : Nat)) 11 1) 0 = true) ∧ (numAt (subBlock ({ State.reset with plem.blocks := [(0x440, zeros 11 ++ [1] ++ zeros 36 ++ [68, 17] ++ zeros 14)] } : State) (0 : Nat)) 48 2 = (4420 : Nat)) ∧ (freeConnNum ({ State.reset with plem.blocks := [(0x440, zeros 11 ++ [1] ++ zeros 36 ++ [68, 17] ++ zeros 14)] } : State) = some (0 : Nat)) ∧
    (({ State.reset with rma.conns := [{ num := 0, cls := 1 }] } : State).boot.fastStopped = false) ∧ (({ State.reset with rma.conns := [{ num := 0, cls := 1 }] } : State).saf.failSilent = false) ∧ (({ State.reset with rma.conns := [{ num := 0, cls := 1 }] } : State).pwr.doze = false) ∧ (connOf ({ State.reset with rma.conns := [{ num := 0, cls := 1 }] } : State) (0 : Nat) = some ({ num := 0, cls := 1 } : Conn)) ∧ (({ num := 0, cls := 1 } : Conn).cls = 1) ∧ (({ num := 0, cls := 1 } : Conn).state = 1) ∧ (plainConn ({ State.reset with rma.conns := [{ num := 0, cls := 1 }] } : State) ({ num := 0, cls := 1 } : Conn) = false) ∧
    (({ State.reset with rma.conns := [{ num := 0, cls := 1 }] } : State).boot.fastStopped = false) ∧ (({ State.reset with rma.conns := [{ num := 0, cls := 1 }] } : State).saf.failSilent = false) ∧ (({ State.reset with rma.conns := [{ num := 0, cls := 1 }] } : State).pwr.doze = false) ∧ (connOf ({ State.reset with rma.conns := [{ num := 0, cls := 1 }] } : State) (0 : Nat) = some ({ num := 0, cls := 1 } : Conn)) ∧ (({ num := 0, cls := 1 } : Conn).cls = 1) ∧ (({ num := 0, cls := 1 } : Conn).state = 1) ∧ (plainConn ({ State.reset with rma.conns := [{ num := 0, cls := 1 }] } : State) ({ num := 0, cls := 1 } : Conn) = false) ∧
    (({ State.reset with rma.conns := [{ num := 0, cls := 2, ours := true }] } : State).boot.fastStopped = false) ∧ (({ State.reset with rma.conns := [{ num := 0, cls := 2, ours := true }] } : State).saf.failSilent = false) ∧ (({ State.reset with rma.conns := [{ num := 0, cls := 2, ours := true }] } : State).pwr.doze = false) ∧ (connOf ({ State.reset with rma.conns := [{ num := 0, cls := 2, ours := true }] } : State) (0 : Nat) = some ({ num := 0, cls := 2, ours := true } : Conn)) ∧ (plainConn ({ State.reset with rma.conns := [{ num := 0, cls := 2, ours := true }] } : State) ({ num := 0, cls := 2, ours := true } : Conn) = false) ∧ (({ num := 0, cls := 2, ours := true } : Conn).state = 1) ∧ (({ num := 0, cls := 2, ours := true } : Conn).cls ≠ 1) ∧ (({ num := 0, cls := 2, ours := true } : Conn).ours = true) ∧
    (({ State.reset with rma.conns := [{ num := 0, cls := 2 }] } : State).boot.fastStopped = false) ∧ (({ State.reset with rma.conns := [{ num := 0, cls := 2 }] } : State).saf.failSilent = false) ∧ (({ State.reset with rma.conns := [{ num := 0, cls := 2 }] } : State).pwr.doze = false) ∧ (connOf ({ State.reset with rma.conns := [{ num := 0, cls := 2 }] } : State) (0 : Nat) = some ({ num := 0, cls := 2 } : Conn)) ∧ (plainConn ({ State.reset with rma.conns := [{ num := 0, cls := 2 }] } : State) ({ num := 0, cls := 2 } : Conn) = false) ∧ (({ num := 0, cls := 2 } : Conn).state = 1) ∧ (({ num := 0, cls := 2 } : Conn).cls ≠ 1) ∧ (({ num := 0, cls := 2 } : Conn).ours = false) := by
  decide

set_option maxRecDepth 100000 in
/-- The hypotheses of ConnectionsSasAndRegions are met. -/
theorem test_met_ConnectionsSasAndRegions_2 :
    (({ State.reset with rma.conns := [{ num := 0, cls := 2, ours := true }] } : State).boot.fastStopped = false) ∧ (({ State.reset with rma.conns := [{ num := 0, cls := 2, ours := true }] } : State).saf.failSilent = false) ∧ (({ State.reset with rma.conns := [{ num := 0, cls := 2, ours := true }] } : State).pwr.doze = false) ∧ (connOf ({ State.reset with rma.conns := [{ num := 0, cls := 2, ours := true }] } : State) (0 : Nat) = some ({ num := 0, cls := 2, ours := true } : Conn)) ∧ (plainConn ({ State.reset with rma.conns := [{ num := 0, cls := 2, ours := true }] } : State) ({ num := 0, cls := 2, ours := true } : Conn) = false) ∧ (({ num := 0, cls := 2, ours := true } : Conn).state = 1) ∧ (({ num := 0, cls := 2, ours := true } : Conn).cls ≠ 1) ∧ (({ num := 0, cls := 2, ours := true } : Conn).ours = true) ∧
    (({ State.reset with rma.conns := [{ num := 0, cls := 2, state := 2, prot := 1 }] } : State).boot.fastStopped = false) ∧ (({ State.reset with rma.conns := [{ num := 0, cls := 2, state := 2, prot := 1 }] } : State).saf.failSilent = false) ∧ (({ State.reset with rma.conns := [{ num := 0, cls := 2, state := 2, prot := 1 }] } : State).pwr.doze = false) ∧ (connOf ({ State.reset with rma.conns := [{ num := 0, cls := 2, state := 2, prot := 1 }] } : State) (0 : Nat) = some ({ num := 0, cls := 2, state := 2, prot := 1 } : Conn)) ∧ (plainConn ({ State.reset with rma.conns := [{ num := 0, cls := 2, state := 2, prot := 1 }] } : State) ({ num := 0, cls := 2, state := 2, prot := 1 } : Conn) = false) ∧ (({ num := 0, cls := 2, state := 2, prot := 1 } : Conn).cls ≠ 1) ∧
    ((State.reset : State).boot.fastStopped = false) ∧ ((State.reset : State).saf.failSilent = false) ∧ ((State.reset : State).pwr.doze = false) ∧
    ((State.reset : State).boot.fastStopped = false) ∧ ((State.reset : State).saf.failSilent = false) ∧ ((State.reset : State).pwr.doze = false) ∧
    ((State.reset : State).boot.fastStopped = false) ∧ ((State.reset : State).pwr.doze = false) ∧ ((State.reset : State).saf.failSilent = false) ∧ (saOf (State.reset : State) (256 : Nat) = none) := by
  decide

set_option maxRecDepth 100000 in
/-- The hypotheses of ConnectionsSasAndRegions are met. -/
theorem test_met_ConnectionsSasAndRegions_3 :
    (({ State.reset with rma.pendingSa := [{ handle := 1, spiIn := 256 }] } : State).boot.fastStopped = false) ∧ (({ State.reset with rma.pendingSa := [{ handle := 1, spiIn := 256 }] } : State).pwr.doze = false) ∧ (({ State.reset with rma.pendingSa := [{ handle := 1, spiIn := 256 }] } : State).saf.failSilent = false) ∧ (saOf ({ State.reset with rma.pendingSa := [{ handle := 1, spiIn := 256 }] } : State) (256 : Nat) = some ({ handle := 1, spiIn := 256 } : SaPair)) ∧ (windowEdge ({ handle := 1, spiIn := 256 } : SaPair) ≤ inferSeq ({ handle := 1, spiIn := 256 } : SaPair).inHigh ((1 : Nat) % 2 ^ 32)) ∧ (0 ≤ inferSeq ({ handle := 1, spiIn := 256 } : SaPair).inHigh ((1 : Nat) % 2 ^ 32)) ∧ (({ handle := 1, spiIn := 256 } : SaPair).inSeen.contains (inferSeq ({ handle := 1, spiIn := 256 } : SaPair).inHigh ((1 : Nat) % 2 ^ 32)).toNat = false) ∧
    (({ State.reset with rma.pendingSa := [{ handle := 1, spiIn := 256 }] } : State).boot.fastStopped = false) ∧ (({ State.reset with rma.pendingSa := [{ handle := 1, spiIn := 256 }] } : State).pwr.doze = false) ∧ (({ State.reset with rma.pendingSa := [{ handle := 1, spiIn := 256 }] } : State).saf.failSilent = false) ∧ (saOf ({ State.reset with rma.pendingSa := [{ handle := 1, spiIn := 256 }] } : State) (256 : Nat) = some ({ handle := 1, spiIn := 256 } : SaPair)) ∧ (windowEdge ({ handle := 1, spiIn := 256 } : SaPair) ≤ inferSeq ({ handle := 1, spiIn := 256 } : SaPair).inHigh ((1 : Nat) % 2 ^ 32)) ∧ (0 ≤ inferSeq ({ handle := 1, spiIn := 256 } : SaPair).inHigh ((1 : Nat) % 2 ^ 32)) ∧ (({ handle := 1, spiIn := 256 } : SaPair).inSeen.contains (inferSeq ({ handle := 1, spiIn := 256 } : SaPair).inHigh ((1 : Nat) % 2 ^ 32)).toNat = false) ∧
    (({ State.reset with rma.pendingSa := [{ handle := 1, spiIn := 256, inSeen := [1], inHigh := 1 }] } : State).boot.fastStopped = false) ∧ (({ State.reset with rma.pendingSa := [{ handle := 1, spiIn := 256, inSeen := [1], inHigh := 1 }] } : State).pwr.doze = false) ∧ (({ State.reset with rma.pendingSa := [{ handle := 1, spiIn := 256, inSeen := [1], inHigh := 1 }] } : State).saf.failSilent = false) ∧ (saOf ({ State.reset with rma.pendingSa := [{ handle := 1, spiIn := 256, inSeen := [1], inHigh := 1 }] } : State) (256 : Nat) = some ({ handle := 1, spiIn := 256, inSeen := [1], inHigh := 1 } : SaPair)) ∧ (windowEdge ({ handle := 1, spiIn := 256, inSeen := [1], inHigh := 1 } : SaPair) ≤ inferSeq ({ handle := 1, spiIn := 256, inSeen := [1], inHigh := 1 } : SaPair).inHigh ((1 : Nat) % 2 ^ 32)) ∧ (0 ≤ inferSeq ({ handle := 1, spiIn := 256, inSeen := [1], inHigh := 1 } : SaPair).inHigh ((1 : Nat) % 2 ^ 32)) ∧ (({ handle := 1, spiIn := 256, inSeen := [1], inHigh := 1 } : SaPair).inSeen.contains (inferSeq ({ handle := 1, spiIn := 256, inSeen := [1], inHigh := 1 } : SaPair).inHigh ((1 : Nat) % 2 ^ 32)).toNat = true) ∧
    ((State.reset : State).boot.fastStopped = false) ∧ ((State.reset : State).saf.failSilent = false) ∧
    ((State.reset : State).boot.fastStopped = false) ∧ ((State.reset : State).saf.failSilent = false) := by
  decide

set_option maxRecDepth 100000 in
/-- The hypotheses of ConnectionsSasAndRegions are met. -/
theorem test_met_ConnectionsSasAndRegions_4 :
    ((S1 opKeyInstallSa : State).boot.fastStopped = false) ∧ (opCmd (S1 opKeyInstallSa : State) (3 : Nat) (1 : Nat) opKeyInstallSa = some (K opKeyInstallSa : Cmd)) ∧ ((S1 opKeyInstallSa : State).brd.port = []) ∧
    ((({ nums := [0xFFFFFFFF, 0, 2, 256, 257] } : Decision) : Decision).nums = [0xFFFFFFFF, 0, (2 : Nat), (256 : Nat), (257 : Nat)]) ∧
    ((RGS : State).boot.fastStopped = false) ∧ (opCmd (RGS : State) (3 : Nat) (1 : Nat) opRegionRegister = some (K opRegionRegister : Cmd)) ∧ ((RGS : State).brd.port = []) ∧ (bufferRegion (RGS : State) (pk (K opRegionRegister : Cmd) 24 8) = some (3 : Nat)) ∧ (pk (K opRegionRegister : Cmd) 24 8 + pk (K opRegionRegister : Cmd) 32 4 ≤ winBase (RGS : State) (3 : Nat) + winSize (RGS : State) (3 : Nat)) ∧ (connOf (RGS : State) (pk (K opRegionRegister : Cmd) 40 4) = some ({ num := 0, cls := 2, prot := 2 } : Conn)) ∧ (({ num := 0, cls := 2, prot := 2 } : Conn).prot = 2) ∧ (freeRegion (RGS : State) = some (0 : Nat)) ∧
    ((SP opRegionRegister (zeros 31 ++ [1]) : State).boot.fastStopped = false) ∧ (opCmd (SP opRegionRegister (zeros 31 ++ [1]) : State) (3 : Nat) (1 : Nat) opRegionRegister = some (KP opRegionRegister (zeros 31 ++ [1]) : Cmd)) ∧ ((SP opRegionRegister (zeros 31 ++ [1]) : State).brd.port = []) ∧ (bufferRegion (SP opRegionRegister (zeros 31 ++ [1]) : State) (pk (KP opRegionRegister (zeros 31 ++ [1]) : Cmd) 24 8) = none) ∧
    ((K opRegionRegister : Cmd).opcode = opRegionRegister) ∧ ((({ nums := [0, 1, 0, 16, 2, 0] } : Decision) : Decision).nums = [(0 : Nat), (1 : Nat), (0 : Nat), (16 : Nat), (2 : Nat), (0 : Nat)]) := by
  decide

set_option maxRecDepth 100000 in
/-- The hypotheses of ConnectionsSasAndRegions are met. -/
theorem test_met_ConnectionsSasAndRegions_5 :
    (({ S1 opRegionRevoke with rma.regions := [{ idx := 0, state := 1 }] } : State).boot.fastStopped = false) ∧ (opCmd ({ S1 opRegionRevoke with rma.regions := [{ idx := 0, state := 1 }] } : State) (3 : Nat) (1 : Nat) opRegionRevoke = some (K opRegionRevoke : Cmd)) ∧ (({ S1 opRegionRevoke with rma.regions := [{ idx := 0, state := 1 }] } : State).brd.port = []) ∧ (longOpOf ({ S1 opRegionRevoke with rma.regions := [{ idx := 0, state := 1 }] } : State) opRegionRevoke = none) ∧ ((regionOf ({ S1 opRegionRevoke with rma.regions := [{ idx := 0, state := 1 }] } : State) (pk (K opRegionRevoke : Cmd) 24 4 / 16384)).state = 1) ∧ ((regionOf ({ S1 opRegionRevoke with rma.regions := [{ idx := 0, state := 1 }] } : State) (pk (K opRegionRevoke : Cmd) 24 4 / 16384)).tag = pk (K opRegionRevoke : Cmd) 24 4 % 16384) ∧
    ((S1 opRegionRevoke : State).boot.fastStopped = false) ∧ (opCmd (S1 opRegionRevoke : State) (3 : Nat) (1 : Nat) opRegionRevoke = some (K opRegionRevoke : Cmd)) ∧ ((S1 opRegionRevoke : State).brd.port = []) ∧ (longOpOf (S1 opRegionRevoke : State) opRegionRevoke = none) ∧ ((regionOf (S1 opRegionRevoke : State) (pk (K opRegionRevoke : Cmd) 24 4 / 16384)).state ≠ 1) ∧
    (({ State.reset with rma.revoking := some 0 } : State).boot.fastStopped = false) ∧ (({ State.reset with rma.revoking := some 0 } : State).saf.failSilent = false) ∧ (({ State.reset with rma.revoking := some 0 } : State).rma.revoking = some (0 : Nat)) ∧ ((regionOf ({ State.reset with rma.revoking := some 0 } : State) (0 : Nat)).inFlight = 0) ∧ (({ State.reset with rma.revoking := some 0 } : State).rma.revokeWarn = false) ∧
    (({ S1 opConnTeardown with rma.conns := [{ num := 0 }] } : State).boot.fastStopped = false) ∧ (opCmd ({ S1 opConnTeardown with rma.conns := [{ num := 0 }] } : State) (3 : Nat) (1 : Nat) opConnTeardown = some (K opConnTeardown : Cmd)) ∧ (({ S1 opConnTeardown with rma.conns := [{ num := 0 }] } : State).brd.port = []) ∧ (connOf ({ S1 opConnTeardown with rma.conns := [{ num := 0 }] } : State) (pk (K opConnTeardown : Cmd) 24 4) = some ({ num := 0 } : Conn)) ∧ (({ num := 0 } : Conn).draining = false) ∧
    ((S1 opConnTeardown : State).boot.fastStopped = false) ∧ (opCmd (S1 opConnTeardown : State) (3 : Nat) (1 : Nat) opConnTeardown = some (K opConnTeardown : Cmd)) ∧ ((S1 opConnTeardown : State).brd.port = []) ∧ (connOf (S1 opConnTeardown : State) (pk (K opConnTeardown : Cmd) 24 4) = none) := by
  decide

set_option maxRecDepth 100000 in
/-- The hypotheses of ConnectionsSasAndRegions are met. -/
theorem test_met_ConnectionsSasAndRegions_6 :
    (({ State.reset with rma.conns := [{ num := 0, cls := 2, state := 2, prot := 1 }] } : State).boot.fastStopped = false) ∧ (({ State.reset with rma.conns := [{ num := 0, cls := 2, state := 2, prot := 1 }] } : State).saf.failSilent = false) ∧ (connOf ({ State.reset with rma.conns := [{ num := 0, cls := 2, state := 2, prot := 1 }] } : State) (0 : Nat) = some ({ num := 0, cls := 2, state := 2, prot := 1 } : Conn)) ∧ (({ num := 0, cls := 2, state := 2, prot := 1 } : Conn).draining = false) ∧ (({ State.reset with rma.conns := [{ num := 0, cls := 2, state := 2, prot := 1 }] } : State).rma.revoking = none) ∧
    (({ State.reset with rma.conns := [{ num := 0, cls := 2, state := 2, prot := 1, draining := true, msgs := [{ conn := 0, psn := 0, region := none }] }] } : State).boot.fastStopped = false) ∧ (({ State.reset with rma.conns := [{ num := 0, cls := 2, state := 2, prot := 1, draining := true, msgs := [{ conn := 0, psn := 0, region := none }] }] } : State).saf.failSilent = false) ∧ (connOf ({ State.reset with rma.conns := [{ num := 0, cls := 2, state := 2, prot := 1, draining := true, msgs := [{ conn := 0, psn := 0, region := none }] }] } : State) (0 : Nat) = some ({ num := 0, cls := 2, state := 2, prot := 1, draining := true, msgs := [{ conn := 0, psn := 0, region := none }] } : Conn)) ∧ (({ num := 0, cls := 2, state := 2, prot := 1, draining := true, msgs := [{ conn := 0, psn := 0, region := none }] } : Conn).draining = true) ∧ (({ num := 0, cls := 2, state := 2, prot := 1, draining := true, msgs := [{ conn := 0, psn := 0, region := none }] } : Conn).msgs ≠ []) ∧ (({ State.reset with rma.conns := [{ num := 0, cls := 2, state := 2, prot := 1, draining := true, msgs := [{ conn := 0, psn := 0, region := none }] }] } : State).rma.revoking = none) ∧
    (({ State.reset with rma.conns := [{ num := 0, cls := 2, state := 2, prot := 1, draining := true }] } : State).boot.fastStopped = false) ∧ (({ State.reset with rma.conns := [{ num := 0, cls := 2, state := 2, prot := 1, draining := true }] } : State).saf.failSilent = false) ∧ (connOf ({ State.reset with rma.conns := [{ num := 0, cls := 2, state := 2, prot := 1, draining := true }] } : State) (0 : Nat) = some ({ num := 0, cls := 2, state := 2, prot := 1, draining := true } : Conn)) ∧ (({ num := 0, cls := 2, state := 2, prot := 1, draining := true } : Conn).draining = true) ∧ (({ num := 0, cls := 2, state := 2, prot := 1, draining := true } : Conn).msgs = []) ∧ (({ num := 0, cls := 2, state := 2, prot := 1, draining := true } : Conn).trackers = []) ∧ (({ num := 0, cls := 2, state := 2, prot := 1, draining := true } : Conn).sent = []) := by
  decide

set_option maxRecDepth 100000 in
/-- The hypotheses of DataMoverCommands are met. -/
theorem test_met_DataMoverCommands_0 :
    ((DMS : State).boot.fastStopped = false) ∧ ((DMS : State).saf.failSilent = false) ∧ ((DMS : State).pwr.doze = false) ∧ (takes (DMS : State) (0 : Nat) = true) ∧ (descFail (nextDescriptor (0 : Nat) (DMS : State)) (0 : Nat) 1 ({ srcCount := 1, srcSgl := 0, dst := 2 ^ 61, dstLen := 8 } : DmvDesc) (([{ addr := 2 ^ 61, len := 8 }] : List SgEntry).take ({ srcCount := 1, srcSgl := 0, dst := 2 ^ 61, dstLen := 8 } : DmvDesc).srcCount) = none) ∧ (totalOf (([{ addr := 2 ^ 61, len := 8 }] : List SgEntry).take ({ srcCount := 1, srcSgl := 0, dst := 2 ^ 61, dstLen := 8 } : DmvDesc).srcCount) ≠ 0) ∧
    ((DMS : State).boot.fastStopped = false) ∧ ((DMS : State).saf.failSilent = false) ∧ ((DMS : State).pwr.doze = false) ∧ (takes (DMS : State) (0 : Nat) = true) ∧ (descFail (nextDescriptor (0 : Nat) (DMS : State)) (0 : Nat) 1 ({ flags := 8 } : DmvDesc) (([{ addr := 2 ^ 61, len := 8 }] : List SgEntry).take ({ flags := 8 } : DmvDesc).srcCount) = some ({ status := stFmtParam, detail := 1 } : DmvFail)) ∧
    ((State.reset : State).boot.fastStopped = false) ∧ ((State.reset : State).saf.failSilent = false) ∧ ((State.reset : State).pwr.doze = false) ∧ (takes (State.reset : State) (0 : Nat) = true) ∧ (descFail (nextDescriptor (0 : Nat) (State.reset : State)) (0 : Nat) 2 ({ dst := 2 ^ 61, dstLen := 8 } : DmvDesc) (([] : List SgEntry).take ({ dst := 2 ^ 61, dstLen := 8 } : DmvDesc).srcCount) = none) ∧ (({ dst := 2 ^ 61, dstLen := 8 } : DmvDesc).dstLen ≠ 0) ∧
    ((State.reset : State).boot.fastStopped = false) ∧ ((State.reset : State).saf.failSilent = false) ∧ ((State.reset : State).pwr.doze = false) ∧ (takes (State.reset : State) (0 : Nat) = true) ∧ (descFail (nextDescriptor (0 : Nat) (State.reset : State)) (0 : Nat) 2 ({ flags := 8 } : DmvDesc) (([] : List SgEntry).take ({ flags := 8 } : DmvDesc).srcCount) = some ({ status := stFmtParam, detail := 1 } : DmvFail)) ∧
    ((State.reset : State).boot.fastStopped = false) ∧ ((State.reset : State).saf.failSilent = false) ∧ ((State.reset : State).pwr.doze = false) ∧ (takes (State.reset : State) (0 : Nat) = true) ∧ (descFail (nextDescriptor (0 : Nat) (State.reset : State)) (0 : Nat) 3 ({} : DmvDesc) (([] : List SgEntry).take ({} : DmvDesc).srcCount) = none) := by
  decide

set_option maxRecDepth 100000 in
/-- The hypotheses of DataMoverCommands are met. -/
theorem test_met_DataMoverCommands_1 :
    ((State.reset : State).boot.fastStopped = false) ∧ ((State.reset : State).saf.failSilent = false) ∧ ((State.reset : State).pwr.doze = false) ∧ (takes (State.reset : State) (0 : Nat) = true) ∧ (descFail (nextDescriptor (0 : Nat) (State.reset : State)) (0 : Nat) 3 ({ flags := 8 } : DmvDesc) (([] : List SgEntry).take ({ flags := 8 } : DmvDesc).srcCount) = some ({ status := stFmtParam, detail := 1 } : DmvFail)) ∧
    ((State.reset : State).boot.fastStopped = false) ∧ ((State.reset : State).saf.failSilent = false) ∧ ((State.reset : State).pwr.doze = false) ∧ (takes (State.reset : State) (0 : Nat) = true) ∧ (descFail (nextDescriptor (0 : Nat) (State.reset : State)) (0 : Nat) 4 ({} : DmvDesc) (([] : List SgEntry).take ({} : DmvDesc).srcCount) = none) ∧ (flushesNothing (nextDescriptor (0 : Nat) (State.reset : State)) 4 ({} : DmvDesc) = false) ∧
    ((State.reset : State).boot.fastStopped = false) ∧ ((State.reset : State).saf.failSilent = false) ∧ ((State.reset : State).pwr.doze = false) ∧ (takes (State.reset : State) (0 : Nat) = true) ∧ (descFail (nextDescriptor (0 : Nat) (State.reset : State)) (0 : Nat) 4 ({ flags := 8 } : DmvDesc) (([] : List SgEntry).take ({ flags := 8 } : DmvDesc).srcCount) = some ({ status := stFmtParam, detail := 1 } : DmvFail)) ∧
    ((State.reset : State).boot.fastStopped = false) ∧ ((State.reset : State).saf.failSilent = false) ∧ ((State.reset : State).pwr.doze = false) ∧ (takes (State.reset : State) (0 : Nat) = true) ∧ (descFail (nextDescriptor (0 : Nat) (State.reset : State)) (0 : Nat) 4 ({ region := 31 } : DmvDesc) [] = none) ∧ (flushesNothing (nextDescriptor (0 : Nat) (State.reset : State)) 4 ({ region := 31 } : DmvDesc) = true) ∧
    ((State.reset : State).boot.fastStopped = false) ∧ ((State.reset : State).saf.failSilent = false) ∧ ((State.reset : State).pwr.doze = false) ∧ (takes (State.reset : State) (0 : Nat) = true) ∧ (descFail (nextDescriptor (0 : Nat) (State.reset : State)) (0 : Nat) 2 ({ dst := 2 ^ 61 } : DmvDesc) [] = none) ∧ (({ dst := 2 ^ 61 } : DmvDesc).dstLen = 0) := by
  decide

set_option maxRecDepth 100000 in
/-- The hypotheses of DataMoverCommands are met. -/
theorem test_met_DataMoverCommands_2 :
    (({ status := stFmtParam, detail := 1 } : DmvFail).denied = none) ∧
    (({ State.reset with dmv.lanes := updAt 0 (fun l => { l with run := some { op := 2, desc := { dst := 2 ^ 61, dstLen := 8 }, total := 8 } }) State.reset.dmv.lanes } : State).boot.fastStopped = false) ∧ (({ State.reset with dmv.lanes := updAt 0 (fun l => { l with run := some { op := 2, desc := { dst := 2 ^ 61, dstLen := 8 }, total := 8 } }) State.reset.dmv.lanes } : State).pwr.doze = false) ∧ (({ State.reset with dmv.lanes := updAt 0 (fun l => { l with run := some { op := 2, desc := { dst := 2 ^ 61, dstLen := 8 }, total := 8 } }) State.reset.dmv.lanes } : State).saf.failSilent = false) ∧ (grantLane (0 : Nat) ([] : List Nat) (paceChecks (0 : Nat) ({ State.reset with dmv.lanes := updAt 0 (fun l => { l with run := some { op := 2, desc := { dst := 2 ^ 61, dstLen := 8 }, total := 8 } }) State.reset.dmv.lanes } : State)) = some (0 : Nat)) ∧ ((laneOf (paceChecks (0 : Nat) ({ State.reset with dmv.lanes := updAt 0 (fun l => { l with run := some { op := 2, desc := { dst := 2 ^ 61, dstLen := 8 }, total := 8 } }) State.reset.dmv.lanes } : State)) (0 : Nat)).run = some ({ op := 2, desc := { dst := 2 ^ 61, dstLen := 8 }, total := 8 } : Running)) ∧ ((let t := paceChecks (0 : Nat) ({ State.reset with dmv.lanes := updAt 0 (fun l => { l with run := some { op := 2, desc := { dst := 2 ^ 61, dstLen := 8 }, total := 8 } }) State.reset.dmv.lanes } : State); burstDenied { t with dmv.lastServed := updAt (({ op := 2, desc := { dst := 2 ^ 61, dstLen := 8 }, total := 8 } : Running).desc.flags % 4) (fun _ => (0 : Nat)) t.dmv.lastServed } (0 : Nat) ({ op := 2, desc := { dst := 2 ^ 61, dstLen := 8 }, total := 8 } : Running) (burstLen ({ op := 2, desc := { dst := 2 ^ 61, dstLen := 8 }, total := 8 } : Running))) = none) ∧ ((let t := paceChecks (0 : Nat) ({ State.reset with dmv.lanes := updAt 0 (fun l => { l with run := some { op := 2, desc := { dst := 2 ^ 61, dstLen := 8 }, total := 8 } }) State.reset.dmv.lanes } : State); burstPoisoned { t with dmv.lastServed := updAt (({ op := 2, desc := { dst := 2 ^ 61, dstLen := 8 }, total := 8 } : Running).desc.flags % 4) (fun _ => (0 : Nat)) t.dmv.lastServed } ({ op := 2, desc := { dst := 2 ^ 61, dstLen := 8 }, total := 8 } : Running) (burstLen ({ op := 2, desc := { dst := 2 ^ 61, dstLen := 8 }, total := 8 } : Running))) = false) ∧
    ((State.reset : State).boot.fastStopped = false) ∧ ((State.reset : State).pwr.doze = false) ∧ ((State.reset : State).saf.failSilent = false) ∧ (grantLane (0 : Nat) ([] : List Nat) (paceChecks (0 : Nat) (State.reset : State)) = none) ∧
    ((([0] : List Nat).find? fun x => burstReady (0 : Nat) (laneOf ({ State.reset with dmv.lanes := updAt 0 (fun l => { l with run := some { op := 2, desc := { dst := 2 ^ 61, dstLen := 8 }, total := 8 } }) State.reset.dmv.lanes } : State) x)) = some (0 : Nat)) ∧
    ((State.reset : State).boot.fastStopped = false) ∧ ((State.reset : State).saf.failSilent = false) ∧ ((State.reset : State).pwr.doze = false) := by
  decide

set_option maxRecDepth 100000 in
/-- The hypotheses of DataMoverCommands are met. -/
theorem test_met_DataMoverCommands_3 :
    (({ State.reset with dmv.lanes := updAt 0 (fun l => { l with run := some { op := 2, desc := {} }, paceWait := some 3 }) State.reset.dmv.lanes } : State).boot.fastStopped = false) ∧ (({ State.reset with dmv.lanes := updAt 0 (fun l => { l with run := some { op := 2, desc := {} }, paceWait := some 3 }) State.reset.dmv.lanes } : State).saf.failSilent = false) ∧ (({ State.reset with dmv.lanes := updAt 0 (fun l => { l with run := some { op := 2, desc := {} }, paceWait := some 3 }) State.reset.dmv.lanes } : State).pwr.doze = false) ∧ ((laneOf ({ State.reset with dmv.lanes := updAt 0 (fun l => { l with run := some { op := 2, desc := {} }, paceWait := some 3 }) State.reset.dmv.lanes } : State) (0 : Nat)).run = some ({ op := 2, desc := {} } : Running)) ∧ ((laneOf ({ State.reset with dmv.lanes := updAt 0 (fun l => { l with run := some { op := 2, desc := {} }, paceWait := some 3 }) State.reset.dmv.lanes } : State) (0 : Nat)).paceWait = some (3 : Nat)) ∧
    ((State.reset : State).boot.fastStopped = false) ∧ ((State.reset : State).saf.failSilent = false) ∧ ((State.reset : State).pwr.doze = false) ∧
    (({ id := 0, space := 0, addr := 64, bytes := [1], seq := 0 } : DmvWrite).space = 0) ∧ (cacheable { (State.reset : State) with ham.mem := memWrite (State.reset : State).ham.mem ({ id := 0, space := 0, addr := 64, bytes := [1], seq := 0 } : DmvWrite).addr ({ id := 0, space := 0, addr := 64, bytes := [1], seq := 0 } : DmvWrite).bytes } ({ id := 0, space := 0, addr := 64, bytes := [1], seq := 0 } : DmvWrite).addr = false) ∧
    (({ id := 0, space := 2, addr := 64, bytes := [1], seq := 0 } : DmvWrite).space ≠ 0) ∧
    (({ State.reset with dmv.lanes := updAt 0 (fun l => { l with run := some { op := 3, desc := {} }, writes := [{ id := 0, space := 2, addr := 0, bytes := [], seq := 0 }] }) State.reset.dmv.lanes } : State).boot.fastStopped = false) ∧ (({ State.reset with dmv.lanes := updAt 0 (fun l => { l with run := some { op := 3, desc := {} }, writes := [{ id := 0, space := 2, addr := 0, bytes := [], seq := 0 }] }) State.reset.dmv.lanes } : State).saf.failSilent = false) ∧ (({ State.reset with dmv.lanes := updAt 0 (fun l => { l with run := some { op := 3, desc := {} }, writes := [{ id := 0, space := 2, addr := 0, bytes := [], seq := 0 }] }) State.reset.dmv.lanes } : State).pwr.doze = false) ∧ ((laneOf ({ State.reset with dmv.lanes := updAt 0 (fun l => { l with run := some { op := 3, desc := {} }, writes := [{ id := 0, space := 2, addr := 0, bytes := [], seq := 0 }] }) State.reset.dmv.lanes } : State) (0 : Nat)).run = some ({ op := 3, desc := {} } : Running)) ∧ (({ op := 3, desc := {} } : Running).op = 3) ∧ ((laneOf ({ State.reset with dmv.lanes := updAt 0 (fun l => { l with run := some { op := 3, desc := {} }, writes := [{ id := 0, space := 2, addr := 0, bytes := [], seq := 0 }] }) State.reset.dmv.lanes } : State) (0 : Nat)).writes.any (fun w => w.space == 2) = true) := by
  decide

set_option maxRecDepth 100000 in
/-- The hypotheses of DataMoverCommands are met. -/
theorem test_met_DataMoverCommands_4 :
    ((State.reset : State).boot.fastStopped = false) ∧ (14 ≤ (14 : Nat)) ∧ ((14 : Nat) < 16) ∧
    ((laneOf (State.reset : State) (14 : Nat)).enable = false) ∧ (bit (0x80000004 : Nat) 31 = true) ∧ (4 ≤ field (0x80000004 : Nat) 0 4) ∧ (field (0x80000004 : Nat) 0 4 ≤ 12) ∧
    (({ State.reset with dmv.lanes := updAt 14 (fun l => { l with sizeLog2 := 4 }) State.reset.dmv.lanes } : State).boot.fastStopped = false) ∧ (14 ≤ (14 : Nat)) ∧ (field (3 : Word).toNat 0 12 < 2 ^ (laneOf ({ State.reset with dmv.lanes := updAt 14 (fun l => { l with sizeLog2 := 4 }) State.reset.dmv.lanes } : State) (14 : Nat)).sizeLog2) ∧
    (({ State.reset with dmv.lanes := updAt 14 (fun l => { l with sizeLog2 := 4 }) State.reset.dmv.lanes } : State).boot.fastStopped = false) ∧ (14 ≤ (14 : Nat)) ∧ (2 ^ (laneOf ({ State.reset with dmv.lanes := updAt 14 (fun l => { l with sizeLog2 := 4 }) State.reset.dmv.lanes } : State) (14 : Nat)).sizeLog2 ≤ field (16 : Word).toNat 0 12) ∧
    (({ State.reset with dmv.lanes := updAt 14 (fun l => { l with sizeLog2 := 4 }) State.reset.dmv.lanes } : State).boot.fastStopped = false) ∧ (14 ≤ (14 : Nat)) ∧ (field (3 : Word).toNat 0 12 < 2 ^ (laneOf ({ State.reset with dmv.lanes := updAt 14 (fun l => { l with sizeLog2 := 4 }) State.reset.dmv.lanes } : State) (14 : Nat)).sizeLog2) ∧ ((laneOf (updLane (14 : Nat) (fun l => { l with cqHead := field (3 : Word).toNat 0 12 }) (doorbellWakes ({ State.reset with dmv.lanes := updAt 14 (fun l => { l with sizeLog2 := 4 }) State.reset.dmv.lanes } : State))) (14 : Nat)).held = []) := by
  decide

set_option maxRecDepth 100000 in
/-- The hypotheses of MapCacheAndLookaside are met. -/
theorem test_met_MapCacheAndLookaside_0 :
    (({ State.reset with ham.win := [{ base := 0, size := 1, enable := true, owner := 2 }] } : State).boot.fastStopped = false) ∧ (({ State.reset with ham.win := [{ base := 0, size := 1, enable := true, owner := 2 }] } : State).saf.failSilent = false) ∧ (({ State.reset with ham.win := [{ base := 0, size := 1, enable := true, owner := 2 }] } : State).pwr.doze = false) ∧ (winAllowsRange ({ State.reset with ham.win := [{ base := 0, size := 1, enable := true, owner := 2 }] } : State).ham.win 2 false (0 : Nat) 1 = true) ∧ (cacheable ({ State.reset with ham.win := [{ base := 0, size := 1, enable := true, owner := 2 }] } : State) (0 : Nat) = false) ∧
    (({ MCS with mch.lines := [{ addr := 0, way := 0 }] } : State).boot.fastStopped = false) ∧ (({ MCS with mch.lines := [{ addr := 0, way := 0 }] } : State).saf.failSilent = false) ∧ (({ MCS with mch.lines := [{ addr := 0, way := 0 }] } : State).pwr.doze = false) ∧ (winAllowsRange ({ MCS with mch.lines := [{ addr := 0, way := 0 }] } : State).ham.win 2 false (0 : Nat) 1 = true) ∧ (cacheable ({ MCS with mch.lines := [{ addr := 0, way := 0 }] } : State) (0 : Nat) = true) ∧ ((({ MCS with mch.lines := [{ addr := 0, way := 0 }] } : State).mch.lines.find? fun x => x.addr == lineAddr (0 : Nat)) = some ({ addr := 0, way := 0 } : Line)) ∧
    ((MCS : State).boot.fastStopped = false) ∧ ((MCS : State).saf.failSilent = false) ∧ ((MCS : State).pwr.doze = false) ∧ (winAllowsRange (MCS : State).ham.win 2 false (0 : Nat) 1 = true) ∧ (cacheable (MCS : State) (0 : Nat) = true) ∧ (((MCS : State).mch.lines.find? fun x => x.addr == lineAddr (0 : Nat)) = none) ∧ ((MCS : State).mch.fills.any (fun f => f.addr == lineAddr (0 : Nat)) = false) ∧
    ((MCS : State).boot.fastStopped = false) ∧ ((MCS : State).saf.failSilent = false) ∧ ((MCS : State).pwr.doze = false) ∧ (((MCS : State).mch.fills.find? fun f => f.addr == lineAddr (0 : Nat)) = none) ∧
    (({ MCS with mch.fills := [{ addr := 0, alloc := false }] } : State).boot.fastStopped = false) ∧ (({ MCS with mch.fills := [{ addr := 0, alloc := false }] } : State).saf.failSilent = false) ∧ (({ MCS with mch.fills := [{ addr := 0, alloc := false }] } : State).pwr.doze = false) ∧ ((({ MCS with mch.fills := [{ addr := 0, alloc := false }] } : State).mch.fills.find? fun x => x.addr == lineAddr (0 : Nat)) = some ({ addr := 0, alloc := false } : Fill)) ∧ (({ addr := 0, alloc := false } : Fill).wants = []) ∧ (({ addr := 0, alloc := false } : Fill).alloc = false) := by
  decide

set_option maxRecDepth 100000 in
/-- The hypotheses of MapCacheAndLookaside are met. -/
theorem test_met_MapCacheAndLookaside_1 :
    (({ MCS with mch.fills := [{ addr := 0, way := some 2 }] } : State).boot.fastStopped = false) ∧ (({ MCS with mch.fills := [{ addr := 0, way := some 2 }] } : State).saf.failSilent = false) ∧ (({ MCS with mch.fills := [{ addr := 0, way := some 2 }] } : State).pwr.doze = false) ∧ ((({ MCS with mch.fills := [{ addr := 0, way := some 2 }] } : State).mch.fills.find? fun x => x.addr == lineAddr (0 : Nat)) = some ({ addr := 0, way := some 2 } : Fill)) ∧ (({ addr := 0, way := some 2 } : Fill).wants = []) ∧ (({ addr := 0, way := some 2 } : Fill).alloc = true) ∧ (({ addr := 0, way := some 2 } : Fill).way = some (2 : Nat)) ∧ (({ MCS with mch.fills := [{ addr := 0, way := some 2 }] } : State).mch.ranges = []) ∧ (wayDown ({ MCS with mch.fills := [{ addr := 0, way := some 2 }] } : State) (2 : Nat) = false) ∧ (bit ({ MCS with mch.fills := [{ addr := 0, way := some 2 }] } : State).mch.lock (2 : Nat) = false) ∧
    (({ State.reset with ham.win := [] } : State).boot.fastStopped = false) ∧ (({ State.reset with ham.win := [] } : State).saf.failSilent = false) ∧ (({ State.reset with ham.win := [] } : State).pwr.doze = false) ∧ (winAllowsRange ({ State.reset with ham.win := [] } : State).ham.win 2 false (0 : Nat) 1 = false) ∧
    (({ State.reset with ham.win := [] } : State).boot.fastStopped = false) ∧ (({ State.reset with ham.win := [] } : State).saf.failSilent = false) ∧ (({ State.reset with ham.win := [] } : State).pwr.doze = false) ∧ (winAllowsRange ({ State.reset with ham.win := [] } : State).ham.win 2 true (0 : Nat) ([1] : List Byte).length = false) ∧
    (({ State.reset with ham.win := [{ base := 0, size := 1, enable := true, owner := 2 }] } : State).boot.fastStopped = false) ∧ (({ State.reset with ham.win := [{ base := 0, size := 1, enable := true, owner := 2 }] } : State).saf.failSilent = false) ∧ (({ State.reset with ham.win := [{ base := 0, size := 1, enable := true, owner := 2 }] } : State).pwr.doze = false) ∧ (winAllowsRange ({ State.reset with ham.win := [{ base := 0, size := 1, enable := true, owner := 2 }] } : State).ham.win 2 true (0 : Nat) ([1] : List Byte).length = true) ∧ (({ State.reset with ham.win := [{ base := 0, size := 1, enable := true, owner := 2 }] } : State).mch.wt.length < 64) ∧
    (({ MCS with mch.fills := [{ addr := 0, way := some 2 }] } : State).boot.fastStopped = false) ∧ (preloadBusy ({ MCS with mch.fills := [{ addr := 0, way := some 2 }] } : State) = true) := by
  decide

set_option maxRecDepth 100000 in
/-- The hypotheses of MapCacheAndLookaside are met. -/
theorem test_met_MapCacheAndLookaside_2 :
    ((State.reset : State).boot.fastStopped = false) ∧ (preloadBusy (State.reset : State) = false) ∧ (bit (0 : Word).toNat 31 = false) ∧
    ((State.reset : State).boot.fastStopped = false) ∧ ((waysOf ((3 : Nat) % 65536)).length ≤ 15) ∧ ((waysOf ((3 : Nat) % 65536)).any (wayDown (State.reset : State)) = false) ∧
    ((State.reset : State).boot.fastStopped = false) ∧ (15 < (waysOf ((65535 : Nat) % 65536)).length) ∧
    ((State.reset : State).boot.fastStopped = false) ∧
    (({ State.reset with ham.win := updAt 7 (fun w => { w with size := 1 }) State.reset.ham.win } : State).boot.fastStopped = false) ∧ (({ State.reset with ham.win := updAt 7 (fun w => { w with size := 1 }) State.reset.ham.win } : State).saf.failSilent = false) ∧ (({ State.reset with ham.win := updAt 7 (fun w => { w with size := 1 }) State.reset.ham.win } : State).pwr.doze = false) ∧ ((0 : Nat) < 3) ∧ ((3 : Nat) < mlaFrames ({ State.reset with ham.win := updAt 7 (fun w => { w with size := 1 }) State.reset.ham.win } : State)) := by
  decide

set_option maxRecDepth 100000 in
/-- The hypotheses of MapCacheAndLookaside are met. -/
theorem test_met_MapCacheAndLookaside_3 :
    ((State.reset : State).boot.fastStopped = false) ∧ ((State.reset : State).saf.failSilent = false) ∧ ((State.reset : State).pwr.doze = false) ∧ (3 ≤ (3 : Nat) ∨ mlaFrames (State.reset : State) ≤ (3 : Nat)) ∧
    ((State.reset : State).boot.fastStopped = false) ∧ ((State.reset : State).saf.failSilent = false) ∧ ((State.reset : State).pwr.doze = false) ∧
    (({ State.reset with mch.mla := [{ kind := 0, object := 1, page := 2, frame := 3 }] } : State).boot.fastStopped = false) ∧ (({ State.reset with mch.mla := [{ kind := 0, object := 1, page := 2, frame := 3 }] } : State).saf.failSilent = false) ∧ (({ State.reset with mch.mla := [{ kind := 0, object := 1, page := 2, frame := 3 }] } : State).pwr.doze = false) ∧ (({ State.reset with mch.mla := [{ kind := 0, object := 1, page := 2, frame := 3 }] } : State).mch.mla.find? (mlaKey (0 : Nat) (1 : Nat) (2 : Nat)) = some ({ kind := 0, object := 1, page := 2, frame := 3 } : MlaEntry)) ∧
    ((State.reset : State).boot.fastStopped = false) ∧ ((State.reset : State).saf.failSilent = false) ∧ ((State.reset : State).pwr.doze = false) ∧ ((State.reset : State).mch.mla.find? (mlaKey (0 : Nat) (1 : Nat) (2 : Nat)) = none) := by
  decide

set_option maxRecDepth 100000 in
/-- The hypotheses of ThermalSafetyAndSelfTest are met. -/
theorem test_met_ThermalSafetyAndSelfTest_0 :
    (({ State.reset with pins.aonInRange := true } : State).pins.aonInRange = true) ∧ ((List.replicate 37 400 : List Int).length = 37) ∧
    ((State.reset : State).aon.trip = false) ∧ (allBelow ([2200] : List Int) 2160 = false) ∧
    (allBelow ([2100] : List Int) 2160 = true) ∧
    (({ State.reset with thm.sensors := List.replicate 5 { failed := true } } : State).thm.coverageLost = false) ∧ (coverageGone ({ State.reset with thm.sensors := List.replicate 5 { failed := true } } : State).thm.sensors = true) ∧
    (({ State.reset with thm.fast := true, thm.coolSince := some 3 } : State).thm.fast = true) ∧ (({ State.reset with thm.fast := true, thm.coolSince := some 3 } : State).thm.coolSince ≠ none) := by
  decide

set_option maxRecDepth 100000 in
/-- The hypotheses of ThermalSafetyAndSelfTest are met. -/
theorem test_met_ThermalSafetyAndSelfTest_1 :
    ((S1 opThermStatus : State).boot.fastStopped = false) ∧ (opCmd (S1 opThermStatus : State) (3 : Nat) (1 : Nat) opThermStatus = some (K opThermStatus : Cmd)) ∧
    ((State.reset : State).boot.fastStopped = false) ∧
    (({ State.reset with pins.pwrok := true } : State).boot.fastStopped = false) ∧ (({ State.reset with pins.pwrok := true } : State).pins.pwrok = true) ∧ (watched ({ State.reset with pins.pwrok := true } : State) (36 : Nat) = true) ∧
    ((State.reset : State).boot.fastStopped = false) ∧ ((0 : Nat) < 32) ∧
    (({ State.reset with pins.pwrok := true, saf.parked := 1 } : State).boot.fastStopped = false) ∧ (({ State.reset with pins.pwrok := true, saf.parked := 1 } : State).pins.pwrok = true) ∧ ((0 : Nat) < 37) ∧ (bit ({ State.reset with pins.pwrok := true, saf.parked := 1 } : State).saf.parked (0 : Nat) = true) := by
  decide

set_option maxRecDepth 100000 in
/-- The hypotheses of ThermalSafetyAndSelfTest are met. -/
theorem test_met_ThermalSafetyAndSelfTest_2 :
    (({ State.reset with saf.cfgScrub := true } : State).boot.fastStopped = false) ∧ (({ State.reset with saf.cfgScrub := true } : State).saf.cfgScrub = true) ∧
    (({ State.reset with saf.cfgScrub := true } : State).boot.fastStopped = false) ∧ (({ State.reset with saf.cfgScrub := true } : State).saf.cfgScrub = true) ∧
    (({ State.reset with saf.hamScrub := true } : State).boot.fastStopped = false) ∧ (({ State.reset with saf.hamScrub := true } : State).saf.hamScrub = true) ∧ ((1 : Nat) ≠ 0) ∧ ((1 : Nat) * 64 < hamUnits * winUnit) ∧
    (({ State.reset with saf.hamScrub := true, ham.win := [] } : State).boot.fastStopped = false) ∧ (({ State.reset with saf.hamScrub := true, ham.win := [] } : State).saf.hamScrub = true) ∧ ((1 : Nat) ≠ 0) ∧ ((1 : Nat) * 64 < hamUnits * winUnit) ∧ (winOf ({ State.reset with saf.hamScrub := true, ham.win := [] } : State).ham.win ((1 : Nat) * 64) = none) ∧
    (({ State.reset with saf.hamScrub := true, ham.win := [{ base := 0, size := 1, enable := true }] } : State).boot.fastStopped = false) ∧ (({ State.reset with saf.hamScrub := true, ham.win := [{ base := 0, size := 1, enable := true }] } : State).saf.hamScrub = true) ∧ ((1 : Nat) ≠ 0) ∧ ((1 : Nat) * 64 < hamUnits * winUnit) ∧ (winOf ({ State.reset with saf.hamScrub := true, ham.win := [{ base := 0, size := 1, enable := true }] } : State).ham.win ((1 : Nat) * 64) = some (0 : Nat)) := by
  decide

set_option maxRecDepth 100000 in
/-- The hypotheses of ThermalSafetyAndSelfTest are met. -/
theorem test_met_ThermalSafetyAndSelfTest_3 :
    (({ State.reset with pins.pwrok := true } : State).boot.fastStopped = false) ∧ (1 ≤ (1 : Nat)) ∧ ((1 : Nat) ≤ 0x0D) ∧ (({ State.reset with pins.pwrok := true } : State).pins.pwrok = true) ∧
    ((SP opSelftest (zeros 24 ++ [1]) : State).boot.fastStopped = false) ∧ (opCmd (SP opSelftest (zeros 24 ++ [1]) : State) (3 : Nat) (1 : Nat) opSelftest = some (KP opSelftest (zeros 24 ++ [1]) : Cmd)) ∧ (pk (KP opSelftest (zeros 24 ++ [1]) : Cmd) 24 1 ≠ 0) ∧
    (({ State.reset with plem.deferred := [(K opSelftest, 0)] } : State).boot.fastStopped = false) ∧ ((({ State.reset with plem.deferred := [(K opSelftest, 0)] } : State).plem.deferred.find? fun d => d.1.opcode == opSelftest) = some ((K opSelftest : Cmd), (0 : Nat))) := by
  decide

set_option maxRecDepth 100000 in
/-- The hypotheses of WeaverCommands are met. -/
theorem test_met_WeaverCommands_0 :
    (({ State.reset with wvr.loops := updAt 0 (fun l => { l with sensor := 8 }) State.reset.wvr.loops } : State).boot.fastStopped = false) ∧ (({ State.reset with wvr.loops := updAt 0 (fun l => { l with sensor := 8 }) State.reset.wvr.loops } : State).saf.failSilent = false) ∧ ((0 : Nat) < 64) ∧ ((loopAt ({ State.reset with wvr.loops := updAt 0 (fun l => { l with sensor := 8 }) State.reset.wvr.loops } : State) (0 : Nat)).stale = false) ∧ ((loopAt ({ State.reset with wvr.loops := updAt 0 (fun l => { l with sensor := 8 }) State.reset.wvr.loops } : State) (0 : Nat)).sensor ≠ 0) ∧
    (({ State.reset with wvr.loops := updAt 0 (fun l => { l with stale := true }) State.reset.wvr.loops } : State).boot.fastStopped = false) ∧ (({ State.reset with wvr.loops := updAt 0 (fun l => { l with stale := true }) State.reset.wvr.loops } : State).saf.failSilent = false) ∧ ((loopAt ({ State.reset with wvr.loops := updAt 0 (fun l => { l with stale := true }) State.reset.wvr.loops } : State) (0 : Nat)).stale = true) ∧
    ((State.reset : State).boot.fastStopped = false) ∧ ((State.reset : State).saf.failSilent = false) ∧ ((6 : Nat) ≠ 0) ∧ (sensorOk (6 : Nat) (0 : Nat) = true) ∧
    (({ State.reset with wvr.running := true } : State).boot.fastStopped = false) ∧ (({ State.reset with wvr.running := true } : State).saf.failSilent = false) ∧ (weaverRuns ({ State.reset with wvr.running := true } : State) = true) ∧
    ((State.reset : State).boot.fastStopped = false) ∧ ((State.reset : State).saf.failSilent = false) ∧ (weaverRuns (State.reset : State) = false) := by
  decide

set_option maxRecDepth 100000 in
/-- The hypotheses of WeaverCommands are met. -/
theorem test_met_WeaverCommands_1 :
    (({ State.reset with boot.mgtRunning := true, fw.running := [none, none, none, some 0, none] } : State).boot.fastStopped = false) ∧ (({ State.reset with boot.mgtRunning := true, fw.running := [none, none, none, some 0, none] } : State).wvr.running = false) ∧ (({ State.reset with boot.mgtRunning := true, fw.running := [none, none, none, some 0, none] } : State).boot.mgtRunning = true) ∧ (wvmFound ({ State.reset with boot.mgtRunning := true, fw.running := [none, none, none, some 0, none] } : State) = true) ∧ (({ State.reset with boot.mgtRunning := true, fw.running := [none, none, none, some 0, none] } : State).saf.failSilent = false) ∧
    (({ State.reset with wvr.loops := updAt 0 (fun l => { l with inj := some { point := 0, wave := 0, amp := 1, dur := 5, period := 1 } }) State.reset.wvr.loops } : State).boot.fastStopped = false) ∧ (({ State.reset with wvr.loops := updAt 0 (fun l => { l with inj := some { point := 0, wave := 0, amp := 1, dur := 5, period := 1 } }) State.reset.wvr.loops } : State).saf.failSilent = false) ∧ ((loopAt ({ State.reset with wvr.loops := updAt 0 (fun l => { l with inj := some { point := 0, wave := 0, amp := 1, dur := 5, period := 1 } }) State.reset.wvr.loops } : State) (0 : Nat)).inj = some ({ point := 0, wave := 0, amp := 1, dur := 5, period := 1 } : Inject)) ∧
    ((State.reset : State).boot.fastStopped = false) ∧ ((State.reset : State).saf.failSilent = false) ∧
    (({ State.reset with wvr.loops := updAt 0 (fun l => { l with inj := some { point := 0, wave := 0, amp := 1, dur := 5, period := 1 } }) State.reset.wvr.loops, plem.cmds := [K opWvrInject] } : State).boot.fastStopped = false) ∧ (opCmd ({ State.reset with wvr.loops := updAt 0 (fun l => { l with inj := some { point := 0, wave := 0, amp := 1, dur := 5, period := 1 } }) State.reset.wvr.loops, plem.cmds := [K opWvrInject] } : State) (3 : Nat) (1 : Nat) opWvrInject = some (K opWvrInject : Cmd)) ∧ (({ State.reset with wvr.loops := updAt 0 (fun l => { l with inj := some { point := 0, wave := 0, amp := 1, dur := 5, period := 1 } }) State.reset.wvr.loops, plem.cmds := [K opWvrInject] } : State).brd.port = []) ∧ (pk (K opWvrInject : Cmd) 25 1 = 0) ∧ (pk (K opWvrInject : Cmd) 26 1 = 0) ∧ ((loopAt ({ State.reset with wvr.loops := updAt 0 (fun l => { l with inj := some { point := 0, wave := 0, amp := 1, dur := 5, period := 1 } }) State.reset.wvr.loops, plem.cmds := [K opWvrInject] } : State) (pk (K opWvrInject : Cmd) 24 1)).inj = some ({ point := 0, wave := 0, amp := 1, dur := 5, period := 1 } : Inject)) ∧
    ((S1 opWvrInject : State).boot.fastStopped = false) ∧ (opCmd (S1 opWvrInject : State) (3 : Nat) (1 : Nat) opWvrInject = some (K opWvrInject : Cmd)) ∧ ((S1 opWvrInject : State).brd.port = []) ∧ (pk (K opWvrInject : Cmd) 25 1 = 0) ∧ (pk (K opWvrInject : Cmd) 26 1 = 0) ∧ ((loopAt (S1 opWvrInject : State) (pk (K opWvrInject : Cmd) 24 1)).inj = none) ∧ (injections (S1 opWvrInject : State) < 8) := by
  decide

set_option maxRecDepth 100000 in
/-- The hypotheses of WeaverCommands are met. -/
theorem test_met_WeaverCommands_2 :
    (pk (KP opWvrInject (zeros 32 ++ [9]) : Cmd) 25 1 = 0) ∧ (pk (KP opWvrInject (zeros 32 ++ [9]) : Cmd) 32 4 ≠ 0) ∧
    (({ S1 opWvrCapture with wvr.capture := some { state := 1, trigger := 0, clock := 0, d := 1, count := 4, sel := [], level := 0 } } : State).boot.fastStopped = false) ∧ (opCmd ({ S1 opWvrCapture with wvr.capture := some { state := 1, trigger := 0, clock := 0, d := 1, count := 4, sel := [], level := 0 } } : State) (3 : Nat) (1 : Nat) opWvrCapture = some (K opWvrCapture : Cmd)) ∧ (({ S1 opWvrCapture with wvr.capture := some { state := 1, trigger := 0, clock := 0, d := 1, count := 4, sel := [], level := 0 } } : State).brd.port = []) ∧ (pk (K opWvrCapture : Cmd) 24 1 = 0) ∧ (captureBusy ({ S1 opWvrCapture with wvr.capture := some { state := 1, trigger := 0, clock := 0, d := 1, count := 4, sel := [], level := 0 } } : State) = true) ∧
    ((S1 opWvrCapture : State).boot.fastStopped = false) ∧ (opCmd (S1 opWvrCapture : State) (3 : Nat) (1 : Nat) opWvrCapture = some (K opWvrCapture : Cmd)) ∧ ((S1 opWvrCapture : State).brd.port = []) ∧ (pk (K opWvrCapture : Cmd) 24 1 = 0) ∧ (captureBusy (S1 opWvrCapture : State) = false) ∧
    (pk (KP opWvrCapture (zeros 28 ++ [9]) : Cmd) 24 1 = 0) ∧ (pk (KP opWvrCapture (zeros 28 ++ [9]) : Cmd) 28 4 ≠ 0) := by
  decide

set_option maxRecDepth 100000 in
/-- The hypotheses of WeaverSampleArithmetic are met. -/
theorem test_met_WeaverSampleArithmetic :
    (-32768 ≤ ({ num := 0 } : Loop).umin) ∧ (({ num := 0 } : Loop).umin ≤ ({ num := 0 } : Loop).umax) ∧ (({ num := 0 } : Loop).umax ≤ 32767) ∧
    (({ num := 0, bumpless := false } : Loop).bumpless = false) ∧
    (({ num := 0, bumpless := false } : Loop).bumpless = false) := by
  decide

set_option maxRecDepth 100000 in
/-- The hypotheses of AStepRunsTheFrontCommand are met. -/
theorem test_met_AStepRunsTheFrontCommand :
    ((State.reset : State).pending = []) := by
  decide

set_option maxRecDepth 100000 in
/-- The hypotheses of ResetHoldsTheDefaultPartition are met. -/
theorem test_met_ResetHoldsTheDefaultPartition_0 :
    ((16 : Nat) < 17) ∧
    (17 ≤ (17 : Nat)) ∧ ((17 : Nat) < 32) ∧
    ((192 * 2 ^ 30 - 1 : Nat) < 192 * 2 ^ 30) ∧
    (winOf State.reset.ham.win (192 * 2 ^ 30 - 1 : Nat) = some 16) ∧ ((1 : Nat) = 1 ∨ (1 : Nat) = 2 ∨ (1 : Nat) = 3) ∧
    ((2 : Nat) = 1 ∨ (2 : Nat) = 2 ∨ (2 : Nat) = 3) := by
  decide

set_option maxRecDepth 100000 in
/-- The hypotheses of ResetHoldsTheDefaultPartition are met. -/
theorem test_met_ResetHoldsTheDefaultPartition_1 :
    (({ base := 0 } : Win).owner = 0) ∧
    ((State.reset : State).ham.win[(31 : Nat)]? = some ({ base := 0 } : Win)) := by
  decide

set_option maxRecDepth 100000 in
/-- The hypotheses of RimRingsKeepTheirOrder are met. -/
theorem test_met_RimRingsKeepTheirOrder :
    ((State.reset : State).boot.fastStopped = false ∧ ((rimPlanes (63 : Nat)).1 = 3 ∨ ((State.reset : State).saf.failSilent = false ∧ (State.reset : State).pwr.doze = false))) ∧ ((63 : Nat) < 64) ∧ ((63 : Nat) < (State.reset : State).ham.rim.length) ∧ ((false : Bool) = rimByCore (63 : Nat)) ∧ ((false : Bool) = false ∨ (rimOf (State.reset : State) (63 : Nat)).entries.length < rimCap) ∧
    (({ State.reset with ham.rim := [{ entries := [[7]] }] } : State).boot.fastStopped = false ∧ ((rimPlanes (0 : Nat)).2 = 3 ∨ (({ State.reset with ham.rim := [{ entries := [[7]] }] } : State).saf.failSilent = false ∧ ({ State.reset with ham.rim := [{ entries := [[7]] }] } : State).pwr.doze = false))) ∧ ((rimOf ({ State.reset with ham.rim := [{ entries := [[7]] }] } : State) (0 : Nat)).entries = ([7] : List Byte) :: ([] : List (List Byte))) ∧
    ((rimOf (State.reset : State) (5 : Nat)).entries = []) := by
  decide

set_option maxRecDepth 100000 in
/-- The hypotheses of ResetValues are met. -/
theorem test_met_ResetValues :
    ((resetLoop 63 : Loop) ∈ State.reset.wvr.loops) ∧ (10 ≤ (resetLoop 63 : Loop).num) := by
  decide

/-- The hypotheses of EveryStepKeepsTheInvariant are met (clause 1). -/
theorem test_met_EveryStepKeepsTheInvariant_c1 :
    ((State.reset : State).Inv) ∧
    (step (State.reset : State) = .next (drainOne (refStep State.reset) : State)) := by
  exact ⟨⟨rfl, by intro i e h; rw [show State.reset.nv.chain = [] from rfl] at h; simp at h⟩, rfl⟩

/-- The hypotheses of WhatIsRecordedAndBurnedStays are met (clause 1). -/
theorem test_met_WhatIsRecordedAndBurnedStays_c1 :
    (step (State.reset : State) = .next (drainOne (refStep State.reset) : State)) := by
  exact rfl

/-- The hypotheses of LatchesClearOnlyAsStated are met (clause 1). -/
theorem test_met_LatchesClearOnlyAsStated_c1 :
    (step (State.reset : State) = .next (drainOne (refStep State.reset) : State)) ∧
    ((State.reset : State).pins.pwrok = true) ∧
    ((State.reset : State).pins.aonInRange = true) ∧
    ((State.reset : State).pending.head? ≠ some .pwrokFall) ∧
    ((State.reset : State).pending.head? ≠ some .aonRailsDown) := by
  exact ⟨rfl, rfl, rfl, by decide, by decide⟩

/-- The hypotheses of LatchesClearOnlyAsStated are met (clause 2). -/
theorem test_met_LatchesClearOnlyAsStated_c2 :
    (step (State.reset : State) = .next (drainOne (refStep State.reset) : State)) ∧
    ((State.reset : State).pending.head? ≠ some .aonRailsDown) := by
  exact ⟨rfl, by decide⟩

/-- The hypotheses of LatchesClearOnlyAsStated are met (clause 3). -/
theorem test_met_LatchesClearOnlyAsStated_c3 :
    (({ State.reset with pending := [.refclkGood], brd.udsOpen := false } : State).pending.head? = some (.refclkGood : Instr)) ∧
    (isReset (.refclkGood : Instr) = false) ∧
    (step ({ State.reset with pending := [.refclkGood], brd.udsOpen := false } : State) = .next ({ State.reset with brd.udsOpen := false, boot.refOk := true, boot.aonTick := false, boot.halted := false } : State)) ∧
    (({ State.reset with pending := [.refclkGood], brd.udsOpen := false } : State).brd.udsOpen = false) := by
  exact ⟨rfl, rfl, rfl, rfl⟩

/-- The hypotheses of NoCommandChangesTheQueue are met (clause 1). -/
theorem test_met_NoCommandChangesTheQueue_c1 :
    (exec (.refclkGood : Instr) (State.reset : State) = .next ({ State.reset with boot.refOk := true, boot.aonTick := false, boot.halted := false } : State)) := by
  rfl

/-- The hypotheses of NoCommandChangesTheQueue are met (clause 2). -/
theorem test_met_NoCommandChangesTheQueue_c2 :
    (step (State.reset : State) = .next (drainOne (refStep State.reset) : State)) := by
  rfl

/-- The hypotheses of ParityStripsHoldTheWeightedSums are met (clause 1). -/
theorem test_met_ParityStripsHoldTheWeightedSums_c1 :
    ((∀ t ∈ ([zeros 65536] : List (List Byte)), t.length = 65536)) ∧
    ((0 : Nat) < 65536) := by
  exact ⟨fun t h => by rw [List.mem_singleton.mp h]; exact List.length_replicate, by decide⟩

set_option maxRecDepth 100000 in
/-- The hypotheses of ParityStripsHoldTheWeightedSums are met. -/
theorem test_met_ParityStripsHoldTheWeightedSums :
    (segOf (LST : State) (0 : Nat) = some ({ num := 0 } : Segment)) ∧ (segGen (LST : State) (0 : Nat) = some (LSG : Gen)) ∧
    ((posOf ({ num := 0 } : Segment) (0 : Nat)).state = 0 ∨ (posOf ({ num := 0 } : Segment) (0 : Nat)).state = 3) ∧
    ((posOf ({ num := 0, positions := [{ idx := 0, state := 2, data := some [1] }] } : Segment) (0 : Nat)).state = 2) ∧ ((posOf ({ num := 0, positions := [{ idx := 0, state := 2, data := some [1] }] } : Segment) (0 : Nat)).data = some ([1] : List Byte)) := by
  decide

/-- The hypotheses of AnyDStripsDetermineTheStripe are met (clause 1). -/
theorem test_met_AnyDStripsDetermineTheStripe_c1 :
    (6 ≤ (6 : Nat)) ∧
    ((6 : Nat) ≤ 28) ∧
    ((2 : Nat) = 2 ∨ (2 : Nat) = 3) ∧
    (([1, 2, 3, 4, 5, 6] : List Byte).length = (6 : Nat)) ∧
    (([1, 2, 3, 4, 5, 6] : List Byte).length = (6 : Nat)) ∧
    (([0, 1, 2, 3, 6, 7] : List Nat).Nodup) ∧
    (([0, 1, 2, 3, 6, 7] : List Nat).length = (6 : Nat)) ∧
    ((∀ i ∈ ([0, 1, 2, 3, 6, 7] : List Nat), i < (6 : Nat) + (2 : Nat))) ∧
    ((∀ i ∈ ([0, 1, 2, 3, 6, 7] : List Nat), (if i < (6 : Nat) then ([1, 2, 3, 4, 5, 6] : List Byte).getD i 0 else parityByte (i - (6 : Nat)) ([1, 2, 3, 4, 5, 6] : List Byte)) = (if i < (6 : Nat) then ([1, 2, 3, 4, 5, 6] : List Byte).getD i 0 else parityByte (i - (6 : Nat)) ([1, 2, 3, 4, 5, 6] : List Byte)))) := by
  refine ⟨by decide, by decide, Or.inl rfl, rfl, rfl, by decide, rfl, by decide, fun i _ => rfl⟩


end Sys2Proof.Tests
end

section
/-! PROOFS. The rings of the Rim: what each of its operations does to every ring's queue (R27 to R30), and the order of
a ring's entries (R29). -/

namespace Sys2Proof.Machine

/-- Changing one element of a list is the library's `List.modify`. -/
theorem updAt_eq_modify {α : Type} (n : Nat) (f : α → α) (l : List α) : updAt n f l = l.modify n f := by
  induction l generalizing n with
  | nil => rw [updAt, List.modify_nil]
  | cons x xs ih =>
    cases n with
    | zero => rw [updAt, List.modify_zero_cons]
    | succ k => rw [updAt, List.modify_succ_cons, ih]

/-! ### One ring changed -/

/-- The ring that is changed. -/
theorem rimOf_updAt_same {s : State} {n : Nat} (f : Rim → Rim) (h : n < s.ham.rim.length) :
    rimOf { s with ham.rim := updAt n f s.ham.rim } n = f (rimOf s n) := by
  simp [rimOf, updAt_eq_modify, h]

/-- Every other ring stays. -/
theorem rimOf_updAt_other (s : State) {n m : Nat} (f : Rim → Rim) (h : m ≠ n) :
    rimOf { s with ham.rim := updAt n f s.ham.rim } m = rimOf s m := by
  simp only [rimOf, updAt_eq_modify, List.getElem?_modify_ne f s.ham.rim h.symm]

/-- A ring beyond the Rim's holds nothing, so one with an entry is a ring of the Rim. -/
theorem rim_lt_length_of_entries {s : State} {n : Nat} {e : List Byte} {l : List (List Byte)} (h : (rimOf s n).entries = e :: l) :
    n < s.ham.rim.length := by
  refine Nat.lt_of_not_le fun hn => ?_
  rw [rimOf, List.getElem?_eq_none hn, Option.getD_none] at h
  exact List.cons_ne_nil e l h.symm

/-! ### Queues under the Rim's operations -/

/-- Queues depend on the rings alone. -/
theorem rimQueue_congr {s t : State} (h : t.ham.rim = s.ham.rim) (n : Nat) : rimQueue t n = rimQueue s n := by
  simp only [rimQueue, rimOf, h]

@[simp] theorem rimQueue_emit (o : Out) (s : State) (n : Nat) : rimQueue (emit o s) n = rimQueue s n := rfl

/-- Draining the write-through buffer first, where a core must, leaves the rings alone. -/
theorem rim_drainAll_if (c : Prop) [Decidable c] (s : State) : (if c then drainAll s else s).ham.rim = s.ham.rim := by
  split <;> rfl

/-- A post puts its entry, as 64 bytes, behind what the ring holds, also where the ring is full (R30). -/
theorem rimQueue_rimPost_same {s : State} {n : Nat} (who : Nat) (b : List Byte) (h : n < s.ham.rim.length) :
    rimQueue (rimPost n who b s) n = rimQueue s n ++ [padTo 64 b] := by
  simp only [rimQueue, rimPost, rimOf_updAt_same _ h]
  split
  · next hroom => simp [hroom.2]
  · simp

theorem rimQueue_rimPost_other (s : State) {n m : Nat} (who : Nat) (b : List Byte) (h : m ≠ n) :
    rimQueue (rimPost n who b s) m = rimQueue s m := by
  simp only [rimQueue, rimPost, rimOf_updAt_other s _ h]

/-- The oldest entry leaves; a held one that follows keeps its place in the order. -/
theorem rimQueue_rimShift_same {s : State} {n : Nat} {e : List Byte} {l : List (List Byte)} (h : (rimOf s n).entries = e :: l) :
    e :: rimQueue (rimShift n s) n = rimQueue s n := by
  simp only [rimQueue, rimShift, rimOf_updAt_same _ (rim_lt_length_of_entries h), h, List.drop_one, List.tail_cons, List.append_assoc,
    ← List.map_append, List.cons_append]
  rw [← List.drop_one, List.take_append_drop]

theorem rimQueue_rimShift_other (s : State) {n m : Nat} (h : m ≠ n) : rimQueue (rimShift n s) m = rimQueue s m := by
  simp only [rimQueue, rimShift, rimOf_updAt_other s _ h]

/-! ### RIM_POST and RIM_TAKE -/

/-- A plane that runs carries out its step: the management plane while fast activity goes on, another also only outside
fail-silence and Doze. -/
theorem planeStep_running {plane : Nat} {s : State} (r : Result)
    (h : s.boot.fastStopped = false ∧ (plane = 3 ∨ (s.saf.failSilent = false ∧ s.pwr.doze = false))) : planeStep plane s r = r := by
  obtain ⟨hfast, rfl | ⟨hsilent, hdoze⟩⟩ := h
  · simp [planeStep, fast, hfast]
  · simp [planeStep, fast, engine, hfast, hsilent, hdoze]

/-- A step that changes nothing does so whether its plane runs or not. -/
theorem planeStep_unchanged (plane : Nat) (s : State) : planeStep plane s (.next s) = .next s := by
  simp only [planeStep, fast, engine, ite_self]

/-- RIM_POST by the ring's own producer, where a core finds a free place: a control core's earlier writes are accepted first
(R27, R28, R30). -/
theorem exec_rimPost_taken {s : State} {n : Nat} {c : Bool} (b : List Byte)
    (hrun : s.boot.fastStopped = false ∧ ((rimPlanes n).1 = 3 ∨ (s.saf.failSilent = false ∧ s.pwr.doze = false)))
    (hn : n < 64) (hc : c = rimByCore n) (hroom : c = false ∨ (rimOf s n).entries.length < rimCap) :
    exec (.rimPost n c b) s = .next (rimPost n 17 b (if c = true ∧ (rimPlanes n).1 = 2 then drainAll s else s)) := by
  have hproducer : ¬(64 ≤ n ∨ c ≠ rimByCore n) := by
    rintro (h | h)
    · omega
    · exact h hc
  have hplace : (c && decide (rimCap ≤ (rimOf s n).entries.length)) = false := by
    rcases hroom with rfl | h
    · rfl
    · simp only [decide_eq_false (Nat.not_le.2 h), Bool.and_false]
  show execRimPost n c b s = _
  rw [execRimPost, planeStep_running _ hrun, if_neg hproducer, hplace, if_neg Bool.false_ne_true]
  simp only [Bool.and_eq_true, beq_iff_eq]

/-- RIM_TAKE of a ring that holds an entry. -/
theorem exec_rimTake_oldest {s : State} {n : Nat} {e : List Byte} {l : List (List Byte)}
    (hrun : s.boot.fastStopped = false ∧ ((rimPlanes n).2 = 3 ∨ (s.saf.failSilent = false ∧ s.pwr.doze = false)))
    (h : (rimOf s n).entries = e :: l) :
    exec (.rimTake n) s = .next (emit (.rimNotice n (rimPlanes n).2 e) (rimShift n s)) := by
  show execRimTake n s = _
  rw [execRimTake, planeStep_running _ hrun, h]

/-- RIM_TAKE of an empty ring, in every power state. -/
theorem exec_rimTake_empty {s : State} {n : Nat} (h : (rimOf s n).entries = []) : exec (.rimTake n) s = .next s := by
  show execRimTake n s = _
  rw [execRimTake, h, planeStep_unchanged]

/-- Settles O53: each operation's effect on the queue of its own ring and of the others. -/
theorem rimRingsKeepTheirOrder : Obligations.RimRingsKeepTheirOrder := by
  unfold Obligations.RimRingsKeepTheirOrder
  refine ⟨?post, ?take, fun s n h => exec_rimTake_empty h⟩
  case post =>
    intro s n c b hrun hn hlen hc hroom
    have hrim := rim_drainAll_if (c = true ∧ (rimPlanes n).1 = 2) s
    refine ⟨_, exec_rimPost_taken b hrun hn hc hroom, ?_, fun m hm => ?_, rfl⟩
    · rw [rimQueue_rimPost_same 17 b (hrim ▸ hlen), rimQueue_congr hrim]
    · rw [rimQueue_rimPost_other _ 17 b hm, rimQueue_congr hrim]
  case take =>
    intro s n e l hrun he
    refine ⟨_, exec_rimTake_oldest hrun he, rfl, ?_, fun m hm => ?_, rfl⟩
    · rw [rimQueue_emit, rimQueue_rimShift_same he]
    · rw [rimQueue_emit, rimQueue_rimShift_other s hm]

end Sys2Proof.Machine
end

section
/-! PROOFS. The window table at reset (R20): the default partition covers the Hamper once, what an entry allows a plane, and
the access register with the owner's code. -/

namespace Sys2Proof.Machine

/-! ### A table whose enabled entries lie end to end -/

/-- The enabled entries of a table, in their order, lie end to end from unit `lo` to unit `hi`. -/
def winsTile (hi : Nat) : Nat → List Win → Bool
  | lo, [] => lo == hi
  | lo, w :: ws => if w.enable then w.base == lo && winsTile hi (lo + w.size) ws else winsTile hi lo ws

/-- Coverage in words (R18, R22). -/
theorem winCovers_iff (w : Win) (a : Nat) :
    winCovers w a = true ↔ w.enable = true ∧ winUnit * w.base ≤ a ∧ a < winUnit * (w.base + w.size) := by
  simp only [winCovers, Bool.and_eq_true, decide_eq_true_eq, and_assoc]

/-- The tail of an end-to-end table that starts with an enabled entry. -/
theorem winsTile_cons_enabled {hi lo : Nat} {w : Win} {ws : List Win} (hw : w.enable = true) :
    winsTile hi lo (w :: ws) = true ↔ w.base = lo ∧ winsTile hi (lo + w.size) ws = true := by
  simp [winsTile, hw]

theorem winsTile_cons_disabled {hi lo : Nat} {w : Win} {ws : List Win} (hw : w.enable = false) :
    winsTile hi lo (w :: ws) = winsTile hi lo ws := by
  simp [winsTile, hw]

/-- No entry of an end-to-end table covers an address below its start. -/
theorem winsTile_covers_above {hi lo a : Nat} {ws : List Win} (ht : winsTile hi lo ws = true) (w : Win) (hw : w ∈ ws)
    (hc : winCovers w a = true) : winUnit * lo ≤ a := by
  induction ws generalizing lo with
  | nil => cases hw
  | cons v vs ih =>
    cases hv : v.enable with
    | true =>
      obtain ⟨hbase, hvs⟩ := (winsTile_cons_enabled hv).1 ht
      rcases List.mem_cons.1 hw with rfl | hmem
      · exact hbase ▸ ((winCovers_iff w a).1 hc).2.1
      · exact Nat.le_trans (Nat.mul_le_mul_left winUnit (Nat.le_add_right lo v.size)) (ih hvs hmem)
    | false =>
      rcases List.mem_cons.1 hw with rfl | hmem
      · simp [winCovers, hv] at hc
      · exact ih (winsTile_cons_disabled hv ▸ ht) hmem

/-- Of a table's entries, number `n` covers an address and no other does. -/
def coversOnce (ws : List Win) (a n : Nat) : Prop := ∀ k w, ws[k]? = some w → (winCovers w a = true ↔ k = n)

/-- The head covers an address that no entry of the tail covers. -/
theorem coversOnce_zero {v : Win} {vs : List Win} {a : Nat} (hv : winCovers v a = true) (hvs : ∀ w ∈ vs, ¬winCovers w a = true) :
    coversOnce (v :: vs) a 0 := by
  intro k w hk
  cases k with
  | zero =>
    obtain rfl : v = w := by simpa using hk
    exact iff_of_true hv rfl
  | succ k => exact iff_of_false (hvs w (List.mem_of_getElem? (by simpa using hk))) (Nat.succ_ne_zero k)

/-- An entry of the tail covers an address that the head does not. -/
theorem coversOnce_succ {v : Win} {vs : List Win} {a n : Nat} (hv : ¬winCovers v a = true) (hvs : coversOnce vs a n) :
    coversOnce (v :: vs) a (n + 1) := by
  intro k w hk
  cases k with
  | zero =>
    obtain rfl : v = w := by simpa using hk
    exact iff_of_false hv (Nat.succ_ne_zero n).symm
  | succ k => exact (hvs k w (by simpa using hk)).trans Nat.succ_inj.symm

/-- Every address between the ends of an end-to-end table is covered by one entry and no other. -/
theorem winsTile_coversOnce {hi lo a : Nat} {ws : List Win} (ht : winsTile hi lo ws = true) (hlo : winUnit * lo ≤ a)
    (hhi : a < winUnit * hi) : ∃ n, n < ws.length ∧ coversOnce ws a n := by
  induction ws generalizing lo with
  | nil =>
    obtain rfl : lo = hi := by simpa [winsTile] using ht
    exact absurd hhi (Nat.not_lt.2 hlo)
  | cons v vs ih =>
    cases hv : v.enable with
    | true =>
      obtain ⟨rfl, hvs⟩ := (winsTile_cons_enabled hv).1 ht
      by_cases hend : a < winUnit * (v.base + v.size)
      · exact ⟨0, Nat.succ_pos _, coversOnce_zero ((winCovers_iff v a).2 ⟨hv, hlo, hend⟩)
          fun w hw hc => Nat.not_lt.2 (winsTile_covers_above hvs w hw hc) hend⟩
      · obtain ⟨n, hn, honce⟩ := ih hvs (Nat.le_of_not_lt hend)
        exact ⟨n + 1, Nat.succ_lt_succ hn, coversOnce_succ (fun hc => hend ((winCovers_iff v a).1 hc).2.2) honce⟩
    | false =>
      obtain ⟨n, hn, honce⟩ := ih (winsTile_cons_disabled hv ▸ ht) hlo
      exact ⟨n + 1, Nat.succ_lt_succ hn, coversOnce_succ (by simp [winCovers, hv]) honce⟩

/-! ### Table 01-3 -/

/-- An entry as a row of Table 01-3: base in bytes, size in MiB, owner, and the codes of the data, control and management
planes. -/
def winRow (w : Win) : Nat × Nat × Nat × Nat × Nat × Nat :=
  (winUnit * w.base, winUnit * w.size / 1048576, w.owner, w.d, w.c, w.m)

/-- The base and size of a region are those of its entry. -/
theorem winRow_of_region (s : State) (n : Nat) :
    (s.ham.win[n]?).map (fun w => (winBase s n, winSize s n / 1048576, w.owner, w.d, w.c, w.m)) = (s.ham.win[n]?).map winRow := by
  unfold winBase winSize
  cases s.ham.win[n]? with
  | none => rfl
  | some w => rfl

/-- The default partition lies end to end over the whole Hamper. -/
theorem defaultWindows_tile : winsTile hamUnits 0 defaultWindows = true := by decide

/-- Just the entries 0 to 16 of the default partition are enabled. -/
theorem defaultWindows_enabled_iff : ∀ n < 32, (defaultWindows[n]?).map (·.enable) = some true ↔ n < 17 := by decide

/-- Entries 17 to 31 of the default partition are zero. -/
theorem defaultWindows_rest {n : Nat} (h1 : 17 ≤ n) (h2 : n < 32) : defaultWindows[n]? = some { base := 0 } := by
  rw [defaultWindows, List.getElem?_append_right h1, List.getElem?_replicate,
    if_pos (by simp only [List.length_cons, List.length_nil]; omega)]

/-- Every address of the Hamper lies in exactly one of the entries 0 to 16 (R20, R22). -/
theorem defaultWindows_coversOnce {a : Nat} (ha : a < winUnit * hamUnits) : ∃ n, n < 17 ∧ coversOnce defaultWindows a n := by
  obtain ⟨n, hn, honce⟩ := winsTile_coversOnce defaultWindows_tile (Nat.zero_le a) ha
  have hentry : defaultWindows[n]? = some defaultWindows[n] := List.getElem?_eq_getElem hn
  have henable : (defaultWindows[n]).enable = true := ((winCovers_iff _ a).1 ((honce n _ hentry).2 rfl)).1
  exact ⟨n, (defaultWindows_enabled_iff n hn).1 (by rw [hentry, Option.map_some, henable]), honce⟩

/-! ### Access under an entry (R19) -/

/-- What a plane may do at an address is what the entry that covers it says. -/
theorem winAllows_of_winOf {wins : List Win} {a n : Nat} {w : Win} (hn : winOf wins a = some n) (hw : wins[n]? = some w)
    (p : Nat) (write : Bool) :
    winAllows wins p write a = if write then winCode w p / 2 == 1 else winCode w p % 2 == 1 := by
  rw [winOf] at hn
  have hfind : wins.find? (winCovers · a) = some w := by
    rw [List.find?_eq_bind_findIdx?_getElem?, hn, Option.bind_some, hw]
  simp only [winAllows, hfind]

/-- An entry with no owner gives each plane its own code. -/
theorem winCode_unowned {w : Win} (h : w.owner = 0) : winCode w 1 = w.d ∧ winCode w 2 = w.c ∧ winCode w 3 = w.m := by
  simp [winCode, h]

/-- An entry with no owner and zero codes gives no plane any access. -/
theorem winCode_closed {w : Win} {p : Nat} (ho : w.owner = 0) (hd : w.d = 0) (hc : w.c = 0) (hm : w.m = 0)
    (hp : p = 1 ∨ p = 2 ∨ p = 3) : winCode w p = 0 := by
  obtain ⟨h1, h2, h3⟩ := winCode_unowned ho
  rcases hp with rfl | rfl | rfl
  · rw [h1, hd]
  · rw [h2, hc]
  · rw [h3, hm]

/-- The owner's own code does not count for any plane's access. -/
theorem winCode_ignores_owner_code (w : Win) {p : Nat} (x : Nat) (hp : p = 1 ∨ p = 2 ∨ p = 3) :
    winCode { w with owner := 1, d := x } p = winCode { w with owner := 1 } p ∧
    winCode { w with owner := 2, c := x } p = winCode { w with owner := 2 } p ∧
    winCode { w with owner := 3, m := x } p = winCode { w with owner := 3 } p := by
  rcases hp with rfl | rfl | rfl <;> exact ⟨rfl, rfl, rfl⟩

/-! ### The access register (Table 01-2) -/

/-- The low byte of the access register holds the three planes' codes. -/
theorem winAcc_mod (w : Win) : winAcc w % 256 = (w.m * 16 + w.c * 4 + w.d) % 256 := by
  have h31 : flagAt w.enable 31 % 256 = 0 := by cases w.enable <;> rfl
  have h30 : flagAt w.fixed 30 % 256 = 0 := by cases w.fixed <;> rfl
  rw [winAcc]
  omega

/-- The codes written to an access register read back, the owner's among them. -/
theorem winReg_winPut_codes (w : Win) (v : Nat) :
    winReg (winPut 8 v w) 8 % 4 = v % 4 ∧ winReg (winPut 8 v w) 8 / 4 % 4 = v / 4 % 4 ∧
    winReg (winPut 8 v w) 8 / 16 % 4 = v / 16 % 4 := by
  have hcodes := winAcc_mod (winPut 8 v w)
  have hreg : winReg (winPut 8 v w) 8 = winAcc (winPut 8 v w) := rfl
  simp only [winPut, field, Nat.reduceEqDiff, if_false] at hcodes hreg ⊢
  omega

/-! ### The seal-locked registers in the digest (R141) -/

/-- The offsets and values of one entry's three registers in the digest's input: base, size, access. -/
def rwlBlock (e : Win × Nat) : List Byte :=
  leBytes 4 (0x000C0400 + e.2 * 16) ++ leBytes 4 e.1.base ++ leBytes 4 (0x000C0400 + e.2 * 16 + 4) ++ leBytes 4 e.1.size ++
    leBytes 4 (0x000C0400 + e.2 * 16 + 8) ++ leBytes 4 (winAcc e.1)

theorem rwlBytes_eq (s : State) : rwlBytes s = (s.ham.win.zipIdx.map rwlBlock).flatten := rfl

theorem leBytes_length (n v : Nat) : (leBytes n v).length = n := by
  induction n generalizing v with
  | zero => rfl
  | succ n ih => rw [leBytes, List.length_cons, ih]

theorem rwlBlock_length (e : Win × Nat) : (rwlBlock e).length = 24 := by
  simp only [rwlBlock, List.length_append, leBytes_length]

/-- The last four bytes of an entry's block are its access register. -/
theorem rwlBlock_access (e : Win × Nat) : (rwlBlock e).drop 20 = leBytes 4 (winAcc e.1) := rfl

/-- Equal blocks in a row: dropping `n` of them. -/
theorem drop_flatten_of_length {α : Type} {c : Nat} {l : List (List α)} (h : ∀ b ∈ l, b.length = c) (n : Nat) :
    l.flatten.drop (c * n) = (l.drop n).flatten := by
  induction n generalizing l with
  | zero => rfl
  | succ n ih =>
    cases l with
    | nil => rw [List.flatten_nil, List.drop_nil, List.drop_nil, List.flatten_nil]
    | cons b bs =>
      have hb : b.length = c := h b List.mem_cons_self
      rw [List.flatten_cons, Nat.mul_succ, Nat.add_comm, ← List.drop_drop, List.drop_succ_cons,
        ← ih fun x hx => h x (List.mem_cons_of_mem b hx), ← hb, List.drop_left]

/-- The digest's input holds an entry's access register at its place, the owner's code included. -/
theorem rwlBytes_access {s : State} {n : Nat} {w : Win} (hw : s.ham.win[n]? = some w) :
    ((rwlBytes s).drop (24 * n + 20)).take 4 = leBytes 4 (winAcc w) := by
  have hblock : (s.ham.win.zipIdx.map rwlBlock)[n]? = some (rwlBlock (w, n)) := by
    simp [List.getElem?_zipIdx, hw]
  have hlen : ∀ b ∈ s.ham.win.zipIdx.map rwlBlock, b.length = 24 := by
    intro b hb
    obtain ⟨e, -, rfl⟩ := List.mem_map.1 hb
    exact rwlBlock_length e
  rw [rwlBytes_eq, ← List.drop_drop, drop_flatten_of_length hlen, List.drop_eq_getElem?_toList_append (i := n), hblock,
    Option.toList_some, List.singleton_append, List.flatten_cons, List.drop_append_of_le_length (by rw [rwlBlock_length]; decide),
    rwlBlock_access, List.take_left' (leBytes_length 4 _)]

/-! ### The statement -/

/-- Settles O52: Table 01-3 by its entries, its coverage by the end-to-end lemma, access and the access register by theirs. -/
theorem resetHoldsTheDefaultPartition : Obligations.ResetHoldsTheDefaultPartition := by
  unfold Obligations.ResetHoldsTheDefaultPartition
  refine ⟨?rows, fun n h1 h2 => defaultWindows_rest h1 h2, fun a ha => defaultWindows_coversOnce ha, ?entry16,
    fun w p x hp => winCode_ignores_owner_code w x hp, fun w h => winCode_unowned h, winReg_winPut_codes,
    fun s n w hw => rwlBytes_access hw⟩
  case rows =>
    intro n hn
    refine ⟨?_, (defaultWindows_enabled_iff n (Nat.lt_trans hn (by decide))).2 hn⟩
    rw [winRow_of_region, ← List.getElem?_map, ← List.getElem?_take_of_lt hn]
    rfl
  case entry16 =>
    intro a p write hn hp
    rw [winAllows_of_winOf hn (w := ⟨0x5CF9, 775, true, false, 0, 0, 0, 0⟩) rfl, winCode_closed rfl rfl rfl rfl hp]
    cases write <;> rfl

end Sys2Proof.Machine
end

section
/-! PROOFS. The outcomes of decided commands and the numbers they carry, for `simp`. -/

namespace Sys2Proof.Machine

@[simp] theorem done_eq (result : Nat) : done result = { result := result } := rfl
@[simp] theorem noChange_eq (result : Nat) : noChange result = { status := stOkNochange, result := result } := rfl
@[simp] theorem answer_eq (bytes : List Byte) (result : Nat) : answer bytes result = { result := result, bytes := bytes } := rfl
@[simp] theorem refuse_eq (status detail : Nat) : refuse status detail = { status := status, detail := detail } := rfl
@[simp] theorem isSuccess_okDone : isSuccess stOkDone = true := rfl
@[simp] theorem nth_cons_zero (x : Nat) (l : List Nat) : nth (x :: l) 0 = x := rfl
@[simp] theorem nth_cons_succ (x : Nat) (l : List Nat) (k : Nat) : nth (x :: l) (k + 1) = nth l k := rfl

end Sys2Proof.Machine
end

section
/-! PROOFS. What every step keeps: the five resets beside the commands that are none, an idle step, and the invariants of
a step that follow from both (R52, R58, R65 to R67, R84, R132). -/

namespace Sys2Proof.Machine

/-! ### What a reset keeps -/

/-- What all commands keep, resets among them: of `Keeps`, everything but the latches. -/
structure Stands (s t : State) : Prop where
  pending : t.pending = s.pending
  mem : Memory.wf s.ham.mem = true → Memory.wf t.ham.mem = true
  chain : s.nv.chain <+: t.nv.chain
  linked : chainLinked s.nv.chain → chainLinked t.nv.chain
  counter : s.nv.bootCounter ≤ t.nv.bootCounter
  epoch : s.nv.epoch ≤ t.nv.epoch
  fuses : FusesOnlyBurn s t

theorem Keeps.stands {s t : State} (h : Keeps s t) : Stands s t :=
  ⟨h.pending, h.mem, h.chain, h.linked, h.counter, h.epoch, ⟨h.serial, h.uds, h.owner, h.floors⟩⟩

/-- Where the queue stands, memory keeps its form, and of what survives a reset at most the stream in Coil changes. -/
theorem Stands.of_survive {s t : State} (hp : t.pending = s.pending) (hm : Memory.wf s.ham.mem = true → Memory.wf t.ham.mem = true)
    (hn : t.nv = s.nv ∨ t.nv = survive s.nv) : Stands s t := by
  obtain ⟨hchain, hcounter, hepoch, hfuses⟩ : t.nv.chain = s.nv.chain ∧ t.nv.bootCounter = s.nv.bootCounter ∧
      t.nv.epoch = s.nv.epoch ∧ t.nv.fuses = s.nv.fuses := by
    rcases hn with h | h
    · rw [h]; exact ⟨rfl, rfl, rfl, rfl⟩
    · rw [h]; exact ⟨rfl, rfl, rfl, rfl⟩
  refine ⟨hp, hm, hchain ▸ List.prefix_rfl, fun h => hchain ▸ h, Nat.le_of_eq hcounter.symm, Nat.le_of_eq hepoch.symm, ?_⟩
  exact ⟨by rw [hfuses], by rw [hfuses], fun _ => by rw [hfuses], fun k => Nat.le_of_eq (by unfold svnFloor; rw [hfuses])⟩

theorem Stands.refl (s : State) : Stands s s := (Keeps.refl s).stands

/-- The Hamper holds nothing right after reset (log 9). -/
theorem reset_mem_wf : Memory.wf State.reset.ham.mem = true := rfl

/-- What a reset does: nothing where its condition does not hold, else the state after reset with what its rule keeps. -/
theorem exec_reset_cases {c : Instr} {s t : State} (hc : isReset c = true) (h : exec c s = .next t) :
    t = s ∨
    (s.pins.pwrok = false ∧ ∃ side boot, t = { afterReset s with aon.side := side, aon.responder := true, boot := boot }) ∨
    (c = .pwrokFall ∧ t = { afterReset s with
      pins.pwrok := false, pins.faultN := false, aon.faultLatch := false, boot := heldBoot s, brd.udsOpen := false }) ∨
    (s.pins.aonInRange = false ∧ ∃ pins hdl, t = { s with pins := pins, hdl := hdl }) ∨
    (c = .aonRailsDown ∧ ∃ pins aon brd, t = { afterReset s with pins := pins, aon := aon, boot := heldBoot s, brd := brd }) ∨
    (s.saf.failSilent = false ∧ s.boot.pwrfailLatched = false ∧ ∃ boot, t = { afterReset s with boot := boot }) := by
  cases c with
  | pwrokRise sideB low =>
    change execPwrokRise sideB low s = .next t at h
    unfold execPwrokRise at h
    split at h
    · cases h; exact .inl rfl
    · next hg => cases h; exact .inr (.inl ⟨by simp_all, _, _, rfl⟩)
  | pwrokFall =>
    change execPwrokFall s = .next t at h
    unfold execPwrokFall at h
    split at h
    · cases h; exact .inl rfl
    · cases h; exact .inr (.inr (.inl ⟨rfl, rfl⟩))
  | aonRailsUp =>
    change execAonRailsUp s = .next t at h
    unfold execAonRailsUp at h
    split at h
    · cases h; exact .inl rfl
    · next hg => cases h; exact .inr (.inr (.inr (.inl ⟨by simpa using hg, _, _, rfl⟩)))
  | aonRailsDown =>
    cases h
    exact .inr (.inr (.inr (.inr (.inl ⟨rfl, _, _, _, rfl⟩))))
  | warmResetRelease =>
    change execWarmResetRelease s = .next t at h
    unfold execWarmResetRelease at h
    split at h
    · next hg =>
      simp only [Bool.and_eq_true, Bool.not_eq_true'] at hg
      obtain ⟨⟨-, hsilent⟩, hlatch⟩ := hg
      cases h; exact .inr (.inr (.inr (.inr (.inr ⟨hsilent, hlatch, _, rfl⟩))))
    · cases h; exact .inl rfl
  | _ => cases hc

theorem exec_reset_stands {c : Instr} {s t : State} (hc : isReset c = true) (h : exec c s = .next t) : Stands s t := by
  obtain rfl | ⟨-, _, _, rfl⟩ | ⟨-, rfl⟩ | ⟨-, _, _, rfl⟩ | ⟨-, _, _, _, rfl⟩ | ⟨-, -, _, rfl⟩ := exec_reset_cases hc h
  · exact Stands.refl t
  · exact .of_survive rfl (fun _ => reset_mem_wf) (.inr rfl)
  · exact .of_survive rfl (fun _ => reset_mem_wf) (.inr rfl)
  · exact .of_survive rfl id (.inl rfl)
  · exact .of_survive rfl (fun _ => reset_mem_wf) (.inr rfl)
  · exact .of_survive rfl (fun _ => reset_mem_wf) (.inr rfl)

/-! ### Commands and steps -/

/-- A command that is no reset. -/
theorem exec_keeps {c : Instr} {s t : State} (hc : isReset c = false) (h : exec c s = .next t) : Keeps s t :=
  (exec_keepsR c s hc).keeps t h

theorem exec_stands {c : Instr} {s t : State} (h : exec c s = .next t) : Stands s t := by
  cases hc : isReset c with
  | false => exact (exec_keeps hc h).stands
  | true => exact exec_reset_stands hc h

/-- A step is an idle one or runs the command in front on the state with the queue's rest. -/
theorem step_cases {s t : State} (h : step s = .next t) :
    (s.pending = [] ∧ t = drainOne (refStep s)) ∨
      ∃ c rest, s.pending = c :: rest ∧ exec c { s with pending := rest } = .next t := by
  unfold step at h
  split at h
  · next hp => cases h; exact .inl ⟨hp, rfl⟩
  · next c rest hp => exact .inr ⟨c, rest, hp, h⟩

/-- Whatever a step does, the queue loses its front command and what all commands keep stands. -/
theorem step_stands {s t : State} (h : step s = .next t) : Stands { s with pending := s.pending.tail } t := by
  obtain ⟨hp, rfl⟩ | ⟨c, rest, hp, hx⟩ := step_cases h
  · have hs := (idle_keeps s).stands
    exact ⟨by rw [hs.pending, hp]; rfl, hs.mem, hs.chain, hs.linked, hs.counter, hs.epoch, ⟨hs.fuses.serial, hs.fuses.uds, hs.fuses.owner, hs.fuses.floors⟩⟩
  · rw [hp]
    exact exec_stands hx

/-- Settles O55. -/
theorem everyStepKeepsTheInvariant : Obligations.EveryStepKeepsTheInvariant := by
  unfold Obligations.EveryStepKeepsTheInvariant
  intro s t hs h
  have hk := step_stands h
  exact ⟨hk.mem hs.mem, hk.linked hs.chain⟩

/-- Settles O56. -/
theorem whatIsRecordedAndBurnedStays : Obligations.WhatIsRecordedAndBurnedStays := by
  unfold Obligations.WhatIsRecordedAndBurnedStays
  intro s t h
  have hk := step_stands h
  exact ⟨hk.chain, hk.counter, hk.epoch, hk.fuses.serial, hk.fuses.uds, hk.fuses.owner, hk.fuses.floors⟩

/-- Settles O58. -/
theorem noCommandChangesTheQueue : Obligations.NoCommandChangesTheQueue := by
  unfold Obligations.NoCommandChangesTheQueue
  exact ⟨fun c s t h => (exec_stands h).pending, fun s t h => (step_stands h).pending⟩

/-! ### Latches -/

/-- With PWROK high and the always-on rails in range, a reset that is no fall of either keeps fail-silence, FAULT_N and the
PWRFAIL_N latch: a rise does not occur, and a warm reset waits for PWROK (R58, R67). -/
theorem exec_reset_latches {c : Instr} {s t : State} (hc : isReset c = true) (hfall : c ≠ .pwrokFall) (hdown : c ≠ .aonRailsDown)
    (h : exec c s = .next t) (hok : s.pins.pwrok = true) (haon : s.pins.aonInRange = true) :
    (s.saf.failSilent = true → t.saf.failSilent = true) ∧ (s.pins.faultN = true → t.pins.faultN = true) ∧
      (s.boot.pwrfailLatched = true → t.boot.pwrfailLatched = true) := by
  obtain rfl | ⟨hlow, -⟩ | ⟨hx, -⟩ | ⟨hout, -⟩ | ⟨hx, -⟩ | ⟨hsilent, hlatch, _, rfl⟩ := exec_reset_cases hc h
  · exact ⟨id, id, id⟩
  · simp [hok] at hlow
  · exact absurd hx hfall
  · simp [haon] at hout
  · exact absurd hx hdown
  · exact ⟨fun hs => absurd hs (by simp [hsilent]), id, fun hl => absurd hl (by simp [hlatch])⟩

/-- The trip latch and the recorded cause outlast every command but the fall of the always-on rails (R511, R522). -/
theorem exec_trip_cause {c : Instr} {s t : State} (hdown : c ≠ .aonRailsDown) (h : exec c s = .next t) :
    (s.aon.trip = true → t.aon.trip = true) ∧ (s.aon.cause.valid = true → t.aon.cause.valid = true) := by
  cases hc : isReset c with
  | false => exact ⟨(exec_keeps hc h).trip, (exec_keeps hc h).cause⟩
  | true =>
    obtain rfl | ⟨-, _, _, rfl⟩ | ⟨-, rfl⟩ | ⟨-, _, _, rfl⟩ | ⟨hx, -⟩ | ⟨-, -, _, rfl⟩ := exec_reset_cases hc h
    · exact ⟨id, id⟩
    · exact ⟨id, id⟩
    · exact ⟨id, id⟩
    · exact ⟨id, id⟩
    · exact absurd hx hdown
    · exact ⟨id, id⟩

/-- The front command of a step is not `c` where the queue does not begin with it. -/
theorem front_ne {s : State} {c x : Instr} {rest : List Instr} (hp : s.pending = c :: rest) (h : s.pending.head? ≠ some x) : c ≠ x := by
  rintro rfl
  exact h (by rw [hp]; rfl)

/-- Settles O57: an idle step and a command that is no reset keep every latch, the resets those that they must. -/
theorem latchesClearOnlyAsStated : Obligations.LatchesClearOnlyAsStated := by
  unfold Obligations.LatchesClearOnlyAsStated
  refine ⟨?latches, ?trip, ?uds⟩
  case latches =>
    intro s t h hok haon hfall hdown
    obtain ⟨-, rfl⟩ | ⟨c, rest, hp, hx⟩ := step_cases h
    · exact ⟨(idle_keeps s).silent, (idle_keeps s).fault, (idle_keeps s).latch⟩
    · cases hc : isReset c with
      | false => exact ⟨(exec_keeps hc hx).silent, (exec_keeps hc hx).fault, (exec_keeps hc hx).latch⟩
      | true => exact exec_reset_latches (s := { s with pending := rest }) hc (front_ne hp hfall) (front_ne hp hdown) hx hok haon
  case trip =>
    intro s t h hdown
    obtain ⟨-, rfl⟩ | ⟨c, rest, hp, hx⟩ := step_cases h
    · exact ⟨(idle_keeps s).trip, (idle_keeps s).cause⟩
    · exact exec_trip_cause (s := { s with pending := rest }) (front_ne hp hdown) hx
  case uds =>
    intro s t c hc hr h
    obtain ⟨hp, -⟩ | ⟨c', rest, hp, hx⟩ := step_cases h
    · rw [hp] at hc; cases hc
    · rw [hp] at hc; cases hc
      exact (exec_keeps hr hx).udsShut

/-- Settles O51: a step by its definition. -/
theorem aStepRunsTheFrontCommand : Obligations.AStepRunsTheFrontCommand := by
  unfold Obligations.AStepRunsTheFrontCommand
  refine ⟨fun c rest s => rfl, fun s hp => ?_⟩
  unfold step
  split
  · rfl
  · next hc => rw [hp] at hc; cases hc

/-- Settles O54: the reset state's fields, and its empty memory and chain. -/
theorem resetValues : Obligations.ResetValues := by
  unfold Obligations.ResetValues
  refine ⟨⟨rfl, rfl, rfl, rfl⟩, ⟨rfl, rfl, rfl, rfl⟩, ⟨rfl, rfl, rfl, rfl⟩, ⟨rfl, rfl, rfl, rfl⟩, ⟨rfl, rfl, rfl, rfl⟩, ?loops, ?inv⟩
  case loops =>
    decide
  case inv =>
    exact ⟨reset_mem_wf, fun i e he => by cases he⟩

end Sys2Proof.Machine
end

section
/-! PROOFS. Parity over GF(2^8) (R336): multiplication by α on bytes, its period, parity as a sum over the data positions, and
the recovery of the missing positions; then the bytes of strips, extents and records. -/

namespace Sys2Proof.Machine

/-! ### Multiplication by α on bytes -/

/-- A byte times α. -/
def byteDouble (x : Byte) : Byte := BitVec.ofNat 8 (gfDouble x.toNat)

theorem toNat_byteDouble (x : Byte) : (byteDouble x).toNat = gfDouble x.toNat := by
  revert x; decide

theorem byteDouble_eq_shift (x : Byte) : byteDouble x = (x <<< 1) ^^^ (if x.msb then 0x1D#8 else 0#8) := by
  revert x; decide

theorem byteDouble_xor (x y : Byte) : byteDouble (x ^^^ y) = byteDouble x ^^^ byteDouble y := by
  simp only [byteDouble_eq_shift, BitVec.msb_xor, BitVec.shiftLeft_xor_distrib]
  have hpoly : (if (x.msb ^^ y.msb) = true then 0x1D#8 else 0#8) =
      (if x.msb then 0x1D#8 else 0#8) ^^^ (if y.msb then 0x1D#8 else 0#8) := by
    cases x.msb <;> cases y.msb <;> rfl
  rw [hpoly]
  ac_rfl

@[simp] theorem byteDouble_zero : byteDouble 0 = 0 := rfl

/-- α to a power, times a byte. -/
def byteTimes : Nat → Byte → Byte
  | 0, x => x
  | k + 1, x => byteDouble (byteTimes k x)

theorem byteTimes_succ (k : Nat) (x : Byte) : byteTimes (k + 1) x = byteDouble (byteTimes k x) := rfl

theorem byteTimes_add (k n : Nat) (x : Byte) : byteTimes (k + n) x = byteTimes k (byteTimes n x) := by
  induction k with
  | zero => rw [Nat.zero_add, byteTimes]
  | succ k ih => rw [Nat.add_right_comm, byteTimes_succ, ih, byteTimes_succ]

@[simp] theorem byteTimes_zero (k : Nat) : byteTimes k 0 = 0 := by
  induction k with
  | zero => rfl
  | succ k ih => rw [byteTimes_succ, ih, byteDouble_zero]

theorem byteTimes_xor (k : Nat) (x y : Byte) : byteTimes k (x ^^^ y) = byteTimes k x ^^^ byteTimes k y := by
  induction k with
  | zero => rfl
  | succ k ih => simp only [byteTimes_succ, ih, byteDouble_xor]

/-- The model's power of α is that power times 1. -/
theorem gfPow_eq (k : Nat) : gfPow k = (byteTimes k 1).toNat := by
  induction k with
  | zero => rfl
  | succ k ih => rw [gfPow, ih, byteTimes_succ, toNat_byteDouble]

theorem ofNat_natXor (m n : Nat) : BitVec.ofNat 8 (Nat.xor m n) = BitVec.ofNat 8 m ^^^ BitVec.ofNat 8 n := by
  refine BitVec.eq_of_toNat_eq ?_
  rw [BitVec.toNat_xor, BitVec.toNat_ofNat, BitVec.toNat_ofNat, BitVec.toNat_ofNat, ← Nat.xor_mod_two_pow]
  rfl

/-- A product over the bits of the second factor doubles with the first. -/
theorem gfMulBits_byteDouble (a : Byte) (b n : Nat) :
    BitVec.ofNat 8 (gfMulBits (byteDouble a).toNat b n) = byteDouble (BitVec.ofNat 8 (gfMulBits a.toNat b n)) := by
  induction n generalizing a with
  | zero => rfl
  | succ n ih =>
    simp only [gfMulBits, ofNat_natXor, byteDouble_xor, ← toNat_byteDouble, ih]
    split
    · simp only [BitVec.ofNat_toNat, BitVec.setWidth_eq]
    · rfl

theorem gfMul_one (x : Byte) : BitVec.ofNat 8 (gfMul 1 x.toNat) = x := by
  revert x; decide

/-- The model's product of a power of α and a byte. -/
theorem gfMul_gfPow (k : Nat) (x : Byte) : BitVec.ofNat 8 (gfMul (gfPow k) x.toNat) = byteTimes k x := by
  rw [gfPow_eq]
  induction k with
  | zero => exact gfMul_one x
  | succ k ih => rw [byteTimes_succ, gfMul, gfMulBits_byteDouble, ← gfMul, ih, byteTimes_succ]

/-! ### The period of α -/

theorem byteTimes_255 (x : Byte) : byteTimes 255 x = x := by
  rw [← gfMul_gfPow, show gfPow 255 = 1 by decide +kernel, gfMul_one]

/-- No byte but zero comes back after 85, 51 or 15 doublings, the largest proper divisors of 255. -/
theorem byteTimes_fixed_of_maximal {x : Byte} {k : Nat} (hk : k = 85 ∨ k = 51 ∨ k = 15) (h : byteTimes k x = x) : x = 0 := by
  rw [← gfMul_gfPow] at h
  obtain rfl | rfl | rfl := hk
  · rw [show gfPow 85 = 214 by decide +kernel] at h; revert x; decide
  · rw [show gfPow 51 = 10 by decide +kernel] at h; revert x; decide
  · rw [show gfPow 15 = 38 by decide] at h; revert x; decide

theorem byteTimes_mul_fixed {m : Nat} {x : Byte} (h : byteTimes m x = x) (q : Nat) : byteTimes (m * q) x = x := by
  induction q with
  | zero => rfl
  | succ q ih => rw [Nat.mul_succ, byteTimes_add, h, ih]

/-- A byte that comes back after `m` and after `n` doublings comes back after gcd(m, n) of them. -/
theorem byteTimes_gcd_fixed {m n : Nat} {x : Byte} (hm : byteTimes m x = x) (hn : byteTimes n x = x) : byteTimes (Nat.gcd m n) x = x := by
  induction m, n using Nat.gcd.induction with
  | H0 n => rwa [Nat.gcd_zero_left]
  | H1 m n _ ih =>
    rw [Nat.gcd_rec]
    refine ih ?_ hm
    rwa [← Nat.mod_add_div n m, byteTimes_add, byteTimes_mul_fixed hm] at hn

/-- A proper divisor of 255 divides one of the largest. -/
theorem dvd_maximal_of_dvd_255 : ∀ g < 255, g ∣ 255 → g ∣ 85 ∨ g ∣ 51 ∨ g ∣ 15 := by decide +kernel

/-- A byte that comes back after fewer than 255 doublings is zero: α has order 255. -/
theorem eq_zero_of_byteTimes_fixed {x : Byte} {k : Nat} (hk : 0 < k) (hk' : k < 255) (h : byteTimes k x = x) : x = 0 := by
  have hgcd : byteTimes (Nat.gcd k 255) x = x := byteTimes_gcd_fixed h (byteTimes_255 x)
  have hlt : Nat.gcd k 255 < 255 := Nat.lt_of_le_of_lt (Nat.gcd_le_left _ hk) hk'
  obtain ⟨q, hq⟩ | ⟨q, hq⟩ | ⟨q, hq⟩ := dvd_maximal_of_dvd_255 _ hlt (Nat.gcd_dvd_right _ _)
  · exact byteTimes_fixed_of_maximal (.inl rfl) (hq ▸ byteTimes_mul_fixed hgcd q)
  · exact byteTimes_fixed_of_maximal (.inr (.inl rfl)) (hq ▸ byteTimes_mul_fixed hgcd q)
  · exact byteTimes_fixed_of_maximal (.inr (.inr rfl)) (hq ▸ byteTimes_mul_fixed hgcd q)

theorem eq_zero_of_byteTimes_eq_zero {k : Nat} {x : Byte} (h : byteTimes k x = 0) : x = 0 := by
  induction k with
  | zero => exact h
  | succ k ih =>
    rw [byteTimes_succ] at h
    refine ih ?_
    generalize byteTimes k x = y at h
    revert y; decide

/-- Different powers of α, fewer than 255 apart, take only zero to the same byte. -/
theorem eq_zero_of_byteTimes_eq {m n : Nat} {x : Byte} (hne : m ≠ n) (hm : m < n + 255) (hn : n < m + 255)
    (h : byteTimes m x = byteTimes n x) : x = 0 := by
  obtain hlt | hlt := Nat.lt_or_gt_of_ne hne
  · obtain ⟨k, rfl⟩ := Nat.exists_eq_add_of_lt hlt
    rw [Nat.add_assoc, Nat.add_comm, byteTimes_add] at h
    exact eq_zero_of_byteTimes_eq_zero (eq_zero_of_byteTimes_fixed (Nat.succ_pos k) (by omega) h.symm)
  · obtain ⟨k, rfl⟩ := Nat.exists_eq_add_of_lt hlt
    rw [Nat.add_assoc, Nat.add_comm, byteTimes_add] at h
    exact eq_zero_of_byteTimes_eq_zero (eq_zero_of_byteTimes_fixed (Nat.succ_pos k) (by omega) h)

/-! ### One, two or three missing positions -/

theorem eq_of_xor_eq_zero {x y : Byte} (h : x ^^^ y = 0) : x = y := BitVec.xor_eq_zero_iff.1 h

/-- Two missing positions from two parity rows, the lower one first. -/
theorem two_missing_of_lt {a b j n : Nat} {x y : Byte} (hab : a ≠ b) (ha : a < 28) (hb : b < 28) (hn : n < 2)
    (h1 : byteTimes (j * a) x ^^^ byteTimes (j * b) y = 0) (h2 : byteTimes ((j + n + 1) * a) x ^^^ byteTimes ((j + n + 1) * b) y = 0) :
    x = 0 ∧ y = 0 := by
  have hx : byteTimes (j * a) x = byteTimes (j * b) y := eq_of_xor_eq_zero h1
  have hrow (c : Nat) : (j + n + 1) * c = (n + 1) * c + j * c := by rw [Nat.add_assoc, Nat.add_mul, Nat.add_comm]
  have heq : byteTimes ((n + 1) * a) (byteTimes (j * a) x) = byteTimes ((n + 1) * b) (byteTimes (j * a) x) := by
    rw [hx, ← byteTimes_add ((n + 1) * b), ← hx, ← byteTimes_add, ← hrow, ← hrow]
    exact eq_of_xor_eq_zero h2
  have hz : byteTimes (j * a) x = 0 := by
    refine eq_zero_of_byteTimes_eq (fun h => hab (Nat.eq_of_mul_eq_mul_left (Nat.succ_pos n) h)) ?_ ?_ heq
    · obtain rfl | rfl : n = 0 ∨ n = 1 := by omega
      all_goals omega
    · obtain rfl | rfl : n = 0 ∨ n = 1 := by omega
      all_goals omega
  exact ⟨eq_zero_of_byteTimes_eq_zero hz, eq_zero_of_byteTimes_eq_zero (hx ▸ hz)⟩

/-- Two missing positions from two parity rows. -/
theorem two_missing {a b j k : Nat} {x y : Byte} (hab : a ≠ b) (ha : a < 28) (hb : b < 28) (hjk : j ≠ k) (hj : j < 3) (hk : k < 3)
    (h1 : byteTimes (j * a) x ^^^ byteTimes (j * b) y = 0) (h2 : byteTimes (k * a) x ^^^ byteTimes (k * b) y = 0) :
    x = 0 ∧ y = 0 := by
  obtain hlt | hlt := Nat.lt_or_gt_of_ne hjk
  · obtain ⟨n, rfl⟩ := Nat.exists_eq_add_of_lt hlt
    exact two_missing_of_lt hab ha hb (by omega) h1 h2
  · obtain ⟨n, rfl⟩ := Nat.exists_eq_add_of_lt hlt
    exact two_missing_of_lt hab ha hb (by omega) h2 h1

/-- The sum of two different powers of α, times a byte, is zero only for zero. -/
theorem eq_zero_of_sum_times {a b : Nat} {x : Byte} (hab : a ≠ b) (ha : a < 28) (hb : b < 28)
    (h : byteTimes a x ^^^ byteTimes b x = 0) : x = 0 :=
  eq_zero_of_byteTimes_eq hab (by omega) (by omega) (eq_of_xor_eq_zero h)

/-- Three missing positions from the three parity rows: the first is the sum of the others, and what is left factors by
differences of powers. -/
theorem three_missing {a b c : Nat} {x y z : Byte} (hab : a ≠ b) (hac : a ≠ c) (hbc : b ≠ c) (ha : a < 28) (hb : b < 28) (hc : c < 28)
    (h0 : x ^^^ y ^^^ z = 0) (h1 : byteTimes a x ^^^ byteTimes b y ^^^ byteTimes c z = 0)
    (h2 : byteTimes (2 * a) x ^^^ byteTimes (2 * b) y ^^^ byteTimes (2 * c) z = 0) : x = 0 ∧ y = 0 ∧ z = 0 := by
  obtain rfl : x = y ^^^ z := eq_of_xor_eq_zero (by rwa [BitVec.xor_assoc] at h0)
  simp only [byteTimes_xor, Nat.two_mul, byteTimes_add] at h1 h2
  have hu : byteTimes a y ^^^ byteTimes b y = byteTimes a z ^^^ byteTimes c z := eq_of_xor_eq_zero (by rw [← h1]; ac_rfl)
  have hcomm (m n : Nat) (w : Byte) : byteTimes m (byteTimes n w) = byteTimes n (byteTimes m w) := by
    rw [← byteTimes_add, Nat.add_comm, byteTimes_add]
  have hfactor : byteTimes b (byteTimes a y ^^^ byteTimes b y) ^^^ byteTimes c (byteTimes a y ^^^ byteTimes b y) = 0 := by
    have hy : byteTimes a (byteTimes a y ^^^ byteTimes b y) ^^^ byteTimes b (byteTimes a y ^^^ byteTimes b y) =
        byteTimes a (byteTimes a y) ^^^ byteTimes b (byteTimes b y) := by
      simp only [byteTimes_xor, hcomm b a y]
      rw [BitVec.xor_assoc, ← BitVec.xor_assoc (byteTimes a (byteTimes b y)), BitVec.xor_self, BitVec.zero_xor]
    have hz : byteTimes a (byteTimes a z ^^^ byteTimes c z) ^^^ byteTimes c (byteTimes a z ^^^ byteTimes c z) =
        byteTimes a (byteTimes a z) ^^^ byteTimes c (byteTimes c z) := by
      simp only [byteTimes_xor, hcomm c a z]
      rw [BitVec.xor_assoc, ← BitVec.xor_assoc (byteTimes a (byteTimes c z)), BitVec.xor_self, BitVec.zero_xor]
    rw [← hu] at hz
    generalize byteTimes a y ^^^ byteTimes b y = u at hy hz ⊢
    calc byteTimes b u ^^^ byteTimes c u
        = (byteTimes a u ^^^ byteTimes a u) ^^^ (byteTimes b u ^^^ byteTimes c u) := by rw [BitVec.xor_self, BitVec.zero_xor]
      _ = (byteTimes a u ^^^ byteTimes b u) ^^^ (byteTimes a u ^^^ byteTimes c u) := by ac_rfl
      _ = 0 := by rw [hy, hz, ← h2]; ac_rfl
  have hzero := eq_zero_of_sum_times hbc hb hc hfactor
  have hy0 := eq_zero_of_sum_times hab ha hb hzero
  have hz0 := eq_zero_of_sum_times hac ha hc (hu ▸ hzero)
  exact ⟨by rw [hy0, hz0]; rfl, hy0, hz0⟩

/-! ### Parity as a sum over the data positions -/

/-- The sum over a list of positions of α^(j × i) × f i. -/
def paritySum (j : Nat) (f : Nat → Byte) : List Nat → Byte
  | [] => 0
  | i :: m => byteTimes (j * i) (f i) ^^^ paritySum j f m

theorem paritySum_nil (j : Nat) (f : Nat → Byte) : paritySum j f [] = 0#8 := rfl

theorem paritySum_cons (j i : Nat) (f : Nat → Byte) (m : List Nat) :
    paritySum j f (i :: m) = byteTimes (j * i) (f i) ^^^ paritySum j f m := rfl

theorem paritySum_xor (j : Nat) (f g : Nat → Byte) (m : List Nat) :
    paritySum j (fun i => f i ^^^ g i) m = paritySum j f m ^^^ paritySum j g m := by
  induction m with
  | nil => exact BitVec.zero_xor.symm
  | cons i m ih =>
    simp only [paritySum_cons, ih, byteTimes_xor]
    ac_rfl

/-- Positions that hold zero do not count. -/
theorem paritySum_filter (j : Nat) {f : Nat → Byte} {keep : Nat → Bool} {m : List Nat} (h : ∀ i ∈ m, keep i = false → f i = 0) :
    paritySum j f (m.filter keep) = paritySum j f m := by
  induction m with
  | nil => rfl
  | cons i m ih =>
    have htail := ih fun k hk => h k (List.mem_cons_of_mem i hk)
    cases hi : keep i with
    | true => rw [List.filter_cons_of_pos hi, paritySum_cons, htail, paritySum_cons]
    | false =>
      rw [List.filter_cons_of_neg (by rw [hi]; decide), htail, paritySum_cons, h i List.mem_cons_self hi, byteTimes_zero]
      exact BitVec.zero_xor.symm

/-- The model's running sum from position `k` on. -/
theorem foldl_parity (j : Nat) (f : Nat → Byte) (ds : List Byte) (k n : Nat) (h : ∀ i < ds.length, ds.getD i 0 = f (k + i)) :
    BitVec.ofNat 8 ((ds.zipIdx k).foldl (fun n e => Nat.xor n (gfMul (gfPow (j * e.2)) e.1.toNat)) n) =
      BitVec.ofNat 8 n ^^^ paritySum j f (List.range' k ds.length) := by
  induction ds generalizing k n with
  | nil => exact BitVec.xor_zero.symm
  | cons x ds ih =>
    have hx : x = f k := h 0 (Nat.succ_pos _)
    have htail : ∀ i < ds.length, ds.getD i 0 = f (k + 1 + i) := by
      intro i hi
      rw [Nat.add_assoc, Nat.add_comm 1 i, ← h (i + 1) (Nat.succ_lt_succ hi), List.getD_cons_succ]
    rw [List.zipIdx_cons, List.foldl_cons, ih _ _ htail, ofNat_natXor, gfMul_gfPow, List.length_cons, List.range'_succ, paritySum_cons, ← hx,
      BitVec.xor_assoc]

/-- The byte of a parity strip is the sum over the data positions. -/
theorem parityByte_eq (j : Nat) (ds : List Byte) : parityByte j ds = paritySum j (fun i => ds.getD i 0) (List.range ds.length) := by
  rw [parityByte, foldl_parity j (fun i => ds.getD i 0) ds 0 0 fun i _ => by rw [Nat.zero_add], List.range_eq_range']
  exact BitVec.zero_xor

/-! ### Recovery -/

/-- Three different rows below 3 are all of them. -/
theorem row_mem {j k l n : Nat} (hjk : j ≠ k) (hjl : j ≠ l) (hkl : k ≠ l) (hj : j < 3) (hk : k < 3) (hl : l < 3) (hn : n < 3) :
    n = j ∨ n = k ∨ n = l := by
  omega

/-- Positions whose parity rows vanish, as many rows as positions or more, hold zero. -/
theorem eq_zero_of_paritySum {f : Nat → Byte} {m rows : List Nat} (hnodup : m.Nodup) (hrows : rows.Nodup) (hm : ∀ i ∈ m, i < 28)
    (hr : ∀ j ∈ rows, j < 3) (hlen : m.length ≤ rows.length) (h : ∀ j ∈ rows, paritySum j f m = 0) : ∀ i ∈ m, f i = 0 := by
  have hthree : rows.length ≤ 3 := List.Nodup.length_le_of_subset (l₂ := List.range 3) hrows fun j hj => List.mem_range.2 (hr j hj)
  match m, rows with
  | [], _ => exact fun i hi => absurd hi List.not_mem_nil
  | [a], j :: _ =>
    have hj := h j List.mem_cons_self
    rw [paritySum_cons, paritySum_nil, BitVec.xor_zero] at hj
    intro i hi
    rw [List.mem_singleton.1 hi]
    exact eq_zero_of_byteTimes_eq_zero hj
  | [a, b], j :: k :: _ =>
    simp only [List.mem_cons, List.not_mem_nil, or_false, forall_eq_or_imp, forall_eq, List.nodup_cons, not_or, paritySum_cons,
      paritySum_nil, BitVec.xor_zero] at *
    exact two_missing hnodup.1 hm.1 hm.2 hrows.1.1 hr.1 hr.2.1 h.1 h.2.1
  | [a, b, c], j :: k :: l :: _ =>
    have hall : ∀ n < 3, paritySum n f [a, b, c] = 0 := by
      simp only [List.mem_cons, forall_eq_or_imp, List.nodup_cons, not_or] at hrows hr h
      intro n hn
      obtain rfl | rfl | rfl := row_mem hrows.1.1 hrows.1.2.1 hrows.2.1.1 hr.1 hr.2.1 hr.2.2.1 hn
      · exact h.1
      · exact h.2.1
      · exact h.2.2.1
    have h0 := hall 0 (by decide)
    have h1 := hall 1 (by decide)
    have h2 := hall 2 (by decide)
    simp only [paritySum_cons, paritySum_nil, BitVec.xor_zero, Nat.zero_mul, Nat.one_mul, ← BitVec.xor_assoc] at h0 h1 h2
    simp only [List.mem_cons, List.not_mem_nil, or_false, forall_eq_or_imp, forall_eq, List.nodup_cons, not_or] at hm hnodup ⊢
    exact three_missing hnodup.1.1 hnodup.1.2 hnodup.2.1 hm.1 hm.2.1 hm.2.2 h0 h1 h2
  | _ :: _ :: _ :: _ :: _, _ =>
    simp only [List.length_cons] at hlen
    omega

/-- The data positions that are not among the known ones. -/
def missingData (d : Nat) (known : List Nat) : List Nat := (List.range d).filter fun i => !known.contains i

/-- The parity rows that are among the known positions. -/
def knownRows (d p : Nat) (known : List Nat) : List Nat := (List.range p).filter fun j => known.contains (d + j)

theorem mem_missingData {d i : Nat} {known : List Nat} : i ∈ missingData d known ↔ i < d ∧ i ∉ known := by
  simp [missingData]

theorem mem_knownRows {d p j : Nat} {known : List Nat} : j ∈ knownRows d p known ↔ j < p ∧ d + j ∈ known := by
  simp [knownRows]

/-- Of `d` positions out of `d + p`, at least as many parity rows are known as data positions are missing. -/
theorem missingData_le_knownRows {d p : Nat} {known : List Nat} (hnodup : known.Nodup) (hlen : known.length = d)
    (hlt : ∀ i ∈ known, i < d + p) : (missingData d known).length ≤ (knownRows d p known).length := by
  have hsplit : ((List.range d).filter fun i => known.contains i).length + (missingData d known).length = d := by
    have h := List.length_eq_countP_add_countP (l := List.range d) fun i => known.contains i
    rw [List.length_range, List.countP_eq_length_filter, List.countP_eq_length_filter] at h
    simpa [missingData] using h.symm
  have hcover : known ⊆ ((List.range d).filter fun i => known.contains i) ++ (knownRows d p known).map (d + ·) := by
    intro i hi
    by_cases hd : i < d
    · exact List.mem_append_left _ (List.mem_filter.2 ⟨List.mem_range.2 hd, List.contains_iff_mem.2 hi⟩)
    · have hsum : d + (i - d) = i := by omega
      refine List.mem_append_right _ (List.mem_map.2 ⟨i - d, mem_knownRows.2 ⟨?_, by rwa [hsum]⟩, hsum⟩)
      have := hlt i hi
      omega
  have hle := List.Nodup.length_le_of_subset hnodup hcover
  rw [List.length_append, List.length_map] at hle
  omega

/-- Settles O60: the difference of two contents that agree on D positions vanishes there and in as many parity rows as data
positions are missing, so everywhere. -/
theorem anyDStripsDetermineTheStripe : Obligations.AnyDStripsDetermineTheStripe := by
  unfold Obligations.AnyDStripsDetermineTheStripe
  intro d p ds es known _ hd hp hds hes hnodup hlen hlt hagree
  let diff : Nat → Byte := fun i => ds.getD i 0 ^^^ es.getD i 0
  have hdata : ∀ i < d, i ∈ known → diff i = 0 := by
    intro i hi hk
    have h := hagree i hk
    rw [if_pos hi, if_pos hi] at h
    exact BitVec.xor_eq_zero_iff.2 h
  have hparity : ∀ j ∈ knownRows d p known, paritySum j diff (missingData d known) = 0 := by
    intro j hj
    have h := hagree (d + j) (mem_knownRows.1 hj).2
    rw [if_neg (by omega), if_neg (by omega), Nat.add_sub_cancel_left, parityByte_eq, parityByte_eq, hds, hes] at h
    rw [missingData, paritySum_filter j fun i hi hk => hdata i (List.mem_range.1 hi) (by simpa using hk), paritySum_xor]
    exact BitVec.xor_eq_zero_iff.2 h
  have hmissing := eq_zero_of_paritySum (List.nodup_range.filter _) (List.nodup_range.filter _)
    (fun i hi => Nat.lt_of_lt_of_le (mem_missingData.1 hi).1 hd)
    (fun j hj => Nat.lt_of_lt_of_le (mem_knownRows.1 hj).1 (by omega)) (missingData_le_knownRows hnodup hlen hlt) hparity
  refine List.ext_getElem (hds.trans hes.symm) fun i hi hi' => ?_
  have hzero : diff i = 0 := by
    by_cases hk : i ∈ known
    · exact hdata i (by omega) hk
    · exact hmissing i (mem_missingData.2 ⟨by omega, hk⟩)
  simpa [List.getD_eq_getElem?_getD, List.getElem?_eq_getElem, hi, hi'] using eq_of_xor_eq_zero hzero

/-! ### The bytes of strips, extents and records -/

/-- The strip at a parity position of a segment is the parity of its data strips. -/
theorem stripBytes_parity {s : State} {n : Nat} {x : Segment} {g : Gen} (j : Nat) (hx : segOf s n = some x) (hg : segGen s n = some g) :
    stripBytes s n (g.d + j) = parityStrip j ((List.range g.d).map (dataStrip s x)) := by
  simp only [stripBytes, hx, hg]
  rw [if_neg (Nat.not_lt.2 (Nat.le_add_right _ _)), Nat.add_sub_cancel_left]

/-- A void or unfilled data strip counts as zero. -/
theorem dataStrip_empty (s : State) {x : Segment} {i : Nat} (h : (posOf x i).state = 0 ∨ (posOf x i).state = 3) :
    dataStrip s x i = zeros 65536 := if_pos h

/-- A strip that this head programmed holds its bytes. -/
theorem dataStrip_programmed (s : State) {x : Segment} {i : Nat} {l : List Byte} (h : (posOf x i).state = 2) (hl : (posOf x i).data = some l) :
    dataStrip s x i = padTo 65536 l := by
  rw [dataStrip, if_neg (by rw [h]; decide)]
  simp only [hl]

/-- Settles O59. -/
theorem parityStripsHoldTheWeightedSums : Obligations.ParityStripsHoldTheWeightedSums := by
  unfold Obligations.ParityStripsHoldTheWeightedSums
  exact ⟨fun j k strips hl hk => parityStrip_byte j k strips hl hk, fun s n j x g hx hg => stripBytes_parity j hx hg,
    fun s x i h => dataStrip_empty s h, fun s x i l h hl => dataStrip_programmed s h hl,
    fun d k b i u => xtsExtent_length d k i u b, fun s b j n => recordLines_length s b j n⟩

end Sys2Proof.Machine
end

section
/-! PROOFS. Power, resets, the clocks and the milestones of the first second (R57 to R80). -/

namespace Sys2Proof.Machine

/-- Settles O1. -/
theorem powerOnResetAndRailsCommands : Obligations.PowerOnResetAndRailsCommands := by
  unfold Obligations.PowerOnResetAndRailsCommands
  refine ⟨?rise, ?fall, ?railsUp, ?responder, ?railsDown, ?warm, ?latched, ?ignored, ?frontEnds, ?retention⟩
  case rise =>
    intro s sideB low hlow haon
    show execPwrokRise sideB low s = _
    simp [execPwrokRise, hlow, haon, afterReset]
  case fall =>
    intro s hok
    show execPwrokFall s = _
    simp [execPwrokFall, hok, afterReset, heldBoot]
  case railsUp =>
    intro s haon
    show execAonRailsUp s = _
    simp [execAonRailsUp, haon]
  case responder =>
    intro s haon
    show execAonResponderReady s = _
    simp [execAonResponderReady, haon]
  case railsDown =>
    intro s
    rfl
  case warm =>
    intro s hp hs hl
    show execWarmResetRelease s = _
    simp [execWarmResetRelease, hp, hs, hl, afterReset]
  case latched =>
    intro s ns hok hl hns
    show execPwrfailRecognised ns s = _
    simp [execPwrfailRecognised, hok, hl, hns, Nat.not_lt.2 (Nat.le_trans (by decide : 200 ≤ 1000) hns), latchPwrfail]
  case ignored =>
    intro s ns hns
    show execPwrfailRecognised ns s = _
    simp [execPwrfailRecognised, hns]
  case frontEnds =>
    intro s hs
    show execFrontEndsStop s = _
    simp [execFrontEndsStop, hs]
  case retention =>
    intro s hs hf
    show execCoilRetentionEnter s = _
    simp [execCoilRetentionEnter, hs, hf, idleLinks, persistAccepted]

/-- Settles O2. -/
theorem clockAndPllCommands : Obligations.ClockAndPllCommands := by
  unfold Obligations.ClockAndPllCommands
  refine ⟨?lostStarting, ?lostServed, ?notGood, ?good, ?locked, ?lockLost, ?lockLostServed⟩
  case lostStarting =>
    intro s hok hs
    show execRefclkLost s = _
    simp [execRefclkLost, hok, hs]
  case lostServed =>
    intro s hok hs
    show execRefclkLost s = _
    simp [execRefclkLost, hok, hs]
  case notGood =>
    intro s hok
    show execRefclkNotGood s = _
    simp [execRefclkNotGood, hok]
  case good =>
    intro s hok
    show execRefclkGood s = _
    simp [execRefclkGood, hok]
  case locked =>
    intro s k hfast hst hk hrun
    show execPllLocked k s = _
    rw [execPllLocked, fast_runs _ hfast]
    have : (pllOff s k && !s.pwr.waking) = false := by
      rcases hrun with h | h | h
      · simp [pllOff, h]
      · simp [h]
      · simp [pllOff, Nat.not_lt.2 h]
    simp [hst, hk, this]
  case lockLost =>
    intro s k hfast hk hrun hs
    show execPllLockLost k s = _
    rw [execPllLockLost, fast_runs _ hfast]
    have : pllOff s k = false := by
      rcases hrun with h | h
      · simp [pllOff, h]
      · simp [pllOff, Nat.not_lt.2 h]
    simp [hk, this, hs]
  case lockLostServed =>
    intro s k hfast hk hrun hs
    show execPllLockLost k s = _
    rw [execPllLockLost, fast_runs _ hfast]
    have : pllOff s k = false := by
      rcases hrun with h | h
      · simp [pllOff, h]
      · simp [pllOff, Nat.not_lt.2 h]
    simp [hk, this, hs]

/-- Settles O3. -/
theorem startUpMilestones : Obligations.StartUpMilestones := by
  unfold Obligations.StartUpMilestones
  refine ⟨?_, ?_, ?_, ?_, ?_, ?_, ?_, ?_, ?_, ?_, ?_, ?_⟩
  · intro s hstart
    show execOspiResetRelease s = _
    simp [execOspiResetRelease, hstart]
  · intro s hpwrok hsbEarly
    show execSidebandEarlyService s = _
    simp [execSidebandEarlyService, hpwrok, hsbEarly]
  · intro s hstart hromReading hfusesLoaded hudsOpen
    show execFusesLoaded s = _
    simp [execFusesLoaded, hstart, hromReading, hfusesLoaded, hudsOpen]
  · intro s a m hstart hfusesLoaded hrunning hrunning' hudsOpen
    show execMgtFirmwareRunning s = _
    simp [execMgtFirmwareRunning, hstart, hfusesLoaded, hrunning, hrunning', romLayerEnds, hudsOpen]
  · intro s hstart hmgtRunning
    show execSidebandFullService s = _
    simp [execSidebandFullService, hstart, hmgtRunning]
  · intro s hstart
    show execHamperTrained s = _
    simp [execHamperTrained, hstart]
  · intro s hstart hmgtRunning hhamperReady hcounterDone
    show execPlemFunctionReady s = _
    simp [execPlemFunctionReady, hstart, hmgtRunning, hhamperReady, hcounterDone]
  · intro s hstart
    refine ⟨?_, ?_⟩
    · show execPcieLinkTrainStart 0 s = _
      simp [execPcieLinkTrainStart, hstart]
    · show execPcieLinkTrainStart 1 s = _
      simp [execPcieLinkTrainStart, hstart]
  · intro s hfast hlinkUpC0 hplemReady
    show execPcieConfigRequest 0 s = _
    simp [execPcieConfigRequest, fast_runs _ hfast, hlinkUpC0, hplemReady, configAnswer]
  · intro s hfast hlinkUpC1 hplemReady
    show execPcieConfigRequest 1 s = _
    simp [execPcieConfigRequest, fast_runs _ hfast, hlinkUpC1, hplemReady, configAnswer]
  · intro s hfast hlinkUpC0 hplemReady
    show execPcieConfigRequest 0 s = _
    simp [execPcieConfigRequest, fast_runs _ hfast, hlinkUpC0, hplemReady, configAnswer, pcieFunctions]
  · intro s hfast hlinkUpC1 hplemReady
    show execPcieConfigRequest 1 s = _
    simp [execPcieConfigRequest, fast_runs _ hfast, hlinkUpC1, hplemReady, configAnswer, pcieFunctions]

/-- Settles O4. -/
theorem wavesAndMonitorTest : Obligations.WavesAndMonitorTest := by
  unfold Obligations.WavesAndMonitorTest
  refine ⟨?_, ?_, ?_, ?_, ?_, ?_⟩
  · rintro s w hstart hsilent rfl hw
    show execStakeWaveStart _ s = _
    simp [execStakeWaveStart, hstart, hsilent, hw]
  · intro s w rx hfast hsilent hstart hw hbit
    show execStakeWaveEnd w rx s = _
    simp [execStakeWaveEnd, alive_runs _ hfast hsilent, hstart, hw, hbit]
  · intro s hstart hsilent
    show execStakeCatchupWave s = _
    simp [execStakeCatchupWave, hstart, hsilent]
  · intro s hfast hsilent hstart hlinkUp hpidVal
    show execPeerLinkTrainAttempt s = _
    simp [execPeerLinkTrainAttempt, alive_runs _ hfast hsilent, hstart, hlinkUp, hpidVal]
  · intro s hfast hrecSealed hstart
    show execMonitorSelfTest 0 s = _
    simp [execMonitorSelfTest, fast_runs _ hfast, hrecSealed, hstart]
  · intro s m hfast hrecSealed hstart hm
    show execMonitorSelfTest m s = _
    simp [execMonitorSelfTest, fast_runs _ hfast, hrecSealed, hstart, hm]

/-- Settles O5. -/
theorem tilesGroupsAndDoze : Obligations.TilesGroupsAndDoze := by
  unfold Obligations.TilesGroupsAndDoze
  refine ⟨?_, ?_, ?_, ?_, ?_, ?_, ?_, ?_⟩
  · intro s k hfast hsilent hdoze hk htileState
    show execTileGate k s = _
    simp [execTileGate, engine_runs _ hfast hsilent hdoze, hk, htileState]
  · intro s k hfast hsilent hdoze hk htileState
    show execTileWake k s = _
    simp [execTileWake, engine_runs _ hfast hsilent hdoze, htileState, Nat.not_le.2 hk]
  · intro s k hfast hsilent hdoze hk htileState hwakeQueue hrestoring
    show execTileWake k s = _
    simp [execTileWake, engine_runs _ hfast hsilent hdoze, htileState, Nat.not_le.2 hk, queueGroup, hwakeQueue, hrestoring]
  · intro s g hfast hsilent hdoze hg hpidVal hbit hall
    show execGroupAutoOff g s = _
    have hgroup : (s.pwr.tiles.zipIdx.all fun e => Config.groupOf e.2 != g || e.1 == 1) = true := by
      simp only [List.all_eq_true] at hall ⊢
      exact fun e he => by rw [hall e he, Bool.or_true]
    rw [execGroupAutoOff, engine_runs _ hfast hsilent hdoze, if_pos ⟨hg, hpidVal, by simp [hbit], hgroup⟩]
    rfl
  · intro s e hfast hsilent hdoze hnextGroup
    show execGroupPowerOn s = _
    simp [execGroupPowerOn, engine_runs _ hfast hsilent hdoze, hnextGroup]
  · intro s g hfast hsilent hdoze hcontains
    show execGroupRestoreComplete g s = _
    rw [execGroupRestoreComplete, engine_runs _ hfast hsilent hdoze, if_pos hcontains]
  · intro s hfast hdoze
    show execDozeWake s = _
    simp [execDozeWake, fast_runs _ hfast, hdoze]
  · intro s hfast hdoze hwaking
    show execDozeExitComplete s = _
    simp [execDozeExitComplete, fast_runs _ hfast, hdoze, hwaking]

/-- Settles O6. -/
theorem sidebandEarlyAnswers : Obligations.SidebandEarlyAnswers := by
  unfold Obligations.SidebandEarlyAnswers
  refine ⟨?_, ?_, ?_, ?_, ?_, ?_, ?_, ?_, ?_, ?_, ?_, ?_, ?_, ?_⟩
  · intro s hsmbusAnswers hfusesLoaded
    show execSmbusReadIdentity s = _
    simp [execSmbusReadIdentity, hsmbusAnswers, hfusesLoaded]
  · intro s h hsmbusAnswers hhottest
    show execSmbusReadTemperature s = _
    simp [execSmbusReadTemperature, hsmbusAnswers, hhottest]
  · intro s hsmbusAnswers hmctpAnswers
    refine ⟨?_, ?_, ?_, ?_⟩
    · show execSmbusReadBootStatus s = _
      simp [execSmbusReadBootStatus, hsmbusAnswers]
    · show execSmbusReadCause s = _
      simp [execSmbusReadCause, hsmbusAnswers]
    · show execGetEndpointId s = _
      simp [execGetEndpointId, hmctpAnswers]
    · show execGetMessageTypeSupport s = _
      simp [execGetMessageTypeSupport, hmctpAnswers]
  · intro s v hmctpAnswers
    refine ⟨?_, ?_⟩
    · show execSetEndpointId v s = _
      simp [execSetEndpointId, hmctpAnswers]
    · show execGetMctpVersionSupport v s = _
      simp [execGetMctpVersionSupport, hmctpAnswers]
  · intro s c hsmbusAnswers hmctpAnswers hfullService
    refine ⟨?_, ?_⟩
    · show execSmbusOtherCommand c s = _
      simp [execSmbusOtherCommand, hsmbusAnswers, hfullService]
    · show execMctpOtherControl c s = _
      simp [execMctpOtherControl, hmctpAnswers, hfullService]
  · intro s ms hi3c h
    show execSmbusClockLowTimeout ms s = _
    simp [execSmbusClockLowTimeout, hi3c, h, Nat.not_lt.2 (Nat.le_trans (by decide : 25 ≤ 35) h)]
  · intro s hpwrok
    show execI3cFirstBroadcast s = _
    simp [execI3cFirstBroadcast, hpwrok]
  · intro s a hi3c hi3cAddr
    refine ⟨?_, ?_⟩
    · show execEntdaa a s = _
      simp [execEntdaa, hi3c, hi3cAddr]
    · show execSetdasa 0x4D a s = _
      simp [execSetdasa, hi3c, hi3cAddr]
  · intro s
    show execRstdaa s = _
    simp [execRstdaa]
  · intro s
    show execTapInstructionUpdate .idcode s = _
    simp [execTapInstructionUpdate]
  · intro s
    show execTapInstructionUpdate .bypass s = _
    simp [execTapInstructionUpdate]
  · intro s k
    show execTapInstructionUpdate (.other k) s = _
    simp [execTapInstructionUpdate]
  · intro s i hi hserviceEver
    show execTapInstructionUpdate i s = _
    obtain rfl | rfl | rfl | rfl := hi <;> simp [execTapInstructionUpdate, hserviceEver]
  · intro s i hi hserviceEver
    show execTapInstructionUpdate i s = _
    obtain rfl | rfl | rfl | rfl := hi <;> simp [execTapInstructionUpdate, hserviceEver]


end Sys2Proof.Machine
end

section
/-! PROOFS. The audit port (R32 to R35, R134, R135, R137): an entry appended, and what AUDIT_ENTRY_DURABLE and
WAITING_ENTRY_APPEND make of the oldest item. -/

namespace Sys2Proof.Machine

/-! ### An entry appended -/

/-- An append that does not cross the near-full threshold changes the chain alone. -/
theorem appendEntry_quiet {s : State} (e : AuditEntry) (h : crossesNear s = false) :
    appendEntry e s = { s with nv.chain := s.nv.chain ++ [{ e with prevHash := lastHash s }] } := by
  rw [appendEntry, h]
  rfl

/-- Below the threshold a status stays as it was decided. -/
theorem nearStatus_quiet {s : State} (status detail : Nat) (h : crossesNear s = false) : nearStatus s status detail = (status, detail) := by
  rw [nearStatus, h]
  rfl

/-- The status of a refusal stays as it was decided. -/
theorem nearStatus_refusal (s : State) {status : Nat} (detail : Nat) (h : isSuccess status = false) :
    nearStatus s status detail = (status, detail) := by
  rw [nearStatus, h, Bool.and_false]
  rfl

/-- Settles O16. -/
theorem appendEntryLinksTheChain : Obligations.AppendEntryLinksTheChain := by
  unfold Obligations.AppendEntryLinksTheChain
  exact ⟨fun _ e h => appendEntry_quiet e h, fun _ _ h => chainLinked_append h rfl⟩

/-! ### The oldest item of the port -/

/-- A command at the head of a port that appends. -/
theorem exec_auditEntryDurable_command {s : State} {c : Cmd} {d : Decision} {rest : List Held} (hfast : s.boot.fastStopped = false)
    (hruns : portRuns s = true) (hmgmt : s.saf.mgmtHalted = false) (hport : s.brd.port = .command c d :: rest) :
    exec .auditEntryDurable s = .next (commandDurable c d { s with brd.port := rest }) := by
  show execAuditEntryDurable s = _
  simp [execAuditEntryDurable, fast_runs _ hfast, hruns, hport, hmgmt]

/-- A park write at the head of a port that appends. -/
theorem exec_auditEntryDurable_park {s : State} {core : Nat} {park : Bool} {rest : List Held} (hfast : s.boot.fastStopped = false)
    (hruns : portRuns s = true) (hport : s.brd.port = .park core park :: rest) :
    exec .auditEntryDurable s = .next (parkDurable core park { s with brd.port := rest }) := by
  show execAuditEntryDurable s = _
  simp [execAuditEntryDurable, fast_runs _ hfast, hruns, hport]

/-- A window register write at the head of a port that appends. -/
theorem exec_auditEntryDurable_register {s : State} {off v req : Nat} {rest : List Held} (hfast : s.boot.fastStopped = false)
    (hruns : portRuns s = true) (hport : s.brd.port = .register off v req :: rest) :
    exec .auditEntryDurable s = .next (windowDurable off v req { s with brd.port := rest }) := by
  show execAuditEntryDurable s = _
  simp [execAuditEntryDurable, fast_runs _ hfast, hruns, hport]

/-! ### Commands -/

/-- A command that the tier does not allow is AUD.FULL without an entry (R137). -/
theorem commandDurable_full {s : State} {c : Cmd} (d : Decision) (hhere : carriedHere c = false) (htier : cmdTier s c = false)
    (hcoil : commitsInCoil c.opcode = false) :
    commandDurable c d s = finishCmd c (statusOf c stAudFull 0 0 false s) s := by
  simp [commandDurable, hhere, htier, releaseHolds, hcoil]

/-- A refused command: its entry, then its status with the entry's sequence (R134). -/
theorem commandDurable_refused {s : State} {c : Cmd} {d : Decision} (hhere : carriedHere c = false) (htier : cmdTier s c = true)
    (hrefused : isSuccess d.status = false) (hstarted : d.started = false) :
    commandDurable c d s = (let t := appendEntry (commandEntry s c d.status d.detail (entrySession c) false) s
      deliver c { statusOf c d.status d.detail d.result false t with audited := true, auditSeq := s.nv.chain.length % 2 ^ 32 }
        ((outputAt c).getD 0) [] t) := by
  simp [commandDurable, hhere, htier, hrefused, hstarted, nearStatus_refusal, lostInFailSilence, afterEntry, outputOf]

/-- A successful command that ends in its step, below the near-full threshold: its entry on the state `t` that it finds,
its effect on the chain as it then stands, its status (R134). -/
theorem commandDurable_success {s t : State} {c : Cmd} {d : Decision} (hhere : carriedHere c = false) (htier : cmdTier s c = true)
    (hok : isSuccess d.status = true) (hchange : d.status ≠ stOkNochange) (hstarted : d.started = false) (hcarried : d.carried = false)
    (hcoil : commitsInCoil c.opcode = false) (hlater : endsLater c d = false) (hopen : c.opcode ≠ opSessionOpen)
    (hreset : c.opcode ≠ opResetDevice) (ht : t = if c.opcode = opSetTime then setWall (pk c 24 8) false s else s)
    (hcross : crossesNear t = false) (hsilent : t.saf.failSilent = false) :
    commandDurable c d s =
      (let t1 : State := { t with nv.chain := t.nv.chain ++ [{ commandEntry t c d.status d.detail (entrySession c) false with prevHash := lastHash t }] }
       let out := outputOf c d t1
       deliver c { statusOf c d.status d.detail d.result (out != []) t1 with audited := true, auditSeq := t.nv.chain.length % 2 ^ 32 }
         ((outputAt c).getD 0) out (applyCommand c d t1)) := by
  simp [commandDurable, hhere, htier, hok, hcarried, hstarted, hopen, ← ht, nearStatus_quiet _ _ hcross, appendEntry_quiet _ hcross,
    lostInFailSilence, hsilent, afterEntry, hchange, hcoil, hlater, hreset]

/-- SET_TIME has no effect after its entry, and no output. -/
theorem applyCommand_setTime {c : Cmd} (d : Decision) (s : State) (h : c.opcode = opSetTime) : applyCommand c d s = s := by
  simp +decide [applyCommand, h]

theorem outputOf_setTime {c : Cmd} (d : Decision) (s : State) (h : c.opcode = opSetTime) : outputOf c d s = [] := by
  simp +decide [outputOf, outputAt, h]

/-! ### The statement -/

/-- Settles O15. -/
theorem auditPortEntryThenEffect : Obligations.AuditPortEntryThenEffect := by
  unfold Obligations.AuditPortEntryThenEffect
  refine ⟨?refused, ?success, ?full, ?park, ?parkRefused, ?window, ?setTime, ?waiting⟩
  case refused =>
    intro s c d rest hfast hruns hmgmt hport hhere htier hrefused hstarted
    rw [exec_auditEntryDurable_command hfast hruns hmgmt hport, commandDurable_refused hhere htier hrefused hstarted]
  case success =>
    intro s c d rest hfast hruns hmgmt hport hhere htier hok hchange hstarted hcarried hcoil hlater hopen htime hreset hcross hsilent
    rw [exec_auditEntryDurable_command hfast hruns hmgmt hport,
      commandDurable_success hhere htier hok hchange hstarted hcarried hcoil hlater hopen hreset (if_neg htime).symm hcross hsilent]
  case full =>
    intro s c d rest hfast hruns hmgmt hport hhere htier hcoil
    rw [exec_auditEntryDurable_command hfast hruns hmgmt hport, commandDurable_full d hhere htier hcoil]
  case park =>
    intro s core park rest hfast hruns hport hfree
    rw [exec_auditEntryDurable_park hfast hruns hport, parkDurable, if_neg (Nat.not_le.2 hfree)]
  case parkRefused =>
    intro s core park rest hfast hruns hport hfree
    rw [exec_auditEntryDurable_park hfast hruns hport, parkDurable, if_pos hfree]
    rfl
  case window =>
    intro s off v req n k rest hfast hruns hport hoff hseal hfixed hbreach hfree
    rw [exec_auditEntryDurable_register hfast hruns hport]
    simp [windowDurable, hoff, hseal, hfixed, hbreach, Nat.not_le.2 hfree]
  case setTime =>
    intro s c d rest hfast hruns hmgmt hport hhere htier htime hok hcarried hstarted hsilent hchange hcross
    rw [exec_auditEntryDurable_command hfast hruns hmgmt hport,
      commandDurable_success (t := setWall (pk c 24 8) false { s with brd.port := rest }) hhere htier hok hchange hstarted hcarried
        (by rw [htime]; decide) (by rw [endsLater, htime]; simp +decide [powerAsked, htime]) (by rw [htime]; decide) (by rw [htime]; decide)
        (if_pos htime).symm hcross hsilent]
    simp only [outputOf_setTime d _ htime, applyCommand_setTime d _ htime]
    simp +decide [outputAt, htime, setWall]
  case waiting =>
    intro s e rest hfast hwait hfree hruns
    show execWaitingEntryAppend s = _
    rw [execWaitingEntryAppend, fast_runs _ hfast, hwait]
    exact if_neg (by simp [hruns, Nat.not_le.2 hfree])

end Sys2Proof.Machine
end

section
/-! PROOFS. Accesses to the Hamper under the window table, and the Rim (R19, R22 to R30). -/

namespace Sys2Proof.Machine

/-- A range written leaves every byte outside it alone. -/
theorem memGet_memWrite_outside (m : List Host.Cell) {a x : Nat} (b : List Byte) (h : x < a ∨ a + b.length ≤ x) :
    memGet (memWrite m a b) x = memGet m x :=
  h.elim (memGet_memWrite_below m b) (memGet_memWrite_above m b)

/-- A full ring turns its core producer away (R30). -/
theorem exec_rimPost_full {s : State} {n : Nat} (b : List Byte) (hn : n < 64) (hcore : rimByCore n = true)
    (hrun : s.boot.fastStopped = false ∧ ((rimPlanes n).1 = 3 ∨ (s.saf.failSilent = false ∧ s.pwr.doze = false)))
    (hfull : rimCap ≤ (rimOf s n).entries.length) : exec (.rimPost n true b) s = .next (emit (.rimFull n) s) := by
  show execRimPost n true b s = _
  rw [execRimPost, planeStep_running _ hrun, if_neg (by simp [hcore, hn]), if_pos (by simp [hfull])]

/-- A post by one that is not the ring's producer changes nothing, in every power state (R27). -/
theorem exec_rimPost_foreign (s : State) {n : Nat} {c : Bool} (b : List Byte) (h : 64 ≤ n ∨ c ≠ rimByCore n) :
    exec (.rimPost n c b) s = .next s := by
  show execRimPost n c b s = _
  rw [execRimPost, if_pos h, planeStep_unchanged]

/-- A packet that region 2 holds, under an entry that the data plane may write (R17). -/
theorem stagePacket_fits {s : State} (k : Nat) {b : List Byte} (hroom : b.length ≤ winSize s 2)
    (hen : ((s.ham.win[2]?).getD ({ base := 0 } : Win)).enable = true) (hcode : winCode ((s.ham.win[2]?).getD ({ base := 0 } : Win)) 1 / 2 = 1) :
    stagePacket k b s =
      (let a := winBase s 2 + freeBelow (winSize s 2 - b.length + 1) s
       let t : State := { s with free := s.free + 1 }
       rimPost (48 + freeBelow 8 t) (18 + k) (leBytes 8 a ++ leBytes 4 b.length)
         { t with free := t.free + 1, ham.mem := memWrite s.ham.mem a b }) := by
  rw [stagePacket, if_neg (Nat.not_lt.2 hroom)]
  exact if_pos (by rw [hen, hcode]; rfl)

/-- Settles O20. -/
theorem hamperAccessesUnderWindows : Obligations.HamperAccessesUnderWindows := by
  unfold Obligations.HamperAccessesUnderWindows
  refine ⟨?coreWrite, ?mgmtRead, ?engineDenied, ?coreDenied, ?laneDenied, fun s _ _ b h => memGet_memWrite_outside s.ham.mem b h, ?enginePost,
    ?enginePostFull, ?corePost, ?mgmtPost, ?corePostFull, ?foreignPost, ?take, ?stage⟩
  case coreWrite =>
    intro s a b hfast hsilent hdoze hallow
    show execHamperAccess .controlCore true a b s = _
    rw [execHamperAccess, fast_runs _ hfast]
    simp only [engine_runs _ hfast hsilent hdoze, if_pos hallow, accessDone, if_true]
  case mgmtRead =>
    intro s a b hfast hallow
    show execHamperAccess .mgmtCore false a b s = _
    rw [execHamperAccess, fast_runs _ hfast]
    simp only [if_pos hallow, accessDone, Bool.false_and, Bool.false_eq_true, if_false]
  case engineDenied =>
    intro s a w b hfast hsilent hdoze hdeny
    show execHamperAccess .dataEngine w a b s = _
    rw [execHamperAccess, fast_runs _ hfast]
    simp only [engine_runs _ hfast hsilent hdoze, hdeny, Bool.false_eq_true, if_false]
    rfl
  case coreDenied =>
    intro s a w b hfast hsilent hdoze hdeny
    show execHamperAccess .controlCore w a b s = _
    rw [execHamperAccess, fast_runs _ hfast]
    simp only [engine_runs _ hfast hsilent hdoze, hdeny, Bool.false_eq_true, if_false]
    rfl
  case laneDenied =>
    intro s n a w b hfast hsilent hdoze hn hdeny
    show execHamperAccess (.lane n) w a b s = _
    rw [execHamperAccess, fast_runs _ hfast]
    simp only [engine_runs _ hfast hsilent hdoze, hdeny, Bool.false_eq_true, if_false, if_pos (show serviceLane n = true from decide_eq_true hn)]
    rfl
  case enginePost =>
    intro s n b hn hcore hrun _
    rw [exec_rimPost_taken b hrun hn hcore.symm (.inl rfl), if_neg (by simp)]
    rfl
  case enginePostFull =>
    intro s n b hn hcore hrun _
    rw [exec_rimPost_taken b hrun hn hcore.symm (.inl rfl), if_neg (by simp)]
    rfl
  case corePost =>
    intro s n b hn hcore hplane hfast hsilent hdoze hroom
    rw [exec_rimPost_taken b ⟨hfast, .inr ⟨hsilent, hdoze⟩⟩ hn hcore.symm (.inr hroom), if_pos ⟨rfl, hplane⟩]
  case mgmtPost =>
    intro s n b hn hcore hplane hfast hroom
    rw [exec_rimPost_taken b ⟨hfast, .inl hplane⟩ hn hcore.symm (.inr hroom), if_neg (by simp [hplane])]
  case corePostFull =>
    intro s n b hn hcore hrun hfull
    exact exec_rimPost_full b hn hcore hrun hfull
  case foreignPost =>
    intro s n c b h
    exact exec_rimPost_foreign s b h
  case take =>
    intro s n e t hrun he
    exact exec_rimTake_oldest hrun he
  case stage =>
    intro s k b hroom hen hcode
    exact stagePacket_fits k hroom hen hcode

end Sys2Proof.Machine
end

section
/-! PROOFS. The order of Coil's region 2 stream (R313, R317 to R319). -/

namespace Sys2Proof.Machine

/-- Without the mirror a record accepted is not sent to the peer. -/
theorem acceptRecord_alone {s : State} (b : CoilBody) (n : Nat) (hmirror : s.col.mirrorOn = false) (hcatch : s.col.catchUp = none) :
    acceptRecord b n s = storeLines false s.nv.tailLine n (recordLines s b s.nv.nextJseq n) { s with
      nv.journal := s.nv.journal ++ [{ jseq := s.nv.nextJseq, line := s.nv.tailLine, lines := n, body := b, bytes := recordLines s b s.nv.nextJseq n }]
      nv.nextJseq := s.nv.nextJseq + 1, nv.tailLine := s.nv.tailLine + n
      nv.accept := s.nv.accept ++ [{ mirror := false, jseq := s.nv.nextJseq, lines := n }] } := by
  rw [acceptRecord]
  exact if_neg (by simp [mirrorSends, storeLines, hmirror, hcatch])

/-- Persisting lines parts the accepted records into the whole ones and the rest, and loses none. -/
theorem persistLines_jseqs (n : Nat) (l : List Accept) :
    ((persistLines n l).1 ++ (persistLines n l).2).map (·.jseq) = l.map (·.jseq) := by
  induction l generalizing n with
  | nil => rfl
  | cons a l ih =>
    rw [persistLines]
    split
    · rw [List.cons_append, List.map_cons, ih, List.map_cons]
    · rfl

theorem commitTarget_le_persisted (s : State) : commitTarget s ≤ s.nv.persisted := by
  unfold commitTarget
  split
  · exact Nat.min_le_left _ _
  · exact Nat.le_refl _

theorem commitTarget_le_peerAck {s : State} (h : s.col.mirrorOn = true) : commitTarget s ≤ s.col.peerAck := by
  rw [commitTarget, if_pos h]
  exact Nat.min_le_right _ _

/-- Settles O30. -/
theorem coilStreamOrder : Obligations.CoilStreamOrder := by
  unfold Obligations.CoilStreamOrder
  exact ⟨fun _ b n hm hc => acceptRecord_alone b n hm hc, persistLines_jseqs, fun s => ⟨commitTarget_le_persisted s, commitTarget_le_peerAck⟩⟩

end Sys2Proof.Machine
end

section
/-! PROOFS. The arithmetic of a CLOSED sample (R492, R493, R497). -/

namespace Sys2Proof.Machine

/-- What a bumpless start leaves of a loop. -/
theorem bumplessStart_keeps (l : Loop) (y r f : Int) :
    ∃ v yPrev i b, bumplessStart l y r f = { l with v := v, yPrev := yPrev, i := i, bumpless := b } := by
  unfold bumplessStart
  split
  · exact ⟨_, _, _, _, rfl⟩
  · exact ⟨_, _, _, _, rfl⟩

theorem bumplessStart_running {l : Loop} (y r f : Int) (h : l.bumpless = false) : bumplessStart l y r f = l := by
  rw [bumplessStart, h]
  rfl

/-- Rounding a value between two Q1.15 limits in Q9.31 stays between them. -/
theorem roundQ_between {x lo hi : Int} (hlo : -32768 ≤ lo) (hhi : hi ≤ 32767) (h1 : lo * 65536 ≤ x) (h2 : x ≤ hi * 65536) :
    lo ≤ roundQ x ∧ roundQ x ≤ hi := by
  unfold roundQ sat16
  omega

theorem clampOut_between {l : Loop} (raw : Int) (hlo : -32768 ≤ l.umin) (hle : l.umin ≤ l.umax) (hhi : l.umax ≤ 32767) :
    l.umin ≤ clampOut l raw ∧ clampOut l raw ≤ l.umax := by
  unfold clampOut
  split
  · exact ⟨hle, Int.le_refl _⟩
  · split
    · exact ⟨Int.le_refl _, hle⟩
    · exact roundQ_between hlo hhi (by omega) (by omega)

/-- Settles O50. -/
theorem weaverSampleArithmetic : Obligations.WeaverSampleArithmetic := by
  unfold Obligations.WeaverSampleArithmetic
  refine ⟨?output, ?integrator, ?kept, ?flags⟩
  case output =>
    intro l y r f j hlo hle hhi
    obtain ⟨v, yPrev, i, b, h⟩ := bumplessStart_keeps l y r f
    simp only [closedSample, h]
    exact clampOut_between (l := { l with v := v, yPrev := yPrev, i := i, bumpless := b }) _ hlo hle hhi
  case integrator =>
    intro l y r f j hb
    rw [closedSample, bumplessStart_running y r f hb]
    rfl
  case kept =>
    intro l y r f j
    obtain ⟨v, yPrev, i, b, h⟩ := bumplessStart_keeps l y r f
    simp only [closedSample, h, and_self]
  case flags =>
    intro l y r f j hb t
    rw [closedSample, bumplessStart_running y r f hb]
    exact ⟨rfl, rfl, rfl⟩

end Sys2Proof.Machine
end

section
/-! PROOFS. The system and Border commands: reads, decisions, effects, the boot counter, records and wall time (R67, R100 to R151). -/

namespace Sys2Proof.Machine

/-- Padding zeros to their own length. -/
theorem padTo_zeros (n : Nat) : padTo n (zeros n) = zeros n := by
  simp [padTo, zeros]

/-- A record is marked pending where its ring slot holds an undrained one (R129). -/
theorem newRecord_pending (s : State) : (newRecord s).pending = slotUndrained s s.nv.bootCounter := rfl

theorem newRecord_counter (s : State) : (newRecord s).counter = s.nv.bootCounter := rfl

/-- With no entry that arose before the increment, nothing is released (R129). -/
theorem releaseEarly_none {s : State} (h : s.brd.early = []) : releaseEarly s = { s with brd.early := [] } := by
  rw [releaseEarly, h]
  rfl

/-- The Alias key follows the measurement of CTL, WVM and SDS (R124). -/
theorem deriveAlias_measured {s : State} (hcounter : s.brd.counterDone = true) (h3 : (measOf s 3).isSome = true)
    (h4 : (measOf s 4).isSome = true) (h5 : (measOf s 5).isSome = true) : deriveAlias s = { s with brd.aliasReady := true } := by
  rw [deriveAlias, hcounter, h3, h4, h5]
  rfl

theorem deriveAlias_unmeasured {s : State} (h : measOf s 3 = none) : deriveAlias s = s := by
  simp [deriveAlias, h]

/-- Settles O7. -/
theorem systemReadsAnswer : Obligations.SystemReadsAnswer := by
  unfold Obligations.SystemReadsAnswer
  refine ⟨?_, ?_, ?_, ?_, ?_, ?_⟩
  · intro s ring seq c hfast hc
    show execSysIdentify ring seq s = _
    simp [execSysIdentify, fast_runs _ hfast, plainOp_runs hc, sysIdentify, completePlain]
  · intro s ring seq c hfast hc
    show execGetNonce ring seq s = _
    simp [execGetNonce, fast_runs _ hfast, plainOp_runs hc, getNonce, applyGetNonce]
  · intro s ring seq c hfast hc
    show execSysStatus ring seq s = _
    simp [execSysStatus, fast_runs _ hfast, plainOp_runs hc, sysStatus, drewFree]
  · intro s ring seq c hfast hc hpk hlength
    show execAuditRead ring seq s = _
    simp [execAuditRead, fast_runs _ hfast, plainOp_runs hc, auditRead, Nat.not_le.2 hpk, Nat.not_lt.2 hlength]
  · intro s ring seq c r hfast hc hrecordOf
    show execBootRecordRead ring seq s = _
    simp [execBootRecordRead, fast_runs _ hfast, plainOp_runs hc, bootRecordRead, hrecordOf]
  · intro s ring seq c hfast hc hpk hrecSealed haliasReady
    show execAttestQuote ring seq s = _
    cases hr : recordOf s s.nv.bootCounter <;>
      simp [execAttestQuote, fast_runs _ hfast, haliasReady, plainOp_runs hc, attestQuote, hpk, hrecSealed, hr, padTo_zeros]

/-- Settles O8. -/
theorem borderRecordCommands : Obligations.BorderRecordCommands := by
  unfold Obligations.BorderRecordCommands
  refine ⟨?_, ?_, ?_, ?_, ?_, ?_, ?_, ?_, ?_⟩
  · intro s ring seq c e hfast hc hport hchain hdrain hsha384
    show execAuditDrain ring seq s = _
    simp [execAuditDrain, fast_runs _ hfast, auditedOp_taken hc hport, auditDrain, hchain, hsha384, Nat.not_lt.2 hdrain]
  · intro s ring seq c hfast hc hport
    show execAuditSeal ring seq s = _
    simp [execAuditSeal, fast_runs _ hfast, auditedOp_taken hc hport]
  · intro s ring seq c r hfast hc hport hrecDrained hrecordOf hsha384
    show execBootRecordDrain ring seq s = _
    simp [execBootRecordDrain, fast_runs _ hfast, auditedOp_taken hc hport, bootRecordDrain, hrecordOf, hsha384, Nat.not_le.2 hrecDrained]
  · intro s ring seq c hfast hc hport howned
    show execOwnerEnroll ring seq s = _
    simp [execOwnerEnroll, fast_runs _ hfast, auditedOp_taken hc hport, ownerEnroll, howned]
  · intro s ring seq c hfast hc hport
    show execConfigSeal ring seq s = _
    simp [execConfigSeal, fast_runs _ hfast, auditedOp_taken hc hport, configSeal]
  · intro s ring seq c hfast hc hport hpidVal
    show execSetTime ring seq s = _
    simp [execSetTime, fast_runs _ hfast, auditedOp_taken hc hport, setTime, hpidVal]
  · intro s c d q hopcode hnums haboveNear
    simp +decide [applyCommand, hopcode, hnums, haboveNear, applyAuditDrain]
  · intro s c d hopcode howned
    simp +decide [applyCommand, hopcode, howned, applyOwnerEnroll]
  · intro s c d hopcode
    simp +decide [applyCommand, hopcode, applyConfigSeal]

/-- Settles O12. -/
theorem systemCommandDecisions : Obligations.SystemCommandDecisions := by
  unfold Obligations.SystemCommandDecisions
  refine ⟨?_, ?_, ?_, ?_, ?_, ?_, ?_, ?_, ?_, ?_, ?_⟩
  · intro s ring seq c hfast hc hport hnextSerial
    show execSessionOpen ring seq s = _
    have hserial : ¬ 4194304 ≤ s.plem.nextSerial := Nat.not_le.2 hnextSerial
    simp [execSessionOpen, fast_runs _ hfast, hc, hport, sessionOpen, hserial]
  · intro s ring seq c hfast hc hport h
    show execSessionOpen ring seq s = _
    have hserial : 4194304 ≤ s.plem.nextSerial := h
    simp [execSessionOpen, fast_runs _ hfast, hc, hport, sessionOpen, hserial, show isSuccess stResExhausted = false from rfl]
  · intro s ring seq c hfast hc hport
    show execSessionClose ring seq s = _
    simp [execSessionClose, fast_runs _ hfast, auditedOp_taken hc hport]
  · intro s ring seq c hfast hc hport hservice hnotReadyBits hstart
    show execServiceStart ring seq s = _
    simp [execServiceStart, fast_runs _ hfast, auditedOp_taken hc hport, serviceStart, hservice, hnotReadyBits, hstart]
  · intro s ring seq c hfast hc hport hservice hnotReadyBits
    show execServiceStart ring seq s = _
    simp [execServiceStart, fast_runs _ hfast, auditedOp_taken hc hport, serviceStart, hservice, hnotReadyBits]
  · intro s ring seq c hfast hc hport hservice
    show execServiceStart ring seq s = _
    simp [execServiceStart, fast_runs _ hfast, auditedOp_taken hc hport, serviceStart, hservice]
  · intro s ring seq c hfast hc hport
    show execServiceStop ring seq s = _
    simp [execServiceStop, fast_runs _ hfast, auditedOp_taken hc hport]
  · intro s ring seq c hfast hc hport hmaskAfter
    show execPortEnable ring seq s = _
    simp [execPortEnable, fast_runs _ hfast, auditedOp_taken hc hport, portEnable, hmaskAfter]
  · intro s ring seq c hfast hc hport
    show execDeviceDoze ring seq s = _
    simp [execDeviceDoze, fast_runs _ hfast, auditedOp_taken hc hport]
  · intro s ring seq c hfast hc hport
    show execResetDevice ring seq s = _
    simp [execResetDevice, fast_runs _ hfast, auditedOp_taken hc hport]
  · intro s ring seq c hfast hc hport
    show execServiceStop ring seq s = _
    rw [execServiceStop, fast_runs _ hfast, auditedOp_waits hport]

/-- Settles O13. -/
theorem systemCommandEffects : Obligations.SystemCommandEffects := by
  unfold Obligations.SystemCommandEffects
  refine ⟨?_, ?_, ?_, ?_, ?_, ?_, ?_⟩
  · intro s c d hopcode hdiscarded hringOf
    simp +decide [applyCommand, hopcode, hdiscarded, hringOf, applySessionOpen]
  · intro s c d hopcode hringOf
    simp +decide [applyCommand, hopcode, hringOf, applySessionClose]
  · intro s c d hopcode hstart hsilent hserved hpaired
    simp +decide [applyCommand, hopcode, hstart, hsilent, hserved, hpaired, startService, applyServiceStart]
  · intro s c d hopcode hstart hsilent hserved hraiseRequested
    simp +decide [applyCommand, hopcode, hstart, hsilent, hserved, hraiseRequested, startService, applyServiceStart]
  · intro s c d hopcode
    simp +decide [applyCommand, hopcode, stopService, applyServiceStop]
  · intro s c d hopcode
    simp +decide [applyCommand, hopcode, applyPortEnable, driveLanes]
  · intro s c d hopcode
    simp +decide [applyCommand, hopcode, applyDeviceDoze]

/-- Settles O14. -/
theorem bootCounterRecordAndTime : Obligations.BootCounterRecordAndTime := by
  unfold Obligations.BootCounterRecordAndTime
  refine ⟨?_, ?_, ?_, ?_, ?_, ?_, ?_, ?_⟩
  · intro s hfast hcoilReady hmgtRunning hcounterDone hearly hmeasOf hmeasOf' hmeasOf''
    show execBootCounterIncrement s = _
    rw [execBootCounterIncrement, fast_runs _ hfast, if_pos (by simp [hcoilReady, hmgtRunning, hcounterDone]),
      deriveAlias_measured (s := { s with nv.bootCounter := s.nv.bootCounter + 1, brd.counterDone := true }) rfl hmeasOf hmeasOf' hmeasOf'']
    exact congrArg Host.Outcome.next (releaseEarly_none hearly)
  · intro s hfast hcoilReady hmgtRunning hcounterDone hearly hmeasOf
    show execBootCounterIncrement s = _
    rw [execBootCounterIncrement, fast_runs _ hfast, if_pos (by simp [hcoilReady, hmgtRunning, hcounterDone]),
      deriveAlias_unmeasured (s := { s with nv.bootCounter := s.nv.bootCounter + 1, brd.counterDone := true }) hmeasOf]
    exact congrArg Host.Outcome.next (releaseEarly_none hearly)
  · intro s hfast hsealReady hslotUndrained
    show execBootRecordSeal s = _
    simp [execBootRecordSeal, fast_runs _ hfast, hsealReady, hslotUndrained, placeFree, sealRecord, newRecord_pending, newRecord_counter, ringRecord, recSlots]
  · intro s hfast hsealReady hslotUndrained hpendingRec
    show execBootRecordSeal s = _
    simp [execBootRecordSeal, fast_runs _ hfast, hsealReady, hslotUndrained, hpendingRec, placeFree, sealRecord, newRecord_pending]
  · intro s r hfast hsealReady hslotUndrained hpendingRec
    show execBootRecordSeal s = _
    simp [execBootRecordSeal, fast_runs _ hfast, hsealReady, hslotUndrained, hpendingRec, placeFree]
  · intro s hfast hvalid hrecorded hcoilReady hsilent
    show execFailSilentCauseRecord s = _
    simp [execFailSilentCauseRecord, fast_runs _ hfast, hvalid, hrecorded, hcoilReady, hsilent]
  · intro s p d t w o hfast hpidVal hbit hd ht
    show execPtpSyncReceived p d t w o s = _
    simp [execPtpSyncReceived, fast_runs _ hfast, hpidVal, hbit, hd, ht, setWall]
  · intro s hfast hwallValid hpidVal
    show execPtpHoldoverExpiry s = _
    simp [execPtpHoldoverExpiry, fast_runs _ hfast, hwallValid, hpidVal]

end Sys2Proof.Machine
end

section
/-! PROOFS. PLEM rings: their registers and doorbells, the end of a ring, packets taken and commands started (R86 to R116). -/

namespace Sys2Proof.Machine

/-! ### One ring changed -/

/-- Two changes of one element. -/
theorem updAt_updAt {α : Type} (n : Nat) (f g : α → α) (l : List α) : updAt n f (updAt n g l) = updAt n (f ∘ g) l := by
  simp only [updAt_eq_modify, List.modify_modify_eq]

/-- The ring that is changed. -/
theorem ringOf_updRing_same {s : State} {n : Nat} (f : Ring → Ring) (h : n < s.plem.rings.length) :
    ringOf (updRing n f s) n = f (ringOf s n) := by
  simp [ringOf, updAt_eq_modify, h]

/-! ### The statements -/

/-- Settles O9. -/
theorem ringRegistersAndDoorbells : Obligations.RingRegistersAndDoorbells := by
  unfold Obligations.RingRegistersAndDoorbells
  refine ⟨?_, ?_, ?_, ?_, ?_, ?_, ?_, ?_, ?_, ?_, ?_, ?_, ?_, ?_, ?_, ?_, ?_, ?_⟩
  · intro s n v hfast hn hlinkUpC0 hringOf hbit h hfield
    show execPlmRingCfgWrite n v s = _
    simp [execPlmRingCfgWrite, fast_runs _ hfast, hn, hlinkUpC0, hringOf, hbit, Nat.not_lt.2 h, Nat.not_lt.2 hfield, ringCfgWrite]
  · intro s n v hfast hn hlinkUpC0 hringOf hbit h
    show execPlmRingCfgWrite n v s = _
    simp [execPlmRingCfgWrite, fast_runs _ hfast, hn, hlinkUpC0, hringOf, hbit, h, ringCfgWrite]
  · intro s n v hfast hn hlinkUpC0 hringOf hfield
    show execPlmRingCfgWrite n v s = _
    simp [execPlmRingCfgWrite, fast_runs _ hfast, hn, hlinkUpC0, hringOf, hfield, ringCfgWrite]
  · intro s n v hfast hn hlinkUpC0 hringOf hfield hbit
    show execPlmRingCfgWrite n v s = _
    simp [execPlmRingCfgWrite, fast_runs _ hfast, hn, hlinkUpC0, hringOf, hfield, hbit, ringCfgWrite]
  · intro s n v hfast hn hlinkUpC0 hdoze hfield
    show execPlmRsqTailDoorbell n v s = _
    simp [execPlmRsqTailDoorbell, fast_runs _ hfast, hn, hlinkUpC0, hdoze, Nat.not_le.2 hfield, tailDoorbell, doorbellWakes]
  · intro s n v hfast hn hlinkUpC0 hdoze h
    refine ⟨?_, ?_⟩
    · show execPlmRsqTailDoorbell n v s = _
      simp [execPlmRsqTailDoorbell, fast_runs _ hfast, hn, hlinkUpC0, h, tailDoorbell, doorbellWakes, hdoze]
    · show execPlmRcqHeadDoorbell n v s = _
      simp [execPlmRcqHeadDoorbell, fast_runs _ hfast, hn, hlinkUpC0, h, headDoorbell, doorbellWakes, hdoze]
  · intro s n v hfast hn hlinkUpC0 hdoze hfield
    show execPlmRsqTailDoorbell n v s = _
    simp only [execPlmRsqTailDoorbell, fast_runs _ hfast, if_pos (And.intro hn hlinkUpC0), tailDoorbell, doorbellWakes, if_pos hdoze]
    exact congrArg Host.Outcome.next (if_neg (Nat.not_le.2 hfield))
  · intro s n v hfast hn hlinkUpC0 hn' hdoze hfield hringOf
    show execPlmRcqHeadDoorbell n v s = _
    simp [execPlmRcqHeadDoorbell, fast_runs _ hfast, hn, hlinkUpC0, hn', hdoze, hringOf, Nat.not_le.2 hfield, headDoorbell, doorbellWakes, ringOf_updRing_same, releaseHeld]
  · intro s n hfast hn hringOf
    refine ⟨?_, ?_⟩
    · show execC0FetchFailure n s = _
      simp [execC0FetchFailure, fast_runs _ hfast, hn, hringOf, fetchFailed]
    · show execC0FetchTimeout n s = _
      simp [execC0FetchTimeout, fast_runs _ hfast, hn, hringOf, fetchFailed]
  · intro s n hfast
    show execNonceExpiry n s = _
    simp [execNonceExpiry, fast_runs _ hfast]
  · intro s n hfast hn hpidVal hringOf
    show execSessionIdleTimeout n s = _
    simp [execSessionIdleTimeout, fast_runs _ hfast, hn, hpidVal, hringOf]
  · intro s k e p b
    show execPlemOverMctp true k e p b s = _
    simp [execPlemOverMctp]
  · intro s k e p b hmctpAnswers hfullService
    show execPlemOverMctp false k e p b s = _
    simp [execPlemOverMctp, hmctpAnswers, hfullService]
  · intro s e p b hmctpAnswers hfullService
    show execPlemOverMctp false none e p b s = _
    simp [execPlemOverMctp, hmctpAnswers, hfullService]
  · intro s k n e p b hmctpAnswers hfullService hany hmctpRing
    show execPlemOverMctp false (some k) e p b s = _
    simp [execPlemOverMctp, hmctpAnswers, hfullService, hany, hmctpRing]
  · intro s n p b t hringOf hinternalTakes
    simp [internalArrive, hringOf, hinternalTakes]
  · intro s n p b t hinternalTakes hringOf
    simp [internalArrive, hinternalTakes, hringOf]
  · intro s n
    rw [closeRing, endSession]
    generalize dropStaging (ringOf s n).session s = t
    simp only [updRing, discardCmds, updAt_updAt, Function.comp_def]

/-- Settles O10. -/
theorem packetFetchChecksAndStart : Obligations.PacketFetchChecksAndStart := by
  unfold Obligations.PacketFetchChecksAndStart
  refine ⟨?_, ?_, ?_, ?_, ?_⟩
  · intro s n p b hfast hn hringOf hringOf' hlinkUpC0 htakesNone hrimStalls hplemRuns hringRunning
    show execPlemPacketFetch n p b s = _
    simp [execPlemPacketFetch, fast_runs _ hfast, hn, hringOf, hringOf', hlinkUpC0, htakesNone, hrimStalls, hplemRuns, hringRunning, Nat.not_le.2 hn]
  · intro s n e t hfast h hn hringOf hinternalTakes
    show execPlemPacketFetch n [] [] s = _
    simp [execPlemPacketFetch, fast_runs _ hfast, h, hn, hringOf, hinternalTakes, internalFetch]
  · intro s n p b hn hearlyStages hlateStages hnumAt hnumAt'
    simp [takePacket, hearlyStages, hlateStages, hnumAt, hnumAt', Nat.not_le.2 hn, takePacket, orElse]
  · intro s n p b f o hn hearlyStages hopSpec haudited
    simp [takePacket, hearlyStages, hopSpec, haudited, Nat.not_le.2 hn, takePacket, orElse]
  · intro s n c hfast hstartable hplemRuns hringRunning hfilter hcipherRoom hcplFull hringOf
    show execPlemCommandStart n s = _
    simp [execPlemCommandStart, fast_runs _ hfast, hstartable, hplemRuns, hringRunning, hfilter, hcipherRoom, hcplFull, hringOf]

end Sys2Proof.Machine
end

section
/-! PROOFS. SPDM: negotiation, attestation and secured sessions (R77, R104, R106, R148, R149). -/

namespace Sys2Proof.Machine

/-! ### When a request is heard -/

theorem spdmGate_full {s : State} {k : State → Result} (hmctp : mctpAnswers s = true) (hfull : fullService s = true) :
    spdmGate s k = k s := by
  simp [spdmGate, hmctp, hfull]

/-- ResponseNotReady until full service (R77). -/
theorem spdmGate_early {s : State} {k : State → Result} (hmctp : mctpAnswers s = true) (hfull : fullService s = false) :
    spdmGate s k = .next (sendMctp (.spdmError 0x42) s) := by
  simp [spdmGate, hmctp, hfull]

theorem spdmReady_runs {s : State} {k : State → Result} (hmctp : mctpAnswers s = true) (hfull : fullService s = true)
    (halgs : s.brd.spdmAlgs = true) : spdmReady s k = k s := by
  rw [spdmReady, spdmGate_full hmctp hfull, if_pos halgs]

theorem spdmAlias_runs {s : State} {k : State → Result} (hmctp : mctpAnswers s = true) (hfull : fullService s = true)
    (halgs : s.brd.spdmAlgs = true) (halias : s.brd.aliasReady = true) : spdmAlias s k = k s := by
  rw [spdmAlias, spdmReady_runs hmctp hfull halgs, if_pos halias]

/-- A response of at most DataTransferSize bytes is sent whole (Table 05-11). -/
theorem spdmRespond_whole {s : State} {code : Nat} {bytes : List Byte} (h : bytes.length ≤ 4096) :
    spdmRespond code bytes s = sendMctp (.spdm code bytes) s := if_pos h

/-- Settles O11. -/
theorem spdmNegotiationAndAttestation : Obligations.SpdmNegotiationAndAttestation := by
  unfold Obligations.SpdmNegotiationAndAttestation
  refine ⟨?_, ?_, ?_, ?_, ?_, ?_, ?_, ?_, ?_, ?_, ?_, ?_, ?_, ?_, ?_, ?_, ?_, ?_⟩
  · intro s hmctpAnswers hfullService
    show execGetVersion s = _
    rw [execGetVersion, spdmGate_full hmctpAnswers hfullService, spdmRespond_whole (by simp)]
  · intro s hmctpAnswers hfullService hspdmVersion
    show execGetCapabilities s = _
    rw [execGetCapabilities, spdmGate_full hmctpAnswers hfullService, if_pos hspdmVersion, spdmRespond_whole (by simp [leBytes])]
  · intro s hmctpAnswers hfullService hspdmCaps
    refine ⟨?_, ?_⟩
    · show execNegotiateAlgorithms true s = _
      simp [execNegotiateAlgorithms, hspdmCaps, spdmGate_full hmctpAnswers hfullService]
    · show execNegotiateAlgorithms false s = _
      simp [execNegotiateAlgorithms, hspdmCaps, spdmGate_full hmctpAnswers hfullService]
  · intro s hmctpAnswers hfullService hspdmAlgs haliasReady
    show execGetDigests s = _
    rw [execGetDigests, spdmAlias_runs hmctpAnswers hfullService hspdmAlgs haliasReady, spdmRespond_whole (by simp [Config.sha384])]
  · intro s off n hmctpAnswers hfullService hspdmAlgs haliasReady
    show execGetCertificate 0 off n s = _
    rw [execGetCertificate, spdmAlias_runs hmctpAnswers hfullService hspdmAlgs haliasReady]
    by_cases h : off < (certChain s).length
    · rw [if_pos h, if_neg (by simpa using h)]
    · rw [if_neg h, if_pos (.inr (Nat.not_lt.1 h))]
  · intro s nonce hmctpAnswers hfullService hspdmAlgs haliasReady
    show execChallenge 0 nonce s = _
    simp [execChallenge, spdmAlias_runs hmctpAnswers hfullService hspdmAlgs haliasReady]
  · intro s i h hmctpAnswers hfullService hspdmAlgs hi hmeasurementAt
    show execGetMeasurements i s = _
    simp [execGetMeasurements, hi, hmeasurementAt, spdmReady_runs hmctpAnswers hfullService hspdmAlgs]
  · intro s i hmctpAnswers hfullService hspdmAlgs hi hmeasurementAt
    show execGetMeasurements i s = _
    simp [execGetMeasurements, hi, hmeasurementAt, spdmReady_runs hmctpAnswers hfullService hspdmAlgs]
  · intro s h k b hmctpAnswers hfullService hfind h'
    show execChunkGet h k s = _
    have hpart : ((b.drop (4096 * k)).take 4096) ≠ [] := by
      simp only [ne_eq, List.take_eq_nil_iff, List.drop_eq_nil_iff]
      omega
    simp only [execChunkGet, spdmGate_full hmctpAnswers hfullService, hfind, if_neg hpart, decide_eq_true_eq, if_neg (Nat.not_le.2 h')]
  · intro s k hmctpAnswers hfullService
    show execSpdmUnsupportedRequest k s = _
    simp [execSpdmUnsupportedRequest, spdmGate_full hmctpAnswers hfullService]
  · intro s k hmctpAnswers hfullService
    refine ⟨?_, ?_⟩
    · show execSpdmUnsupportedRequest k s = _
      simp [execSpdmUnsupportedRequest, spdmGate_early hmctpAnswers hfullService]
    · show execGetVersion s = _
      simp [execGetVersion, spdmGate_early hmctpAnswers hfullService]
  · intro s code b
    rfl
  · intro s hmctpAnswers hfullService hspdmAlgs haliasReady hlength
    show execKeyExchange 0 s = _
    simp [execKeyExchange, hspdmAlgs, haliasReady, Nat.not_le.2 hlength, spdmAlias_runs hmctpAnswers hfullService hspdmAlgs haliasReady]
  · intro s hmctpAnswers hfullService hspdmAlgs haliasReady h
    show execKeyExchange 0 s = _
    simp [execKeyExchange, h, spdmAlias_runs hmctpAnswers hfullService hspdmAlgs haliasReady]
  · intro s k hmctpAnswers hfullService hspdmAlgs hany
    refine ⟨?_, ?_⟩
    · show execFinish k true s = _
      simp [execFinish, hspdmAlgs, hany, spdmReady_runs hmctpAnswers hfullService hspdmAlgs, spdmRespond_whole]
    · show execFinish k false s = _
      simp [execFinish, hany, spdmReady_runs hmctpAnswers hfullService hspdmAlgs]
  · intro s k hmctpAnswers hfullService hspdmUp
    refine ⟨?_, ?_, ?_⟩
    · show execHeartbeat k s = _
      simp [execHeartbeat, hspdmUp, spdmGate_full hmctpAnswers hfullService, spdmRespond_whole]
    · show execKeyUpdate k s = _
      simp [execKeyUpdate, hspdmUp, spdmGate_full hmctpAnswers hfullService, spdmRespond_whole]
    · show execEndSession k s = _
      simp [execEndSession, hspdmUp, spdmGate_full hmctpAnswers hfullService, spdmRespond_whole]
  · intro s k hringOf hringOf'
    simp [dropSpdm, hringOf, hringOf']
  · intro s k hringOf hringOf'
    simp [dropSpdm, hringOf, hringOf']

end Sys2Proof.Machine
end

section
/-! PROOFS. Parameters and BAR0 registers (R35, R118 to R120, R540 to R548). -/

namespace Sys2Proof.Machine

/-! ### Parameters -/

theorem setParams_changed {s : State} {c : Cmd} (hrefusal : entriesRefusal (paramEntries c) 0 s = none)
    (hchanged : ((paramEntries c).all fun e => pidRead s e.1 == e.2 && !(e.1 == 0x0420 && s.hfe.pwrEntry.isSome)) = false) :
    setParams s c = done := by
  simp only [setParams, hrefusal, hchanged, Bool.false_eq_true, if_false]

/-! ### Register reads -/

theorem barRead_plain {s : State} {off : Nat} (h : winOffset off = none) :
    barRead off s = readEffect off (emit (.regRead off (BitVec.ofNat 32 (readValue s off))) s) := by
  simp [barRead, h]

/-- A window register is read behind the writes that the audit port has taken (R35). -/
theorem barRead_window {s : State} {off n k : Nat} (h : winOffset off = some (n, k)) :
    barRead off s = readEffect off
      (emit (.regRead off (BitVec.ofNat 32 (readValue { s with ham.win := (portDrained s).ham.win } off))) s) := by
  simp [barRead, h]

theorem regAt_refused : regAt 0x40004 = some { first := 0x40004, stride := 4, count := 1, kind := .rc } := by decide +kernel

theorem regAt_bootCounter : regAt 0x40018 = some { first := 0x40018, stride := 8, count := 1, kind := .ro, half := 1 } := by
  decide +kernel

theorem regAt_bootCounterHi : regAt 0x4001C = some { first := 0x4001C, stride := 8, count := 1, kind := .ro, half := 2 } := by
  decide +kernel

theorem regAt_rlkEntrySts : regAt 0x70024 = some { first := 0x70024, stride := 4, count := 2, kind := .ro } := by decide +kernel

theorem regAt_rmaConnSts : regAt 0x80034 = some { first := 0x80034, stride := 4, count := 1, kind := .ro } := by decide +kernel

theorem regAt_cipSlotSts : regAt 0xA0024 = some { first := 0xA0024, stride := 4, count := 1, kind := .ro } := by decide +kernel

/-! ### Register writes -/

theorem regAt_tagSel : regAt 0x60020 = some { first := 0x60020, stride := 4, count := 1, kind := .rw } := by decide +kernel

theorem regAt_winSts : regAt 0xC0000 = some { first := 0xC0000, stride := 4, count := 1, kind := .w1c } := by decide +kernel

/-- A write to an entry that is fixed, or once the configuration is sealed, does nothing (R21, R544). -/
theorem winDirect_locked {s : State} {n k v requester : Nat} (h : s.boot.cfgSealed = true ∨ winFixed s n = true) :
    winDirect n k v requester s = s := by
  rcases h with h | h <;> simp [winDirect, h]

/-! ### The statements -/

/-- Settles O17. -/
theorem parameterCommands : Obligations.ParameterCommands := by
  unfold Obligations.ParameterCommands
  refine ⟨?_, ?_, ?_, ?_, ?_, ?_, ?_, ?_⟩
  · intro s ring seq c hfast hc hpidWidth
    show execGetParam ring seq s = _
    simp [execGetParam, fast_runs _ hfast, plainOp_runs hc, getParam, hpidWidth]
  · intro s ring seq c hfast hc hpidWidth
    show execGetParam ring seq s = _
    simp [execGetParam, fast_runs _ hfast, plainOp_runs hc, getParam, hpidWidth]
  · intro s ring seq c hfast hc hport hpidWidth hpidRefusal hpidRead
    show execSetParam ring seq s = _
    simp [execSetParam, fast_runs _ hfast, auditedOp_taken hc hport, setParam, hpidWidth, hpidRefusal, hpidRead]
  · intro s ring seq c hfast hc hport hpidWidth hpk hpidRefusal hpidRead
    show execSetParam ring seq s = _
    simp [execSetParam, fast_runs _ hfast, auditedOp_taken hc hport, setParam, hpidWidth, hpk, hpidRefusal, hpidRead]
  · intro s ring seq c hfast hc hport hpidWidth hpidLocked
    show execSetParam ring seq s = _
    simp [execSetParam, fast_runs _ hfast, auditedOp_taken hc hport, setParam, hpidWidth, hpidLocked, pidRefusal]
  · intro s ring seq c hfast hc hport hentriesRefusal hparamEntries
    show execSetParams ring seq s = _
    rw [execSetParams, fast_runs _ hfast, auditedOp_taken hc hport, setParams_changed hentriesRefusal hparamEntries]
    simp
  · intro s c d p v hopcode hpowerAsked hnums hp hloopPid hp' hp'' hp''' hp'''' hp'''''
    have hwin : ¬ (0x0300 ≤ p ∧ p < 0x0320) := by omega
    simp +decide [applyCommand, hopcode, hpowerAsked, hnums, applySetParam, applyPid, if_neg hwin, hloopPid, hp', hp'', hp''', hp'''', hp''''']
  · intro s c d hopcode
    simp +decide [applyCommand, hopcode, applySetParams]

/-- Settles O18. -/
theorem registerReadsAndWrites : Obligations.RegisterReadsAndWrites := by
  unfold Obligations.RegisterReadsAndWrites
  refine ⟨?_, ?_, ?_, ?_, ?_, ?_, ?_, ?_, ?_, ?_, ?_⟩
  · intro s off hfast hoff hwinOffset
    refine ⟨?_, ?_⟩
    · show execRcRegisterRead off s = _
      simp [execRcRegisterRead, fast_runs _ hfast, hoff, barRead_plain hwinOffset]
    · show execLoRegisterRead off s = _
      simp [execLoRegisterRead, fast_runs _ hfast, hoff, barRead_plain hwinOffset]
  · intro s off n k hfast hoff hwinOffset
    refine ⟨?_, ?_⟩
    · show execRcRegisterRead off s = _
      simp [execRcRegisterRead, fast_runs _ hfast, hoff, barRead_window hwinOffset]
    · show execLoRegisterRead off s = _
      simp [execLoRegisterRead, fast_runs _ hfast, hoff, barRead_window hwinOffset]
  · intro s hfast hfind
    show execRcRegisterRead 0x40004 s = _
    simp [execRcRegisterRead, fast_runs _ hfast, hfind, barRead_plain, winOffset, readValue, regValue, isReg, regAt_refused, readBrd, readEffect, clearRc, clearHost]
  · intro s hfast hfind
    show execLoRegisterRead 0x40018 s = _
    simp [execLoRegisterRead, fast_runs _ hfast, hfind, barRead_plain, winOffset, readValue, regValue, isReg, regAt_bootCounter, regAt_bootCounterHi, readBrd, readEffect, captureHi, halfOf]
  · intro s hfast
    refine ⟨?_, ?_, ?_⟩
    · show execRlkEntryStsRead s = _
      simp [execRlkEntryStsRead, fast_runs _ hfast, barRead_plain, winOffset]
    · show execRmaConnStsRead s = _
      simp [execRmaConnStsRead, fast_runs _ hfast, barRead_plain, winOffset]
    · show execCipSlotStsRead s = _
      simp [execCipSlotStsRead, fast_runs _ hfast, barRead_plain, winOffset]
  · intro s
    simp [readEffect, regAt_rlkEntrySts, regAt_rmaConnSts, regAt_cipSlotSts]
  · intro s v hfast
    refine ⟨?_, ?_, ?_⟩
    · show execRlkSelWrite v s = _
      simp [execRlkSelWrite, fast_runs _ hfast, writeSelector]
    · show execRmaConnSelWrite v s = _
      simp [execRmaConnSelWrite, fast_runs _ hfast, writeSelector]
    · show execCipSlotSelWrite v s = _
      simp [execCipSlotSelWrite, fast_runs _ hfast, writeSelector]
  · intro s v hfast
    refine ⟨?_, ?_⟩
    · show execHamViolSrcWrite v s = _
      simp [execHamViolSrcWrite, fast_runs _ hfast, writePlain]
    · show execColViolAddrWrite v s = _
      simp [execColViolAddrWrite, fast_runs _ hfast, writePlain]
  · intro s off v hfast hregKind
    show execRegisterWrite off v s = _
    rcases hregKind with h | h | h <;> simp [execRegisterWrite, fast_runs _ hfast, regWrite, h]
  · intro s v hfast
    refine ⟨?_, ?_⟩
    · show execRegisterWrite 0x60020 v s = _
      simp [execRegisterWrite, fast_runs _ hfast, regWrite, regKind, regAt_tagSel, writePlain]
    · show execRegisterWrite 0xC0000 v s = _
      simp [execRegisterWrite, fast_runs _ hfast, regWrite, regKind, regAt_winSts, writePlain]
  · intro s hfast
    refine ⟨?_, ?_⟩
    · show execBar0MalformedRequest true s = _
      simp [execBar0MalformedRequest, fast_runs _ hfast]
    · show execBar0MalformedRequest false s = _
      simp [execBar0MalformedRequest, fast_runs _ hfast]

/-- Settles O19. -/
theorem regReadAndRegWriteCommands : Obligations.RegReadAndRegWriteCommands := by
  unfold Obligations.RegReadAndRegWriteCommands
  refine ⟨?_, ?_, ?_, ?_, ?_, ?_, ?_, ?_, ?_, ?_, ?_⟩
  · intro s ring seq c hfast hc
    show execRegRead ring seq s = _
    simp [execRegRead, fast_runs _ hfast, plainOp_runs hc, regReadDecision]
  · intro s ring seq c hfast hc hport hregKind hwinOffset
    show execRegWrite ring seq s = _
    simp [execRegWrite, fast_runs _ hfast, auditedOp_taken hc hport, regWriteDecision, hregKind, hwinOffset]
  · intro s ring seq c hfast hc hport hregKind
    show execRegWrite ring seq s = _
    rcases hregKind with h | h <;>
      simp [execRegWrite, fast_runs _ hfast, auditedOp_taken hc hport, regWriteDecision, h]
  · intro s ring seq c n r hfast hc hport hregKind hwinOffset hcfgSealed
    show execRegWrite ring seq s = _
    simp [execRegWrite, fast_runs _ hfast, auditedOp_taken hc hport, regWriteDecision, hregKind, hwinOffset, hcfgSealed]
  · intro s c d off v n k hopcode hnums hwinOffset
    simp +decide [applyCommand, hopcode, hnums, hwinOffset, applyRegWrite]
  · intro s c d off v hopcode hnums hwinOffset
    simp +decide [applyCommand, hopcode, hnums, hwinOffset, applyRegWrite]
  · intro s n req v hfast hcfgSealed hwinFixed hn
    show execHamWinBaseWrite n v req s = _
    simp [execHamWinBaseWrite, fast_runs _ hfast, hcfgSealed, hwinFixed, Nat.not_le.2 hn, winDirect]
  · intro s n req v hfast hcfgSealed hwinFixed hn
    show execHamWinSizeWrite n v req s = _
    simp [execHamWinSizeWrite, fast_runs _ hfast, hcfgSealed, hwinFixed, Nat.not_le.2 hn, winDirect]
  · intro s n req v hfast hcfgSealed hwinFixed hn
    show execHamWinAccWrite n v req s = _
    simp [execHamWinAccWrite, fast_runs _ hfast, hcfgSealed, hwinFixed, Nat.not_le.2 hn, winDirect]
  · intro s off v req n k rest hfast hportRuns hport hwinOffset hcfgSealed hwinFixed hwinBreach
    show execAuditEntryDurable s = _
    simp [execAuditEntryDurable, fast_runs _ hfast, hportRuns, hport, hwinOffset, hcfgSealed, hwinFixed, hwinBreach, windowDurable]
  · intro s n req v hfast hcfgSealed
    refine ⟨?_, ?_, ?_⟩
    · show execHamWinBaseWrite n v req s = _
      simp [execHamWinBaseWrite, fast_runs _ hfast, winDirect_locked hcfgSealed]
    · show execHamWinSizeWrite n v req s = _
      simp [execHamWinSizeWrite, fast_runs _ hfast, winDirect_locked hcfgSealed]
    · show execHamWinAccWrite n v req s = _
      simp [execHamWinAccWrite, fast_runs _ hfast, winDirect_locked hcfgSealed]

end Sys2Proof.Machine
end

section
/-! PROOFS. The event recorder, the cipher requests and the key commands (R303 to R321, R523 to R538). -/

namespace Sys2Proof.Machine

/-- A cipher operation has the mode that its packet names. -/
theorem cipherOpReq_mode (c : Cmd) (input : List Byte) : (cipherOpReq c input).mode = pk c 26 1 := rfl

/-- A message between paired heads is obeyed (R437). -/
theorem fromPeer_paired {s : State} {k : State → Result} (hpaired : s.hdl.paired = true) (hbridge : s.hdl.bridge = false) :
    fromPeer s k = k s := by
  simp [fromPeer, hpaired, hbridge]

/-- Settles O21. -/
theorem eventRecorderCommands : Obligations.EventRecorderCommands := by
  unfold Obligations.EventRecorderCommands
  refine ⟨?_, ?_, ?_, ?_, ?_, ?_, ?_, ?_⟩
  · intro s c v hfast hcontains
    show execEventNotice c v s = _
    rw [execEventNotice, fast_runs _ hfast, if_pos hcontains]
  · intro s c v hfast hcontains
    show execEventNotice c v s = _
    simp only [execEventNotice, fast_runs _ hfast, hcontains, Bool.false_eq_true, if_false]
  · intro s hfast hpidVal hfilter
    show execEpochEnd s = _
    simp [execEpochEnd, fast_runs _ hfast, hpidVal, hfilter]
  · intro s hfast hcoilReady hcoilWait hevrRecs hheldRecs
    show execStartMarker s = _
    simp [execStartMarker, fast_runs _ hfast, hcoilReady, hcoilWait, hevrRecs, hheldRecs, countIf, evrCap]
    rfl
  · intro s ring seq c hfast hc hpk
    show execEvrRead ring seq s = _
    simp [execEvrRead, fast_runs _ hfast, plainOp_runs hc, evrRead, hpk]
  · intro s ring seq c hfast hc hport hpk h
    show execEvrClear ring seq s = _
    simp [execEvrClear, fast_runs _ hfast, auditedOp_taken hc hport, evrClear, Nat.not_lt.2 hpk, Nat.pos_iff_ne_zero.1 h]
  · intro s ring seq c hfast hc hport hlength
    show execEvrClear ring seq s = _
    simp [execEvrClear, fast_runs _ hfast, auditedOp_taken hc hport, evrClear, hlength]
  · intro s c d n hopcode hnums
    simp +decide [applyCommand, hopcode, hnums, applyEvrClear]

/-- Settles O22. -/
theorem cipherRequestsAndOperations : Obligations.CipherRequestsAndOperations := by
  unfold Obligations.CipherRequestsAndOperations
  refine ⟨?_, ?_, ?_, ?_, ?_, ?_⟩
  · intro s qn sl m fl len al src dst ivb data aad x out hfast hdoze hsilent hslotOf hm hmodeAllowed hoverLimit hcipherLength hsrc hlen hout
    show execLookasideRequest qn sl m fl len al ivb src dst data aad false s = _
    simp [execLookasideRequest, engine_runs _ hfast hsilent hdoze, hslotOf, hm, hmodeAllowed, hoverLimit, hcipherLength, hsrc, hout, Nat.not_lt.2 hlen, hsilent, lookasideIn, lookasideOut, runCipher]
  · intro s qn sl m fl len al src dst ivb data aad hfast hdoze hsilent hslotOf
    show execLookasideRequest qn sl m fl len al ivb src dst data aad false s = _
    simp [execLookasideRequest, engine_runs _ hfast hsilent hdoze, hslotOf, hsilent]
  · intro s qn sl m fl len al src dst ivb data aad x hfast hdoze hsilent hslotOf hmodeAllowed
    show execLookasideRequest qn sl m fl len al ivb src dst data aad false s = _
    simp [execLookasideRequest, engine_runs _ hfast hsilent hdoze, hslotOf, hmodeAllowed, hsilent]
  · intro s ring seq c inp x hfast hc hcipherOpRefusal hslotOf husageLimit hpk
    show execCipherOp ring seq inp s = _
    simp [execCipherOp, fast_runs _ hfast, hc, hcipherOpRefusal, hslotOf, husageLimit, hpk, runCipher, cipherOpReq_mode]
  · intro s ring seq c inp hfast hc hpk hslotOf
    show execCipherOp ring seq inp s = _
    simp [execCipherOp, fast_runs _ hfast, hc, hpk, hslotOf, cipherOpRefusal, cipherOpReq_mode]
  · intro s hfast
    refine ⟨?_, ?_⟩
    · show execDrbgReseed s = _
      simp [execDrbgReseed, fast_runs _ hfast]
    · show execEntropyHealthFail s = _
      simp [execEntropyHealthFail, fast_runs _ hfast]

/-- Settles O23. -/
theorem keyCommands : Obligations.KeyCommands := by
  unfold Obligations.KeyCommands
  refine ⟨?_, ?_, ?_, ?_, ?_, ?_, ?_, ?_, ?_, ?_, ?_, ?_, ?_, ?_, ?_, ?_⟩
  · intro s ring seq c hfast hc hport hawaitsKey hpk hslotOf hpk' htableFull
    show execKeyGenerate ring seq s = _
    simp [execKeyGenerate, fast_runs _ hfast, hc, hport, hawaitsKey, hpk, hslotOf, hpk', htableFull, takeDecision, keyGenerate, drewKey, keyDraw]
  · intro s ring seq c hfast hc hport hawaitsKey hpk hslotOf
    show execKeyGenerate ring seq s = _
    simp [execKeyGenerate, fast_runs _ hfast, hc, hport, hawaitsKey, hpk, hslotOf, takeDecision, keyGenerate, drewKey, keyDraw]
  · intro s ring seq c hfast hc hport hpk hnumAt
    show execKeyLoad ring seq s = _
    simp [execKeyLoad, fast_runs _ hfast, auditedOp_taken hc hport, keyLoad, hpk, hnumAt]
  · intro s ring seq c hfast hc hport
    show execKeyLoad ring seq s = _
    simp [execKeyLoad, fast_runs _ hfast, auditedOp_taken hc hport, keyLoad]
  · intro s c b kcv hblock hlength hpk hnumAt hnumAt' h hnumAt'' hnumAt''' hallZero hkcv husageEntry
    subst hkcv
    simp [keyLoad, hblock, hlength, hpk, hnumAt, hnumAt', Nat.one_le_iff_ne_zero.1 h, Nat.not_lt.2 hnumAt'', Nat.not_le.2 hnumAt''',
      hallZero, unwrapKey, husageEntry] <;> rfl
  · intro s ring seq c hfast hc hport hawaitsKey hpk
    show execKeyExport ring seq s = _
    simp [execKeyExport, fast_runs _ hfast, hc, hport, hawaitsKey, hpk, takeDecision]
  · intro s c x k hslotOf hbit husage hslotOf' husage' h
    simp [keyExport, hslotOf, hbit, husage, hslotOf', husage', Nat.not_lt.2 h]
  · intro s c hslotOf
    simp [keyExport, hslotOf, keyDestroy]
  · intro s ring seq c x hfast hc hport hslotOf
    show execKeyDestroy ring seq s = _
    simp [execKeyDestroy, fast_runs _ hfast, auditedOp_taken hc hport, keyDestroy, hslotOf]
  · intro s ring seq c hfast hc hpk
    show execKeyQuery ring seq s = _
    simp [execKeyQuery, fast_runs _ hfast, plainOp_runs hc, keyQuery, hpk]
  · intro s kcv k hfast hpaired hbridge hawk
    show execKeyXfer kcv s = _
    simp only [execKeyXfer, fast_runs _ hfast, fromPeer_paired hpaired hbridge, hawk]
    split <;> rfl
  · intro s c d n a z hopcode hnums
    simp +decide [applyCommand, hopcode, hnums, applyKeyGenerate]
  · intro s c d n u a z hopcode hnums hu
    simp +decide [applyCommand, hopcode, hnums, hu, applyKeyLoad, applyKeyGenerate]
  · intro s n u a z k hfind husageLimit
    cases hentry : usageEntry s (kcvOf k) s.aon.side <;> simp [installKey, hfind, husageLimit, hentry]
  · intro s kcv
    exact ⟨rfl, rfl, rfl, rfl⟩
  · intro s c d hopcode hnums
    simp +decide [applyCommand, hopcode, hnums, applyKeyDestroy]

end Sys2Proof.Machine
end

section
/-! PROOFS. Volumes, snapshots, clones and domains: how they are decided and what they do (R205 to R209, R258 to R289); replication commands (R245 to R254). -/

namespace Sys2Proof.Machine

/-! ### Operations that commit in Coil -/

section
variable {s : State} {ring seq op : Nat} {c : Cmd} {decision : State → Cmd → Decision} {needs : State → Cmd → List LockNeed}
  {d : Decision}

/-- The Handle holder, with nothing else in the port or at the end of Coil, decides an operation; an authority decision only while no
transfer runs and the peer is not severed (R455, R457). -/
theorem coilOp_decides (hc : opCmd s ring seq op = some c) (hholder : s.hdl.holder = true) (hport : s.brd.port = [])
    (hends : s.col.ends = []) (hop : authorityOp op = false ∨ (s.hdl.transfer = none ∧ s.hdl.severed = false)) :
    coilOp op decision needs ring seq s = coilStage6 c decision needs s ∧
      ¬ (s.brd.port ≠ [] ∨ s.col.ends ≠ [] ∨ ((s.hdl.transfer.isSome ∨ s.hdl.severed) ∧ authorityOp c.opcode)) := by
  obtain ⟨-, -, -, hopcode, -, -⟩ := opCmd_found hc
  refine ⟨by simp [coilOp, hc, carryOr, hholder], ?_⟩
  rcases hop with hop | ⟨htransfer, hsevered⟩
  · simp [hport, hends, hopcode, hop]
  · simp [hport, hends, htransfer, hsevered]

/-- A refusal releases what the command holds (Table 08-2). -/
theorem coilOp_refused (hc : opCmd s ring seq op = some c) (hholder : s.hdl.holder = true) (hport : s.brd.port = [])
    (hends : s.col.ends = []) (hop : authorityOp op = false ∨ (s.hdl.transfer = none ∧ s.hdl.severed = false)) (hd : decision s c = d) 
    (hfail : isSuccess d.status = false ∨ d.status = stOkNochange) :
    coilOp op decision needs ring seq s =
      .next (settle true (releaseLock (.plem c.ring c.seq) (markTaken c { s with brd.port := [.command c d] }))) := by
  obtain ⟨hrun, hwait⟩ := coilOp_decides (decision := decision) (needs := needs) hc hholder hport hends hop
  rw [hrun, coilStage6, if_neg hwait]
  rcases hfail with hfail | hfail <;> simp [coilRefusal, hd, hfail, hport, takeDecision]

/-- An operation that takes no lock goes to the port with the next arrival number (R113). -/
theorem coilOp_unlocked (hc : opCmd s ring seq op = some c) (hholder : s.hdl.holder = true) (hport : s.brd.port = [])
    (hends : s.col.ends = []) (hop : authorityOp op = false ∨ (s.hdl.transfer = none ∧ s.hdl.severed = false)) (hpolicy : policyRefuses s = false) (hd : decision s c = d)
    (hdone : d.status = 0) (hneeds : needs s c = []) (hown : peerNumbers s (opVolumes op d.nums) = false) :
    coilOp op decision needs ring seq s = .next (markTaken c { numberVolumes (opVolumes op d.nums) s with
      brd.port := [.command c { d with arrival := s.hfe.arrival }] }) := by
  obtain ⟨hrun, hwait⟩ := coilOp_decides (decision := decision) (needs := needs) hc hholder hport hends hop
  obtain ⟨-, -, -, hopcode, -, -⟩ := opCmd_found hc
  rw [hrun, coilStage6, if_neg hwait]
  simp [hport, hopcode, coilRefusal, hd, hdone, hpolicy, hneeds, hown, takeDecision, numberVolumes,
    takeArrival, stOkNochange, show isSuccess 0 = true from rfl]

/-- Of a volume that the peer owns the arrival number is a free value (log 108). -/
theorem coilOp_away (hc : opCmd s ring seq op = some c) (hholder : s.hdl.holder = true) (hport : s.brd.port = [])
    (hends : s.col.ends = []) (hop : authorityOp op = false ∨ (s.hdl.transfer = none ∧ s.hdl.severed = false)) (hpolicy : policyRefuses s = false) (hd : decision s c = d)
    (hdone : d.status = 0) (hneeds : ∀ t, needs t c = []) (haway : peerNumbers s (opVolumes op d.nums) = true) :
    coilOp op decision needs ring seq s = .next (markTaken c { s with
      free := s.free + 1, brd.port := [.command c { d with arrival := (Config.freeValue s.free).toNat }] }) := by
  obtain ⟨hrun, hwait⟩ := coilOp_decides (decision := decision) (needs := needs) hc hholder hport hends hop
  obtain ⟨-, -, -, hopcode, -, -⟩ := opCmd_found hc
  rw [hrun, coilStage6, if_neg hwait]
  simp [hport, hopcode, coilRefusal, hd, hdone, hpolicy, hneeds, haway, takeDecision, drewFree, stOkNochange,
    show isSuccess 0 = true from rfl]

/-- An operation takes its range locks and goes to the port once all of them are granted (R205, R208). -/
theorem coilOp_locks {l : List LockNeed} {t : State} (hc : opCmd s ring seq op = some c) (hholder : s.hdl.holder = true)
    (hport : s.brd.port = []) (hends : s.col.ends = []) (hop : authorityOp op = false ∨ (s.hdl.transfer = none ∧ s.hdl.severed = false)) (hpolicy : policyRefuses s = false)
    (hd : decision s c = d) (hdone : d.status = 0) (hneeds : needs s c = l) (hl : l ≠ [])
    (hvols : peerNumbers s (opVolumes op d.nums) = false) (hown : peerNumbers s (l.map (·.1)) = false)
    (hnone : locksOf s (.plem c.ring c.seq) = []) (hplem : plemLocks s + l.length ≤ 256) (hroom : s.rlk.locks.length + l.length ≤ 65536)
    (ht : t = settle true (addNeeds (.plem c.ring c.seq) l s)) :
    coilOp op decision needs ring seq s = .next (if (locksOf t (.plem c.ring c.seq)).all (·.granted) then
      markTaken c { t with brd.port := t.brd.port ++ [.command c
        { d with arrival := ((locksOf t (.plem c.ring c.seq)).head?.map (·.arrival)).getD 0 }] }
      else t) := by
  obtain ⟨hrun, hwait⟩ := coilOp_decides (decision := decision) (needs := needs) hc hholder hport hends hop
  obtain ⟨-, -, -, hopcode, -, -⟩ := opCmd_found hc
  have haway : peerNumbers s (opVolumes op d.nums ++ l.map (·.1)) = false := by
    rw [peerNumbers, List.any_append]
    exact Bool.or_eq_false_iff.2 ⟨hvols, hown⟩
  have hfilter : (l.filter fun n => !peerNumbers s [n.1]) = l := by
    refine List.filter_eq_self.2 fun n hn => ?_
    have := List.any_eq_false.1 hown n.1 (List.mem_map_of_mem hn)
    simpa [peerNumbers] using this
  rw [hrun, coilStage6, if_neg hwait]
  simp only [hopcode, coilRefusal, hd, hdone, hpolicy, stOkNochange, show isSuccess 0 = true from rfl,
    hneeds, haway, hfilter, hl, hnone, lockRoom, hplem, hroom, ← ht, Bool.false_eq_true, 
    if_false, decide_true, Bool.and_true, Bool.and_false, Bool.not_true, Bool.or_false, if_true, Nat.reduceBEq]
  cases hall : (locksOf t (.plem c.ring c.seq)).all (·.granted)
  · simp
  · cases locksOf t (.plem c.ring c.seq) <;> simp [takeDecision]

end

/-- A successful operation that commits in Coil, below the near-full threshold: its entry, then its records, at whose commit the
command ends (R134, R209). -/
theorem commandDurable_coil {s : State} {c : Cmd} {d : Decision} (hhere : carriedHere c = false) (htier : cmdTier s c = true)
    (hok : isSuccess d.status = true) (hchange : d.status ≠ stOkNochange) (hstarted : d.started = false) (hcarried : d.carried = false)
    (hcoil : commitsInCoil c.opcode = true) (hdomain : c.opcode ≠ opDomainCreate) (hcross : crossesNear s = false)
    (hsilent : s.saf.failSilent = false) :
    commandDurable c d s =
      (let t1 := { s with nv.chain := s.nv.chain ++ [{ commandEntry s c d.status d.detail (entrySession c) false with prevHash := lastHash s }] }
       let out := outputOf c d t1
       appendCommand c d { t1 with col.ends := t1.col.ends ++ [{ body := opBody c d, cmd := c, pkt := { statusOf c d.status d.detail d.result (out != []) t1 with audited := true, auditSeq := s.nv.chain.length % 2 ^ 32 }, addr := (outputAt c).getD 0, output := out }] }) := by
  have htime : c.opcode ≠ opSetTime := fun h => absurd (h ▸ hcoil) (by decide)
  have hopen : c.opcode ≠ opSessionOpen := fun h => absurd (h ▸ hcoil) (by decide)
  simp [commandDurable, hhere, htier, hok, hcarried, hstarted, hopen, htime, nearStatus_quiet _ _ hcross, appendEntry_quiet _ hcross,
    lostInFailSilence, hsilent, afterEntry, hchange, hcoil, hdomain, withSalt, drewSalt]

/-- A snapshot takes the map and the size of its volume (R283). -/
theorem createSnaps_one {s : State} {a i v : Nat} {x : Volume} (h : volumeOf s v = some x) :
    createSnaps a i false [v] s = setMap true i (copiedMap s false v) { s with
      nv.nextSnap := max s.nv.nextSnap (i + 1)
      nv.snaps := s.nv.snaps ++ [{ id := i, vol := v, arrival := a, size := x.size, created := s.now }] } := by
  have hvol : volumeOf { s with nv.nextSnap := max s.nv.nextSnap (i + 1) } v = some x := h
  simp [createSnaps, hvol]
  rfl

/-! ### The statements -/

/-- Settles O24. -/
theorem volumeCommandDecisions : Obligations.VolumeCommandDecisions := by
  unfold Obligations.VolumeCommandDecisions
  refine ⟨?_, ?_, ?_, ?_, ?_, ?_, ?_, ?_, ?_, ?_, ?_, ?_, ?_, ?_, ?_, ?_, ?_, ?_, ?_, ?_⟩
  · intro s ring seq c hfast hc hholder hport hends hpolicyRefuses hvolumeOf hdomainKeyed hdomainOf hpiAllowed hlength
    show execVolCreate ring seq s = _
    rw [execVolCreate, fast_runs _ hfast]
    refine coilOp_unlocked hc hholder hport hends (.inl rfl) hpolicyRefuses
      (d := { nums := [pk c 24 2, pk c 26 2, pk c 28 1, pk c 29 1, pk c 30 1, pk c 32 8] }) ?_ rfl rfl rfl
    simp [volCreate, hvolumeOf, hdomainKeyed, hdomainOf, hpiAllowed, Nat.not_le.2 hlength]
  · intro s ring seq c hfast hc hholder hport hends hvolumeOf
    show execVolCreate ring seq s = _
    rw [execVolCreate, fast_runs _ hfast]
    exact coilOp_refused hc hholder hport hends (.inl rfl) (d := { status := stResExists }) (by simp [volCreate, hvolumeOf]) (.inl rfl)
  · intro s ring seq c hfast hc hholder hport hends hvolumeOf hdomainKeyed
    show execVolCreate ring seq s = _
    rw [execVolCreate, fast_runs _ hfast]
    exact coilOp_refused hc hholder hport hends (.inl rfl) (d := { status := stKeyDomain, detail := pk c 26 2 })
      (by simp [volCreate, hvolumeOf, hdomainKeyed]) (.inl <| show isSuccess stKeyDomain = false from rfl)
  · intro s ring seq c hfast hc hholder hport hends hpolicyRefuses hvolumeOf hpk hpeerNumbers hlocksOf hplemLocks hlength
    show execVolDelete ring seq s = _
    have hvol : volumeOf s (pk c 24 2) ≠ none := Option.isSome_iff_ne_none.1 hvolumeOf
    rw [execVolDelete, fast_runs _ hfast]
    exact coilOp_locks hc hholder hport hends (.inl rfl) hpolicyRefuses (d := { nums := [pk c 24 2, pk c 26 1] })
      (by simp only [volDelete, hpk, Option.isNone_eq_false_iff.2 hvolumeOf, Bool.false_eq_true, if_false]) rfl rfl (by simp) hpeerNumbers
      hpeerNumbers hlocksOf hplemLocks hlength rfl
  · intro s ring seq c hfast hc hholder hport hends hvolumeOf
    show execVolDelete ring seq s = _
    rw [execVolDelete, fast_runs _ hfast]
    exact coilOp_refused hc hholder hport hends (.inl rfl) (d := { status := stResNotfound }) (by simp [volDelete, hvolumeOf]) (.inl rfl)
  · intro s ring seq c v hfast hc hholder hport hends hpolicyRefuses hvolumeOf hkeylessVolume hpk hsize hpeerNumbers
    show execVolResize ring seq s = _
    rw [execVolResize, fast_runs _ hfast]
    refine coilOp_unlocked hc hholder hport hends (.inl rfl) hpolicyRefuses (d := { nums := [v.num, pk c 32 8] }) ?_ rfl ?_ hpeerNumbers
    · simp [volResize, namedVolume, hvolumeOf, hkeylessVolume, Nat.not_lt.2 hpk, Nat.ne_of_gt hsize]
    · simp [resizeLocks, hvolumeOf, Nat.le_of_lt hsize]
  · intro s ring seq c v hfast hc hholder hport hends hpolicyRefuses hvolumeOf hkeylessVolume hsize hpk hpeerNumbers hlocksOf hplemLocks hlength
    show execVolResize ring seq s = _
    rw [execVolResize, fast_runs _ hfast]
    refine coilOp_locks hc hholder hport hends (.inl rfl) hpolicyRefuses (l := [(v.num, pk c 32 8, v.size - 1, true)])
      (d := { nums := [v.num, pk c 32 8] }) ?_ rfl ?_ (by simp) hpeerNumbers hpeerNumbers hlocksOf hplemLocks hlength rfl
    · simp [volResize, namedVolume, hvolumeOf, hkeylessVolume, Nat.le_of_lt (Nat.lt_of_lt_of_le hpk hsize), Nat.ne_of_lt hpk]
    · simp [resizeLocks, hvolumeOf, hpk]
  · intro s ring seq c v hfast hc hholder hport hends hpolicyRefuses hvolumeOf hmoving hkeylessVolume hpk hpeerNumbers
    show execVolSetAccess ring seq s = _
    rw [execVolSetAccess, fast_runs _ hfast, if_neg (by simp [movingTarget, hc, hvolumeOf, hmoving])]
    refine coilOp_unlocked hc hholder hport hends (.inl rfl) hpolicyRefuses (d := { nums := [v.num, pk c 26 1, pk c 27 1, pk c 28 1] }) ?_ rfl rfl
      hpeerNumbers
    simp [volSetAccess, namedVolume, hvolumeOf, hkeylessVolume, hpk]
  · intro s ring seq c v hfast hc hholder hport hends hpolicyRefuses hvolumeOf hmoving hkeylessVolume hpk hpeerNumbers
    show execVolSetAccess ring seq s = _
    rw [execVolSetAccess, fast_runs _ hfast, if_neg (by simp [movingTarget, hc, hvolumeOf, hmoving])]
    refine coilOp_away hc hholder hport hends (.inl rfl) hpolicyRefuses (d := { nums := [v.num, pk c 26 1, pk c 27 1, pk c 28 1] }) ?_ rfl
      (fun _ => rfl) hpeerNumbers
    simp [volSetAccess, namedVolume, hvolumeOf, hkeylessVolume, hpk]
  · intro s ring seq c hfast hc hholder hport hends hpolicyRefuses hdomainOf hpk hslotFits
    show execDomainCreate ring seq s = _
    rw [execDomainCreate, fast_runs _ hfast]
    refine coilOp_unlocked hc hholder hport hends (.inl rfl) hpolicyRefuses (d := { nums := [pk c 24 2, pk c 26 2, pk c 28 1, 0] }) ?_ rfl rfl rfl
    simp [domainCreate, hdomainOf, hpk, hslotFits]
  · intro s ring seq c hfast hc hholder hport hends hdomainOf hpk hslotFits
    show execDomainCreate ring seq s = _
    rw [execDomainCreate, fast_runs _ hfast]
    exact coilOp_refused hc hholder hport hends (.inl rfl) (d := { status := stKeySlot, detail := pk c 26 2 })
      (by simp [domainCreate, hdomainOf, hpk, hslotFits]) (.inl <| show isSuccess stKeySlot = false from rfl)
  · intro s ring seq c hfast hc hholder hisCarried hpaired hport
    show execVolCreate ring seq s = _
    simp [execVolCreate, fast_runs _ hfast, hholder, hisCarried, hpaired, hport, coilOp, hc, carryOr, takeDecision]
  · intro s ring seq c hfast hc hholder hisCarried hpaired hbridge hpeerTag hpeerTagFree
    show execVolCreate ring seq s = _
    simp [execVolCreate, fast_runs _ hfast, hholder, hisCarried, hpaired, hbridge, hpeerTag, coilOp, hc, carryOr, Option.isSome_iff_ne_none.1 hpeerTagFree, noLocks, carryOut, carryCmd]
  · intro s ring seq c hfast hc hholder hport hends hpolicyRefuses hsnapEntryFail hsnapVols hlength hnextSnap hpeerNumbers hlocksOf hplemLocks hlength'
    show execSnapCreate ring seq s = _
    have hcap : ¬ (snapCap < s.nv.snaps.length + (snapVols c).length ∨ 2 ^ 32 ≤ s.nv.nextSnap + (snapVols c).length) :=
      not_or.2 ⟨Nat.not_lt.2 hlength, Nat.not_le.2 hnextSnap⟩
    rw [execSnapCreate, fast_runs _ hfast]
    exact coilOp_locks hc hholder hport hends (.inl rfl) hpolicyRefuses (d := { result := s.nv.nextSnap, nums := s.nv.nextSnap :: snapVols c })
      (by simp only [snapCreate, hsnapEntryFail, if_neg hcap]) rfl rfl (by simpa using hsnapVols) rfl
      (by simpa [Function.comp_def] using hpeerNumbers) hlocksOf hplemLocks hlength' rfl
  · intro s ring seq c v vs hfast hc hholder hport hends hsnapVols hvolumeOf
    show execSnapCreate ring seq s = _
    rw [execSnapCreate, fast_runs _ hfast]
    exact coilOp_refused hc hholder hport hends (.inl rfl) (d := { status := stResNotfound })
      (by simp [snapCreate, hsnapVols, snapEntryFail, hvolumeOf]) (.inl rfl)
  · intro s ring seq c x hfast hc hholder hport hends hpolicyRefuses hsnapOf hreplication
    show execSnapDelete ring seq s = _
    rw [execSnapDelete, fast_runs _ hfast]
    exact coilOp_unlocked hc hholder hport hends (.inl rfl) hpolicyRefuses (d := { nums := [x.id] })
      (by simp [snapDelete, hsnapOf, hreplication]) rfl rfl rfl
  · intro s ring seq c hfast hc hholder hport hends hsnapOf
    show execSnapDelete ring seq s = _
    rw [execSnapDelete, fast_runs _ hfast]
    exact coilOp_refused hc hholder hport hends (.inl rfl) (d := { status := stResNotfound }) (by simp [snapDelete, hsnapOf]) (.inl rfl)
  · intro s ring seq c v hfast hc hholder hport hends hpolicyRefuses hvolumeOf hpk hcloneVol hkeylessVolume hlength
    show execVolClone ring seq s = _
    rw [execVolClone, fast_runs _ hfast]
    exact coilOp_unlocked hc hholder hport hends (.inl rfl) hpolicyRefuses (d := { nums := [pk c 24 2, 1, pk c 27 1, pk c 28 4] })
      (by simp [volClone, hvolumeOf, hcloneVol, hkeylessVolume, Nat.not_le.2 hlength, hpk]) rfl (by simp [hpk]) rfl
  · intro s ring seq c v hfast hc hholder hport hends hpolicyRefuses hvolumeOf hpk hcloneVol hkeylessVolume hlength hpeerNumbers hlocksOf hplemLocks hlength'
    show execVolClone ring seq s = _
    rw [execVolClone, fast_runs _ hfast]
    exact coilOp_locks hc hholder hport hends (.inl rfl) hpolicyRefuses (d := { nums := [pk c 24 2, 0, pk c 27 1, pk c 28 4] })
      (by simp [volClone, hvolumeOf, hcloneVol, hkeylessVolume, Nat.not_le.2 hlength, hpk]) rfl (if_pos hpk) (by simp) rfl
      hpeerNumbers hlocksOf hplemLocks hlength' rfl
  · intro s ring seq c v hfast hc hholder hpk hpk' hvolumeOf
    show execVolQuery ring seq s = _
    simp [execVolQuery, fast_runs _ hfast, plainOp_runs hc, volQuery, hholder, hpk, hpk', hvolumeOf, hc, volQuery]

/-- Settles O25. -/
theorem volumeOperationEffects : Obligations.VolumeOperationEffects := by
  unfold Obligations.VolumeOperationEffects
  refine ⟨?_, ?_, ?_, ?_, ?_, ?_, ?_⟩
  · intro s v dm f p fl sz b
    simp +decide [applyOp, createVolume]
  · intro s v sz b x hvolumeOf hsize
    simp +decide [applyOp, hvolumeOf, Nat.not_lt.2 hsize, resizeVolume]
  · intro s v a h b
    exact ⟨rfl, rfl, rfl⟩
  · intro s a i v b x hvolumeOf
    rw [← createSnaps_one hvolumeOf]
    rfl
  · intro s i b
    simp +decide [applyOp, deleteSnapshot]
  · intro s n k f b hdomainOf
    simp [makeDomain, hdomainOf]
  · intro s c d rest hfast hportRuns hmgmtHalted hport hcarriedHere hcmdTier hisSuccess hstatus hstarted hcarried hcommitsInCoil hopcode
      hcrossesNear hsilent
    rw [exec_auditEntryDurable_command hfast hportRuns hmgmtHalted hport,
      commandDurable_coil hcarriedHere hcmdTier hisSuccess hstatus hstarted hcarried hcommitsInCoil hopcode hcrossesNear hsilent]

/-- Settles O26. -/
theorem replicationCommands : Obligations.ReplicationCommands := by
  unfold Obligations.ReplicationCommands
  refine ⟨?_, ?_, ?_, ?_, ?_, ?_, ?_, ?_, ?_, ?_, ?_, ?_, ?_⟩
  · intro s ring seq c hfast hc hport
    show execReplPair ring seq s = _
    simp [execReplPair, fast_runs _ hfast, hc, hport]
  · intro s c hnumAt hbit hnumAt'
    simp [replPair, hnumAt, hbit, hnumAt']
  · intro s c hbit hpendingSa
    simp [replPair, hbit, hpendingSa]
  · intro s c h hbit hnumAt
    have hsome : numAt c.block 20 1 ≠ 0 := by omega
    simp [replPair, h, hbit, hnumAt, hsome]
  · intro s c n hnumAt hnumAt' hnumAt'' hlength hallZero hpathFail hpinnedTaken hfreeConnNum
    simp [replPair, hnumAt, hnumAt', hnumAt'', hallZero, hpathFail, hfreeConnNum, Nat.not_le.2 hpinnedTaken, show bit 1 0 = true from rfl, show bit 1 1 = false from rfl, flagAt]
  · intro s ring seq c x hfast hc hport hvolumeOf hreplOf hconnOf hcls
    show execReplStart ring seq 0 s = _
    simp [execReplStart, fast_runs _ hfast, auditedOp_taken hc hport, replStart, hreplOf, hconnOf, hcls, Option.isSome_iff_ne_none.1 hvolumeOf]
  · intro s ring seq k c x hfast hc hport hvolumeOf hreplOf hconnOf hcls hk
    show execReplStart ring seq k s = _
    simp [execReplStart, fast_runs _ hfast, auditedOp_taken hc hport, replStart, hreplOf, hconnOf, hcls, hk, Option.isSome_iff_ne_none.1 hvolumeOf]
  · intro s ring seq c hfast hc hport hreplOf
    show execReplStop ring seq s = _
    simp [execReplStop, fast_runs _ hfast, auditedOp_taken hc hport, replStop, Option.isSome_iff_ne_none.1 hreplOf]
  · intro s ring seq c hfast hc hport hreplOf
    show execReplStop ring seq s = _
    simp [execReplStop, fast_runs _ hfast, auditedOp_taken hc hport, replStop, hreplOf]
  · intro s ring seq c hfast hc hreplOf
    show execReplStatus ring seq s = _
    simp [execReplStatus, fast_runs _ hfast, plainOp_runs hc, replStatus, hreplOf, show isSuccess stResNotfound = false from rfl]
  · intro s ring seq c r hfast hc hreplOf
    show execReplStatus ring seq s = _
    cases hconn : connOf s r.conn <;>
      simp [execReplStatus, fast_runs _ hfast, plainOp_runs hc, replStatus, hreplOf, hconn, drewFree]
  · intro s c d v m l n i r hopcode hnums
    simp +decide [applyCommand, hopcode, hnums, applyReplStart]
  · intro s c d v hopcode hnums
    simp +decide [applyCommand, hopcode, hnums, applyReplStop]

end Sys2Proof.Machine
end

section
/-! PROOFS. Replication cycles, firmware, the Coil rows and replay, segments and strips (R246 to R250, R152 to R173, R325 to R345, R336 to R352). -/

namespace Sys2Proof.Machine

/-! ### Firmware -/

/-- The component of mask 1 is MGT. -/
theorem maskComps_one : maskComps 1 = [1] := by decide

/-! ### The mirror and the policy for an absent peer -/

/-- An event changes nothing of Coil. -/
theorem countEvent_col (code value : Nat) (s : State) : (countEvent code value s).col = s.col := by
  obtain ⟨e, r, h⟩ := countEvent_only code value s
  rw [h]

/-- A head that has just lost the mirror goes on in single copy where policy 1 holds, and refuses otherwise (R319, R457). -/
theorem applyPolicy_fresh {s : State} (hsingle : s.col.singleCopy = false) (hcounted : s.col.counted = false) :
    applyPolicy s = if (s.hdl.severed = false ∨ s.hdl.holder = true) ∧ pidVal s 0x0900 = 1 then
      countEvent 0x090 0 { s with col.singleCopy := true, col.latched := true, col.refusing := false, col.counted := true }
      else { s with col.singleCopy := false, col.refusing := true } := by
  cases hsevered : s.hdl.severed <;> cases hholder : s.hdl.holder <;>
    simp [applyPolicy, absencePolicy, hsevered, hholder, hsingle, hcounted, countIf]

/-! ### The statements -/

/-- Settles O27. -/
theorem replicationCyclesAndReduction : Obligations.ReplicationCyclesAndReduction := by
  unfold Obligations.ReplicationCyclesAndReduction
  refine ⟨?_, ?_, ?_, ?_, ?_, ?_⟩
  · intro s n r v hfast hsilent hreplOf hvolumeOf hcycleReady hownsVolume hkeylessVolume hservice hport hends hlength hnextSnap
    show execAsyncCycleStart n s = _
    have hnext : ¬ 4294967295 ≤ s.nv.nextSnap := by omega
    simp [execAsyncCycleStart, alive_runs _ hfast hsilent, hreplOf, hvolumeOf, hcycleReady, hownsVolume, hkeylessVolume, hservice, hport, hends,
      Nat.not_le.2 hlength, hnext, takeArrival, updRepl]
  · intro s n q hfast hsilent hreplOf hcurSnap hsnapOf hlastSnap
    show execAsyncCycleEnd n s = _
    have hsnap : snapOf s q.curSnap ≠ none := Option.isSome_iff_ne_none.1 hsnapOf
    simp [execAsyncCycleEnd, alive_runs _ hfast hsilent, hreplOf, hcurSnap, hlastSnap, hsnap]
  · intro s n a q hfast hsilent hreplOf hmode
    show execRemoteRecordAck n a s = _
    simp [execRemoteRecordAck, alive_runs _ hfast hsilent, hreplOf, hmode]
  · intro s n q hfast hsilent hreplOf hmode hstate
    show execSyncRemoteLoss n s = _
    simp [execSyncRemoteLoss, alive_runs _ hfast hsilent, hreplOf, hmode, hstate]
  · intro s v o hfast hsilent hdoze holdestOpen
    show execBundleGatherTimeout v s = _
    simp [execBundleGatherTimeout, engine_runs _ hfast hsilent hdoze, holdestOpen]
  · intro s t k b f hfast hsilent hdoze hfind
    show execColdLookupDone t f s = _
    simp [execColdLookupDone, engine_runs _ hfast hsilent hdoze, hfind]

/-- Settles O28. -/
theorem firmwareBootStagingActivation : Obligations.FirmwareBootStagingActivation := by
  unfold Obligations.FirmwareBootStagingActivation
  refine ⟨?_, ?_, ?_, ?_, ?_, ?_, ?_, ?_, ?_, ?_, ?_, ?_⟩
  · intro s k hfast hbootCheckDue
    show execFirmwareBootCheck k s = _
    simp [execFirmwareBootCheck, fast_runs _ hfast, hbootCheckDue]
  · intro s ring seq c hfast hc hport hlongOpOf hstaging hbit
    show execStageImage ring seq s = _
    simp [execStageImage, fast_runs _ hfast, auditedOp_taken hc hport, stageImage, hlongOpOf, hstaging, hbit]
  · intro s ring seq c hfast hc hport hlongOpOf hstaging hbit
    show execStageImage ring seq s = _
    simp [execStageImage, fast_runs _ hfast, auditedOp_taken hc hport, stageImage, hlongOpOf, hstaging, hbit]
  · intro s l g hfast hlongOpOf hstaging hbit
    show execStageImageChunkDone s = _
    simp [execStageImageChunkDone, fast_runs _ hfast, hlongOpOf, hstaging, hbit]
  · intro s l g hfast hlongOpOf hstaging hbit
    show execStageImageChunkDone s = _
    simp [execStageImageChunkDone, fast_runs _ hfast, hlongOpOf, hstaging, hbit]
  · intro s ring seq c hfast hc hport hmaskComps hmaskComps'
    show execActivateImage ring seq s = _
    simp [execActivateImage, fast_runs _ hfast, auditedOp_taken hc hport, activateImage, hmaskComps, hmaskComps']
  · intro s ring seq c bad hfast hc hport hmaskComps
    show execActivateImage ring seq s = _
    simp [execActivateImage, fast_runs _ hfast, auditedOp_taken hc hport, activateImage, hmaskComps]
  · intro s c d hopcode hnums
    simp +decide [applyCommand, hopcode, hnums, applyActivateImage, maskComps_one]
  · intro s ring seq c hfast hc
    show execFwQuery ring seq s = _
    simp [execFwQuery, fast_runs _ hfast, plainOp_runs hc, fwQuery]
  · intro s ring seq c hfast hc
    show execMigrateStatus ring seq s = _
    cases hlast : s.nv.lastRaise <;>
      simp [execMigrateStatus, fast_runs _ hfast, plainOp_runs hc, migrateStatus, hlast]
  · intro s f hfast hformat h hwaitingEntries hmigrating
    show execFormatRaise f s = _
    rw [execFormatRaise, fast_runs _ hfast]
    exact if_neg (c := nextFormat s f ≤ s.nv.format ∨ auditFree s ≤ 16 ∨ s.nv.waitingEntries ≠ [] ∨ migrating s = true)
      (by simp [Nat.not_le.2 hformat, Nat.not_le.2 h, hwaitingEntries, hmigrating])
  · intro s hfast hmigrating hrootFormat
    show execFormatMigrationEnd s = _
    simp [execFormatMigrationEnd, fast_runs _ hfast, hmigrating, hrootFormat, settleFormat]

/-- Settles O29. -/
theorem coilRowsAndReplay : Obligations.CoilRowsAndReplay := by
  unfold Obligations.CoilRowsAndReplay
  refine ⟨?_, ?_, ?_, ?_, ?_, ?_, ?_, ?_, ?_, ?_, ?_, ?_, ?_, ?_, ?_, ?_, ?_⟩
  · intro s hfast hstart hfusesLoaded hcoilReady
    show execCoilReady s = _
    simp [execCoilReady, fast_runs _ hfast, hstart, hfusesLoaded, hcoilReady]
  · intro s n hfast
    show execCoilLinesPersisted n s = _
    simp [execCoilLinesPersisted, fast_runs _ hfast]
  · intro s hcommitTarget
    simp [commitAdvance, hcommitTarget]
  · intro s l rs hfast hsilent hpaired hbridge haccepting hall
    show execMirror l rs s = _
    simp [execMirror, alive_runs _ hfast hsilent, hpaired, hbridge, haccepting, hall, acceptMirror]
  · intro s l rs hfast hsilent hpaired hbridge haccepting hall
    show execMirror l rs s = _
    simp [execMirror, alive_runs _ hfast hsilent, hpaired, hbridge, haccepting, hall, sendMirrorAck]
  · intro s p r hfast hsilent hpaired hbridge
    show execMirrorAck p r s = _
    simp [execMirrorAck, alive_runs _ hfast hsilent, hpaired, hbridge]
  · intro s hfast hsilent hisSome
    show execMirrorAckTimeout s = _
    simp [execMirrorAckTimeout, alive_runs _ hfast hsilent, hisSome, mirrorLoss]
  · intro s hmirrorOn
    have hheld : (!s.col.mirrorOn && s.col.catchUp.isNone) = false := by
      cases hon : s.col.mirrorOn <;> simp_all
    rw [loseMirror, if_neg (by simp [hheld])]
    exact applyPolicy_fresh (by rw [countEvent_col]) (by rw [countEvent_col])
  · intro s hfast hsilent haccepting hreleaseDeltas
    show execJournalHeaderWrite s = _
    simp [execJournalHeaderWrite, alive_runs _ hfast hsilent, haccepting, hreleaseDeltas, writeHeader2, putHeader]
  · intro s hfast hsilent haccepting
    show execWaitingRecordAppend s = _
    simp [execWaitingRecordAppend, alive_runs _ hfast hsilent, haccepting]
  · intro s b bs n hwaiting hcoilFits
    simp [placeWaiting, hwaiting, hcoilFits]
  · intro s hfast hsilent hreplayStep htorn
    show execReplayStart s = _
    simp [execReplayStart, alive_runs _ hfast hsilent, hreplayStep, htorn, countIf]
  · intro s hfast hsilent hreplayStep htorn
    show execReplayStart s = _
    simp [execReplayStart, alive_runs _ hfast hsilent, hreplayStep, htorn, countIf]
  · intro s hfast hsilent hreplayStep hwavesDone hfencedAtStart
    show execReplayResume s = _
    simp [execReplayResume, alive_runs _ hfast hsilent, hreplayStep, hwavesDone, hfencedAtStart]
  · intro s hfast hsilent hreplayStep hwavesDone hfencedAtStart
    show execReplayResume s = _
    simp [execReplayResume, alive_runs _ hfast hsilent, hreplayStep, hwavesDone, hfencedAtStart]
  · intro s hfast hsilent hreplayStep
    show execReplayEnd s = _
    simp [execReplayEnd, alive_runs _ hfast hsilent, hreplayStep, endReplay]
  · intro s hfast
    show execCoilFailure s = _
    simp [execCoilFailure, fast_runs _ hfast]

/-- Settles O31. -/
theorem segmentsStripsAndSeals : Obligations.SegmentsStripsAndSeals := by
  unfold Obligations.SegmentsStripsAndSeals
  refine ⟨?_, ?_, ?_, ?_, ?_, ?_⟩
  · intro s n i k x g hfast hsilent hdoze haccepting hreplayStep hsegOf hsegGen hstate hsealing hsideB hintentWaits hany hstripFits hnextPos
    show execStripAdd n k false s = _
    simp [execStripAdd, engine_runs _ hfast hsilent hdoze, haccepting, hreplayStep, hsegOf, hsegGen, hstate, hsealing, hsideB, hintentWaits, hany, hstripFits, hnextPos, readySegment, addStrip]
  · intro s n k t hfast hsilent hdoze haccepting hreplayStep hreadySegment
    show execStripAdd n k true s = _
    simp [execStripAdd, engine_runs _ hfast hsilent hdoze, haccepting, hreplayStep, hreadySegment]
  · intro s n x e hfast hsilent hdoze hsegOf hsealable hsideB he haccepting
    show execSegmentSeal n e true s = _
    simp [execSegmentSeal, engine_runs _ hfast hsilent hdoze, hsegOf, hsealable, hsideB, he, haccepting]
  · intro s n x e hfast hsilent hdoze hsegOf hsealable hsideB he haccepting
    show execSegmentSeal n e false s = _
    simp [execSegmentSeal, engine_runs _ hfast hsilent hdoze, hsegOf, hsealable, hsideB, he, haccepting]
  · intro s n x hfast hsilent hdoze hsegOf hsealable hsideB hpidVal
    show execSealAgeTimeout n s = _
    simp [execSealAgeTimeout, engine_runs _ hfast hsilent hdoze, hsegOf, hsealable, hsideB, hpidVal]
  · intro s e x g hsegGen
    simp [sealSegment, hsegGen]

end Sys2Proof.Machine
end

section
/-! PROOFS. Packs, layouts, rebuild and loss, media management and the Stake link layer (R346 to R430). -/

namespace Sys2Proof.Machine

/-- Volumes of which none is the peer's. -/
theorem peerNumbers_cons {s : State} {v : Nat} {l : List Nat} :
    peerNumbers s (v :: l) = false ↔ peerNumbers s [v] = false ∧ peerNumbers s l = false := by
  rw [peerNumbers, List.any_cons, Bool.or_eq_false_iff]
  exact and_congr_left' (by rw [peerNumbers, List.any_cons, List.any_nil, Bool.or_false])

/-- Settles O32. -/
theorem packAndLayoutCommands : Obligations.PackAndLayoutCommands := by
  unfold Obligations.PackAndLayoutCommands
  refine ⟨?_, ?_, ?_, ?_, ?_, ?_, ?_, ?_, ?_, ?_, ?_, ?_, ?_⟩
  · intro s ring seq c hfast hc hholder hport hends hpolicyRefuses htransfer hsevered hadmittable hpackNow
    show execPackAdmit ring seq s = _
    rw [execPackAdmit, fast_runs _ hfast]
    exact coilOp_unlocked hc hholder hport hends (.inr ⟨htransfer, hsevered⟩) hpolicyRefuses
      (d := { nums := [pk c 24 1, (portOf s (pk c 24 1)).identity] }) (by simp [packAdmit, hadmittable, hpackNow]) rfl rfl rfl
  · intro s ring seq c hfast hc hholder hport hends htransfer hsevered hadmittable
    show execPackAdmit ring seq s = _
    rw [execPackAdmit, fast_runs _ hfast]
    exact coilOp_refused hc hholder hport hends (.inr ⟨htransfer, hsevered⟩) (d := { status := stMedAbsent, detail := pk c 24 1 })
      (by simp [packAdmit, hadmittable]) (.inl <| show isSuccess stMedAbsent = false from rfl)
  · intro s ring seq c p hfast hc hholder hport hends hpolicyRefuses htransfer hsevered hpackNow hretiring hcond hpackBelowFloor hmemberOf
    show execPackRetire ring seq s = _
    rw [execPackRetire, fast_runs _ hfast]
    exact coilOp_unlocked hc hholder hport hends (.inr ⟨htransfer, hsevered⟩) hpolicyRefuses (d := { nums := [pk c 24 1] })
      (by simp [packRetire, hpackNow, hretiring, hcond, hpackBelowFloor, hmemberOf]) rfl rfl rfl
  · intro s ring seq c hfast hc hholder hport hends htransfer hsevered hpackNow
    show execPackRetire ring seq s = _
    rw [execPackRetire, fast_runs _ hfast]
    exact coilOp_refused hc hholder hport hends (.inr ⟨htransfer, hsevered⟩) (d := { status := stResNotfound })
      (by simp [packRetire, hpackNow]) (.inl rfl)
  · intro s ring seq c hfast hc hholder hport hends hpolicyRefuses htransfer hsevered hpk hchange
    show execLayoutChange ring seq s = _
    rw [execLayoutChange, fast_runs _ hfast]
    exact coilOp_unlocked hc hholder hport hends (.inr ⟨htransfer, hsevered⟩) hpolicyRefuses (d := { result := curGen s, nums := [1] })
      (by simp [layoutChange, hpk, hchange]) rfl rfl rfl
  · intro s ring seq c hfast hc hholder hport hends htransfer hsevered hpk hchange
    show execLayoutChange ring seq s = _
    rw [execLayoutChange, fast_runs _ hfast]
    exact coilOp_refused hc hholder hport hends (.inr ⟨htransfer, hsevered⟩) (d := { status := stOkNochange, result := curGen s })
      (by simp [layoutChange, hpk, hchange]) (.inr rfl)
  · intro s c hpk hbadMember hnextGen hgenCur hchange hlongOpOf
    simp [layoutChange, hpk, hbadMember, hgenCur, hchange, hlongOpOf, Nat.not_lt.2 hnextGen]
  · intro s g h hfast hsilent hdoze hgenCur hgenNew hholder hchange hmigrating hbandsOf hopenInGen hsevered
    show execLayoutChangeEnd s = _
    simp [execLayoutChangeEnd, engine_runs _ hfast hsilent hdoze, hgenCur, hgenNew, hholder, hchange, hmigrating, hbandsOf, hopenInGen, hsevered]
  · intro s h hfast hsilent hdoze hgenNew hholder hchange hmigrating hbandsOf hopenInGen hsevered hopPending
    show execLayoutReverseEnd s = _
    simp [execLayoutReverseEnd, engine_runs _ hfast hsilent hdoze, hgenNew, hholder, hchange, hbandsOf, hopenInGen, hsevered, hopPending]
  · intro s n b hisMember
    simp +decide [applyOp, hisMember, retirePack]
  · intro s n b hisMember
    simp +decide [applyOp, hisMember, retirePack]
  · intro s i n b hpackNow
    simp +decide [applyOp, hpackNow, admitPack]
  · intro s b n g hgenNew
    simp +decide [applyOp, hgenNew, switchGens]

/-- Settles O33. -/
theorem rebuildAndLossCommands : Obligations.RebuildAndLossCommands := by
  unfold Obligations.RebuildAndLossCommands
  refine ⟨?_, ?_, ?_, ?_, ?_, ?_, ?_, ?_, ?_, ?_, ?_, ?_, ?_, ?_, ?_, ?_, ?_⟩
  · intro s n p hfast hsilent hholder hreplayStep hisMember hpackOf hcond
    show execAbsenceDeclareTimeout n s = _
    simp [execAbsenceDeclareTimeout, alive_runs _ hfast hsilent, hholder, hreplayStep, hisMember, hpackOf, hcond]
  · intro s n k hsevered hany hentryWaits
    simp [declareFailed, hsevered, hany, hentryWaits, declareMember]
  · intro s hfast hsilent hdoze hfilter
    show execQueueReorder s = _
    simp [execQueueReorder, engine_runs _ hfast hsilent hdoze, hfilter]
  · intro s n x hfast hsilent hdoze hsegOf hcontains hworksSide hpaused haccepting hisLost
    show execSegmentReconstructDone n false s = _
    have hqueued : n ∈ s.lay.queue := by simpa using hcontains
    simp [execSegmentReconstructDone, engine_runs _ hfast hsilent hdoze, hsegOf, hqueued, hworksSide, hpaused, haccepting, hisLost]
  · intro s hfast hsilent hdoze hfilter hopPending
    show execRebuildBatchCommit s = _
    simp [execRebuildBatchCommit, engine_runs _ hfast hsilent hdoze, hfilter, hopPending]
  · intro s n pp hfast hsilent hdoze hfind hholder hstillMissing hlongOpOf
    show execRebuildEnd n s = _
    simp [execRebuildEnd, engine_runs _ hfast hsilent hdoze, hfind, hholder, hstillMissing, hlongOpOf]
  · intro s hfast hsilent hdoze hreplayStep
    show execCheckpointTimer s = _
    simp [execCheckpointTimer, engine_runs _ hfast hsilent hdoze, hreplayStep]
  · intro s v hfast hsilent hreplayStep hckptSeq
    show execCheckpointLoad v s = _
    simp [execCheckpointLoad, alive_runs _ hfast hsilent, hreplayStep, hckptSeq]
  · intro s hfast hsilent hreplayStep hckptSeq
    show execCheckpointLoad [] s = _
    simp [execCheckpointLoad, alive_runs _ hfast hsilent, hreplayStep, hckptSeq]
  · intro s ring seq c hfast hc hport hpk hpaused
    show execRebuildCtrl ring seq s = _
    simp [execRebuildCtrl, fast_runs _ hfast, auditedOp_taken hc hport, rebuildOther, hpk, hpaused, hc, rebuildOther]
  · intro s ring seq c hfast hc hport hpk
    show execRebuildCtrl ring seq s = _
    simp [execRebuildCtrl, fast_runs _ hfast, auditedOp_taken hc hport, rebuildOther, hpk, hc, rebuildOther]
  · intro s c d hopcode hnums
    simp +decide [applyCommand, hopcode, hnums, applyRebuildCtrl]
  · intro s c d hopcode hnums
    simp +decide [applyCommand, hopcode, hnums, applyRebuildCtrl]
  · intro s ring seq c hfast hc hpk
    show execLostListRead ring seq s = _
    simp [execLostListRead, fast_runs _ hfast, plainOp_runs hc, lostListRead, hpk]
  · intro s ring seq c hfast hc hport hany hlostRanges
    show execLostListClear ring seq s = _
    simp [execLostListClear, fast_runs _ hfast, auditedOp_taken hc hport, lostListClear, hany, hlostRanges]
  · intro s ring seq c hfast hc hport hany
    show execLostListClear ring seq s = _
    simp [execLostListClear, fast_runs _ hfast, auditedOp_taken hc hport, lostListClear, hany]
  · intro s c d n hopcode hnums
    simp +decide [applyCommand, hopcode, hnums, applyLostListClear]

/-- Settles O34. -/
theorem mediaManagementCommands : Obligations.MediaManagementCommands := by
  unfold Obligations.MediaManagementCommands
  refine ⟨?_, ?_, ?_, ?_, ?_, ?_, ?_, ?_, ?_, ?_, ?_, ?_, ?_, ?_, ?_, ?_, ?_, ?_, ?_, ?_⟩
  · intro s v hfast hsilent hdoze hbatch hreplayStep haccepting hv hlength hfilterMap hlength' hfilterMap' hvictimOrder
    show execGcBatchStart v s = _
    simp [execGcBatchStart, engine_runs _ hfast hsilent hdoze, hbatch, hreplayStep, haccepting, hv, hfilterMap, hlength', hfilterMap', hvictimOrder, Nat.not_lt.2 hlength]
  · intro b s hstate
    simp [sealVictim, hstate]
  · intro s t hfast hsilent hdoze hbatch hstep hvictimBundles hany
    show execGcCopyDone s = _
    simp [execGcCopyDone, engine_runs _ hfast hsilent hdoze, hbatch, hstep, hvictimBundles, hany, batchCopied]
  · intro s t hfast hsilent hdoze hbatch hstep hvictimBundles hbatchCopied
    show execGcCopyDone s = _
    simp [execGcCopyDone, engine_runs _ hfast hsilent hdoze, hbatch, hstep, hvictimBundles, hbatchCopied]
  · intro s t hfast hsilent hdoze hbatch hstep hbatchCopied hall hopPending hmigrating
    show execGcMapCommit s = _
    rw [execGcMapCommit, engine_runs _ hfast hsilent hdoze, hbatch]
    refine if_neg ?_
    rintro (h | h | h | h | h)
    · exact h hstep
    · exact h hbatchCopied
    · exact h hall
    · exact absurd (hopPending.symm.trans h) (by decide)
    · exact absurd (hmigrating.symm.trans h) (by decide)
  · intro s t hfast hsilent hdoze hbatch hstep hany hany'
    show execGcErasePending s = _
    simp [execGcErasePending, engine_runs _ hfast hsilent hdoze, hbatch, hstep, hany, hany']
  · intro s n b hfast hsilent hdoze hbandOf hstate hworksSide hbandWaits hdiscard
    show execBandFree n s = _
    have hfree : ¬ (b.state ≠ 4 ∧ b.state ≠ 5) := by omega
    simp [execBandFree, engine_runs _ hfast hsilent hdoze, hbandOf, hfree, hworksSide, hbandWaits, hdiscard, countUnreachable]
  · intro s x hfast hsilent hdoze hreplayStep hpatrolOwed hpatrolStrips
    show execPatrolRead s = _
    simp [execPatrolRead, engine_runs _ hfast hsilent hdoze, hreplayStep, hpatrolOwed, hpatrolStrips, patrolNext]
  · intro s x hfast hsilent hdoze hreplayStep hpatrolOwed hpatrolStrips hpatrolReads
    show execPatrolRead s = _
    have hmem : x ∈ patrolStrips s := by simpa using hpatrolStrips
    simp [execPatrolRead, engine_runs _ hfast hsilent hdoze, hreplayStep, hpatrolOwed, hmem, hpatrolReads]
  · intro s hfast hsilent hpatrolLate hreplayStep
    show execPatrolOverrun s = _
    simp [execPatrolOverrun, alive_runs _ hfast hsilent, hpatrolLate, hreplayStep]
  · intro s hfast hsilent hpatrolLate
    show execPatrolOverrun s = _
    simp [execPatrolOverrun, alive_runs _ hfast hsilent, hpatrolLate]
  · intro s hfast hsilent hdoze haccepting
    show execPatrolProgressSave s = _
    simp [execPatrolProgressSave, engine_runs _ hfast hsilent hdoze, haccepting]
  · intro s n k p hfast hsilent hdoze hpackOf hreached hdisturbThreshold hdisturbThreshold'
    show execReadDisturbVerify n k s = _
    simp [execReadDisturbVerify, engine_runs _ hfast hsilent hdoze, hpackOf, hreached, hdisturbThreshold, Nat.not_lt.2 hdisturbThreshold']
  · intro s hfast hsilent hwearApart hwearSpread
    show execWearSpreadTimeout s = _
    simp [execWearSpreadTimeout, alive_runs _ hfast hsilent, hwearApart, hwearSpread]
  · intro s hfast hsilent hwearApart
    show execWearSpreadTimeout s = _
    simp [execWearSpreadTimeout, alive_runs _ hfast hsilent, hwearApart]
  · intro s hfast hsilent
    show execPackTempSample s = _
    simp [execPackTempSample, alive_runs _ hfast hsilent]
  · intro s ring seq c v dm hfast hc hholder hport hends hpolicyRefuses hvolumeOf hdomainOf hkeyless hpk hlongOpOf hpk' hcutsLost hpeerNumbers hlocksOf hplemLocks hlength
    show execSecureDiscard ring seq s = _
    obtain ⟨hvol, hlock⟩ := peerNumbers_cons.1 hpeerNumbers
    rw [execSecureDiscard, fast_runs _ hfast]
    exact coilOp_locks hc hholder hport hends (.inl rfl) hpolicyRefuses
      (l := [(pk c 24 2, pk c 32 8, pk c 32 8 + pk c 40 8 - 1, true)])
      (d := { nums := [v.num, pk c 32 8, pk c 40 8, pk c 48 8], started := true })
      (by simp [secureDiscard, hvolumeOf, hdomainOf, hkeyless, Nat.not_lt.2 hpk, hlongOpOf, hpk', hcutsLost]) rfl
      (if_neg hpk') (by simp) hvol hlock hlocksOf hplemLocks hlength rfl
  · intro s ring seq c hfast hc hholder hport hends hvolumeOf
    show execSecureDiscard ring seq s = _
    rw [execSecureDiscard, fast_runs _ hfast]
    exact coilOp_refused hc hholder hport hends (.inl rfl) (d := { status := stResNotfound }) (by simp [secureDiscard, hvolumeOf]) (.inl rfl)
  · intro s c d vol first n addr hnums
    simp [applySecureDiscard, hnums]
  · intro s ring seq c hfast hc
    show execMediaHealth ring seq s = _
    rw [execMediaHealth, fast_runs _ hfast, plainOp_runs hc]
    exact congrArg (fun t => Host.Outcome.next (completePlain c (mediaHealth s c) (pk c 32 8) t)) (ite_self s)

/-- Settles O35. -/
theorem stakeLinkLayer : Obligations.StakeLinkLayer := by
  unfold Obligations.StakeLinkLayer
  refine ⟨?_, ?_, ?_, ?_, ?_, ?_, ?_, ?_, ?_, ?_, ?_, ?_, ?_, ?_, ?_, ?_, ?_⟩
  · intro s n hfast hn hsilent hbridge hportOf
    show execStakeLinkTrained n s = _
    simp [execStakeLinkTrained, alive_runs _ hfast hsilent, hbridge, hportOf, Nat.not_le.2 hn, hsilent]
  · intro s n hfast hn hsilent hbridge hportOf
    show execStakeLinkTrained n s = _
    simp [execStakeLinkTrained, alive_runs _ hfast hsilent, hbridge, hportOf, Nat.not_le.2 hn, hsilent]
  · intro s n hfast hsilent hportOf hn
    show execStakeTrainingFailed n s = _
    simp [execStakeTrainingFailed, alive_runs _ hfast hsilent, hportOf, hn]
  · intro s n b f hfast hsilent hframeOf hportOf hn hframeCorrupt hportOf'
    show execStakeTransactionFrame n b s = _
    simp [execStakeTransactionFrame, alive_runs _ hfast hsilent, hframeOf, hportOf, hframeCorrupt, hportOf', Nat.not_le.2 hn]
  · intro s n b f hfast hsilent hframeOf hportOf hn hframeCorrupt hrsvdZero
    show execStakeTransactionFrame n b s = _
    simp [execStakeTransactionFrame, alive_runs _ hfast hsilent, hframeOf, hportOf, hframeCorrupt, hrsvdZero, Nat.not_le.2 hn]
  · intro s n b f hfast hsilent hframeOf hportOf hn hframeCorrupt hrsvdZero hvcCarries hseq hseq' hcovered
    show execStakeTransactionFrame n b s = _
    simp [execStakeTransactionFrame, alive_runs _ hfast hsilent, hframeOf, hportOf, hframeCorrupt, hrsvdZero, hvcCarries, hseq, hcovered, Nat.not_le.2 hn]
  · intro s n b f hfast hsilent hframeOf hportOf hn hframeCorrupt hrsvdZero hvcCarries h
    show execStakeTransactionFrame n b s = _
    have hbehind : (f.seq + 65536 - (portOf s n).dl.rxSeq) % 65536 ≠ 0 := by omega
    simp [execStakeTransactionFrame, alive_runs _ hfast hsilent, hframeOf, hportOf, Nat.not_le.2 hn, hframeCorrupt, hrsvdZero, hvcCarries,
      hbehind, Nat.not_lt.2 h]
  · intro s n b f hfast hsilent hframeOf hportOf hn hframeCorrupt hrsvdZero hvcCarries h hseq
    show execStakeTransactionFrame n b s = _
    have hahead : (f.seq + 65536 - (portOf s n).dl.rxSeq) % 65536 ≠ 0 := by omega
    simp [execStakeTransactionFrame, alive_runs _ hfast hsilent, hframeOf, hportOf, Nat.not_le.2 hn, hframeCorrupt, hrsvdZero, hvcCarries,
      hahead, Nat.not_le.2 hseq]
  · intro s n k hfast hsilent hportOf
    show execStakeAck n k s = _
    simp [execStakeAck, alive_runs _ hfast hsilent, hportOf]
  · intro s n k hfast hsilent hportOf hportOf'
    show execStakeNak n k s = _
    simp [execStakeNak, alive_runs _ hfast hsilent, hportOf, hportOf']
  · intro s n k hfast hsilent hportOf hportOf'
    show execStakeNak n k s = _
    simp [execStakeNak, alive_runs _ hfast hsilent, hportOf, hportOf']
  · intro s n vc f u hfast hsilent hportOf hvc
    show execStakeCredit n vc f u s = _
    simp [execStakeCredit, alive_runs _ hfast hsilent, hportOf, Nat.not_lt.2 hvc]
  · intro s n hfast hsilent hportOf
    show execStakeKeepAlive n s = _
    simp [execStakeKeepAlive, alive_runs _ hfast hsilent, hportOf]
  · intro s n hfast hsilent hportOf
    show execStakeKeepAliveDue n s = _
    simp [execStakeKeepAliveDue, alive_runs _ hfast hsilent, hportOf]
  · intro s n hfast hsilent hportOf
    show execStakeRxIdleTimeout n s = _
    simp [execStakeRxIdleTimeout, alive_runs _ hfast hsilent, hportOf]
  · intro s n hfast hsilent hportOf
    show execStakeRecoveryTimeout n s = _
    simp [execStakeRecoveryTimeout, alive_runs _ hfast hsilent, hportOf]
  · intro s n hfast hsilent hportOf hportOf'
    show execStakeReplayTimeout n s = _
    simp [execStakeReplayTimeout, alive_runs _ hfast hsilent, hportOf, hportOf']

end Sys2Proof.Machine
end

section
/-! PROOFS. Responses of the packs, the peer and its link, the Handle and its transfer (R360 to R470). -/

namespace Sys2Proof.Machine

/-! ### Ports -/

/-- A port of a number beyond the ports is not trained. -/
theorem port_present {s : State} {n : Nat} (h : (portOf s n).link = 3) : n < s.stk.ports.length := by
  refine Nat.lt_of_not_le fun hle => ?_
  rw [portOf, List.getElem?_eq_none hle] at h
  exact absurd (show (0 : Nat) = 3 from h) (by decide)

theorem portOf_updPort_same {s : State} {n : Nat} (f : Port → Port) (h : n < s.stk.ports.length) :
    portOf (updPort n f s) n = f (portOf s n) := by
  simp [portOf, updPort, updAt_eq_modify, h]

/-- Two changes of one port. -/
theorem updPort_updPort (n : Nat) (f g : Port → Port) (s : State) : updPort n f (updPort n g s) = updPort n (f ∘ g) s := by
  simp only [updPort, updAt_updAt]

/-- Success is no status of the common ones (Table 16-6). -/
theorem commonStatus_ok (n : Nat) (r : Req) (s : State) : commonStatus n 0 r s = none := by
  simp [commonStatus]

/-- A port at step 0 goes on to GEOM (R382). -/
theorem startNext_geom {s : State} {n : Nat} (hlink : (portOf s n).link = 3) (hstep : (portOf s n).startStep = 0) :
    startNext n 0 s = sendReq n { tag := 0, cmd := 0x02 } (updPort n (fun p => { p with startStep := 1 }) s) := by
  simp [startNext, hlink, hstep, startCmd]

/-! ### The statements -/

/-- Settles O36. -/
theorem stakeResponsesAndPackFirmware : Obligations.StakeResponsesAndPackFirmware := by
  unfold Obligations.StakeResponsesAndPackFirmware
  refine ⟨?_, ?_, ?_, ?_, ?_, ?_, ?_, ?_, ?_, ?_, ?_, ?_, ?_, ?_, ?_, ?_, ?_, ?_, ?_, ?_, ?_, ?_, ?_⟩
  · intro s n tag r st i hfast hsilent hreqOf
    show execIdentResponse n tag st i s = _
    simp [execIdentResponse, alive_runs _ hfast hsilent, hreqOf, onResponse]
  · intro s n tag r st g hfast hsilent hreqOf
    show execGeomResponse n tag st g s = _
    simp [execGeomResponse, alive_runs _ hfast hsilent, hreqOf, onResponse]
  · intro s n tag r st h v w k hfast hsilent hreqOf
    show execFwMeasureResponse n tag st h v w k s = _
    simp [execFwMeasureResponse, alive_runs _ hfast hsilent, hreqOf, onResponse]
  · intro s n tag r st f hfast hsilent hreqOf
    show execHealthResponse n tag st f s = _
    simp [execHealthResponse, alive_runs _ hfast hsilent, hreqOf, onResponse]
  · intro s n tag r st v k hfast hsilent hreqOf
    show execReadResponse n tag st v k s = _
    simp [execReadResponse, alive_runs _ hfast hsilent, hreqOf, onResponse]
  · intro s n tag r st v hfast hsilent hreqOf
    show execProgramResponse n tag st v s = _
    simp [execProgramResponse, alive_runs _ hfast hsilent, hreqOf, onResponse]
  · intro s n tag r st v hfast hsilent hreqOf
    show execEraseResponse n tag st v s = _
    simp [execEraseResponse, alive_runs _ hfast hsilent, hreqOf, onResponse]
  · intro s n tag r st v hfast hsilent hreqOf
    show execTempResponse n tag st v s = _
    simp [execTempResponse, alive_runs _ hfast hsilent, hreqOf, onResponse]
  · intro s n tag r st hfast hsilent hreqOf
    show execFwLoadResponse n tag st s = _
    simp [execFwLoadResponse, alive_runs _ hfast hsilent, hreqOf, onResponse]
  · intro n i r s hportOf hportOf' harrival hprotoMajor hclosed
    have hpresent := port_present hportOf
    have hside : (i.arrival != if s.aon.side = true then 1 else 0) = false := by simp [harrival]
    simp only [identReply, commonStatus_ok, hside, hprotoMajor, hclosed, bne_self_eq_false, Bool.or_false, countIf, Bool.false_eq_true, if_false]
    rw [startNext_geom (by rw [portOf_updPort_same _ hpresent]; exact hportOf) (by rw [portOf_updPort_same _ hpresent]; simp [hportOf']),
      updPort_updPort]
    rfl
  · intro n v r s hwhy
    simp [readReply, hwhy]
  · intro n v k r s hwhy
    simp [readReply, hwhy]
  · intro n r s x g hwhy hsegOf hsegGen hpos hposOf
    simp [programReply, hwhy, hsegOf, hsegGen, hpos, hposOf, programDone]
  · intro n r s
    simp [programReply]
  · intro n r s
    simp [eraseReply]
  · intro n r s hwhy
    simp [eraseReply, hwhy, eraseFailed]
  · intro n v r s
    rfl
  · intro s n tag st hfast hsilent hreqOf hportOf
    show execFwLoadResponse n tag st s = _
    simp [execFwLoadResponse, alive_runs _ hfast hsilent, hreqOf, hportOf, onResponse]
  · intro s n tag r hfast hsilent hportOf hcmd
    show execStakeResponseTimeout n tag s = _
    simp only [execStakeResponseTimeout, alive_runs _ hfast hsilent, hportOf, hcmd, Nat.reduceBEq, Bool.or_false, Bool.and_false, Bool.false_or,
      decide_eq_true_eq]
    split <;> rfl
  · intro s ring seq c hfast hc hport hholder hlongOpOf hpackState hstarted hotherPackBusy
    show execPackFwLoad ring seq s = _
    simp [execPackFwLoad, fast_runs _ hfast, auditedOp_taken hc hport, packFwLoad, hholder, hlongOpOf, hpackState, hstarted, hotherPackBusy]
  · intro s ring seq c hfast hc hport hholder
    show execPackFwLoad ring seq s = _
    simp [execPackFwLoad, fast_runs _ hfast, auditedOp_taken hc hport, packFwLoad, hholder]
  · intro s d n hnums
    simp [applyPackFwLoad, hnums]
  · intro s n hfast hsilent hpackLoadPort
    show execPackFwMeasureTimeout n s = _
    simp [execPackFwMeasureTimeout, alive_runs _ hfast hsilent, hpackLoadPort]

/-- Settles O37. -/
theorem peerPairingAndLink : Obligations.PeerPairingAndLink := by
  unfold Obligations.PeerPairingAndLink
  refine ⟨?_, ?_, ?_, ?_, ?_, ?_, ?_, ?_, ?_, ?_, ?_, ?_, ?_, ?_, ?_, ?_, ?_, ?_⟩
  · intro s h hfast hsilent hif
    show execHello h s = _
    simp [execHello, alive_runs _ hfast hsilent, hsilent, hif]
  · intro s h n haliasReady hhelloFails
    simp [answerHello, haliasReady, hhelloFails]
  · intro s h haliasReady hhelloFails
    simp [answerHello, haliasReady, hhelloFails]
  · intro s h haliasReady
    simp [answerHello, haliasReady, sendHello]
  · intro s h hformat
    simp [helloFails, hformat]
  · intro s h hformat hchip hside
    simp [helloFails, hformat, hchip, hside]
  · intro s h hformat hchip hside hchainOk
    simp [helloFails, hformat, hchip, hside, hchainOk]
  · intro s h hformat hchip hside hchainOk hownerRoot
    simp [helloFails, hformat, hchip, hside, hchainOk, hownerRoot]
  · intro n s
    simp [refusePairing]
  · intro s h hfast hpeerHello hpaired hconfirmSent hsilent
    show execConfirm true s = _
    simp [execConfirm, alive_runs _ hfast hsilent, hpeerHello, hpaired, hconfirmSent, hsilent]
  · intro s h hfast hpeerHello hpaired hconfirmSent hsilent
    show execConfirm false s = _
    simp [execConfirm, alive_runs _ hfast hsilent, hpeerHello, hpaired, hconfirmSent, hsilent]
  · intro s n hfast hsilent hpeerPath
    show execUnpair n s = _
    simp [execUnpair, alive_runs _ hfast hsilent, hpeerPath]
  · intro s hfast hpaired hsilent hpeerPath hpairReason hpeerHello
    show execPairingRetry s = _
    rcases hpairReason with hagain | hagain <;>
      simp [execPairingRetry, alive_runs _ hfast hsilent, hpaired, hsilent, hpeerPath, hagain, hpeerHello]
  · intro s l hfast htraining hsilent hpidVal hhalfAligned hpaired
    show execPeerLinkTrained l s = _
    simp [execPeerLinkTrained, alive_runs _ hfast hsilent, htraining, hsilent, hpidVal, hhalfAligned, hpaired]
  · intro s l hfast hsilent
    show execPeerLinkDown l s = _
    simp [execPeerLinkDown, alive_runs _ hfast hsilent]
  · intro s hfast hsilent hlinkUp hviaConn
    show execPeerPathLoss s = _
    simp [execPeerPathLoss, alive_runs _ hfast hsilent, hlinkUp, hviaConn]
  · intro s hfast hsilent hpeerPath
    show execPeerProtocolError s = _
    simp [execPeerProtocolError, alive_runs _ hfast hsilent, hpeerPath, peerProtocolError]
  · intro s hfast hsilent hpaired hbridge hkeyGen
    show execPeerKeyPhaseChange s = _
    simp only [execPeerKeyPhaseChange, alive_runs _ hfast hsilent, hpaired, hbridge, hkeyGen, Bool.not_false, Bool.and_self, decide_true, if_true]

/-- Settles O38. -/
theorem peerMessages : Obligations.PeerMessages := by
  unfold Obligations.PeerMessages
  refine ⟨?_, ?_, ?_, ?_, ?_, ?_, ?_, ?_, ?_, ?_, ?_, ?_, ?_, ?_, ?_, ?_, ?_, ?_, ?_, ?_, ?_, ?_, ?_, ?_, ?_⟩
  · intro s p b hfast hsilent hpaired hbridge
    show execPeerPlem p b s = _
    simp [execPeerPlem, alive_runs _ hfast hsilent, fromPeer_paired hpaired hbridge]
  · intro s p b hfast hsilent hpaired hbridge
    show execCarry p b s = _
    simp [execCarry, alive_runs _ hfast hsilent, fromPeer_paired hpaired hbridge]
  · intro s p b hfast hsilent hpaired
    show execCarry p b s = _
    simp [execCarry, alive_runs _ hfast hsilent, hpaired, fromPeer]
  · intro s p b hfast hsilent hpaired hbridge
    show execCarry p b s = _
    simp [execCarry, alive_runs _ hfast hsilent, hpaired, hbridge, fromPeer]
  · intro s n k o l f hfast hsilent hpaired hbridge hreached
    show execPackRelay n k o l f s = _
    simp [execPackRelay, alive_runs _ hfast hsilent, hreached, fromPeer_paired hpaired hbridge]
  · intro s n k o l f hfast hsilent hpaired hbridge hreached
    show execPackRelay n k o l f s = _
    simp [execPackRelay, alive_runs _ hfast hsilent, hreached, fromPeer_paired hpaired hbridge]
  · intro s b p x hfast hsilent hpaired hbridge hrefTarget hdedupCount
    show execRefTake b p s = _
    simp [execRefTake, alive_runs _ hfast hsilent, hrefTarget, hdedupCount, fromPeer_paired hpaired hbridge]
  · intro s b p hfast hsilent hpaired hbridge hrefTarget
    show execRefTake b p s = _
    simp [execRefTake, alive_runs _ hfast hsilent, hrefTarget, fromPeer_paired hpaired hbridge]
  · intro s a d hfast hsilent hpaired hbridge hholder hasnOf
    show execAuthState a d s = _
    simp [execAuthState, alive_runs _ hfast hsilent, hholder, Nat.not_le.2 hasnOf, fromPeer_paired hpaired hbridge]
  · intro s t hfast hsilent hpaired hbridge hreplayStep
    show execTakeoverT t s = _
    simp [execTakeoverT, alive_runs _ hfast hsilent, hreplayStep, fromPeer_paired hpaired hbridge]
  · intro s hfast hpaired hsilent
    show execHealthSend s = _
    simp [execHealthSend, alive_runs _ hfast hsilent, hpaired, hsilent]
  · intro s h hfast hsilent hpaired hcrcOk
    show execPeerHealth h s = _
    simp [execPeerHealth, alive_runs _ hfast hsilent, hpaired, hcrcOk]
  · intro s h hfast hsilent hpaired hbridge hcrcOk hwithAccess
    show execPeerHealth h s = _
    simp [execPeerHealth, alive_runs _ hfast hsilent, hpaired, hcrcOk, hwithAccess]
  · intro h s hasn hdigest htake
    simp [compareDigest, hasn, hdigest, htake]
  · intro h s hasn hdigest htake
    simp [compareDigest, hasn, hdigest, htake]
  · intro s hfast hsilent hpaired hhealthAbsent
    show execHealthAbsent s = _
    simp [execHealthAbsent, alive_runs _ hfast hsilent, hpaired, hhealthAbsent]
  · intro s hfast hsilent
    show execDigestBoundary s = _
    simp [execDigestBoundary, alive_runs _ hfast hsilent]
  · intro s k hfast hsilent hholder hcoilReady hk hk' htileState
    show execTileKnownAnswerTest k false s = _
    simp [execTileKnownAnswerTest, alive_runs _ hfast hsilent, hsilent, hholder, hcoilReady, hk', htileState, Nat.not_le.2 hk]
  · intro s k hfast hsilent
    show execTileKnownAnswerTest k true s = _
    simp [execTileKnownAnswerTest, alive_runs _ hfast hsilent]
  · intro s tag st d v b r hfast hsilent hfind hcode
    show execPeerResponse tag st d v b s = _
    simp [execPeerResponse, alive_runs _ hfast hsilent, hfind, hcode]
  · intro s tag st d v b r hfast hsilent hfind hcode
    show execPeerResponse tag st d v b s = _
    simp [execPeerResponse, alive_runs _ hfast hsilent, hfind, hcode]
  · intro s tag st d v b r hfast hsilent hfind hcode
    show execPeerResponse tag st d v b s = _
    simp [execPeerResponse, alive_runs _ hfast hsilent, hfind, hcode]
  · intro s tag st d v b r hfast hsilent hfind hcode
    show execPeerResponse tag st d v b s = _
    simp [execPeerResponse, alive_runs _ hfast hsilent, hfind, hcode]
  · intro s tag st d v b r hfast hsilent hfind hcode
    show execPeerResponse tag st d v b s = _
    simp [execPeerResponse, alive_runs _ hfast hsilent, hfind, hcode]
  · intro s tag st d v b r hfast hsilent hfind hcode
    show execPeerResponse tag st d v b s = _
    simp [execPeerResponse, alive_runs _ hfast hsilent, hfind, hcode]

/-- Settles O39. -/
theorem handleSignalsAndTransfer : Obligations.HandleSignalsAndTransfer := by
  unfold Obligations.HandleSignalsAndTransfer
  refine ⟨?_, ?_, ?_, ?_, ?_, ?_, ?_, ?_, ?_, ?_, ?_, ?_, ?_, ?_, ?_, ?_, ?_, ?_, ?_, ?_, ?_, ?_, ?_, ?_, ?_, ?_, ?_, ?_, ?_, ?_⟩
  · intro s hholdIn hpaired hbridge htransferIn hholdOut hsilent hfast
    show execHoldInFall s = _
    simp [execHoldInFall, hholdIn, hpaired, hbridge, htransferIn, hholdOut, hsilent, hfast]
  · intro s hholdIn hpaired
    show execHoldInFall s = _
    simp [execHoldInFall, hholdIn, hpaired]
  · intro s hholdOut
    show execHoldInRise s = _
    simp [execHoldInRise, hholdOut]
  · intro s hholdOut hpeerStuck hsilent hfast htieUntil
    show execHoldInRise s = _
    simp [execHoldInRise, hholdOut, hpeerStuck, hsilent, hfast, htieUntil]
  · intro s t hholdOut hpeerStuck hsilent hfast htieUntil hnow hside
    show execHoldInRise s = _
    simp [execHoldInRise, hholdOut, hpeerStuck, hsilent, hfast, htieUntil, hnow, hside]
  · intro s hfast hholdIn hholder hhandleElig hsilent hbridge hallSideErr htakingOver hpaired
    show execHandleTake s = _
    simp [execHandleTake, alive_runs _ hfast hsilent, hholdIn, hholder, hhandleElig, hsilent, hbridge, hallSideErr, htakingOver, hpaired]
  · intro s hfast hholdIn hholder hhandleElig hsilent hbridge hallSideErr htakingOver hfenceDone htakeReq
    show execHandleTake s = _
    simp [execHandleTake, alive_runs _ hfast hsilent, hholdIn, hholder, hhandleElig, hsilent, hbridge, hallSideErr, htakingOver, hfenceDone, htakeReq]
  · intro s hfast hholdIn hpeerStuck hholdOut hsilent htakingOver hpeerSilent
    show execHolderStuck s = _
    simp [execHolderStuck, alive_runs _ hfast hsilent, hholdIn, hpeerStuck, hholdOut, hsilent, htakingOver, hpeerSilent]
  · intro s hfast hpeerSilent hsilent
    show execPeerSilent s = _
    simp only [execPeerSilent, alive_runs _ hfast hsilent, hpeerSilent, hsilent, Bool.or_self, Bool.false_eq_true, if_false]
    split <;> rfl
  · intro s hfast hsevered hpeerSilent hbridge hsilent
    show execPeerSevered s = _
    simp [execPeerSevered, alive_runs _ hfast hsilent, hsevered, hpeerSilent, hbridge, hsilent]
  · intro s hfast hsilent hholdIn
    show execPeerStuckClear s = _
    simp [execPeerStuckClear, alive_runs _ hfast hsilent, hholdIn]
  · intro s hfast hpwrok
    show execOutputReadbackMismatch s = _
    simp [execOutputReadbackMismatch, fast_runs _ hfast, hpwrok]
  · intro s hfast hsilent
    show execBeatInEdge s = _
    simp [execBeatInEdge, alive_runs _ hfast hsilent]
  · intro s hfast hholdsClash hsilent hpwrok
    show execBeatOutEdge s = _
    simp [execBeatOutEdge, fast_runs _ hfast, hholdsClash, hsilent, hpwrok]
  · intro s hfast hholdsClash hhandleElig hsilent hpwrok
    show execBeatOutEdge s = _
    simp [execBeatOutEdge, fast_runs _ hfast, hholdsClash, hhandleElig, hsilent, hpwrok]
  · intro s n tag r st v hfast hsilent hreqOf
    show execFencePortResponse n tag st v s = _
    simp [execFencePortResponse, alive_runs _ hfast hsilent, hreqOf, onResponse]
  · intro s n tag r st v hfast hsilent hreqOf
    show execSetEpochResponse n tag st v s = _
    simp [execSetEpochResponse, alive_runs _ hfast hsilent, hreqOf, onResponse]
  · intro n v r s haux hepoch
    simp [fenceReply, haux, hepoch, updPort_updPort, Function.comp_def]
  · intro n r s
    simp [setEpochReply]
  · intro s hfast hsilent htakingOver hfenceDone hholder
    show execPeerReplayEnd s = _
    simp [execPeerReplayEnd, alive_runs _ hfast hsilent, htakingOver, hfenceDone, hholder] <;> rfl
  · intro s ring seq c hfast hc hport hbridge hholder hhandleElig
    show execHandleEligible ring seq s = _
    simp [execHandleEligible, fast_runs _ hfast, auditedOp_taken hc hport, handleEligible, hbridge, hholder, hhandleElig]
  · intro s ring seq c hfast hc hport hholder hpk
    show execHandleEligible ring seq s = _
    simp [execHandleEligible, fast_runs _ hfast, auditedOp_taken hc hport, handleEligible, hholder, hpk]
  · intro s c d v hopcode hnums
    simp +decide [applyCommand, hopcode, hnums, applyHandleEligible]
  · intro s ring seq c h hfast hc hholder hport hpaired hbridge htransfer hpeerHealth heligible hhandoffBar
    show execHandleTransfer ring seq s = _
    simp [execHandleTransfer, fast_runs _ hfast, hc, hholder, hport, hpaired, hbridge, htransfer, hpeerHealth, heligible, hhandoffBar, handleTransfer]
  · intro s ring seq c hfast hc hholder hport hpaired htransfer
    show execHandleTransfer ring seq s = _
    simp [execHandleTransfer, fast_runs _ hfast, hc, hholder, hport, hpaired, htransfer, handleTransfer]
  · intro c s
    simp [applyHandleTransfer]
  · intro s a b hfast hsilent hpaired hbridge ha hsha384
    show execHandoff a b s = _
    simp [execHandoff, alive_runs _ hfast hsilent, hpaired, hbridge, ha, hsha384, fromPeer_paired hpaired hbridge]
  · intro s a b hfast hsilent hpaired hbridge ha
    show execHandoff a b s = _
    simp [execHandoff, alive_runs _ hfast hsilent, ha, fromPeer_paired hpaired hbridge]
  · intro s htransfer
    simp [handoffAnswered, htransfer]
  · intro s c hfast hsilent htransfer hholder holdEpoch
    show execHandleTransferEnd s = _
    simp [execHandleTransferEnd, alive_runs _ hfast hsilent, htransfer, hholder, holdEpoch]

end Sys2Proof.Machine
end

section
/-! PROOFS. NVMe controllers, queues, features, log pages, aborts and Fabrics associations (R176 to R203). -/

namespace Sys2Proof.Machine

/-! ### Controllers -/

/-- A ready controller carries an admin command out. -/
theorem onAdmin_ready {s : State} {k : Nat} {a : Ctrl} (f : Ctrl → State → State) (hctrl : ctrlOf s k = some a)
    (hready : ctrlReady s a = true) : onAdmin k f s = .next (f a s) := by
  simp [onAdmin, hctrl, hready]

/-- An admin command to no controller is not fetched. -/
theorem onAdmin_absent {s : State} {k : Nat} (f : Ctrl → State → State) (h : ctrlOf s k = none) : onAdmin k f s = .next s := by
  simp only [onAdmin, h]

/-! ### The statements -/

/-- Settles O40. -/
theorem nvmeQueuesAndFeatures : Obligations.NvmeQueuesAndFeatures := by
  unfold Obligations.NvmeQueuesAndFeatures
  refine ⟨?_, ?_, ?_, ?_, ?_, ?_, ?_, ?_, ?_, ?_, ?_, ?_, ?_, ?_, ?_, ?_, ?_, ?_, ?_, ?_, ?_, ?_, ?_, ?_, ?_⟩
  · intro s k cid a q z hfast hsilent hctrlOf hctrlReady hid hq hany hlength hqueueSizeOk
    show execNvmeCreateIoCq k cid q z true s = _
    simp [execNvmeCreateIoCq, alive_runs _ hfast hsilent, hq, hany, hqueueSizeOk, Nat.not_le.2 hid, Nat.not_le.2 hlength, onAdmin_ready _ hctrlOf hctrlReady, createIoCq]
  · intro s k cid a q z f hfast hsilent hctrlOf hctrlReady hid hf hq
    show execNvmeCreateIoCq k cid q z f s = _
    rw [execNvmeCreateIoCq, alive_runs _ hfast hsilent, onAdmin_ready _ hctrlOf hctrlReady, createIoCq, if_neg (Nat.not_le.2 hid), hf,
      if_neg (by decide), if_pos hq]
  · intro s k cid a q p z hfast hsilent hctrlOf hctrlReady hid hq hany hlength hany' hqueueSizeOk
    show execNvmeCreateIoSq k cid q p z true s = _
    simp [execNvmeCreateIoSq, alive_runs _ hfast hsilent, hq, hany, hany', hqueueSizeOk, Nat.not_le.2 hid, Nat.not_le.2 hlength, onAdmin_ready _ hctrlOf hctrlReady, createIoSq]
  · intro s k cid a q p z hfast hsilent hctrlOf hctrlReady hid hq hany hlength hany'
    show execNvmeCreateIoSq k cid q p z true s = _
    simp [execNvmeCreateIoSq, alive_runs _ hfast hsilent, hq, hany, hany', Nat.not_le.2 hid, Nat.not_le.2 hlength, onAdmin_ready _ hctrlOf hctrlReady, createIoSq]
  · intro s k cid a q hfast hsilent hctrlOf hctrlReady hid hany hany'
    show execNvmeDeleteIoCq k cid q s = _
    simp [execNvmeDeleteIoCq, alive_runs _ hfast hsilent, hany, hany', Nat.not_le.2 hid, onAdmin_ready _ hctrlOf hctrlReady, deleteIoCq]
  · intro s k cid a q hfast hsilent hctrlOf hctrlReady hid hany hany'
    show execNvmeDeleteIoCq k cid q s = _
    simp [execNvmeDeleteIoCq, alive_runs _ hfast hsilent, hany, hany', Nat.not_le.2 hid, onAdmin_ready _ hctrlOf hctrlReady, deleteIoCq]
  · intro s k cid a q hfast hsilent hctrlOf hctrlReady hid hany hany'
    show execNvmeDeleteIoSq k cid q s = _
    simp [execNvmeDeleteIoSq, alive_runs _ hfast hsilent, hany, hany', Nat.not_le.2 hid, onAdmin_ready _ hctrlOf hctrlReady, deleteIoSq]
  · intro s k q n hfast hsilent hk hfetches
    show execNvmeSqDoorbell k q n s = _
    simp [execNvmeSqDoorbell, alive_runs _ hfast hsilent, hk, hfetches]
  · intro s k cid a n hfast hsilent hctrlOf hctrlReady hid hn
    show execNvmeSetFeaturesPower k cid n s = _
    simp [execNvmeSetFeaturesPower, alive_runs _ hfast hsilent, hid, Nat.not_lt.2 hn, onAdmin_ready _ hctrlOf hctrlReady, setPower]
  · intro s k cid a n hfast hsilent hctrlOf hctrlReady hid
    show execNvmeSetFeaturesPower k cid n s = _
    simp [execNvmeSetFeaturesPower, alive_runs _ hfast hsilent, hid, onAdmin_ready _ hctrlOf hctrlReady, setPower]
  · intro e s hpwrEntry hpwrCur
    simp [requestPower, hpwrEntry, hpwrCur, beginPower]
  · intro e s hpwrEntry htarget
    simp [requestPower, hpwrEntry, Nat.not_lt.2 htarget, beginPower]
  · intro s e hfast hpwrEntry hwindowOpen
    show execPowerEntryWindowEnd s = _
    simp [execPowerEntryWindowEnd, fast_runs _ hfast, hpwrEntry, hwindowOpen]
  · intro s e hfast hpwrEntry hwindowOpen hany
    show execPowerEntryDone s = _
    simp [execPowerEntryDone, fast_runs _ hfast, hpwrEntry, hwindowOpen, hany]
  · intro s k cid a n hfast hsilent hctrlOf hctrlReady hmin
    show execNvmeSetFeaturesQueues k cid n s = _
    rw [execNvmeSetFeaturesQueues, alive_runs _ hfast hsilent, onAdmin_ready _ hctrlOf hctrlReady]
    exact congrArg Host.Outcome.next (if_neg hmin)
  · intro s k cid a f v hfast hsilent hctrlOf hctrlReady hf hf' hplainFeature
    show execNvmeSetFeatures k cid f v s = _
    simp [execNvmeSetFeatures, alive_runs _ hfast hsilent, hf, hf', hplainFeature, onAdmin_ready _ hctrlOf hctrlReady, setFeatures]
  · intro s k cid a f v hfast hsilent hctrlOf hctrlReady hf hf' hplainFeature
    show execNvmeSetFeatures k cid f v s = _
    simp [execNvmeSetFeatures, alive_runs _ hfast hsilent, hf, hf', hplainFeature, onAdmin_ready _ hctrlOf hctrlReady, setFeatures]
  · intro s k cid a f hfast hsilent hctrlOf hctrlReady hf hf' hplainFeature
    show execNvmeGetFeatures k cid f s = _
    simp [execNvmeGetFeatures, alive_runs _ hfast hsilent, hf, hf', hplainFeature, onAdmin_ready _ hctrlOf hctrlReady, getFeatures]
  · intro s k cid a hfast hsilent hctrlOf hctrlReady
    show execNvmeGetFeatures k cid 0x02 s = _
    simp [execNvmeGetFeatures, alive_runs _ hfast hsilent, onAdmin_ready _ hctrlOf hctrlReady, getFeatures]
  · intro s k cid a hfast hsilent hctrlOf hctrlReady hlength
    show execNvmeAsyncEventRequest k cid s = _
    simp [execNvmeAsyncEventRequest, alive_runs _ hfast hsilent, Nat.not_le.2 hlength, onAdmin_ready _ hctrlOf hctrlReady]
  · intro s k cid a hfast hsilent hctrlOf hctrlReady h
    show execNvmeAsyncEventRequest k cid s = _
    simp [execNvmeAsyncEventRequest, alive_runs _ hfast hsilent, h, onAdmin_ready _ hctrlOf hctrlReady]
  · intro s k cid a hfast hsilent hctrlOf hctrlReady
    show execNvmeKeepAlive k cid s = _
    simp [execNvmeKeepAlive, alive_runs _ hfast hsilent, onAdmin_ready _ hctrlOf hctrlReady]
  · intro s k cid n a hfast hsilent hctrlOf hctrlReady
    show execNvmeInvalidOpcode k ⟨0, cid⟩ n s = _
    simp [execNvmeInvalidOpcode, alive_runs _ hfast hsilent, onAdmin_ready _ hctrlOf hctrlReady]
  · intro s k q cid n hfast hsilent hq hfetches
    show execNvmeInvalidOpcode k ⟨q, cid⟩ n s = _
    simp [execNvmeInvalidOpcode, alive_runs _ hfast hsilent, hq, hfetches]
  · intro s k cid n hfast hsilent hctrlOf
    show execNvmeInvalidOpcode k ⟨0, cid⟩ n s = _
    simp [execNvmeInvalidOpcode, alive_runs _ hfast hsilent, onAdmin_absent _ hctrlOf]

/-- Settles O41. -/
theorem nvmeControllersAndAssociations : Obligations.NvmeControllersAndAssociations := by
  unfold Obligations.NvmeControllersAndAssociations
  refine ⟨?_, ?_, ?_, ?_, ?_, ?_, ?_, ?_, ?_, ?_, ?_, ?_, ?_, ?_, ?_, ?_, ?_, ?_, ?_, ?_, ?_, ?_, ?_, ?_, ?_, ?_⟩
  · intro s k cid a l n g hfast hsilent hctrlOf hctrlReady h h'
    show execNvmeGetLogPage k cid ⟨l, n, g⟩ s = _
    simp [execNvmeGetLogPage, alive_runs _ hfast hsilent, Nat.not_lt.2 h, Nat.not_lt.2 h', onAdmin_ready _ hctrlOf hctrlReady]
  · intro s k cid a l n g hfast hsilent hctrlOf hctrlReady h hg
    show execNvmeGetLogPage k cid ⟨l, n, g⟩ s = _
    simp [execNvmeGetLogPage, alive_runs _ hfast hsilent, hg, Nat.not_lt.2 h, onAdmin_ready _ hctrlOf hctrlReady]
  · intro s k cid a l n g hfast hsilent hctrlOf hctrlReady hmdts
    show execNvmeGetLogPage k cid ⟨l, n, g⟩ s = _
    simp [execNvmeGetLogPage, alive_runs _ hfast hsilent, hmdts, onAdmin_ready _ hctrlOf hctrlReady]
  · intro a cid s
    simp [getLogPage]
  · intro a cid s
    simp [getLogPage]
  · intro s k cid a n m i hfast hsilent hctrlOf hctrlReady
    show execNvmeIdentify k cid ⟨n, i⟩ m s = _
    simp [execNvmeIdentify, alive_runs _ hfast hsilent, onAdmin_ready _ hctrlOf hctrlReady]
  · intro a cid n m i s h hn hi
    simp [identify, h, hn, hi]
  · intro a cid m i s v hm hvolumeOf hattached
    simp [identify, hm, hvolumeOf, hattached]
  · intro a cid m i s hm
    have hnone : (if m = 0 then none else volumeOf s (m - 1)) = none := by
      rcases hm with hm | hm <;> simp [hm]
    simp [identify, hnone]
  · intro s k cid a q t hfast hsilent hctrlOf hctrlReady habortsOf
    show execNvmeAbort k cid q t s = _
    simp [execNvmeAbort, alive_runs _ hfast hsilent, Nat.not_le.2 habortsOf, onAdmin_ready _ hctrlOf hctrlReady, nvmeAbort]
  · intro s k cid b hfast hsilent hfind
    show execAbortArbitration k cid s = _
    simp [execAbortArbitration, alive_runs _ hfast hsilent, hfind]
  · intro b s habortTarget
    simp [arbitrate, habortTarget]
  · intro b s t habortTarget hleftForPeer habortWins
    simp [arbitrate, habortTarget, hleftForPeer, habortWins]
  · intro b s t habortTarget hleftForPeer habortWins
    simp [arbitrate, habortTarget, hleftForPeer, habortWins]
  · intro s k hfast
    show execCcEnClear k s = _
    simp [execCcEnClear, fast_runs _ hfast]
  · intro s k hfast hk
    show execFunctionLevelReset k s = _
    simp [execFunctionLevelReset, fast_runs _ hfast, hk]
  · intro s k c hfast
    show execCcEnSet k c s = _
    simp [execCcEnSet, fast_runs _ hfast, enableCtrl]
  · intro s k hfast hsilent h hctrlOf
    show execKeepAliveExpiry k s = _
    simp [execKeepAliveExpiry, alive_runs _ hfast hsilent, h, hctrlOf]
  · intro s k cid hfast hsilent hdoze h hctrlOf
    show execFabricsDisconnect k cid s = _
    simp [execFabricsDisconnect, wire_runs _ hfast hsilent hdoze, h, hctrlOf]
  · intro s k hfast hsilent
    show execFabricsConnectionLoss k s = _
    simp [execFabricsConnectionLoss, alive_runs _ hfast hsilent]
  · intro s n cid z f h hfast hsilent hdoze hany hfilter
    show execFabricsConnect n cid none 0 z f h s = _
    rw [execFabricsConnect, wire_runs _ hfast hsilent hdoze, if_neg (by rw [hany]; decide)]
    simp [connectAdmin, Nat.not_le.2 hfilter]
  · intro s k cid o v a hfast hsilent hdoze hctrlOf h hpropertyOf
    show execFabricsPropertyGet k cid o s = _
    simp [execFabricsPropertyGet, wire_runs _ hfast hsilent hdoze, hctrlOf, h, hpropertyOf, Option.filter_some]
  · intro s k cid v a hfast hsilent hdoze hctrlOf h hbit
    show execFabricsPropertySet k cid 0x14 v s = _
    simp [execFabricsPropertySet, wire_runs _ hfast hsilent hdoze, hctrlOf, h, hbit, Option.filter_some]
  · intro s k cid v a hfast hsilent hdoze hctrlOf h hbit hen
    show execFabricsPropertySet k cid 0x14 v s = _
    simp [execFabricsPropertySet, wire_runs _ hfast hsilent hdoze, hctrlOf, h, hbit, hen, Option.filter_some]
  · intro s
    show execPerstC0Assert s = _
    simp [execPerstC0Assert]
  · intro s
    show execPerstC1Assert s = _
    simp [execPerstC1Assert]

end Sys2Proof.Machine
end

section
/-! PROOFS. I/O commands at fetch, tags, payloads, reads and the sub-ports' answers (R183 to R225). -/

namespace Sys2Proof.Machine

/-! ### Fetching -/

/-- A PCIe controller's queue is fetched while tags are free for what waits. -/
theorem fetchStops_room {s : State} {k : Nat} (hk : k < 2) (hroom : s.hfe.waiting.length < freeTags s) : fetchStops k s = false := by
  simp [fetchStops, Nat.not_le.2 hk, hroom]

section
variable {s : State} {k q cid : Nat} {cmd : IoCmd}

/-- A fetched command without a refusal joins the waiting list (R186). -/
theorem fetchIo_waits (hfetches : fetches s k q = true) (hk : k < 2) (hroom : s.hfe.waiting.length < freeTags s)
    (hok : ioRefusal s (ctrlOf s k) cmd = none) :
    fetchIo k q cid cmd s = .next { s with hfe.waiting := s.hfe.waiting ++ [{ ctrl := k, sq := q, cid := cid, cmd := cmd }] } := by
  simp [fetchIo, hfetches, fetchStops_room hk hroom, hok]

/-- A refused one completes at once. -/
theorem fetchIo_refused {e : NvmeStatus} (hfetches : fetches s k q = true) (hk : k < 2) (hroom : s.hfe.waiting.length < freeTags s)
    (hfail : ioRefusal s (ctrlOf s k) cmd = some e) : fetchIo k q cid cmd s = .next (emit (.nvmeCpl k q cid e 0 []) s) := by
  simp [fetchIo, hfetches, fetchStops_room hk hroom, hfail, completeUntagged]

end

/-! ### The length checks -/

/-- The commands that move data are none of kind 2 or 4. -/
theorem moves_of_kind {k : Nat} (h : k = 0 ∨ k = 1 ∨ k = 5) : (k == 0 || k == 1 || k == 5) = true ∧ k ≠ 4 ∧ k ≠ 2 := by
  rcases h with rfl | rfl | rfl <;> decide

/-! ### The statements -/

/-- Settles O42. -/
theorem ioCommandsAtFetch : Obligations.IoCommandsAtFetch := by
  unfold Obligations.IoCommandsAtFetch
  refine ⟨?_, ?_, ?_, ?_, ?_, ?_, ?_, ?_, ?_, ?_, ?_, ?_, ?_, ?_, ?_, ?_, ?_, ?_, ?_, ?_, ?_, ?_⟩
  · intro s k q cid n hfast hsilent hfetches hk hlength hioRefusal
    show execNvmeFlush k q cid n s = _
    simp [execNvmeFlush, alive_runs _ hfast hsilent, fetchIo_waits hfetches hk hlength hioRefusal]
  · intro s k q cid n e hfast hsilent hfetches hk hlength hioRefusal
    show execNvmeFlush k q cid n s = _
    simp [execNvmeFlush, alive_runs _ hfast hsilent, fetchIo_refused hfetches hk hlength hioRefusal]
  · intro s k q cid n l b p g hfast hsilent hfetches hk hlength hioRefusal
    show execNvmeWrite k q cid n l b p g s = _
    simp [execNvmeWrite, alive_runs _ hfast hsilent, fetchIo_waits hfetches hk hlength hioRefusal]
  · intro s k q cid n l b p g e hfast hsilent hfetches hk hlength hioRefusal
    show execNvmeWrite k q cid n l b p g s = _
    simp [execNvmeWrite, alive_runs _ hfast hsilent, fetchIo_refused hfetches hk hlength hioRefusal]
  · intro s k q cid n l b p g hfast hsilent hfetches hk hlength hioRefusal
    show execNvmeRead k q cid n l b p g s = _
    simp [execNvmeRead, alive_runs _ hfast hsilent, fetchIo_waits hfetches hk hlength hioRefusal]
  · intro s k q cid n l b p g e hfast hsilent hfetches hk hlength hioRefusal
    show execNvmeRead k q cid n l b p g s = _
    simp [execNvmeRead, alive_runs _ hfast hsilent, fetchIo_refused hfetches hk hlength hioRefusal]
  · intro s k q cid n l b p g hfast hsilent hfetches hk hlength hioRefusal
    show execNvmeCompare k q cid n l b p g s = _
    simp [execNvmeCompare, alive_runs _ hfast hsilent, fetchIo_waits hfetches hk hlength hioRefusal]
  · intro s k q cid n l b p g e hfast hsilent hfetches hk hlength hioRefusal
    show execNvmeCompare k q cid n l b p g s = _
    simp [execNvmeCompare, alive_runs _ hfast hsilent, fetchIo_refused hfetches hk hlength hioRefusal]
  · intro s k q cid n l b z hfast hsilent hfetches hk hlength hioRefusal
    show execNvmeWriteZeroes k q cid n l b z s = _
    simp [execNvmeWriteZeroes, alive_runs _ hfast hsilent, fetchIo_waits hfetches hk hlength hioRefusal]
  · intro s k q cid n l b z e hfast hsilent hfetches hk hlength hioRefusal
    show execNvmeWriteZeroes k q cid n l b z s = _
    simp [execNvmeWriteZeroes, alive_runs _ hfast hsilent, fetchIo_refused hfetches hk hlength hioRefusal]
  · intro s k q cid n z m r g hfast hsilent hfetches hk hlength hioRefusal
    show execNvmeDatasetManagement k q cid n z ⟨m, r, g⟩ s = _
    simp [execNvmeDatasetManagement, alive_runs _ hfast hsilent, fetchIo_waits hfetches hk hlength hioRefusal]
  · intro s k q cid n z m r g e hfast hsilent hfetches hk hlength hioRefusal
    show execNvmeDatasetManagement k q cid n z ⟨m, r, g⟩ s = _
    simp [execNvmeDatasetManagement, alive_runs _ hfast hsilent, fetchIo_refused hfetches hk hlength hioRefusal]
  · intro s k q cid n l b p hfast hsilent hfetches hk hlength hioRefusal
    show execNvmeVerify k q cid n l b p s = _
    simp [execNvmeVerify, alive_runs _ hfast hsilent, fetchIo_waits hfetches hk hlength hioRefusal]
  · intro s k q cid n l b p e hfast hsilent hfetches hk hlength hioRefusal
    show execNvmeVerify k q cid n l b p s = _
    simp [execNvmeVerify, alive_runs _ hfast hsilent, fetchIo_refused hfetches hk hlength hioRefusal]
  · intro s a c hbridge hnsid hioKind
    simp [ioRefusal, hbridge, hnsid, hioKind]
  · intro s a c v hbridge hnsid hioKind hvolumeOf hattached hanaState hioKind'
    obtain ⟨hkind, hprotected⟩ := hioKind'
    obtain ⟨d, hdomain, hwrite⟩ := Option.map_eq_some_iff.1 hprotected
    rcases hkind with hkind | hkind <;>
      simp [ioRefusal, hbridge, hnsid, hkind, hvolumeOf, hattached, hanaState, hdomain, hwrite]
  · intro v here c hioKind hmdts
    obtain ⟨hmoves, -, -⟩ := moves_of_kind hioKind
    simp [lengthRefusal, hmoves, hmdts]
  · intro v here c hioKind hioTransfer hsize
    obtain ⟨hmoves, hranges, hflush⟩ := moves_of_kind hioKind
    simp [lengthRefusal, hmoves, hranges, hflush, Nat.not_lt.2 hioTransfer, hsize]
  · intro v here c hioKind hioTransfer hslba hhere hsglLen
    obtain ⟨hmoves, hranges, hflush⟩ := moves_of_kind hioKind
    simp [lengthRefusal, hmoves, hranges, hflush, Nat.not_lt.2 hioTransfer, Nat.not_lt.2 hslba, hhere, hsglLen]
  · intro v here c hioKind hioTransfer hslba hioTransfer'
    obtain ⟨hmoves, hranges, hflush⟩ := moves_of_kind hioKind
    simp [lengthRefusal, hmoves, hranges, hflush, Nat.not_lt.2 hioTransfer, Nat.not_lt.2 hslba, Nat.not_lt.2 hioTransfer']
  · intro s t g c hfast hsilent hpaired hbridge hopcode hioRefusal
    show execFwdCmd t g c s = _
    simp [execFwdCmd, alive_runs _ hfast hsilent, hopcode, hioRefusal, fromPeer_paired hpaired hbridge]
  · intro s t g c e hfast hsilent hpaired hbridge hopcode hioRefusal
    show execFwdCmd t g c s = _
    simp [execFwdCmd, alive_runs _ hfast hsilent, hopcode, hioRefusal, fromPeer_paired hpaired hbridge, completeUntagged]

/-- Settles O43. -/
theorem tagsPayloadsReadsAndSubports : Obligations.TagsPayloadsReadsAndSubports := by
  unfold Obligations.TagsPayloadsReadsAndSubports
  refine ⟨?_, ?_, ?_, ?_, ?_, ?_, ?_, ?_, ?_, ?_, ?_, ?_, ?_, ?_, ?_, ?_, ?_, ?_, ?_, ?_⟩
  · intro s w l i g hfast hsilent hdoze hwaiting hnextTag hpeerTag hioRefusal hlength hforwards
    show execTagAssign s = _
    simp [execTagAssign, engine_runs _ hfast hsilent hdoze, hwaiting, hnextTag, hpeerTag, hioRefusal, hforwards, Nat.not_le.2 hlength]
  · intro s w l i g e hfast hsilent hdoze hwaiting hnextTag hpeerTag hioRefusal
    show execTagAssign s = _
    simp [execTagAssign, engine_runs _ hfast hsilent hdoze, hwaiting, hnextTag, hpeerTag, hioRefusal, completeUntagged]
  · intro s hfreeNext
    simp [nextTag, hfreeNext]
  · intro s i g t l h hfreed
    simp [nextTag, hfreed, Nat.not_lt.2 h]
  · intro s n t b k hfast hsilent hdoze htagOf hkind hforwarded hstate hlength
    show execWritePayloadData n b true k s = _
    simp [execWritePayloadData, engine_runs _ hfast hsilent hdoze, htagOf, hkind, hforwarded, hstate, hlength]
  · intro t k s v hvolumeOf hpi
    simp [payloadWhole, hvolumeOf, hpi, ingest]
  · intro t k s v e hvolumeOf hpi hmetaBytes hpract hfirstBad he
    simp [payloadWhole, hvolumeOf, hpi, hmetaBytes, hpract, hfirstBad, he]
  · intro s n t v hfast hsilent hdoze htagOf hstate hforwarded hkind hvolumeOf hkeylessVolume hhit hguardsAgree hfirstLost
    show execReadDataReady n s = _
    rcases hkind with hkind | hkind <;>
      simp [execReadDataReady, engine_runs _ hfast hsilent hdoze, htagOf, hstate, hforwarded, hkind, hvolumeOf, hkeylessVolume, hhit,
        hguardsAgree, hfirstLost]
  · intro s n t v hfast hsilent hdoze htagOf hstate hforwarded hkind hvolumeOf hkeylessVolume hhit hguardsAgree
    show execReadDataReady n s = _
    rcases hkind with hkind | hkind <;>
      simp [execReadDataReady, engine_runs _ hfast hsilent hdoze, htagOf, hstate, hforwarded, hkind, hvolumeOf, hkeylessVolume, hhit,
        hguardsAgree]
  · intro s n t l hfast hsilent hpidVal htagOf hlockOf hgranted hwarned
    show execLockWaitWarning (.tag n) s = _
    simp [execLockWaitWarning, alive_runs _ hfast hsilent, hpidVal, htagOf, hlockOf, hgranted, hwarned]
  · intro s r q l hfast hsilent hpidVal hfind hwarned
    show execLockWaitWarning (.plem r q) s = _
    simp [execLockWaitWarning, alive_runs _ hfast hsilent, hpidVal, hfind, hwarned]
  · intro s w hfast hsilent hpidVal
    show execLockWaitWarning w s = _
    simp [execLockWaitWarning, alive_runs _ hfast hsilent, hpidVal]
  · intro s n a v hfast hsilent hvolumeOf hmoving hany hownsVolume
    show execOwnershipMovePass n a s = _
    simp [execOwnershipMovePass, alive_runs _ hfast hsilent, hvolumeOf, hmoving, hany, hownsVolume]
  · intro s n a v hfast hsilent hvolumeOf hmoving hany hownsVolume
    show execOwnershipMovePass n a s = _
    simp [execOwnershipMovePass, alive_runs _ hfast hsilent, hvolumeOf, hmoving, hany, hownsVolume]
  · intro s n v f p hfast hsilent hsubRuns
    show execEthLinkChange n true v f p s = _
    simp [execEthLinkChange, alive_runs _ hfast hsilent, hsubRuns]
  · intro s n v f p hfast hsilent hsubRuns
    show execEthLinkChange n false v f p s = _
    simp [execEthLinkChange, alive_runs _ hfast hsilent, hsubRuns]
  · intro s n a hfast hsilent hdoze hsubUp hsubV6 ha
    show execArpRequest n a s = _
    simp [execArpRequest, wire_runs _ hfast hsilent hdoze, hsubUp, hsubV6, ha, answerAddress]
  · intro s n a hfast hsilent hdoze hsubUp ha
    show execArpRequest n a s = _
    simp [execArpRequest, wire_runs _ hfast hsilent hdoze, hsubUp, ha, answerAddress]
  · intro s n a hfast hsilent hdoze hsubUp hsubV6 ha
    show execNeighborSolicitation n a s = _
    simp [execNeighborSolicitation, wire_runs _ hfast hsilent hdoze, hsubUp, hsubV6, ha, answerAddress]
  · intro s n a p hfast hsilent hdoze hsubUp ha
    show execIcmpEchoRequest n a p s = _
    simp [execIcmpEchoRequest, wire_runs _ hfast hsilent hdoze, hsubUp, ha, answerAddress]

end Sys2Proof.Machine
end

section
/-! PROOFS. The packets of the remote memory access engine (R285 to R330). -/

namespace Sys2Proof.Machine

/-! ### Packets of a connection that is ready -/

/-- A packet without the congestion mark leaves the congestion notice alone. -/
@[simp] theorem marked_false (n : Nat) (s : State) : marked false n s = s := by simp [marked]

/-- A marked one asks for the notice. -/
@[simp] theorem marked_true (n : Nat) (s : State) : marked true n s = noteCe n s := by simp [marked]

/-- A head that serves no bridge has no bridging to end. -/
theorem withBridge_off (f : State → State) {s : State} (h : s.hdl.bridge = false) : withBridge f s = f s := by
  simp [withBridge, h]

/-- The packets that ask something of this head; the others answer what it sent. -/
def asksSomething : RocePkt → Bool
  | .ack _ | .readResp _ _ | .atomicAck _ | .cnp => false
  | _ => true

/-- The state with the time of connection `n`'s last use set to now. -/
def touchConn (n : Nat) (s : State) : State := updConn n (fun c => { c with lastUse := s.now }) s

section
variable {s : State} {n p : Nat} {c : Conn} {q : RocePkt}

/-- A packet of a connection whose context is on-die is received at once. -/
theorem arrive_onDie (hconn : connOf s n = some c) (hplain : plainConn s c = false) (honDie : c.onDie = true)
    (hbridge : s.hdl.bridge = false) : arrive n p q s = receive n p q s := by
  simp [arrive, hconn, hplain, honDie, withBridge_off _ hbridge]

/-- On a ready single-path connection the request with the expected number runs. -/
theorem arrive_inOrder (hconn : connOf s n = some c) (hplain : plainConn s c = false) (honDie : c.onDie = true)
    (hbridge : s.hdl.bridge = false) (hcls : c.cls ≠ 1) (hready : c.state = 2) (hpath : multipath c = false)
    (horder : p % 2 ^ 24 = c.expPsn) (hasks : asksSomething q = true) : arrive n p q s = runRequest c p q (touchConn n s) := by
  rw [arrive_onDie hconn hplain honDie hbridge]
  cases q <;> simp_all [receive, touchConn, recvSingle, asksSomething]

end

/-! ### Requests judged by their number -/

/-- Request number `p` in its 24 bits, as the simplifier writes the modulus. -/
theorem psn_ne {p e : Nat} (h : p % 2 ^ 24 ≠ e) : ¬p % 16777216 = e := h

/-! ### Retransmission and contexts -/

/-- A requester with unanswered messages sends them again when the timer runs out. -/
theorem retransmits_ready {c : Conn} (hsent : c.sent ≠ []) (hstate : c.state = 2 ∨ c.state = 3) : retransmits c = true := by
  simp [retransmits, hsent, hstate]

/-- A context that comes back with no packet missed and no timer due goes on sending. -/
theorem contextReady_idle {s : State} (n : Nat) (hbridge : s.hdl.bridge = false) :
    contextReady n [] false s = pumpConn (pumpFuel s n) n s := by
  have hsame : withBridge (fun s => s) s = s := withBridge_off _ hbridge
  cases hconn : connOf s n <;> simp [contextReady, hsame, hconn]

/-! ### The statement -/

/-- Settles O44. -/
theorem remoteMemoryPackets : Obligations.RemoteMemoryPackets := by
  unfold Obligations.RemoteMemoryPackets
  refine ⟨?_, ?_, ?_, ?_, ?_, ?_, ?_, ?_, ?_, ?_, ?_, ?_, ?_, ?_, ?_, ?_, ?_, ?_, ?_, ?_, ?_, ?_, ?_, ?_, ?_, ?_, ?_, ?_⟩
  · intro s n p c l f e b hfast hsilent hdoze hconnOf hplainConn honDie hcls hstate hbridge hmultipath hp
    show execSend n ⟨p, false⟩ l f e b s = _
    exact (wire_runs _ hfast hsilent hdoze).trans
      (congrArg Host.Outcome.next (arrive_inOrder hconnOf hplainConn honDie hbridge hcls hstate hmultipath hp rfl))
  · intro s n p c k v l f e b hfast hsilent hdoze hconnOf hplainConn honDie hcls hstate hbridge hmultipath hp
    show execRdmaWrite n ⟨p, false⟩ k v l f e none b s = _
    exact (wire_runs _ hfast hsilent hdoze).trans
      (congrArg Host.Outcome.next (arrive_inOrder hconnOf hplainConn honDie hbridge hcls hstate hmultipath hp rfl))
  · intro s n p c k v l m b hfast hsilent hdoze hconnOf hplainConn honDie hcls hstate hbridge hmultipath hpsnBehind hcontains
    show execRdmaWrite n ⟨p, false⟩ k v l true true (some m) b s = _
    have hnew : p % 16777216 ∉ c.rcvd := by simpa using hcontains
    simp [execRdmaWrite, wire_runs _ hfast hsilent hdoze, arrive_onDie hconnOf hplainConn honDie hbridge, receive, hconnOf, hcls, hstate,
      hmultipath, hpsnBehind, hnew]
  · intro s n p c k v l hfast hsilent hdoze hconnOf hplainConn honDie hcls hstate hbridge hmultipath hp
    show execRdmaReadRequest n ⟨p, false⟩ k v l s = _
    exact (wire_runs _ hfast hsilent hdoze).trans
      (congrArg Host.Outcome.next (arrive_inOrder hconnOf hplainConn honDie hbridge hcls hstate hmultipath hp rfl))
  · intro s n p c k v x w hfast hsilent hdoze hconnOf hplainConn honDie hcls hstate hbridge hmultipath hp
    show execCompareSwap n ⟨p, false⟩ k v x w s = _
    exact (wire_runs _ hfast hsilent hdoze).trans
      (congrArg Host.Outcome.next (arrive_inOrder hconnOf hplainConn honDie hbridge hcls hstate hmultipath hp rfl))
  · intro s n p c k v x hfast hsilent hdoze hconnOf hplainConn honDie hcls hstate hbridge hmultipath hp
    show execFetchAdd n ⟨p, false⟩ k v x s = _
    exact (wire_runs _ hfast hsilent hdoze).trans
      (congrArg Host.Outcome.next (arrive_inOrder hconnOf hplainConn honDie hbridge hcls hstate hmultipath hp rfl))
  · intro s n p l f e b hfast hsilent hdoze
    show execSend n ⟨p, true⟩ l f e b s = _
    simp [execSend, wire_runs _ hfast hsilent hdoze]
  · intro s n c hconnOf hcnpAt hmultipath
    simp [noteCe, hconnOf, hcnpAt, hmultipath]
  · intro s n t c hconnOf hcnpAt hnow
    simp [noteCe, hconnOf, hcnpAt, hnow]
  · intro s n p c k hfast hsilent hdoze hconnOf hplainConn honDie hcls hstate hbridge
    show execAcknowledge n ⟨p, false⟩ k s = _
    simp [execAcknowledge, wire_runs _ hfast hsilent hdoze, hconnOf, hcls, hstate, arrive_onDie hconnOf hplainConn honDie hbridge, receive]
  · intro s n p c e b hfast hsilent hdoze hconnOf hplainConn honDie hcls hstate hbridge
    show execRdmaReadResponse n ⟨p, false⟩ e b s = _
    simp [execRdmaReadResponse, wire_runs _ hfast hsilent hdoze, hconnOf, hcls, hstate, arrive_onDie hconnOf hplainConn honDie hbridge, receive]
  · intro s n p c v hfast hsilent hdoze hconnOf hplainConn honDie hcls hstate hbridge
    show execAtomicAcknowledge n ⟨p, false⟩ v s = _
    simp [execAtomicAcknowledge, wire_runs _ hfast hsilent hdoze, hconnOf, hcls, hstate, arrive_onDie hconnOf hplainConn honDie hbridge, receive]
  · intro s n c hfast hsilent hdoze hconnOf hplainConn honDie hcls hstate hbridge
    show execCnp n s = _
    simp [execCnp, wire_runs _ hfast hsilent hdoze, hconnOf, hcls, hstate, arrive_onDie hconnOf hplainConn honDie hbridge, receive]
  · intro s n p c hfast hsilent hdoze hconnOf hplainConn honDie hcls hstate hbridge hmultipath hp hnum
    show execRoceUnsupportedPacket n p false false s = _
    subst hnum
    exact (wire_runs _ hfast hsilent hdoze).trans
      (congrArg Host.Outcome.next (arrive_inOrder hconnOf hplainConn honDie hbridge hcls hstate hmultipath hp rfl))
  · intro s n p f hfast hsilent hdoze
    show execRoceUnsupportedPacket n p f true s = _
    simp [execRoceUnsupportedPacket, wire_runs _ hfast hsilent hdoze]
  · intro s n p hfast hsilent hdoze
    show execRoceUnsupportedPacket n p true false s = _
    simp [execRoceUnsupportedPacket, wire_runs _ hfast hsilent hdoze]
  · intro c p q s hp hpsnBehind
    simp [recvSingle, psn_ne hp, hpsnBehind]
  · intro c p q s hp hpsnBehind hmultipath
    simp [recvSingle, psn_ne hp, hpsnBehind, hmultipath]
  · intro s n p q hconnOf
    simp [arrive, hconnOf]
  · intro s n p q c hconnOf hplainConn honDie hlength hmissDepth
    simp [arrive, hconnOf, hplainConn, honDie, Nat.not_le.2 hlength, Nat.not_le.2 hmissDepth]
  · intro c p l e s hl hrecvFree
    simp [recvSend, hrecvFree, Nat.not_lt.2 hl]
  · intro c p k v l a r b s hl hcheckTarget
    simp [recvWrite, hcheckTarget, Nat.not_lt.2 hl]
  · intro c p k v l e b s hl hcheckTarget
    simp [recvWrite, hcheckTarget, Nat.not_lt.2 hl]
  · intro c p k v l a r s hl hcheckTarget hengineReads
    simp [recvRead, hcheckTarget, hengineReads, Nat.not_lt.2 hl]
  · intro c p k v a r f s hcheckTarget ha hengineReads
    simp [recvAtomic, hcheckTarget, ha, hengineReads]
  · intro c k v l i s hcls hprot hregionOf hregionOf' hregionOf'' hbit hv
    have hclass : ¬c.cls < 2 := by omega
    simp [checkTarget, hclass, hprot, hregionOf, hregionOf', hregionOf'', hbit, hv]
  · intro s n c t hfast hsilent hconnOf honDie hmakeRoom hmissQ htimerDue hbridge hbridge'
    show execContextFetchDone n s = _
    simp only [execContextFetchDone, alive_runs _ hfast hsilent, hconnOf, honDie, hmakeRoom, hmissQ, htimerDue, Bool.false_eq_true, if_false]
    exact congrArg Host.Outcome.next (contextReady_idle n hbridge')
  · intro s n c hfast hsilent hconnOf hnum hsent honDie hstate hretries
    show execRetransmitTimeout n s = _
    simp [execRetransmitTimeout, alive_runs _ hfast hsilent, hconnOf, retransmits_ready hsent hstate, honDie, retransmit, hnum, Nat.not_le.2 hretries]

end Sys2Proof.Machine
end

section
/-! PROOFS. Connections, security associations and regions (R285 to R330). -/

namespace Sys2Proof.Machine

/-! ### Connections -/

/-- A class 2 or 3 request without a security association is not one that PID 0x0600 drops. -/
theorem plainDropped_pinned (s : State) (k : Nat) {l : Nat} (h : 2 ≤ l) (i : Option Nat) : plainDropped s k l i = false := by
  simp [plainDropped, Nat.not_lt.2 h]

/-- A class 0 or 1 request without one is dropped where PID 0x0600 asks for one. -/
theorem plainDropped_asked {s : State} {k l : Nat} (h : l < 2) (hbit : bit (pidVal s 0x0600) k = true) : plainDropped s k l none = true := by
  simp [plainDropped, h, hbit]

/-- Where PID 0x0600 does not ask for one, nothing is dropped. -/
theorem plainDropped_open {s : State} {k : Nat} (l : Nat) (i : Option Nat) (hbit : bit (pidVal s 0x0600) k = false) :
    plainDropped s k l i = false := by
  simp [plainDropped, hbit]

/-- A message of the set-up runs on a connection of its state. -/
theorem inState_runs {s : State} {n k : Nat} {ours : Bool} {c : Conn} (f : Conn → State → State) (hconn : connOf s n = some c)
    (hplain : plainConn s c = false) (hstate : c.state = k) (hcls : c.cls ≠ 1) (hours : c.ours = ours) :
    inState n k ours f s = .next (f c s) := by
  simp [inState, hconn, hplain, hstate, hcls, hours]

/-! ### The receive window of a security association -/

/-- A sequence number inside the window is not one to drop. -/
theorem inWindow {a : SaPair} {n : Int} (hedge : windowEdge a ≤ n) (hsign : 0 ≤ n) : ¬(n < windowEdge a ∨ n < 0) :=
  not_or.2 ⟨Int.not_lt.2 hedge, Int.not_lt.2 hsign⟩

section
variable {s : State} {i q : Nat} {a : SaPair}

/-- A packet inside the window is a replay when its number was seen, and otherwise its check decides (R322). -/
theorem espInbound_inWindow (icvOk : Bool) (hfast : s.boot.fastStopped = false) (hsilent : s.saf.failSilent = false)
    (hdoze : s.pwr.doze = false) (hsaOf : saOf s i = some a) (hedge : windowEdge a ≤ inferSeq a.inHigh (q % 2 ^ 32))
    (hsign : 0 ≤ inferSeq a.inHigh (q % 2 ^ 32)) :
    execEspInboundPacket i q icvOk s =
      (if a.inSeen.contains (inferSeq a.inHigh (q % 2 ^ 32)).toNat then
        .next (countEvent 0x065 0 { s with rma.replayDrop := satAdd (2 ^ 32 - 1) s.rma.replayDrop 1 })
      else if !icvOk then .next (countEvent 0x066 0 { s with rma.icvFail := satAdd (2 ^ 32 - 1) s.rma.icvFail 1 })
      else .next (espAccept i (inferSeq a.inHigh (q % 2 ^ 32)).toNat s)) := by
  rw [execEspInboundPacket, wire_runs _ hfast hsilent hdoze, hsilent, hsaOf]
  exact if_neg (inWindow hedge hsign)

end

/-! ### The drain of a connection that is torn down -/

/-- Where no region is being revoked, no message waits for a revocation. -/
theorem noneRevoked {s : State} (l : List Inflight) (h : s.rma.revoking = none) :
    (l.any fun m => s.rma.revoking.isSome && m.region == s.rma.revoking) = false := by
  simp [h]

/-! ### The statement -/

/-- Settles O45. -/
theorem connectionsSasAndRegions : Obligations.ConnectionsSasAndRegions := by
  unfold Obligations.ConnectionsSasAndRegions
  refine ⟨?_, ?_, ?_, ?_, ?_, ?_, ?_, ?_, ?_, ?_, ?_, ?_, ?_, ?_, ?_, ?_, ?_, ?_, ?_, ?_, ?_, ?_, ?_, ?_, ?_, ?_, ?_, ?_, ?_, ?_, ?_, ?_, ?_⟩
  · intro s k l m i hfast hsilent hdoze hsubUp
    show execCmReq k l m i s = _
    simp [execCmReq, wire_runs _ hfast hsilent hdoze, hsubUp]
  · intro s k m n hm hpinnedTaken hfreeConnNum
    have hmtu : (m == 1024 || m == 2048 || m == 4096) = true := by simpa [or_assoc] using hm
    simp [cmReq, plainDropped_pinned, hmtu, Nat.not_le.2 hpinnedTaken, hfreeConnNum]
  · intro s k m hm hm' hm''
    simp [cmReq, hm, hm', hm'', plainDropped_pinned]
  · intro s k l m hl hbit
    simp [cmReq, plainDropped_asked hl hbit]
  · intro s k d i hfast hsilent hdoze hsubUp
    show execTcpSyn k d i s = _
    simp [execTcpSyn, wire_runs _ hfast hsilent hdoze, hsubUp]
  · intro s k d n hbit hbit' hnumAt hfreeConnNum
    simp only [tcpSyn, plainDropped_open 1 none hbit, hbit', hnumAt, hfreeConnNum]
    cases hconn : connOf (tcpSend n 0 (addConn { num := n, cls := 1, prot := 0, sub := k } s)) n <;> simp [hconn]
  · intro s n c h d hfast hsilent hdoze hconnOf hcls hstate hplainConn
    show execNvmeTcpIcreq n false h d s = _
    simp [execNvmeTcpIcreq, wire_runs _ hfast hsilent hdoze, hconnOf, hcls, hstate, hplainConn]
  · intro s n c h d hfast hsilent hdoze hconnOf hcls hstate hplainConn
    show execNvmeTcpIcreq n true h d s = _
    simp [execNvmeTcpIcreq, wire_runs _ hfast hsilent hdoze, hconnOf, hcls, hstate, hplainConn]
  · intro s n c hfast hsilent hdoze hconnOf hplainConn hstate hcls hours
    show execCmRep n s = _
    simp [execCmRep, wire_runs _ hfast hsilent hdoze, inState_runs _ hconnOf hplainConn hstate hcls hours]
  · intro s n c hfast hsilent hdoze hconnOf hplainConn hstate hcls hours
    show execCmRtu n s = _
    simp [execCmRtu, wire_runs _ hfast hsilent hdoze, inState_runs _ hconnOf hplainConn hstate hcls hours]
  · intro s n r c hfast hsilent hdoze hconnOf hplainConn hstate hcls hours
    show execCmRej n r s = _
    simp [execCmRej, wire_runs _ hfast hsilent hdoze, inState_runs _ hconnOf hplainConn hstate hcls hours]
  · intro s n c hfast hsilent hdoze hconnOf hplainConn hcls
    show execCmDreq n s = _
    simp [execCmDreq, wire_runs _ hfast hsilent hdoze, hconnOf, hplainConn, hcls]
  · intro s n hfast hsilent hdoze
    show execCmDrep n s = _
    simp [execCmDrep, wire_runs _ hfast hsilent hdoze]
  · intro s n hfast hsilent hdoze
    show execCmMra n s = _
    simp [execCmMra, wire_runs _ hfast hsilent hdoze]
  · intro s i q k hfast hdoze hsilent hsaOf
    show execEspInboundPacket i q k s = _
    simp [execEspInboundPacket, wire_runs _ hfast hsilent hdoze, hsilent, hsaOf]
  · intro s i q a hfast hdoze hsilent hsaOf hwindowEdge h hcontains
    show execEspInboundPacket i q true s = _
    rw [espInbound_inWindow true hfast hsilent hdoze hsaOf hwindowEdge h, hcontains]
    rfl
  · intro s i q a hfast hdoze hsilent hsaOf hwindowEdge h hcontains
    show execEspInboundPacket i q false s = _
    rw [espInbound_inWindow false hfast hsilent hdoze hsaOf hwindowEdge h, hcontains]
    rfl
  · intro s i q k a hfast hdoze hsilent hsaOf hwindowEdge h hcontains
    show execEspInboundPacket i q k s = _
    rw [espInbound_inWindow k hfast hsilent hdoze hsaOf hwindowEdge h, hcontains]
    rfl
  · intro s k hfast hsilent
    show execPendingSaExpiry k s = _
    simp [execPendingSaExpiry, alive_runs _ hfast hsilent]
  · intro s n hfast hsilent
    show execOldSaExpiry n s = _
    simp [execOldSaExpiry, alive_runs _ hfast hsilent]
  · intro s ring seq c hfast hc hport
    show execKeyInstallSa ring seq s = _
    simp [execKeyInstallSa, fast_runs _ hfast, auditedOp_taken hc hport, keyInstallSa]
  · intro d s n i o hnums
    simp [applyKeyInstallSa, hnums, show bit 0 0 = false from rfl, show bit 0 1 = false from rfl]
  · intro s ring seq c w i x hfast hc hport hbufferRegion hpk hconnOf hprot hfreeRegion
    show execRegionRegister ring seq s = _
    simp [execRegionRegister, fast_runs _ hfast, auditedOp_taken hc hport, regionRegister, hbufferRegion, hconnOf, hprot, hfreeRegion, Nat.not_lt.2 hpk]
  · intro s ring seq c hfast hc hport hbufferRegion
    show execRegionRegister ring seq s = _
    simp [execRegionRegister, fast_runs _ hfast, auditedOp_taken hc hport, regionRegister, hbufferRegion]
  · intro s c d i t b l r n hopcode hnums
    simp +decide [applyCommand, hopcode, hnums, applyRegionRegister]
  · intro s ring seq c hfast hc hport hlongOpOf hregionOf hregionOf'
    show execRegionRevoke ring seq s = _
    simp [execRegionRevoke, fast_runs _ hfast, auditedOp_taken hc hport, regionRevoke, hlongOpOf, hregionOf, hregionOf']
  · intro s ring seq c hfast hc hport hlongOpOf hregionOf
    show execRegionRevoke ring seq s = _
    simp [execRegionRevoke, fast_runs _ hfast, auditedOp_taken hc hport, regionRevoke, hlongOpOf, hregionOf]
  · intro s i hfast hsilent hrevoking hregionOf hrevokeWarn
    show execRegionRevokeEnd s = _
    simp [execRegionRevokeEnd, alive_runs _ hfast hsilent, hrevoking, hregionOf, hrevokeWarn]
  · intro s ring seq c x hfast hc hport hconnOf hdraining
    show execConnTeardown ring seq s = _
    simp [execConnTeardown, fast_runs _ hfast, auditedOp_taken hc hport, connTeardown, hconnOf, hdraining]
  · intro s ring seq c hfast hc hport hconnOf
    show execConnTeardown ring seq s = _
    simp [execConnTeardown, fast_runs _ hfast, auditedOp_taken hc hport, connTeardown, hconnOf]
  · intro s n c hfast hsilent hconnOf hdraining hrevoking
    show execRevokeDrainTimeout n s = _
    simp [execRevokeDrainTimeout, alive_runs _ hfast hsilent, hconnOf, hdraining, hrevoking]
  · intro s n c hfast hsilent hconnOf hdraining hmsgs hrevoking
    show execRevokeDrainTimeout n s = _
    simp only [execRevokeDrainTimeout, alive_runs _ hfast hsilent, hconnOf, noneRevoked c.msgs hrevoking, hdraining]
    simp [hmsgs, updConn]
  · intro s n c hfast hsilent hconnOf hdraining hmsgs htrackers hsent
    show execTeardownDrainEnd n s = _
    simp [execTeardownDrainEnd, alive_runs _ hfast hsilent, hconnOf, hdraining, hmsgs, htrackers, hsent]

end Sys2Proof.Machine
end

section
/-! PROOFS. The data mover: descriptors, bursts, arrivals and the service lanes (R453 to R472). -/

namespace Sys2Proof.Machine

/-! ### Taking a descriptor -/

/-- The bytes that a descriptor of operation `op` moves. -/
def descTotal (op : Nat) (d : DmvDesc) (srcs : List SgEntry) : Nat := if op = 1 then totalOf srcs else if op = 2 then d.dstLen else 0

/-- The state in which lane `n` runs the descriptor just taken. -/
def runDesc (n op : Nat) (d : DmvDesc) (srcs : List SgEntry) (s : State) : State :=
  updLane n (fun l => { l with
    run := some { op := op, desc := d, srcs := srcs, total := descTotal op d srcs, id := s.dmv.nextId }, fenceWait := decide (3 ≤ op) })
    { s with dmv.nextId := s.dmv.nextId + 1 }

/-- Only a FLUSH flushes nothing. -/
theorem flushesNothing_other (s : State) {op : Nat} (d : DmvDesc) (h : op ≠ 4) : flushesNothing s op d = false := by
  simp [flushesNothing, h]

section
variable {s : State} {n op : Nat} {d : DmvDesc} {g : List SgEntry}

/-- A descriptor that fails a check is refused (R457). -/
theorem takeDesc_refused {f : DmvFail} (htakes : takes s n = true)
    (hfail : descFail (nextDescriptor n s) n op d (g.take d.srcCount) = some f) :
    takeDesc n op d g s = .next (refuseDesc n op d f (nextDescriptor n s)) := by
  simp [takeDesc, htakes, hfail]

/-- One that passes them with something to do runs on its lane. -/
theorem takeDesc_runs (htakes : takes s n = true) (hpass : descFail (nextDescriptor n s) n op d (g.take d.srcCount) = none)
    (hmoves : op ≤ 2 → descTotal op d (g.take d.srcCount) ≠ 0) (hflush : flushesNothing (nextDescriptor n s) op d = false) :
    takeDesc n op d g s = .next (passFences (runDesc n op d (g.take d.srcCount) (nextDescriptor n s))) := by
  simp only [takeDesc, htakes, hpass, Bool.not_true, Bool.false_eq_true, if_false]
  exact if_neg (not_or.2 ⟨not_and.2 hmoves, (Bool.eq_false_iff.1 hflush)⟩)

/-- One that passes them with nothing to do is complete at once. -/
theorem takeDesc_done {srcs : List SgEntry} (htakes : takes s n = true) (hsrcs : g.take d.srcCount = srcs)
    (hpass : descFail (nextDescriptor n s) n op d srcs = none)
    (hnothing : (op ≤ 2 ∧ descTotal op d srcs = 0) ∨ flushesNothing (nextDescriptor n s) op d = true) :
    takeDesc n op d g s = .next (completeRun n (runDesc n op d srcs (nextDescriptor n s))) := by
  simp only [takeDesc, hsrcs, htakes, hpass, Bool.not_true, Bool.false_eq_true, if_false]
  exact if_pos hnothing

end

/-! ### Service lanes -/

/-- Lanes 14 and 15 are the service lanes. -/
theorem serviceLane_of_le {n : Nat} (h : 14 ≤ n) : serviceLane n = true := decide_eq_true h

/-! ### The statement -/

/-- Settles O46. -/
theorem dataMoverCommands : Obligations.DataMoverCommands := by
  unfold Obligations.DataMoverCommands
  refine ⟨?_, ?_, ?_, ?_, ?_, ?_, ?_, ?_, ?_, ?_, ?_, ?_, ?_, ?_, ?_, ?_, ?_, ?_, ?_, ?_, ?_, ?_, ?_, ?_, ?_⟩
  · intro s n d g hfast hsilent hdoze htakes hdescFail htotalOf
    show execCopy n d g s = _
    rw [execCopy, engine_runs _ hfast hsilent hdoze]
    exact takeDesc_runs htakes hdescFail (fun _ => htotalOf) (flushesNothing_other _ d (by decide))
  · intro s n d g f hfast hsilent hdoze htakes hdescFail
    show execCopy n d g s = _
    simp [execCopy, engine_runs _ hfast hsilent hdoze, takeDesc_refused htakes hdescFail]
  · intro s n d hfast hsilent hdoze htakes hdescFail hdstLen
    show execFill n d s = _
    rw [execFill, engine_runs _ hfast hsilent hdoze]
    exact takeDesc_runs htakes hdescFail (fun _ => hdstLen) (flushesNothing_other _ d (by decide))
  · intro s n d f hfast hsilent hdoze htakes hdescFail
    show execFill n d s = _
    exact (engine_runs _ hfast hsilent hdoze).trans (takeDesc_refused htakes hdescFail)
  · intro s n d hfast hsilent hdoze htakes hdescFail
    show execFence n d s = _
    rw [execFence, engine_runs _ hfast hsilent hdoze]
    exact takeDesc_runs htakes hdescFail (fun h => absurd h (by decide)) (flushesNothing_other _ d (by decide))
  · intro s n d f hfast hsilent hdoze htakes hdescFail
    show execFence n d s = _
    exact (engine_runs _ hfast hsilent hdoze).trans (takeDesc_refused htakes hdescFail)
  · intro s n d hfast hsilent hdoze htakes hdescFail hflushesNothing
    show execFlush n d s = _
    rw [execFlush, engine_runs _ hfast hsilent hdoze]
    exact takeDesc_runs htakes hdescFail (fun h => absurd h (by decide)) hflushesNothing
  · intro s n d f hfast hsilent hdoze htakes hdescFail
    show execFlush n d s = _
    exact (engine_runs _ hfast hsilent hdoze).trans (takeDesc_refused htakes hdescFail)
  · intro s n d hfast hsilent hdoze htakes hdescFail hflushesNothing
    show execFlush n d s = _
    exact (engine_runs _ hfast hsilent hdoze).trans (takeDesc_done htakes List.take_nil hdescFail (.inr hflushesNothing))
  · intro s n d hfast hsilent hdoze htakes hdescFail hdstLen
    show execFill n d s = _
    rw [execFill, engine_runs _ hfast hsilent hdoze, takeDesc_done htakes List.take_nil hdescFail (.inl ⟨by decide, hdstLen⟩)]
    simp only [runDesc, descTotal, hdstLen]
    rfl
  · intro n op d f s hdenied
    simp [refuseDesc, hdenied]
  · intro s q n a r hfast hdoze hsilent hgrantLane hlaneOf hlet hlet'
    show execBurstGrant q a s = _
    simp [execBurstGrant, engine_runs _ hfast hsilent hdoze, hgrantLane, hlaneOf, hlet, hlet']
  · intro s q a hfast hdoze hsilent hgrantLane
    show execBurstGrant q a s = _
    simp [execBurstGrant, engine_runs _ hfast hsilent hdoze, hgrantLane]
  · intro q n a s hfind
    simp [grantLane, hfind]
  · intro s n hfast hsilent hdoze
    show execPaceRequestResume n s = _
    simp [execPaceRequestResume, engine_runs _ hfast hsilent hdoze]
  · intro s n r t hfast hsilent hdoze hlaneOf hlaneOf'
    show execPaceTimeout n s = _
    simp [execPaceTimeout, engine_runs _ hfast hsilent hdoze, hlaneOf, hlaneOf']
  · intro s n k hfast hsilent hdoze
    show execWritesArrived n k s = _
    simp [execWritesArrived, engine_runs _ hfast hsilent hdoze]
  · intro w s hspace hcacheable
    simp [arriveWrite, hspace, hcacheable]
  · intro w s hspace
    simp [arriveWrite, hspace]
  · intro s n r hfast hsilent hdoze hlaneOf hop hlaneOf'
    show execC0WriteArrivalTimeout n s = _
    simp [execC0WriteArrivalTimeout, engine_runs _ hfast hsilent hdoze, hlaneOf, hop, hlaneOf']
  · intro s n v hfast h hn
    show execDmvSvcCfgWrite n v s = _
    simp [execDmvSvcCfgWrite, fast_runs _ hfast, hn, serviceLane_of_le h]
  · intro n v s hlaneOf hbit h hfield
    simp [svcCfgWrite, hlaneOf, hbit, Nat.not_lt.2 h, Nat.not_lt.2 hfield]
  · intro s n v hfast h hfield
    show execDmvSvcTailDoorbell n v s = _
    simp [execDmvSvcTailDoorbell, fast_runs _ hfast, hfield, serviceLane_of_le h]
  · intro s n v hfast h h'
    show execDmvSvcTailDoorbell n v s = _
    simp [execDmvSvcTailDoorbell, fast_runs _ hfast, Nat.not_lt.2 h']
  · intro s n v hfast h hfield hlaneOf
    show execDmvSvcHeadDoorbell n v s = _
    simp [execDmvSvcHeadDoorbell, fast_runs _ hfast, hfield, hlaneOf, serviceLane_of_le h, releaseRecords]

end Sys2Proof.Machine
end

section
/-! PROOFS. The Map Cache and the Map Lookaside (R473 to R491). -/

namespace Sys2Proof.Machine

/-! ### Accesses of the cores -/

/-- An access that the windows allow goes on. -/
theorem coreDenied_allowed {s : State} {w : Bool} {a k : Nat} (r : Result) (h : winAllowsRange s.ham.win 2 w a k = true) :
    coreDenied w a k s r = r := by
  simp [coreDenied, h]

/-- One that they deny is captured and answered as an access error (R23). -/
theorem coreDenied_denied {s : State} {w : Bool} {a k : Nat} (r : Result) (h : winAllowsRange s.ham.win 2 w a k = false) :
    coreDenied w a k s r = .next (emit .accessError (deniedHam 2 a w s)) := by
  simp [coreDenied, h]

/-- Whether an address is cacheable lies in the windows, whatever the Map Cache holds. -/
theorem cacheable_mch (s : State) (m : Mch) (a : Nat) : cacheable { s with mch := m } a = cacheable s a := rfl

/-! ### Allocation of a filled line -/

/-- Without a write of the Data Mover under way, no range holds a line back. -/
theorem rangeHeld_none {s : State} (la : Nat) (h : s.mch.ranges = []) : rangeHeld s la = false := by
  simp [rangeHeld, h]

/-- Whether a way is disabled lies in its parameter, whatever the Map Cache holds. -/
theorem wayDown_mch (s : State) (m : Mch) (w : Nat) : wayDown { s with mch := m } w = wayDown s w := rfl

/-- A way that is not locked holds nothing back. -/
theorem lockHolds_unlocked {s : State} {w : Nat} (la : Nat) (h : bit s.mch.lock w = false) : lockHolds s w la = false := by
  simp [lockHolds, h]

/-! ### The statement -/

/-- Settles O47. -/
theorem mapCacheAndLookaside : Obligations.MapCacheAndLookaside := by
  unfold Obligations.MapCacheAndLookaside
  refine ⟨?_, ?_, ?_, ?_, ?_, ?_, ?_, ?_, ?_, ?_, ?_, ?_, ?_, ?_, ?_, ?_, ?_, ?_, ?_⟩
  · intro s a hfast hsilent hdoze hwinAllowsRange hcacheable
    show execMapCacheRead a s = _
    simp [execMapCacheRead, engine_runs _ hfast hsilent hdoze, hcacheable, coreDenied_allowed _ hwinAllowsRange, cacheable_mch]
  · intro s a l hfast hsilent hdoze hwinAllowsRange hcacheable hfind
    show execMapCacheRead a s = _
    simp [execMapCacheRead, engine_runs _ hfast hsilent hdoze, hcacheable, hfind, coreDenied_allowed _ hwinAllowsRange, cacheable_mch]
  · intro s a hfast hsilent hdoze hwinAllowsRange hcacheable hfind hany
    show execMapCacheRead a s = _
    simp [execMapCacheRead, engine_runs _ hfast hsilent hdoze, hcacheable, hfind, hany, coreDenied_allowed _ hwinAllowsRange, cacheable_mch]
  · intro s a hfast hsilent hdoze hfind
    show execMapCacheFillDone a s = _
    simp [execMapCacheFillDone, engine_runs _ hfast hsilent hdoze, hfind]
  · intro s a f hfast hsilent hdoze hfind hwants halloc
    show execMapCacheFillDone a s = _
    cases hway : f.way <;> simp [execMapCacheFillDone, engine_runs _ hfast hsilent hdoze, hfind, hwants, halloc, hway]
  · intro s a f w hfast hsilent hdoze hfind hwants halloc hway hranges hwayDown hbit
    show execMapCacheFillDone a s = _
    simp only [execMapCacheFillDone, engine_runs _ hfast hsilent hdoze, hfind, hwants, halloc, hway, List.foldl_nil]
    rw [rangeHeld_none _ (by exact hranges), lockHolds_unlocked _ (by exact hbit)]
    simp only [wayDown_mch, hwayDown, Bool.not_true, Bool.or_false, Bool.false_eq_true, if_false]
  · intro s a hfast hsilent hdoze hwinAllowsRange
    show execMapCacheRead a s = _
    simp [execMapCacheRead, engine_runs _ hfast hsilent hdoze, coreDenied_denied _ hwinAllowsRange]
  · intro s a b hfast hsilent hdoze hwinAllowsRange
    show execMapCacheWrite a b s = _
    simp [execMapCacheWrite, engine_runs _ hfast hsilent hdoze, coreDenied_denied _ hwinAllowsRange]
  · intro s a b hfast hsilent hdoze hwinAllowsRange hlength
    show execMapCacheWrite a b s = _
    simp [execMapCacheWrite, engine_runs _ hfast hsilent hdoze, hlength, coreDenied_allowed _ hwinAllowsRange]
  · intro s a v hfast hpreloadBusy
    show execMchPreloadCtrlWrite a v s = _
    simp [execMchPreloadCtrlWrite, fast_runs _ hfast, hpreloadBusy]
  · intro s a v hfast hpreloadBusy hbit
    show execMchPreloadCtrlWrite a v s = _
    simp [execMchPreloadCtrlWrite, fast_runs _ hfast, hpreloadBusy, hbit]
  · intro s m hfast hwaysOf hwaysOf'
    show execMchWayLockWrite m s = _
    simp [execMchWayLockWrite, fast_runs _ hfast, hwaysOf', Nat.not_lt.2 hwaysOf]
  · intro s m hfast h
    show execMchWayLockWrite m s = _
    simp [execMchWayLockWrite, fast_runs _ hfast, h]
  · intro s hfast
    show execInvAll s = _
    simp [execInvAll, fast_runs _ hfast, invAll]
  · intro s k o p f b hfast hsilent hdoze hk hf
    show execMapLookasideInsert k o p f b s = _
    simp [execMapLookasideInsert, engine_runs _ hfast hsilent hdoze, Nat.not_le.2 hk, Nat.not_le.2 hf]
  · intro s k o p f b hfast hsilent hdoze h
    show execMapLookasideInsert k o p f b s = _
    simp [execMapLookasideInsert, engine_runs _ hfast hsilent hdoze, h]
  · intro s k o p hfast hsilent hdoze
    show execMapLookasideRemove k o p s = _
    simp [execMapLookasideRemove, engine_runs _ hfast hsilent hdoze]
  · intro s k o p e hfast hsilent hdoze hfind
    show execMapLookasideLookup k o p s = _
    simp [execMapLookasideLookup, engine_runs _ hfast hsilent hdoze, hfind]
  · intro s k o p hfast hsilent hdoze hfind
    show execMapLookasideLookup k o p s = _
    simp [execMapLookasideLookup, engine_runs _ hfast hsilent hdoze, hfind]

end Sys2Proof.Machine
end

section
/-! PROOFS. Sensors, watchdogs, scrubs and the self test (R506 to R525); the Weaver's commands (R492 to R505). -/

namespace Sys2Proof.Machine

/-! ### The statements -/

/-- Settles O48. -/
theorem thermalSafetyAndSelfTest : Obligations.ThermalSafetyAndSelfTest := by
  unfold Obligations.ThermalSafetyAndSelfTest
  refine ⟨?_, ?_, ?_, ?_, ?_, ?_, ?_, ?_, ?_, ?_, ?_, ?_, ?_, ?_, ?_, ?_, ?_, ?_⟩
  · intro s r haonInRange hlength
    show execThermalSensorSample r s = _
    simp [execThermalSensorSample, haonInRange, hlength]
  · intro r s htrip hallBelow
    simp [tripCheck, htrip, hallBelow]
  · intro r s hallBelow
    simp [tripCheck, hallBelow]
  · intro s hcoverageLost hcoverageGone
    simp [coverageCheck, hcoverageLost, hcoverageGone]
  · intro s hfast hcoolSince
    show execFastSamplingExit s = _
    simp [execFastSamplingExit, hfast, hcoolSince]
  · intro s ring seq c hfast hc
    show execThermStatus ring seq s = _
    simp [execThermStatus, fast_runs _ hfast, plainOp_runs hc, thermStatus]
  · intro s n hfast
    show execWatchdogKick n s = _
    simp [execWatchdogKick, fast_runs _ hfast]
  · intro s n hfast hpwrok hwatched
    show execWatchdogExpiry n s = _
    simp [execWatchdogExpiry, fast_runs _ hfast, hpwrok, hwatched, watchdogFires]
  · intro s n f hfast hn
    show execWatchdogParkWrite n f s = _
    simp [execWatchdogParkWrite, fast_runs _ hfast, hn]
  · intro s n hfast hpwrok hn hbit
    show execParkedCoreExecutes n s = _
    simp [execParkedCoreExecutes, fast_runs _ hfast, hpwrok, hn, hbit, watchdogFires]
  · intro s hfast hcfgScrub
    show execConfigScrubPass true s = _
    simp [execConfigScrubPass, fast_runs _ hfast, hcfgScrub]
  · intro s hfast hcfgScrub
    show execConfigScrubPass false s = _
    simp [execConfigScrubPass, fast_runs _ hfast, hcfgScrub]
  · intro s n hfast hhamScrub hn hn'
    show execHamperScrubRead n 1 s = _
    simp [execHamperScrubRead, fast_runs _ hfast, hhamScrub, hn, Nat.not_le.2 hn']
  · intro s n hfast hhamScrub hn hn' hwinOf
    show execHamperScrubRead n 2 s = _
    simp [execHamperScrubRead, fast_runs _ hfast, hhamScrub, hn, hwinOf, Nat.not_le.2 hn']
  · intro s n w hfast hhamScrub hn hn' hwinOf
    show execHamperScrubRead n 2 s = _
    simp [execHamperScrubRead, fast_runs _ hfast, hhamScrub, hn, hwinOf, Nat.not_le.2 hn']
  · intro s k c hfast h hk hpwrok
    show execFailSilentDecision k c s = _
    simp [execFailSilentDecision, fast_runs _ hfast, h, hk, hpwrok]
  · intro s ring seq c hfast hc hpk
    show execSelftest ring seq s = _
    simp [execSelftest, fast_runs _ hfast, hc, hpk]
  · intro s l m q c n hfast hfind
    show execSelftestComplete l m q s = _
    simp [execSelftestComplete, fast_runs _ hfast, hfind]

/-- Settles O49. -/
theorem weaverCommands : Obligations.WeaverCommands := by
  unfold Obligations.WeaverCommands
  refine ⟨?_, ?_, ?_, ?_, ?_, ?_, ?_, ?_, ?_, ?_, ?_, ?_, ?_, ?_, ?_⟩
  · intro s n hfast hsilent hn hloopAt hloopAt'
    show execSensorStale n s = _
    simp [execSensorStale, alive_runs _ hfast hsilent, hn, hloopAt, hloopAt', beginStale]
  · intro s n hfast hsilent hloopAt
    show execSensorStale n s = _
    simp [execSensorStale, alive_runs _ hfast hsilent, hloopAt, beginStale]
  · intro s k i v hfast hsilent hk hsensorOk
    show execSensorSampleArrival k i v s = _
    simp [execSensorSampleArrival, alive_runs _ hfast hsilent, hk, hsensorOk]
  · intro s hfast hsilent hweaverRuns
    show execLoopTick s = _
    simp [execLoopTick, alive_runs _ hfast hsilent, hweaverRuns]
  · intro s hfast hsilent hweaverRuns
    show execLoopTick s = _
    simp [execLoopTick, alive_runs _ hfast hsilent, hweaverRuns]
  · intro s
    simp [runLoops]
  · intro s hfast hrunning hmgtRunning hwvmFound hsilent
    show execWvmStart s = _
    simp [execWvmStart, alive_runs _ hfast hsilent, hrunning, hmgtRunning, hwvmFound, hsilent]
  · intro s n x hfast hsilent hloopAt
    show execInjectionEnd n s = _
    simp [execInjectionEnd, alive_runs _ hfast hsilent, hloopAt, injectCut]
  · intro s hfast hsilent
    show execCaptureTrigger s = _
    simp [execCaptureTrigger, alive_runs _ hfast hsilent, startCapture]
  · intro s ring seq c x hfast hc hport hpk hpk' hloopAt
    show execWvrInject ring seq s = _
    simp [execWvrInject, fast_runs _ hfast, auditedOp_taken hc hport, wvrInject, hpk, hpk', hloopAt]
  · intro s ring seq c hfast hc hport hpk hpk' hloopAt hinjections
    show execWvrInject ring seq s = _
    simp [execWvrInject, fast_runs _ hfast, auditedOp_taken hc hport, wvrInject, hpk, hpk', hloopAt, Nat.not_le.2 hinjections]
  · intro c st de s hpk hpk'
    have hwaits : injectWaits c = true := by simp [injectWaits, hpk, hpk']
    simp [applyWvrInject, hpk, hwaits]
  · intro s ring seq c hfast hc hport hpk hcaptureBusy
    show execWvrCapture ring seq s = _
    simp [execWvrCapture, fast_runs _ hfast, auditedOp_taken hc hport, wvrCapture, hpk, hcaptureBusy]
  · intro s ring seq c hfast hc hport hpk hcaptureBusy
    show execWvrCapture ring seq s = _
    simp [execWvrCapture, fast_runs _ hfast, auditedOp_taken hc hport, wvrCapture, hpk, hcaptureBusy]
  · intro c s hpk hpk'
    simp [applyWvrCapture, hpk, hpk']

end Sys2Proof.Machine
end
